-- ==== Sys2Proof/Word.lean ====
section
/-! DEFINITION. The bit-vector types of the model: a byte, and the 64-bit word that holds one scalar object
of the dictionary (R23: no scalar type is wider than 8 bytes). -/

namespace Sys2Proof

/-- One byte (R11, R12). -/
abbrev Byte := BitVec 8

/-- The value of one scalar object, in the low bytes of its 8-byte slot (R23, R61). -/
abbrev Word := BitVec 64

/-- A string of bytes: a message, a packet, a DOMAIN value. -/
abbrev Bytes := List Byte

end Sys2Proof
end

