-- ==== Sys2Proof/Syntax.lean ====
section
/-! DEFINITION. The commands of the block: one constructor of `Instr` per row of spec/opcode_table.json, in the
table's order, with the operands that the rules of the spec give the step. Operand structures stand first. -/

namespace Sys2Proof

/-- The two leaf builds of the model: the leaf on a host die, and the self-leaf inside the trunk (R5). -/
inductive LeafId where
  | host
  | self
  deriving DecidableEq, Repr

/-- A unit with a dictionary of its own (R17). -/
inductive UnitId where
  | leaf (l : LeafId)
  | trunk
  deriving DecidableEq, Repr

/-- One end of a Stem link: a leaf's port (0x3001) or port n of the trunk (0x6500 + n, R348). -/
inductive StemId where
  | leaf (l : LeafId)
  | trunk (port : Nat)
  deriving DecidableEq, Repr

/-- The transports of the dictionary, in the order of R27 (R52, R56, R58, R59, R60). -/
inductive Via where
  | lp        -- the local port
  | service   -- a service segment
  | servicePort
  | exportNet -- export Ethernet
  | inband
  deriving DecidableEq, Repr

/-- The tap wires in one region cycle that carries no command pulse (What a tap receives, R124). -/
structure Cycle where
  slotIssued  : Nat := 0
  slotDiscard : Nat := 0
  feWait      : Bool := false
  beWait      : Bool := false
  busy        : Bool := false
  occ         : Nat := 0
  evt         : BitVec 16 := 0
  deriving DecidableEq, Repr

/-- Who asks, over what, with the header fields of R40 that every request carries. On the local port `user`
and `agent` are lp_user and lp_agent (R627); in-band `partition` is the Pleach message's Partition (R397). A request that an
Ethernet frame carries (R54, R55, R59) has the frame's source address in `mac`, its destination address in `toMac` (none: that of
the unit it reaches) and its EtherType; a datagram's UDP destination port is `udp` (R58). `cycles` holds, per tap, the cycles of this tick
that have run before the access and that no other command carries (R132, R146). -/
structure Env where
  via     : Via
  version : Nat := 1
  txn     : Nat := 0
  dest    : Nat := 0
  source  : Nat := 0
  segment : Nat := 0
  partition : Nat := 0
  user    : Bool := false
  agent   : Nat := 0
  mac     : Nat := 0
  toMac   : Option Nat := none
  etherType : Nat := 0x88B5
  udp     : Nat := 7733
  cycles  : List (Nat × List Cycle) := []
  deriving DecidableEq, Repr

/-- What reaches the hub with one sample tick (R76, R126, R149, R154, R173, R620): per region the cycles run,
per tap the cycles that ran, per voltage sensor its lowest value (none: marked invalid, R155), and the levels of
the TIME-domain inputs after their synchronisers (R623). -/
structure TickIn where
  regionCycles : List (Nat × Nat) := []
  tapCycles    : List (Nat × List Cycle) := []
  volts        : List (Nat × Option Nat) := []
  regFault     : BitVec 64 := 0
  stageReq     : BitVec 64 := 0
  headroom     : Bool := false
  throttle     : Bool := false
  pfWarn       : Bool := false
  offers       : List Nat := []
  eccCorrected   : Nat := 0
  eccUncorrected : Nat := 0
  deriving DecidableEq, Repr

/-- A link timestamp: ns and a fraction in units of 2^-16 ns (R84). -/
structure Stamp where
  ns   : Nat := 0
  frac : Nat := 0
  deriving DecidableEq, Repr

/-- A link port that carries time messages: a Stem end or a Pleach port of the trunk (R87). -/
inductive TimePort where
  | stem (e : StemId)
  | pleach (p : Nat)
  deriving DecidableEq, Repr

/-- The PTP event messages that a trunk stamps on an export port (R104). -/
inductive PtpKind where
  | delayReq
  | pdelayReq
  | pdelayResp
  deriving DecidableEq, Repr

/-- A PTP measurement at the trunk's ordinary clock (R106 to R109): the measured PTP time at the current
FleetTime, whether the clock is locked, the rate (units of 2^-48) that firmware estimates, and the attributes
that UtcMap publishes; and of the messages that made it the domain, whether they came over UDP/IPv6, whether the delay was
measured peer to peer, and whether the master is a two-step one. -/
structure PtpMeas where
  ptpTime      : Nat
  locked       : Bool := true
  rate         : Int := 0
  utcOffset    : Int := 0
  grandmaster  : Nat := 0
  domain       : Nat := 0
  udp          : Bool := true
  peerToPeer   : Bool := false
  twoStep      : Bool := true
  deriving DecidableEq, Repr

/-- One access of a traced memory port (R180). -/
structure PortAccess where
  write : Bool := false
  addr  : Nat := 0
  size  : Nat := 1
  value : Bytes := []
  error : Bool := false
  deriving DecidableEq, Repr

/-- A leaf record on its way to the trunk: the fields of R214. -/
structure LeafRec where
  seq     : Nat
  kind    : Nat
  flags   : Nat := 0
  time    : Nat := 0
  payload : Bytes := []
  deriving DecidableEq, Repr

/-- Bytes 1 to 6 of a START block (R352). -/
structure LinkStart where
  seq    : Nat := 0
  cls    : Nat := 0
  first  : Bool := false
  unseq  : Bool := false
  yellow : Bool := false
  length : Nat := 1
  aux    : Nat := 0
  deriving DecidableEq, Repr

/-- A block as a Stem receiver gets it, descrambled (R343): whether its sync header is that of a control block, its bytes, and
whether it came before the START of the link frame it is given with. -/
structure RxBlock where
  control : Bool
  bytes   : Bytes
  outside : Bool := false
  deriving DecidableEq, Repr

/-- What a LINK_FRAME brings beyond its START and payload: the Crc of the END (R352), and the other blocks that came from the end
of the frame before up to the frame's END, or in place of its END (R347). -/
structure FrameEnd where
  crc     : BitVec 32
  between : List RxBlock := []
  deriving DecidableEq, Repr

/-- The 36 bytes of a time message's payload (R89), and whether it passes its CRC. -/
structure TimeWire where
  data  : Bytes
  crcOk : Bool
  deriving DecidableEq, Repr

/-- What the RS decoder reports of a codeword (R382). -/
inductive Fec where
  | corrected (symbols : Nat)
  | uncorrectable
  deriving DecidableEq, Repr

/-- What a Pleach port finds where an ALIGN codeword is due (R381): per lane whether its ALIGN symbols are there, and whether the
AlignCounts agree. -/
structure LaneMarks where
  lanes : BitVec 8
  agree : Bool
  deriving DecidableEq, Repr

/-- A codeword as a Pleach port gets it: the decoder's report, and its 640 bytes (R384). -/
structure RxFlit where
  fec  : Fec
  data : Bytes
  deriving DecidableEq, Repr

/-- A Pleach message: the header of R397, the payload, and whether its trailer matches. -/
structure PMsg where
  kind      : Nat
  cls       : Nat
  direct    : Bool := false
  hops      : Nat := 0
  dest      : Nat := 0
  source    : Nat := 0
  partition : Nat := 0
  payload   : Bytes := []
  trailerOk : Bool := true
  deriving DecidableEq, Repr

/-- Where a Pleach message came in: a Pleach port, or local injection (R407). -/
inductive Ingress where
  | port (p : Nat)
  | inject
  deriving DecidableEq, Repr

/-- The 40-byte header of a PARTIAL or RESULT (R426); the bodies follow as bytes. -/
structure PartialMsg where
  group      : Nat
  generation : Nat
  stage      : Nat
  window     : Nat
  origin     : Nat
  minus      : Bool := false
  members    : Nat := 0
  present    : Nat := 0
  gapLeaves  : Nat := 0
  trunks     : Nat := 0
  fieldCount : Nat := 0
  flags      : Nat := 0
  listCrc    : Nat := 0
  bodies     : Bytes := []
  deriving DecidableEq, Repr

/-- A GROUP_CONTROL message's 24-byte header (R445) with its sender, and for SETUP the GroupSetup bytes. -/
structure GroupCtl where
  reason     : Nat := 0
  group      : Nat
  generation : Nat := 0
  nakGen     : Nat := 0
  atWindow   : Nat := 0
  quarantine : Nat := 0
  sender     : Nat := 0
  setup      : Bytes := []
  deriving DecidableEq, Repr

/-- The fleet trigger of R440. -/
structure FleetTrig where
  group       : Nat
  generation  : Nat := 0
  stage       : Nat := 0
  triggerId   : Nat
  originStamp : Nat
  minus       : Bool := false
  ingress     : Nat := 0
  hops        : Nat := 0
  deriving DecidableEq, Repr

/-- A sprig thread (R457): tile, sprig of the tile, thread of the sprig. -/
structure ThreadId where
  tile   : Nat
  sprig  : Nat
  thread : Nat
  deriving DecidableEq, Repr

/-- A register of a sprig thread (R456, R457): integer, floating-point, or vector from its byte `pos` on. -/
inductive SprigReg where
  | x (n : BitVec 5)
  | f (n : BitVec 5)
  | v (n : BitVec 5) (pos : Nat)
  deriving DecidableEq, Repr

/-- One access of a load or store instruction (R459): of `size` bytes at x[`base`] + `offset`, between memory and a register;
an integer load is sign-extended if `signed`. The pc goes on by `advance` bytes (0 where further accesses of the instruction
follow); `ecc` says that the memory reports an uncorrectable error (R460). -/
structure SprigAccess where
  store   : Bool := false
  reg     : SprigReg
  size    : Nat
  signed  : Bool := false
  base    : BitVec 5 := 0
  offset  : Word := 0
  advance : Nat := 4
  ecc     : Bool := false
  deriving DecidableEq, Repr

/-- A LEASE message (R479). -/
structure LeaseMsg where
  reason   : Nat := 0
  units    : Nat := 1
  leaseId  : Nat
  lender   : Nat := 0
  borrower : Nat := 0
  expires  : Nat := 0
  recallAt : Nat := 0
  duration : Nat := 0
  deriving DecidableEq, Repr

/-- A LEASE_DATA message (R479). -/
structure LeaseData where
  leaseId   : Nat
  offset    : Nat := 0
  length    : Nat := 0
  tag       : Nat := 0
  partition : Nat := 0
  sender    : Nat := 0
  data      : Bytes := []
  deriving DecidableEq, Repr

/-- What the power sensors and activity counters of one energy window say (R484): the package energy and the
energy of classes 1 to 6, in µJ. -/
structure EnergyMeas where
  measured : Nat
  used     : List Nat
  deriving DecidableEq, Repr

/-- The 16-byte head of a RECOMPUTE message (R561). -/
structure RecomputeHead where
  format     : Nat := 0
  scaleMode  : Nat := 0
  source     : Nat := 0
  weightLeaf : Nat := 0
  tag        : Nat := 0
  tagMask    : Nat := 0
  k          : Nat := 0
  n          : Nat := 0
  sender     : Nat := 0
  deriving DecidableEq, Repr

/-- A COMMAND or BLOCK digest that a trunk receives from a trace source (R192); `begin` is its Index, `stamp` its own. -/
structure DigestMsg where
  tag    : Nat
  digest : Nat
  bytes  : Nat
  begin  : Nat
  stamp  : Nat := 0
  deriving DecidableEq, Repr

/-- A queue of one trunk egress: a Pleach port, or a Stem port (R325). -/
inductive EgressId where
  | pleach (p : Nat)
  | stem (n : Nat)
  deriving DecidableEq, Repr

/-- A share arbiter: a leaf's uplink (R310) or memory-stack port n of the trunk (R323). -/
inductive ArbId where
  | uplink (l : LeafId)
  | mem (n : Nat)
  deriving DecidableEq, Repr

/-- Where a resource of the Thicket was hit by an uncorrectable error (R532). -/
structure EccHit where
  model    : Nat
  inferring : Bool := false
  vectors  : List Nat := []
  ring     : Nat := 0
  index    : Nat := 0
  deriving DecidableEq, Repr

/-- The Flags and the data of a request (R40). -/
structure SdpBody where
  flags : Nat
  data  : Bytes
  deriving DecidableEq, Repr

/-- The fields of a response (R40) beside its Opcode, TxnId and Abort. -/
structure SdpReply where
  source : Nat
  index  : Nat
  sub    : Nat
  flags  : Nat
  offset : Nat
  data   : Bytes
  deriving DecidableEq, Repr

/-- The requester of a proxied request, to whom the response goes back (R58, R59): an IPv6 address and UDP
port, or a MAC address on the service port. -/
inductive Origin where
  | udp (addr : Nat) (port : Nat)
  | mac (addr : Nat)
  deriving DecidableEq, Repr

/-- The commands: one per row of spec/opcode_table.json. -/
inductive Instr where
  -- ## FleetTime's tick and the dictionary server (chapters 01, 02)
  /-- SAMPLE_TICK (R76). -/
  | sampleTick (u : UnitId) (i : TickIn)
  /-- READ (R652). On the local port `offset` is the offset in the slot and `length` the access width (R61). -/
  | read (u : UnitId) (e : Env) (index sub offset length : Nat)
  /-- WRITE (R28). -/
  | write (u : UnitId) (e : Env) (index sub offset length : Nat) (last : Bool) (data : Bytes)
  /-- READ_RECORD (R44). -/
  | readRecord (u : UnitId) (e : Env) (index offset length : Nat)
  /-- SUBSCRIBE (R50). -/
  | subscribe (u : UnitId) (e : Env) (index sub : Nat)
  /-- UNSUBSCRIBE (R50). -/
  | unsubscribe (u : UnitId) (e : Env) (index sub : Nat)
  /-- IDENTIFY (R43). -/
  | identify (u : UnitId) (e : Env)
  /-- ACK (R39). -/
  | ack (u : UnitId) (e : Env) (index : Nat) (seq : Nat)
  /-- SHORT_MESSAGE_DISCARD (R650). -/
  | shortMessageDiscard (u : UnitId) (data : Bytes)
  /-- MISADDRESSED (R651). -/
  | misaddressed (u : UnitId) (e : Env)
  /-- SDP_RESPONSE (R650): a response or NOTIFY arrives at a requester; `drop` is the service segment and the drop that sent it. -/
  | sdpResponse (u : UnitId) (opcode txn source index length abort : Nat) (data : Bytes) (drop : Option (Nat × Nat))
  /-- LATCH_RELEASE (R45). -/
  | latchRelease (u : UnitId)
  /-- REPLAY_ENTRY_FREE (R47). -/
  | replayEntryFree (u : UnitId)
  /-- PROXY_REQUEST (R58): `opcode`, `index`, `sub`, `offset`, `length` and `m` are the request's. -/
  | proxyRequest (e : Env) (origin : Origin) (opcode index sub offset length : Nat) (m : SdpBody)
  /-- PROXY_RESPONSE (R58): the fields of the response (R40) that comes back to a slot. -/
  | proxyResponse (slot txn opcode abort : Nat) (m : SdpReply)
  /-- PROXY_SLOT_TIMEOUT (R58). -/
  | proxySlotTimeout (slot : Nat)
  /-- STORE_CONFIG (R31). -/
  | storeConfig (u : UnitId) (e : Env) (value : Nat)
  /-- STORE_CONFIG_TIMEOUT (R31). -/
  | storeConfigTimeout (l : LeafId)
  /-- RESTORE_DEFAULTS (R32). -/
  | restoreDefaults (u : UnitId) (e : Env) (value : Nat)
  /-- RES_LATCH_READ (R62). -/
  | resLatchRead (l : LeafId) (e : Env) (index : Nat)
  /-- LOCAL_INDIRECT_SELECT (R64). -/
  | localIndirectSelect (l : LeafId) (e : Env) (pair : Nat) (value : Word)
  /-- LOCAL_INDIRECT_DATA_READ (R64). -/
  | localIndirectDataRead (l : LeafId) (e : Env) (pair : Nat)
  /-- LOCAL_INDIRECT_DATA_WRITE (R64). -/
  | localIndirectDataWrite (l : LeafId) (e : Env) (pair : Nat) (value : Word)
  /-- LOCAL_INDIRECT_COMMIT (R64). -/
  | localIndirectCommit (l : LeafId) (e : Env) (pair : Nat) (value : Nat)
  /-- FLAG_CLEAR (R148). -/
  | flagClear (u : UnitId) (e : Env) (index sub : Nat) (value : BitVec 32)
  /-- MODE_CHANGE (R9). -/
  | modeChange (u : UnitId) (index : Nat)
  -- ## FleetTime (chapter 02)
  /-- TIME_MESSAGE_SEND (R87): `tx` is how long after the unit's newest tick the message's start control block crosses the
  reference plane (R83). -/
  | timeMessageSend (p : TimePort) (tx : Stamp)
  /-- TIME_MESSAGE (R88): what arrives, and how long before the unit's newest
  tick its start control block crossed the reference plane (R83). -/
  | timeMessage (p : TimePort) (m : TimeWire) (rx : Stamp)
  /-- INCREMENT_APPLY (R92). -/
  | incrementApply (u : UnitId)
  /-- EXCHANGE_TIMEOUT (R93). -/
  | exchangeTimeout (u : UnitId)
  /-- HOLDOVER_EXPIRED (R93). -/
  | holdoverExpired (u : UnitId)
  /-- SOURCE_TIMEOUT (R99). -/
  | sourceTimeout
  /-- STEP_CMD (R115). -/
  | stepCmd (u : UnitId) (e : Env) (value : Int)
  /-- POP (R105). -/
  | pop (u : UnitId) (e : Env) (k : Nat)
  /-- PTP_MESSAGE (R108). -/
  | ptpMessage (m : PtpMeas)
  /-- UTC_RESTEP (R108). -/
  | utcRestep (e : Env) (value : Nat)
  /-- REGION_STOP (R113). -/
  | regionStop (l : LeafId) (r : Nat)
  /-- REGION_RESUME (R113). -/
  | regionResume (l : LeafId) (r : Nat)
  /-- REGION_POWER_DOWN (R654). -/
  | regionPowerDown (l : LeafId) (r : Nat)
  /-- REGION_POWER_UP (R129). -/
  | regionPowerUp (l : LeafId) (r : Nat)
  -- ## Taps (chapter 03)
  /-- CMD_BEGIN (R135): the tap's cycles since its last command pulse or the last sample tick, the pulse's own cycle,
  and whether cmd_end is 1 in that cycle too (`pair`, R656: the END comes first if a command is held). -/
  | cmdBegin (l : LeafId) (tap tag : Nat) (pre : List Cycle) (c : Cycle) (pair : Bool)
  /-- CMD_END (R138): as CMD_BEGIN; `pair`: cmd_begin is 1 in the same cycle. -/
  | cmdEnd (l : LeafId) (tap tag : Nat) (pre : List Cycle) (c : Cycle) (pair : Bool)
  /-- ARRIVAL_MARK (R142). -/
  | arrivalMark (l : LeafId) (e : Env) (step : Nat)
  /-- COUNTER_SCAN (R131). -/
  | counterScan (l : LeafId)
  /-- REGION_RST (R626). -/
  | regionRst (l : LeafId) (r : Nat)
  /-- LOST_RECORD (R140). -/
  | lostRecord (l : LeafId)
  -- ## Power and health (chapter 04)
  /-- CURRENT_SAMPLE (R154): region and value in mA; none: marked invalid. -/
  | currentSample (l : LeafId) (vals : List (Nat × Option Nat))
  /-- TEMPERATURE_READING (R154): sensor and value in 1/16 °C; none: marked invalid. -/
  | temperatureReading (l : LeafId) (vals : List (Nat × Option Int))
  /-- MIN_V_READ (R157). -/
  | minVRead (l : LeafId) (e : Env) (sensor : Nat)
  /-- CLUSTER_CHANGE (R658). -/
  | clusterChange (l : LeafId) (r : Nat)
  /-- STAGE_REQUEST (R161). -/
  | stageRequest (l : LeafId) (r stage : Nat)
  /-- GRANT (R163). -/
  | grant (l : LeafId) (c : Nat)
  /-- DENY (R163). -/
  | deny (l : LeafId) (c : Nat)
  /-- INRUSH_DEFER_TIMEOUT (R163). -/
  | inrushDeferTimeout (l : LeafId) (c : Nat)
  /-- STAGE_GRANT (R177). -/
  | stageGrant (l : LeafId) (e : Env) (r stage : Nat)
  /-- STAGE_DENY (R177). -/
  | stageDeny (l : LeafId) (e : Env) (r stage : Nat)
  /-- SHED_ASSERT (R171). -/
  | shedAssert (l : LeafId) (e : Env) (c : Nat)
  /-- SHED_RELEASE (R171). -/
  | shedRelease (l : LeafId) (e : Env) (c : Nat)
  /-- REG_FAULT (R166). -/
  | regFault (l : LeafId) (r : Nat)
  /-- CARRY_TIME_EXPIRED (R168). -/
  | carryTimeExpired (l : LeafId) (c : Nat)
  /-- REG_CLEAR (R170). On a leaf without a gate `c` names the power region (R172). -/
  | regClear (l : LeafId) (c : Nat)
  /-- POWER_FAIL_WARNING (R174). -/
  | powerFailWarning (u : UnitId)
  /-- POWER_FAIL_RECOVER (R176). -/
  | powerFailRecover (u : UnitId)
  -- ## Data-access trace (chapter 05)
  /-- TRACE_ACCESS (R183). -/
  | traceAccess (l : LeafId) (src : Nat) (a : PortAccess)
  /-- PERIODIC_SYNC (R193). -/
  | periodicSync (l : LeafId) (src : Nat)
  /-- FUNNEL_TRANSFER (R195). -/
  | funnelTransfer (l : LeafId)
  /-- OVERFLOW_PACKET (R196). -/
  | overflowPacket (l : LeafId) (src : Nat)
  /-- SOFT_TRIGGER (R199). -/
  | softTrigger (l : LeafId) (e : Env) (value : Nat)
  /-- FATAL (R216). -/
  | fatal (u : UnitId) (code detail : Nat)
  /-- FREEZE (R202). -/
  | freeze (l : LeafId)
  /-- TRACE_ENABLE (R206). -/
  | traceEnable (l : LeafId) (e : Env) (value : Nat)
  /-- REARM (R206). -/
  | rearm (l : LeafId) (e : Env) (value : Nat)
  /-- DRAIN_CMD (R207). -/
  | drainCmd (l : LeafId) (e : Env) (value : Nat)
  /-- DRAIN_DONE (R207). -/
  | drainDone (l : LeafId)
  /-- CAPTURE_ARM (R209). -/
  | captureArm (l : LeafId) (e : Env) (value : Word)
  /-- DIGEST_BLOCK_CLOSE (R211). -/
  | digestBlockClose (l : LeafId) (src : Nat)
  /-- DIGEST_MODE_WRITE (R212). -/
  | digestModeWrite (l : LeafId) (e : Env) (src value : Nat)
  -- ## Event recorder (chapter 06)
  /-- WRITE_RECORD (R218). -/
  | writeRecord (u : UnitId) (e : Env) (data : Bytes)
  /-- SNAP_NOW (R220). -/
  | snapNow (u : UnitId) (e : Env) (value : Nat)
  /-- RECORDER_PORT_READ (R226). -/
  | recorderPortRead (u : UnitId) (e : Env)
  /-- FLUSH_SOFTWARE (R234). -/
  | flushSoftware (l : LeafId) (e : Env)
  /-- FLUSH_TEARDOWN (R234). -/
  | flushTeardown (l : LeafId) (e : Env)
  /-- FLUSH_END (R231). -/
  | flushEnd (l : LeafId)
  /-- RECORDER_ACK (R230): ranges First, Last. -/
  | recorderAck (l : LeafId) (ranges : List (Nat × Nat))
  /-- ACK_TIMEOUT (R230). -/
  | ackTimeout (l : LeafId)
  /-- LEAF_RECORD (R237). -/
  | leafRecord (port : Nat) (r : LeafRec)
  /-- RECORDER_COMMIT (R240). -/
  | recorderCommit
  -- ## Snapshots and frames (chapter 07)
  /-- LATCH (R244). -/
  | latch (l : LeafId) (s : Nat)
  /-- FRAME_BUILD (R254). -/
  | frameBuild (l : LeafId) (s : Nat)
  /-- SCHEDULE_ENABLE (R245). -/
  | scheduleEnable (l : LeafId) (e : Env) (s : Nat)
  /-- SCHEDULE_DISABLE (R246). -/
  | scheduleDisable (l : LeafId) (e : Env) (s : Nat)
  /-- SNAPSHOT_AT (R249). -/
  | snapshotAt (l : LeafId) (e : Env) (t : Nat)
  /-- ONE_SHOT_LATCH (R250). -/
  | oneShotLatch (l : LeafId)
  /-- REBIND (R266). -/
  | rebind (l : LeafId) (e : Env) (s : Nat) (value : Word)
  /-- DEGRADE_CMD (R274). -/
  | degradeCmd (l : LeafId) (e : Env) (value : Nat)
  /-- TRUNK_LADDER (R275). -/
  | trunkLadder
  -- ## Frame codec (chapter 08)
  /-- FRAME_ENCODE (R296). -/
  | frameEncode (l : LeafId) (s : Nat)
  /-- STREAM_RESET (R297). -/
  | streamReset (l : LeafId) (e : Env) (value : Nat)
  /-- COMPRESS (R300): descriptor `i` of ring `r`. -/
  | compress (r i : Nat)
  /-- DECOMPRESS (R301). -/
  | decompress (r i : Nat)
  /-- DECOMPRESS_RESUME (R302). -/
  | decompressResume (r i : Nat)
  /-- LEAF_FRAME (R303): a coded frame of `schedule` arrives whole on Stem port `port`. -/
  | leafFrame (port schedule : Nat) (coded : Bytes) (colour : Nat)
  -- ## Sharing (chapter 09)
  /-- ARBITER_WINDOW (R312). -/
  | arbiterWindow (a : ArbId)
  /-- DECISION (R314). -/
  | decision (a : ArbId)
  /-- PREEMPTION (R318): `sent` bytes of the transfer being sent had left. -/
  | preemption (l : LeafId) (sent : Nat)
  /-- WFQ_TAG (R327). -/
  | wfqTag (g : EgressId) (cls : Nat)
  /-- WFQ_SEND (R327). -/
  | wfqSend (g : EgressId)
  /-- DRR_FORCE (R330): at 0x2920 + `p`. -/
  | drrForce (e : Env) (p : Nat)
  /-- WFQ_RESTORE (R332). -/
  | wfqRestore (e : Env) (p : Nat)
  /-- WFQ_RETURN (R332). -/
  | wfqReturn (g : EgressId)
  /-- SHAPER_WRITE (R335): object 0x2940 + `k`. -/
  | shaperWrite (e : Env) (k sub value : Nat)
  /-- PROFILE_WRITE (R340): `index` is 0x2981 to 0x2984, or 0x6400 + n with `sub` 1. -/
  | profileWrite (e : Env) (index sub value : Nat)
  -- ## The Stem link (chapter 10)
  /-- BLOCK_LOCK (R348). -/
  | blockLock (p : TimePort)
  /-- ALIGN (R345): the MarkerCounts of a pair. -/
  | align (e : StemId) (count0 count1 : Nat)
  /-- BRING_UP_TIMEOUT (R348, R386). -/
  | bringUpTimeout (p : TimePort)
  /-- HELLO_SEND (R349, R387). -/
  | helloSend (p : TimePort)
  /-- HELLO (R349). -/
  | hello (e : StemId) (role level : Nat) (accept : Bool) (leafId : Nat)
  /-- LINK_FRAME_START (R367). -/
  | linkFrameStart (e : StemId)
  /-- LINK_FRAME (R360): the START, the payload, and what comes with them. -/
  | linkFrame (e : StemId) (h : LinkStart) (data : Bytes) (x : FrameEnd)
  /-- ABORT (R355). -/
  | abort (e : StemId)
  /-- LINK_ACK (R362). -/
  | linkAck (e : StemId) (ackSeq : Nat)
  /-- LINK_NAK (R362). -/
  | linkNak (e : StemId) (ackSeq : Nat)
  /-- CREDIT (R367). -/
  | credit (e : StemId) (assured bulk : Nat)
  /-- RETRY_TIMEOUT (R362). -/
  | retryTimeout (e : StemId)
  /-- TRIGGER (R358). -/
  | trigger (l : LeafId) (triggerId originStamp : Nat)
  /-- RESET_LINK (R370). -/
  | resetLink (e : StemId)
  /-- RESET_LANE (R370). -/
  | resetLane (e : StemId)
  /-- BLOCK_LOCK_LOST (R370). -/
  | blockLockLost (e : StemId)
  /-- RESET_CMD_LINK (R370). -/
  | resetCmdLink (p : TimePort) (e : Env)
  /-- RESET_CMD_LANE (R370). -/
  | resetCmdLane (p : TimePort) (e : Env)
  -- ## The Pleach fabric (chapter 11)
  /-- ALIGN_CODEWORD (R381): the decoder's report, and what the lanes show. -/
  | alignCodeword (p : Nat) (fec : Fec) (m : LaneMarks)
  /-- PLEACH_HELLO (R387): a HELLO flit. -/
  | pleachHello (p : Nat) (f : RxFlit)
  /-- WIRING_TIMEOUT (R387). -/
  | wiringTimeout (p : Nat)
  /-- FLIT (R389): its 640 bytes (R384). -/
  | flit (p : Nat) (fec : Fec) (data : Bytes)
  /-- ABORT_FLIT (R399): an ABORT flit, its 640 bytes. -/
  | abortFlit (p : Nat) (fec : Fec) (data : Bytes)
  /-- RESET_FLIT (R419): a RESET flit, its 640 bytes. -/
  | resetFlit (p : Nat) (fec : Fec) (data : Bytes)
  /-- FLIT_RETRY_TIMEOUT (R390). -/
  | flitRetryTimeout (p : Nat)
  /-- FLIT_SEND (R408). -/
  | flitSend (p : Nat)
  /-- MESSAGE_HEADER (R407). -/
  | messageHeader (i : Ingress) (vc : Nat) (m : PMsg)
  /-- MESSAGE_DELIVER (R401). -/
  | messageDeliver (m : PMsg)
  /-- FENCE_NOTICE (R414). -/
  | fenceNotice (source count : Nat) (entry : Bytes)
  /-- FENCE_APPLY (R415). -/
  | fenceApply
  /-- OPTICS_FAULT (R418): the status word of 0x3110 + p sub 2. -/
  | opticsFault (p : Nat) (status : BitVec 32)
  -- ## Reduction (chapter 12)
  /-- COLLECT_DEADLINE (R434): group slot `slot`, window `w`. -/
  | collectDeadline (slot w : Nat)
  /-- PARTIAL (R432). -/
  | partialMsg (m : PartialMsg)
  /-- STAGE_CLOSE (R433). -/
  | stageClose (slot w stage : Nat)
  /-- RESULT (R436). -/
  | result (m : PartialMsg)
  /-- FLEET_TRIGGER (R439). -/
  | fleetTrigger (e : Env) (group : Nat)
  /-- PLEACH_TRIGGER (R440). -/
  | pleachTrigger (t : FleetTrig)
  /-- GROUP_SETUP (R441). -/
  | groupSetup (e : Env) (data : Bytes)
  /-- SETUP (R442). -/
  | setup (m : GroupCtl)
  /-- SETUP_ACK (R444). -/
  | setupAck (m : GroupCtl)
  /-- SETUP_NAK (R444). -/
  | setupNak (m : GroupCtl)
  /-- SETUP_TIMEOUT (R444). -/
  | setupTimeout
  /-- GROUP_COMMIT (R446). -/
  | groupCommit (m : GroupCtl)
  /-- GROUP_CONTROL_ABORT (R444). -/
  | groupControlAbort (m : GroupCtl)
  /-- GROUP_TEARDOWN (R449). -/
  | groupTeardown (e : Env) (group : Nat)
  /-- TEARDOWN (R449). -/
  | teardown (m : GroupCtl)
  /-- QUARANTINE_START (R450). -/
  | quarantineStart (slot : Nat)
  /-- QUARANTINE_END (R450). -/
  | quarantineEnd (slot : Nat)
  /-- JOIN (R448). -/
  | join (e : Env) (group leafId : Nat)
  /-- LEAVE (R448). -/
  | leave (e : Env) (group leafId : Nat)
  /-- CHANGE_BATCH (R451). -/
  | changeBatch
  /-- TRANSITION_END (R452): Stem port `port`. -/
  | transitionEnd (port : Nat)
  -- ## The analysis fabric (chapter 13)
  /-- SYNC_WAIT (R461): SYNC.WAIT rd, rs1, rs2. -/
  | syncWait (t : ThreadId) (rd rs1 rs2 : BitVec 5)
  /-- SYNC_WAIT_END (R466). -/
  | syncWaitEnd (t : ThreadId)
  /-- SYNC_ADD (R463): SYNC.ADD rd, rs1, rs2. -/
  | syncAdd (t : ThreadId) (rd rs1 rs2 : BitVec 5)
  /-- FT_READ (R463): FT.READ rd. -/
  | ftRead (t : ThreadId) (rd : BitVec 5)
  /-- FT_READF (R461): FT.READF rd. -/
  | ftReadF (t : ThreadId) (rd : BitVec 5)
  /-- FRAME_LOC (R463): FRAME.LOC rd, rs1, rs2. -/
  | frameLoc (t : ThreadId) (rd rs1 rs2 : BitVec 5)
  /-- ILLEGAL_INSTRUCTION (R462). -/
  | illegalInstruction (t : ThreadId) (word : BitVec 32)
  /-- SPRIG_LOAD_STORE (R459). -/
  | sprigLoadStore (t : ThreadId) (a : SprigAccess)
  /-- KCLASS_WRITE (R458): a CSR instruction that writes `value` to kclass and puts its old value in rd. -/
  | kclassWrite (t : ThreadId) (rd : BitVec 5) (value : Word)
  /-- SYNC_ADD_CMD (R465). -/
  | syncAddCmd (e : Env) (value : Word)
  /-- DESCRIPTOR_SUBMIT (R469): the produce counter of ring `r` has risen. -/
  | descriptorSubmit (r : Nat)
  /-- DESCRIPTOR_COMPLETE (R470): descriptor `i` of ring `r`. -/
  | descriptorComplete (r i : Nat)
  /-- RING_RESET (R473). -/
  | ringReset (e : Env) (r value : Nat)
  /-- COPY (R475). -/
  | copy (r i : Nat)
  /-- GATHER (R475). -/
  | gather (r i : Nat)
  /-- SCATTER (R475). -/
  | scatter (r i : Nat)
  /-- FILL (R475). -/
  | fill (r i : Nat)
  /-- POOL_ALLOC (R477). -/
  | poolAlloc (r i : Nat)
  /-- POOL_FREE (R475). -/
  | poolFree (r i : Nat)
  /-- POOL_RETAG (R478). -/
  | poolRetag (r i : Nat)
  /-- LEASE_WRITE (R475). -/
  | leaseWrite (r i : Nat)
  /-- LEASE_READ (R475). -/
  | leaseRead (r i : Nat)
  /-- LEASE_REQUEST (R480): at the lender. -/
  | leaseRequest (m : LeaseMsg)
  /-- LEASE_GRANT (R480): at the borrower. -/
  | leaseGrant (m : LeaseMsg)
  /-- LEASE_DENY (R480): at the borrower. -/
  | leaseDeny (m : LeaseMsg)
  /-- LEASE_RENEW (R481): at the lender. -/
  | leaseRenew (m : LeaseMsg)
  /-- LEASE_RECALL (R482): at the borrower. -/
  | leaseRecall (m : LeaseMsg)
  /-- LEASE_RELEASE (R482): at the lender. -/
  | leaseRelease (m : LeaseMsg)
  /-- LEASE_RELEASED (R479): at the borrower. -/
  | leaseReleased (m : LeaseMsg)
  /-- LEASE_DATA_WRITE (R479): at the lender. -/
  | leaseDataWrite (m : LeaseData)
  /-- LEASE_DATA_READ_REQ (R479): at the lender. -/
  | leaseDataReadReq (m : LeaseData)
  /-- LEASE_DATA_READ_DATA (R479): at the borrower. -/
  | leaseDataReadData (m : LeaseData)
  /-- LEASE_DATA_ERROR (R482): at the borrower. -/
  | leaseDataError (m : LeaseData)
  /-- RENEW_LEAD (R481). -/
  | renewLead (leaseId : Nat)
  /-- LEASE_RESEND (R481). -/
  | leaseResend (leaseId : Nat)
  /-- RECALL_AT (R482). -/
  | recallAt (leaseId : Nat)
  /-- LEASE_EXPIRES (R482). -/
  | leaseExpires (leaseId : Nat)
  /-- RENEW_UNANSWERED (R482). -/
  | renewUnanswered (leaseId : Nat)
  /-- LEASE_RECALL_CMD (R482). -/
  | leaseRecallCmd (e : Env) (leaseId : Nat)
  /-- ENERGY_WINDOW (R485). -/
  | energyWindow (m : EnergyMeas)
  /-- ACCOUNT_EXHAUSTED (R486): class `c` spends `spent` µJ and its account reaches 0 or below. -/
  | accountExhausted (c spent : Nat)
  /-- PMBUS_READ (R484): rail and READ_POUT in mW. -/
  | pmbusRead (rails : List (Nat × Nat))
  /-- PMB_ALERT (R641): rail and STATUS_WORD. -/
  | pmbAlert (rails : List (Nat × BitVec 16))
  -- ## Stragglers and drift (chapter 14)
  /-- ARRIVAL_UNRESOLVED (R493). -/
  | arrivalUnresolved (slot leafPort step : Nat)
  /-- STEP_CLOSE (R500). -/
  | stepClose (slot : Nat)
  /-- DRIFT_UPDATE (R508). -/
  | driftUpdate (slot : Nat)
  /-- BUCKET (R499). -/
  | bucket (r i : Nat)
  /-- MERGE (R499). -/
  | merge (r i : Nat)
  /-- RANK (R499). -/
  | rank (r i : Nat)
  /-- QUANTILE (R499). -/
  | quantile (r i : Nat)
  /-- APPLY (R513). -/
  | apply (e : Env) (slot window : Nat)
  /-- APPLY_SETTINGS (R513). -/
  | applySettings (slot : Nat)
  -- ## Thicket (chapter 15)
  /-- LOAD (R518). -/
  | load (r i : Nat)
  /-- MODEL_READY (R522). -/
  | modelReady (model : Nat)
  /-- UNLOAD (R529). -/
  | unload (r i : Nat)
  /-- INFER (R523). -/
  | infer (r i : Nat)
  /-- BATCH (R530). -/
  | batch (r i : Nat)
  /-- UNCORRECTABLE_ECC (R532). -/
  | uncorrectableEcc (h : EccHit)
  -- ## Sampled recompute (chapter 16)
  /-- ARM (R552): policy, Stem port of the member; `busy` is the leaf's BUSY answer (R553). -/
  | arm (policy port : Nat) (busy : Bool)
  /-- POLICY_ENABLE (R550). -/
  | policyEnable (e : Env) (n : Nat)
  /-- POLICY_DISABLE (R554). -/
  | policyDisable (e : Env) (n : Nat)
  /-- CAPTURE_ASSEMBLY (R556): the packets of a capture of Stem port `port`, the CAPTURE_END digest, and the COMMAND digest
  of the same command, if the source has sent one (R559). -/
  | captureAssembly (port src : Nat) (packets : List PortAccess) (done : DigestMsg) (weights : Option DigestMsg)
  /-- WEIGHT_REQUEST (R560); `busy` is the server leaf's BUSY answer to the arm. -/
  | weightRequest (h : RecomputeHead) (map : Bytes) (busy : Bool)
  /-- WEIGHT_TILE (R561). -/
  | weightTile (h : RecomputeHead) (status crc begin : Nat) (tile : Bytes)
  /-- WEIGHT_WAIT_TIMEOUT (R560). -/
  | weightWaitTimeout (capture : Nat)
  /-- COMPARE (R563): `upset1` and `upset2` are what a defect of the arrays changes in the two results of R565: elements of
  D in row-major order, with the bits inverted. -/
  | compare (capture : Nat) (upset1 upset2 : List (Nat × Nat))
  /-- WEIGHT_DIGEST_COMPARE (R562): per member with a resolved arrival its Stem port, the arrival stamp a, and its digest
  sequence in (r, a]. -/
  | weightDigestCompare (n step : Nat) (seqs : List (Nat × Nat × List Nat))
  /-- WEIGHT_DIGEST_ENABLE (R562). -/
  | weightDigestEnable (e : Env) (n : Nat)
  -- ## Field test and signatures (chapter 17)
  /-- TEST_START (R577). -/
  | testStart (l : LeafId)
  /-- FT_DONE (R578). -/
  | ftDone (l : LeafId) (sig : BitVec 32)
  /-- FT_RECLAIM (R578). -/
  | ftReclaim (l : LeafId)
  /-- TEST_PREEMPTED (R578). -/
  | testPreempted (l : LeafId)
  /-- TEST_TIMEOUT (R578). -/
  | testTimeout (l : LeafId)
  /-- TEST_PACK_WRITE (R576). -/
  | testPackWrite (l : LeafId) (e : Env) (data : Bytes)
  /-- RUN_TEST (R584). -/
  | runTest (l : LeafId) (e : Env) (value : BitVec 32)
  /-- HOST_WAIT_TIMEOUT (R585). -/
  | hostWaitTimeout (l : LeafId)
  /-- SHADOW_PAIR_ENABLE (R587). -/
  | shadowPairEnable (e : Env) (n : Nat)
  /-- SHADOW_DIGEST (R588): `subject` tells which side sent it. -/
  | shadowDigest (n : Nat) (subject : Bool) (m : DigestMsg)
  /-- PAIR_SKEW_TIMEOUT (R588). -/
  | pairSkewTimeout (n : Nat)
  /-- VSF_RECORD (R593). -/
  | vsfRecord (port : Nat) (data : Bytes)
  /-- SEAL (R590). -/
  | seal (r i : Nat)
  /-- TO_TEXT (R592). -/
  | toText (r i : Nat)
  /-- FROM_TEXT (R592). -/
  | fromText (r i : Nat)
  -- ## Firmware and Layering (chapter 18)
  /-- BOOT (R600). -/
  | boot
  /-- IMAGE_FETCH (R601): the response to the leaf's READ at the next offset. -/
  | imageFetch (l : LeafId) (offset : Nat) (data : Bytes) (more : Bool)
  /-- FETCH_RETRY (R601). -/
  | fetchRetry (l : LeafId)
  /-- FETCH_TIMEOUT (R601). -/
  | fetchTimeout (l : LeafId)
  /-- TARGET_WRITE (R604). -/
  | targetWrite (e : Env) (value : Nat)
  /-- COMMIT (R604). -/
  | commit (e : Env) (value : Nat)
  /-- SECTOR_WRITTEN (R604): `same` tells whether the read-back agrees. -/
  | sectorWritten (same : Bool)
  /-- BLOCK (R605). -/
  | block (e : Env) (data : Bytes) (same : Bool)
  /-- BLOCK_FINISH (R605). -/
  | blockFinish (e : Env)
  /-- WATCHDOG (R609): `sram` for an uncorrectable SRAM error. -/
  | watchdog (u : UnitId) (sram : Bool)
  /-- BOOT_ATTEMPTS_CLEAR (R608). -/
  | bootAttemptsClear (u : UnitId)
  /-- QUICKSET_IMAGE (R611): the LAST segment of a download, with the image whole. -/
  | quicksetImage (u : UnitId) (e : Env) (image : Bytes)
  /-- BOOT_STATE_POLL (R612): per drop (segment, drop) the address it has identified itself by, and its BootState. -/
  | bootStatePoll (drops : List (Nat × Nat × Nat × Nat))
  /-- QUICKSET_PUSH (R612). -/
  | quicksetPush (e : Env) (value : Nat)
  /-- UNIT_RESET (R633). -/
  | unitReset (u : UnitId) (e : Env) (value : Nat)
  /-- LAYER_START_TRUNK (R617). -/
  | layerStartTrunk (e : Env)
  /-- LAYER_START_LEAVES (R617). -/
  | layerStartLeaves (e : Env)
  /-- LEAF_RUNNING (R617): the leaf of Stem port `port` reports RUNNING with a version. -/
  | leafRunning (port version dictMajor : Nat)
  /-- LEAF_BOOT_TIMEOUT (R618). -/
  | leafBootTimeout
  -- ## Resets and integration (chapter 19)
  /-- POWER_ON (R634), with the level of the Quickset strap (R598). -/
  | powerOn (u : UnitId) (strap : Bool)
  /-- PIN_RESET (R634): the level of rst_n or RESET_N, and of the Quickset strap. -/
  | pinReset (u : UnitId) (release strap : Bool)
  /-- THERMAL_TRIP (R643). -/
  | thermalTrip
  /-- HOST_ERROR (R149): error input n. -/
  | hostError (l : LeafId) (n : Nat)
  /-- UNLISTED_OPCODE (R41). -/
  | unlistedOpcode (u : UnitId) (e : Env) (opcode index sub : Nat)
  /-- OPTICS_READY (R418). -/
  | opticsReady (p : Nat)
  /-- WATCHDOG_FLUSH_LIMIT (R609). -/
  | watchdogFlushLimit (l : LeafId)
  /-- COMMIT_CONFIRMATION (R31): 0 for success, otherwise the trunk's abort code. -/
  | commitConfirmation (l : LeafId) (abort : Nat)
  /-- SERVICE_FRAME_FCS_FAIL (R149). -/
  | serviceFrameFcsFail (l : LeafId)
  /-- PTP_EVENT_MESSAGE_SEND (R104): `tx` is how long after the unit's newest tick the timestamp point passes the PCS (R106). -/
  | ptpEventMessageSend (port : Nat) (kind : PtpKind) (seqId : Nat) (tx : Stamp)
  /-- PROGRESS_WORD_PROGRAMMED (R240). -/
  | progressWordProgrammed
  /-- ECC_CORRECTED (R532). -/
  | eccCorrected
  deriving DecidableEq, Repr

end Sys2Proof
end

