-- ==== Sys2Proof/Decode.lean ====
section
/-! DEFINITION. The command that a word of spec/opcode_table.json spells. No row of the table gives its command any
bits (every `fields` list is empty): the commands are operations and events, named and not encoded, so no word spells
one. -/

namespace Sys2Proof

/-- The command that a word of the table's bits spells: none, whatever the word. -/
def decodeTableWord (_nbits _w : Nat) : Option Instr := none

end Sys2Proof
end

