-- ==== Sys2Proof/Config.lean ====
section
/-! DEFINITION. What the spec leaves open, as free values: constants with no body, so that no proof can see what
they are. Each names the log entry that declares it. -/

namespace Sys2Proof.Config

/-- The value after its largest one of a statistic counter whose overflow the spec does not state: of the object
(index × 256 + subindex) and its value (log 10). -/
opaque counterAfterMax : Nat → Nat → BitVec 64

/-- The MaxLength of an object's descriptor where the maximum is 65,536 bytes or more, which its 2 bytes cannot hold (R70 does
not say what they hold then; log 89). -/
opaque longMaxLength : (index sub : Nat) → BitVec 16

/-- The token payload that an SFC encoder chooses (the spec leaves the choice free, R276 onwards): of whether
FIELD_DELTA tokens are allowed, PrevLen, LastDist, LastLen, the history newest first, and the original (log 11). -/
opaque codecTokens : Bool → Nat → Nat → Nat → Bytes → Bytes → Bytes

/-- The bits of the NaN that a binary64 addition of two keys or sums gives (R428 states none; log 12). -/
opaque nan64 : Nat → Nat → BitVec 64

/-- The Key and the Aux of an empty MIN_ARG or MAX_ARG entry (R428 states its Arg only; log 13). -/
opaque emptyEntry : BitVec 64 × BitVec 32

/-- The Aux of a member's entry for a field whose Source is not ENGINE, of field number, leaf and window (R428 states none;
log 13). -/
opaque entryAux : (field leaf window : Nat) → BitVec 32

/-- Is the ReductionMode of another trunk, the home of a group at a generation, HOST (R442 does not say how a trunk knows
it; log 14)? -/
opaque homeHost : (home group gen : Nat) → Bool

/-- Is a group among the lowest-priority groups of a trunk (R275 does not say which they are; log 15)? -/
opaque lowPriority : (group : Nat) → Bool

/-- Which of the places that a run of pages fits the pool takes, of the number of runs allocated so far (R477 does not
say; log 16). -/
opaque poolPick : (serial : Nat) → Nat

/-- From which number on the pool looks for the handle of a run, of the number of runs allocated so far (R475 does not say
how handles are numbered; log 16). -/
opaque poolHandle : (serial : Nat) → BitVec 32

/-- The base address that a POOL_ALLOC of REMOTE pages reports, of their handle (R475 states none; log 17). -/
opaque remoteBase : (handle : Nat) → BitVec 64

/-- A value of a result's payload that the spec does not state: of its object (index × 256 + subindex) and the time at
which it completes (log 18). -/
opaque unstated : (object time : Nat) → BitVec 64

/-- What mtval holds after an exception of a sprig thread, of its cause and the address or instruction word that it is about
(the RISC-V standard that R456 names leaves it to the implementation; log 65). -/
opaque trapValue : (cause about : Nat) → BitVec 64

/-- Does a PMBus STATUS_WORD hold a warning bit (R488 does not say which bits are warnings; log 22)? -/
opaque pmbusWarning : BitVec 16 → Bool

/-- Which of a bank's free entries the compiler takes first, of the bank and the number of entries used in it (R521 states
the bank only; log 23). -/
opaque entryPick : (bank used : Nat) → Nat

/-- A fact of a leaf that its trunk names in a signature and has not read from it yet: of the object (index × 256 +
subindex) and the leaf (log 24). -/
opaque leafFact : (object leaf : Nat) → BitVec 64

/-- The Partition of the Stem port of a leaf of another trunk, as a requester of a weight tile uses it (R561 does not say how
it knows it; log 25). -/
opaque remotePartition : (leaf : Nat) → BitVec 8

/-- What a 65,536-byte sector of an image slot holds when its programming has ended early or has read back differently, of the
slot's image type, the sector and the time (R604, R607 do not say; log 27). -/
opaque tornSector : (slot sector time : Nat) → Bytes

/-- The memory stack at which an access of the source REDUCTION waits, of the time: R323 names the source, and no rule says in
which stack partials and fleet results lie (log 110). -/
opaque reductionStack : (time : Nat) → BitVec 2

end Sys2Proof.Config
end

