-- ==== Sys2Proof/Machine/Bits.lean ====
section
/-! DEFINITION. Bit fields, byte order (R12: little-endian), two's complement, saturation, the CRCs that the spec
names, and small list helpers. -/

namespace Sys2Proof.Machine

/-- Bits `[hi:lo]` of `n`. -/
def field (n hi lo : Nat) : Nat := n / 2 ^ lo % 2 ^ (hi + 1 - lo)

/-- `n` with bit `i` set. -/
def setBit (n i : Nat) : Nat := if n.testBit i then n else n + 2 ^ i

/-- `n` with bit `i` clear. -/
def clearBit (n i : Nat) : Nat := if n.testBit i then n - 2 ^ i else n

/-- `n` with bit `i` equal to `b`. -/
def putBit (n i : Nat) (b : Bool) : Nat := if b then setBit n i else clearBit n i

/-- The number of bits of `n` below `w` that are 1. -/
def popCount (n w : Nat) : Nat := ((List.range w).filter (n.testBit ·)).length

/-- The number 1 for true and 0 for false. -/
def b2n (b : Bool) : Nat := if b then 1 else 0

/-- The two's complement value of the low `w` bits of `n`. -/
def toSigned (w n : Nat) : Int :=
  let m := n % 2 ^ w
  if m < 2 ^ (w - 1) then (m : Int) else (m : Int) - 2 ^ w

/-- The low `w` bits of an integer, as two's complement. -/
def ofSigned (w : Nat) (i : Int) : Nat := (i % 2 ^ w).toNat

/-- An integer held within the I32 range. -/
def satI32 (i : Int) : Int := max (-2147483648) (min 2147483647 i)

/-- An integer held within the I64 range. -/
def satI64 (i : Int) : Int := max (-9223372036854775808) (min 9223372036854775807 i)

/-- A natural number held below 2^w. -/
def satNat (w n : Nat) : Nat := min n (2 ^ w - 1)

/-- The signed difference of two `w`-bit sequence numbers, later minus earlier. -/
def seqDiff (w a b : Nat) : Int := toSigned w (a + 2 ^ w - b % 2 ^ w)

/-- The next sequence number modulo 2^32, skipping 0 (R38). -/
def nextSeq (n : Nat) : Nat := if (n + 1) % 2 ^ 32 = 0 then 1 else (n + 1) % 2 ^ 32

/-- `n` rounded up to a multiple of `m`. -/
def alignUp (n m : Nat) : Nat := (n + m - 1) / m * m

/-- The low `len` bytes of `n`, least significant first (R12). -/
def leBytes : (len : Nat) → (n : Nat) → Bytes
  | 0, _ => []
  | len + 1, n => BitVec.ofNat 8 n :: leBytes len (n / 256)

/-- The low `len` bytes of `n`, most significant first (R13). -/
def beBytes (len n : Nat) : Bytes := (leBytes len n).reverse

/-- The number that bytes spell, least significant first (R12). -/
def leNat : Bytes → Nat
  | [] => 0
  | b :: bs => b.toNat + 256 * leNat bs

/-- `len` bytes of a string from offset `off`; a byte beyond the end counts as 0. -/
def bytesAt (bs : Bytes) (off len : Nat) : Bytes :=
  let c := (bs.drop off).take len
  c ++ List.replicate (len - c.length) 0

/-- The little-endian number in `len` bytes of a string from offset `off`. -/
def natAt (bs : Bytes) (off len : Nat) : Nat := leNat (bytesAt bs off len)

/-- The signed little-endian number in `len` bytes of a string from offset `off`. -/
def intAt (bs : Bytes) (off len : Nat) : Int := toSigned (8 * len) (natAt bs off len)

/-- The little-endian two's complement bytes of an integer. -/
def leInt (len : Nat) (i : Int) : Bytes := leBytes len (ofSigned (8 * len) i)

/-- A string with its bytes from offset `off` replaced by `bs` (extended with zeros to reach `off`). -/
def patch (s : Bytes) (off : Nat) (bs : Bytes) : Bytes := bytesAt s 0 off ++ bs ++ s.drop (off + bs.length)

/-- `n` zero bytes. -/
def zeros (n : Nat) : Bytes := List.replicate n 0

/-- A list with its entry `i` changed by `f` (unchanged where there is none). -/
def modAt {α : Type} (l : List α) (i : Nat) (f : α → α) : List α := l.modify i f

/-- Is every adjacent pair of a list of numbers strictly rising? -/
def rising : List Nat → Bool
  | [] => true
  | [_] => true
  | a :: b :: l => a < b && rising (b :: l)

/-- Insertion into a list that rises by `key`, equal keys in front order (a stable sort). -/
def insertBy {α : Type} (le : α → α → Bool) (x : α) : List α → List α
  | [] => [x]
  | y :: ys => if le x y then x :: y :: ys else y :: insertBy le x ys

/-- A stable insertion sort. -/
def sortBy {α : Type} (le : α → α → Bool) : List α → List α
  | [] => []
  | x :: xs => insertBy le x (sortBy le xs)

/-- One bit of a reflected CRC-32 with polynomial `poly`. -/
def crcBit (poly c : BitVec 32) : BitVec 32 := if c.getLsbD 0 then (c >>> 1) ^^^ poly else c >>> 1

/-- One byte of a reflected CRC-32. -/
def crcByte (poly c : BitVec 32) (b : Byte) : BitVec 32 :=
  let c := c ^^^ b.setWidth 32
  crcBit poly (crcBit poly (crcBit poly (crcBit poly (crcBit poly (crcBit poly (crcBit poly (crcBit poly c)))))))

/-- The running state of CRC-32C over more bytes: state 0xFFFF_FFFF at the start, complemented at the end. -/
def crc32cStep (c : BitVec 32) (bs : Bytes) : BitVec 32 := bs.foldl (crcByte 0x82F63B78#32) c

/-- CRC-32C (R282): reflected polynomial 0x82F63B78, initial value and final XOR 0xFFFF_FFFF. -/
def crc32c (bs : Bytes) : Nat := (~~~ (crc32cStep 0xFFFFFFFF#32 bs)).toNat

end Sys2Proof.Machine
end

