-- ==== Sys2Proof/Machine/StateLeaf.lean ====
section
/-! DEFINITION. The state that chapters 00 to 10 give a unit: what the surroundings fix, the dictionary server,
the taps, power, trace, recorder, frames, the arbiters and the Stem link. Scalar objects of the dictionary live in
`Dev.objs`; what stands here is the state behind them. -/

namespace Sys2Proof.Machine

/-- The two builds (R1, R4), with the code of `Build` (0x1000.03). -/
inductive Build where
  | leaf
  | trunk
  deriving DecidableEq, Repr

/-- What a tap descriptor and the host die fix for a tap (R71, R119, 0x2300.01). -/
structure TapDesc where
  engineType    : Nat := 0
  region        : Nat := 0
  traceSource   : Nat := 0xFF
  slotsPerCycle : Nat := 1
  deriving DecidableEq, Repr

/-- What the build, the fuses, the straps and the surroundings fix for a unit; no command changes it. -/
structure Cfg where
  build          : Build := .leaf
  selfLeaf       : Bool := false
  designRevision : Nat := 0
  serialNumber   : Nat := 0
  hostDieId      : Nat := 0
  dropStrap      : Nat := 0
  trunkId        : Nat := 0
  taps           : List TapDesc := []
  regionCount    : Nat := 1
  voltRegions    : List Nat := []
  powerRegions   : Nat := 1
  tempRegions    : List Nat := []
  clusters       : Nat := 1
  traceSources   : Nat := 0
  fieldTest      : Bool := false
  inrushGate     : Bool := false
  stackBytes     : Nat := 0
  keyDigests     : List Bytes := []
  keyRevoked     : Nat := 0
  romVersion     : Nat := 0
  deriving DecidableEq, Repr

/-! ### The dictionary server (chapter 01) -/

/-- Who sent a request: the transport, the Source of the message, and for a Source that carries UNASSIGNED the service
segment (R602). -/
structure Requester where
  via     : Via
  source  : Nat
  segment : Nat := 0
  deriving DecidableEq, Repr

/-- An SDP response or NOTIFY: the header fields of R40 that vary, and the data. -/
structure Resp where
  opcode : Nat
  txn    : Nat
  dest   : Nat
  source : Nat
  index  : Nat := 0
  sub    : Nat := 0
  flags  : Nat := 0
  offset : Nat := 0
  length : Nat := 0
  abort  : Nat := 0
  data   : Bytes := []
  deriving DecidableEq, Repr

/-- One implemented subindex of an object in a copy of it: subindex, type code, value bytes as transferred. -/
structure SubVal where
  sub   : Nat
  ty    : Nat
  bytes : Bytes
  deriving DecidableEq, Repr

/-- A latch (R44, R45). -/
structure LatchEnt where
  who     : Requester
  index   : Nat
  copy    : List SubVal
  lastUse : Nat
  deriving DecidableEq, Repr

/-- A remembered request of one Source (R47). -/
structure ReplayTxn where
  txn  : Nat
  resp : Resp
  time : Nat
  deriving DecidableEq, Repr

/-- The replay entry of a Source (R47), newest request first. -/
structure ReplayEnt where
  who  : Requester
  last : Nat
  txns : List ReplayTxn
  deriving DecidableEq, Repr

/-- A subscription (R50); on Ethernet the NOTIFY goes to the MAC address that asked. -/
structure SubEnt where
  who     : Requester
  segment : Nat
  index   : Nat
  txn     : Nat
  mac     : Nat
  deriving DecidableEq, Repr

/-- A segmented write in progress (R46). -/
structure PartialWrite where
  who   : Requester
  index : Nat
  sub   : Nat
  data  : Bytes
  deriving DecidableEq, Repr

/-- An indirection pair's copy and staging buffer (R64). -/
structure Pair where
  copy    : Bytes := []
  staging : Bytes := []
  deriving DecidableEq, Repr

/-- A proxy slot in use (R58, R59). -/
structure ProxySlot where
  slot   : Nat
  txn    : Nat
  opcode : Nat
  via    : Via
  origin : Origin
  source : Nat
  time   : Nat
  deriving DecidableEq, Repr

/-- A response that waits for work to complete (R31), and what the trunk has made of it where the model's trunk is the one
that commits: 0, or its abort code. -/
structure Waiting where
  env    : Env
  opcode : Nat
  index  : Nat
  sub    : Nat
  time   : Nat
  result : Option Nat := none
  deriving DecidableEq, Repr

/-- A request of the unit's own that is outstanding (R41): its TxnId and opcode, the unit address, or the service segment and
drop, to which it went, and the object that it names. -/
structure Asked where
  txn    : Nat
  opcode : Nat
  dest   : Nat
  drop   : Option (Nat × Nat)
  index  : Nat
  sub    : Nat
  deriving DecidableEq, Repr

/-- The server's own state; `cmds` are the CMD objects whose action has begun in this tick (R25, R28); for the unit's own
requests, the TxnIds used, the requests outstanding, and what the answers to reads said (Dest, index, subindex; value). -/
structure Server where
  latches  : List LatchEnt := []
  replay   : List ReplayEnt := []
  subs     : List SubEnt := []
  partials : List PartialWrite := []
  resLatch : Option (Nat × List SubVal) := none
  pairs    : List Pair := [{}, {}, {}, {}]
  slots    : List ProxySlot := []
  storing  : Option Waiting := none
  cmds     : List Nat := []
  vlog     : List Bytes := []
  received : List Resp := []
  txnNo    : Nat := 0
  asked    : List Asked := []
  known    : List ((Nat × Nat × Nat) × Bytes) := []
  deriving DecidableEq, Repr

/-! ### FleetTime (chapter 02) -/

/-- The 36-byte payload of a time message (R89). -/
structure TimeMsg where
  seq            : Nat := 0
  sourceValid    : Bool := false
  uncertain      : Bool := false
  host           : Bool := false
  prevValid      : Bool := false
  peerValid      : Bool := false
  hops           : Nat := 0
  sourceId       : Nat := 0
  sourcePriority : Nat := 0
  sourceSeq      : Nat := 0
  prevTx         : Stamp := {}
  prevTxSeq      : Nat := 0
  peerRx         : Stamp := {}
  peerRxSeq      : Nat := 0
  deriving DecidableEq, Repr

/-- The time-message state of one link port (R88 to R90): the next Seq, the previous message's stamp, the newest
received one, what t₁ and t₄ were last carried, the stamps of recent messages, the pair last exchanged, and the UNCERTAIN flag
of the newest message received (R94). -/
structure TimeLink where
  txSeq    : Nat := 0
  lastTx   : Option Nat := none
  prevTx   : Option (Nat × Stamp) := none
  peerRx   : Option (Nat × Stamp) := none
  t1       : Option (Nat × Stamp) := none
  t4       : Option (Nat × Stamp) := none
  txHist   : List (Nat × Stamp) := []
  rxHist   : List (Nat × Stamp × Bool × Nat) := []
  lastPair : Option (Nat × Nat) := none
  uncertain : Bool := false
  deriving DecidableEq, Repr

/-- The advertisement last received on a Pleach port (R99). -/
structure Advert where
  priority : Nat
  source   : Nat
  seq      : Nat
  hops     : Nat
  risenAt  : Nat
  deriving DecidableEq, Repr

/-- The FleetTime unit: the 96-bit counter is `ns` and `frac` (units of 2^-32 ns, R72); `tick` is the number of the
newest sample tick, `highest` the highest one passed, `dead` a tick after a backward step that repeats numbers (R96),
and latches due after `since` up to `tick` fall in this tick. `ran` counts the sample ticks made since reset: the time by which
periods and limits pass, which no step moves. `delays` and `offset` are in units of 1/16,384 ps. -/
structure TimeSt where
  ns          : Nat := 0
  frac        : Nat := 0
  tick        : Nat := 0
  ran         : Nat := 0
  highest     : Nat := 0
  dead        : Bool := false
  since       : Nat := 0
  stepFrom    : Option Nat := none
  links       : List TimeLink := []
  delays      : List Int := []
  newInc      : Option (Nat × Nat) := none
  lastAccept  : Nat := 0
  goodRun     : Nat := 0
  badRun      : Nat := 0
  holdSince   : Nat := 0
  upPort      : Option Nat := none
  upChanged   : Bool := false
  uncAt       : Nat := 0
  lastSource  : Option Nat := none
  adverts     : List (Option Advert) := []
  seqAt       : Nat := 0
  txq         : List Bytes := []
  restep      : Bool := false
  modePending : List (Nat × Nat) := []
  deriving DecidableEq, Repr

/-! ### Taps (chapter 03) -/

/-- A command held on a tap (R123, R137, R138). -/
structure Held where
  tag       : Nat
  begin     : Nat
  stretchAt : Nat
  retired   : Nat := 0
  wasted    : Nat := 0
  front     : Nat := 0
  back      : Nat := 0
  deriving DecidableEq, Repr

/-- One tap: its 40-bit counters, the hub's 64-bit extension of them (R131), the codes of the events that held in the
previous cycle run (the EDGE history, R120, R122), the counts
of the current tick (R145), whether its reset epoch has changed since the last scan (R134), the command held, the
time that R133 counts since the last scan, and whether one of two pulses of one cycle has been taken (R656). -/
structure Tap where
  raw     : List Nat := List.replicate 32 0
  last    : List Nat := List.replicate 32 0
  ext     : List Nat := List.replicate 32 0
  prev    : List Nat := []
  tickAdd : List Nat := List.replicate 32 0
  epoch   : Bool := false
  held    : Option Held := none
  scanGap : Nat := 0
  half    : Bool := false
  deriving DecidableEq, Repr

/-- One clock region (R113, R126, R127, R654); `active`: it showed activity in the newest tick. -/
structure Region where
  powered  : Bool := true
  stopped  : Bool := false
  idle     : Nat := 0
  idleFrom : Nat := 0
  acc      : Nat := 0
  heldBack : Nat := 0
  active   : Bool := false
  deriving DecidableEq, Repr

/-- A command-log record (R137); `slots` are the four counts of an END. -/
structure LogRec where
  stamp : Nat
  tag   : Nat
  tap   : Nat
  kind  : Nat
  value : Nat
  aux   : Nat
  slots : Option (Nat × Nat × Nat × Nat) := none
  deriving DecidableEq, Repr

/-- The taps, the regions and the command log of a leaf. -/
structure TapSt where
  taps     : List Tap := []
  regions  : List Region := []
  log      : List LogRec := []
  lost     : Nat := 0
  lastArr  : Option Nat := none
  lastScan : Nat := 0
  deriving DecidableEq, Repr

/-! ### Power and health (chapter 04) -/

/-- A pending stage request (R161 to R163). -/
structure StageReq where
  region   : Nat
  stage    : Nat
  since    : Nat
  deferred : Bool := false
  timedOut : Bool := false
  deriving DecidableEq, Repr

/-- A regulator-failure episode of a cluster, or of a power region on a leaf without a gate (R166 to R172). -/
structure Episode where
  unit     : Nat
  first    : Nat
  clearAt  : Option Nat := none
  minV     : Nat := 0xFFFFFFFF
  minStamp : Nat := 0
  darked   : Nat := 0
  carried  : Bool := false
  deriving DecidableEq, Repr

/-- Sensing, the inrush gate and regulator handling: the stamps of the running minima, this tick's voltage readings,
pending requests, regions whose stage_req has not been seen low since an answer, stages granted (cluster, inrush,
time), episodes, `Cluster` writes that wait, the clusters shedding and the one named. -/
structure PowerSt where
  runStamp   : List Nat := []
  volts      : List (Option Nat) := []
  pend       : List StageReq := []
  awaitLow   : List Nat := []
  granted    : List (Nat × Nat × Nat) := []
  episodes   : List Episode := []
  cluster    : List (Nat × Nat) := []
  shedding   : List Nat := []
  shedCur    : Nat := 0
  headSince  : Option Nat := none
  pfLowSince : Option Nat := none
  lastCur    : Nat := 0
  curTick    : Option Nat := none
  lastTemp   : Nat := 0
  deriving DecidableEq, Repr

/-! ### Trace (chapter 05) -/

/-- A trace packet on its way: its stamp, its place among packets of one stamp (R195), its source and its bytes;
`toCap` says that it goes to the recompute capture source instead of the ring, `cap` of which capture it is part
(source and BEGIN stamp). -/
structure TPkt where
  stamp  : Nat
  rank   : Nat
  source : Nat
  bytes  : Bytes
  toCap  : Bool := false
  cap    : Option (Nat × Nat) := none
  deriving DecidableEq, Repr

/-- A capture in progress (R209). -/
structure Capture where
  tag   : Nat
  begin : Nat
  crc   : BitVec 32 := 0xFFFFFFFF#32
  bytes : Nat := 0
  deriving DecidableEq, Repr

/-- One trace source: its FIFO, the packets it has lost and not yet reported (of the trace, of digests; of a capture
with the tag), the tick of its last SYNC, the stamp since which it sleeps, its arm (Tag and TagMask), its capture,
and its open digest: CRC state, bytes, block number, and for COMMAND the BEGIN stamp of the command covered. -/
structure TSource where
  fifo     : List TPkt := []
  lost     : Nat := 0
  digLost  : Nat := 0
  capLost  : List (Nat × Nat) := []
  lastSync : Nat := 0
  asleep   : Option Nat := none
  arm      : Option (Nat × Nat) := none
  capture  : Option Capture := none
  digest   : BitVec 32 := 0xFFFFFFFF#32
  digBytes : Nat := 0
  blockNo  : Nat := 0
  digCmd   : Option Nat := none
  deriving DecidableEq, Repr

/-- The trace: sources, the hub's own packets, the ring oldest first, the selectors (fired since the last Rearm;
previous value of the event, R205), a drain in progress, the source whose turn it is in the funnel (R194), the place (R201) of
the trigger that set the freeze, and whether a freeze has been set since the trace was last armed (R202). -/
structure TraceSt where
  srcs    : List TSource := []
  turn    : Nat := 0
  hubq    : List TPkt := []
  ring    : List TPkt := []
  fired   : List Bool := [false, false, false, false]
  selPrev : List Bool := [false, false, false, false]
  drain   : Option (List TPkt) := none
  setter  : Nat := 0
  bound   : Bool := false
  deriving DecidableEq, Repr

/-! ### Recorder (chapter 06) -/

/-- A record in the ring (R214, R236), with the byte offset at which it begins and its flush state (R229, R230). -/
structure Rec where
  seq       : Nat
  off       : Nat
  kind      : Nat
  flags     : Nat
  time      : Nat
  payload   : Bytes
  origin    : Nat := 0
  originSeq : Nat := 0
  acked     : Bool := false
  sentAt    : Option Nat := none
  deriving DecidableEq, Repr

/-- A flush (R228): its reason, the newest Seq of its set, and the Seq it sends next. -/
structure Flush where
  reason : Nat
  from_  : Nat
  next   : Nat
  started : Nat
  deriving DecidableEq, Repr

/-- A half of the commit area of board flash (R239, R240): the commits of both halves count up in `order`. -/
structure CommitHalf where
  order    : Nat := 0
  start    : Nat := 0
  records  : List Rec := []
  progress : List Nat := []
  final    : Bool := false
  total    : Nat := 0
  written  : Nat := 0
  deriving DecidableEq, Repr

/-- The recorder: `hist` holds the records newest first, those overwritten but still in the ring's bytes included
(R226). `saved` is the half that holds the newest valid commit found at boot (R241), `committing` the half being
written, `commitDue` the stamp of the warning whose commit has not started; `fresh` counts the records written in this tick, and
`snapOf` is the place in R220's order of the cause of the tick `snapTick`'s snapshot. -/
structure RecSt where
  hist     : List Rec := []
  held     : Nat := 0
  lastSnap : Option Nat := none
  snapTick : Option Nat := none
  snapOf   : Nat := 0
  fresh    : Nat := 0
  flush    : Option Flush := none
  flushEnd : Option Nat := none
  halves   : List CommitHalf := [{}, {}]
  saved    : Option Nat := none
  committing : Option Nat := none
  commitDue : Option Nat := none
  deriving DecidableEq, Repr

/-! ### Frames and the codec (chapters 07, 08) -/

/-- A codec context (R277, R305): `win` holds the original bytes of the stream that a copy can reach, newest first,
up to 65,536; `histFill` counts those of earlier frames; the rest are the fields of the state block. -/
structure Ctx where
  role     : Nat := 2
  phase    : Nat := 0
  flags    : Nat := 0
  win      : Bytes := []
  histFill : Nat := 0
  histPos  : Nat := 0
  prevLen  : Nat := 0
  lastLen  : Nat := 0
  lastDist : Nat := 0
  orig     : Nat := 0
  out      : Nat := 0
  expCrc   : Nat := 0
  runCrc   : BitVec 32 := 0xFFFFFFFF#32
  left     : Nat := 0
  pendLen  : Nat := 0
  pendKind : Nat := 0
  frames   : Nat := 0
  deriving DecidableEq, Repr

/-- The latch buffer of a schedule (R244): the window, the tick's stamp, the header's flags and binding, and the
bodies of the fixed sections. -/
structure FrameLatch where
  window    : Nat
  stamp     : Nat
  stepped   : Bool
  merged    : Bool
  uncertain : Bool
  stale     : Bool
  wrap      : Bool
  group     : Nat
  gen       : Nat
  part      : Nat
  always    : Bytes
  status    : Bytes
  sensors   : Bytes
  slots     : Bytes
  counters  : Bytes
  deriving DecidableEq, Repr

/-- A frame that a schedule has built and not yet coded: its raw bytes, the tick of its build, and whether it starts
its stream anew (R297). -/
structure BuiltFrame where
  built   : Nat
  restart : Bool
  raw     : Bytes
  deriving DecidableEq, Repr

/-- A schedule at work (R243 to R248, R262, R265 to R268, R297): since which stamp it latches, the latch and window of
the last frame built, the latch to be built, the tick of the last latch, a pending Rebind, the minima and maxima of
the interval, frames that wait to be coded, whether the next frame built starts its stream anew, and the tick of a
`StreamReset`. -/
structure Sched where
  active    : Bool := false
  stopping  : Bool := false
  from_     : Nat := 0
  prevLatch : Option Nat := none
  prevWin   : Option Nat := none
  lastTick  : Option Nat := none
  latch     : Option FrameLatch := none
  rebind    : Option (Nat × Nat × Nat × Nat) := none
  vmin      : List Nat := []
  cmax      : List Nat := []
  waiting   : List BuiltFrame := []
  restart   : Bool := false
  resetAt   : List Nat := []
  deriving DecidableEq, Repr

/-- The leaf ladder (R269, R270): its step, the counts, the causes of the counted windows; of the window it decides
next: its lead frame's build tick and what has been seen of it; and a step that software has commanded. -/
structure Ladder where
  step     : Nat := 0
  sat      : Nat := 0
  clear    : Nat := 0
  causes   : Nat := 0
  built    : Option Nat := none
  late     : Bool := false
  backlog  : Bool := false
  oversize : Bool := false
  overNext : Bool := false
  satTick  : Option Nat := none
  cmd      : Option Nat := none
  deriving DecidableEq, Repr

/-- Schedules, the shadow bank and its pending one-shot latch, the ladder, the encoders' contexts, and the values of
AlwaysOn counters before this tick's sampling (R244). -/
structure FrameSt where
  scheds   : List Sched := [{}, {}, {}, {}]
  oneShot  : Option Nat := none
  bankTick : Option Nat := none
  shadow   : List (List Nat) := []
  shadowAo : List Nat := []
  ladder   : Ladder := {}
  encoders : List Ctx := [{ role := 1 }, { role := 1 }, { role := 1 }, { role := 1 }]
  aoPre    : List (Nat × Nat) := []
  deriving DecidableEq, Repr

/-! ### Sharing and the Stem link (chapters 09, 10) -/

/-- A transfer queued at the uplink arbiter (R310, R311), with the tick at which it first became the head of its
queue, the times it has been cut, and for capture packets the capture (source and BEGIN stamp). -/
structure Xfer where
  cls       : Nat
  bytes     : Bytes
  sched     : Nat := 0
  archive   : Bool := false
  prio      : Nat := 0
  built     : Nat := 0
  seq       : Nat := 0
  headSince : Option Nat := none
  cuts      : Nat := 0
  capture   : Option (Nat × Nat) := none
  deriving DecidableEq, Repr

/-- A memory-port access waiting at an arbiter (R324). -/
structure MemXfer where
  len       : Nat
  headSince : Option Nat := none
  deriving DecidableEq, Repr

/-- The uplink share arbiter (R312, R314): per source its queue and its credit; the source being sent and its colour
(true: YELLOW) with the transfers awarded, of the first of which `off` bytes have left in whole link frames; the tick
of the last window opening and the settings that wait for the next. -/
structure Arbiter where
  queues  : List (List Xfer) := [[], [], [], [], [], []]
  credit  : List Int := [0, 0, 0, 0, 0, 0]
  sending : Option (Nat × Bool) := none
  line    : List Xfer := []
  off     : Nat := 0
  lastWin : Option Nat := none
  waiting : List (Nat × Nat) := []
  deriving DecidableEq, Repr

/-- A memory-port arbiter (R323). -/
structure MemArbiter where
  queues : List (List MemXfer) := [[], [], [], [], [], [], [], []]
  credit : List Int := [0, 0, 0, 0, 0, 0, 0, 0]
  lastWin : Option Nat := none
  deriving DecidableEq, Repr

/-- A link frame as sent (R352, R362). -/
structure LFrame where
  head : LinkStart
  data : Bytes
  deriving DecidableEq, Repr

/-- An open message of a receiver (R359): its class, the bytes that have come, the units held for them, and the colour
that the policer has given it (R338). -/
structure OpenMsg where
  cls    : Nat
  bytes  : Bytes
  units  : Nat
  colour : Option Nat := none
  deriving DecidableEq, Repr

/-- A block of a Stem link before it is scrambled (R343): its 8 bytes, whether it is a control block, and whether it belongs to
a sequenced link frame or to a time message's (R355, R369). -/
structure Block where
  control : Bool
  bytes   : Bytes
  framed  : Bool := false
  timed   : Bool := false
  deriving DecidableEq, Repr

/-- The sender of a Stem end (R343 to R345): the number of the next block slot, the time in 1/33 of a slot that has passed and
not been used, the MarkerCount of the next ALIGN pair, the scrambler state of each lane (newest bit in bit 0), and the blocks
that wait for slots. -/
structure StemLine where
  slot    : Nat := 0
  due     : Nat := 0
  markers : Nat := 0
  scr     : List (BitVec 58) := [0, 0]
  queue   : List Block := []
  deriving DecidableEq, Repr

/-- One end of a Stem link (R348 to R371): its sender; the protocol level the link runs at (R349); bring-up; the Seq of the next frame and the one expected; the retry buffer,
the frames of a replay still to send, the replays and the time since AckSeq last advanced, whether a NAK has gone out
for the expected Seq; credits per pool (0 ASSURED, 1 BULK); open messages; the link frame in flight and whether it is
sent for the first time. -/
structure StemEnd where
  line       : StemLine := {}
  level      : Nat := 0
  aligned    : Nat := 0
  disagree   : Nat := 0
  since      : Nat := 0
  lastHello  : Option Nat := none
  txSeq      : Nat := 0
  rxSeq      : Nat := 0
  retry      : List LFrame := []
  replay     : List LFrame := []
  replays    : Nat := 0
  lastAdv    : Nat := 0
  naked      : Bool := false
  limit      : List (Option Nat) := [none, none]
  charged    : List Nat := [0, 0]
  freed      : List Nat := [0, 0]
  opens      : List OpenMsg := []
  sending    : Option (LFrame × Bool) := none
  peerOk     : Bool := false
  deriving DecidableEq, Repr

/-! ### Field test (chapter 17) -/

/-- What the sequencer keeps of a tap (R579): its cursor, NextDue and rounds. -/
structure TapTest where
  cursor  : Nat := 0
  nextDue : Nat := 0
  rounds  : Nat := 0
  deriving DecidableEq, Repr

/-- The test that runs (R574): tap, entry, variant, start tick, whether `RunTest` asked for it, and at its start the highest
temperature, the lowest voltage and TIME_UNCERTAIN (R590). -/
structure TestRun where
  tap       : Nat
  entry     : Nat
  variant   : Nat
  start     : Nat
  host      : Bool
  temp      : Int
  minV      : Nat
  uncertain : Bool
  deriving DecidableEq, Repr

/-- The sequencer (R577 to R585): the taps that have run a test, the test that runs, the end tick of the last one, a `RunTest`
that waits (tap, entry, variant, since), the failures counted per tap and TestId, and the taps whose ft_offer was high at the newest tick. -/
structure FieldSt where
  taps    : List (Nat × TapTest) := []
  run     : Option TestRun := none
  lastEnd : Option Nat := none
  asked   : Option (Nat × Nat × Nat × Nat) := none
  occ     : List ((Nat × Nat) × Nat) := []
  offers  : List Nat := []
  deriving DecidableEq, Repr

/-! ### Firmware (chapter 18) -/

/-- How a unit stands between reset and service: whether its reset input is held, whether no sample tick has come since
reset (R636), the level of its Quickset strap at the last reset that sampled it, whether its ROM has yet to boot an image
(R600, R601), the bytes of the image value that a leaf has fetched, the stamp and cause (SRAM error) of a watchdog's FATAL
record whose reset is to come (R609), and the service drops to which a trunk has pushed in their present Quickset mode
(R612). -/
structure BootSt where
  held   : Bool := false
  first  : Bool := true
  strap  : Bool := false
  rom    : Bool := true
  fetch  : Bytes := []
  dying  : Option (Nat × Bool) := none
  pushed : List (Nat × Nat) := []
  deriving DecidableEq, Repr

end Sys2Proof.Machine
end

