-- ==== Sys2Proof/Machine/StateTrunk.lean ====
section
/-! DEFINITION. The state that chapters 09 and 11 to 19 give a trunk beyond what it shares with a leaf. -/

namespace Sys2Proof.Machine

/-! ### Egress queues and policers (chapter 09) -/

/-- A message queued at an egress port: what it is (a Pleach message, or a Stem message of a class), its length on
the link, its virtual channel, whether its class held no message when it arrived (R327), its finish tag, its place in
the order of arrival, and, where it is forwarded, the input port, channel and message number it comes from. -/
structure EMsg where
  len    : Nat
  vc     : Nat := 0
  newly  : Bool := false
  tag    : Option Nat := none
  arr    : Nat := 0
  inp    : Option (Nat × Nat × Nat) := none
  pm     : Option PMsg := none
  stemCls : Nat := 0
  bytes  : Bytes := []
  deriving DecidableEq, Repr

/-- The scheduler state of a port (R325 to R332), coded as `State` (0x2920 + p, sub 02). -/
inductive SchedState where
  | wfq
  | drrFallback
  | drrForced
  deriving DecidableEq, Repr

/-- An egress port: queues per class with the head first, the messages that have arrived, LastFinish, V, the deficits,
the class the round visits and whether its quantum has been added, a choice made for the next flit, the shapers'
buckets, and for a Stem port the messages being sent, of the first of which `off` bytes have left. -/
structure Egress where
  queues  : List (List EMsg) := [[], [], [], [], [], [], [], []]
  arrived : Nat := 0
  lastF   : List Nat := [0, 0, 0, 0, 0, 0, 0, 0]
  v       : Nat := 0
  state   : SchedState := .wfq
  deficit : List Nat := [0, 0, 0, 0, 0, 0, 0, 0]
  visit   : Nat := 1
  quantum : Bool := false
  chosen  : Option Nat := none
  buckets : List Int := [0, 0, 0, 0, 0, 0, 0, 0]
  line    : List EMsg := []
  off     : Nat := 0
  deriving DecidableEq, Repr

/-! ### Pleach ports (chapter 11) -/

/-- A flit (R384). `fill` counts the body bytes used; `body` holds them (the rest of the 624 bytes is zero). -/
structure Flit where
  kind          : Nat := 2
  channel       : Nat := 0
  seq           : Nat := 0
  ack           : Nat := 0
  nak           : Bool := false
  ackValid      : Bool := false
  creditChannel : Nat := 0
  creditValid   : Bool := false
  creditLimit   : Nat := 0
  fill          : Nat := 0
  body          : Bytes := []
  crcOk         : Bool := true
  deriving DecidableEq, Repr

/-- The body of a Pleach HELLO flit (R387). -/
structure PleachHello where
  trunkId : Nat
  port    : Nat
  level   : Nat
  sizeX   : Nat
  sizeY   : Nat
  sizeZ   : Nat
  accept  : Bool
  deriving DecidableEq, Repr

/-- The message being received on a channel: its number, the bytes received, and the first 16 of them. -/
structure PRx where
  no   : Nat
  got  : Nat
  head : Bytes
  deriving DecidableEq, Repr

/-- A channel of a Pleach port (R394, R399): towards the peer its Limit, what has been charged, and the message that owns
the channel with the bytes sent; from the peer what has been freed, the units held per flit with the numbers of the
first and last message in it, the messages not yet disposed of, the message being received, the messages begun, and the
headers taken; and whether its Limit is to be advertised. -/
structure PChan where
  limit   : Option Nat := none
  charged : Nat := 0
  tx      : Option (EMsg × Nat) := none
  freed   : Nat := 0
  held    : List (Nat × Nat × Nat) := []
  open_   : List Nat := []
  rx      : Option PRx := none
  begun   : Nat := 0
  heads   : Nat := 0
  advert  : Bool := false
  deriving DecidableEq, Repr

/-- A Pleach port (R386 to R394, R417 to R420): lane lock, deskew, bring-up, the sequence numbers, the replay buffer and
the flits of a replay still to send, ABORT flits due, channels, the codeword count, the credit rotation, the scrambler state
(newest bit in bit 0, R380), and the protocol level the link runs at (R387). -/
structure PleachPort where
  laneHits   : List Nat := List.replicate 8 0
  laneMiss   : List Nat := List.replicate 8 0
  agree      : Nat := 0
  disagree   : Nat := 0
  since      : Nat := 0
  lastHello  : Option Nat := none
  helloOk    : Bool := false
  sentAccept : Bool := false
  gotAccept  : Bool := false
  badSince   : Option Nat := none
  opticsHold : Bool := false
  txSeq      : Nat := 0
  rxSeq      : Nat := 0
  rxAny      : Bool := false
  replay     : List Flit := []
  resend     : List Flit := []
  replays    : Nat := 0
  lastAdv    : Nat := 0
  naked      : Bool := false
  nakDue     : Bool := false
  aborts     : List Nat := []
  chans      : List PChan := List.replicate 16 {}
  intro      : Nat := 0
  words      : Nat := 0
  nextChan   : Nat := 0
  scr        : BitVec 58 := 0
  level      : Nat := 0
  deriving DecidableEq, Repr

/-- Violations towards one Source trunk that no FENCE_NOTICE has reported yet (R414). -/
structure NoticeSt where
  source : Nat
  count  : Nat
  entry  : Bytes
  sentAt : Option Nat
  deriving DecidableEq, Repr

/-- The fabric of a trunk: its Pleach ports, its egress ports (six Pleach, then 256 Stem), its Stem ends, its memory
port arbiters, the notices owed, fence writes that wait for a window boundary (R415), the messages that came in for the
trunk itself, the FENCE_NOTICEs received (source, count, entry), and the policers' buckets Tc and Tp (R338). -/
structure FabricSt where
  ports    : List PleachPort := List.replicate 6 {}
  egress   : List Egress := List.replicate 262 {}
  stems    : List StemEnd := List.replicate 256 {}
  memArb   : List MemArbiter := List.replicate 4 {}
  notices  : List NoticeSt := []
  fences   : List (Nat × Nat) := []
  fenceBlob : Option Bytes := none
  local_   : List (PMsg × Option (Nat × Nat × Nat)) := []
  noticed  : List (Nat × Nat × Bytes) := []
  policed  : List (Int × Int) := List.replicate 255 (65536000, 131072000)
  deriving DecidableEq, Repr

/-- A window file of Align (R474): the window, the handles of its HISTORY runs oldest first, the base of the newest and the
bytes used in it, and an entry per frame (LeafId, Colour, FrameAddr). -/
structure FileSt where
  window  : Nat
  handles : List Nat := []
  base    : Nat := 0
  used    : Nat := 0
  entries : List (Nat × Nat × Nat) := []
  deriving DecidableEq, Repr

/-- Of the streams of leaf frames, numbered Stem port × 4 + schedule: those whose context, in memory (R303), is INVALID
whatever it holds (R339, R371); those for which a resynchronisation is outstanding (R304); by stream the newest raw frame filed (R429); and by Stem port the schedule of its
newest frame with event sections, its lead schedule (R257); the frames of no group (R447); and frames that have arrived and
are not filed yet (Stem port and time, R275). -/
structure IngestSt where
  stale  : List Nat := []
  resync : List Nat := []
  last   : List (Nat × Bytes) := []
  lead   : List (Nat × Nat) := []
  loose  : FileSt := { window := 0 }
  arrived : List (Nat × Nat) := []
  deriving DecidableEq, Repr


/-! ### Reduction (chapter 12) -/

/-- A partial (R426): the counts and flags of its header, and its field bodies. -/
structure Part where
  members   : Nat := 0
  present   : Nat := 0
  gapLeaves : Nat := 0
  trunks    : Nat := 0
  flags     : Nat := 0
  bodies    : Bytes := []
  deriving DecidableEq, Repr

/-- A window of a group at work (R432 to R434): the frames that arrived in time (Stem port, raw bytes, and the raw
bytes of the previous frame of the schedule), the members' contributions to HIST fields, whether the trunk partial has been formed, the stage inputs held (stage, origin, partial), and the stages closed. -/
structure WinSt where
  window : Nat
  frames : List (Nat × Bytes × Bytes) := []
  values : List (Nat × Nat × Int × Bool) := []
  formed : Bool := false
  inputs : List (Nat × Nat × Part) := []
  closed : Nat := 0
  deriving DecidableEq, Repr

/-- A member leaf of a group at this trunk (R425): its Stem port, the window of the binding issued for it, and the
window from which it is unbound. -/
structure Member where
  port   : Nat
  from_  : Option Nat := none
  until_ : Option Nat := none
  deriving DecidableEq, Repr

/-- A fleet result kept for the Straggler and Drift engines (R435), with the members' contributions to the group's HIST
fields in its window (Stem port, field, value, whether the frame was STALE_ANY or TIME_UNCERTAIN), and the engines that
have yet to use it. -/
structure ViewSt where
  window  : Nat
  part    : Part
  values  : List (Nat × Nat × Int × Bool) := []
  steps   : Bool := true
  drift   : Bool := true
  deriving DecidableEq, Repr

/-- A group change that waits for its batch (R451): unbinding or binding (`second`: the writes that follow the
schedule's next latch, R446), the leaf's Stem port, the group's slot, binding and schedule, the window it applies at, the
time before which it is not issued, and whether it has been counted as deferred. -/
structure Change where
  bind     : Bool
  second   : Bool := false
  teardown : Bool := false
  port     : Nat
  slot     : Nat
  at_      : Nat
  start    : Nat
  period   : Nat
  group    : Nat
  gen      : Nat
  part     : Nat
  after    : Nat := 0
  deferred : Bool := false
  deriving DecidableEq, Repr

/-- A leaf in transition (R452): its new binding, when the transition ends at the latest, and whether a frame with the
binding has been filed. -/
structure Trans where
  port  : Nat
  group : Nat
  gen   : Nat
  end_  : Nat
  filed : Bool := false
  deriving DecidableEq, Repr

/-- A setup at its home trunk (R442, R444): the definition, the generation proposed, whether it is the second proposal,
when it began, the trunks that acknowledged, the latest QuarantineUntil, and the refusals (trunk, reason, generation). -/
structure HomeSetup where
  bytes      : Bytes
  gen        : Nat
  second     : Bool := false
  began      : Nat
  acks       : List Nat := []
  quarantine : Nat := 0
  naks       : List (Nat × Nat × Nat) := []
  deriving DecidableEq, Repr

/-! ### Stragglers and drift (chapter 14) -/

/-- An arrival of a member not yet resolved (R493): step, stamp, the stamp of the member's previous arrival, and the
window after which it was filed. -/
structure ArrSt where
  step  : Nat
  stamp : Nat
  prev  : Option Nat
  filed : Nat
  deriving DecidableEq, Repr

/-- What a trunk keeps of a frame for attribution (R505, R506): LatchStamp, the ALWAYS_ON values, the lowest VoltMin,
whether it lacked a section that attribution needs or was SUMMARY, whether its COMMAND_LOG had no CARRYOVER. -/
structure FrameNote where
  latch  : Nat
  always : List Nat
  minV   : Nat
  lacks  : Bool
  whole  : Bool
  deriving DecidableEq, Repr

/-- An END record that a trunk has filed (R137). -/
structure EndNote where
  stamp : Nat
  tap   : Nat
  tag   : Nat
  aux   : Nat
  slots : Nat × Nat × Nat × Nat
  deriving DecidableEq, Repr

/-- A resolved arrival kept until its step closes: step, stamp, release. -/
structure Resolved where
  step    : Nat
  stamp   : Nat
  release : Nat
  deriving DecidableEq, Repr

/-- The drift state of a metric of a member (R508). -/
structure DriftSt where
  field   : Nat
  e       : Int := 0
  shi     : Int := 0
  slo     : Int := 0
  updates : Nat := 0
  deriving DecidableEq, Repr

/-- What the Straggler and Drift engines keep of a member (R492 to R508); `lost` are UNRESOLVED arrivals that the next HOST
export reports (R512), `base` the six baselines. -/
structure StragMember where
  port     : Nat
  lastArr  : Option Nat := none
  waiting  : List ArrSt := []
  lost     : List ArrSt := []
  ends     : List EndNote := []
  notes    : List FrameNote := []
  resolved : List Resolved := []
  base     : List Int := []
  steps    : Nat := 0
  drift    : List DriftSt := []
  deriving DecidableEq, Repr

/-- An open step (R500): TopK entries (Key, Arg, Aux). -/
structure StepSt where
  step     : Nat
  expected : Nat
  arrived  : Nat := 0
  window   : Nat
  topk     : List (Nat × Nat × Nat) := []
  hist     : List Nat := []
  flags    : Nat := 0
  deriving DecidableEq, Repr

/-- The Straggler and Drift engines of a slot: the settings applied (StragglerConfig subindices 1 to 0x0D, DriftConfig
subindices 1, 3 and 4, and its Metrics), the window named in `Apply`, the open step, Base after each close (newest first), whether an arrival has been UNRESOLVED since the last close, the handle of the MODELS
allocation, and the members. -/
structure StragSt where
  conf    : List Nat := []
  dconf   : List Nat := []
  metrics : Bytes := []
  pending : Option Nat := none
  open_   : Option StepSt := none
  bases   : List (Nat × Int) := []
  unresolved : Bool := false
  models  : Option Nat := none
  members : List StragMember := []
  deriving DecidableEq, Repr

/-- A group slot beyond its objects (R424): the box's trunks with no member entry included, the observers, the members, the
windows at work, the highest window whose stage 3 has closed, the bytes of relay memory reserved, the load per port, the
results kept, and the engines' state. -/
structure SlotSt where
  observers : List Nat := []
  members   : List Member := []
  wins      : List WinSt := []
  through   : Option Nat := none
  relay     : Nat := 0
  load      : List Nat := []
  views     : List ViewSt := []
  files     : List FileSt := []
  strag     : StragSt := {}
  deriving DecidableEq, Repr

/-- A ladder of the trunk (R275): consecutive saturated and clear windows, the causes seen. -/
structure TrunkLadder where
  sat    : Nat := 0
  clear  : Nat := 0
  deriving DecidableEq, Repr

/-- Reduction at a trunk: the 64 slots, the last generation of each ID (R450), a setup at its home, the changes that wait
and the reference window of the last batch, leaves in transition, the fleet triggers seen (group, TriggerId) and the windows
they keep (slot, OriginStamp), the count of triggers originated here, the ladders, and the frames that have arrived and that
Align has not filed by the close of the next window. -/
structure RedSt where
  slots     : List SlotSt := List.replicate 64 {}
  lastGen   : List (Nat × Nat) := []
  setup     : Option HomeSetup := none
  changes   : List Change := []
  lastBatch : Option Nat := none
  trans     : List Trans := []
  triggers  : List (Nat × Nat) := []
  keeps     : List (Nat × Nat) := []
  trigNo    : Nat := 0
  ladders   : List TrunkLadder := [{}, {}]
  lastJudge : Option Nat := none
  deriving DecidableEq, Repr

/-! ### The analysis fabric (chapter 13) -/

/-- The states of a sprig thread (R457). -/
inductive ThreadState where
  | ready
  | stalled
  | waiting
  | gated
  | halted
  deriving DecidableEq, Repr

/-- The privilege modes of a sprig (R456). -/
inductive Priv where
  | user
  | machine
  deriving DecidableEq, Repr

/-- A sprig thread (R456 to R458): its state, its full architectural state (the pc, the integer, floating-point and vector
registers, the privilege mode, and the CSRs of the RISC-V standard that traps, floating point and vectors use), its Kioft
CSRs, and its SYNC.WAIT (counter, target, since when, the value that has satisfied it) with the register it writes. -/
structure Thread where
  state    : ThreadState := .halted
  pc       : Word := 0
  x        : Vector Word 32 := Vector.replicate 32 0
  f        : Vector Word 32 := Vector.replicate 32 0
  v        : Vector (BitVec 512) 32 := Vector.replicate 32 0
  priv     : Priv := .machine
  mstatus  : Word := 0
  mtvec    : Word := 0
  mepc     : Word := 0
  mcause   : Word := 0
  mtval    : Word := 0
  mscratch : Word := 0
  mie      : Word := 0
  mip      : Word := 0
  fcsr     : Word := 0
  vstart   : Word := 0
  vcsr     : Word := 0
  vl       : Word := 0
  vtype    : Word := 0x8000000000000000
  kwaitlim : Word := 0
  kpart    : Nat := 0
  kclass   : Nat := 3
  wait     : Option (Nat × Word × Nat × Option Word) := none
  waitRd   : BitVec 5 := 0
  deriving DecidableEq, Repr

/-- A descriptor that an engine has taken (R470): its index, its 64 bytes, and its 16-byte result once it has run; for an
INFER at work the vectors done, those with a NaN, the tree slot of the first miss, the vectors that an uncorrectable error has
hit (none: no error), whether its next batch is held, whether it has begun, and whether it has completed. -/
structure DescSt where
  idx    : Nat
  bytes  : Bytes
  result : Option Bytes := none
  begun  : Bool := false
  done   : Nat := 0
  nans   : Nat := 0
  miss   : Option Nat := none
  hurt   : Option (List Nat) := none
  held   : Bool := false
  finished : Bool := false
  deriving DecidableEq, Repr

/-- A ring beyond its objects: the index of the next descriptor to take, and those taken and not yet counted complete. -/
structure RingSt where
  next  : Option Nat := none
  taken : List DescSt := []
  deriving DecidableEq, Repr

/-- A run of pool pages under one handle (R476): `base` is its physical address; a REMOTE run lies in a lease. -/
structure PoolRun where
  handle : Nat
  cls    : Nat
  part   : Nat
  base   : Nat
  pages  : Nat
  age    : Nat
  lease  : Option Nat := none
  deriving DecidableEq, Repr

/-- A lease at one end (R479): as its messages name it, whether this trunk is the lender, the pages lent, when a RENEW was last sent and first sent unanswered, and the last message answered with its answer. -/
structure Lease where
  id       : Nat
  lending  : Bool
  units    : Nat
  peer     : Nat
  expires  : Nat := 0
  recallAt : Nat := 0
  duration : Nat := 0
  pages    : List (Nat × Nat) := []
  sentAt   : Option Nat := none
  askedAt  : Option Nat := none
  answer   : Option LeaseMsg := none
  asked    : Option LeaseMsg := none
  deriving DecidableEq, Repr

/-- A LEASE_READ at work: the Tag of its request, its ring and descriptor, the lease, and where the bytes go. -/
structure LeaseRead where
  tag   : Nat
  ring  : Nat
  idx   : Nat
  lease : Nat
  dst   : Nat
  len   : Nat
  deriving DecidableEq, Repr

/-- The governor between windows (R484 to R489): the tick of the last opening,
the classes whose account has reached 0 in the window, settings that software has written for the next window (R490),
rails that report a warning, the READ_POUT of each rail at its last reading (mW), and the time of that reading. -/
structure GovSt where
  lastWin   : Option Nat := none
  waiting   : List (Nat × Nat) := []
  exhausted : List Nat := []
  warnRails : List Nat := []
  readPout  : List (Nat × Nat) := []
  lastRead  : Nat := 0
  deriving DecidableEq, Repr

/-- The analysis fabric: threads and counters that differ from their reset values, rings, the pool's runs in the order of
allocation, pages that have been evicted and not allocated since (base and pages), handles given out so far, the leases, the
newest REQUEST that each borrower has been denied with its Reason, the LEASE_READs at work and their Tags, the ring whose turn it is
at each engine (R471), class-7 messages kept while a ladder's step forbids them (R275), and the governor. -/
structure AnaSt where
  threads : List (Nat × Thread) := []
  sync    : List (Nat × Word) := []
  rings   : List RingSt := List.replicate 64 {}
  turns   : List (Nat × Nat) := []
  runs    : List PoolRun := []
  evicted : List (Nat × Nat) := []
  serial  : Nat := 0
  leases  : List Lease := []
  denied  : List (LeaseMsg × Nat) := []
  reads   : List LeaseRead := []
  tagNo   : Nat := 0
  kept    : List PMsg := []
  gov     : GovSt := {}
  deriving DecidableEq, Repr

/-! ### The Thicket (chapter 15) -/

/-- A node of a compiled tree: its comparator within the model, and its branches: a leaf value, or a child. -/
structure ThNode where
  comp  : Nat
  left  : Nat
  leftLeaf  : Bool
  right : Nat
  rightLeaf : Bool
  deriving DecidableEq, Repr

/-- A compiled tree: output, bank, the addresses of its entries in the order of its leaves (R520), nodes. -/
structure ThTree where
  output : Nat
  bank   : Nat
  addrs  : List Nat
  nodes  : List ThNode
  deriving DecidableEq, Repr

/-- A loaded model beyond its objects: its slot, its first tree slot, the comparators (feature, threshold bits), trees, base
scores, and the ring and index of the LOAD at work. -/
structure ThModel where
  id    : Nat
  first : Nat
  comps : List (Nat × Nat)
  trees : List ThTree
  base  : List Nat
  load  : Option (Nat × Nat) := none
  deriving DecidableEq, Repr

/-! ### Sampled recompute and signatures (chapters 16 and 17) -/

/-- A copy of a policy and of its profile, as an arm takes it (R554): the policy's number, the values of its scalar
subindices in order from 0, its Maps and WeightMap, and the values of the profile's subindices in order from 0. -/
structure PolCopy where
  n    : Nat
  vals : List Nat
  maps : Bytes
  wmap : Bytes
  prof : List Nat
  deriving DecidableEq, Repr

/-- A policy at work (R551, R552): Epoch, the PeriodEff last computed, the arm count v, and per member (Stem port) the time
from which its next arm follows. -/
structure PolicySt where
  epoch  : Nat := 0
  period : Nat := 0
  arms   : Nat := 0
  last   : List (Nat × Nat) := []
  deriving DecidableEq, Repr

/-- An arm of a policy whose capture has not come: the Stem port, the copies, and the arm's Tag and TagMask. -/
structure ShotSt where
  port : Nat
  pol  : PolCopy
  tag  : Nat
  mask : Nat
  deriving DecidableEq, Repr

/-- An arm at a server leaf (R560): its Stem port and source, Tag and TagMask, and the requests that it answers (head and
WeightMap). -/
structure ServeSt where
  port : Nat
  src  : Nat
  tag  : Nat
  mask : Nat
  reqs : List (RecomputeHead × Bytes)
  deriving DecidableEq, Repr

/-- A staged capture (R556): its number, the Stem port, the copies, the command's tag and BEGIN stamp, the stamp of its
CAPTURE_END, its pool handle and pages, the packed rows of A, A scales, B, B scales, C and D, the die's B digest, and since when
it waits for a weight tile. -/
structure StagedSt where
  id     : Nat
  port   : Nat
  pol    : PolCopy
  tag    : Nat
  begin  : Nat
  ended  : Nat
  handle : Nat
  pages  : Nat
  ops    : List Bytes
  digest : Nat := 0
  wait   : Option Nat := none
  deriving DecidableEq, Repr

/-- A cached weight tile (R560): its server leaf, source and key, its Crc, the server command's BEGIN stamp, when it came, and
its bytes. -/
structure TileSt where
  leaf  : Nat
  src   : Nat
  key   : Nat
  crc   : Nat
  begin : Nat
  time  : Nat
  bytes : Bytes
  deriving DecidableEq, Repr

/-- Sampled recompute: the policies, the arms outstanding, the arms at server leaves, the staged captures and the number of
the next one, the weight tiles cached, and per group the time of the last trigger originated (R568). -/
structure RecompSt where
  pols   : List PolicySt := List.replicate 16 {}
  shots  : List ShotSt := []
  serves : List ServeSt := []
  caps   : List StagedSt := []
  nextId : Nat := 0
  tiles  : List TileSt := []
  holds  : List (Nat × Nat) := []
  deriving DecidableEq, Repr

/-- A COMMAND digest of a shadow pair that waits for its partner (R588): the side, and when it came. -/
structure ShadowSt where
  subject : Bool
  msg     : DigestMsg
  arrived : Nat
  deriving DecidableEq, Repr

/-- Signatures: failures counted per Kind, leaf, Tap and TestId (R590), and the digests that wait per pair. -/
structure SigSt where
  occ   : List ((Nat × Nat × Nat × Nat) × Nat) := []
  pairs : List (Nat × ShadowSt) := []
  deriving DecidableEq, Repr

/-! ### Firmware and Layering (chapter 18) -/

/-- The SAVED values of one unit in the configuration image (R31, R615): the unit's address, the DictMajor of the unit that
stored them, and the values as transferred, by index × 256 + subindex. -/
structure ConfEnt where
  unit  : Nat
  major : Nat
  vals  : List (Nat × Bytes)
  deriving DecidableEq, Repr

/-- Board flash besides the commit area: the five image slots as 65,536-byte sectors that have been programmed, the
configuration image, and the TRUNK_REBOOT that Layering records in it (R617). -/
structure FlashSt where
  slots : List (List (Nat × Bytes)) := [[], [], [], [], []]
  conf  : List ConfEnt := []
  layer : Bool := false
  deriving DecidableEq, Repr

/-- The loader (R604 to R607): the handle of the stage's MODELS run, the image that is being programmed, whether a read-back
has differed, the image types whose slot has been written whole since reset, and those whose slot is being replaced. -/
structure LoadSt where
  handle  : Option Nat := none
  image   : Bytes := []
  differs : Bool := false
  written : List Nat := []
  open_   : List Nat := []
  deriving DecidableEq, Repr

/-- What Layering waits for at the current leaf (R617). -/
inductive LayerPhase where
  | leaving
  | booting
  | joining
  deriving DecidableEq, Repr

/-- Layering's leaf phase (R617): the Stem ports still to update, what it waits for at the current one, when it reset that
leaf, and the groups that the leaf left. -/
structure LayerSt where
  todo   : List Nat := []
  phase  : LayerPhase := .leaving
  since  : Nat := 0
  groups : List Nat := []
  deriving DecidableEq, Repr

/-- What a trunk holds beyond a leaf; `tripped` from a thermal trip until RESET_N (R643). -/
structure TrunkSt where
  tripped : Bool := false
  flash : FlashSt := {}
  load : LoadSt := {}
  layer : LayerSt := {}
  fab : FabricSt := {}
  ing : IngestSt := {}
  red : RedSt := {}
  ana : AnaSt := {}
  thk : List ThModel := []
  rec_ : RecompSt := {}
  sig : SigSt := {}
  deriving DecidableEq, Repr

end Sys2Proof.Machine
end

