-- ==== Sys2Proof/Machine/State.lean ====
section
/-! DEFINITION. The state of the block: a leaf on a host die, a trunk, and the self-leaf inside the trunk (R5), each
a `Dev`; the trunk's memory stacks; and the queue of commands that wait. All of it is plain data. -/

namespace Sys2Proof.Machine

/-- Outputs of a unit that a single pin or pin group carries (chapter 19). -/
inductive Pin where
  | stageGrant
  | stageDeny
  | regionOff
  | shedReq
  | shedCluster
  | ftTake
  | ftKernel
  | ftSeed
  | ftAbort
  | thermtrip
  | laserEn
  | unitResetOut
  deriving DecidableEq, Repr

/-- What a unit puts on its ports in one command. -/
inductive Out where
  /-- an SDP response or NOTIFY on a transport (R40) -/
  | sdp (via : Via) (segment : Nat) (r : Resp)
  /-- the SAVED values that a leaf sends to its trunk (R31) -/
  | config (c : ConfEnt)
  /-- an SDP response that goes back to the requester a trunk proxied for (R58, R59) -/
  | proxied (whom : Origin) (r : Resp)
  /-- an SDP request that a trunk forwards in-band (R58), or a leaf or trunk sends itself (R304, R601) -/
  | request (via : Via) (segment : Nat) (r : Resp)
  /-- an SDP request of a trunk to a drop of one of its service segments, over that drop's MAC address (R54) -/
  | toDrop (segment drop : Nat) (r : Resp)
  /-- data of a local-port read -/
  | busData (value : Bytes)
  /-- the error response on the host bus (R63), with the abort code the violation log records -/
  | busError (code : Nat)
  /-- a pin, or the pin of a region or cluster, is driven to a value -/
  | pin (p : Pin) (index value : Nat)
  /-- a time message with its transmit stamp (R87) -/
  | time (p : TimePort) (m : TimeMsg) (tx : Stamp)
  /-- a link frame on a Stem link -/
  | linkFrame (e : StemId) (f : LFrame) (crc : Nat)
  /-- a control block on a Stem link: its type and the bytes after it (R346) -/
  | block (e : StemId) (type : Nat) (bytes : Bytes)
  /-- a flit of any kind on a Pleach port (R384) -/
  | flit (p : Nat) (f : Flit)
  /-- an ALIGN codeword on a Pleach port, with its AlignCount (R381) -/
  | alignWord (p count : Nat)
  /-- a Stem message has come whole and is handed on: its port, class, colour and bytes (R339, R359) -/
  | fromStem (port cls colour : Nat) (bytes : Bytes)
  /-- a Pleach message is handed to the trunk's own units (R401) -/
  | delivered (m : PMsg)
  /-- a violation is reported to the trunk's own management complex (R414) -/
  | notice (count : Nat) (entry : Bytes)
  /-- the tick-count bus to the taps: its strobe, with bits [7:0] of the tick number (R77) -/
  | tickBus (number : Nat)
  /-- a datagram from an export port -/
  | udp (port : Nat) (high low : Nat) (data : Bytes)
  deriving DecidableEq, Repr

/-- What a unit puts on its physical lines in one command, bit for bit. -/
inductive Wire where
  /-- an Ethernet frame from its destination address to the end of its padding (R54, R55, R59) -/
  | ether (via : Via) (segment : Nat) (frame : Bytes)
  /-- a 66-bit block on a lane of a Stem link, scrambled; bit 0 is sent first (R343) -/
  | stem (e : StemId) (lane : Nat) (bits : BitVec 66)
  /-- a codeword on the eight lanes of a Pleach port: per lane its 68 symbols in the order sent (R378, R379) -/
  | pleach (p : Nat) (lanes : List (List (BitVec 10)))
  deriving DecidableEq, Repr

/-- One unit of either build. `objs` holds the scalar objects that differ from, or have been written over, their
defaults, keyed by index × 256 + subindex in strictly rising order; `blobs` likewise the STR and DOMAIN values.
`sets` names the flag bits that hardware has set in this tick (R26, R148). `out` is what the unit sent in the last
command that named it, the model's own record of its ports, and `lines` the same as bits on its lines. -/
structure Dev where
  cfg    : Cfg
  objs   : List (Nat × Word) := []
  blobs  : List (Nat × Bytes) := []
  sets   : List (Nat × Nat) := []
  srv    : Server := {}
  time   : TimeSt := {}
  tap    : TapSt := {}
  pow    : PowerSt := {}
  trc    : TraceSt := {}
  rcd    : RecSt := {}
  frm    : FrameSt := {}
  arb    : Arbiter := {}
  stem   : StemEnd := {}
  ftest  : FieldSt := {}
  boot   : BootSt := {}
  tk     : TrunkSt := {}
  out    : List Out := []
  lines  : List Wire := []
  deriving DecidableEq, Repr

/-- The whole machine. -/
structure State where
  leaf    : Dev
  self    : Dev
  trunk   : Dev
  mem     : List Host.Cell := []
  pending : List Instr := []
  deriving DecidableEq, Repr

/-- Reasons at which a command stops the machine. No command of this block does: every condition that the spec
names is an abort code, a flag, a status or a record in the state. -/
inductive Fault where
  /-- Never raised: the spec describes no condition at which the block stops. Safe. -/
  | none
  deriving DecidableEq, Repr

/-- Reasons why a command has no meaning. -/
inductive Refusal where
  /-- Raised by `exec` for a command whose meaning is not written yet, by its mnemonic. Safe: nothing is claimed. -/
  | notModelled (mnemonic : String)
  deriving DecidableEq, Repr

/-- The taps of a leaf of the model, two regions, one trace source each: DESIGN CHOICE (log 3). -/
def resetTaps (n : Nat) : List TapDesc :=
  (List.range n).map fun t =>
    { engineType := if t % 16 < 10 then t % 16 else 0x0F, region := t % 2, traceSource := t, slotsPerCycle := if t = 0 then 4 else 1 }

/-- KeyDigest0 of the units of the model: DESIGN CHOICE (log 3). It is the SHA-384 of the base point of P-384. -/
def resetKey : Bytes :=
  [0xA1, 0x9D, 0x4D, 0xB1, 0x71, 0xB5, 0x82, 0xEB, 0x80, 0x52, 0xB0, 0xCF, 0xE5, 0x55, 0xE1, 0x78,
   0x94, 0xAA, 0x22, 0xD1, 0xC8, 0xA9, 0x77, 0x09, 0x50, 0x69, 0x7D, 0xD8, 0xF7, 0x96, 0xD2, 0xFA,
   0x4B, 0xF0, 0xA5, 0x6A, 0xD8, 0x00, 0x06, 0xB7, 0xEA, 0x08, 0xE1, 0x19, 0x1F, 0x81, 0x4B, 0x65]

/-- What is fixed for a leaf of the model: DESIGN CHOICE (log 3). -/
def leafCfg : Cfg :=
  { build := .leaf, dropStrap := 4, taps := resetTaps 8, regionCount := 2, voltRegions := [0, 1], powerRegions := 2,
    tempRegions := [0], clusters := 2, traceSources := 8, fieldTest := true, inrushGate := true, keyDigests := [resetKey] }

/-- What is fixed for the trunk of the model: DESIGN CHOICE (log 3). Four stacks of 72 GB each (R456). -/
def trunkCfg : Cfg :=
  { build := .trunk, trunkId := 0x310, traceSources := 16, fieldTest := true, inrushGate := true,
    stackBytes := 288000000000, keyDigests := [resetKey] }

/-- The pool's run of class RECORDER, allocated at reset (R235, R476): the first 64 MiB of the pool's shared part (log 21). -/
def recorderRun : PoolRun := { handle := 0, cls := 3, part := 0, base := 0x000201800000, pages := 32, age := 0 }

/-- A unit right after reset: every object at its default, nothing queued, FleetTime 0 (R29, R74, R634). -/
def Dev.fresh (cfg : Cfg) : Dev :=
  { cfg := cfg
    time := { links := List.replicate (if cfg.build = .trunk then 262 else 1) {},
              adverts := List.replicate 6 none }
    tap := { taps := List.replicate cfg.taps.length {}, regions := List.replicate cfg.regionCount {} }
    pow := { runStamp := List.replicate cfg.voltRegions.length 0 }
    trc := { srcs := List.replicate cfg.traceSources {} }
    tk := { ana := { runs := if cfg.build = .trunk then [recorderRun] else [] } } }

/-- The machine right after reset: three fresh units, no memory listed, no command waiting. -/
def State.reset : State :=
  { leaf := Dev.fresh leafCfg, self := Dev.fresh { leafCfg with selfLeaf := true, traceSources := 16, taps := resetTaps 16 },
    trunk := Dev.fresh trunkCfg }

/-- The unit that an identifier names. -/
def State.dev (s : State) : UnitId → Dev
  | .leaf .host => s.leaf
  | .leaf .self => s.self
  | .trunk => s.trunk

/-- The state with one unit replaced. -/
def State.setDev (s : State) (d : Dev) : UnitId → State
  | .leaf .host => { s with leaf := d }
  | .leaf .self => { s with self := d }
  | .trunk => { s with trunk := d }

end Sys2Proof.Machine
end

