-- ==== Sys2Proof/Machine/Objects.lean ====
section
/-! DEFINITION. The object table: one row per object of the dictionary, in the words of the spec's own tables (the
"Objects" section of each chapter, R34 for result objects, R66 for the violation log, R64 for the indirection pairs,
R503 for step records, R149 for AlwaysOn). A row covers a range of indices and a range of subindices. -/

namespace Sys2Proof.Machine

/-- The types of R23. -/
inductive OType where
  | bool | u8 | u16 | u32 | u64 | i8 | i16 | i32 | i64 | f32 | f64 | ft64 | ft32 | enum8 | bits32 | str | domain
  deriving DecidableEq, Repr

/-- The access classes of R25; `res` marks the subindices 0x01 to 0xFE of a result object. -/
inductive Access where
  | ro | rw | wo | rwc | cmd | res
  deriving DecidableEq, Repr

/-- Which builds implement an object. -/
inductive Builds where
  | both | leaf | trunk
  deriving DecidableEq, Repr

/-- The range of values that a write may give an object: any; a range; the listed encodings; or the bits that are
not reserved (R14). -/
inductive Rng where
  | any
  | between (lo hi : Nat)
  | atLeast (lo : Nat)
  | oneOf (codes : List Nat)
  | bits (mask : Nat)
  deriving DecidableEq, Repr

/-- A row of the object table. `size` is the size of the type, or the largest length of a STR or DOMAIN. -/
structure Row where
  first  : Nat
  last   : Nat
  sub    : Nat
  subEnd : Nat
  ty     : OType
  acc    : Access
  dflt   : Nat
  saved  : Bool
  builds : Builds
  rng    : Rng
  size   : Nat
  deriving DecidableEq, Repr

/-- A row, in the order in which the table writes its fields. -/
def row (first last sub subEnd : Nat) (ty : OType) (acc : Access) (dflt : Nat) (saved : Bool) (builds : Builds)
    (rng : Rng) (size : Nat) : Row :=
  ⟨first, last, sub, subEnd, ty, acc, dflt, saved, builds, rng, size⟩

/-- Objects 0x1000 to 0x10FF. -/
def rows10 : List Row :=
  [row 0x1000 0x1000 0x00 0x00 .u8 .ro 7 false .both (.any) 1,  -- HighestSub
   row 0x1000 0x1000 0x01 0x01 .str .ro 0 false .both (.any) 64,  -- VendorName
   row 0x1000 0x1000 0x02 0x02 .str .ro 0 false .both (.any) 64,  -- ProductName
   row 0x1000 0x1000 0x03 0x03 .enum8 .ro 0 false .both (.any) 1,  -- Build
   row 0x1000 0x1000 0x04 0x04 .u16 .ro 0 false .both (.any) 2,  -- DesignRevision
   row 0x1000 0x1000 0x05 0x05 .u64 .ro 0 false .both (.any) 8,  -- SerialNumber
   row 0x1000 0x1000 0x06 0x06 .u32 .ro 0x200000 false .both (.any) 4,  -- UnitAddress
   row 0x1000 0x1000 0x07 0x07 .u64 .ro 0 false .both (.any) 8,  -- HostDieId
   row 0x1001 0x1001 0x00 0x00 .u8 .ro 2 false .both (.any) 1,  -- HighestSub
   row 0x1001 0x1001 0x01 0x01 .u8 .ro 1 false .both (.any) 1,  -- DictMajor
   row 0x1001 0x1001 0x02 0x02 .u8 .ro 0 false .both (.any) 1,  -- DictMinor
   row 0x1002 0x1002 0x00 0x00 .u8 .ro 3 false .both (.any) 1,  -- HighestSub
   row 0x1002 0x1002 0x01 0x01 .enum8 .ro 0 false .both (.any) 1,  -- Cause
   row 0x1002 0x1002 0x02 0x02 .u32 .ro 0 false .both (.any) 4,  -- Resets
   row 0x1002 0x1002 0x03 0x03 .u32 .ro 0 false .both (.any) 4,  -- ThermalTrips
   row 0x1010 0x1010 0x00 0x00 .u32 .cmd 0 false .both (.any) 4,  -- StoreConfig
   row 0x1011 0x1011 0x00 0x00 .u32 .cmd 0 false .both (.any) 4]  -- RestoreDefaults

/-- Objects 0x1100 to 0x11FF. -/
def rows11 : List Row :=
  [row 0x1100 0x1100 0x00 0x00 .u8 .ro 3 false .leaf (.any) 1,  -- HighestSub
   row 0x1100 0x1100 0x01 0x01 .u8 .ro 0 false .leaf (.any) 1,  -- DropId
   row 0x1100 0x1100 0x02 0x02 .u64 .ro 0 false .leaf (.any) 8,  -- MacAddress
   row 0x1100 0x1100 0x03 0x03 .u8 .rw 32 true .leaf (.between 1 255) 1,  -- PlcaToTimer
   row 0x1101 0x1101 0x00 0x00 .u8 .ro 7 false .both (.any) 1,  -- HighestSub
   row 0x1101 0x1101 0x01 0x01 .u16 .ro 1024 false .both (.any) 2,  -- MaxData
   row 0x1101 0x1101 0x02 0x02 .u8 .ro 4 false .both (.any) 1,  -- Latches
   row 0x1101 0x1101 0x03 0x03 .u16 .ro 16 false .both (.any) 2,  -- SubCapacity
   row 0x1101 0x1101 0x04 0x04 .u16 .ro 0 false .both (.any) 2,  -- SubUsed
   row 0x1101 0x1101 0x05 0x05 .u32 .ro 0 false .both (.any) 4,  -- Replayed
   row 0x1101 0x1101 0x06 0x06 .u32 .ro 0 false .both (.any) 4,  -- AbortsSent
   row 0x1101 0x1101 0x07 0x07 .u32 .ro 0 false .both (.any) 4,  -- Misaddressed
   row 0x1102 0x1102 0x00 0x00 .u8 .ro 2 false .trunk (.any) 1,  -- HighestSub
   row 0x1102 0x1102 0x01 0x01 .u16 .rw 7733 true .trunk (.any) 2,  -- UdpPort
   row 0x1102 0x1102 0x02 0x02 .bool .rw 1 true .trunk (.any) 1,  -- Enable
   row 0x1110 0x111F 0x00 0x00 .u8 .ro 4 false .trunk (.any) 1,  -- HighestSub
   row 0x1110 0x111F 0x01 0x01 .bool .rw 1 true .trunk (.any) 1,  -- Enable
   row 0x1110 0x111F 0x02 0x02 .u8 .rw 17 true .trunk (.between 2 17) 1,  -- PlcaNodeCount
   row 0x1110 0x111F 0x03 0x03 .u8 .rw 32 true .trunk (.between 1 255) 1,  -- PlcaToTimer
   row 0x1110 0x111F 0x04 0x04 .bits32 .ro 0 false .trunk (.any) 4,  -- DropsSeen
   row 0x1180 0x1183 0x00 0x00 .u8 .ro 4 false .leaf (.any) 1,  -- HighestSub
   row 0x1180 0x1183 0x01 0x01 .u64 .rw 0 false .leaf (.any) 8,  -- Select
   row 0x1180 0x1183 0x02 0x02 .u64 .rw 0 false .leaf (.any) 8,  -- Data
   row 0x1180 0x1183 0x03 0x03 .u8 .cmd 0 false .leaf (.any) 1,  -- Commit
   row 0x1180 0x1183 0x04 0x04 .u32 .rw 0 false .leaf (.any) 4]  -- Length

/-- Objects 0x1800 to 0x18FF. -/
def rows18 : List Row :=
  [row 0x1800 0x1800 0x00 0x00 .enum8 .rw 0 true .both (.between 0 1) 1,  -- UpdateMode
   row 0x1801 0x1801 0x00 0x00 .u8 .ro 8 false .both (.any) 1,  -- HighestSub
   row 0x1801 0x1801 0x01 0x01 .enum8 .ro 0 false .both (.any) 1,  -- BootState
   row 0x1801 0x1801 0x02 0x02 .enum8 .ro 0 false .both (.any) 1,  -- QuicksetReason
   row 0x1801 0x1801 0x03 0x03 .u8 .ro 0 false .both (.any) 1,  -- BootAttempts
   row 0x1801 0x1801 0x04 0x04 .ft64 .ro 0 false .both (.any) 8,  -- LastBoot
   row 0x1801 0x1801 0x05 0x05 .u32 .rw 0x5F5E100 true .both (.between 1000000 1000000000) 4,  -- WatchdogTimeout
   row 0x1801 0x1801 0x06 0x06 .u32 .cmd 0 false .both (.any) 4,  -- UnitReset
   row 0x1801 0x1801 0x07 0x07 .domain .ro 0 false .both (.any) 96,  -- KeyDigests
   row 0x1801 0x1801 0x08 0x08 .bits32 .ro 0 false .both (.any) 4,  -- KeyRevoked
   row 0x1802 0x1802 0x00 0x00 .u8 .ro 6 false .trunk (.any) 1,  -- HighestSub
   row 0x1802 0x1802 0x01 0x01 .enum8 .rw 0 false .trunk (.oneOf [0, 1, 2, 3, 4, 5]) 1,  -- Target
   row 0x1802 0x1802 0x02 0x02 .domain .rw 0 false .trunk (.any) 6291968,  -- Stage
   row 0x1802 0x1802 0x03 0x03 .u8 .cmd 0 false .trunk (.any) 1,  -- Commit
   row 0x1802 0x1802 0x04 0x04 .domain .cmd 0 false .trunk (.any) 65544,  -- Block
   row 0x1802 0x1802 0x05 0x05 .enum8 .ro 0 false .trunk (.any) 1,  -- UpdateState
   row 0x1802 0x1802 0x06 0x06 .u32 .ro 0 false .trunk (.any) 4,  -- BytesWritten
   row 0x1803 0x1803 0x00 0x00 .u8 .ro 7 false .trunk (.any) 1,  -- HighestSub
   row 0x1803 0x1803 0x01 0x01 .u8 .cmd 0 false .trunk (.any) 1,  -- LayerStart
   row 0x1803 0x1803 0x02 0x02 .enum8 .ro 0 false .trunk (.any) 1,  -- LayerState
   row 0x1803 0x1803 0x03 0x03 .u8 .ro 255 false .trunk (.any) 1,  -- CurrentPort
   row 0x1803 0x1803 0x04 0x04 .u16 .ro 0 false .trunk (.any) 2,  -- LeavesDone
   row 0x1803 0x1803 0x05 0x05 .u32 .rw 0x1DCD6500 true .trunk (.between 50000000 4000000000) 4,  -- LeafBootLimit
   row 0x1803 0x1803 0x06 0x06 .enum8 .ro 0 false .trunk (.any) 1,  -- HaltReason
   row 0x1803 0x1803 0x07 0x07 .u16 .cmd 0 false .trunk (.any) 2,  -- QuicksetPush
   row 0x1804 0x1804 0x00 0x00 .bits32 .rwc 0 false .both (.any) 4,  -- UpdateFlags
   row 0x1805 0x1805 0x00 0x00 .u8 .ro 5 false .both (.any) 1,  -- HighestSub
   row 0x1805 0x1805 0x01 0x05 .u8 .ro 0 false .both (.any) 1,  -- FlagSetCount
   row 0x1811 0x1815 0x00 0x00 .u8 .ro 4 false .both (.any) 1,  -- HighestSub
   row 0x1811 0x1815 0x01 0x01 .u32 .ro 0 false .both (.any) 4,  -- RunningVersion
   row 0x1811 0x1815 0x02 0x02 .u32 .ro 0 false .both (.any) 4,  -- RunningLevels
   row 0x1811 0x1815 0x03 0x03 .u32 .ro 0 false .both (.any) 4,  -- StoredVersion
   row 0x1811 0x1815 0x04 0x04 .enum8 .ro 1 false .both (.any) 1,  -- Status
   row 0x1821 0x1821 0x00 0x00 .domain .ro 0 false .trunk (.any) 197120,  -- ImageStore of LEAF_MGMT
   row 0x1822 0x1822 0x00 0x00 .domain .ro 0 false .trunk (.any) 6291968,  -- ImageStore of TRUNK_MGMT
   row 0x1823 0x1823 0x00 0x00 .domain .ro 0 false .trunk (.any) 4194816,  -- ImageStore of SPRIG_RUNTIME
   row 0x1824 0x1824 0x00 0x00 .domain .ro 0 false .trunk (.any) 2097664,  -- ImageStore of ENGINE_MICROCODE
   row 0x1825 0x1825 0x00 0x00 .domain .ro 0 false .trunk (.any) 49696,  -- ImageStore of TEST_PACK
   row 0x1830 0x1830 0x00 0x00 .domain .cmd 0 false .both (.any) 6291968]  -- QuicksetImage

/-- Objects 0x1F00 to 0x1FFF. -/
def rows1F : List Row :=
  [row 0x1F80 0x1F80 0x00 0x00 .u8 .ro 5 false .both (.any) 1,  -- HighestSub
   row 0x1F80 0x1F80 0x01 0x01 .u32 .ro 0 false .both (.any) 4,  -- Count
   row 0x1F80 0x1F80 0x02 0x02 .u32 .ro 0 false .both (.any) 4,  -- OldestSeq
   row 0x1F80 0x1F80 0x03 0x03 .u32 .ro 0 false .both (.any) 4,  -- NewestSeq
   row 0x1F80 0x1F80 0x04 0x04 .domain .ro 0 false .both (.any) 32768,  -- Entries
   row 0x1F80 0x1F80 0x05 0x05 .u16 .ro 64 false .both (.any) 2]  -- Capacity

/-- Objects 0x2000 to 0x20FF, part 1. -/
def rows20a : List Row :=
  [row 0x2000 0x2000 0x00 0x00 .enum8 .rw 0 true .both (.between 0 1) 1,  -- TimeMode
   row 0x2001 0x2001 0x00 0x00 .u8 .ro 5 false .both (.any) 1,  -- HighestSub
   row 0x2001 0x2001 0x01 0x01 .ft64 .ro 0 false .both (.any) 8,  -- Now
   row 0x2001 0x2001 0x02 0x02 .u32 .ro 0 false .both (.any) 4,  -- NowFraction
   row 0x2001 0x2001 0x03 0x03 .u64 .rw 0x100000000 false .both (.any) 8,  -- Increment
   row 0x2001 0x2001 0x04 0x04 .i64 .cmd 0 false .both (.any) 8,  -- StepCmd
   row 0x2001 0x2001 0x05 0x05 .u64 .ro 0 false .both (.any) 8,  -- TickNumber
   row 0x2002 0x2002 0x00 0x00 .u8 .ro 16 false .both (.any) 1,  -- HighestSub
   row 0x2002 0x2002 0x01 0x01 .enum8 .ro 0 false .both (.any) 1,  -- State
   row 0x2002 0x2002 0x02 0x02 .u8 .ro 255 false .both (.any) 1,  -- Upstream
   row 0x2002 0x2002 0x03 0x03 .i32 .ro 0 false .both (.any) 4,  -- LastOffset
   row 0x2002 0x2002 0x04 0x04 .u32 .ro 0 false .both (.any) 4,  -- LastDelay
   row 0x2002 0x2002 0x05 0x05 .i32 .ro 0 false .both (.any) 4,  -- FreqAdjust
   row 0x2002 0x2002 0x06 0x06 .u32 .rw 1000 true .both (.any) 4,  -- LockThreshold
   row 0x2002 0x2002 0x07 0x07 .u32 .rw 2000 true .both (.any) 4,  -- UnlockThreshold
   row 0x2002 0x2002 0x08 0x08 .u8 .rw 64 true .both (.between 1 255) 1,  -- LockCount
   row 0x2002 0x2002 0x09 0x09 .u32 .rw 0xF4240 true .both (.any) 4,  -- HoldoverLimit
   row 0x2002 0x2002 0x0A 0x0A .u32 .rw 1000 true .both (.atLeast 8) 4,  -- StepThreshold
   row 0x2002 0x2002 0x0B 0x0B .u32 .rw 2000 true .both (.any) 4,  -- DelayGate
   row 0x2002 0x2002 0x0C 0x0C .u32 .ro 0 false .both (.any) 4,  -- Rejects
   row 0x2002 0x2002 0x0D 0x0D .u32 .ro 0 false .both (.any) 4,  -- Steps
   row 0x2002 0x2002 0x0E 0x0E .u32 .ro 0 false .both (.any) 4,  -- LockLosses
   row 0x2002 0x2002 0x0F 0x0F .bool .ro 1 false .both (.any) 1,  -- Uncertain
   row 0x2002 0x2002 0x10 0x10 .bool .rw 0 false .both (.any) 1,  -- HostLocked
   row 0x2003 0x2003 0x00 0x00 .u8 .ro 1 false .both (.any) 1,  -- HighestSub
   row 0x2003 0x2003 0x01 0x06 .i32 .rw 0 true .both (.any) 4,  -- LinkAsymmetry
   row 0x2004 0x2004 0x00 0x00 .u8 .ro 6 false .trunk (.any) 1,  -- HighestSub
   row 0x2004 0x2004 0x01 0x01 .u8 .rw 128 true .trunk (.any) 1,  -- SourcePriority
   row 0x2004 0x2004 0x02 0x02 .u16 .ro 0 false .trunk (.any) 2,  -- SourceId
   row 0x2004 0x2004 0x03 0x03 .u8 .ro 0 false .trunk (.any) 1,  -- Hops
   row 0x2004 0x2004 0x04 0x04 .u32 .ro 0 false .trunk (.any) 4,  -- SourceSeq
   row 0x2004 0x2004 0x05 0x05 .u32 .ro 0 false .trunk (.any) 4,  -- SourceChanges
   row 0x2004 0x2004 0x06 0x06 .u32 .rw 64000 true .trunk (.between 8000 1000000) 4,  -- SourceTimeout
   row 0x2005 0x2005 0x00 0x00 .u8 .ro 2 false .both (.any) 1,  -- HighestSub
   row 0x2005 0x2005 0x01 0x01 .u16 .rw 125 true .both (.between 64 1250) 2,  -- ExchangePeriod
   row 0x2005 0x2005 0x02 0x02 .u32 .ro 0 false .both (.any) 4,  -- MessagesLost
   row 0x2006 0x2006 0x00 0x00 .bits32 .rwc 0 false .both (.any) 4,  -- TimeFlags
   row 0x2007 0x2007 0x00 0x00 .u8 .ro 6 false .both (.any) 1,  -- HighestSub
   row 0x2007 0x2007 0x01 0x06 .u8 .ro 0 false .both (.any) 1,  -- SetCount
   row 0x2008 0x2008 0x00 0x00 .u8 .ro 4 false .both (.any) 1,  -- HighestSub
   row 0x2008 0x2008 0x01 0x01 .u8 .ro 8 false .both (.any) 1,  -- Depth
   row 0x2008 0x2008 0x02 0x02 .domain .ro 0 false .both (.any) 1024,  -- Entries
   row 0x2008 0x2008 0x03 0x03 .u32 .ro 0 false .both (.any) 4,  -- Lost
   row 0x2008 0x2008 0x04 0x04 .u8 .cmd 0 false .both (.any) 1,  -- Pop
   row 0x2010 0x2010 0x00 0x00 .u8 .ro 255 false .trunk (.any) 1,  -- UtcMap HighestSub
   row 0x2010 0x2010 0x01 0x01 .enum8 .res 0 false .trunk (.any) 1,  -- UtcMap State
   row 0x2010 0x2010 0x02 0x02 .u32 .res 0 false .trunk (.any) 4,  -- UtcMap Seq
   row 0x2010 0x2010 0x03 0x03 .ft64 .res 0 false .trunk (.any) 8,  -- UtcMap CompletedAt
   row 0x2010 0x2010 0x04 0x04 .u64 .res 0 false .trunk (.any) 8,  -- UtcMap PtpBase
   row 0x2010 0x2010 0x05 0x05 .ft64 .res 0 false .trunk (.any) 8,  -- UtcMap FleetBase
   row 0x2010 0x2010 0x06 0x06 .i64 .res 0 false .trunk (.any) 8,  -- UtcMap Rate
   row 0x2010 0x2010 0x07 0x07 .i16 .res 0 false .trunk (.any) 2,  -- UtcMap UtcOffset
   row 0x2010 0x2010 0x08 0x08 .enum8 .res 0 false .trunk (.any) 1,  -- UtcMap PtpState
   row 0x2010 0x2010 0x09 0x09 .u64 .res 0 false .trunk (.any) 8,  -- UtcMap GrandmasterId
   row 0x2010 0x2010 0xFF 0xFF .u32 .wo 0 false .trunk (.any) 4,  -- UtcMap Ack
   row 0x2011 0x2011 0x00 0x00 .u8 .ro 6 false .trunk (.any) 1,  -- HighestSub
   row 0x2011 0x2011 0x01 0x01 .bool .rw 0 true .trunk (.any) 1,  -- PtpEnable
   row 0x2011 0x2011 0x02 0x02 .enum8 .rw 0 true .trunk (.oneOf [0, 1]) 1,  -- DelayMechanism
   row 0x2011 0x2011 0x03 0x03 .enum8 .rw 1 true .trunk (.oneOf [0, 1]) 1]  -- Transport

/-- Objects 0x2000 to 0x20FF, part 2. -/
def rows20b : List Row :=
  [row 0x2011 0x2011 0x04 0x04 .u8 .rw 0 true .trunk (.any) 1,  -- Domain
   row 0x2011 0x2011 0x05 0x05 .u32 .rw 0xF4240 true .trunk (.any) 4,  -- UtcStepLimit
   row 0x2011 0x2011 0x06 0x06 .u8 .cmd 0 false .trunk (.any) 1,  -- UtcRestep
   row 0x2020 0x2025 0x00 0x00 .u8 .ro 255 false .both (.any) 1,  -- ExchangeRecord HighestSub
   row 0x2020 0x2025 0x01 0x01 .enum8 .res 0 false .both (.any) 1,  -- ExchangeRecord State
   row 0x2020 0x2025 0x02 0x02 .u32 .res 0 false .both (.any) 4,  -- ExchangeRecord Seq
   row 0x2020 0x2025 0x03 0x03 .ft64 .res 0 false .both (.any) 8,  -- ExchangeRecord CompletedAt
   row 0x2020 0x2025 0x04 0x04 .ft64 .res 0 false .both (.any) 8,  -- ExchangeRecord Base
   row 0x2020 0x2025 0x05 0x08 .i64 .res 0 false .both (.any) 8,  -- ExchangeRecord T
   row 0x2020 0x2025 0xFF 0xFF .u32 .wo 0 false .both (.any) 4]  -- ExchangeRecord Ack

/-- Objects 0x2000 to 0x20FF. -/
def rows20 : List Row := rows20a ++ rows20b

/-- Objects 0x2100 to 0x21FF. -/
def rows21 : List Row :=
  [row 0x2100 0x2100 0x00 0x00 .u8 .ro 3 false .leaf (.any) 1,  -- HighestSub
   row 0x2100 0x2100 0x01 0x01 .u32 .rw 100000 true .leaf (.between 8000 1000000) 4,  -- ScanPeriod
   row 0x2100 0x2100 0x02 0x02 .bool .rw 0 true .leaf (.any) 1,  -- UserReadEnable
   row 0x2100 0x2100 0x03 0x03 .u8 .ro 0 false .leaf (.any) 1,  -- RegionCount
   row 0x2101 0x2101 0x00 0x00 .bits32 .rwc 0 false .leaf (.any) 4,  -- TapFlags
   row 0x2102 0x2102 0x00 0x00 .u8 .ro 7 false .leaf (.any) 1,  -- HighestSub
   row 0x2102 0x2102 0x01 0x07 .u8 .ro 0 false .leaf (.any) 1,  -- FlagSetCount
   row 0x2103 0x2103 0x00 0x00 .u8 .ro 9 false .leaf (.any) 1,  -- HighestSub
   row 0x2103 0x2103 0x01 0x01 .bool .rw 1 true .leaf (.any) 1,  -- Enable
   row 0x2103 0x2103 0x02 0x02 .u32 .ro 65536 false .leaf (.any) 4,  -- Capacity
   row 0x2103 0x2103 0x03 0x03 .u32 .ro 0 false .leaf (.any) 4,  -- Fill
   row 0x2103 0x2103 0x04 0x04 .u32 .ro 0 false .leaf (.any) 4,  -- Dropped
   row 0x2103 0x2103 0x05 0x05 .u8 .rw 255 true .leaf (.any) 1,  -- BarrierTap
   row 0x2103 0x2103 0x06 0x06 .u16 .rw 0 true .leaf (.any) 2,  -- BarrierTag
   row 0x2103 0x2103 0x07 0x07 .u16 .rw 65535 true .leaf (.any) 2,  -- BarrierTagMask
   row 0x2103 0x2103 0x08 0x08 .u32 .rw 0 false .leaf (.any) 4,  -- StepCounter
   row 0x2103 0x2103 0x09 0x09 .u32 .cmd 0 false .leaf (.any) 4,  -- ArrivalMark
   row 0x2104 0x2104 0x00 0x00 .u8 .ro 255 false .leaf (.any) 1,  -- LastArrival HighestSub
   row 0x2104 0x2104 0x01 0x01 .enum8 .res 0 false .leaf (.any) 1,  -- LastArrival State
   row 0x2104 0x2104 0x02 0x02 .u32 .res 0 false .leaf (.any) 4,  -- LastArrival Seq
   row 0x2104 0x2104 0x03 0x03 .ft64 .res 0 false .leaf (.any) 8,  -- LastArrival CompletedAt
   row 0x2104 0x2104 0x04 0x04 .u32 .res 0 false .leaf (.any) 4,  -- LastArrival Step
   row 0x2104 0x2104 0x05 0x05 .ft64 .res 0 false .leaf (.any) 8,  -- LastArrival Stamp
   row 0x2104 0x2104 0x06 0x06 .enum8 .res 0 false .leaf (.any) 1,  -- LastArrival Source
   row 0x2104 0x2104 0xFF 0xFF .u32 .wo 0 false .leaf (.any) 4,  -- LastArrival Ack
   row 0x2108 0x2108 0x00 0x00 .u8 .ro 64 false .leaf (.any) 1,  -- AlwaysOn HighestSub
   row 0x2108 0x2108 0x01 0x17 .u64 .ro 0 false .leaf (.any) 8,  -- AlwaysOn
   row 0x2108 0x2108 0x18 0x18 .i64 .ro 0x8000000000000000 false .leaf (.any) 8,  -- AlwaysOn TempMax
   row 0x2108 0x2108 0x19 0x19 .u64 .ro 0xFFFFFFFFFFFFFFFF false .leaf (.any) 8,  -- AlwaysOn VoltMin
   row 0x2108 0x2108 0x1A 0x40 .u64 .ro 0 false .leaf (.any) 8,  -- AlwaysOn
   row 0x2110 0x2110 0x00 0x00 .u8 .ro 0 false .leaf (.any) 1,  -- HighestSub
   row 0x2110 0x2110 0x01 0x40 .u16 .rw 0 true .leaf (.any) 2,  -- RegionNominalMHz
   row 0x2111 0x2111 0x00 0x00 .u8 .ro 0 false .leaf (.any) 1,  -- HighestSub
   row 0x2111 0x2111 0x01 0x40 .u64 .ro 0 false .leaf (.any) 8,  -- RegionStretch
   row 0x2112 0x2112 0x00 0x00 .u8 .ro 4 false .leaf (.any) 1,  -- HighestSub
   row 0x2112 0x2112 0x01 0x01 .bits32 .ro 0 false .leaf (.any) 4,  -- StoppedLow
   row 0x2112 0x2112 0x02 0x02 .bits32 .ro 0 false .leaf (.any) 4,  -- StoppedHigh
   row 0x2112 0x2112 0x03 0x03 .bits32 .ro 0 false .leaf (.any) 4,  -- PoweredLow
   row 0x2112 0x2112 0x04 0x04 .bits32 .ro 0 false .leaf (.any) 4]  -- PoweredHigh

/-- Objects 0x2200 to 0x22FF. -/
def rows22 : List Row :=
  [row 0x2200 0x22FE 0x00 0x00 .u8 .ro 32 false .leaf (.any) 1,  -- HighestSub
   row 0x2200 0x22FE 0x01 0x06 .u16 .ro 0 false .leaf (.any) 2,  -- CounterSelect
   row 0x2200 0x22FE 0x07 0x20 .u16 .rw 0 true .leaf (.any) 2]  -- CounterSelect

/-- Objects 0x2300 to 0x23FF. -/
def rows23 : List Row :=
  [row 0x2300 0x23FE 0x00 0x00 .u8 .ro 11 false .leaf (.any) 1,  -- HighestSub
   row 0x2300 0x23FE 0x01 0x01 .u8 .ro 0 false .leaf (.any) 1,  -- SlotsPerCycle
   row 0x2300 0x23FE 0x02 0x09 .u8 .rw 255 true .leaf (.any) 1,  -- Threshold0–7
   row 0x2300 0x23FE 0x0A 0x0A .bool .rw 0 true .leaf (.any) 1,  -- UserRead
   row 0x2300 0x23FE 0x0B 0x0B .bits32 .rwc 0 false .leaf (.any) 4]  -- Status

/-- Objects 0x2400 to 0x24FF. -/
def rows24 : List Row :=
  [row 0x2400 0x2400 0x00 0x00 .enum8 .rw 0 true .leaf (.between 0 1) 1,  -- PowerMode
   row 0x2401 0x2401 0x00 0x00 .bits32 .rwc 0 false .leaf (.any) 4,  -- PowerFlags
   row 0x2402 0x2402 0x00 0x00 .u8 .ro 5 false .leaf (.any) 1,  -- HighestSub
   row 0x2402 0x2402 0x01 0x05 .u8 .ro 0 false .leaf (.any) 1,  -- FlagSetCount
   row 0x2403 0x2403 0x00 0x00 .u8 .ro 4 false .leaf (.any) 1,  -- HighestSub
   row 0x2403 0x2403 0x01 0x01 .u8 .ro 0 false .leaf (.any) 1,  -- VoltSensors
   row 0x2403 0x2403 0x02 0x02 .u8 .ro 0 false .leaf (.any) 1,  -- PowerRegions
   row 0x2403 0x2403 0x03 0x03 .u8 .ro 0 false .leaf (.any) 1,  -- TempSensors
   row 0x2403 0x2403 0x04 0x04 .u8 .ro 0 false .leaf (.any) 1,  -- Clusters
   row 0x2404 0x2404 0x00 0x00 .u8 .ro 5 false .leaf (.any) 1,  -- HighestSub
   row 0x2404 0x2404 0x01 0x01 .u32 .rw 200000 true .leaf (.between 8000 10000000) 4,  -- InrushDeferLimit
   row 0x2404 0x2404 0x02 0x02 .u32 .rw 2000 true .leaf (.between 128 100000) 4,  -- InrushSettle
   row 0x2404 0x2404 0x03 0x03 .u32 .ro 0 false .leaf (.any) 4,  -- Granted
   row 0x2404 0x2404 0x04 0x04 .u32 .ro 0 false .leaf (.any) 4,  -- Denied
   row 0x2404 0x2404 0x05 0x05 .u32 .ro 0 false .leaf (.any) 4,  -- Timeouts
   row 0x2405 0x2405 0x00 0x00 .u8 .ro 7 false .leaf (.any) 1,  -- HighestSub
   row 0x2405 0x2405 0x01 0x01 .u16 .rw 130 true .leaf (.between 100 200) 2,  -- CarryLimitPct
   row 0x2405 0x2405 0x02 0x02 .u32 .rw 0x989680 true .leaf (.between 8000 100000000) 4,  -- CarryTime
   row 0x2405 0x2405 0x03 0x03 .u16 .rw 100 true .leaf (.any) 2,  -- ReleasePct
   row 0x2405 0x2405 0x04 0x04 .u32 .rw 0xF4240 true .leaf (.between 8000 100000000) 4,  -- RegClearTime
   row 0x2405 0x2405 0x05 0x05 .bits32 .ro 0 false .leaf (.any) 4,  -- FaultLow
   row 0x2405 0x2405 0x06 0x06 .bits32 .ro 0 false .leaf (.any) 4,  -- FaultHigh
   row 0x2405 0x2405 0x07 0x07 .u32 .ro 0 false .leaf (.any) 4,  -- RegionOffs
   row 0x2406 0x2406 0x00 0x00 .u8 .ro 4 false .leaf (.any) 1,  -- HighestSub
   row 0x2406 0x2406 0x01 0x01 .bool .ro 0 false .leaf (.any) 1,  -- HeadroomIn
   row 0x2406 0x2406 0x02 0x02 .u32 .rw 1000 true .leaf (.between 0 1000000) 4,  -- HeadroomHold
   row 0x2406 0x2406 0x03 0x03 .i16 .rw 1360 true .leaf (.any) 2,  -- TestTempLimit
   row 0x2406 0x2406 0x04 0x04 .bool .ro 0 false .leaf (.any) 1,  -- TestAllowed
   row 0x2407 0x2407 0x00 0x00 .u8 .ro 3 false .leaf (.any) 1,  -- HighestSub
   row 0x2407 0x2407 0x01 0x01 .bool .ro 0 false .leaf (.any) 1,  -- Active
   row 0x2407 0x2407 0x02 0x02 .ft64 .ro 0 false .leaf (.any) 8,  -- LastWarning
   row 0x2407 0x2407 0x03 0x03 .u32 .rw 100000 true .leaf (.between 8000 10000000) 4,  -- PfRecoverTime
   row 0x2408 0x2408 0x00 0x00 .u16 .cmd 0 false .leaf (.any) 2,  -- StageGrant
   row 0x2409 0x2409 0x00 0x00 .u8 .cmd 0 false .leaf (.any) 1,  -- ShedCmd
   row 0x2410 0x244F 0x00 0x00 .u8 .ro 4 false .leaf (.any) 1,  -- HighestSub
   row 0x2410 0x244F 0x01 0x01 .u32 .ro 0 false .leaf (.any) 4,  -- Reading
   row 0x2410 0x244F 0x02 0x02 .u32 .ro 0xFFFFFFFF false .leaf (.any) 4,  -- MinV
   row 0x2410 0x244F 0x03 0x03 .ft64 .ro 0 false .leaf (.any) 8,  -- MinStamp
   row 0x2410 0x244F 0x04 0x04 .u8 .ro 0 false .leaf (.any) 1,  -- Region
   row 0x2450 0x248F 0x00 0x00 .u8 .ro 13 false .leaf (.any) 1,  -- HighestSub
   row 0x2450 0x248F 0x01 0x01 .u32 .ro 0 false .leaf (.any) 4,  -- Current
   row 0x2450 0x248F 0x02 0x02 .u8 .rw 0 true .leaf (.any) 1,  -- Cluster
   row 0x2450 0x248F 0x03 0x03 .u32 .rw 0 true .leaf (.any) 4,  -- Rating
   row 0x2450 0x248F 0x04 0x04 .bool .ro 0 false .leaf (.any) 1,  -- Dark
   row 0x2450 0x248F 0x05 0x0C .u32 .rw 0 true .leaf (.any) 4,  -- StageInrush
   row 0x2450 0x248F 0x0D 0x0D .u8 .ro 255 false .leaf (.any) 1,  -- Pending
   row 0x2490 0x249F 0x00 0x00 .u8 .ro 6 false .leaf (.any) 1,  -- HighestSub
   row 0x2490 0x249F 0x01 0x01 .u32 .rw 0 true .leaf (.any) 4,  -- Limit
   row 0x2490 0x249F 0x02 0x02 .u32 .ro 0 false .leaf (.any) 4,  -- Load
   row 0x2490 0x249F 0x03 0x03 .u32 .ro 0 false .leaf (.any) 4,  -- Capacity
   row 0x2490 0x249F 0x04 0x04 .enum8 .ro 0 false .leaf (.any) 1,  -- ClusterState
   row 0x2490 0x249F 0x05 0x05 .u8 .ro 0 false .leaf (.any) 1,  -- PendingStages
   row 0x2490 0x249F 0x06 0x06 .u32 .ro 0 false .leaf (.any) 4,  -- OldestWait
   row 0x24A0 0x24BF 0x00 0x00 .u8 .ro 2 false .leaf (.any) 1,  -- HighestSub
   row 0x24A0 0x24BF 0x01 0x01 .i16 .ro 32768 false .leaf (.any) 2,  -- Reading
   row 0x24A0 0x24BF 0x02 0x02 .u8 .ro 0 false .leaf (.any) 1]  -- Region

/-- Objects 0x2500 to 0x25FF. -/
def rows25 : List Row :=
  [row 0x2500 0x2500 0x00 0x00 .u8 .ro 8 false .leaf (.any) 1,  -- HighestSub
   row 0x2500 0x2500 0x01 0x01 .bool .rw 0 true .leaf (.any) 1,  -- Enable
   row 0x2500 0x2500 0x02 0x02 .enum8 .rw 0 true .leaf (.oneOf [0, 1]) 1,  -- Destination
   row 0x2500 0x2500 0x03 0x03 .u32 .rw 2000 true .leaf (.between 0 100000000) 4,  -- StopDelay
   row 0x2500 0x2500 0x04 0x04 .u16 .rw 16384 true .leaf (.between 1024 16384) 2,  -- SyncPeriod
   row 0x2500 0x2500 0x05 0x05 .bool .rw 1 true .leaf (.any) 1,  -- FleetTriggerEnable
   row 0x2500 0x2500 0x06 0x06 .u8 .cmd 0 false .leaf (.any) 1,  -- Rearm
   row 0x2500 0x2500 0x07 0x07 .u8 .cmd 0 false .leaf (.any) 1,  -- SoftTrigger
   row 0x2500 0x2500 0x08 0x08 .u8 .cmd 0 false .leaf (.any) 1,  -- DrainCmd
   row 0x2501 0x2501 0x00 0x00 .u8 .ro 9 false .leaf (.any) 1,  -- HighestSub
   row 0x2501 0x2501 0x01 0x01 .enum8 .ro 0 false .leaf (.any) 1,  -- State
   row 0x2501 0x2501 0x02 0x02 .ft64 .ro 0 false .leaf (.any) 8,  -- TriggerStamp
   row 0x2501 0x2501 0x03 0x03 .ft64 .ro 0 false .leaf (.any) 8,  -- FreezeStamp
   row 0x2501 0x2501 0x04 0x04 .enum8 .ro 0 false .leaf (.any) 1,  -- TriggerCause
   row 0x2501 0x2501 0x05 0x05 .u32 .ro 0 false .leaf (.any) 4,  -- TriggersIgnored
   row 0x2501 0x2501 0x06 0x06 .u32 .ro 0 false .leaf (.any) 4,  -- Fill
   row 0x2501 0x2501 0x07 0x07 .bool .ro 0 false .leaf (.any) 1,  -- Wrapped
   row 0x2501 0x2501 0x08 0x08 .u64 .ro 0 false .leaf (.any) 8,  -- PacketsWritten
   row 0x2501 0x2501 0x09 0x09 .u32 .ro 0 false .leaf (.any) 4,  -- CapturesLost
   row 0x2502 0x2502 0x00 0x00 .domain .ro 0 false .leaf (.any) 2097152,  -- TraceRing
   row 0x2503 0x2503 0x00 0x00 .bits32 .rwc 0 false .leaf (.any) 4,  -- TraceFlags
   row 0x2504 0x2504 0x00 0x00 .u8 .ro 4 false .leaf (.any) 1,  -- HighestSub
   row 0x2504 0x2504 0x01 0x04 .u8 .ro 0 false .leaf (.any) 1,  -- FlagSetCount
   row 0x2508 0x250B 0x00 0x00 .u8 .ro 7 false .leaf (.any) 1,  -- HighestSub
   row 0x2508 0x250B 0x01 0x01 .bool .rw 0 true .leaf (.any) 1,  -- Enable
   row 0x2508 0x250B 0x02 0x02 .u8 .rw 0 true .leaf (.any) 1,  -- Tap
   row 0x2508 0x250B 0x03 0x03 .u8 .rw 4 true .leaf (.any) 1,  -- Event
   row 0x2508 0x250B 0x04 0x04 .u16 .rw 1 true .leaf (.between 1 65535) 2,  -- Count
   row 0x2508 0x250B 0x05 0x05 .u16 .rw 0 true .leaf (.any) 2,  -- TagMatch
   row 0x2508 0x250B 0x06 0x06 .u16 .rw 0 true .leaf (.any) 2,  -- TagMask
   row 0x2508 0x250B 0x07 0x07 .u16 .ro 0 false .leaf (.any) 2,  -- Occurrences
   row 0x2510 0x251F 0x00 0x00 .u8 .ro 10 false .leaf (.any) 1,  -- HighestSub
   row 0x2510 0x251F 0x01 0x01 .bool .rw 0 true .leaf (.any) 1,  -- Enable
   row 0x2510 0x251F 0x02 0x02 .u8 .ro 0 false .leaf (.any) 1,  -- Tap
   row 0x2510 0x251F 0x03 0x03 .u32 .ro 0 false .leaf (.any) 4,  -- Lost
   row 0x2510 0x251F 0x04 0x04 .u64 .ro 0 false .leaf (.any) 8,  -- Packets
   row 0x2510 0x251F 0x05 0x05 .bool .ro 0 false .leaf (.any) 1,  -- Asleep
   row 0x2510 0x251F 0x06 0x06 .enum8 .rw 0 true .leaf (.oneOf [0, 1, 2, 3]) 1,  -- DigestMode
   row 0x2510 0x251F 0x07 0x07 .u32 .rw 65536 true .leaf (.between 4096 16777216) 4,  -- DigestBlock
   row 0x2510 0x251F 0x08 0x08 .u16 .rw 0 true .leaf (.any) 2,  -- DigestTag
   row 0x2510 0x251F 0x09 0x09 .u16 .rw 0 true .leaf (.any) 2,  -- DigestTagMask
   row 0x2510 0x251F 0x0A 0x0A .enum8 .ro 0 false .leaf (.any) 1,  -- Capturing
   row 0x2520 0x259F 0x00 0x00 .u8 .ro 3 false .leaf (.any) 1,  -- HighestSub
   row 0x2520 0x259F 0x01 0x01 .u64 .rw 0 true .leaf (.any) 8,  -- Base
   row 0x2520 0x259F 0x02 0x02 .u64 .rw 0 true .leaf (.any) 8,  -- Limit
   row 0x2520 0x259F 0x03 0x03 .bits32 .rw 0 true .leaf (.any) 4,  -- Control
   row 0x25A0 0x25A0 0x00 0x00 .u64 .cmd 0 false .leaf (.any) 8,  -- CaptureArm
   row 0x25A1 0x25A1 0x00 0x00 .u8 .ro 2 false .leaf (.any) 1,  -- HighestSub
   row 0x25A1 0x25A1 0x01 0x01 .u32 .ro 0 false .leaf (.any) 4,  -- CapturesDone
   row 0x25A1 0x25A1 0x02 0x02 .bits32 .ro 0 false .leaf (.any) 4]  -- ArmedSources

/-- Objects 0x2600 to 0x26FF. -/
def rows26 : List Row :=
  [row 0x2600 0x2600 0x00 0x00 .u8 .ro 5 false .both (.any) 1,  -- HighestSub
   row 0x2600 0x2600 0x01 0x01 .u32 .ro 262144 false .both (.any) 4,  -- Capacity
   row 0x2600 0x2600 0x02 0x02 .u64 .ro 0 false .both (.any) 8,  -- Newest
   row 0x2600 0x2600 0x03 0x03 .u64 .ro 1 false .both (.any) 8,  -- Oldest
   row 0x2600 0x2600 0x04 0x04 .u64 .ro 0 false .both (.any) 8,  -- Written
   row 0x2600 0x2600 0x05 0x05 .u64 .ro 0 false .both (.any) 8,  -- Overwritten
   row 0x2601 0x2601 0x00 0x00 .u8 .ro 5 false .both (.any) 1,  -- HighestSub
   row 0x2601 0x2601 0x01 0x01 .bits32 .rw 56 true .both (.bits 0xFF) 4,  -- SnapOn
   row 0x2601 0x2601 0x02 0x02 .u32 .rw 1000 true .both (.between 0 1000000) 4,  -- SnapMinGap
   row 0x2601 0x2601 0x03 0x03 .u32 .ro 0 false .both (.any) 4,  -- SnapsWritten
   row 0x2601 0x2601 0x04 0x04 .u32 .ro 0 false .both (.any) 4,  -- SnapsSkipped
   row 0x2601 0x2601 0x05 0x05 .u8 .cmd 0 false .both (.any) 1,  -- SnapNow
   row 0x2602 0x2602 0x00 0x00 .u8 .ro 64 false .both (.any) 1,  -- HighestSub
   row 0x2602 0x2602 0x01 0x40 .u32 .rw 0 true .both (.any) 4,  -- SnapList
   row 0x2603 0x2603 0x00 0x00 .u8 .ro 6 false .leaf (.any) 1,  -- HighestSub
   row 0x2603 0x2603 0x01 0x01 .enum8 .ro 0 false .leaf (.any) 1,  -- FlushState
   row 0x2603 0x2603 0x02 0x02 .u8 .cmd 0 false .leaf (.any) 1,  -- FlushCmd
   row 0x2603 0x2603 0x03 0x03 .u32 .ro 0 false .leaf (.any) 4,  -- Flushes
   row 0x2603 0x2603 0x04 0x04 .u32 .ro 0 false .leaf (.any) 4,  -- RecordsSent
   row 0x2603 0x2603 0x05 0x05 .u32 .ro 0 false .leaf (.any) 4,  -- RecordsAcked
   row 0x2603 0x2603 0x06 0x06 .ft64 .ro 0 false .leaf (.any) 8,  -- LastFlushStart
   row 0x2604 0x2604 0x00 0x00 .u8 .ro 3 false .both (.any) 1,  -- HighestSub
   row 0x2604 0x2604 0x01 0x01 .u32 .rw 0 false .both (.any) 4,  -- Offset
   row 0x2604 0x2604 0x02 0x02 .u64 .ro 0 false .both (.any) 8,  -- Data
   row 0x2604 0x2604 0x03 0x03 .enum8 .rw 0 false .both (.oneOf [0, 1]) 1,  -- Area
   row 0x2605 0x2605 0x00 0x00 .domain .cmd 0 false .both (.any) 1024,  -- WriteRecord
   row 0x2606 0x2606 0x00 0x00 .bits32 .rwc 0 false .both (.any) 4,  -- RecorderFlags
   row 0x2607 0x2607 0x00 0x00 .u8 .ro 3 false .both (.any) 1,  -- HighestSub
   row 0x2607 0x2607 0x01 0x03 .u8 .ro 0 false .both (.any) 1,  -- FlagSetCount
   row 0x2610 0x2610 0x00 0x00 .u8 .ro 3 false .trunk (.any) 1,  -- HighestSub
   row 0x2610 0x2610 0x01 0x01 .u32 .rw 0x100000 true .trunk (.between 65536 16711680) 4,  -- CommitLimit
   row 0x2610 0x2610 0x02 0x02 .u32 .rw 50000 true .trunk (.between 0 1000000) 4,  -- CommitDelay
   row 0x2610 0x2610 0x03 0x03 .u32 .ro 0 false .trunk (.any) 4,  -- Duplicates
   row 0x2612 0x2612 0x00 0x00 .u8 .ro 4 false .trunk (.any) 1,  -- HighestSub
   row 0x2612 0x2612 0x01 0x01 .bool .ro 0 false .trunk (.any) 1,  -- Valid
   row 0x2612 0x2612 0x02 0x02 .ft64 .ro 0 false .trunk (.any) 8,  -- CommitTime
   row 0x2612 0x2612 0x03 0x03 .u32 .ro 0 false .trunk (.any) 4,  -- Bytes
   row 0x2612 0x2612 0x04 0x04 .bool .ro 0 false .trunk (.any) 1]  -- Complete

/-- Objects 0x2700 to 0x27FF. -/
def rows27 : List Row :=
  [row 0x2700 0x2700 0x00 0x00 .u8 .ro 7 false .both (.any) 1,  -- HighestSub
   row 0x2700 0x2700 0x01 0x01 .enum8 .rw 0 true .both (.between 0 1) 1,  -- LadderMode
   row 0x2700 0x2700 0x02 0x02 .u32 .rw 6000 true .both (.between 100 6000) 4,  -- FrameRateLimit
   row 0x2700 0x2700 0x03 0x03 .u8 .rw 0 true .both (.between 0 3) 1,  -- LeadSchedule
   row 0x2700 0x2700 0x04 0x04 .u8 .rw 4 true .both (.between 1 64) 1,  -- SatWindows
   row 0x2700 0x2700 0x05 0x05 .u16 .rw 64 true .both (.between 1 4096) 2,  -- RecoverWindows
   row 0x2700 0x2700 0x06 0x06 .u8 .ro 0 false .both (.any) 1,  -- DegradeStep
   row 0x2700 0x2700 0x07 0x07 .u8 .cmd 0 false .both (.any) 1,  -- DegradeCmd
   row 0x2701 0x2704 0x00 0x00 .u8 .ro 19 false .leaf (.any) 1,  -- HighestSub
   row 0x2701 0x2704 0x01 0x01 .bool .rw 0 true .leaf (.any) 1,  -- Enable
   row 0x2701 0x2704 0x02 0x02 .u32 .rw 125 true .leaf (.between 64 125000) 4,  -- SnapPeriod
   row 0x2701 0x2704 0x03 0x03 .ft64 .rw 0 true .leaf (.any) 8,  -- Start
   row 0x2701 0x2704 0x04 0x04 .u32 .rw 6000 true .leaf (.any) 4,  -- Budget
   row 0x2701 0x2704 0x05 0x05 .u8 .rw 0 true .leaf (.between 0 7) 1,  -- Priority
   row 0x2701 0x2704 0x06 0x06 .enum8 .rw 0 true .leaf (.oneOf [0, 1]) 1,  -- Class
   row 0x2701 0x2704 0x07 0x07 .bits32 .rw 248 true .leaf (.bits 0xF8) 4,  -- Sections
   row 0x2701 0x2704 0x08 0x08 .domain .rw 0 true .leaf (.any) 32,  -- SlotTaps
   row 0x2701 0x2704 0x09 0x09 .domain .rw 0 true .leaf (.any) 2048,  -- CounterList
   row 0x2701 0x2704 0x0A 0x0A .u16 .rw 0 true .leaf (.bits 0xFFF) 2,  -- Group
   row 0x2701 0x2704 0x0B 0x0B .u8 .rw 0 true .leaf (.any) 1,  -- Generation
   row 0x2701 0x2704 0x0C 0x0C .u8 .rw 0 true .leaf (.any) 1,  -- Partition
   row 0x2701 0x2704 0x0D 0x0D .u64 .cmd 0 false .leaf (.any) 8,  -- Rebind
   row 0x2701 0x2704 0x0E 0x0E .bool .rw 0 true .leaf (.any) 1,  -- LatchBank
   row 0x2701 0x2704 0x0F 0x0F .u32 .ro 0 false .leaf (.any) 4,  -- Window
   row 0x2701 0x2704 0x10 0x10 .u32 .ro 0 false .leaf (.any) 4,  -- Seq
   row 0x2701 0x2704 0x11 0x11 .u64 .ro 0 false .leaf (.any) 8,  -- FramesBuilt
   row 0x2701 0x2704 0x12 0x12 .u32 .ro 0 false .leaf (.any) 4,  -- FramesSkipped
   row 0x2701 0x2704 0x13 0x13 .bool .ro 0 false .leaf (.any) 1,  -- Doubled
   row 0x2708 0x2708 0x00 0x00 .u8 .ro 14 false .leaf (.any) 1,  -- HighestSub
   row 0x2708 0x2708 0x01 0x01 .ft64 .cmd 0 false .leaf (.any) 8,  -- SnapshotAt
   row 0x2708 0x2708 0x02 0x02 .u32 .ro 0 false .leaf (.any) 4,  -- ShadowSeq
   row 0x2708 0x2708 0x03 0x03 .ft64 .ro 0 false .leaf (.any) 8,  -- ShadowStamp
   row 0x2708 0x2708 0x04 0x04 .enum8 .ro 0 false .leaf (.any) 1,  -- ShadowCause
   row 0x2708 0x2708 0x05 0x05 .bool .ro 0 false .leaf (.any) 1,  -- ShadowUncertain
   row 0x2708 0x2708 0x06 0x0D .bits32 .ro 0 false .leaf (.any) 4,  -- StaleMap
   row 0x2708 0x2708 0x0E 0x0E .ft64 .ro 0 false .leaf (.any) 8,  -- Pending
   row 0x2709 0x2709 0x00 0x00 .bits32 .rwc 0 false .leaf (.any) 4,  -- FrameFlags
   row 0x270A 0x270A 0x00 0x00 .u8 .ro 5 false .leaf (.any) 1,  -- HighestSub
   row 0x270A 0x270A 0x01 0x05 .u8 .ro 0 false .leaf (.any) 1,  -- FlagSetCount
   row 0x270B 0x270B 0x00 0x00 .u8 .ro 5 false .leaf (.any) 1,  -- HighestSub
   row 0x270B 0x270B 0x01 0x01 .u32 .ro 0 false .leaf (.any) 4,  -- SaturatedWindows
   row 0x270B 0x270B 0x02 0x02 .u32 .ro 0 false .leaf (.any) 4,  -- StepsDown
   row 0x270B 0x270B 0x03 0x03 .u32 .ro 0 false .leaf (.any) 4,  -- StepsUp
   row 0x270B 0x270B 0x04 0x04 .u8 .ro 0 false .leaf (.any) 1,  -- ConsecutiveSat
   row 0x270B 0x270B 0x05 0x05 .u16 .ro 0 false .leaf (.any) 2,  -- ConsecutiveClear
   row 0x2710 0x2711 0x00 0x00 .u8 .ro 4 false .trunk (.any) 1,  -- HighestSub
   row 0x2710 0x2711 0x01 0x01 .u8 .ro 0 false .trunk (.any) 1,  -- DegradeStep
   row 0x2710 0x2711 0x02 0x02 .u32 .ro 0 false .trunk (.any) 4,  -- SaturatedWindows
   row 0x2710 0x2711 0x03 0x03 .u32 .ro 0 false .trunk (.any) 4,  -- StepsDown
   row 0x2710 0x2711 0x04 0x04 .u32 .ro 0 false .trunk (.any) 4]  -- StepsUp

/-- Objects 0x2800 to 0x28FF. -/
def rows28 : List Row :=
  [row 0x2800 0x2800 0x00 0x00 .enum8 .rw 0 true .both (.between 0 1) 1,  -- CodecMode
   row 0x2801 0x2801 0x00 0x00 .u8 .ro 3 false .leaf (.any) 1,  -- HighestSub
   row 0x2801 0x2801 0x01 0x01 .u16 .rw 256 true .leaf (.between 1 65535) 2,  -- RefreshFrames
   row 0x2801 0x2801 0x02 0x02 .bool .rw 1 true .leaf (.any) 1,  -- FieldDeltaEnable
   row 0x2801 0x2801 0x03 0x03 .u8 .cmd 0 false .leaf (.any) 1,  -- StreamReset
   row 0x2802 0x2802 0x00 0x00 .u8 .ro 5 false .leaf (.any) 1,  -- HighestSub
   row 0x2802 0x2802 0x01 0x01 .u64 .ro 0 false .leaf (.any) 8,  -- FramesCoded
   row 0x2802 0x2802 0x02 0x02 .u64 .ro 0 false .leaf (.any) 8,  -- FramesRaw
   row 0x2802 0x2802 0x03 0x03 .u64 .ro 0 false .leaf (.any) 8,  -- BytesIn
   row 0x2802 0x2802 0x04 0x04 .u64 .ro 0 false .leaf (.any) 8,  -- BytesOut
   row 0x2802 0x2802 0x05 0x05 .u32 .ro 0 false .leaf (.any) 4,  -- StreamStarts
   row 0x2810 0x2810 0x00 0x00 .u8 .ro 6 false .trunk (.any) 1,  -- HighestSub
   row 0x2810 0x2810 0x01 0x01 .u64 .ro 0 false .trunk (.any) 8,  -- FramesDecoded
   row 0x2810 0x2810 0x02 0x02 .bool .rw 1 true .trunk (.any) 1,  -- AutoResync
   row 0x2810 0x2810 0x03 0x03 .u32 .ro 0 false .trunk (.any) 4,  -- ResyncsSent
   row 0x2810 0x2810 0x04 0x04 .u32 .ro 0 false .trunk (.any) 4,  -- LastErrorLeaf
   row 0x2810 0x2810 0x05 0x05 .enum8 .ro 0 false .trunk (.any) 1,  -- LastErrorStatus
   row 0x2810 0x2810 0x06 0x06 .ft64 .ro 0 false .trunk (.any) 8,  -- LastErrorTime
   row 0x2811 0x2811 0x00 0x00 .u8 .ro 8 false .trunk (.any) 1,  -- HighestSub
   row 0x2811 0x2811 0x01 0x02 .u32 .ro 0 false .trunk (.any) 4,  -- —
   row 0x2811 0x2811 0x03 0x08 .u32 .ro 0 false .trunk (.any) 4]  -- DecodeErrors

/-- Objects 0x2900 to 0x29FF. -/
def rows29 : List Row :=
  [row 0x2900 0x2900 0x00 0x00 .u8 .ro 7 false .leaf (.any) 1,  -- HighestSub
   row 0x2900 0x2900 0x01 0x01 .u16 .rw 125 true .leaf (.between 16 1250) 2,  -- ArbWindow
   row 0x2900 0x2900 0x02 0x02 .u32 .ro 7500 false .leaf (.any) 4,  -- Capacity
   row 0x2900 0x2900 0x03 0x03 .enum8 .ro 255 false .leaf (.any) 1,  -- Current
   row 0x2900 0x2900 0x04 0x04 .u64 .ro 0 false .leaf (.any) 8,  -- Decisions
   row 0x2900 0x2900 0x05 0x05 .u32 .ro 0 false .leaf (.any) 4,  -- ForcedWins
   row 0x2900 0x2900 0x06 0x06 .u64 .ro 0 false .leaf (.any) 8,  -- YellowBytes
   row 0x2900 0x2900 0x07 0x07 .u32 .ro 0 false .leaf (.any) 4,  -- LinkResetDiscards
   row 0x2901 0x2906 0x00 0x00 .u8 .ro 9 false .leaf (.any) 1,  -- HighestSub
   row 0x2901 0x2906 0x01 0x01 .u32 .rw 0 true .leaf (.any) 4,  -- Quota
   row 0x2901 0x2906 0x02 0x02 .u32 .rw 0 true .leaf (.between 0 1048576) 4,  -- CarryMax
   row 0x2901 0x2906 0x03 0x03 .u32 .rw 0 true .leaf (.any) 4,  -- WaitLimit
   row 0x2901 0x2906 0x04 0x04 .bool .rw 0 true .leaf (.any) 1,  -- Preempt
   row 0x2901 0x2906 0x05 0x05 .i32 .ro 0 false .leaf (.any) 4,  -- Credit
   row 0x2901 0x2906 0x06 0x06 .u16 .ro 0 false .leaf (.any) 2,  -- Queued
   row 0x2901 0x2906 0x07 0x07 .u32 .ro 0 false .leaf (.any) 4,  -- OldestWait
   row 0x2901 0x2906 0x08 0x08 .u64 .ro 0 false .leaf (.any) 8,  -- BytesSent
   row 0x2901 0x2906 0x09 0x09 .u32 .ro 0 false .leaf (.any) 4,  -- Cut
   row 0x2908 0x2908 0x00 0x00 .u8 .ro 2 false .trunk (.any) 1,  -- HighestSub
   row 0x2908 0x2908 0x01 0x01 .u16 .rw 125 true .trunk (.between 16 1250) 2,  -- MemArbWindow
   row 0x2908 0x2908 0x02 0x02 .u32 .ro 0x186A00 false .trunk (.any) 4,  -- MemCapacity
   row 0x2909 0x2910 0x00 0x00 .u8 .ro 5 false .trunk (.any) 1,  -- HighestSub
   row 0x2909 0x2910 0x01 0x01 .u32 .rw 0 true .trunk (.any) 4,  -- Quota
   row 0x2909 0x2910 0x02 0x02 .u32 .rw 0 true .trunk (.any) 4,  -- CarryMax
   row 0x2909 0x2910 0x03 0x03 .u32 .rw 0 true .trunk (.any) 4,  -- WaitLimit
   row 0x2909 0x2910 0x04 0x04 .u64 .ro 0 false .trunk (.any) 8,  -- Bytes
   row 0x2909 0x2910 0x05 0x05 .u32 .ro 0 false .trunk (.any) 4,  -- ForcedWins
   row 0x2920 0x2926 0x00 0x00 .u8 .ro 6 false .trunk (.any) 1,  -- HighestSub
   row 0x2920 0x2926 0x01 0x01 .enum8 .rw 0 true .trunk (.oneOf [0, 1]) 1,  -- SchedMode
   row 0x2920 0x2926 0x02 0x02 .enum8 .ro 0 false .trunk (.any) 1,  -- State
   row 0x2920 0x2926 0x03 0x03 .u16 .rw 0 true .trunk (.between 0 256) 2,  -- Overhead
   row 0x2920 0x2926 0x04 0x04 .u32 .ro 0 false .trunk (.any) 4,  -- VirtualTime
   row 0x2920 0x2926 0x05 0x05 .u32 .ro 0 false .trunk (.any) 4,  -- Fallbacks
   row 0x2920 0x2926 0x06 0x06 .u64 .ro 0 false .trunk (.any) 8,  -- DrrTicks
   row 0x2930 0x2931 0x00 0x00 .u8 .ro 8 false .trunk (.any) 1,  -- HighestSub
   row 0x2930 0x2931 0x01 0x01 .u16 .ro 0 false .trunk (.any) 2,  -- TimeWeight
   row 0x2930 0x2931 0x02 0x08 .u16 .rw 8192 true .trunk (.between 1 65535) 2,  -- Weight
   row 0x2940 0x2977 0x00 0x00 .u8 .ro 5 false .trunk (.any) 1,  -- HighestSub
   row 0x2940 0x2977 0x01 0x01 .u32 .rw 0 true .trunk (.any) 4,  -- Rate
   row 0x2940 0x2977 0x02 0x02 .u32 .rw 65536 true .trunk (.between 512 16777216) 4,  -- Burst
   row 0x2940 0x2977 0x03 0x03 .u16 .rw 0 true .trunk (.between 0 256) 2,  -- Overhead
   row 0x2940 0x2977 0x04 0x04 .i64 .ro 0 false .trunk (.any) 8,  -- Bucket
   row 0x2940 0x2977 0x05 0x05 .u64 .ro 0 false .trunk (.any) 8,  -- HeldTicks
   row 0x2980 0x2980 0x00 0x00 .u8 .ro 4 false .trunk (.any) 1,  -- HighestSub
   row 0x2980 0x2980 0x01 0x01 .enum8 .rw 1 true .trunk (.oneOf [0, 1]) 1,  -- ColourMode
   row 0x2980 0x2980 0x02 0x02 .enum8 .rw 0 true .trunk (.oneOf [0, 1]) 1,  -- YellowAction
   row 0x2980 0x2980 0x03 0x03 .enum8 .rw 1 true .trunk (.oneOf [0, 1]) 1,  -- RedAction
   row 0x2980 0x2980 0x04 0x04 .u16 .rw 0 true .trunk (.between 0 256) 2,  -- PolicerOverhead
   row 0x2981 0x2984 0x00 0x00 .u8 .ro 4 false .trunk (.any) 1,  -- HighestSub
   row 0x2981 0x2984 0x01 0x01 .u32 .rw 6000 true .trunk (.between 0 7500) 4,  -- Cir
   row 0x2981 0x2984 0x02 0x02 .u32 .rw 65536 true .trunk (.between 1024 16777216) 4,  -- Cbs
   row 0x2981 0x2984 0x03 0x03 .u32 .rw 7500 true .trunk (.between 0 7500) 4,  -- Pir
   row 0x2981 0x2984 0x04 0x04 .u32 .rw 131072 true .trunk (.between 1024 16777216) 4]  -- Pbs

/-- Objects 0x3000 to 0x30FF. -/
def rows30 : List Row :=
  [row 0x3000 0x3000 0x00 0x00 .u8 .ro 3 false .both (.any) 1,  -- HighestSub
   row 0x3000 0x3000 0x01 0x01 .u8 .ro 1 false .both (.any) 1,  -- ProtoLevel
   row 0x3000 0x3000 0x02 0x02 .u32 .rw 4000 true .both (.between 1000 100000) 4,  -- RetryTimeout
   row 0x3000 0x3000 0x03 0x03 .u8 .rw 16 true .both (.between 1 255) 1,  -- RetryLimit
   row 0x3001 0x3001 0x00 0x00 .u8 .ro 15 false .leaf (.any) 1,  -- HighestSub
   row 0x3001 0x3001 0x01 0x01 .bool .rw 1 true .leaf (.any) 1,  -- Enable
   row 0x3001 0x3001 0x02 0x02 .enum8 .ro 0 false .leaf (.any) 1,  -- State
   row 0x3001 0x3001 0x03 0x03 .u8 .ro 0 false .leaf (.any) 1,  -- PeerLevel
   row 0x3001 0x3001 0x04 0x04 .u8 .cmd 0 false .leaf (.any) 1,  -- ResetCmd
   row 0x3001 0x3001 0x05 0x05 .enum8 .ro 0 false .leaf (.any) 1,  -- LastResetReason
   row 0x3001 0x3001 0x06 0x06 .u32 .ro 0 false .leaf (.any) 4,  -- LinkUps
   row 0x3001 0x3001 0x07 0x07 .ft64 .ro 0 false .leaf (.any) 8,  -- LastUp
   row 0x3001 0x3001 0x08 0x08 .u64 .ro 0 false .leaf (.any) 8,  -- FramesSent
   row 0x3001 0x3001 0x09 0x09 .u64 .ro 0 false .leaf (.any) 8,  -- FramesAccepted
   row 0x3001 0x3001 0x0A 0x0A .u32 .ro 0 false .leaf (.any) 4,  -- CrcErrors
   row 0x3001 0x3001 0x0B 0x0B .u32 .ro 0 false .leaf (.any) 4,  -- Replays
   row 0x3001 0x3001 0x0C 0x0C .u32 .ro 0 false .leaf (.any) 4,  -- Aborts
   row 0x3001 0x3001 0x0D 0x0D .u32 .ro 0 false .leaf (.any) 4,  -- BlockErrors
   row 0x3001 0x3001 0x0E 0x0E .u32 .ro 0 false .leaf (.any) 4,  -- MessagesDiscarded
   row 0x3001 0x3001 0x0F 0x0F .u64 .ro 0 false .leaf (.any) 8,  -- CreditWaitTicks
   row 0x3002 0x3002 0x00 0x00 .bits32 .rwc 0 false .both (.any) 4,  -- StemFlags
   row 0x3003 0x3003 0x00 0x00 .u8 .ro 4 false .both (.any) 1,  -- HighestSub
   row 0x3003 0x3003 0x01 0x04 .u8 .ro 0 false .both (.any) 1]  -- FlagSetCount

/-- Objects 0x3100 to 0x31FF. -/
def rows31 : List Row :=
  [row 0x3100 0x3100 0x00 0x00 .u8 .ro 8 false .trunk (.any) 1,  -- HighestSub
   row 0x3100 0x3100 0x01 0x01 .u16 .ro 0 false .trunk (.any) 2,  -- TrunkId
   row 0x3100 0x3100 0x02 0x04 .u8 .rw 16 true .trunk (.between 1 16) 1,  -- SizeX, SizeY, SizeZ
   row 0x3100 0x3100 0x05 0x05 .u8 .ro 1 false .trunk (.any) 1,  -- ProtoLevel
   row 0x3100 0x3100 0x06 0x06 .u32 .rw 2000 true .trunk (.between 500 100000) 4,  -- RetryTimeout
   row 0x3100 0x3100 0x07 0x07 .u8 .rw 16 true .trunk (.between 1 255) 1,  -- RetryLimit
   row 0x3100 0x3100 0x08 0x08 .u8 .rw 0 true .trunk (.any) 1,  -- ExportPartition
   row 0x3101 0x3106 0x00 0x00 .u8 .ro 17 false .trunk (.any) 1,  -- HighestSub
   row 0x3101 0x3106 0x01 0x01 .bool .rw 1 true .trunk (.any) 1,  -- Enable
   row 0x3101 0x3106 0x02 0x02 .enum8 .ro 0 false .trunk (.any) 1,  -- State
   row 0x3101 0x3106 0x03 0x03 .u16 .ro 65535 false .trunk (.any) 2,  -- PeerTrunk
   row 0x3101 0x3106 0x04 0x04 .u8 .ro 0 false .trunk (.any) 1,  -- PeerLevel
   row 0x3101 0x3106 0x05 0x05 .u8 .cmd 0 false .trunk (.any) 1,  -- ResetCmd
   row 0x3101 0x3106 0x06 0x06 .enum8 .ro 0 false .trunk (.any) 1,  -- LastResetReason
   row 0x3101 0x3106 0x07 0x07 .u32 .ro 0 false .trunk (.any) 4,  -- LinkUps
   row 0x3101 0x3106 0x08 0x08 .ft64 .ro 0 false .trunk (.any) 8,  -- LastUp
   row 0x3101 0x3106 0x09 0x09 .u64 .ro 0 false .trunk (.any) 8,  -- FlitsSent
   row 0x3101 0x3106 0x0A 0x0A .u64 .ro 0 false .trunk (.any) 8,  -- FlitsAccepted
   row 0x3101 0x3106 0x0B 0x0B .u32 .ro 0 false .trunk (.any) 4,  -- CrcErrors
   row 0x3101 0x3106 0x0C 0x0C .u64 .ro 0 false .trunk (.any) 8,  -- FecCorrected
   row 0x3101 0x3106 0x0D 0x0D .u32 .ro 0 false .trunk (.any) 4,  -- FecUncorrectable
   row 0x3101 0x3106 0x0E 0x0E .u32 .ro 0 false .trunk (.any) 4,  -- Replays
   row 0x3101 0x3106 0x0F 0x0F .u64 .ro 0 false .trunk (.any) 8,  -- CreditWaitTicks
   row 0x3101 0x3106 0x10 0x10 .u64 .ro 0 false .trunk (.any) 8,  -- MessagesOut
   row 0x3101 0x3106 0x11 0x11 .u32 .ro 0 false .trunk (.any) 4,  -- Aborts
   row 0x3108 0x3108 0x00 0x00 .bits32 .rwc 0 false .trunk (.any) 4,  -- PleachFlags
   row 0x3109 0x3109 0x00 0x00 .u8 .ro 8 false .trunk (.any) 1,  -- HighestSub
   row 0x3109 0x3109 0x01 0x08 .u8 .ro 0 false .trunk (.any) 1,  -- FlagSetCount
   row 0x310A 0x310A 0x00 0x00 .u8 .ro 7 false .trunk (.any) 1,  -- HighestSub
   row 0x310A 0x310A 0x01 0x01 .u64 .ro 0 false .trunk (.any) 8,  -- Delivered
   row 0x310A 0x310A 0x02 0x02 .u64 .ro 0 false .trunk (.any) 8,  -- Forwarded
   row 0x310A 0x310A 0x03 0x03 .u64 .ro 0 false .trunk (.any) 8,  -- Originated
   row 0x310A 0x310A 0x04 0x04 .u32 .ro 0 false .trunk (.any) 4,  -- Unroutable
   row 0x310A 0x310A 0x05 0x05 .u32 .ro 0 false .trunk (.any) 4,  -- TrailerErrors
   row 0x310A 0x310A 0x06 0x06 .u32 .ro 0 false .trunk (.any) 4,  -- BadType
   row 0x310A 0x310A 0x07 0x07 .u32 .ro 0 false .trunk (.any) 4,  -- Abandoned
   row 0x3110 0x3115 0x00 0x00 .u8 .ro 11 false .trunk (.any) 1,  -- HighestSub
   row 0x3110 0x3115 0x01 0x01 .bool .rw 1 true .trunk (.any) 1,  -- LaserEnable
   row 0x3110 0x3115 0x02 0x02 .bits32 .ro 0 false .trunk (.any) 4,  -- OpticsStatus
   row 0x3110 0x3115 0x03 0x03 .i16 .ro 0 false .trunk (.any) 2,  -- EngineTemp
   row 0x3110 0x3115 0x04 0x0B .u16 .ro 0 false .trunk (.any) 2,  -- RxPower
   row 0x3120 0x3125 0x00 0x00 .u8 .ro 8 false .trunk (.any) 1,  -- HighestSub
   row 0x3120 0x3125 0x01 0x08 .bits32 .rw 0xFFFFFFFF true .trunk (.any) 4,  -- FenceMap
   row 0x3126 0x3126 0x00 0x00 .u8 .ro 8 false .trunk (.any) 1,  -- LocalPartitions HighestSub
   row 0x3126 0x3126 0x01 0x08 .bits32 .rw 0xFFFFFFFF true .trunk (.any) 4,  -- LocalPartitions
   row 0x3127 0x3127 0x00 0x00 .domain .rw 0 true .trunk (.any) 256,  -- StemPartitions
   row 0x3128 0x3128 0x00 0x00 .u8 .ro 3 false .trunk (.any) 1,  -- HighestSub
   row 0x3128 0x3128 0x01 0x01 .u32 .ro 0 false .trunk (.any) 4,  -- Violations
   row 0x3128 0x3128 0x02 0x02 .u32 .ro 0 false .trunk (.any) 4,  -- NoticesSent
   row 0x3128 0x3128 0x03 0x03 .u32 .ro 0 false .trunk (.any) 4]  -- NoticesCoalesced

/-- Objects 0x3200 to 0x32FF, part 1. -/
def rows32a : List Row :=
  [row 0x3200 0x3200 0x00 0x00 .enum8 .rw 0 true .trunk (.between 0 1) 1,  -- ReductionMode
   row 0x3201 0x3201 0x00 0x00 .u8 .ro 12 false .trunk (.any) 1,  -- HighestSub
   row 0x3201 0x3201 0x01 0x01 .u32 .rw 1250 true .trunk (.between 500 100000) 4,  -- CollectDeadline
   row 0x3201 0x3201 0x02 0x02 .u32 .rw 20000 true .trunk (.between 4000 10000000) 4,  -- ChangeLead
   row 0x3201 0x3201 0x03 0x03 .u32 .rw 50000 true .trunk (.between 10000 1000000) 4,  -- SetupTimeout
   row 0x3201 0x3201 0x04 0x04 .u32 .rw 60000 true .trunk (.between 0 200000) 4,  -- ReductionLoadLimit
   row 0x3201 0x3201 0x05 0x05 .u8 .ro 64 false .trunk (.any) 1,  -- GroupSlots
   row 0x3201 0x3201 0x06 0x06 .u8 .ro 0 false .trunk (.any) 1,  -- ActiveGroups
   row 0x3201 0x3201 0x07 0x07 .u32 .ro 0x1000000 false .trunk (.any) 4,  -- RelayMemory
   row 0x3201 0x3201 0x08 0x08 .u32 .ro 0 false .trunk (.any) 4,  -- RelayReserved
   row 0x3201 0x3201 0x09 0x09 .u32 .ro 0 false .trunk (.any) 4,  -- ChangesQueued
   row 0x3201 0x3201 0x0A 0x0A .u64 .rw 0 true .trunk (.any) 8,  -- CollectorHigh
   row 0x3201 0x3201 0x0B 0x0B .u64 .rw 0 true .trunk (.any) 8,  -- CollectorLow
   row 0x3201 0x3201 0x0C 0x0C .u16 .rw 7734 true .trunk (.any) 2,  -- CollectorPort
   row 0x3202 0x3202 0x00 0x00 .domain .cmd 0 false .trunk (.any) 148000,  -- GroupSetup
   row 0x3203 0x3203 0x00 0x00 .u16 .cmd 0 false .trunk (.any) 2,  -- GroupTeardown
   row 0x3204 0x3204 0x00 0x00 .u64 .cmd 0 false .trunk (.any) 8,  -- MemberChange
   row 0x3205 0x3205 0x00 0x00 .u16 .cmd 0 false .trunk (.any) 2,  -- FleetTrigger
   row 0x3206 0x3206 0x00 0x00 .u8 .ro 255 false .trunk (.any) 1,  -- LastSetup HighestSub
   row 0x3206 0x3206 0x01 0x01 .enum8 .res 0 false .trunk (.any) 1,  -- LastSetup State
   row 0x3206 0x3206 0x02 0x02 .u32 .res 0 false .trunk (.any) 4,  -- LastSetup Seq
   row 0x3206 0x3206 0x03 0x03 .ft64 .res 0 false .trunk (.any) 8,  -- LastSetup CompletedAt
   row 0x3206 0x3206 0x04 0x04 .enum8 .res 0 false .trunk (.any) 1,  -- LastSetup Status
   row 0x3206 0x3206 0x05 0x05 .u16 .res 0 false .trunk (.any) 2,  -- LastSetup Group
   row 0x3206 0x3206 0x06 0x06 .u8 .res 0 false .trunk (.any) 1,  -- LastSetup Generation
   row 0x3206 0x3206 0x07 0x07 .u32 .res 0 false .trunk (.any) 4,  -- LastSetup FirstWindow
   row 0x3206 0x3206 0x08 0x08 .enum8 .res 0 false .trunk (.any) 1,  -- LastSetup Reason
   row 0x3206 0x3206 0x09 0x09 .u16 .res 0 false .trunk (.any) 2,  -- LastSetup Trunk
   row 0x3206 0x3206 0xFF 0xFF .u32 .wo 0 false .trunk (.any) 4,  -- LastSetup Ack
   row 0x3207 0x3207 0x00 0x00 .bits32 .rwc 0 false .trunk (.any) 4,  -- ReductionFlags
   row 0x3208 0x3208 0x00 0x00 .u8 .ro 6 false .trunk (.any) 1,  -- HighestSub
   row 0x3208 0x3208 0x01 0x06 .u8 .ro 0 false .trunk (.any) 1,  -- FlagSetCount
   row 0x3209 0x3209 0x00 0x00 .u8 .ro 8 false .trunk (.any) 1,  -- HighestSub
   row 0x3209 0x3209 0x01 0x01 .u32 .ro 0 false .trunk (.any) 4,  -- LateFrames
   row 0x3209 0x3209 0x02 0x02 .u32 .ro 0 false .trunk (.any) 4,  -- StaleFrames
   row 0x3209 0x3209 0x03 0x03 .u32 .ro 0 false .trunk (.any) 4,  -- LatePartials
   row 0x3209 0x3209 0x04 0x04 .u64 .ro 0 false .trunk (.any) 8,  -- ChangesApplied
   row 0x3209 0x3209 0x05 0x05 .u32 .ro 0 false .trunk (.any) 4,  -- ChangesDeferred
   row 0x3209 0x3209 0x06 0x06 .u32 .ro 0 false .trunk (.any) 4,  -- TriggersSent
   row 0x3209 0x3209 0x07 0x07 .u32 .ro 0 false .trunk (.any) 4,  -- TriggersDelivered
   row 0x3209 0x3209 0x08 0x08 .u64 .ro 0 false .trunk (.any) 8,  -- HostDatagrams
   row 0x3210 0x324F 0x00 0x00 .u8 .ro 17 false .trunk (.any) 1,  -- HighestSub
   row 0x3210 0x324F 0x01 0x01 .enum8 .ro 0 false .trunk (.any) 1,  -- State
   row 0x3210 0x324F 0x02 0x02 .u16 .ro 0 false .trunk (.any) 2,  -- Group
   row 0x3210 0x324F 0x03 0x03 .u8 .ro 0 false .trunk (.any) 1,  -- Generation
   row 0x3210 0x324F 0x04 0x04 .u8 .ro 0 false .trunk (.any) 1,  -- Partition
   row 0x3210 0x324F 0x05 0x05 .u16 .ro 0 false .trunk (.any) 2,  -- HomeTrunk
   row 0x3210 0x324F 0x06 0x06 .u16 .ro 0 false .trunk (.any) 2,  -- BoxOrigin
   row 0x3210 0x324F 0x07 0x07 .u16 .ro 0 false .trunk (.any) 2,  -- BoxExtent
   row 0x3210 0x324F 0x08 0x08 .ft64 .ro 0 false .trunk (.any) 8,  -- Start
   row 0x3210 0x324F 0x09 0x09 .u32 .ro 0 false .trunk (.any) 4,  -- SnapPeriod
   row 0x3210 0x324F 0x0A 0x0A .u32 .ro 0 false .trunk (.any) 4,  -- FirstWindow
   row 0x3210 0x324F 0x0B 0x0B .u32 .ro 0xFFFFFFFF false .trunk (.any) 4,  -- LastWindow
   row 0x3210 0x324F 0x0C 0x0C .ft64 .ro 0 false .trunk (.any) 8,  -- QuarantineUntil
   row 0x3210 0x324F 0x0D 0x0D .bits32 .ro 0 false .trunk (.any) 4,  -- Reaches
   row 0x3210 0x324F 0x0E 0x0E .u32 .ro 0 false .trunk (.any) 4,  -- LagBound
   row 0x3210 0x324F 0x0F 0x0F .u16 .ro 0 false .trunk (.any) 2,  -- PartialBytes
   row 0x3210 0x324F 0x10 0x10 .domain .ro 0 false .trunk (.any) 512,  -- FieldList
   row 0x3210 0x324F 0x11 0x11 .domain .ro 0 false .trunk (.any) 32,  -- MemberMap
   row 0x3250 0x328F 0x00 0x00 .u8 .ro 255 false .trunk (.any) 1]  -- GroupResult HighestSub

/-- Objects 0x3200 to 0x32FF, part 2. -/
def rows32b : List Row :=
  [row 0x3250 0x328F 0x01 0x01 .enum8 .res 0 false .trunk (.any) 1,  -- GroupResult State
   row 0x3250 0x328F 0x02 0x02 .u32 .res 0 false .trunk (.any) 4,  -- GroupResult Seq
   row 0x3250 0x328F 0x03 0x03 .ft64 .res 0 false .trunk (.any) 8,  -- GroupResult CompletedAt
   row 0x3250 0x328F 0x04 0x04 .u16 .res 0 false .trunk (.any) 2,  -- GroupResult Group
   row 0x3250 0x328F 0x05 0x05 .u8 .res 0 false .trunk (.any) 1,  -- GroupResult Generation
   row 0x3250 0x328F 0x06 0x06 .u32 .res 0 false .trunk (.any) 4,  -- GroupResult Window
   row 0x3250 0x328F 0x07 0x07 .u32 .res 0 false .trunk (.any) 4,  -- GroupResult Members
   row 0x3250 0x328F 0x08 0x08 .u32 .res 0 false .trunk (.any) 4,  -- GroupResult Present
   row 0x3250 0x328F 0x09 0x09 .u32 .res 0 false .trunk (.any) 4,  -- GroupResult GapLeaves
   row 0x3250 0x328F 0x0A 0x0A .u16 .res 0 false .trunk (.any) 2,  -- GroupResult Trunks
   row 0x3250 0x328F 0x0B 0x0B .u16 .res 0 false .trunk (.any) 2,  -- GroupResult AbsentTrunks
   row 0x3250 0x328F 0x0C 0x0C .bits32 .res 0 false .trunk (.any) 4,  -- GroupResult Flags
   row 0x3250 0x328F 0x0D 0x0D .domain .res 0 false .trunk (.any) 2008,  -- GroupResult Fields
   row 0x3250 0x328F 0xFF 0xFF .u32 .wo 0 false .trunk (.any) 4]  -- GroupResult Ack

/-- Objects 0x3200 to 0x32FF. -/
def rows32 : List Row := rows32a ++ rows32b

/-- Objects 0x4000 to 0x40FF, part 1. -/
def rows40a : List Row :=
  [row 0x4000 0x4000 0x00 0x00 .enum8 .rw 0 true .trunk (.between 0 1) 1,  -- FabricMode
   row 0x4001 0x4001 0x00 0x00 .u8 .ro 6 false .trunk (.any) 1,  -- HighestSub
   row 0x4001 0x4001 0x01 0x01 .u64 .ro 0 false .trunk (.any) 8,  -- StackBytes
   row 0x4001 0x4001 0x02 0x02 .u32 .ro 0 false .trunk (.any) 4,  -- ThreadsReady
   row 0x4001 0x4001 0x03 0x03 .u32 .ro 0 false .trunk (.any) 4,  -- ThreadsWaiting
   row 0x4001 0x4001 0x04 0x04 .u32 .ro 0 false .trunk (.any) 4,  -- ThreadsGated
   row 0x4001 0x4001 0x05 0x05 .u32 .ro 0 false .trunk (.any) 4,  -- ThreadsHalted
   row 0x4001 0x4001 0x06 0x06 .u16 .rw 0 true .trunk (.any) 2,  -- AlignCounter
   row 0x4002 0x4002 0x00 0x00 .bits32 .rwc 0 false .trunk (.any) 4,  -- FabricFlags
   row 0x4003 0x4003 0x00 0x00 .u8 .ro 5 false .trunk (.any) 1,  -- HighestSub
   row 0x4003 0x4003 0x01 0x05 .u8 .ro 0 false .trunk (.any) 1,  -- FlagSetCount
   row 0x4004 0x4004 0x00 0x00 .u8 .ro 3 false .trunk (.any) 1,  -- HighestSub
   row 0x4004 0x4004 0x01 0x01 .u16 .rw 0 false .trunk (.between 0 16383) 2,  -- SyncSelect
   row 0x4004 0x4004 0x02 0x02 .u64 .ro 0 false .trunk (.any) 8,  -- SyncValue
   row 0x4004 0x4004 0x03 0x03 .u64 .cmd 0 false .trunk (.any) 8,  -- SyncAdd
   row 0x4010 0x4010 0x00 0x00 .u8 .ro 14 false .trunk (.any) 1,  -- HighestSub
   row 0x4010 0x4010 0x01 0x01 .u16 .rw 1600 true .trunk (.between 100 1800) 2,  -- PackagePowerLimit
   row 0x4010 0x4010 0x02 0x02 .i16 .rw 1520 true .trunk (.between 960 1680) 2,  -- ThermalLimit
   row 0x4010 0x4010 0x03 0x03 .u16 .rw 25 true .trunk (.between 1 200) 2,  -- ThermalStep
   row 0x4010 0x4010 0x04 0x04 .u16 .rw 600 true .trunk (.any) 2,  -- FloorPower
   row 0x4010 0x4010 0x05 0x05 .u16 .rw 1400 true .trunk (.between 100 1800) 2,  -- WarnPowerLimit
   row 0x4010 0x4010 0x06 0x06 .u32 .rw 0x989680 true .trunk (.between 1000000 1000000000) 4,  -- PmbusPeriod
   row 0x4010 0x4010 0x07 0x07 .bits32 .rw 0 true .trunk (.any) 4,  -- PmbusRails
   row 0x4010 0x4010 0x08 0x08 .u16 .ro 1600 false .trunk (.any) 2,  -- ThermalPower
   row 0x4010 0x4010 0x09 0x09 .u32 .ro 160000 false .trunk (.any) 4,  -- Budget
   row 0x4010 0x4010 0x0A 0x0A .u32 .ro 0 false .trunk (.any) 4,  -- Measured
   row 0x4010 0x4010 0x0B 0x0B .u32 .ro 0 false .trunk (.any) 4,  -- Base
   row 0x4010 0x4010 0x0C 0x0C .u32 .rw 65536 false .trunk (.between 0 65536) 4,  -- RecomputeScale
   row 0x4010 0x4010 0x0D 0x0D .u16 .rw 256 false .trunk (.any) 2,  -- ThicketBatch
   row 0x4010 0x4010 0x0E 0x0E .u16 .rw 256 true .trunk (.between 1 4096) 2,  -- ThicketBatchMax
   row 0x4011 0x4016 0x00 0x00 .u8 .ro 6 false .trunk (.any) 1,  -- HighestSub
   row 0x4011 0x4016 0x01 0x01 .u32 .rw 0 false .trunk (.any) 4,  -- Allowance
   row 0x4011 0x4016 0x02 0x02 .u32 .ro 0 false .trunk (.any) 4,  -- Demand
   row 0x4011 0x4016 0x03 0x03 .u32 .ro 0 false .trunk (.any) 4,  -- Used
   row 0x4011 0x4016 0x04 0x04 .i32 .ro 0 false .trunk (.any) 4,  -- Account
   row 0x4011 0x4016 0x05 0x05 .bool .ro 0 false .trunk (.any) 1,  -- Exhausted
   row 0x4011 0x4016 0x06 0x06 .u64 .ro 0 false .trunk (.any) 8,  -- HeldTicks
   row 0x4018 0x4018 0x00 0x00 .u8 .ro 32 false .trunk (.any) 1,  -- HighestSub
   row 0x4018 0x4018 0x01 0x20 .u8 .rw 0 true .trunk (.any) 1,  -- RailAddress
   row 0x4020 0x4020 0x00 0x00 .u8 .ro 7 false .trunk (.any) 1,  -- HighestSub
   row 0x4020 0x4020 0x01 0x01 .u32 .ro 0 false .trunk (.any) 4,  -- LocalPages
   row 0x4020 0x4020 0x02 0x02 .u32 .ro 0 false .trunk (.any) 4,  -- FreePages
   row 0x4020 0x4020 0x03 0x03 .u32 .ro 0 false .trunk (.any) 4,  -- RemotePages
   row 0x4020 0x4020 0x04 0x04 .u16 .rw 16383 true .trunk (.any) 2,  -- EvictCounter
   row 0x4020 0x4020 0x05 0x05 .domain .ro 0 false .trunk (.any) 131072,  -- EvictLog
   row 0x4020 0x4020 0x06 0x06 .u64 .ro 0 false .trunk (.any) 8,  -- Evictions
   row 0x4020 0x4020 0x07 0x07 .u8 .rw 8 true .trunk (.between 0 255) 1,  -- TriggerSpan
   row 0x4021 0x4026 0x00 0x00 .u8 .ro 5 false .trunk (.any) 1,  -- HighestSub
   row 0x4021 0x4026 0x01 0x01 .u8 .rw 0 true .trunk (.any) 1,  -- ReservePct
   row 0x4021 0x4026 0x02 0x02 .u8 .rw 0 true .trunk (.any) 1,  -- QuotaPct
   row 0x4021 0x4026 0x03 0x03 .u32 .ro 0 false .trunk (.any) 4,  -- UsedPages
   row 0x4021 0x4026 0x04 0x04 .u32 .ro 0 false .trunk (.any) 4,  -- Handles
   row 0x4021 0x4026 0x05 0x05 .u32 .ro 0 false .trunk (.any) 4,  -- Failures
   row 0x4030 0x4030 0x00 0x00 .u8 .ro 11 false .trunk (.any) 1,  -- HighestSub
   row 0x4030 0x4030 0x01 0x01 .bool .rw 0 true .trunk (.any) 1,  -- LendEnable
   row 0x4030 0x4030 0x02 0x02 .u32 .rw 8192 true .trunk (.any) 4,  -- LendFloor
   row 0x4030 0x4030 0x03 0x03 .u8 .rw 1 true .trunk (.between 1 24) 1,  -- LeaseHops
   row 0x4030 0x4030 0x04 0x04 .u64 .rw 0x2540BE400 true .trunk (.atLeast 100000000) 8,  -- MaxLeaseTime
   row 0x4030 0x4030 0x05 0x05 .u64 .rw 0x5F5E100 true .trunk (.atLeast 20000000) 8,  -- RenewLead
   row 0x4030 0x4030 0x06 0x06 .u16 .ro 0 false .trunk (.any) 2]  -- LentUnits

/-- Objects 0x4000 to 0x40FF, part 2. -/
def rows40b : List Row :=
  [row 0x4030 0x4030 0x07 0x07 .u16 .ro 0 false .trunk (.any) 2,  -- BorrowedUnits
   row 0x4030 0x4030 0x08 0x08 .u32 .ro 0 false .trunk (.any) 4,  -- Recalls
   row 0x4030 0x4030 0x09 0x09 .u32 .ro 0 false .trunk (.any) 4,  -- LeasesLost
   row 0x4030 0x4030 0x0A 0x0A .u32 .cmd 0 false .trunk (.any) 4,  -- LeaseRecall
   row 0x4030 0x4030 0x0B 0x0B .domain .ro 0 false .trunk (.any) 1920,  -- LeaseTable
   row 0x4040 0x407F 0x00 0x00 .u8 .ro 10 false .trunk (.any) 1,  -- HighestSub
   row 0x4040 0x407F 0x01 0x01 .enum8 .rw 0 true .trunk (.any) 1,  -- Engine
   row 0x4040 0x407F 0x02 0x02 .u64 .rw 0 true .trunk (.any) 8,  -- Base
   row 0x4040 0x407F 0x03 0x03 .u32 .rw 16 true .trunk (.any) 4,  -- Entries
   row 0x4040 0x407F 0x04 0x04 .u16 .rw 0 true .trunk (.any) 2,  -- ProduceCounter
   row 0x4040 0x407F 0x05 0x05 .u16 .rw 0 true .trunk (.any) 2,  -- CompleteCounter
   row 0x4040 0x407F 0x06 0x06 .u8 .rw 0 true .trunk (.between 0 3) 1,  -- Priority
   row 0x4040 0x407F 0x07 0x07 .enum8 .ro 0 false .trunk (.any) 1,  -- State
   row 0x4040 0x407F 0x08 0x08 .u64 .ro 0 false .trunk (.any) 8,  -- Completed
   row 0x4040 0x407F 0x09 0x09 .u32 .ro 0 false .trunk (.any) 4,  -- Errors
   row 0x4040 0x407F 0x0A 0x0A .u8 .cmd 0 false .trunk (.any) 1]  -- Reset

/-- Objects 0x4000 to 0x40FF. -/
def rows40 : List Row := rows40a ++ rows40b

/-- Objects 0x4100 to 0x41FF, part 1. -/
def rows41a : List Row :=
  [row 0x4100 0x4100 0x00 0x00 .enum8 .rw 0 true .trunk (.between 0 1) 1,  -- StragglerMode
   row 0x4101 0x4101 0x00 0x00 .u8 .ro 2 false .trunk (.any) 1,  -- HighestSub
   row 0x4101 0x4101 0x01 0x01 .bits32 .rw 15 true .trunk (.bits 0xF) 4,  -- AnomalyEnable
   row 0x4101 0x4101 0x02 0x02 .u16 .rw 7735 true .trunk (.any) 2,  -- ExportPort
   row 0x4102 0x4102 0x00 0x00 .bits32 .rwc 0 false .trunk (.any) 4,  -- StragglerFlags
   row 0x4103 0x4103 0x00 0x00 .u8 .ro 5 false .trunk (.any) 1,  -- HighestSub
   row 0x4103 0x4103 0x01 0x05 .u8 .ro 0 false .trunk (.any) 1,  -- FlagSetCount
   row 0x4104 0x4104 0x00 0x00 .u8 .ro 8 false .trunk (.any) 1,  -- HighestSub
   row 0x4104 0x4104 0x01 0x01 .u64 .ro 0 false .trunk (.any) 8,  -- Resolved
   row 0x4104 0x4104 0x02 0x02 .u32 .ro 0 false .trunk (.any) 4,  -- Unresolved
   row 0x4104 0x4104 0x03 0x03 .u64 .ro 0 false .trunk (.any) 8,  -- StepsComplete
   row 0x4104 0x4104 0x04 0x04 .u32 .ro 0 false .trunk (.any) 4,  -- StepsPartial
   row 0x4104 0x4104 0x05 0x05 .u32 .ro 0 false .trunk (.any) 4,  -- StepsTimeout
   row 0x4104 0x4104 0x06 0x06 .u32 .ro 0 false .trunk (.any) 4,  -- StepsMixed
   row 0x4104 0x4104 0x07 0x07 .u32 .ro 0 false .trunk (.any) 4,  -- Anomalies
   row 0x4104 0x4104 0x08 0x08 .u32 .ro 0 false .trunk (.any) 4,  -- DriftSkipped
   row 0x4105 0x4105 0x00 0x00 .u8 .ro 255 false .trunk (.any) 1,  -- LastAnomaly HighestSub
   row 0x4105 0x4105 0x01 0x01 .enum8 .res 0 false .trunk (.any) 1,  -- LastAnomaly State
   row 0x4105 0x4105 0x02 0x02 .u32 .res 0 false .trunk (.any) 4,  -- LastAnomaly Seq
   row 0x4105 0x4105 0x03 0x03 .ft64 .res 0 false .trunk (.any) 8,  -- LastAnomaly CompletedAt
   row 0x4105 0x4105 0x04 0x04 .enum8 .res 0 false .trunk (.any) 1,  -- LastAnomaly Kind
   row 0x4105 0x4105 0x05 0x05 .enum8 .res 0 false .trunk (.any) 1,  -- LastAnomaly Cause
   row 0x4105 0x4105 0x06 0x06 .u16 .res 0 false .trunk (.any) 2,  -- LastAnomaly Group
   row 0x4105 0x4105 0x07 0x07 .u8 .res 0 false .trunk (.any) 1,  -- LastAnomaly Generation
   row 0x4105 0x4105 0x08 0x08 .u8 .res 0 false .trunk (.any) 1,  -- LastAnomaly Metric
   row 0x4105 0x4105 0x09 0x09 .u16 .res 0 false .trunk (.any) 2,  -- LastAnomaly Rank
   row 0x4105 0x4105 0x0A 0x0A .u32 .res 0 false .trunk (.any) 4,  -- LastAnomaly Leaf
   row 0x4105 0x4105 0x0B 0x0B .u32 .res 0 false .trunk (.any) 4,  -- LastAnomaly StepOrWindow
   row 0x4105 0x4105 0x0C 0x0C .i64 .res 0 false .trunk (.any) 8,  -- LastAnomaly Value
   row 0x4105 0x4105 0x0D 0x0D .i32 .res 0 false .trunk (.any) 4,  -- LastAnomaly Excess
   row 0x4105 0x4105 0x0E 0x0E .i32 .res 0 false .trunk (.any) 4,  -- LastAnomaly Evidence
   row 0x4105 0x4105 0xFF 0xFF .u32 .wo 0 false .trunk (.any) 4,  -- LastAnomaly Ack
   row 0x4140 0x417F 0x00 0x00 .u8 .ro 255 false .trunk (.any) 1,  -- StepRecord HighestSub
   row 0x4140 0x417F 0x01 0x01 .enum8 .res 0 false .trunk (.any) 1,  -- StepRecord State
   row 0x4140 0x417F 0x02 0x02 .u32 .res 0 false .trunk (.any) 4,  -- StepRecord Seq
   row 0x4140 0x417F 0x03 0x03 .ft64 .res 0 false .trunk (.any) 8,  -- StepRecord CompletedAt
   row 0x4140 0x417F 0x04 0x04 .u16 .res 0 false .trunk (.any) 2,  -- StepRecord Group
   row 0x4140 0x417F 0x05 0x05 .u8 .res 0 false .trunk (.any) 1,  -- StepRecord Generation
   row 0x4140 0x417F 0x06 0x06 .u32 .res 0 false .trunk (.any) 4,  -- StepRecord Step
   row 0x4140 0x417F 0x07 0x07 .enum8 .res 0 false .trunk (.any) 1,  -- StepRecord Outcome
   row 0x4140 0x417F 0x08 0x08 .bits32 .res 0 false .trunk (.any) 4,  -- StepRecord Flags
   row 0x4140 0x417F 0x09 0x09 .u32 .res 0 false .trunk (.any) 4,  -- StepRecord Expected
   row 0x4140 0x417F 0x0A 0x0A .u32 .res 0 false .trunk (.any) 4,  -- StepRecord Arrived
   row 0x4140 0x417F 0x0B 0x0B .u32 .res 0 false .trunk (.any) 4,  -- StepRecord FirstWindow
   row 0x4140 0x417F 0x0C 0x0C .u32 .res 0 false .trunk (.any) 4,  -- StepRecord LastWindow
   row 0x4140 0x417F 0x0D 0x0D .i64 .res 0 false .trunk (.any) 8,  -- StepRecord BaseUsed
   row 0x4140 0x417F 0x0E 0x0E .domain .res 0 false .trunk (.any) 264,  -- StepRecord TopK
   row 0x4140 0x417F 0x0F 0x0F .domain .res 0 false .trunk (.any) 4096,  -- StepRecord Hist
   row 0x4140 0x417F 0x10 0x10 .i64 .res 0 false .trunk (.any) 8,  -- StepRecord Median
   row 0x4140 0x417F 0x11 0x11 .i64 .res 0 false .trunk (.any) 8,  -- StepRecord P99
   row 0x4140 0x417F 0x12 0x12 .u16 .res 65535 false .trunk (.any) 2,  -- StepRecord OwnerTrunk
   row 0x4140 0x417F 0x13 0x13 .enum8 .res 0 false .trunk (.any) 1,  -- StepRecord Cause
   row 0x4140 0x417F 0x14 0x14 .i64 .res 0 false .trunk (.any) 8,  -- StepRecord ExcessNs
   row 0x4140 0x417F 0x15 0x15 .domain .res 0 false .trunk (.any) 96,  -- StepRecord Evidence
   row 0x4140 0x417F 0x16 0x16 .u32 .res 0xFFFFFFFF false .trunk (.any) 4,  -- StepRecord MinV
   row 0x4140 0x417F 0x17 0x17 .u16 .res 0 false .trunk (.any) 2,  -- StepRecord LocalMissing
   row 0x4140 0x417F 0x18 0x18 .domain .res 0 false .trunk (.any) 64,  -- StepRecord MissingLeaves
   row 0x4140 0x417F 0xFF 0xFF .u32 .wo 0 false .trunk (.any) 4,  -- StepRecord Ack
   row 0x4180 0x41BF 0x00 0x00 .u8 .ro 18 false .trunk (.any) 1,  -- HighestSub
   row 0x4180 0x41BF 0x01 0x01 .bool .rw 0 true .trunk (.any) 1]  -- Enable

/-- Objects 0x4100 to 0x41FF, part 2. -/
def rows41b : List Row :=
  [row 0x4180 0x41BF 0x02 0x02 .enum8 .rw 0 true .trunk (.oneOf [0, 1]) 1,  -- ReleaseSource
   row 0x4180 0x41BF 0x03 0x03 .u32 .rw 0xFFFFFF00 true .trunk (.any) 4,  -- PacingTaps
   row 0x4180 0x41BF 0x04 0x04 .u32 .rw 0xF4240 true .trunk (.between 10000 100000000) 4,  -- StepTimeout
   row 0x4180 0x41BF 0x05 0x05 .u32 .rw 1024 true .trunk (.between 256 65536) 4,  -- BaseMargin
   row 0x4180 0x41BF 0x06 0x06 .u8 .rw 2 true .trunk (.between 1 8) 1,  -- BaseDelay
   row 0x4180 0x41BF 0x07 0x07 .u32 .rw 0 true .trunk (.any) 4,  -- InitialBase
   row 0x4180 0x41BF 0x08 0x08 .u16 .rw 256 true .trunk (.between 4 4096) 2,  -- ArrivalWait
   row 0x4180 0x41BF 0x09 0x09 .u32 .rw 1000 true .trunk (.any) 4,  -- StragglerMinExcess
   row 0x4180 0x41BF 0x0A 0x0A .u8 .rw 25 true .trunk (.between 1 100) 1,  -- AttribMinPct
   row 0x4180 0x41BF 0x0B 0x0B .u8 .rw 4 true .trunk (.between 1 10) 1,  -- BaselineShift
   row 0x4180 0x41BF 0x0C 0x0C .u16 .rw 16 true .trunk (.between 1 4096) 2,  -- BaselineWarm
   row 0x4180 0x41BF 0x0D 0x0D .u32 .rw 0 true .trunk (.any) 4,  -- VoltFloor
   row 0x4180 0x41BF 0x0E 0x0E .i64 .ro 0 false .trunk (.any) 8,  -- Base
   row 0x4180 0x41BF 0x0F 0x0F .u32 .ro 0 false .trunk (.any) 4,  -- OpenStep
   row 0x4180 0x41BF 0x10 0x10 .u64 .ro 0 false .trunk (.any) 8,  -- StepsClosed
   row 0x4180 0x41BF 0x11 0x11 .u32 .cmd 0 false .trunk (.any) 4,  -- Apply
   row 0x4180 0x41BF 0x12 0x12 .u32 .ro 0 false .trunk (.any) 4,  -- AppliedWindow
   row 0x41C0 0x41FF 0x00 0x00 .u8 .ro 5 false .trunk (.any) 1,  -- HighestSub
   row 0x41C0 0x41FF 0x01 0x01 .bool .rw 0 true .trunk (.any) 1,  -- Enable
   row 0x41C0 0x41FF 0x02 0x02 .domain .rw 0 true .trunk (.any) 128,  -- Metrics
   row 0x41C0 0x41FF 0x03 0x03 .u16 .rw 64 true .trunk (.between 1 65535) 2,  -- WarmUp
   row 0x41C0 0x41FF 0x04 0x04 .u8 .rw 1 true .trunk (.between 1 255) 1,  -- Stride
   row 0x41C0 0x41FF 0x05 0x05 .u64 .ro 0 false .trunk (.any) 8]  -- Alarms

/-- Objects 0x4100 to 0x41FF. -/
def rows41 : List Row := rows41a ++ rows41b

/-- Objects 0x4200 to 0x42FF. -/
def rows42 : List Row :=
  [row 0x4200 0x4200 0x00 0x00 .enum8 .rw 0 true .trunk (.between 0 1) 1,  -- ThicketMode
   row 0x4201 0x4201 0x00 0x00 .u8 .ro 6 false .trunk (.any) 1,  -- HighestSub
   row 0x4201 0x4201 0x01 0x01 .u16 .ro 0 false .trunk (.any) 2,  -- ComparatorsUsed
   row 0x4201 0x4201 0x02 0x02 .u16 .ro 0 false .trunk (.any) 2,  -- TreesUsed
   row 0x4201 0x4201 0x03 0x03 .u32 .ro 0 false .trunk (.any) 4,  -- EntriesUsed
   row 0x4201 0x4201 0x04 0x04 .u16 .ro 32768 false .trunk (.any) 2,  -- BankFreeMin
   row 0x4201 0x4201 0x05 0x05 .u16 .ro 32768 false .trunk (.any) 2,  -- BankFreeMax
   row 0x4201 0x4201 0x06 0x06 .u16 .rw 7736 true .trunk (.any) 2,  -- ExportPort
   row 0x4202 0x4202 0x00 0x00 .u8 .ro 7 false .trunk (.any) 1,  -- HighestSub
   row 0x4202 0x4202 0x01 0x01 .u64 .ro 0 false .trunk (.any) 8,  -- Vectors
   row 0x4202 0x4202 0x02 0x02 .u64 .ro 0 false .trunk (.any) 8,  -- TreeEvals
   row 0x4202 0x4202 0x03 0x03 .u64 .ro 0 false .trunk (.any) 8,  -- NanVectors
   row 0x4202 0x4202 0x04 0x04 .u32 .ro 0 false .trunk (.any) 4,  -- Misses
   row 0x4202 0x4202 0x05 0x05 .u32 .ro 0 false .trunk (.any) 4,  -- EccCorrected
   row 0x4202 0x4202 0x06 0x06 .u64 .ro 0 false .trunk (.any) 8,  -- BatchesHeld
   row 0x4202 0x4202 0x07 0x07 .u64 .ro 0 false .trunk (.any) 8,  -- VectorsExported
   row 0x4203 0x4203 0x00 0x00 .bits32 .rwc 0 false .trunk (.any) 4,  -- ThicketFlags
   row 0x4204 0x4204 0x00 0x00 .u8 .ro 4 false .trunk (.any) 1,  -- HighestSub
   row 0x4204 0x4204 0x01 0x04 .u8 .ro 0 false .trunk (.any) 1,  -- FlagSetCount
   row 0x4205 0x4205 0x00 0x00 .u8 .ro 2 false .trunk (.any) 1,  -- HighestSub
   row 0x4205 0x4205 0x01 0x01 .u32 .rw 0 false .trunk (.between 0 1048575) 4,  -- EntrySelect
   row 0x4205 0x4205 0x02 0x02 .domain .ro 0 false .trunk (.any) 76,  -- EntryDump
   row 0x4210 0x4217 0x00 0x00 .u8 .ro 11 false .trunk (.any) 1,  -- HighestSub
   row 0x4210 0x4217 0x01 0x01 .enum8 .ro 0 false .trunk (.any) 1,  -- State
   row 0x4210 0x4217 0x02 0x02 .u16 .ro 0 false .trunk (.any) 2,  -- Features
   row 0x4210 0x4217 0x03 0x03 .u8 .ro 0 false .trunk (.any) 1,  -- Outputs
   row 0x4210 0x4217 0x04 0x04 .u16 .ro 0 false .trunk (.any) 2,  -- Trees
   row 0x4210 0x4217 0x05 0x05 .u16 .ro 0 false .trunk (.any) 2,  -- Comparators
   row 0x4210 0x4217 0x06 0x06 .u32 .ro 0 false .trunk (.any) 4,  -- Entries
   row 0x4210 0x4217 0x07 0x07 .u16 .ro 0 false .trunk (.any) 2,  -- MaxBankTrees
   row 0x4210 0x4217 0x08 0x08 .u16 .ro 0 false .trunk (.any) 2,  -- FirstTreeSlot
   row 0x4210 0x4217 0x09 0x09 .u32 .ro 0 false .trunk (.any) 4,  -- ImageCrc
   row 0x4210 0x4217 0x0A 0x0A .ft64 .ro 0 false .trunk (.any) 8,  -- LoadedAt
   row 0x4210 0x4217 0x0B 0x0B .u64 .ro 0 false .trunk (.any) 8]  -- ModelVectors

/-- Objects 0x4300 to 0x43FF, part 1. -/
def rows43a : List Row :=
  [row 0x4300 0x4300 0x00 0x00 .enum8 .rw 0 true .trunk (.between 0 1) 1,  -- RecomputeMode
   row 0x4301 0x4301 0x00 0x00 .u8 .ro 8 false .trunk (.any) 1,  -- HighestSub
   row 0x4301 0x4301 0x01 0x01 .bool .rw 0 true .trunk (.any) 1,  -- Enable
   row 0x4301 0x4301 0x02 0x02 .bool .rw 1 true .trunk (.any) 1,  -- ConfirmEnable
   row 0x4301 0x4301 0x03 0x03 .bool .rw 1 true .trunk (.any) 1,  -- TriggerOnMismatch
   row 0x4301 0x4301 0x04 0x04 .u32 .rw 0xF4240 true .trunk (.between 0 100000000) 4,  -- TriggerHoldoff
   row 0x4301 0x4301 0x05 0x05 .u32 .rw 200000 true .trunk (.between 10000 10000000) 4,  -- WeightWait
   row 0x4301 0x4301 0x06 0x06 .u32 .rw 0x5F5E100 true .trunk (.between 0 4000000000) 4,  -- WeightCacheTime
   row 0x4301 0x4301 0x07 0x07 .u16 .rw 64 true .trunk (.between 1 4096) 2,  -- StagingLimit
   row 0x4301 0x4301 0x08 0x08 .u16 .rw 7737 true .trunk (.any) 2,  -- ExportPort
   row 0x4302 0x4302 0x00 0x00 .bits32 .rwc 0 false .trunk (.any) 4,  -- RecomputeFlags
   row 0x4303 0x4303 0x00 0x00 .u8 .ro 6 false .trunk (.any) 1,  -- HighestSub
   row 0x4303 0x4303 0x01 0x06 .u8 .ro 0 false .trunk (.any) 1,  -- FlagSetCount
   row 0x4304 0x4304 0x00 0x00 .u8 .ro 12 false .trunk (.any) 1,  -- HighestSub
   row 0x4304 0x4304 0x01 0x01 .u64 .ro 0 false .trunk (.any) 8,  -- Arms
   row 0x4304 0x4304 0x02 0x02 .u32 .ro 0 false .trunk (.any) 4,  -- ArmBusy
   row 0x4304 0x4304 0x03 0x03 .u64 .ro 0 false .trunk (.any) 8,  -- Captures
   row 0x4304 0x4304 0x04 0x04 .u32 .ro 0 false .trunk (.any) 4,  -- Incomplete
   row 0x4304 0x4304 0x05 0x05 .u64 .ro 0 false .trunk (.any) 8,  -- Compared
   row 0x4304 0x4304 0x06 0x06 .u64 .ro 0 false .trunk (.any) 8,  -- Exact
   row 0x4304 0x4304 0x07 0x07 .u64 .ro 0 false .trunk (.any) 8,  -- WithinTolerance
   row 0x4304 0x4304 0x08 0x08 .u32 .ro 0 false .trunk (.any) 4,  -- Mismatches
   row 0x4304 0x4304 0x09 0x09 .u32 .ro 0 false .trunk (.any) 4,  -- SelfMismatches
   row 0x4304 0x4304 0x0A 0x0A .u32 .ro 0 false .trunk (.any) 4,  -- WeightMismatches
   row 0x4304 0x4304 0x0B 0x0B .u32 .ro 0 false .trunk (.any) 4,  -- Skipped
   row 0x4304 0x4304 0x0C 0x0C .u64 .ro 0 false .trunk (.any) 8,  -- Exported
   row 0x4305 0x4305 0x00 0x00 .u8 .ro 255 false .trunk (.any) 1,  -- LastMismatch HighestSub
   row 0x4305 0x4305 0x01 0x01 .enum8 .res 0 false .trunk (.any) 1,  -- LastMismatch State
   row 0x4305 0x4305 0x02 0x02 .u32 .res 0 false .trunk (.any) 4,  -- LastMismatch Seq
   row 0x4305 0x4305 0x03 0x03 .ft64 .res 0 false .trunk (.any) 8,  -- LastMismatch CompletedAt
   row 0x4305 0x4305 0x04 0x04 .u32 .res 0 false .trunk (.any) 4,  -- LastMismatch Leaf
   row 0x4305 0x4305 0x05 0x05 .u16 .res 0 false .trunk (.any) 2,  -- LastMismatch Tag
   row 0x4305 0x4305 0x06 0x06 .u8 .res 0 false .trunk (.any) 1,  -- LastMismatch Policy
   row 0x4305 0x4305 0x07 0x07 .u8 .res 0 false .trunk (.any) 1,  -- LastMismatch Profile
   row 0x4305 0x4305 0x08 0x08 .ft64 .res 0 false .trunk (.any) 8,  -- LastMismatch BeginStamp
   row 0x4305 0x4305 0x09 0x09 .u16 .res 0 false .trunk (.any) 2,  -- LastMismatch Row
   row 0x4305 0x4305 0x0A 0x0A .u16 .res 0 false .trunk (.any) 2,  -- LastMismatch Col
   row 0x4305 0x4305 0x0B 0x0B .u32 .res 0 false .trunk (.any) 4,  -- LastMismatch HostBits
   row 0x4305 0x4305 0x0C 0x0C .u32 .res 0 false .trunk (.any) 4,  -- LastMismatch TrunkBits
   row 0x4305 0x4305 0x0D 0x0D .u32 .res 0 false .trunk (.any) 4,  -- LastMismatch Elements
   row 0x4305 0x4305 0x0E 0x0E .u32 .res 0 false .trunk (.any) 4,  -- LastMismatch MaxUlps
   row 0x4305 0x4305 0x0F 0x0F .enum8 .res 0 false .trunk (.any) 1,  -- LastMismatch Verdict
   row 0x4305 0x4305 0x10 0x10 .enum8 .res 0 false .trunk (.any) 1,  -- LastMismatch CompareMode
   row 0x4305 0x4305 0x11 0x11 .u32 .res 0 false .trunk (.any) 4,  -- LastMismatch TriggerId
   row 0x4305 0x4305 0x12 0x12 .u32 .res 0 false .trunk (.any) 4,  -- LastMismatch Handle
   row 0x4305 0x4305 0xFF 0xFF .u32 .wo 0 false .trunk (.any) 4,  -- LastMismatch Ack
   row 0x4310 0x431F 0x00 0x00 .u8 .ro 23 false .trunk (.any) 1,  -- HighestSub
   row 0x4310 0x431F 0x01 0x01 .enum8 .rw 5 true .trunk (.any) 1,  -- InFormatA
   row 0x4310 0x431F 0x02 0x02 .enum8 .rw 5 true .trunk (.any) 1,  -- InFormatB
   row 0x4310 0x431F 0x03 0x03 .enum8 .rw 1 true .trunk (.oneOf [0, 1]) 1,  -- ScaleMode
   row 0x4310 0x431F 0x04 0x04 .enum8 .rw 0 true .trunk (.oneOf [0, 1]) 1,  -- SubnormalIn
   row 0x4310 0x431F 0x05 0x05 .enum8 .rw 0 true .trunk (.oneOf [0, 1]) 1,  -- ZeroSkip
   row 0x4310 0x431F 0x06 0x06 .u16 .rw 32 true .trunk (.any) 2,  -- ChunkLength
   row 0x4310 0x431F 0x07 0x07 .enum8 .rw 0 true .trunk (.oneOf [0, 1, 2]) 1,  -- InnerAccum
   row 0x4310 0x431F 0x08 0x08 .enum8 .rw 0 true .trunk (.oneOf [0, 1]) 1,  -- InnerOrder
   row 0x4310 0x431F 0x09 0x09 .enum8 .rw 0 true .trunk (.oneOf [0, 1, 2, 3]) 1,  -- RoundInner
   row 0x4310 0x431F 0x0A 0x0A .enum8 .rw 0 true .trunk (.oneOf [0, 1]) 1,  -- OuterOrder
   row 0x4310 0x431F 0x0B 0x0B .enum8 .rw 0 true .trunk (.oneOf [0, 1, 2, 3]) 1,  -- RoundOuter
   row 0x4310 0x431F 0x0C 0x0C .enum8 .rw 0 true .trunk (.oneOf [0, 1]) 1,  -- SubnormalAcc
   row 0x4310 0x431F 0x0D 0x0D .enum8 .rw 0 true .trunk (.oneOf [0, 1]) 1]  -- IntOverflow

/-- Objects 0x4300 to 0x43FF, part 2. -/
def rows43b : List Row :=
  [row 0x4310 0x431F 0x0E 0x0E .enum8 .rw 0 true .trunk (.oneOf [0, 1, 2]) 1,  -- AddC
   row 0x4310 0x431F 0x0F 0x0F .enum8 .rw 9 true .trunk (.any) 1,  -- CFormat
   row 0x4310 0x431F 0x10 0x10 .enum8 .rw 8 true .trunk (.any) 1,  -- OutFormat
   row 0x4310 0x431F 0x11 0x11 .enum8 .rw 0 true .trunk (.oneOf [0, 1, 2, 3]) 1,  -- RoundOut
   row 0x4310 0x431F 0x12 0x12 .enum8 .rw 0 true .trunk (.oneOf [0, 1]) 1,  -- SubnormalOut
   row 0x4310 0x431F 0x13 0x13 .enum8 .rw 1 true .trunk (.oneOf [0, 1]) 1,  -- OutOverflow
   row 0x4310 0x431F 0x14 0x14 .enum8 .rw 0 true .trunk (.oneOf [0, 1]) 1,  -- CompareMode
   row 0x4310 0x431F 0x15 0x15 .enum8 .rw 0 true .trunk (.oneOf [0, 1]) 1,  -- NanCompare
   row 0x4310 0x431F 0x16 0x16 .u16 .rw 0 true .trunk (.any) 2,  -- TolUlps
   row 0x4310 0x431F 0x17 0x17 .f32 .rw 0 true .trunk (.any) 4,  -- TolAbs
   row 0x4320 0x432F 0x00 0x00 .u8 .ro 24 false .trunk (.any) 1,  -- HighestSub
   row 0x4320 0x432F 0x01 0x01 .bool .rw 0 true .trunk (.any) 1,  -- Enable
   row 0x4320 0x432F 0x02 0x02 .u16 .rw 0 true .trunk (.bits 0xFFF) 2,  -- Group
   row 0x4320 0x432F 0x03 0x03 .u8 .rw 0 true .trunk (.between 0 15) 1,  -- Source
   row 0x4320 0x432F 0x04 0x04 .u8 .rw 0 true .trunk (.between 0 15) 1,  -- Profile
   row 0x4320 0x432F 0x05 0x05 .u16 .rw 0 true .trunk (.any) 2,  -- TagMatch
   row 0x4320 0x432F 0x06 0x06 .u16 .rw 0 true .trunk (.any) 2,  -- TagMask
   row 0x4320 0x432F 0x07 0x07 .u16 .rw 0 true .trunk (.any) 2,  -- RotateMask
   row 0x4320 0x432F 0x08 0x08 .u32 .rw 0x989680 true .trunk (.between 100000 4000000000) 4,  -- Period
   row 0x4320 0x432F 0x09 0x09 .u16 .rw 128 true .trunk (.between 1 256) 2,  -- M
   row 0x4320 0x432F 0x0A 0x0A .u16 .rw 128 true .trunk (.between 1 256) 2,  -- N
   row 0x4320 0x432F 0x0B 0x0B .u16 .rw 256 true .trunk (.between 1 4096) 2,  -- K
   row 0x4320 0x432F 0x0C 0x0C .domain .rw 0 true .trunk (.any) 96,  -- Maps
   row 0x4320 0x432F 0x0D 0x0D .u8 .rw 255 true .trunk (.any) 1,  -- BufferBit
   row 0x4320 0x432F 0x0E 0x0E .u32 .rw 0 true .trunk (.any) 4,  -- BufferStride
   row 0x4320 0x432F 0x0F 0x0F .enum8 .rw 0 true .trunk (.oneOf [0, 1]) 1,  -- WeightFrom
   row 0x4320 0x432F 0x10 0x10 .u32 .rw 0 true .trunk (.any) 4,  -- WeightLeaf
   row 0x4320 0x432F 0x11 0x11 .u8 .rw 0 true .trunk (.between 0 15) 1,  -- WeightSource
   row 0x4320 0x432F 0x12 0x12 .u16 .rw 0 true .trunk (.any) 2,  -- WeightTag
   row 0x4320 0x432F 0x13 0x13 .u16 .rw 65535 true .trunk (.any) 2,  -- WeightTagMask
   row 0x4320 0x432F 0x14 0x14 .u16 .rw 0 true .trunk (.any) 2,  -- WeightKeyMask
   row 0x4320 0x432F 0x15 0x15 .domain .rw 0 true .trunk (.any) 32,  -- WeightMap
   row 0x4320 0x432F 0x16 0x16 .u64 .ro 0 false .trunk (.any) 8,  -- PolicyArms
   row 0x4320 0x432F 0x17 0x17 .u64 .ro 0 false .trunk (.any) 8,  -- PolicyCompared
   row 0x4320 0x432F 0x18 0x18 .u32 .ro 0 false .trunk (.any) 4,  -- PolicyMismatches
   row 0x4340 0x4343 0x00 0x00 .u8 .ro 6 false .trunk (.any) 1,  -- HighestSub
   row 0x4340 0x4343 0x01 0x01 .bool .rw 0 true .trunk (.any) 1,  -- Enable
   row 0x4340 0x4343 0x02 0x02 .u16 .rw 0 true .trunk (.bits 0xFFF) 2,  -- Group
   row 0x4340 0x4343 0x03 0x03 .u8 .rw 0 true .trunk (.between 0 15) 1,  -- Source
   row 0x4340 0x4343 0x04 0x04 .u64 .ro 0 false .trunk (.any) 8,  -- Steps
   row 0x4340 0x4343 0x05 0x05 .u32 .ro 0 false .trunk (.any) 4,  -- DigestMismatches
   row 0x4340 0x4343 0x06 0x06 .u32 .ro 0 false .trunk (.any) 4]  -- NoQuorum

/-- Objects 0x4300 to 0x43FF. -/
def rows43 : List Row := rows43a ++ rows43b

/-- Objects 0x4400 to 0x44FF, part 1. -/
def rows44a : List Row :=
  [row 0x4400 0x4400 0x00 0x00 .enum8 .rw 0 true .both (.between 0 1) 1,  -- FieldTestMode
   row 0x4401 0x4401 0x00 0x00 .u8 .ro 8 false .leaf (.any) 1,  -- HighestSub
   row 0x4401 0x4401 0x01 0x01 .bool .rw 0 true .leaf (.any) 1,  -- Enable
   row 0x4401 0x4401 0x02 0x02 .u64 .rw 0x5F5E100 true .leaf (.between 1000000 86400000000000) 8,  -- TapInterval
   row 0x4401 0x4401 0x03 0x03 .u32 .rw 10000 true .leaf (.between 0 1000000) 4,  -- TestGap
   row 0x4401 0x4401 0x04 0x04 .bool .rw 0 false .leaf (.any) 1,  -- TrunkHold
   row 0x4401 0x4401 0x05 0x05 .bool .rw 0 true .leaf (.any) 1,  -- ReportPasses
   row 0x4401 0x4401 0x06 0x06 .enum8 .ro 0 false .leaf (.any) 1,  -- State
   row 0x4401 0x4401 0x07 0x07 .u32 .cmd 0 false .leaf (.any) 4,  -- RunTest
   row 0x4401 0x4401 0x08 0x08 .u32 .rw 0x3B9ACA00 true .leaf (.between 1000000 4000000000) 4,  -- HostWait
   row 0x4402 0x4402 0x00 0x00 .domain .rw 0 false .leaf (.any) 49184,  -- TestPack
   row 0x4403 0x4403 0x00 0x00 .u8 .ro 4 false .leaf (.any) 1,  -- HighestSub
   row 0x4403 0x4403 0x01 0x01 .u32 .ro 0 false .leaf (.any) 4,  -- PackId
   row 0x4403 0x4403 0x02 0x02 .u32 .ro 0 false .leaf (.any) 4,  -- PackVersion
   row 0x4403 0x4403 0x03 0x03 .u16 .ro 0 false .leaf (.any) 2,  -- Count
   row 0x4403 0x4403 0x04 0x04 .u32 .ro 0 false .leaf (.any) 4,  -- Crc
   row 0x4404 0x4404 0x00 0x00 .u8 .ro 8 false .leaf (.any) 1,  -- HighestSub
   row 0x4404 0x4404 0x01 0x01 .u64 .ro 0 false .leaf (.any) 8,  -- Runs
   row 0x4404 0x4404 0x02 0x02 .u64 .ro 0 false .leaf (.any) 8,  -- Passes
   row 0x4404 0x4404 0x03 0x03 .u32 .ro 0 false .leaf (.any) 4,  -- Failures
   row 0x4404 0x4404 0x04 0x04 .u32 .ro 0 false .leaf (.any) 4,  -- Timeouts
   row 0x4404 0x4404 0x05 0x05 .u32 .ro 0 false .leaf (.any) 4,  -- Reclaims
   row 0x4404 0x4404 0x06 0x06 .u32 .ro 0 false .leaf (.any) 4,  -- Preempted
   row 0x4404 0x4404 0x07 0x07 .u32 .ro 0 false .leaf (.any) 4,  -- Abandoned
   row 0x4404 0x4404 0x08 0x08 .u32 .ro 0 false .leaf (.any) 4,  -- ReportsLost
   row 0x4405 0x4405 0x00 0x00 .u8 .ro 255 false .leaf (.any) 1,  -- LastResult HighestSub
   row 0x4405 0x4405 0x01 0x01 .enum8 .res 0 false .leaf (.any) 1,  -- LastResult State
   row 0x4405 0x4405 0x02 0x02 .u32 .res 0 false .leaf (.any) 4,  -- LastResult Seq
   row 0x4405 0x4405 0x03 0x03 .ft64 .res 0 false .leaf (.any) 8,  -- LastResult CompletedAt
   row 0x4405 0x4405 0x04 0x04 .u8 .res 0 false .leaf (.any) 1,  -- LastResult Tap
   row 0x4405 0x4405 0x05 0x05 .u16 .res 0 false .leaf (.any) 2,  -- LastResult TestId
   row 0x4405 0x4405 0x06 0x06 .u8 .res 0 false .leaf (.any) 1,  -- LastResult Variant
   row 0x4405 0x4405 0x07 0x07 .enum8 .res 0 false .leaf (.any) 1,  -- LastResult Outcome
   row 0x4405 0x4405 0x08 0x08 .u32 .res 0 false .leaf (.any) 4,  -- LastResult Expected
   row 0x4405 0x4405 0x09 0x09 .u32 .res 0 false .leaf (.any) 4,  -- LastResult Observed
   row 0x4405 0x4405 0x0A 0x0A .ft64 .res 0 false .leaf (.any) 8,  -- LastResult Start
   row 0x4405 0x4405 0x0B 0x0B .u32 .res 0 false .leaf (.any) 4,  -- LastResult DurationNs
   row 0x4405 0x4405 0xFF 0xFF .u32 .wo 0 false .leaf (.any) 4,  -- LastResult Ack
   row 0x4406 0x4406 0x00 0x00 .bits32 .rwc 0 false .leaf (.any) 4,  -- FieldTestFlags
   row 0x4407 0x4407 0x00 0x00 .u8 .ro 3 false .leaf (.any) 1,  -- HighestSub
   row 0x4407 0x4407 0x01 0x03 .u8 .ro 0 false .leaf (.any) 1,  -- FlagSetCount
   row 0x4408 0x4408 0x00 0x00 .u8 .ro 4 false .leaf (.any) 1,  -- HighestSub
   row 0x4408 0x4408 0x01 0x01 .u8 .rw 0 false .leaf (.any) 1,  -- TapSelect
   row 0x4408 0x4408 0x02 0x02 .u16 .ro 0 false .leaf (.any) 2,  -- Cursor
   row 0x4408 0x4408 0x03 0x03 .ft64 .ro 0 false .leaf (.any) 8,  -- NextDue
   row 0x4408 0x4408 0x04 0x04 .u32 .ro 0 false .leaf (.any) 4,  -- Rounds
   row 0x4420 0x442F 0x00 0x00 .u8 .ro 11 false .trunk (.any) 1,  -- HighestSub
   row 0x4420 0x442F 0x01 0x01 .bool .rw 0 true .trunk (.any) 1,  -- Enable
   row 0x4420 0x442F 0x02 0x02 .u32 .rw 0 true .trunk (.any) 4,  -- Subject
   row 0x4420 0x442F 0x03 0x03 .u8 .rw 0 true .trunk (.between 0 15) 1,  -- SubjectSource
   row 0x4420 0x442F 0x04 0x04 .u32 .rw 0 true .trunk (.any) 4,  -- Reference
   row 0x4420 0x442F 0x05 0x05 .u8 .rw 0 true .trunk (.between 0 15) 1,  -- ReferenceSource
   row 0x4420 0x442F 0x06 0x06 .u16 .rw 0 true .trunk (.any) 2,  -- TagMatch
   row 0x4420 0x442F 0x07 0x07 .u16 .rw 0 true .trunk (.any) 2,  -- TagMask
   row 0x4420 0x442F 0x08 0x08 .u32 .rw 100000 true .trunk (.between 1000 100000000) 4,  -- PairSkew
   row 0x4420 0x442F 0x09 0x09 .u64 .ro 0 false .trunk (.any) 8,  -- Pairs
   row 0x4420 0x442F 0x0A 0x0A .u32 .ro 0 false .trunk (.any) 4,  -- Diffs
   row 0x4420 0x442F 0x0B 0x0B .u32 .ro 0 false .trunk (.any) 4,  -- Unpaired
   row 0x4430 0x4430 0x00 0x00 .u8 .ro 5 false .trunk (.any) 1,  -- HighestSub
   row 0x4430 0x4430 0x01 0x01 .bool .rw 1 true .trunk (.any) 1]  -- TriggerOnDiff

/-- Objects 0x4400 to 0x44FF, part 2. -/
def rows44b : List Row :=
  [row 0x4430 0x4430 0x02 0x02 .u64 .ro 0 false .trunk (.any) 8,  -- Received
   row 0x4430 0x4430 0x03 0x03 .u32 .ro 0 false .trunk (.any) 4,  -- BadRecords
   row 0x4430 0x4430 0x04 0x04 .u16 .ro 1024 false .trunk (.any) 2,  -- LogCapacity
   row 0x4430 0x4430 0x05 0x05 .domain .ro 0 false .trunk (.any) 65536,  -- SignatureLog
   row 0x4431 0x4431 0x00 0x00 .u8 .ro 255 false .trunk (.any) 1,  -- LastSignature HighestSub
   row 0x4431 0x4431 0x01 0x01 .enum8 .res 0 false .trunk (.any) 1,  -- LastSignature State
   row 0x4431 0x4431 0x02 0x02 .u32 .res 0 false .trunk (.any) 4,  -- LastSignature Seq
   row 0x4431 0x4431 0x03 0x03 .ft64 .res 0 false .trunk (.any) 8,  -- LastSignature CompletedAt
   row 0x4431 0x4431 0x04 0x04 .enum8 .res 0 false .trunk (.any) 1,  -- LastSignature Kind
   row 0x4431 0x4431 0x05 0x05 .u32 .res 0 false .trunk (.any) 4,  -- LastSignature Leaf
   row 0x4431 0x4431 0x06 0x06 .domain .res 0 false .trunk (.any) 64,  -- LastSignature Record
   row 0x4431 0x4431 0xFF 0xFF .u32 .wo 0 false .trunk (.any) 4,  -- LastSignature Ack
   row 0x4432 0x4432 0x00 0x00 .bits32 .rwc 0 false .trunk (.any) 4,  -- SignatureFlags
   row 0x4433 0x4433 0x00 0x00 .u8 .ro 3 false .trunk (.any) 1,  -- HighestSub
   row 0x4433 0x4433 0x01 0x03 .u8 .ro 0 false .trunk (.any) 1]  -- FlagSetCount

/-- Objects 0x4400 to 0x44FF. -/
def rows44 : List Row := rows44a ++ rows44b

/-- Objects 0x6000 to 0x60FF. -/
def rows60 : List Row :=
  [row 0x6000 0x60FE 0x00 0x00 .u8 .ro 32 false .leaf (.any) 1,  -- HighestSub
   row 0x6000 0x60FE 0x01 0x20 .u64 .ro 0 false .leaf (.any) 8]  -- Counter

/-- Objects 0x6100 to 0x61FF. -/
def rows61 : List Row :=
  [row 0x6100 0x61FE 0x00 0x00 .u8 .ro 32 false .leaf (.any) 1,  -- HighestSub
   row 0x6100 0x61FE 0x01 0x20 .u64 .ro 0 false .leaf (.any) 8]  -- TapShadow

/-- Objects 0x6200 to 0x62FF. -/
def rows62 : List Row :=
  [row 0x6200 0x6200 0x00 0x00 .u8 .ro 64 false .leaf (.any) 1,  -- AlwaysOnShadow HighestSub
   row 0x6200 0x6200 0x01 0x40 .u64 .ro 0 false .leaf (.any) 8]  -- AlwaysOnShadow

/-- Objects 0x6400 to 0x64FF. -/
def rows64 : List Row :=
  [row 0x6400 0x64FE 0x00 0x00 .u8 .ro 7 false .trunk (.any) 1,  -- HighestSub
   row 0x6400 0x64FE 0x01 0x01 .u8 .rw 0 true .trunk (.between 0 3) 1,  -- Profile
   row 0x6400 0x64FE 0x02 0x02 .u64 .ro 0 false .trunk (.any) 8,  -- GreenBytes
   row 0x6400 0x64FE 0x03 0x03 .u64 .ro 0 false .trunk (.any) 8,  -- YellowBytes
   row 0x6400 0x64FE 0x04 0x04 .u64 .ro 0 false .trunk (.any) 8,  -- RedBytes
   row 0x6400 0x64FE 0x05 0x05 .u32 .ro 0 false .trunk (.any) 4,  -- Discarded
   row 0x6400 0x64FE 0x06 0x06 .i64 .ro 0 false .trunk (.any) 8,  -- Tc
   row 0x6400 0x64FE 0x07 0x07 .i64 .ro 0 false .trunk (.any) 8]  -- Tp

/-- Objects 0x6500 to 0x65FF. -/
def rows65 : List Row :=
  [row 0x6500 0x65FF 0x00 0x00 .u8 .ro 15 false .trunk (.any) 1,  -- HighestSub
   row 0x6500 0x65FF 0x01 0x01 .bool .rw 1 true .trunk (.any) 1,  -- Enable
   row 0x6500 0x65FF 0x02 0x02 .enum8 .ro 0 false .trunk (.any) 1,  -- State
   row 0x6500 0x65FF 0x03 0x03 .u8 .ro 0 false .trunk (.any) 1,  -- PeerLevel
   row 0x6500 0x65FF 0x04 0x04 .u8 .cmd 0 false .trunk (.any) 1,  -- ResetCmd
   row 0x6500 0x65FF 0x05 0x05 .enum8 .ro 0 false .trunk (.any) 1,  -- LastResetReason
   row 0x6500 0x65FF 0x06 0x06 .u32 .ro 0 false .trunk (.any) 4,  -- LinkUps
   row 0x6500 0x65FF 0x07 0x07 .ft64 .ro 0 false .trunk (.any) 8,  -- LastUp
   row 0x6500 0x65FF 0x08 0x08 .u64 .ro 0 false .trunk (.any) 8,  -- FramesSent
   row 0x6500 0x65FF 0x09 0x09 .u64 .ro 0 false .trunk (.any) 8,  -- FramesAccepted
   row 0x6500 0x65FF 0x0A 0x0A .u32 .ro 0 false .trunk (.any) 4,  -- CrcErrors
   row 0x6500 0x65FF 0x0B 0x0B .u32 .ro 0 false .trunk (.any) 4,  -- Replays
   row 0x6500 0x65FF 0x0C 0x0C .u32 .ro 0 false .trunk (.any) 4,  -- Aborts
   row 0x6500 0x65FF 0x0D 0x0D .u32 .ro 0 false .trunk (.any) 4,  -- BlockErrors
   row 0x6500 0x65FF 0x0E 0x0E .u32 .ro 0 false .trunk (.any) 4,  -- MessagesDiscarded
   row 0x6500 0x65FF 0x0F 0x0F .u64 .ro 0 false .trunk (.any) 8]  -- CreditWaitTicks

/-- Objects 0xF000 to 0xF0FF. -/
def rowsF0 : List Row :=
  [row 0xF000 0xF000 0x00 0x00 .u8 .ro 8 false .both (.any) 1,  -- HighestSub
   row 0xF000 0xF000 0x01 0x01 .u8 .ro 1 false .both (.any) 1,  -- FormatVersion
   row 0xF000 0xF000 0x02 0x02 .enum8 .ro 0 false .both (.any) 1,  -- Build
   row 0xF000 0xF000 0x03 0x03 .u8 .ro 0 false .both (.any) 1,  -- UnitCount
   row 0xF000 0xF000 0x04 0x04 .u32 .ro 0 false .both (.any) 4,  -- TableCrc
   row 0xF000 0xF000 0x05 0x05 .u8 .ro 0 false .both (.any) 1,  -- TapCount
   row 0xF000 0xF000 0x06 0x06 .u8 .ro 0 false .both (.any) 1,  -- TraceSources
   row 0xF000 0xF000 0x07 0x07 .bool .ro 0 false .both (.any) 1,  -- FieldTest
   row 0xF000 0xF000 0x08 0x08 .bool .ro 0 false .both (.any) 1,  -- InrushGate
   row 0xF001 0xF0FE 0x00 0x00 .u8 .ro 5 false .both (.any) 1,  -- HighestSub
   row 0xF001 0xF0FE 0x01 0x01 .u8 .ro 0 false .both (.any) 1,  -- UnitType
   row 0xF001 0xF0FE 0x02 0x02 .bool .ro 0 false .both (.any) 1,  -- Present
   row 0xF001 0xF0FE 0x03 0x03 .u16 .ro 0 false .both (.any) 2,  -- IndexFirst
   row 0xF001 0xF0FE 0x04 0x04 .u32 .ro 0 false .both (.any) 4,  -- ModeObject
   row 0xF001 0xF0FE 0x05 0x05 .domain .ro 0 false .both (.any) 65536,  -- Layout
   row 0xF0FF 0xF0FF 0x00 0x00 .domain .ro 0 false .both (.any) 2040]  -- TapTable

/-- The rows of the indices whose high byte is `h`. -/
def rowsOf (h : Nat) : List Row :=
  match h with
  | 0x10 => rows10
  | 0x11 => rows11
  | 0x18 => rows18
  | 0x1F => rows1F
  | 0x20 => rows20
  | 0x21 => rows21
  | 0x22 => rows22
  | 0x23 => rows23
  | 0x24 => rows24
  | 0x25 => rows25
  | 0x26 => rows26
  | 0x27 => rows27
  | 0x28 => rows28
  | 0x29 => rows29
  | 0x30 => rows30
  | 0x31 => rows31
  | 0x32 => rows32
  | 0x40 => rows40
  | 0x41 => rows41
  | 0x42 => rows42
  | 0x43 => rows43
  | 0x44 => rows44
  | 0x60 => rows60
  | 0x61 => rows61
  | 0x62 => rows62
  | 0x64 => rows64
  | 0x65 => rows65
  | 0xF0 => rowsF0
  | _ => []

/-- The high bytes of the indices that the table knows, ascending. -/
def highBytes : List Nat := [0x10, 0x11, 0x18, 0x1F, 0x20, 0x21, 0x22, 0x23, 0x24, 0x25, 0x26, 0x27, 0x28, 0x29, 0x30, 0x31, 0x32, 0x40, 0x41, 0x42, 0x43, 0x44, 0x60, 0x61, 0x62, 0x64, 0x65, 0xF0]

end Sys2Proof.Machine
end

