-- ==== Sys2Proof/Machine/Ops.lean ====
section
/-! DEFINITION. The operations on a unit's state that every family shares: the dictionary's scalar objects and byte
strings, counters, flags with their set-counts (R147), and result objects (R34 to R38). A scalar object is named by
its key, index × 256 + subindex, written as the spec writes it: `0x2103_05` is 0x2103.05. -/

namespace Sys2Proof.Machine

/-- The key of an object. -/
def key (index sub : Nat) : Nat := index * 256 + sub

/-- The size in bytes of a scalar type (R23). -/
def OType.size : OType → Nat
  | .bool | .u8 | .i8 | .enum8 => 1
  | .u16 | .i16 => 2
  | .u32 | .i32 | .f32 | .ft32 | .bits32 => 4
  | .u64 | .i64 | .f64 | .ft64 => 8
  | .str => 64
  | .domain => 4

/-- The type code of R23. -/
def OType.code : OType → Nat
  | .bool => 0x01 | .u8 => 0x02 | .u16 => 0x03 | .u32 => 0x04 | .u64 => 0x05 | .i8 => 0x06 | .i16 => 0x07
  | .i32 => 0x08 | .i64 => 0x09 | .f32 => 0x0A | .f64 => 0x0B | .ft64 => 0x0C | .ft32 => 0x0D | .enum8 => 0x0E
  | .bits32 => 0x0F | .str => 0x10 | .domain => 0x11

/-- The access code of R25. -/
def Access.code : Access → Nat
  | .ro => 0x01 | .rw => 0x02 | .wo => 0x03 | .rwc => 0x04 | .cmd => 0x05 | .res => 0x06

/-- Is the value of this type a string of bytes (STR or DOMAIN)? -/
def OType.isBlob : OType → Bool
  | .str | .domain => true
  | _ => false

/-- Does a build implement a row's objects? -/
def Builds.has : Builds → Build → Bool
  | .both, _ => true
  | .leaf, .leaf => true
  | .trunk, .trunk => true
  | _, _ => false

/-- The number of unit descriptors, and their UnitTypes in ascending order (R19, R69): the first index bytes of the
ranges of R19 that the build implements. -/
def unitTypes (c : Cfg) : List Nat :=
  match c.build with
  | .leaf => [0x10, 0x11, 0x18, 0x1F, 0x20, 0x21, 0x24, 0x25, 0x26, 0x27, 0x28, 0x29, 0x30, 0x44, 0xF0]
  | .trunk => [0x10, 0x11, 0x18, 0x1F, 0x20, 0x26, 0x27, 0x28, 0x29, 0x30, 0x31, 0x32, 0x40, 0x41, 0x42, 0x43, 0x44,
      0xF0]

/-- Is a subindex of an object present on this unit: the parts that a leaf's options and the numbers of its taps,
regions, sensors, clusters and trace sources decide (R2, R20, R178, R213)? -/
def Cfg.present (c : Cfg) (i s : Nat) : Bool :=
  match i / 256 with
  | 0x18 => c.build = .trunk || i < 0x1812 || i > 0x1815
  | 0x20 => match i with
    | 0x2003 => c.build = .trunk || s ≤ 1
    | 0x2020 => true
    | _ => c.build = .trunk || i < 0x2021 || i > 0x2025
  | 0x21 => if i = 0x2110 || i = 0x2111 then s ≤ c.regionCount else true
  | 0x22 => i - 0x2200 < c.taps.length
  | 0x23 => i - 0x2300 < c.taps.length
  | 0x60 => i - 0x6000 < c.taps.length
  | 0x61 => i - 0x6100 < c.taps.length
  | 0x24 =>
    if i = 0x2404 || i = 0x2405 || i = 0x2408 || i = 0x2409 then c.inrushGate
    else if 0x2410 ≤ i && i ≤ 0x244F then i - 0x2410 < c.voltRegions.length
    else if 0x2450 ≤ i && i ≤ 0x248F then i - 0x2450 < c.powerRegions && (c.inrushGate || s < 2)
    else if 0x2490 ≤ i && i ≤ 0x249F then c.inrushGate && i - 0x2490 < c.clusters
    else if 0x24A0 ≤ i && i ≤ 0x24BF then i - 0x24A0 < c.tempRegions.length
    else true
  | 0x25 =>
    if c.traceSources = 0 then false
    else if 0x2510 ≤ i && i ≤ 0x251F then i - 0x2510 < c.traceSources
    else if 0x2520 ≤ i && i ≤ 0x259F then i - 0x2520 < 8 * c.traceSources
    else true
  | 0x44 => if 0x4400 ≤ i && i ≤ 0x4408 then c.build = .trunk || c.fieldTest else true
  | 0xF0 => if 0xF001 ≤ i && i ≤ 0xF0FE then i - 0xF001 < (unitTypes c).length else true
  | _ => true

/-- The row of an implemented object of a unit, none where the unit does not implement it. -/
def Cfg.rowOf (c : Cfg) (i s : Nat) : Option Row :=
  if c.present i s then
    (rowsOf (i / 256)).find? (fun r => r.first ≤ i && i ≤ r.last && r.sub ≤ s && s ≤ r.subEnd && r.builds.has c.build)
  else none

/-- Does a unit implement an index (R20)? -/
def Cfg.hasIndex (c : Cfg) (i : Nat) : Bool :=
  (rowsOf (i / 256)).any (fun r => r.first ≤ i && i ≤ r.last && c.present i r.sub && r.builds.has c.build)

/-- The subindices of an index that a unit implements, ascending. -/
def Cfg.subsOf (c : Cfg) (i : Nat) : List Nat :=
  let rs := (rowsOf (i / 256)).filter (fun r => r.first ≤ i && i ≤ r.last && r.builds.has c.build)
  (rs.flatMap (fun r => (List.range (r.subEnd + 1 - r.sub)).map (r.sub + ·))).filter (c.present i ·)

/-- Is the index that of a result object (R34)? -/
def isRes (c : Cfg) (i : Nat) : Bool := (c.rowOf i 1).any (·.acc = .res)

/-- The default Quota of each uplink source (R310). -/
def uplinkQuota : List Nat := [6000, 512, 256, 256, 256, 128]

/-- The default WaitLimit of each uplink source (R310). -/
def uplinkWait : List Nat := [2000, 1000, 5000, 100000, 20000, 50000]

/-- The default Quota of each memory-port source (R323). -/
def memQuota : List Nat := [400000, 160000, 160000, 160000, 240000, 80000, 320000, 80000]

/-- The default WaitLimit of each memory-port source (R323). -/
def memWait : List Nat := [1000, 2000, 4000, 0, 0, 0, 8000, 0]

/-- Defaults that the object table gives per build, per instance or by another rule. A trunk's own header reads 0 for TraceSources,
FieldTest and InrushGate as for TapCount (R4, R69; log 102), and HighestSub is what the object table gives, on a leaf without an
inrush gate too (R18, R178; log 103). -/
def Cfg.special (c : Cfg) (i s : Nat) : Option Nat :=
  let trunk := c.build = .trunk
  match i with
  | 0x1000 => match s with
    | 3 => some (b2n trunk)
    | 4 => some c.designRevision
    | 5 => some c.serialNumber
    | 6 => some (if trunk then 0x100000 + c.trunkId * 256 else 0x200000)
    | 7 => some (if trunk then c.serialNumber else c.hostDieId)
    | _ => none
  | 0x1100 => match s with
    | 1 => some (c.dropStrap + 1)
    | 2 => some (0x025300000000 + c.dropStrap + 1)
    | _ => none
  | 0x1101 => match s with
    | 2 => some (if trunk then 64 else 4)
    | 3 => some (if trunk then 4096 else 16)
    | _ => none
  | 0x1801 => if s = 8 then some (c.keyRevoked % 4) else none
  | 0x1F80 => if s = 5 then some (if trunk then 1024 else 64) else none
  | 0x2003 => if s = 0 then some (if trunk then 6 else 1) else none
  | 0x2004 => if s = 2 then some c.trunkId else none
  | 0x2008 => if s = 1 then some (if trunk then 64 else 8) else none
  | 0x2100 => if s = 3 then some c.regionCount else none
  | 0x2110 | 0x2111 => if s = 0 then some c.regionCount else none
  | 0x2403 => match s with
    | 1 => some c.voltRegions.length
    | 2 => some c.powerRegions
    | 3 => some c.tempRegions.length
    | 4 => some (if c.inrushGate then c.clusters else 0)
    | _ => none
  | 0x2600 => if s = 1 then some (if trunk then 67108864 else 262144) else none
  | 0x2930 | 0x2931 => if s = 0 then none else [0, 0, 8192, 4096, 16384, 16384, 4096, 4096, 1024][s]?
  | 0x3100 => if s = 1 then some c.trunkId else none
  | 0x4001 => if s = 1 then some (c.stackBytes / 4) else none
  | 0x4020 =>
    let pages := 52 + 3 * (c.stackBytes / 4 / 2097152) + (c.stackBytes / 4 - 67174400) / 2097152
    if s = 1 then some pages else if s = 2 then some (pages - 32) else none
  | 0xF000 => match s with
    | 2 => some (b2n trunk)
    | 3 => some (unitTypes c).length
    | 5 => some c.taps.length
    | 6 => some (if trunk then 0 else c.traceSources)
    | 7 => some (b2n (c.fieldTest && !trunk))
    | 8 => some (b2n (c.inrushGate && !trunk))
    | _ => none
  | _ =>
    if 0x2200 ≤ i && i ≤ 0x22FE && 1 ≤ s && s ≤ 6 then some (if s = 1 then 0x01 else 0xF0 + (s - 1))
    else if 0x2300 ≤ i && i ≤ 0x23FE && s = 1 then (c.taps[i - 0x2300]?).map (·.slotsPerCycle)
    else if 0x2410 ≤ i && i ≤ 0x244F && s = 4 then c.voltRegions[i - 0x2410]?
    else if 0x24A0 ≤ i && i ≤ 0x24BF && s = 2 then c.tempRegions[i - 0x24A0]?
    else if 0x2510 ≤ i && i ≤ 0x251F && s = 2 then
      some ((c.taps.findIdx? (·.traceSource = i - 0x2510)).getD 0)
    else if 0x2901 ≤ i && i ≤ 0x2906 then match s with
      | 1 | 2 => uplinkQuota[i - 0x2901]?
      | 3 => uplinkWait[i - 0x2901]?
      | 4 => some (b2n (i = 0x2902))
      | _ => none
    else if 0x2909 ≤ i && i ≤ 0x2910 then match s with
      | 1 | 2 => memQuota[i - 0x2909]?
      | 3 => memWait[i - 0x2909]?
      | _ => none
    else if 0x4021 ≤ i && i ≤ 0x4026 then match s with
      | 1 => [20, 5, 0, 5, 5, 0][i - 0x4021]?
      | 2 => [90, 30, 0, 25, 30, 40][i - 0x4021]?
      | 3 => some (if i = 0x4023 then 32 else 0)
      | 4 => some (b2n (i = 0x4023))
      | _ => none
    else if 0x6400 ≤ i && i ≤ 0x64FE then match s with
      | 6 => some 65536000
      | 7 => some 131072000
      | _ => none
    else if 0xF001 ≤ i && i ≤ 0xF0FE then match s with
      | 1 => (unitTypes c)[i - 0xF001]?
      | _ => none
    else none

/-- The default of an object (R29): 0 where no row gives one. -/
def Cfg.default (c : Cfg) (k : Nat) : Nat :=
  match c.special (k / 256) (k % 256) with
  | some v => v
  | none => match c.rowOf (k / 256) (k % 256) with
    | some r => r.dflt
    | none => 0

/-- The entry of a key in a list with rising keys. -/
def lookupKey {α : Type} (k : Nat) : List (Nat × α) → Option α
  | [] => none
  | (j, v) :: l => if j = k then some v else if k < j then none else lookupKey k l

/-- A list with rising keys, with the entry of one key put in or replaced. -/
def insertKey {α : Type} (k : Nat) (v : α) : List (Nat × α) → List (Nat × α)
  | [] => [(k, v)]
  | (j, w) :: l => if j = k then (k, v) :: l else if k < j then (k, v) :: (j, w) :: l else (j, w) :: insertKey k v l

/-- A list with rising keys, without one key. -/
def eraseKey {α : Type} (k : Nat) (l : List (Nat × α)) : List (Nat × α) := l.filter (·.1 != k)

/-- The width in bits of an object's type; 64 where no row names the object. -/
def Cfg.width (c : Cfg) (k : Nat) : Nat :=
  match c.rowOf (k / 256) (k % 256) with
  | some r => 8 * r.ty.size
  | none => 64

/-- The running value of a scalar object, as an unsigned number of its type's width. -/
def Dev.get (d : Dev) (k : Nat) : Nat :=
  match lookupKey k d.objs with
  | some v => v.toNat
  | none => d.cfg.default k

/-- The running value of a signed object. -/
def Dev.getI (d : Dev) (k : Nat) : Int := toSigned (d.cfg.width k) (d.get k)

/-- Is a BOOL object 1 (or any object nonzero)? -/
def Dev.on (d : Dev) (k : Nat) : Bool := d.get k != 0

/-- Give a scalar object a value, modulo 2 to the width of its type. -/
def Dev.set (d : Dev) (k v : Nat) : Dev :=
  { d with objs := insertKey k (BitVec.ofNat 64 (v % 2 ^ d.cfg.width k)) d.objs }

/-- Give a signed object a value. -/
def Dev.setI (d : Dev) (k : Nat) (i : Int) : Dev := d.set k (ofSigned 64 i)

/-- Give a BOOL object a value. -/
def Dev.setB (d : Dev) (k : Nat) (b : Bool) : Dev := d.set k (b2n b)

/-- Return a scalar object to its default. -/
def Dev.clear (d : Dev) (k : Nat) : Dev := { d with objs := eraseKey k d.objs }

/-- Add to a statistic counter. A 64-bit one counts modulo 2^64 (R130); beyond the largest value of another type the spec states
no value: a free value. -/
def Dev.add (d : Dev) (k n : Nat) : Dev :=
  let v := d.get k + n
  if v < 2 ^ d.cfg.width k || d.cfg.width k = 64 then d.set k v else d.set k (Config.counterAfterMax k v).toNat

/-- Count one event in a statistic counter. -/
def Dev.inc (d : Dev) (k : Nat) : Dev := d.add k 1

/-- Add to a counter that the spec reads modulo 2 to its width (R130, and objects described so). -/
def Dev.addMod (d : Dev) (k n : Nat) : Dev := d.set k (d.get k + n)

/-- Count down a gauge that stands above 0. -/
def Dev.dec (d : Dev) (k : Nat) : Dev := d.set k (d.get k - 1)

/-- The bytes of a STR or DOMAIN object, without a DOMAIN's count. -/
def Dev.blob (d : Dev) (k : Nat) : Bytes := (lookupKey k d.blobs).getD []

/-- Give a STR or DOMAIN object its bytes. -/
def Dev.setBlob (d : Dev) (k : Nat) (bs : Bytes) : Dev := { d with blobs := insertKey k bs d.blobs }

/-- Is the unit a trunk? -/
def Dev.isTrunk (d : Dev) : Bool := d.cfg.build = .trunk

/-- FleetTime in ns at the tick at which a command executes. -/
def Dev.now (d : Dev) : Nat := d.time.ns

/-- The stamp of the newest sample tick (R76). -/
def Dev.stamp (d : Dev) : Nat := 8 * d.time.tick

/-- An FT32 of a FleetTime (R110). -/
def ft32 (t : Nat) : Nat := t % 2 ^ 32

/-- Does a latch of a window that starts at `start` with period `p` ns fall in this tick (R9, R96): its T_w has been reached since
the tick before, and the tick repeats no tick number after a backward step? -/
def Dev.latchTick (d : Dev) (start p : Nat) : Bool :=
  !d.time.dead && start ≤ d.stamp && start + p * ((d.stamp - start) / p) > 8 * d.time.since

/-- TIME_UNCERTAIN as the unit reports it (R94). -/
def Dev.uncertain (d : Dev) : Bool := d.on 0x2002_0F

/-- Did TIME_UNCERTAIN hold at a recent stamp (R94)? -/
def Dev.uncertainAt (d : Dev) (t : Nat) : Bool := if t ≥ d.time.uncAt then d.uncertain else !d.uncertain

/-- The unit begins or ceases to report TIME_UNCERTAIN (R94). -/
def Dev.setUncertain (d : Dev) (b : Bool) : Dev :=
  if d.uncertain = b then d
  else Dev.setB { d with time := { d.time with uncAt := d.stamp } } 0x2002_0F b

/-- The unit's own address (R21). -/
def Dev.address (d : Dev) : Nat := d.get 0x1000_06

/-- Has the leaf no leaf ID yet (R21, R22)? -/
def Dev.unassigned (d : Dev) : Bool := (d.address).testBit 21

/-- The Source that the unit puts in its own messages (R21). -/
def Dev.source (d : Dev) : Nat := if d.unassigned then 0x200000 + d.get 0x1100_01 else d.address

/-- Add to a counter of the always-on set (R149), on leaves only. -/
def Dev.always (d : Dev) (sub n : Nat) : Dev := if d.isTrunk then d else d.addMod (key 0x2108 sub) n

/-- Record what the unit puts on a port. -/
def Dev.emit (d : Dev) (o : Out) : Dev := { d with out := d.out ++ [o] }

/-- Record what the unit puts on a line. -/
def Dev.drive (d : Dev) (w : List Wire) : Dev := { d with lines := d.lines ++ w }

/-- Hardware sets bit `b` of the flag register `index` (R147): the bit; and, once in a tick (R148), its saturating set-count at
`index` + 1, the always-on count FlagSets on a leaf, and the note that this tick has set it (R26, R148). -/
def Dev.flag (d : Dev) (index b : Nat) : Dev :=
  let d := d.set (key index 0) (setBit (d.get (key index 0)) b)
  if d.sets.contains (index, b) then d
  else
    let c := key (index + 1) (b + 1)
    let d := d.set c (min 255 (d.get c + 1))
    let d := d.always 0x22 1
    { d with sets := (index, b) :: d.sets }

/-- Hardware sets a flag where a condition holds. -/
def Dev.flagIf (d : Dev) (c : Bool) (index b : Nat) : Dev := if c then d.flag index b else d

/-- Hardware sets bit `b` of the Status object of tap `t` and the same bit of TapFlags (R147). -/
def Dev.tapFlag (d : Dev) (t b : Nat) : Dev :=
  let k := key (0x2300 + t) 0x0B
  let d := d.set k (setBit (d.get k) b)
  let d := if d.sets.contains (0x2300 + t, b) then d
    else Dev.always { d with sets := (0x2300 + t, b) :: d.sets } 0x22 1
  d.flag 0x2101 b

/-- The flag register of a set-count object, none for other indices (R147). -/
def isFlagReg (k : Nat) : Bool :=
  k % 256 = 0 && [0x2006, 0x2101, 0x2401, 0x2503, 0x2606, 0x2709, 0x3002, 0x3108, 0x3207, 0x4002, 0x4102, 0x4203,
    0x4302, 0x4406, 0x4432, 0x1804].contains (k / 256)

/-- A software write of `v` to an RWC object (R25, R26, R81, R148): each bit that is 1 in `v` is cleared unless
hardware has set it in this tick, and its set-count becomes the sets of this tick, 0 or 1. -/
def Dev.clearFlags (d : Dev) (k v : Nat) : Dev :=
  let index := k / 256
  (List.range 32).foldl (fun d b =>
    if v.testBit b then
      let again := d.sets.contains (index, b)
      let d := d.set k (putBit (d.get k) b again)
      if isFlagReg k && (d.cfg.rowOf (index + 1) (b + 1)).isSome then d.set (key (index + 1) (b + 1)) (b2n again) else d
    else d) d

/-- The requesters' record of a result: what completing one result object changes, payload apart. `state` is its
new State (R35). -/
def Dev.completeRes (d : Dev) (index : Nat) (payload : List (Nat × Nat)) : Dev :=
  let d := payload.foldl (fun d (s, v) => d.set (key index s) v) d
  let d := d.set (key index 2) (nextSeq (d.get (key index 2)))
  let d := d.set (key index 3) d.now
  d.set (key index 1) 2

/-- A result object's producer stops (R35): a held result becomes STALE. -/
def Dev.staleRes (d : Dev) (index : Nat) : Dev :=
  d.set (key index 1) (if d.get (key index 2) = 0 then 0 else 3)

/-- A newer result is being computed (R35): a result object becomes PENDING. -/
def Dev.pendRes (d : Dev) (index : Nat) : Dev := d.set (key index 1) 1

/-- Layering stops with a leaf not updated (R618). -/
def Dev.haltLayer (d : Dev) (reason : Nat) : Dev := ((d.set 0x1803_02 5).set 0x1803_06 reason).flag 0x1804 3

/-- Does Layering wait for the leaf of a Stem port to boot (R617)? -/
def Dev.layerAwaits (d : Dev) (port : Nat) : Bool :=
  d.get 0x1803_02 = 3 && d.get 0x1803_03 = port && d.tk.layer.phase = .booting

/-- Does the trunk run no analysis work: after a thermal trip (R643), or without SPRIG_RUNTIME or ENGINE_MICROCODE
(R600)? -/
def Dev.noAnalysis (d : Dev) : Bool := d.tk.tripped || d.get 0x1813_04 != 0 || d.get 0x1814_04 != 0

/-- Is the unit in Quickset mode (R610)? -/
def Dev.quickset (d : Dev) : Bool := d.get 0x1801_01 = 1

/-- Is a power-fail warning active (R176)? -/
def Dev.pfActive (d : Dev) : Bool := d.on 0x2407_01

end Sys2Proof.Machine
end

