-- ==== Sys2Proof/Machine/Route.lean ====
section
/-! DEFINITION. The violation log (R66, R67) and the routes on which a unit sends a message: a leaf's uplink queue
(R310), a trunk's egress queues, and the torus (R401 to R406, R411 to R414). -/

namespace Sys2Proof.Machine

/-! ### The violation log -/

/-- The 32 bytes of an entry (R67). -/
def violationEntry (time seq source kind code target : Nat) : Bytes :=
  leBytes 8 time ++ leBytes 4 seq ++ leBytes 4 source ++ leBytes 1 kind ++ leBytes 1 code ++ zeros 6 ++ leBytes 8 target

/-- A violation appends an entry to the log and overwrites the oldest where the log is full (R66). -/
def Dev.violation (d : Dev) (source kind code target : Nat) : Dev :=
  let d := d.addMod 0x1F80_01 1
  let seq := d.get 0x1F80_01
  let cap := d.get 0x1F80_05
  let log := d.srv.vlog ++ [violationEntry d.stamp seq source kind code target]
  let log := log.drop (log.length - cap)
  let d := { d with srv := { d.srv with vlog := log } }
  let d := d.set 0x1F80_03 seq
  let d := d.set 0x1F80_02 (natAt (log.headD []) 8 4)
  d.always 0x21 1

/-! ### SDP messages and the Ethernet frames that carry them -/

/-- The bytes of an SDP message (R40). -/
def sdpBytes (r : Resp) : Bytes :=
  leBytes 1 1 ++ leBytes 1 r.opcode ++ leBytes 2 r.txn ++ leBytes 4 r.dest ++ leBytes 4 r.source ++
  leBytes 2 r.index ++ leBytes 1 r.sub ++ leBytes 1 r.flags ++ leBytes 4 r.offset ++ leBytes 2 r.length ++
  leBytes 1 r.abort ++ zeros 1 ++ r.data

/-- Does a unit address name a unit's dictionary: a leaf ID, or a trunk with 0 in [7:0] (R21)? -/
def otherUnit (dest : Nat) : Bool := dest < 2 ^ 20 || (dest < 2 ^ 21 && dest % 256 = 0)

/-- The trunk's MAC address on its service segments (R54). -/
def segmentMac : Nat := 0x025300000000

/-- The MAC address of a drop of a service segment (R54). -/
def dropMac (drop : Nat) : Nat := segmentMac + drop

/-- A unit's own MAC address: a leaf's, a trunk's on its segments (R54), or, from its TrunkID, on its service port (R59). -/
def Dev.mac (d : Dev) (via : Via) : Nat :=
  if via = .servicePort then 0x025301000000 + d.get 0x3100_01 else if d.isTrunk then segmentMac else d.get 0x1100_02

/-- An Ethernet frame with one SDP message: addresses, EtherType (R13), the message, and zeros up to the 64-byte minimum frame
with its 4-byte check sequence (R55). -/
def etherFrame (dst src : Nat) (msg : Bytes) : Bytes :=
  beBytes 6 dst ++ beBytes 6 src ++ beBytes 2 0x88B5 ++ msg ++ zeros (46 - msg.length)

/-- A unit puts an SDP message on a service segment or its service port, in a frame to a MAC address (R54, R55, R59). -/
def Dev.sendEther (d : Dev) (via : Via) (segment dst : Nat) (r : Resp) : Dev :=
  d.drive [.ether via segment (etherFrame dst (d.mac via) (sdpBytes r))]

/-- A trunk sends a request of its own to a drop of one of its service segments (R54). -/
def Dev.sendDrop (d : Dev) (segment drop : Nat) (r : Resp) : Dev :=
  (d.emit (.toDrop segment drop r)).sendEther .service segment (dropMac drop) r

/-- The response to a proxied request goes back to its requester (R58, R59). -/
def Dev.sendProxied (d : Dev) (whom : Origin) (r : Resp) : Dev :=
  let d := d.emit (.proxied whom r)
  match whom with
  | .mac a => d.sendEther .servicePort 0 a r
  | .udp _ _ => d

/-! ### A leaf's uplink queues -/

/-- The uplink sources of R310. -/
inductive USrc where
  | frames | recorder | dictionary | traceDrain | recompute | fieldTest
  deriving DecidableEq, Repr

/-- The number of an uplink source. -/
def USrc.num : USrc → Nat
  | .frames => 0 | .recorder => 1 | .dictionary => 2 | .traceDrain => 3 | .recompute => 4 | .fieldTest => 5

/-- The Stem message class of an uplink source (R356). -/
def USrc.cls : USrc → Nat
  | .frames => 0x05 | .recorder => 0x01 | .dictionary => 0x03 | .traceDrain => 0x06 | .recompute => 0x07
  | .fieldTest => 0x08

/-- A queue with the head's waiting time started (R314: from the tick at which it first became the head). -/
def markHead (now : Nat) : List Xfer → List Xfer
  | [] => []
  | x :: xs => (if x.headSince.isNone then { x with headSince := some now } else x) :: xs

/-- The queues with one source's queue replaced. -/
def Dev.setQueue (d : Dev) (src : Nat) (q : List Xfer) : Dev :=
  let d := { d with arb := { d.arb with queues := d.arb.queues.set src (markHead d.now q) } }
  d.set (key (0x2901 + src) 6) q.length

/-- The queue of an uplink source. -/
def Dev.queue (d : Dev) (src : Nat) : List Xfer := (d.arb.queues[src]?).getD []

/-- A producer queues a transfer at the end of its source's queue. -/
def Dev.queueUp (d : Dev) (src : USrc) (x : Xfer) : Dev :=
  d.setQueue src.num (d.queue src.num ++ [{ x with cls := src.cls }])

/-! ### A trunk's egress queues -/

/-- The place of an egress port in `FabricSt.egress`. -/
def egressSlot : EgressId → Nat
  | .pleach p => p
  | .stem n => 6 + n

/-- An egress port of a trunk. -/
def Dev.egress (d : Dev) (g : EgressId) : Egress := (d.tk.fab.egress[(egressSlot g)]?).getD {}

/-- A trunk's fabric changed. -/
def Dev.modFab (d : Dev) (f : FabricSt → FabricSt) : Dev := { d with tk := { d.tk with fab := f d.tk.fab } }

/-- An egress port of a trunk changed. -/
def Dev.modEgress (d : Dev) (g : EgressId) (f : Egress → Egress) : Dev :=
  d.modFab fun x => { x with egress := x.egress.modify (egressSlot g) f }

/-- The traffic class of a trunk-to-leaf Stem message class (R356). -/
def stemTraffic : Nat → Nat
  | 0x00 => 0 | 0x02 => 1 | 0x03 => 2 | _ => 3

/-- Is a message of a class in transmission at an egress port? -/
def Dev.inTransmission (d : Dev) (g : EgressId) (cls : Nat) (e : Egress) : Bool :=
  match g with
  | .stem _ => e.line.any (fun m => stemTraffic m.stemCls = cls)
  | .pleach p => [cls, cls + 8].any fun ch =>
      ((d.tk.fab.ports[p]?).bind (fun x => (x.chans[ch]?).bind (·.tx))).isSome

/-- Queue a message in a class of an egress port (R325), noting whether the class held none (R327). -/
def Dev.pushEgress (d : Dev) (g : EgressId) (cls : Nat) (m : EMsg) : Dev :=
  d.modEgress g fun e =>
    let q := (e.queues[cls]?).getD []
    let m := { m with newly := q.isEmpty && !d.inTransmission g cls e, arr := e.arrived, tag := none }
    { e with queues := e.queues.set cls (q ++ [m]), arrived := e.arrived + 1 }

/-- The object index of a Stem end: a leaf's port, or a trunk's port n (R348). -/
def stemIndex : StemId → Nat
  | .leaf _ => 0x3001
  | .trunk n => 0x6500 + n

/-- Is a trunk's Stem port UP? -/
def Dev.stemUp (d : Dev) (n : Nat) : Bool := d.get (key (0x6500 + n) 2) = 4

/-- A trunk queues a message of a class for the leaf of Stem port `n` (R325, R356). -/
def Dev.toLeaf (d : Dev) (n cls : Nat) (bytes : Bytes) : Dev :=
  d.pushEgress (.stem n) (stemTraffic cls) { len := bytes.length, stemCls := cls, bytes := bytes }

/-! ### The torus -/

/-- The coordinate of a trunk ID in dimension 0 (x), 1 (y) or 2 (z) (R375). -/
def coord (id dim : Nat) : Nat := field id (11 - 4 * dim) (8 - 4 * dim)

/-- The size of a dimension. -/
def Dev.torusSize (d : Dev) (dim : Nat) : Nat := d.get (key 0x3100 (2 + dim))

/-- The neighbour at port `p` (R376). -/
def Dev.neighbour (d : Dev) (p : Nat) : Nat :=
  let id := d.get 0x3100_01
  let dim := p / 2
  let n := d.torusSize dim
  let c := coord id dim
  let c' := if p % 2 = 0 then (c + 1) % n else (c + n - 1) % n
  id - c * 2 ^ (8 - 4 * dim) + c' * 2 ^ (8 - 4 * dim)

/-- Does every coordinate of a trunk ID lie inside the torus? -/
def Dev.inTorus (d : Dev) (id : Nat) : Bool := (List.range 3).all fun k => coord id k < d.torusSize k

/-- The egress port towards a trunk by dimension order, none for the trunk itself (R402). -/
def Dev.routePort (d : Dev) (dest : Nat) : Option Nat :=
  let own := d.get 0x3100_01
  match (List.range 3).find? (fun k => coord own k != coord dest k) with
  | none => none
  | some k =>
    let n := d.torusSize k
    let diff := (coord dest k + n - coord own k) % n
    some (if diff ≤ n - diff then 2 * k else 2 * k + 1)

/-- The virtual channel on which a message leaves port `p`: VC 0 from its source and from each turn, VC 1 from the
hop that crosses the dateline (R403). `inp` is the port on which it came, none at its source. -/
def Dev.routeVc (d : Dev) (inp : Option Nat) (vc p : Nat) : Nat :=
  let k := p / 2
  let own := coord (d.get 0x3100_01) k
  let kept := match inp with
    | some q => if q / 2 = k then vc else 0
    | none => 0
  let crosses := if p % 2 = 0 then own = d.torusSize k - 1 else own = 0
  if crosses then 1 else kept

/-- Does the 256-bit map of a fence object admit a partition? Partition 0 passes every fence (R411). -/
def Dev.admits (d : Dev) (index p : Nat) : Bool := p = 0 || (d.get (key index (1 + p / 32))).testBit (p % 32)

/-- Is a Pleach port UP? -/
def Dev.portUp (d : Dev) (p : Nat) : Bool := d.get (key (0x3101 + p) 2) = 4

/-- The codes of a fence violation (R413). -/
inductive Fence where
  | egress | ingress | local | stemDelivery | stemFrame
  deriving DecidableEq, Repr

/-- The code of a fence violation (R413). -/
def Fence.code : Fence → Nat
  | .egress => 1 | .ingress => 2 | .local => 3 | .stemDelivery => 4 | .stemFrame => 5

/-- The Target of a fence violation's entry (R413). -/
def fenceTarget (kind source dest port partition : Nat) : Nat :=
  partition + port * 2 ^ 8 + dest * 2 ^ 24 + source * 2 ^ 36 + kind * 2 ^ 48

/-- Log a fence violation (R413). -/
def Dev.fenceLog (d : Dev) (f : Fence) (source target : Nat) : Dev :=
  let d := d.violation source 0x03 f.code target
  let d := d.inc 0x3128_01
  d.flag 0x3108 5

/-- The length of a Pleach message on the link (R397). -/
def linkLen (m : PMsg) : Nat := 16 + m.payload.length + 4

/-- A message is unroutable (R406). -/
def Dev.unroutable (d : Dev) : Dev := (d.inc 0x310A_04).flag 0x3108 6

/-- Queue a message for an egress port of the torus; a DIRECT one travels on VC 0 (R404). -/
def Dev.pushPort (d : Dev) (inp : Option (Nat × Nat × Nat)) (vc p : Nat) (m : PMsg) : Dev :=
  d.pushEgress (.pleach p) m.cls
    { len := linkLen m, vc := if m.direct then 0 else d.routeVc (inp.map (·.1)) vc p, inp := inp
      pm := some { m with source := m.source % 2 ^ 12, hops := (m.hops + 1) % 256 } }

/-- A trunk sends a message of Partition 0, which passes every fence (R411). -/
def Dev.sendFree (d : Dev) (m : PMsg) : Dev :=
  let d := d.inc 0x310A_03
  if !d.inTorus m.dest then d.unroutable
  else match d.routePort m.dest with
    | some p => if d.portUp p then d.pushPort none 0 p { m with partition := 0 } else d.unroutable
    | none => d.unroutable

/-- A FENCE_NOTICE (R414). -/
def noticeMsg (own dest count : Nat) (entry : Bytes) : PMsg :=
  { kind := 0x0C, cls := 2, dest := dest, source := own, payload := leBytes 4 count ++ zeros 4 ++ bytesAt entry 0 32 }

/-- A notice owed to a Source trunk is sent, or counted into a later one (R414): at most one per Source and µs. -/
def Dev.owe (d : Dev) (source : Nat) (entry : Bytes) : Dev :=
  let own := d.get 0x3100_01
  if source = own then d.emit (.notice 1 entry)
  else
    let old := (d.tk.fab.notices.find? (·.source = source)).getD ⟨source, 0, [], none⟩
    let rest := d.tk.fab.notices.filter (·.source != source)
    let put (d : Dev) (x : NoticeSt) : Dev := d.modFab fun f => { f with notices := rest ++ [x] }
    if old.sentAt.any (d.now < · + 1000) then
      (put d { old with count := old.count + 1, entry := entry }).inc 0x3128_03
    else
      ((put d ⟨source, 0, entry, some d.now⟩).inc 0x3128_02).sendFree (noticeMsg own source (old.count + 1) entry)

/-- Notices that were held back are sent once their µs has passed (R414). -/
def Dev.tickNotices (d : Dev) : Dev :=
  let own := d.get 0x3100_01
  let due (x : NoticeSt) : Bool := x.count != 0 && !x.sentAt.any (d.now < · + 1000)
  let send (d : Dev) (x : NoticeSt) : Dev := (d.inc 0x3128_02).sendFree (noticeMsg own x.source x.count x.entry)
  let d' := (d.tk.fab.notices.filter due).foldl send d
  let sent (x : NoticeSt) : NoticeSt := if due x then { x with count := 0, sentAt := some d.now } else x
  d'.modFab fun f => { f with notices := f.notices.map sent }

/-- The response FENCED to an SDP request (R57, R414), Dest and Source swapped. -/
def fencedBytes (req : Bytes) : Bytes :=
  leBytes 1 1 ++ leBytes 1 (natAt req 1 1 + 0x80) ++ bytesAt req 2 2 ++ bytesAt req 8 4 ++ bytesAt req 4 4 ++
  bytesAt req 12 3 ++ zeros 1 ++ bytesAt req 16 4 ++ zeros 2 ++ leBytes 1 0x08 ++ zeros 1

/-- The fields of a response that its bytes spell. -/
def respFrom (bs : Bytes) : Resp :=
  { opcode := natAt bs 1 1, txn := natAt bs 2 2, dest := natAt bs 4 4, source := natAt bs 8 4, index := natAt bs 12 2
    sub := natAt bs 14 1, flags := natAt bs 15 1, offset := natAt bs 16 4, length := natAt bs 20 2
    abort := natAt bs 22 1, data := bs.drop 24 }

/-- A trunk ID of a unit address: bits [19:8] (R401). -/
def addrTrunk (a : Nat) : Nat := field a 19 8

/-- A response of the trunk's reaches the unit that asked: a leaf of its own, a proxied requester (R58), or, over
Pleach, another trunk, in Partition 0 (R414). -/
def Dev.answerSdp (d : Dev) (bs : Bytes) : Dev :=
  let r := respFrom bs
  let own := d.get 0x3100_01
  if addrTrunk r.dest != own then
    d.sendFree { kind := 0x01, cls := 2, dest := addrTrunk r.dest, source := own, payload := bs }
  else if !r.dest.testBit 20 then d.toLeaf (r.dest % 256) 0x03 bs
  else match d.srv.slots.find? (fun x => x.slot = r.dest % 256 && x.txn = r.txn) with
    | some x =>
      let d := { d with srv := { d.srv with slots := d.srv.slots.filter (·.slot != x.slot) } }
      d.sendProxied x.origin { r with dest := x.source }
    | none => { d with srv := { d.srv with received := [r] } }

/-- A Pleach message that fails a fence is discarded (R413), and the violation answered (R414). -/
def Dev.fenced (d : Dev) (f : Fence) (port : Nat) (m : PMsg) : Dev :=
  let d := d.fenceLog f (0x100000 + m.source * 256) (fenceTarget m.kind m.source m.dest port m.partition)
  if m.kind = 0x01 && natAt m.payload 1 1 < 0x80 then d.answerSdp (fencedBytes m.payload)
  else d.owe m.source ((d.srv.vlog.getLast?).getD [])

/-- Queue a message for an egress port of the torus after the checks of R406 and R412 EGRESS. -/
def Dev.sendPort (d : Dev) (inp : Option (Nat × Nat × Nat)) (vc p : Nat) (m : PMsg) : Dev :=
  if !d.portUp p then d.unroutable
  else if !d.admits (0x3120 + p) m.partition then d.fenced .egress p m
  else d.pushPort inp vc p m

/-- A trunk originates a UNICAST message to another trunk (R402, R403, R406). -/
def Dev.originate (d : Dev) (m : PMsg) : Dev :=
  let d := d.inc 0x310A_03
  if !d.inTorus m.dest then d.unroutable
  else match d.routePort m.dest with
    | some p => d.sendPort none 0 p m
    | none => d.unroutable

/-- A trunk originates a DIRECT message on a port it names (R404). -/
def Dev.originateDirect (d : Dev) (p : Nat) (m : PMsg) : Dev :=
  (d.inc 0x310A_03).sendPort none 0 p { m with direct := true }

/-- The Pleach message that carries an SDP message (R397, R401). -/
def sdpPMsg (own dest partition : Nat) (bytes : Bytes) : PMsg :=
  { kind := 0x01, cls := 2, dest := dest, source := own, partition := partition, payload := bytes }

/-- The partition of a Stem port (R411). -/
def Dev.stemPartition (d : Dev) (n : Nat) : Nat := natAt (d.blob 0x3127_00) n 1

/-- A trunk passes an SDP message to a leaf of its own, unless the port's partition bars it (R412 STEM_DELIVERY). -/
def Dev.toLeafSdp (d : Dev) (source partition : Nat) (bs : Bytes) : Dev :=
  let dest := natAt bs 4 4
  let n := dest % 256
  if partition != 0 && d.stemPartition n != partition then
    d.fenced .stemDelivery n (sdpPMsg source (addrTrunk dest) partition bs)
  else d.toLeaf n 0x03 bs

/-- A trunk sends an SDP message in-band towards a unit address, in a partition: over Stem to a leaf of its own, past the port's
fence (R57, R412), over Pleach to any other trunk or leaf (R56). -/
def Dev.sendSdp (d : Dev) (dest partition : Nat) (bytes : Bytes) : Dev :=
  let own := d.get 0x3100_01
  if addrTrunk dest = own then
    if dest.testBit 20 then d else d.toLeafSdp own partition bytes
  else d.originate (sdpPMsg own (addrTrunk dest) partition bytes)

/-- A unit sends an SDP message in-band: a leaf through its DICTIONARY queue, a trunk towards its Dest. -/
def Dev.sendInband (d : Dev) (dest : Nat) (bytes : Bytes) : Dev :=
  if d.isTrunk then d.sendSdp dest 0 bytes
  else d.queueUp .dictionary { cls := 0x03, bytes := bytes }

end Sys2Proof.Machine
end

