-- ==== Sys2Proof/Machine/Phy.lean ====
section
/-! DEFINITION. The coding of the links: the scrambler of Clause 49, a Stem link's blocks and slots (R343 to R347), the
RS(544,514) code and the codewords of a Pleach port (R378 to R381), and the layouts of flits and time messages (R89, R384). -/

namespace Sys2Proof.Machine

open Sys2Proof

/-! ### The scrambler x^58 + x^39 + 1 -/

/-- One bit through the scrambler: its new state, with the scrambled bit in bit 0. -/
def scrambleBit (s : BitVec 58) (b : Bool) : BitVec 58 :=
  (s <<< 1) ||| BitVec.ofNat 58 (b2n ((b != s.getLsbD 38) != s.getLsbD 57))

/-- One byte through the scrambler, bit 0 first. -/
def scrambleByte (s : BitVec 58) (x : Byte) : BitVec 58 × Byte :=
  (List.range 8).foldl (fun (r : BitVec 58 × Byte) i =>
    let s := scrambleBit r.1 (x.getLsbD i)
    (s, r.2 ||| (BitVec.ofNat 8 (b2n (s.getLsbD 0)) <<< i))) (s, 0)

/-- A string through the scrambler, byte 0 first. -/
def scramble : BitVec 58 → Bytes → BitVec 58 × Bytes
  | s, [] => (s, [])
  | s, x :: xs =>
    let r := scrambleByte s x
    let q := scramble r.1 xs
    (q.1, r.2 :: q.2)

/-! ### Blocks of a Stem link -/

/-- The 66 bits of a block on the wire, bit 0 first (log 97): the sync header, 01 for data and 10 for control, then the
scrambled payload. -/
def blockBits (control : Bool) (payload : Bytes) : BitVec 66 :=
  BitVec.ofNat 66 ((if control then 1 else 2) + 4 * natAt payload 0 8)

/-- A control block: its type and the bytes after it (R346). -/
def controlBlock (type : Nat) (bytes : Bytes) : Block :=
  { control := true, bytes := bytesAt (leBytes 1 type ++ bytes) 0 8 }

/-- What the sender puts in its next slot, with the sender after it: an ALIGN block in every pair of slots whose first number is
a multiple of 16,384 (R345); else the block that waits, but the START of a time message only in an even slot (R369); else IDLE. -/
def StemLine.next (x : StemLine) : Block × StemLine :=
  let idle : Block := controlBlock 0x1E []
  if x.slot % 16384 < 2 then
    (controlBlock 0x4B (leBytes 1 (x.slot % 2) ++ leBytes 2 x.markers),
      { x with markers := if x.slot % 2 = 1 then (x.markers + 1) % 65536 else x.markers })
  else match x.queue with
  | b :: rest => if b.timed && b.control && natAt b.bytes 0 1 = 0x78 && x.slot % 2 = 1 then (idle, x) else (b, { x with queue := rest })
  | [] => (idle, x)

/-- One slot passes: the block goes out on lane n mod 2, its payload scrambled (R343, R344). -/
def StemLine.send (e : StemId) (x : StemLine) : StemLine × Wire :=
  let (b, x) := x.next
  let lane := x.slot % 2
  let (s, payload) := scramble (x.scr.getD lane 0) (bytesAt b.bytes 0 8)
  ({ x with slot := x.slot + 1, scr := x.scr.set lane s }, .stem e lane (blockBits b.control payload))

/-- A number of slots pass. -/
def StemLine.slots (e : StemId) : (n : Nat) → StemLine → StemLine × List Wire
  | 0, x => (x, [])
  | n + 1, x =>
    let r := x.send e
    let q := StemLine.slots e n r.1
    (q.1, r.2 :: q.2)

/-- A sample tick of 8 ns passes on the line: a slot lasts 33/32 ns (R344). -/
def StemLine.tick (e : StemId) (x : StemLine) : StemLine × List Wire :=
  StemLine.slots e ((x.due + 256) / 33) { x with due := (x.due + 256) % 33 }

/-- The link is up: slots are numbered from 0 anew, on lane 0 (R344; log 105); an IDLE fills a slot of lane 1 before it. -/
def StemLine.renumber (e : StemId) (x : StemLine) : StemLine × List Wire :=
  let r := StemLine.slots e (x.slot % 2) x
  ({ r.1 with slot := 0 }, r.2)

/-- The blocks of the frame in flight that have not left are dropped (R355). -/
def StemLine.cut (x : StemLine) : StemLine := { x with queue := x.queue.filter (!·.framed) }

/-- At a reset every link frame's blocks are dropped (R371). -/
def StemLine.drop (x : StemLine) : StemLine := { x with queue := x.queue.filter fun b => !b.framed && !b.timed }

/-- Is a block one that link frames do not hold? -/
def Block.free (b : Block) : Bool := !b.framed && !b.timed

/-- A block goes out at the next slot, after others that do. -/
def StemLine.insert (x : StemLine) (b : Block) : StemLine :=
  { x with queue := x.queue.takeWhile Block.free ++ b :: x.queue.dropWhile Block.free }

/-- Is a block the START of a link frame, or its END? -/
def Block.is (b : Block) (type : Nat) : Bool := b.control && !b.free && natAt b.bytes 0 1 = type

/-- A time message's link frame goes out at the next link-frame boundary, ahead of the frames that wait (R369). -/
def StemLine.insertFrame (x : StemLine) (l : List Block) : StemLine :=
  let open_ := (x.queue.find? (!·.free)).any (!·.is 0x78)
  let rest := x.queue.dropWhile (!·.is 0x87)
  if open_ then { x with queue := x.queue.takeWhile (!·.is 0x87) ++ rest.take 1 ++ l ++ rest.drop 1 }
  else { x with queue := x.queue.takeWhile Block.free ++ l ++ x.queue.dropWhile Block.free }

/-- The flags byte of a START (R352). -/
def startFlags (h : LinkStart) : Nat := b2n h.first + 2 * b2n h.unseq + 4 * b2n h.yellow

/-- Bytes 1 to 7 of a START block (R352). -/
def startBytes (h : LinkStart) : Bytes :=
  leBytes 1 h.seq ++ leBytes 1 h.cls ++ leBytes 1 (startFlags h) ++ leBytes 2 h.length ++ leBytes 1 h.aux ++ zeros 1

/-- The payload of a link frame, padded with zeros to a multiple of 8 bytes (R353). -/
def padded (data : Bytes) : Bytes := bytesAt data 0 (alignUp data.length 8)

/-- The CRC of a link frame (R353): over START bytes 1 to 7 and the padded data. -/
def linkCrc (h : LinkStart) (data : Bytes) : Nat := crc32c (startBytes h ++ padded data)

/-- The blocks of a link frame: START, data, END (R352). -/
def frameBlocks (h : LinkStart) (data : Bytes) : List Block :=
  let mark (b : Block) : Block := { b with framed := !h.unseq, timed := h.unseq }
  let pad := padded data
  let body := (List.range (pad.length / 8)).map fun i => ({ control := false, bytes := bytesAt pad (8 * i) 8 } : Block)
  (controlBlock 0x78 (startBytes h) :: body ++ [controlBlock 0x87 (leBytes 4 (linkCrc h data))]).map mark

/-! ### Ends of Stem links -/

/-- Is the end one of the self-leaf's internal path, without lanes and block coding (R351)? -/
def selfPath : StemId → Bool
  | .leaf .self => true
  | .leaf .host => false
  | .trunk n => n = 255

/-- Is it an end that exists? -/
def StemId.ok : StemId → Bool
  | .leaf _ => true
  | .trunk n => n < 256

/-- An object of an end. -/
def stemKey (e : StemId) (sub : Nat) : Nat := key (stemIndex e) sub

/-- An end of a Stem link. -/
def Dev.stemAt (d : Dev) : StemId → StemEnd
  | .leaf _ => d.stem
  | .trunk n => (d.tk.fab.stems[n]?).getD {}

/-- An end of a Stem link changed. -/
def Dev.modStem (d : Dev) (e : StemId) (f : StemEnd → StemEnd) : Dev :=
  match e with
  | .leaf _ => { d with stem := f d.stem }
  | .trunk n => d.modFab fun x => { x with stems := x.stems.modify n f }

/-- The sender of an end changed. -/
def Dev.modLine (d : Dev) (e : StemId) (f : StemLine → StemLine) : Dev :=
  if selfPath e then d else d.modStem e fun x => { x with line := f x.line }

/-- The sender of an end moves on and puts blocks on its lanes. -/
def Dev.runLine (d : Dev) (e : StemId) (f : StemLine → StemLine × List Wire) : Dev :=
  if selfPath e then d
  else
    let r := f (d.stemAt e).line
    (d.modStem e fun x => { x with line := r.1 }).drive r.2

/-- A control block that may stand among the data blocks of a frame is sent next: ACK, CREDIT, or the ABORT of a cut (R347,
R355). -/
def Dev.sendBlock (d : Dev) (e : StemId) (type : Nat) (bytes : Bytes) : Dev :=
  (d.emit (.block e type bytes)).modLine e (·.insert (controlBlock type bytes))

/-- A control block that stands outside frames is sent after what waits: HELLO, RESET. -/
def Dev.appendBlock (d : Dev) (e : StemId) (type : Nat) (bytes : Bytes) : Dev :=
  (d.emit (.block e type bytes)).modLine e fun x => { x with queue := x.queue ++ [controlBlock type bytes] }

/-- A link frame is sent (R352, R353). -/
def Dev.putFrame (d : Dev) (e : StemId) (h : LinkStart) (data : Bytes) : Dev :=
  (d.emit (.linkFrame e { head := h, data := data } (linkCrc h data))).modLine e fun x =>
    { x with queue := x.queue ++ frameBlocks h data }

/-- A time message's link frame is sent (R369). -/
def Dev.putTime (d : Dev) (e : StemId) (h : LinkStart) (data : Bytes) : Dev :=
  (d.emit (.linkFrame e { head := h, data := data } (linkCrc h data))).modLine e (·.insertFrame (frameBlocks h data))

/-- The ABORT block that ends a cut link frame (R355): it uses no Seq and no credit. A replayed frame is not cut. -/
def Dev.abortAt (d : Dev) (e : StemId) : Dev :=
  match (d.stemAt e).sending with
  | some (_, true) =>
    ((((d.modStem e fun x => { x with sending := none }).modLine e StemLine.cut).inc (stemKey e 0x0C))).sendBlock e 0x99 []
  | _ => d

/-! ### Time messages (R89) -/

/-- A link timestamp's 12 bytes less its Seq: ns and fraction. -/
def stampBytes (t : Stamp) : Bytes := leBytes 8 t.ns ++ leBytes 2 t.frac

/-- The 36-byte payload of a time message (R89). -/
def TimeMsg.bytes (m : TimeMsg) : Bytes :=
  leBytes 2 m.seq ++
  leBytes 1 (b2n m.sourceValid + 2 * b2n m.uncertain + 4 * b2n m.host + 8 * b2n m.prevValid + 16 * b2n m.peerValid) ++
  leBytes 1 m.hops ++ leBytes 2 (m.sourceId % 4096) ++ leBytes 1 m.sourcePriority ++ zeros 1 ++ leBytes 4 m.sourceSeq ++
  stampBytes m.prevTx ++ leBytes 2 m.prevTxSeq ++ stampBytes m.peerRx ++ leBytes 2 m.peerRxSeq

/-- The time message that a payload spells (R89). -/
def readTime (bs : Bytes) : TimeMsg :=
  let flag (i : Nat) : Bool := (natAt bs 2 1).testBit i
  { seq := natAt bs 0 2, sourceValid := flag 0, uncertain := flag 1, host := flag 2, prevValid := flag 3, peerValid := flag 4
    hops := natAt bs 3 1, sourceId := natAt bs 4 2 % 4096, sourcePriority := natAt bs 6 1, sourceSeq := natAt bs 8 4
    prevTx := ⟨natAt bs 12 8, natAt bs 20 2⟩, prevTxSeq := natAt bs 22 2
    peerRx := ⟨natAt bs 24 8, natAt bs 32 2⟩, peerRxSeq := natAt bs 34 2 }

/-! ### The RS(544,514) code (R378) -/

/-- A product in GF(2^10), whose field polynomial in Clause 91 is x^10 + x^3 + 1. -/
def gfMul (a b : BitVec 10) : BitVec 10 :=
  let double (x : BitVec 10) : BitVec 10 := if x.getLsbD 9 then (x <<< 1) ^^^ 0x009#10 else x <<< 1
  ((List.range 10).foldl (fun (r : BitVec 10 × BitVec 10) i =>
    (if b.getLsbD i then r.1 ^^^ r.2 else r.1, double r.2)) (0, a)).1

/-- A polynomial with coefficients in the field, lowest first, times x - r. -/
def mulRoot (r : BitVec 10) (p : List (BitVec 10)) : List (BitVec 10) :=
  List.zipWith (· ^^^ ·) (0 :: p) (p.map (gfMul r) ++ [0])

/-- The generator polynomial: the product of x - α^j for j from 0 to 29, lowest coefficient first. -/
def rsGenerator : List (BitVec 10) :=
  ((List.range 30).foldl (fun (r : BitVec 10 × List (BitVec 10)) _ => (gfMul r.1 2, mulRoot r.1 r.2)) (1, [1])).2

/-- The 30 parity symbols of a message, in the order sent: the remainder of the message times x^30 by the generator. -/
def rsParity (msg : List (BitVec 10)) : List (BitVec 10) :=
  let g := rsGenerator.take 30
  (msg.foldl (fun (r : List (BitVec 10)) m =>
    let f := m ^^^ r.getD 29 0
    List.zipWith (· ^^^ ·) (0 :: r.take 29) (g.map (gfMul f))) (List.replicate 30 0)).reverse

/-- The 544 symbols of a codeword in the order sent (R378, R379; log 97): the 20 tag bits and then 640 bytes, ten bits to a
symbol, least significant first; then the parity. -/
def codewordSymbols (tag : Nat) (body : Bytes) : List (BitVec 10) :=
  let bits := tag % 2 ^ 20 + 2 ^ 20 * natAt body 0 640
  let msg := (List.range 514).map fun i => BitVec.ofNat 10 (bits / 2 ^ (10 * i))
  msg ++ rsParity msg

/-- The symbols on each lane: symbol i travels on lane i mod 8 (R379). -/
def laneSymbols (l : List (BitVec 10)) : List (List (BitVec 10)) :=
  (List.range 8).map fun k => (List.range 68).map fun i => l.getD (8 * i + k) 0

/-- The tag of a codeword (R379): type 0x5 FLIT or 0xA ALIGN, and AlignCount. -/
def codewordTag (align : Bool) (count : Nat) : Nat := (if align then 0xA else 0x5) + 16 * (count % 4096)

/-- The 640 bytes of an ALIGN codeword (R381). -/
def alignBody : Bytes := (List.replicate 80 ([0xA5, 0x5A, 0xC3, 0x3C, 0x96, 0x69, 0x0F, 0xF0] : Bytes)).flatten

/-! ### Flits (R384) -/

/-- Bytes 0 to 635 of a flit (R384). -/
def Flit.front (f : Flit) : Bytes :=
  leBytes 1 f.kind ++ leBytes 1 (f.channel % 16) ++ leBytes 2 (f.seq % 4096) ++
  leBytes 2 (f.ack % 4096 + 4096 * b2n f.nak + 8192 * b2n f.ackValid) ++
  leBytes 1 (f.creditChannel % 16 + 16 * b2n f.creditValid) ++ leBytes 3 f.creditLimit ++ leBytes 2 (f.fill % 2048) ++
  bytesAt (f.body.take f.fill) 0 624

/-- The 640 bytes of a flit (R384). -/
def Flit.bytes (f : Flit) : Bytes := f.front ++ leBytes 4 (crc32c f.front)

/-- The flit that 640 bytes spell (R384). -/
def readFlit (bs : Bytes) : Flit :=
  let ack := natAt bs 4 2
  let credit := natAt bs 6 1
  let fill := natAt bs 10 2 % 2048
  { kind := natAt bs 0 1, channel := natAt bs 1 1 % 16, seq := natAt bs 2 2 % 4096, ack := ack % 4096, nak := ack.testBit 12
    ackValid := ack.testBit 13, creditChannel := credit % 16, creditValid := credit.testBit 4, creditLimit := natAt bs 7 3
    fill := fill, body := bytesAt bs 12 (min fill 624), crcOk := crc32c (bytesAt bs 0 636) = natAt bs 636 4 }

/-- The body of a HELLO flit (R387). -/
def PleachHello.bytes (h : PleachHello) : Bytes :=
  leBytes 2 h.trunkId ++ leBytes 1 h.port ++ leBytes 1 h.level ++ leBytes 1 h.sizeX ++ leBytes 1 h.sizeY ++ leBytes 1 h.sizeZ ++
  leBytes 1 (b2n h.accept)

/-- The HELLO that a flit's body spells (R387). -/
def readHello (bs : Bytes) : PleachHello :=
  { trunkId := natAt bs 0 2, port := natAt bs 2 1, level := natAt bs 3 1, sizeX := natAt bs 4 1, sizeY := natAt bs 5 1
    sizeZ := natAt bs 6 1, accept := (natAt bs 7 1).testBit 0 }

end Sys2Proof.Machine
end

