-- ==== Sys2Proof/Machine/Flash.lean ====
section
/-! DEFINITION. The image store of a trunk's board flash (R595, R596): slots as sectors of 65,536 bytes, image headers, and
what the dictionary shows of them. -/

namespace Sys2Proof.Machine

open Sys2Proof

/-- The largest body of an image type in bytes (R595). -/
def bodyMax : Nat → Nat
  | 1 => 196608 | 2 => 6291456 | 3 => 4194304 | 4 => 2097152 | 5 => 49184 | _ => 0

/-- The slot of an image type in bytes (R595). -/
def slotSize : Nat → Nat
  | 1 => 262144 | 2 => 8388608 | 3 => 8388608 | 4 => 4194304 | 5 => 65536 | _ => 0

/-- A sector of a slot; what has not been programmed reads as erased flash (log 28). -/
def sectorOf (l : List (Nat × Bytes)) (k : Nat) : Bytes :=
  let b := ((lookupKey k l).getD []).take 65536
  b ++ List.replicate (65536 - b.length) 0xFF

/-- `n` bytes of a slot from its start. -/
def slotBytes (l : List (Nat × Bytes)) (n : Nat) : Bytes :=
  ((List.range ((n + 65535) / 65536)).flatMap (sectorOf l)).take n

/-- The slot of an image type. -/
def Dev.slotOfType (d : Dev) (t : Nat) : List (Nat × Bytes) := (d.tk.flash.slots[t - 1]?).getD []

/-- A sector of a slot is programmed. -/
def Dev.putSector (d : Dev) (t k : Nat) (b : Bytes) : Dev :=
  let slots := d.tk.flash.slots.modify (t - 1) (insertKey k b)
  { d with tk := { d.tk with flash := { d.tk.flash with slots := slots } } }

/-- Has an image the Magic of R596? -/
def magicOk (b : Bytes) : Bool := natAt b 0 4 = 0x474D494B

/-- The version of an image as the dictionary shows it: Major, Minor, Patch (R649). -/
def imageVersion (b : Bytes) : Nat := natAt b 6 1 * 2 ^ 24 + natAt b 7 1 * 2 ^ 16 + natAt b 8 2

/-- The levels of an image as the dictionary shows them: Stem, Pleach, Engine (R649). -/
def imageLevels (b : Bytes) : Nat := natAt b 10 1 + natAt b 11 1 * 2 ^ 8 + natAt b 12 1 * 2 ^ 16

/-- The bytes of a slot that hold its image, none if its Magic is wrong. -/
def Dev.storedImage (d : Dev) (t : Nat) : Bytes :=
  let h := slotBytes (d.slotOfType t) 512
  if magicOk h then slotBytes (d.slotOfType t) (min (slotSize t) (512 + natAt h 20 4)) else []

/-- `StoredVersion` of a slot (0x1810 + t sub 3). -/
def Dev.storedVersion (d : Dev) (t : Nat) : Nat :=
  let h := slotBytes (d.slotOfType t) 512
  if magicOk h then imageVersion h else 0

/-- Is the slot whose `ImageStore` has this index being written (R603)? -/
def Dev.slotBusy (d : Dev) (i : Nat) : Bool :=
  d.isTrunk && d.get 0x1802_05 = 2 && 0x1821 ≤ i && i ≤ 0x1825 && i - 0x1820 = d.get 0x1802_01

end Sys2Proof.Machine
end

