-- ==== Sys2Proof/Machine/Forest.lean ====
section
/-! DEFINITION. Compiled tree models (R519 to R523): leaves as paths, ternary entries, and the search of a tree. -/

namespace Sys2Proof.Machine

/-- The leaves of a tree from a node on, left before right (R520): the branches taken on the way (node, left), and the value. -/
def leavesFrom (nodes : List ThNode) : (fuel n : Nat) → List (Nat × Bool) → List (List (Nat × Bool) × Nat)
  | 0, _, _ => []
  | fuel + 1, n, path =>
    match nodes[n]? with
    | none => []
    | some x =>
      let side (left isLeaf : Bool) (v : Nat) : List (List (Nat × Bool) × Nat) :=
        let p := path ++ [(n, left)]
        if isLeaf then [(p, v)] else leavesFrom nodes fuel v p
      side true x.leftLeaf x.left ++ side false x.rightLeaf x.right

/-- The leaves of a tree in the order in which its entries are written. -/
def ThTree.leaves (t : ThTree) : List (List (Nat × Bool) × Nat) := leavesFrom t.nodes (t.nodes.length + 1) 0 []

/-- The value of a tree under the comparators' bits (R523): the entry whose path every test agrees with. -/
def ThTree.search (t : ThTree) (bits : Nat → Bool) : Option Nat :=
  let bit (n : Nat) : Bool := ((t.nodes[n]?).map fun x => bits x.comp).getD false
  (t.leaves.find? fun l => l.1.all fun s => bit s.1 = s.2).map (·.2)

/-- The Value and Care words of an entry (R520): its trits of value 1, and those that are not X. -/
def entryTrits (slot : Nat) (path : List (Nat × Bool)) : Nat × Nat :=
  let v := path.foldl (fun n s => if s.2 then n + 2 ^ s.1 else n) 0
  let c := path.foldl (fun n s => n + 2 ^ s.1) 0
  (v + slot * 2 ^ 256, c + (2 ^ 32 - 1) * 2 ^ 256)

/-- The 76 bytes of `EntryDump` for an entry address (R522): an unused entry reads as zero. -/
def entryDump (ms : List ThModel) (addr : Nat) : Bytes :=
  let found := ms.findSome? fun m => (m.trees.zipIdx).findSome? fun (t, j) =>
    ((t.addrs.zip t.leaves).find? (·.1 = addr)).map fun x => (m.first + j, x.2)
  match found with
  | some (slot, path, v) =>
    let (a, c) := entryTrits slot path
    leBytes 36 a ++ leBytes 36 c ++ leBytes 4 v
  | none => zeros 76

end Sys2Proof.Machine
end

