-- ==== Sys2Proof/Machine/View.lean ====
section
/-! DEFINITION. What a read of an object returns where the value is computed from the state: gauges, logs, the
counter windows (R132), the Topiary table (R69 to R71), and whole-object copies (R42, R44). -/

namespace Sys2Proof.Machine

/-! ### Taps and regions -/

/-- A tap of a leaf. -/
def Dev.tapAt (d : Dev) (t : Nat) : Tap := (d.tap.taps[t]?).getD {}

/-- What is fixed for a tap. -/
def Dev.tapDesc (d : Dev) (t : Nat) : TapDesc := (d.cfg.taps[t]?).getD {}

/-- A clock region of a leaf. -/
def Dev.regionAt (d : Dev) (r : Nat) : Region := (d.tap.regions[r]?).getD {}

/-- The extended value of a counter that includes a scan made now (R131, R132, R134). -/
def Tap.counter (t : Tap) (c : Nat) : Nat :=
  let raw := t.raw.getD c 0
  let last := if t.epoch then 0 else t.last.getD c 0
  (t.ext.getD c 0 + (raw + 2 ^ 40 - last) % 2 ^ 40) % 2 ^ 64

/-- The sum of a counter over all taps. -/
def Dev.sumCounter (d : Dev) (c : Nat) : Nat := (d.tap.taps.foldl (fun n t => n + t.counter c) 0) % 2 ^ 64

/-- The bits of the regions from `lo` on, 32 of them, that satisfy `p`. -/
def regionMap (rs : List Region) (lo : Nat) (p : Region → Bool) : Nat :=
  (List.range 32).foldl (fun n i => if ((rs[lo + i]?).any p) then setBit n i else n) 0

/-- The bytes that a command-log record occupies (R137). -/
def LogRec.size (r : LogRec) : Nat := if r.slots.isSome then 32 else 16

/-- The bytes that the command log holds. -/
def logFill (l : List LogRec) : Nat := l.foldl (fun n r => n + r.size) 0

/-! ### Clusters (R160) -/

/-- The power regions of a cluster, ascending. -/
def Dev.regionsOf (d : Dev) (c : Nat) : List Nat :=
  (List.range d.cfg.powerRegions).filter (fun r => d.get (key (0x2450 + r) 2) = c)

/-- Is the regulator-fault input of a power region asserted? -/
def Dev.faulted (d : Dev) (r : Nat) : Bool := (d.get (key 0x2405 (if r < 32 then 5 else 6))).testBit (r % 32)

/-- Is a power region dark (R169)? -/
def Dev.dark (d : Dev) (r : Nat) : Bool := d.on (key (0x2450 + r) 4)

/-- The load of a cluster (R160). -/
def Dev.load (d : Dev) (c : Nat) : Nat :=
  ((d.regionsOf c).filter (fun r => !d.dark r)).foldl (fun n r => n + d.get (key (0x2450 + r) 1)) 0

/-- The capacity of a cluster (R160). -/
def Dev.capacity (d : Dev) (c : Nat) : Nat :=
  ((d.regionsOf c).filter (fun r => !d.faulted r)).foldl (fun n r => n + d.get (key (0x2450 + r) 3)) 0

/-- The pending stage requests of a cluster, oldest first (R162). -/
def Dev.pendOf (d : Dev) (c : Nat) : List StageReq :=
  d.pow.pend.filter (fun q => d.get (key (0x2450 + q.region) 2) = c)

/-! ### The recorder's bytes (R214, R226, R236) -/

/-- A record's bytes: 16 bytes of header on a leaf, 24 on a trunk, then the payload. -/
def recBytes (trunk : Bool) (r : Rec) : Bytes :=
  leBytes 4 r.seq ++ leBytes 2 r.payload.length ++ leBytes 1 r.kind ++ leBytes 1 r.flags ++ leBytes 8 r.time ++
  (if trunk then leBytes 4 r.origin ++ leBytes 4 r.originSeq else []) ++ r.payload

/-- The bytes that a record occupies. -/
def recSize (trunk : Bool) (r : Rec) : Nat := (if trunk then 24 else 16) + r.payload.length

/-- The byte of the ring at an offset: that of the newest record that covers it; none where nothing has been written. -/
def ringCell (trunk : Bool) (cap : Nat) (recs : List Rec) (o : Nat) : Option Byte :=
  match recs with
  | [] => none
  | r :: rs =>
    let i := (o + cap - r.off) % cap
    if i < recSize trunk r then (recBytes trunk r)[i]? else ringCell trunk cap rs o

/-- The byte that a read of the ring at an offset gives: 0 where nothing has been written. -/
def ringByte (trunk : Bool) (cap : Nat) (recs : List Rec) (o : Nat) : Byte := (ringCell trunk cap recs o).getD 0

/-- The 8 bytes of the ring from an offset, as a number (R226). -/
def ringWord (trunk : Bool) (cap : Nat) (recs : List Rec) (o : Nat) : Nat :=
  leNat ((List.range 8).map (fun i => ringByte trunk cap recs ((o + i) % cap)))

/-- The half that holds the newest valid commit, as found at boot (R241). -/
def Dev.savedHalf (d : Dev) : Option CommitHalf := d.rcd.saved.bind (d.rcd.halves[·]?)

/-- The bytes of a commit whose programming a progress word or the final word attests (R241). -/
def CommitHalf.attested (h : CommitHalf) : Nat :=
  if h.final then h.total else (h.progress.getLast?).getD 0

/-- The first records of a list that lie wholly within a number of bytes. -/
def recsWithin (trunk : Bool) (room : Nat) : List Rec → List Rec
  | [] => []
  | r :: rs => if recSize trunk r ≤ room then r :: recsWithin trunk (room - recSize trunk r) rs else []

/-- The valid records of a commit (R241). -/
def CommitHalf.validRecs (h : CommitHalf) : List Rec := recsWithin true h.attested h.records

/-- The bytes of the valid records, newest first as written (R240). -/
def CommitHalf.bytes (h : CommitHalf) : Bytes := h.validRecs.flatMap (recBytes true)

/-- The number of valid bytes (R241). -/
def CommitHalf.valid (h : CommitHalf) : Nat := h.validRecs.foldl (fun n r => n + recSize true r) 0

/-! ### The Topiary table (R69 to R71) -/

/-- The unit type that an index belongs to: its high byte's range in R19, bulk windows included. -/
def ownerOf (i : Nat) : Nat :=
  match i / 256 with
  | 0x22 | 0x23 | 0x60 => 0x21
  | 0x12 | 0x13 | 0x14 | 0x15 | 0x16 | 0x17 => 0x11
  | 0x61 | 0x62 => 0x27
  | 0x64 => 0x29
  | 0x65 => 0x30
  | 0x33 => 0x32
  | h => h

/-- USER_READ of an object (R151, R253). -/
def userRead (i s : Nat) : Bool :=
  i = 0x2108 || i = 0x2104 || (0x2200 ≤ i && i ≤ 0x22FE) || (0x2300 ≤ i && i ≤ 0x23FE && 1 ≤ s && s ≤ 9)
  || (0x6000 ≤ i && i ≤ 0x60FE) || (0x6100 ≤ i && i ≤ 0x61FE) || i = 0x6200 || (i = 0x2708 && (s = 2 || s = 3))

/-- The indices that a unit type implements while firmware runs, ascending; `QuicksetImage` is not one of them (R611, R619). -/
def Cfg.indicesOf (c : Cfg) (u : Nat) : List Nat :=
  let hs := highBytes.filter (fun h => ownerOf (h * 256) = u)
  let cand := hs.flatMap (fun h => (rowsOf h).filter (·.builds.has c.build)
    |>.flatMap (fun r => (List.range (r.last + 1 - r.first)).map (r.first + ·)))
  (cand.eraseDups).filter fun i => c.hasIndex i && i != 0x1830

/-- The largest length of a value: the type's size, or a STR's or DOMAIN's maximum, which for the logs of R66 and R104, for the
tap table and for a Layout depends on the unit. -/
def Cfg.maxLength (c : Cfg) (i s : Nat) (r : Row) : Nat :=
  match i with
  | 0x1F80 => if s = 4 then 32 * (if c.build = .trunk then 1024 else 64) else r.size
  | 0x2008 => if s = 2 then 16 * (if c.build = .trunk then 64 else 8) else r.size
  | 0xF0FF => 8 * c.taps.length
  | _ =>
    if 0xF001 ≤ i && i ≤ 0xF0FE && s = 5 then
      8 * ((c.indicesOf (((unitTypes c)[i - 0xF001]?).getD 0)).map fun j => (c.subsOf j).length).sum
    else r.size

/-- The MaxLength field of a descriptor (R70). A maximum that 2 bytes cannot hold has no stated value there: a free value
(log 89). -/
def maxLengthField (i s n : Nat) : Nat := if n < 65536 then n else (Config.longMaxLength i s).toNat

/-- The object descriptor of an implemented subindex (R70), with the access code that the object's table gives it; the State,
Seq, CompletedAt and payload of a result object carry RES (log 90). -/
def Cfg.descriptor (c : Cfg) (i s : Nat) (r : Row) : Bytes :=
  leBytes 2 i ++ leBytes 1 s ++ leBytes 1 r.ty.code ++ leBytes 1 r.acc.code ++
  leBytes 1 (b2n r.saved + 2 * b2n (userRead i s)) ++ leBytes 2 (maxLengthField i s (c.maxLength i s r))

/-- The Layout of a unit type (R70). -/
def Cfg.layout (c : Cfg) (u : Nat) : Bytes :=
  (c.indicesOf u).flatMap fun i => (c.subsOf i).flatMap fun s =>
    match c.rowOf i s with
    | some r => c.descriptor i s r
    | none => []

/-- A tap descriptor (R71, R79: TapLatency is 2 for every tap of this design). -/
def tapDescriptor (t : Nat) (x : TapDesc) : Bytes :=
  leBytes 1 t ++ leBytes 1 x.engineType ++ leBytes 1 x.region ++ leBytes 1 2 ++ leBytes 1 x.traceSource ++
  leBytes 1 32 ++ zeros 2

/-- The tap table (0xF0FF). -/
def Cfg.tapTable (c : Cfg) : Bytes := (c.taps.zipIdx).flatMap (fun (x, t) => tapDescriptor t x)

/-- A DOMAIN's value as transferred: its count, then its bytes (R23). -/
def domainBytes (bs : Bytes) : Bytes := leBytes 4 bs.length ++ bs

/-- The CRC of the Topiary table (R69). -/
def Cfg.tableCrc (c : Cfg) : Nat :=
  crc32c ((unitTypes c).flatMap (fun u => domainBytes (c.layout u)) ++ domainBytes c.tapTable)

/-- Is an optional unit absent (R2, R20)? -/
def Cfg.absent (c : Cfg) (u : Nat) : Bool :=
  c.build = .leaf && ((u = 0x25 && c.traceSources = 0) || (u = 0x44 && !c.fieldTest))

/-- The mode object of a unit type, index in [15:0] and subindex in [23:16]; 0 if it has none (R8). -/
def modeObject (u : Nat) : Nat :=
  match u with
  | 0x18 => 0x1800 | 0x20 => 0x2000 | 0x24 => 0x2400 | 0x27 => 0x012700 | 0x28 => 0x2800 | 0x32 => 0x3200
  | 0x40 => 0x4000 | 0x41 => 0x4100 | 0x42 => 0x4200 | 0x43 => 0x4300 | 0x44 => 0x4400 | _ => 0

/-- A subindex of a unit descriptor. -/
def Cfg.unitDescriptor (c : Cfg) (n s : Nat) : Nat :=
  let u := ((unitTypes c)[n]?).getD 0
  match s with
  | 0 => 5
  | 1 => u
  | 2 => b2n (!c.absent u)
  | 3 => (c.indicesOf u).headD (u * 256)
  | 4 => if c.absent u then 0 else modeObject u
  | _ => 0

/-! ### Computed values -/

/-- The FRAMES, RECORDER … source being sent, 0xFF for none (0x2900.03). -/
def Arbiter.current (a : Arbiter) : Nat :=
  match a.sending with
  | some (s, _) => s
  | none => 0xFF

/-- The wait of the head of a queue in ns. -/
def headWait (now : Nat) (q : List Xfer) : Nat :=
  match q.head?.bind (·.headSince) with
  | some t => now - t
  | none => 0

/-- The code of a scheduler state (0x2920 + p, sub 02). -/
def SchedState.code : SchedState → Nat
  | .wfq => 0 | .drrFallback => 1 | .drrForced => 2

/-- Is a schedule an enabled one of class LIVE? -/
def Dev.liveSched (d : Dev) (s : Nat) : Bool := d.on (key (0x2701 + s) 1) && d.get (key (0x2701 + s) 6) = 0

/-- Is a schedule doubled under step 2 of the leaf ladder (R271)? -/
def Dev.doubled (d : Dev) (s : Nat) : Bool :=
  d.frm.ladder.step ≥ 2 && d.liveSched s &&
  (List.range 4).all (fun t => !d.liveSched t || d.get (key (0x2701 + t) 5) ≤ d.get (key (0x2701 + s) 5))

/-- An indirection pair. -/
def Dev.pair (d : Dev) (p : Nat) : Pair := (d.srv.pairs[p]?).getD {}

/-- The Offset, subindex and index of a pair's Select (R64). -/
def selectOf (v : Nat) : Nat × Nat × Nat := (field v 55 24, field v 23 16, field v 15 0)

/-- What a pair's Data reads: 8 bytes at Offset of the latched value, zero beyond Length (R64). -/
def Dev.pairData (d : Dev) (p : Nat) : Nat :=
  natAt ((d.pair p).copy.take (d.get (key (0x1180 + p) 4))) (selectOf (d.get (key (0x1180 + p) 1))).1 8

/-- Values of a leaf's and a trunk's shared chapters that are computed at a read; none where the object's stored
value stands. -/
def Dev.computed (d : Dev) (i s : Nat) : Option Nat :=
  match i with
  | 0x1101 => if s = 4 then some d.srv.subs.length else none
  | 0x1180 | 0x1181 | 0x1182 | 0x1183 => if s = 2 then some (d.pairData (i - 0x1180)) else none
  | 0x1811 | 0x1812 | 0x1813 | 0x1814 | 0x1815 => if s = 3 && d.isTrunk then some (d.storedVersion (i - 0x1810)) else none
  | 0x2001 => match s with
    | 1 => some d.time.ns
    | 2 => some d.time.frac
    | 5 => some (d.time.ns / 8)
    | _ => none
  | 0x2103 => if s = 3 then some (logFill d.tap.log) else none
  | 0x2108 => match s with
    | 0x16 => some (((List.range d.cfg.regionCount).foldl (fun n r => n + d.get (key 0x2111 (r + 1))) 0) % 2 ^ 64)
    | 0x2F => some (d.sumCounter 1)
    | 0x30 => some (d.sumCounter 2)
    | _ => none
  | 0x2112 => match s with
    | 1 => some (regionMap d.tap.regions 0 (·.stopped))
    | 2 => some (regionMap d.tap.regions 32 (·.stopped))
    | 3 => some (regionMap d.tap.regions 0 (·.powered))
    | 4 => some (regionMap d.tap.regions 32 (·.powered))
    | _ => none
  | 0x2501 => if s = 6 then some (d.trc.ring.foldl (fun n p => n + p.bytes.length) 0) else none
  | 0x25A1 =>
    if s = 2 then some ((d.trc.srcs.zipIdx).foldl
      (fun n (x, i) => if x.arm.isSome || x.capture.isSome then setBit n i else n) 0)
    else none
  | 0x2604 =>
    if s = 2 then
      let o := d.get 0x2604_01
      if d.isTrunk && d.get 0x2604_03 = 1 then
        some (match d.savedHalf with
          | some h => natAt h.bytes o 8
          | none => 0)
      else some (ringWord d.isTrunk (d.get 0x2600_01) d.rcd.hist o)
    else none
  | 0x2612 => match s with
    | 1 => some (b2n d.savedHalf.isSome)
    | 2 => some ((d.savedHalf.map (·.start)).getD 0)
    | 3 => some ((d.savedHalf.map (·.valid)).getD 0)
    | 4 => some (b2n ((d.savedHalf.map (·.final)).getD false))
    | _ => none
  | 0x2700 => if s = 6 then some d.frm.ladder.step else none
  | 0x270B => match s with
    | 4 => some d.frm.ladder.sat
    | 5 => some d.frm.ladder.clear
    | _ => none
  | 0x2708 => if s = 0x0E then some (d.frm.oneShot.getD 0) else none
  | 0x2701 | 0x2702 | 0x2703 | 0x2704 => if s = 0x13 then some (b2n (d.doubled (i - 0x2701))) else none
  | 0x6200 => if s = 0 then none else some (d.frm.shadowAo.getD (s - 1) 0)
  | 0x2900 => match s with
    | 2 => some (60 * d.get 0x2900_01)
    | 3 => some d.arb.current
    | _ => none
  | 0x2908 => if s = 2 then some (12800 * d.get 0x2908_01) else none
  | 0x4004 => if s = 2 then some ((lookupKey (d.get 0x4004_01) d.tk.ana.sync).getD 0).toNat else none
  | 0x4408 =>
    let t := (lookupKey (d.get 0x4408_01) d.ftest.taps).getD {}
    match s with
    | 2 => some t.cursor
    | 3 => some t.nextDue
    | 4 => some t.rounds
    | _ => none
  | 0xF000 => if s = 4 then some d.cfg.tableCrc else none
  | _ =>
    if 0x6000 ≤ i && i ≤ 0x60FE then if s = 0 then none else some ((d.tapAt (i - 0x6000)).counter (s - 1))
    else if 0x6100 ≤ i && i ≤ 0x61FE then
      if s = 0 then none else some (((d.frm.shadow[i - 0x6100]?).getD []).getD (s - 1) 0)
    else if 0x2450 ≤ i && i ≤ 0x248F && s = 0x0D then
      some (((d.pow.pend.find? (·.region = i - 0x2450)).map (·.stage)).getD 0xFF)
    else if 0x2490 ≤ i && i ≤ 0x249F then match s with
      | 2 => some (d.load (i - 0x2490))
      | 3 => some (d.capacity (i - 0x2490))
      | 5 => some (d.pendOf (i - 0x2490)).length
      | 6 => some (((d.pendOf (i - 0x2490)).head?.map (fun q => d.now - q.since)).getD 0)
      | _ => none
    else if 0x2510 ≤ i && i ≤ 0x251F then
      let x := (d.trc.srcs[i - 0x2510]?).getD {}
      match s with
      | 5 => some (b2n x.asleep.isSome)
      | 0x0A => some (if x.capture.isSome then 2 else if x.arm.isSome then 1 else 0)
      | _ => none
    else if 0x2901 ≤ i && i ≤ 0x2906 then match s with
      | 5 => some (ofSigned 32 (d.arb.credit.getD (i - 0x2901) 0))
      | 7 => some (headWait d.now (d.queue (i - 0x2901)))
      | _ => none
    else if 0x2920 ≤ i && i ≤ 0x2925 then
      let e := (d.tk.fab.egress[i - 0x2920]?).getD {}
      match s with
      | 2 => some e.state.code
      | 4 => some e.v
      | _ => none
    else if 0x6400 ≤ i && i ≤ 0x64FE then
      let b := (d.tk.fab.policed[i - 0x6400]?).getD (0, 0)
      match s with
      | 6 => some (ofSigned 64 b.1)
      | 7 => some (ofSigned 64 b.2)
      | _ => none
    else if 0x2940 ≤ i && i ≤ 0x296F && s = 4 then
      let e := (d.tk.fab.egress[(i - 0x2940) / 8]?).getD {}
      some (ofSigned 64 (e.buckets.getD ((i - 0x2940) % 8) 0))
    else if 0xF001 ≤ i && i ≤ 0xF0FE then some (d.cfg.unitDescriptor (i - 0xF001) s)
    else none

/-- The value of a scalar object as a read finds it, without side effects. -/
def Dev.value (d : Dev) (i s : Nat) : Nat := (d.computed i s).getD (d.get (key i s))

/-- ASCII bytes of a string. -/
def ascii (s : String) : Bytes := s.toList.map (fun c => BitVec.ofNat 8 c.toNat)

/-- The bytes of a STR or DOMAIN object (a DOMAIN's count left out) where they are computed from the state. -/
def Dev.computedBlob (d : Dev) (i s : Nat) : Option Bytes :=
  match i with
  | 0x1000 => if s = 1 then some (ascii "Kioft") else
      if s = 2 then some (ascii (if d.isTrunk then "Sahlet T" else "Sahlet leaf")) else none
  | 0x1801 => if s = 7 then some (d.cfg.keyDigests.flatMap (bytesAt · 0 48) ++
      zeros (96 - 48 * d.cfg.keyDigests.length)) else none
  | 0x1821 | 0x1822 | 0x1823 | 0x1824 | 0x1825 => some (d.storedImage (i - 0x1820))
  | 0x1F80 => if s = 4 then some d.srv.vlog.flatten else none
  | 0x2008 => if s = 2 then some d.time.txq.flatten else none
  | 0x4205 => if s = 2 then some (entryDump d.tk.thk (d.get 0x4205_01)) else none
  | 0x2502 => some (d.trc.ring.flatMap (·.bytes))
  | 0xF0FF => some d.cfg.tapTable
  | _ => if 0xF001 ≤ i && i ≤ 0xF0FE && s = 5 then some (d.cfg.layout (((unitTypes d.cfg)[i - 0xF001]?).getD 0)) else none

/-- The bytes that a new unit's DOMAIN holds where its default is not empty. -/
def defaultBlob (i s : Nat) : Bytes :=
  match i with
  | 0x3127 => zeros 256
  | _ => if 0x4320 ≤ i && i ≤ 0x432F then (if s = 0x0C then zeros 96 else if s = 0x15 then zeros 32 else []) else []

/-- The bytes of a STR or DOMAIN object, a DOMAIN's count left out. -/
def Dev.blobValue (d : Dev) (i s : Nat) : Bytes :=
  match d.computedBlob i s with
  | some b => b
  | none => match lookupKey (key i s) d.blobs with
    | some b => b
    | none => defaultBlob i s

/-- The value of an object as a transport carries it (R23, R652). -/
def Dev.wire (d : Dev) (i s : Nat) (ty : OType) : Bytes :=
  match ty with
  | .str => d.blobValue i s
  | .domain => domainBytes (d.blobValue i s)
  | _ => leBytes ty.size (d.value i s)

/-- A copy of a whole object, DOMAIN values included, WO and CMD subindices left out (R42, R44). -/
def Dev.copyOf (d : Dev) (i : Nat) : List SubVal :=
  (d.cfg.subsOf i).filterMap fun s =>
    match d.cfg.rowOf i s with
    | some r => if r.acc = .wo || r.acc = .cmd then none else some ⟨s, r.ty.code, d.wire i s r.ty⟩
    | none => none

/-- The entry of a subindex in the record data (R42): a DOMAIN appears as its count only. -/
def recordEntry (v : SubVal) : Bytes :=
  let bs := if v.ty = 0x11 then v.bytes.take 4 else v.bytes
  leBytes 1 v.sub ++ leBytes 1 v.ty ++ leBytes 2 bs.length ++ bs

/-- The record data of a copy (R42): subindex 0x00 is an entry only of an object that holds its single value there. -/
def recordData (copy : List SubVal) : Bytes :=
  (if copy.any (·.sub != 0) then copy.filter (·.sub != 0) else copy).flatMap recordEntry

end Sys2Proof.Machine
end

