-- ==== Sys2Proof/Machine/Server.lean ====
section
/-! DEFINITION. The dictionary server: who a request is for (R22, R651), the replay store (R47), the checks of reads
and writes (R20, R24, R25, R63), latches (R44, R45, R62), segments (R46), responses, violations and notifications
(R50, R66). -/

namespace Sys2Proof.Machine

/-- The abort codes of R51. -/
inductive Abort where
  | noObject | noSubindex | readOnly | writeOnly | typeLength | range | state | fenced | busy | version | internal
  deriving DecidableEq, Repr

/-- The code of an abort (R51). -/
def Abort.code : Abort → Nat
  | .noObject => 0x01 | .noSubindex => 0x02 | .readOnly => 0x03 | .writeOnly => 0x04 | .typeLength => 0x05
  | .range => 0x06 | .state => 0x07 | .fenced => 0x08 | .busy => 0x09 | .version => 0x0A | .internal => 0x0B

/-- What the execution of a request gives: the unit, the abort code (0: success), the data and the Flags of the
response, or that the response waits (R31). -/
structure Ans where
  dev   : Dev
  abort : Nat := 0
  data  : Bytes := []
  flags : Nat := 0
  wait  : Bool := false

/-- A request succeeds. -/
def ok (d : Dev) : Ans := { dev := d }

/-- A request fails and changes nothing. -/
def fail (d : Dev) (a : Abort) : Ans := { dev := d, abort := a.code }

/-- A request fails unless a condition holds. -/
def guardAns (c : Bool) (d : Dev) (a : Abort) (r : Ans) : Ans := if c then r else fail d a

/-- The index check of R20 in the mode the unit is in: Quickset mode implements five indices only, and 0x1830
nowhere else (R610, R611). -/
def Dev.serves (d : Dev) (i : Nat) : Bool :=
  if d.quickset then [0x1000, 0x1001, 0x1801, 0x1830, 0x1F80].contains i
  else d.cfg.hasIndex i && i != 0x1830

/-- The segment by which a Source that carries UNASSIGNED is told from others (R602); 0 for other Sources. -/
def sourceSegment (e : Env) : Nat := if e.source.testBit 21 then e.segment else 0

/-- Is a remembered requester the one that asks? A Source is named by its address, an UNASSIGNED one with its segment
(R602); the local port is its own. -/
def sameSource (w : Requester) (e : Env) : Bool :=
  w.source = e.source && w.segment = sourceSegment e && (w.via = .lp) = (e.via = .lp)

/-- The requester of an environment. -/
def requesterOf (e : Env) : Requester := ⟨e.via, e.source, sourceSegment e⟩

/-- Does a unit take a request as its own (R22, R651)? -/
def Dev.takes (d : Dev) (e : Env) : Bool :=
  match e.via with
  | .lp => !d.isTrunk
  | .service => e.dest = 0x400000 || (!d.unassigned && e.dest = d.address)
  | .servicePort => d.isTrunk && (e.dest = 0x400000 || e.dest = d.address)
  | .exportNet => d.isTrunk && d.on 0x1102_02 && e.dest = d.address
  | .inband => !d.unassigned && e.dest = d.address

/-- Does a unit take the frame or datagram that carries a request (R54, R58, R59): an Ethernet frame of the EtherType, addressed
to it; a datagram to its `UdpPort`? -/
def Dev.hearsFrame (d : Dev) (e : Env) : Bool :=
  match e.via with
  | .service | .servicePort => e.etherType = 0x88B5 && e.toMac.all (· = d.mac e.via)
  | .exportNet => e.udp = d.get 0x1102_01
  | .lp | .inband => true

/-- Is a request for another unit, on a transport on which the trunk routes or proxies it (R56, R58, R59, R651)? Those that it
routes or proxies are PROXY_REQUESTs. On the export ports it takes none while `Enable` is 0 (log 91). -/
def Dev.passesOn (d : Dev) (e : Env) : Bool :=
  d.isTrunk && otherUnit e.dest && e.dest != d.address && e.via != .lp && (e.via != .exportNet || d.on 0x1102_02)

/-- Send a response or NOTIFY to a requester, in an Ethernet frame to its MAC address on a service segment or port. -/
def Dev.respond (d : Dev) (via : Via) (segment mac : Nat) (r : Resp) : Dev :=
  let d := d.emit (.sdp via segment r)
  match via with
  | .inband => d.sendInband r.dest (sdpBytes r)
  | .service | .servicePort => d.sendEther via segment mac r
  | .lp | .exportNet => d

/-- The response to a request (R40, R41). -/
def respOf (d : Dev) (e : Env) (opcode index sub offset : Nat) (a : Ans) : Resp :=
  { opcode := 0x80 + opcode, txn := e.txn, dest := e.source, source := d.source, index := index, sub := sub,
    flags := a.flags, offset := offset, length := a.data.length, abort := a.abort,
    data := if a.abort = 0 then a.data else [] }

/-- The violation entry of a failed access (R66, R67): on the local port the host bus agent and the window offset. -/
def Dev.logAbort (d : Dev) (e : Env) (index sub offset abort : Nat) : Dev :=
  if e.via = .lp then d.violation (e.agent % 2 ^ 16) 0x02 abort ((key index sub * 8 + offset) % 2 ^ 27)
  else d.violation e.source 0x01 abort (index + sub * 2 ^ 16)

/-- Drop what has been remembered for 2 s (R47). -/
def Dev.purgeReplay (d : Dev) : Dev :=
  let live := d.srv.replay.filter (fun x => d.now < x.last + 2000000000)
  let fresh (x : ReplayEnt) := { x with txns := x.txns.filter (fun t => d.now < t.time + 2000000000) }
  { d with srv := { d.srv with replay := live.map fresh } }

/-- Drop the latches not used for 1 s (R45). -/
def Dev.purgeLatches (d : Dev) : Dev :=
  { d with srv := { d.srv with latches := d.srv.latches.filter (fun x => d.now < x.lastUse + 1000000000) } }

/-- Remember a request's response, newest first, 8 of a Source (R47). -/
def Dev.remember (d : Dev) (e : Env) (r : Resp) : Dev :=
  let t : ReplayTxn := ⟨e.txn, r, d.now⟩
  let upd (x : ReplayEnt) : ReplayEnt := { x with last := d.now, txns := (t :: x.txns).take 8 }
  let l := if d.srv.replay.any (fun x => sameSource x.who e) then
      d.srv.replay.map (fun x => if sameSource x.who e then upd x else x)
    else d.srv.replay ++ [⟨requesterOf e, d.now, [t]⟩]
  { d with srv := { d.srv with replay := l } }

/-- The action of a CMD object has begun: until the next tick a write of it fails with BUSY (R25, R28). -/
def Dev.beginCmd (d : Dev) (k : Nat) : Dev :=
  if (d.cfg.rowOf (k / 256) (k % 256)).any (·.acc = .cmd) then { d with srv := { d.srv with cmds := k :: d.srv.cmds } } else d

/-- Send the answer of an executed request, count and log its abort, and remember it. -/
def Dev.finish (_d : Dev) (e : Env) (opcode index sub offset : Nat) (a : Ans) : Dev :=
  let done := if opcode = 0x02 && a.abort = 0 then a.dev.beginCmd (key index sub) else a.dev
  if a.wait then done
  else if e.via = .lp then
    if a.abort = 0 then done.emit (.busData a.data)
    else (a.dev.logAbort e index sub offset a.abort).emit (.busError a.abort)
  else
    let d' := if a.abort = 0 then done else (a.dev.inc 0x1101_06).logAbort e index sub offset a.abort
    let r := respOf d' e opcode index sub offset a
    (d'.remember e r).respond e.via e.segment e.mac r

/-- The number of Sources whose requests the server remembers (R47). -/
def Dev.replayCap (d : Dev) : Nat := if d.isTrunk then 256 else 8

/-- A remembered request is answered again (R47). -/
def Dev.replayed (d : Dev) (e : Env) (t : ReplayTxn) : Dev :=
  let d := d.inc 0x1101_05
  let d := if t.resp.abort = 0 then d else d.inc 0x1101_06
  let l := d.srv.replay.map (fun x => if sameSource x.who e then { x with last := d.now } else x)
  Dev.respond { d with srv := { d.srv with replay := l } } e.via e.segment e.mac t.resp

/-- Every request takes this path: frame, destination, replay, replay room, version, then its execution `f` (R54, R59, R651,
R47, R40). -/
def Dev.serve (d : Dev) (e : Env) (opcode index sub offset : Nat) (f : Dev → Ans) : Dev :=
  if !d.hearsFrame e then d
  else if !d.takes e then (if e.via = .lp || d.passesOn e then d else d.inc 0x1101_07)
  else if e.via = .lp then d.finish e opcode index sub offset (f d)
  else
    let d := d.purgeReplay
    match d.srv.replay.find? (fun x => sameSource x.who e) with
    | some x => match x.txns.find? (·.txn = e.txn) with
      | some t => d.replayed e t
      | none => d.finish e opcode index sub offset
          (if e.version = 1 then f d else fail d .version)
    | none =>
      if d.srv.replay.length ≥ d.replayCap then
        let d := (d.inc 0x1101_06).logAbort e index sub offset Abort.busy.code
        d.respond e.via e.segment e.mac (respOf d e opcode index sub offset (fail d .busy))
      else d.finish e opcode index sub offset (if e.version = 1 then f d else fail d .version)

/-! ### The unit's own requests -/

/-- The next TxnId of the unit's own requests. -/
def Dev.nextTxn (d : Dev) : Nat × Dev :=
  let n := (d.srv.txnNo + 1) % 2 ^ 16
  (n, { d with srv := { d.srv with txnNo := n } })

/-- A request of the unit's own is outstanding (R41), to a unit address or to a drop; one of the same TxnId is outstanding no
more. -/
def Dev.noteAsked (d : Dev) (r : Resp) (drop : Option (Nat × Nat)) : Dev :=
  let x : Asked := ⟨r.txn, r.opcode, r.dest, drop, r.index, r.sub⟩
  { d with srv := { d.srv with asked := d.srv.asked.filter (·.txn != r.txn) ++ [x] } }

/-! ### Latches -/

/-- The latch a Source holds for an object (R44). -/
def Dev.latchOf (d : Dev) (e : Env) (i : Nat) : Option LatchEnt :=
  d.srv.latches.find? (fun x => sameSource x.who e && x.index = i && d.now < x.lastUse + 1000000000)

/-- A latching access: the Source's earlier latch is released; the copy is taken if a latch is free (R45). -/
def Dev.latch (d : Dev) (e : Env) (i : Nat) : Option (Dev × List SubVal) :=
  let d := d.purgeLatches
  let others := d.srv.latches.filter (fun x => !sameSource x.who e)
  if others.length ≥ d.get 0x1101_02 then none
  else
    let c := d.copyOf i
    some ({ d with srv := { d.srv with latches := others ++ [⟨requesterOf e, i, c, d.now⟩] } }, c)

/-- A read served from a latch renews it (R45). -/
def Dev.touchLatch (d : Dev) (e : Env) (i : Nat) : Dev :=
  let l := d.srv.latches.map fun x => if sameSource x.who e && x.index = i then { x with lastUse := d.now } else x
  { d with srv := { d.srv with latches := l } }

/-- The bytes of a subindex in a copy. -/
def inCopy (c : List SubVal) (s : Nat) : Option Bytes := (c.find? (·.sub = s)).map (·.bytes)

/-- The part of a value that a READ returns, with MORE where bytes remain, or RANGE (R652). -/
def segmentOf (d : Dev) (bs : Bytes) (offset length flags : Nat) : Ans :=
  if offset > bs.length || (offset != 0 && bs.length ≤ 8) then fail d .range
  else
    let part := (bs.drop offset).take length
    { dev := d, data := part, flags := flags + b2n (offset + part.length < bs.length) }

/-! ### Side effects of reads -/

/-- A voltage sensor's index. -/
def isVolt (i : Nat) : Bool := 0x2410 ≤ i && i ≤ 0x244F

/-- A read of MinV copies the minimum's stamp to MinStamp and re-arms the minimum (R157). -/
def Dev.rearmMinV (d : Dev) (i : Nat) : Dev :=
  let v := i - 0x2410
  let d := d.set (key i 3) (d.pow.runStamp.getD v 0)
  let d := d.set (key i 2) 0xFFFFFFFF
  { d with pow := { d.pow with runStamp := d.pow.runStamp.set v 0 } }

/-- A read of RecorderPort's Data advances Offset by 8, modulo the size of what is read (R226). -/
def Dev.advancePort (d : Dev) : Dev :=
  d.set 0x2604_01 ((d.get 0x2604_01 + 8) % d.get 0x2600_01)

/-- Advance a pair's Offset by 8 (R64). -/
def Dev.advancePair (d : Dev) (pair : Nat) : Dev :=
  let k := key (0x1180 + pair) 1
  let v := d.get k
  let (off, sub, i) := selectOf v
  d.set k (((off + 8) % 2 ^ 32) * 2 ^ 24 + sub * 2 ^ 16 + i)

/-- What a read of an object changes. -/
def Dev.readEffect (d : Dev) (i s : Nat) : Dev :=
  if isVolt i && s = 2 then d.rearmMinV i
  else if i = 0x2604 && s = 2 then d.advancePort
  else if 0x1180 ≤ i && i ≤ 0x1183 && s = 2 then d.advancePair (i - 0x1180)
  else d

/-- The conditions under which an object's own chapter refuses a read: TraceRing outside FROZEN and OFF (R207). -/
def Dev.readRefused (d : Dev) (i : Nat) : Bool := i = 0x2502 && d.get 0x2501_01 != 0 && d.get 0x2501_01 != 3

/-! ### Reads -/

/-- The access-level check of a user-level read on the local port (R150). -/
def Dev.userReadOk (d : Dev) (i s : Nat) : Bool :=
  let tapIndex := (0x2200 ≤ i && i ≤ 0x22FE) || (0x2300 ≤ i && i ≤ 0x23FE) || (0x6000 ≤ i && i ≤ 0x60FE)
    || (0x6100 ≤ i && i ≤ 0x61FE)
  d.on 0x2100_02 && userRead i s && (!tapIndex || d.on (key (0x2300 + i % 256) 0x0A))

/-- A read on the local port (R61 to R63): `offset` is the offset in the slot and `length` the access width. -/
def Dev.lpRead (d : Dev) (e : Env) (i s offset length : Nat) : Ans :=
  if !d.serves i then fail d .noObject
  else match d.cfg.rowOf i s with
  | none => fail d .noSubindex
  | some r =>
    if e.user && !d.userReadOk i s then fail d .state
    else if r.ty.isBlob || !([1, 2, 4, 8].contains length) || offset % (max length 1) != 0 || offset + length > 8 then
      fail d .typeLength
    else if r.acc = .wo || r.acc = .cmd then fail d .writeOnly
    else if isRes d.cfg i then
      if s = 1 then
        let c := d.copyOf i
        { dev := { d with srv := { d.srv with resLatch := some (i, c) } },
          data := bytesAt ((inCopy c s).getD []) offset length }
      else
        let c := match d.srv.resLatch with
          | some (j, c) => if j = i then inCopy c s else none
          | none => none
        { dev := d, data := bytesAt (c.getD (d.wire i s r.ty)) offset length }
    else { dev := d.readEffect i s, data := bytesAt (d.wire i s r.ty) offset length }

/-- An SDP READ (R44, R45, R652). A READ at Offset 0 of a DOMAIN or STR latches a copy even where its Source already holds one
(log 92). -/
def Dev.sdpRead (d : Dev) (e : Env) (i s offset length : Nat) : Ans :=
  if !d.serves i then fail d .noObject
  else match d.cfg.rowOf i s with
  | none => fail d .noSubindex
  | some r =>
    if length > 1024 then fail d .typeLength
    else if r.acc = .wo || r.acc = .cmd then fail d .writeOnly
    else if d.readRefused i then fail d .state
    else if d.slotBusy i && offset = 0 then fail d .busy
    else if r.ty.isBlob && offset = 0 then
      match d.latch e i with
      | none => fail d .busy
      | some (d', c) => segmentOf d' ((inCopy c s).getD []) 0 length 4
    else match d.latchOf e i with
    | some l => segmentOf (d.touchLatch e i) ((inCopy l.copy s).getD []) offset length 4
    | none =>
      if r.ty.isBlob then fail d .state
      else
        let a := segmentOf d (d.wire i s r.ty) offset length 0
        if a.abort = 0 then { a with dev := d.readEffect i s } else a

/-- A READ over any transport. -/
def Dev.readAns (d : Dev) (e : Env) (i s offset length : Nat) : Ans :=
  if e.via = .lp then d.lpRead e i s offset length else d.sdpRead e i s offset length

/-- A READ_RECORD (R42, R44, R158). -/
def Dev.recordAns (d : Dev) (e : Env) (i offset length : Nat) : Ans :=
  if !d.serves i then fail d .noObject
  else if length > 1024 then fail d .typeLength
  else if d.readRefused i then fail d .state
  else if d.cfg.subsOf i = [0] && ((d.cfg.rowOf i 0).any (fun r => r.acc = .wo || r.acc = .cmd)) then
    fail d .writeOnly
  else if d.slotBusy i && offset = 0 then fail d .busy
  else if offset = 0 then
    let d0 := if isVolt i then d.set (key i 3) (d.pow.runStamp.getD (i - 0x2410) 0) else d
    match d0.latch e i with
    | none => fail d .busy
    | some (d', c) =>
      let a := segmentOf (if isVolt i then d'.rearmMinV i else d') (recordData c) 0 length 4
      a
  else match d.latchOf e i with
    | none => fail d .state
    | some l =>
      let bs := recordData l.copy
      if offset > bs.length || bs.length ≤ 8 then fail d .range
      else
        let part := (bs.drop offset).take length
        { dev := d.touchLatch e i, data := part, flags := 4 + b2n (offset + part.length < bs.length) }

/-! ### Writes -/

/-- The type and range checks of a scalar value (R23, R75's kind of range left to its chapter). -/
def Row.admits (r : Row) (v : Nat) : Bool :=
  (r.ty != .bool || v ≤ 1) &&
  match r.rng with
  | .any | .bits _ => true
  | .between lo hi =>
    let i := match r.ty with
      | .i8 | .i16 | .i32 | .i64 => toSigned (8 * r.ty.size) v
      | _ => (v : Int)
    (lo : Int) ≤ i && i ≤ (hi : Int)
  | .atLeast lo => lo ≤ v
  | .oneOf l => l.contains v

/-- The value that a write leaves in an object: its reserved bits read as 0 (R14). -/
def Row.masked (r : Row) (v : Nat) : Nat :=
  match r.rng with
  | .bits m => v &&& m
  | _ => v

/-- Does the action of a CMD object that began in this tick still run (R25, R28)? -/
def Dev.cmdRuns (d : Dev) (r : Row) (i s : Nat) : Bool := r.acc = .cmd && d.srv.cmds.contains (key i s)

/-- The partial value of a segmented write of a Source (R46). -/
def Dev.partialOf (d : Dev) (e : Env) (i s : Nat) : Option PartialWrite :=
  d.srv.partials.find? (fun p => sameSource p.who e && p.index = i && p.sub = s)

/-- Is a segment's Offset the next expected one (R46): with a partial value held, its end; with none, 0? -/
def Dev.nextSegment (d : Dev) (e : Env) (i s offset : Nat) : Bool :=
  offset = ((d.partialOf e i s).map (·.data.length)).getD 0

/-- Forget the partial values that a Source holds of an object. -/
def Dev.dropPartial (d : Dev) (e : Env) (i s : Nat) : Dev :=
  let l := d.srv.partials.filter (fun p => !(sameSource p.who e && p.index = i && p.sub = s))
  { d with srv := { d.srv with partials := l } }

/-- A write (R20, R24, R25, R46, R61, R63): the checks that every object shares, then `apply` with the scalar value
or the value bytes of a DOMAIN. -/
def Dev.writeAns (d : Dev) (e : Env) (i s offset length : Nat) (last : Bool) (data : Bytes)
    (apply : Dev → Nat → Bytes → Ans) : Ans :=
  if !d.serves i then fail d .noObject
  else match d.cfg.rowOf i s with
  | none => fail d .noSubindex
  | some r =>
    if e.via = .lp && e.user then fail d .readOnly
    else if e.via = .lp && (r.ty.isBlob || offset != 0 || length != r.ty.size) then fail d .typeLength
    else if length > 1024 || data.length < length then fail d .typeLength
    else if r.acc = .ro || r.acc = .res then fail d .readOnly
    else
      let data := data.take length
      if r.ty.isBlob then
        if !d.nextSegment e i s offset then fail (d.dropPartial e i s) .state
        else
          let all := ((d.partialOf e i s).map (·.data)).getD [] ++ data
          let d := d.dropPartial e i s
          if !last then
            ok { d with srv := { d.srv with partials := d.srv.partials ++ [⟨requesterOf e, i, s, all⟩] } }
          else if all.length < 4 || natAt all 0 4 != all.length - 4 || natAt all 0 4 > r.size then
            fail d .typeLength
          else if d.cmdRuns r i s then fail d .busy
          else apply d 0 (all.drop 4)
      else if offset != 0 || length != r.ty.size then fail d .typeLength
      else
        let v := leNat data
        if !r.admits v then fail d .range
        else if d.cmdRuns r i s then fail d .busy
        else apply d (r.masked v) []

/-- A write of a scalar with the value given, as the rows that name one object carry it. -/
def Dev.serveWrite (d : Dev) (e : Env) (i s v : Nat) (apply : Dev → Nat → Bytes → Ans) : Dev :=
  let n := d.cfg.width (key i s) / 8
  d.serve e 0x02 i s 0 (fun d => d.writeAns e i s 0 n true (leBytes n v) apply)

/-- A write of a DOMAIN whole, as the rows that name one object carry it: the value bytes after the count. The check
of R24 is made on it as if its last segment had just come. -/
def Dev.serveDomain (d : Dev) (e : Env) (i s : Nat) (bs : Bytes) (apply : Dev → Bytes → Ans) : Dev :=
  d.serve e 0x02 i s 0 fun d =>
    if !d.serves i then fail d .noObject
    else match d.cfg.rowOf i s with
    | none => fail d .noSubindex
    | some r =>
      if e.via = .lp && e.user then fail d .readOnly
      else if e.via = .lp then fail d .typeLength
      else if !d.nextSegment e i s 0 then fail (d.dropPartial e i s) .state
      else if bs.length > r.size then fail d .typeLength
      else if d.cmdRuns r i s then fail d .busy
      else apply d bs

/-- An object takes the value written (the general case of R25, R28). -/
def Dev.store (d : Dev) (i s v : Nat) : Ans := ok (d.set (key i s) v)

/-! ### Notifications -/

/-- The record data of an object in messages of at most 1,024 bytes: offset, bytes, MORE (R50). -/
def chunksOf (fuel off : Nat) (bs : Bytes) : List (Nat × Bytes × Bool) :=
  match fuel with
  | 0 => []
  | fuel + 1 =>
    if bs.length ≤ 1024 then [(off, bs, false)]
    else (off, bs.take 1024, true) :: chunksOf fuel (off + 1024) (bs.drop 1024)

/-- One subscriber gets its NOTIFY messages (R50). -/
def Dev.notifyOne (d : Dev) (x : SubEnt) : Dev :=
  let bs := recordData (d.copyOf x.index)
  (chunksOf (bs.length / 1024 + 1) 0 bs).foldl (fun d (off, b, more) =>
    d.respond x.who.via x.segment x.mac
      { opcode := 0x86, txn := x.txn, dest := x.who.source, source := d.source, index := x.index, sub := 0,
        flags := b2n more, offset := off, length := b.length, data := b }) d

/-- A result object has become READY: every subscriber is told (R50). -/
def Dev.notify (d : Dev) (i : Nat) : Dev :=
  (d.srv.subs.filter (·.index = i)).foldl Dev.notifyOne d

/-- A result completes (R36, R38) and its subscribers are told (R50). -/
def Dev.complete (d : Dev) (i : Nat) (payload : List (Nat × Nat)) : Dev := (d.completeRes i payload).notify i

/-- A result whose payload holds DOMAIN values completes. -/
def Dev.completeWith (d : Dev) (i : Nat) (blobs : List (Nat × Bytes)) (payload : List (Nat × Nat)) : Dev :=
  (blobs.foldl (fun d (s, b) => d.setBlob (key i s) b) d).complete i payload

/-! ### Commands on units -/

/-- A command acts on one unit, held in reset or not: its records of what it sends start empty, and what its build fixes
stays. -/
def State.onHeld (s : State) (u : UnitId) (f : Dev → Dev) : Host.Outcome State Fault Refusal :=
  let d := s.dev u
  .next (s.setDev { f { d with out := [], lines := [] } with cfg := d.cfg } u)

/-- A command acts on one unit; a unit held in reset does nothing (R635). -/
def State.on (s : State) (u : UnitId) (f : Dev → Dev) : Host.Outcome State Fault Refusal :=
  s.onHeld u fun d => if d.boot.held then d else f d

/-- A command acts on a leaf. -/
def State.onLeaf (s : State) (l : LeafId) (f : Dev → Dev) : Host.Outcome State Fault Refusal := s.on (.leaf l) f

/-- A command acts on the trunk. -/
def State.onTrunk (s : State) (f : Dev → Dev) : Host.Outcome State Fault Refusal := s.on .trunk f

end Sys2Proof.Machine
end

