-- ==== Sys2Proof/Machine/Recorder.lean ====
section
/-! DEFINITION. The event recorder (chapter 06): records, snapshot records, flushes, the trunk recorder and its commit
to board flash. -/

namespace Sys2Proof.Machine

open Sys2Proof

/-! ### Records -/

/-- The record types of R216. -/
inductive RecKind where
  | powerFail | fatal | regFault | regClear | regionStop | regionResume | inrushTimeout | timeEvent | snapshot
  | flushStart | software | recomputeMismatch | fieldTestFail | levelSat | groupChange | anomaly
  deriving DecidableEq, Repr

/-- The code of a record type (R216). -/
def RecKind.code : RecKind → Nat
  | .powerFail => 0x01 | .fatal => 0x02 | .regFault => 0x03 | .regClear => 0x04 | .regionStop => 0x05
  | .regionResume => 0x06 | .inrushTimeout => 0x07 | .timeEvent => 0x08 | .snapshot => 0x09 | .flushStart => 0x0A
  | .software => 0x0B | .recomputeMismatch => 0x20 | .fieldTestFail => 0x21 | .levelSat => 0x22
  | .groupChange => 0x23 | .anomaly => 0x24

/-- The records that the ring holds, newest first. -/
def Dev.heldRecs (d : Dev) : List Rec := d.rcd.hist.take d.rcd.held

/-- The records of a list, newest first, up to the one at which their bytes reach `room`: what can still be read of a
ring of `room` bytes (R226). -/
def recsReaching (trunk : Bool) (room : Nat) : List Rec → List Rec
  | [] => []
  | r :: rs => if room = 0 then [] else r :: recsReaching trunk (room - recSize trunk r) rs

/-- The Seq and the byte offset just past the newest record (R224). -/
def Dev.newest (d : Dev) : Nat × Nat := (d.get 0x2600_02 % 2 ^ 32, d.get 0x2600_02 / 2 ^ 32)

/-- The ring takes a record (R215, R223 to R225): the oldest whole records make room. -/
def Dev.putRecord (d : Dev) (kind flags time : Nat) (payload : Bytes) (from_ : Option (Nat × Nat)) : Dev :=
  let cap := d.get 0x2600_01
  let (last, off) := d.newest
  let seq := (last + 1) % 2 ^ 32
  let (o, oseq) := from_.getD (d.address, seq)
  let r : Rec := { seq := seq, off := off, kind := kind, flags := flags, time := time, payload := payload,
                   origin := o, originSeq := oseq }
  let size := recSize d.isTrunk r
  let keep := recsWithin d.isTrunk (cap - size) d.heldRecs
  let lost := d.rcd.held - keep.length
  let oldest := (keep.getLast?).getD r
  let d := d.add 0x2600_05 lost
  let d := d.flagIf (lost != 0) 0x2606 0
  let d := d.set 0x2600_03 (oldest.seq + oldest.off * 2 ^ 32)
  let d := { d with rcd := { d.rcd with
    hist := r :: recsReaching d.isTrunk (cap - size) d.rcd.hist, held := keep.length + 1 } }
  let d := d.set 0x2600_02 (seq + (off + size) % cap * 2 ^ 32)
  (d.inc 0x2600_04).always 0x20 1

/-- The rank of R80 at which a record of the unit's own arises: a snapshot's and a flush start's is that of its cause. -/
def Rec.rank (r : Rec) : Nat :=
  match r.kind with
  | 0x01 => 1
  | 0x02 => 2
  | 0x03 | 0x04 | 0x05 | 0x06 | 0x08 => 3
  | 0x09 => [6, 6, 6, 6, 2, 1, 3, 8, 7].getD (natAt r.payload 0 1) 7
  | 0x0A => [7, 1, 2, 7, 7].getD (natAt r.payload 0 1) 7
  | 0x0B => 7
  | _ => 8

/-- Does a record of a tick stand before another of it: by rank, then by the order of R216's table? -/
def Rec.before (a b : Rec) : Bool := a.rank < b.rank || (a.rank = b.rank && a.kind < b.kind)

/-- The newest record moves before those of its tick, at most `fuel`, that come after it in R216's order. It does not pass one that a
flush has begun with or sent. -/
def settleRec (trunk : Bool) (cap : Nat) : (fuel : Nat) → List Rec → List Rec
  | fuel + 1, r :: x :: rest =>
    if r.before x && x.origin = r.origin && x.kind != 0x0A && x.sentAt.isNone then
      let r' := { r with seq := x.seq, originSeq := x.seq, off := x.off }
      let x' := { x with seq := r.seq, originSeq := r.seq, off := (x.off + recSize trunk r) % cap }
      x' :: settleRec trunk cap fuel (r' :: rest)
    else r :: x :: rest
  | _, l => l

/-- The hub writes a record of its own (R214): UNCERTAIN as it held at its time; in the tick's order (R216). -/
def Dev.record (d : Dev) (kind : RecKind) (time : Nat) (payload : Bytes) : Dev :=
  let n := d.rcd.fresh
  let d := d.putRecord kind.code (b2n (d.uncertainAt time)) time payload none
  let hist := settleRec d.isTrunk (d.get 0x2600_01) (min n (d.rcd.held - 1)) d.rcd.hist
  { d with rcd := { d.rcd with hist := hist, fresh := n + 1 } }

/-- A TIME_EVENT record (R216, R217). -/
def Dev.timeEvent (d : Dev) (event : Nat) (value : Int) : Dev :=
  d.record .timeEvent d.stamp (leBytes 1 event ++ zeros 3 ++ leInt 8 value)

/-! ### Snapshot records -/

/-- The causes of a snapshot record (R220, R222). -/
inductive SnapCause where
  | selector (k : Nat) | software | fleet | fatal | powerFail | regFault | inrushTimeout | snapNow
  deriving DecidableEq, Repr

/-- The Cause of a snapshot's payload (R222). -/
def SnapCause.code : SnapCause → Nat
  | .selector _ => 1 | .software => 2 | .fleet => 3 | .fatal => 4 | .powerFail => 5 | .regFault => 6
  | .inrushTimeout => 7 | .snapNow => 8

/-- The place of a cause among those of one tick (R220). -/
def SnapCause.place : SnapCause → Nat
  | .powerFail => 0 | .fatal => 1 | .regFault => 2 | .fleet => 3 | .selector k => 4 + k | .software => 8 | .snapNow => 9
  | .inrushTimeout => 10

/-- The bit of `SnapOn` that enables a cause (R220). -/
def SnapCause.bit : SnapCause → Nat
  | .selector _ => 0 | .software => 1 | .fleet => 2 | .fatal => 3 | .powerFail => 4 | .regFault => 5
  | .inrushTimeout => 6 | .snapNow => 7

/-- The entry of one `SnapList` value (R222): nothing for an empty one. -/
def Dev.snapEntry (d : Dev) (v : Nat) : Bytes :=
  let i := field v 15 0
  let s := field v 23 16
  match d.cfg.rowOf i s with
  | none => []
  | some r =>
    let bs := d.wire i s r.ty
    leBytes 2 i ++ leBytes 1 s ++ leBytes 1 bs.length ++ bytesAt bs 0 (alignUp bs.length 4)

/-- The Detail of a snapshot's payload (R222). -/
def SnapCause.detail : SnapCause → Nat
  | .selector k => k
  | _ => 0

/-- The payload of a snapshot record (R222). -/
def Dev.snapPayload (d : Dev) (c : SnapCause) (origin : Nat) : Bytes :=
  let es := ((List.range 64).map (fun n => d.get (key 0x2602 (n + 1)))).filter (· != 0)
  leBytes 1 c.code ++ leBytes 1 c.detail ++ leBytes 1 es.length ++ zeros 1 ++ leBytes 4 origin ++
    es.flatMap d.snapEntry

/-- A record of the ring changed, by its Seq. -/
def Dev.modRec (d : Dev) (p : Rec → Bool) (f : Rec → Rec) : Dev :=
  { d with rcd := { d.rcd with hist := d.rcd.hist.map (fun r => if p r then f r else r) } }

/-- A cause comes before the one that this tick's snapshot names: the snapshot is the earlier cause's (R220). -/
def Dev.renameSnap (d : Dev) (c : SnapCause) (origin : Nat) : Dev :=
  let head := leBytes 1 c.code ++ leBytes 1 c.detail
  let mine := d.rcd.hist.take (min d.rcd.fresh d.rcd.held)
  let seqs := (mine.filter (·.kind = 0x09)).map (·.seq)
  d.modRec (fun r => seqs.contains r.seq && r.sentAt.isNone) fun r =>
    { r with payload := head ++ bytesAt r.payload 2 2 ++ leBytes 4 origin ++ r.payload.drop 8 }

/-- A cause of a snapshot record arises (R220, R221): one record per tick, for the first of its causes in R220's order. -/
def Dev.snapshot (d : Dev) (c : SnapCause) (origin : Nat) : Dev :=
  let again : Bool := d.rcd.snapTick = some d.time.tick
  if !(d.get 0x2601_01).testBit c.bit || (again && d.rcd.snapOf ≤ c.place) then d
  else
    let written : Bool := again && d.rcd.lastSnap = some d.stamp
    let d := { d with rcd := { d.rcd with snapTick := some d.time.tick, snapOf := c.place } }
    let never := c = .powerFail || c = .fatal
    let close := match d.rcd.lastSnap with
      | some t => d.stamp < t + d.get 0x2601_02
      | none => false
    if written then d.renameSnap c (ft32 origin)
    else if close && !never then (if again then d else (d.inc 0x2601_04).flag 0x2606 1)
    else
      let d := d.record .snapshot d.stamp (d.snapPayload c (ft32 origin))
      (Dev.inc { d with rcd := { d.rcd with lastSnap := some d.stamp } } 0x2601_03)

/-! ### Flushes of a leaf -/

/-- The reasons of a flush (R216). -/
inductive FlushReason where
  | powerFail | fatal | software | teardown
  deriving DecidableEq, Repr

/-- The code of a flush reason (R216). -/
def FlushReason.code : FlushReason → Nat
  | .powerFail => 1 | .fatal => 2 | .software => 3 | .teardown => 4

/-- A flush starts (R228): the FLUSH_START record is the newest of its set. A flush that starts while a power-fail flush runs goes
on as that power-fail flush (log 46). -/
def Dev.startFlush (d : Dev) (reason : Nat) : Dev :=
  let seq := (d.newest.1 + 1) % 2 ^ 32
  let payload := leBytes 1 reason ++ zeros 3 ++ leBytes 4 seq
  let n := d.rcd.fresh
  let d := d.putRecord RecKind.flushStart.code (b2n (d.uncertainAt d.stamp)) d.stamp payload none
  let d := (d.inc 0x2603_03).set 0x2603_06 d.stamp
  let runs := if d.rcd.flush.any (·.reason = 1) then 1 else reason
  let d := d.set 0x2603_01 (if runs = 1 then 2 else 1)
  { d with rcd := { d.rcd with flush := some ⟨runs, seq, seq, d.stamp⟩, flushEnd := none, fresh := n + 1 } }

/-- What a power-fail flush sent and nobody acknowledged is unsent for the next flush (R229, R230). -/
def Dev.unsendAfterPowerFail (d : Dev) : Dev :=
  if d.rcd.flush.isSome || d.rcd.flushEnd.isSome then d
  else d.modRec (!·.acked) (fun r => { r with sentAt := none })

/-- A cause starts a flush on a leaf (R228): one that runs goes on as this flush, and sends no record again that it has sent
(log 46). -/
def Dev.flushOn (d : Dev) (r : FlushReason) : Dev :=
  if d.isTrunk then d else d.unsendAfterPowerFail.startFlush r.code

/-- The power-fail flush of R232: it takes over a running flush, and a record whose transfer was cut is unsent. -/
def Dev.powerFailFlush (d : Dev) : Dev :=
  let parked := (d.queue 1).map (·.seq)
  let d := d.unsendAfterPowerFail.modRec (fun r => parked.contains r.seq) (fun r => { r with sentAt := none })
  (d.setQueue 1 []).startFlush FlushReason.powerFail.code

/-- The next record of the running flush (R229): the newest of its set that is neither ACKED nor sent. -/
def Dev.flushNext (d : Dev) : Option Rec :=
  match d.rcd.flush with
  | none => none
  | some f => d.heldRecs.find? (fun r => 0 ≤ seqDiff 32 f.from_ r.seq && !r.acked && r.sentAt.isNone)

/-- The transfer of a record (R310). -/
def recXfer (r : Rec) : Xfer := { cls := 0x01, bytes := recBytes false r, seq := r.seq }

/-- The flush offers its next record to the uplink arbiter: queue 1 holds a parked record, or the next one of the
flush; one overwritten before its turn is skipped (R229). -/
def Dev.offerRecord (d : Dev) : Dev :=
  let live := (d.queue 1).filter (fun x => x.cuts != 0 || d.heldRecs.any (·.seq = x.seq))
  if !live.isEmpty then (if live.length = (d.queue 1).length then d else d.setQueue 1 live)
  else match d.flushNext with
    | none => if (d.queue 1).isEmpty then d else d.setQueue 1 []
    | some r =>
      let d := d.modRec (·.seq = r.seq) (fun r => { r with sentAt := some d.now })
      d.setQueue 1 [recXfer r]

/-- The running flush has nothing left to send (R229). -/
def Dev.flushDone (d : Dev) : Bool :=
  d.rcd.flush.isSome && d.flushNext.isNone && (d.queue 1).isEmpty && d.arb.current != 1

/-- A flush ends; records written since it started start a follow-on flush of the same reason (R231). The wait of R230
for acknowledgements starts with the end of a flush that is not a power-fail flush. -/
def Dev.endFlush (d : Dev) : Dev :=
  match d.rcd.flush with
  | none => d
  | some f =>
    let d := { d with rcd := { d.rcd with flush := none, flushEnd := if f.reason = 1 then none else some d.stamp } }
    let d := d.set 0x2603_01 0
    if d.heldRecs.any (fun r => seqDiff 32 r.seq f.from_ > 0) then d.startFlush f.reason else d

/-- A write to `FlushCmd` (R234). -/
def Dev.flushCmd (d : Dev) (v : Nat) : Ans :=
  if v != 3 && v != 4 then fail d .range
  else if d.rcd.flush.isSome then fail d .busy
  else ok (d.unsendAfterPowerFail.startFlush v)

/-- FLUSH_SOFTWARE (R234). -/
def execFlushSoftware (l : LeafId) (e : Env) (s : State) : Host.Outcome State Fault Refusal :=
  s.onLeaf l fun d => d.serveWrite e 0x2603 2 3 fun d v _ => d.flushCmd v

/-- FLUSH_TEARDOWN (R234). -/
def execFlushTeardown (l : LeafId) (e : Env) (s : State) : Host.Outcome State Fault Refusal :=
  s.onLeaf l fun d => d.serveWrite e 0x2603 2 4 fun d v _ => d.flushCmd v

/-- Does a range of an acknowledgement name a record, in signed 32-bit order (R357)? -/
def inRange (x : Nat × Nat) (seq : Nat) : Bool := 0 ≤ seqDiff 32 seq x.1 && 0 ≤ seqDiff 32 x.2 seq

/-- The hub marks the named records ACKED (R230). -/
def Dev.ackRecords (d : Dev) (ranges : List (Nat × Nat)) : Dev :=
  let hit (r : Rec) : Bool := !r.acked && ranges.any (inRange · r.seq)
  let n := (d.heldRecs.filter hit).length
  (d.modRec hit (fun r => { r with acked := true })).add 0x2603_05 n

/-- RECORDER_ACK (R230). -/
def execRecorderAck (l : LeafId) (ranges : List (Nat × Nat)) (s : State) : Host.Outcome State Fault Refusal :=
  s.onLeaf l fun d => d.ackRecords ranges

/-- ACK_TIMEOUT (R230): when a flush other than a power-fail flush has ended, records sent and not acknowledged within
1 ms become unsent. -/
def execAckTimeout (l : LeafId) (s : State) : Host.Outcome State Fault Refusal :=
  s.onLeaf l fun d =>
    if d.rcd.flush.isSome || d.rcd.flushEnd.isNone then d
    else d.modRec (fun r => !r.acked && r.sentAt.any (d.now ≥ · + 1000000)) (fun r => { r with sentAt := none })

/-! ### Software's commands -/

/-- A write to `WriteRecord` (R218). -/
def Dev.writeRecordAns (d : Dev) (bs : Bytes) : Ans :=
  if bs.length % 4 != 0 || bs.length < 4 || bs.length > 1024 then fail d .typeLength
  else ok (d.record .software d.stamp bs)

/-- WRITE_RECORD (R218). -/
def execWriteRecord (u : UnitId) (e : Env) (data : Bytes) (s : State) : Host.Outcome State Fault Refusal :=
  s.on u fun d => d.serveDomain e 0x2605 0 data fun d bs => d.writeRecordAns bs

/-- A write to a command object whose only value is 1. -/
def cmdOne (d : Dev) (v : Nat) (r : Ans) : Ans := guardAns (v = 1) d .range r

/-- A write to `SnapNow` (R220). -/
def Dev.snapNowAns (d : Dev) (v : Nat) : Ans := cmdOne d v (ok (d.snapshot .snapNow d.stamp))

/-- SNAP_NOW (R220). -/
def execSnapNow (u : UnitId) (e : Env) (value : Nat) (s : State) : Host.Outcome State Fault Refusal :=
  s.on u fun d => d.serveWrite e 0x2601 5 value fun d v _ => d.snapNowAns v

/-- RECORDER_PORT_READ (R226). -/
def execRecorderPortRead (u : UnitId) (e : Env) (s : State) : Host.Outcome State Fault Refusal :=
  s.on u fun d => d.serve e 0x01 0x2604 2 0 fun d => d.readAns e 0x2604 2 0 8

/-! ### The trunk recorder -/

/-- The unit address of the leaf on Stem port `n` of a trunk (R21). -/
def Dev.leafAddress (d : Dev) (n : Nat) : Nat := d.get 0x3100_01 * 256 + n

/-- The bytes of a RECORDER_ACK that names one record (R357). -/
def ackBytes (seq : Nat) : Bytes := leBytes 2 1 ++ zeros 6 ++ leBytes 4 seq ++ leBytes 4 seq

/-- A leaf record reaches the trunk (R235 to R237): stored once, acknowledged each time (R230). -/
def Dev.takeLeafRecord (d : Dev) (port : Nat) (r : LeafRec) : Dev :=
  let o := d.leafAddress port
  let dup := d.heldRecs.any (fun x => x.origin = o && x.originSeq = r.seq && x.time = r.time)
  let d := if dup then d.inc 0x2610_03 else d.putRecord r.kind r.flags r.time r.payload (some (o, r.seq))
  d.toLeaf port 0x02 (ackBytes r.seq)

/-- LEAF_RECORD (R237). -/
def execLeafRecord (port : Nat) (r : LeafRec) (s : State) : Host.Outcome State Fault Refusal :=
  s.onTrunk fun d =>
    if port > 255 || r.payload.length % 4 != 0 || r.payload.length < 4 || r.payload.length > 1024 then d
    else d.takeLeafRecord port r

/-- Is a half's commit valid (R241)? -/
def CommitHalf.holds (h : CommitHalf) : Bool := h.order != 0 && (h.final || !h.progress.isEmpty)

/-- The half that holds the newest valid commit. -/
def newestCommit (hs : List CommitHalf) : Option Nat :=
  let order (n : Nat) : Nat := ((hs[n]?).map (·.order)).getD 0
  ((List.range 2).filter fun n => (hs[n]?).any (·.holds)).foldl (fun b n => match b with
    | none => some n
    | some m => if order m ≤ order n then some n else some m) none

/-- The half into which the next commit goes: the one that does not hold the newest valid commit (R239), erased or not since the boot
(log 109). -/
def Dev.commitHalf (d : Dev) : Nat := if newestCommit d.rcd.halves = some 0 then 1 else 0

/-- The commit starts (R240) with the records held, newest first, up to `CommitLimit` bytes. -/
def Dev.startCommit (d : Dev) : Dev :=
  let recs := recsWithin true (d.get 0x2610_01) d.heldRecs
  let total := recs.foldl (fun n r => n + recSize true r) 0
  let last := d.rcd.halves.foldl (fun n h => max n h.order) 0
  let h : CommitHalf := { order := last + 1, start := d.now, records := recs, total := total, final := total = 0 }
  let n := d.commitHalf
  { d with rcd := { d.rcd with halves := d.rcd.halves.set n h, commitDue := none,
                               committing := if total = 0 then none else some n } }

/-- RECORDER_COMMIT (R240): `CommitDelay` after the trunk's power-fail warning. -/
def execRecorderCommit (s : State) : Host.Outcome State Fault Refusal :=
  s.onTrunk fun d =>
    match d.rcd.commitDue with
    | some t => if d.now ≥ t + d.get 0x2610_02 then d.startCommit else d
    | none => d

/-- The next 65,536 bytes of a commit are programmed, with their progress word; what ends it, with the final word. -/
def CommitHalf.program (h : CommitHalf) : CommitHalf :=
  if h.written + 65536 ≤ h.total then
    { h with written := h.written + 65536, progress := h.progress ++ [h.written + 65536],
             final := h.written + 65536 = h.total }
  else { h with written := h.total, final := true }

/-- PROGRESS_WORD_PROGRAMMED (R240). -/
def execProgressWordProgrammed (s : State) : Host.Outcome State Fault Refusal :=
  s.onTrunk fun d =>
    match d.rcd.committing with
    | none => d
    | some n =>
      let h := ((d.rcd.halves[n]?).getD {}).program
      { d with rcd := { d.rcd with halves := d.rcd.halves.set n h,
                                   committing := if h.final then none else some n } }

/-- At boot the newest valid commit is found, and the other half is erased (R239, R241). -/
def Dev.bootCommit (d : Dev) : Dev :=
  let hs := d.rcd.halves
  let best := newestCommit hs
  let hs' := hs.zipIdx.map (fun (h, n) => if best = some n then h else {})
  let d := { d with rcd := { d.rcd with halves := hs', saved := best, committing := none, commitDue := none } }
  d.flagIf (best.any (fun n => !((hs[n]?).any (·.final)))) 0x2606 2

end Sys2Proof.Machine
end

