-- ==== Sys2Proof/Machine/Trace.lean ====
section
/-! DEFINITION. The data-access trace (chapter 05): packets, the funnel, the ring, triggers and the freeze, drains,
captures and digests; and the fatal fault. -/

namespace Sys2Proof.Machine

open Sys2Proof

/-! ### Sources -/

/-- A trace source. -/
def Dev.srcAt (d : Dev) (s : Nat) : TSource := (d.trc.srcs[s]?).getD {}

/-- A trace source changed. -/
def Dev.modSrc (d : Dev) (s : Nat) (f : TSource → TSource) : Dev :=
  { d with trc := { d.trc with srcs := d.trc.srcs.modify s f } }

/-- The tap that owns a source (R179). -/
def Dev.srcTap (d : Dev) (s : Nat) : Nat := d.get (key (0x2510 + s) 2)

/-- The trace state (R200). -/
def Dev.traceState (d : Dev) : Nat := d.get 0x2501_01

/-- Does the trace record: ARMED or TRIGGERED (R200)? -/
def Dev.recording (d : Dev) : Bool := d.traceState = 1 || d.traceState = 2

/-- Are a source and the trace enabled and the trace recording (R183)? -/
def Dev.traced (d : Dev) (s : Nat) : Bool := d.recording && d.on 0x2500_01 && d.on (key (0x2510 + s) 1)

/-- Does a source make TRACE packets: it is also awake (R183, R197)? -/
def Dev.tracing (d : Dev) (s : Nat) : Bool := d.traced s && (d.srcAt s).asleep.isNone

/-! ### Packets (R186 to R192) -/

/-- The first four bytes of a packet (R186). -/
def packetHead (kind source flags stamp : Nat) : Bytes :=
  leBytes 1 (kind * 16 + source) ++ leBytes 1 flags ++ leBytes 2 (stamp / 8 % 65536)

/-- Where a packet stands among packets of one stamp (R195). -/
inductive PlaceOf where
  | sleep (s : Nat) | wake (s : Nat) | trigger (n : Nat) | overflow (s : Nat) | sync (s : Nat) | data (s : Nat)
  deriving DecidableEq, Repr

/-- The rank of a place. -/
def PlaceOf.rank : PlaceOf → Nat
  | .sleep s => s
  | .wake s => 16 + s
  | .trigger n => 32 + n
  | .overflow s => 64 + 4 * s
  | .sync s => 65 + 4 * s
  | .data s => 66 + 4 * s

/-- A packet at a place. -/
def pkt (p : PlaceOf) (source stamp : Nat) (bytes : Bytes) (toCap : Bool) (cap : Option (Nat × Nat)) : TPkt :=
  { stamp := stamp, rank := p.rank, source := source, bytes := bytes, toCap := toCap, cap := cap }

/-- The reasons of a SYNC packet (R188). -/
inductive SyncReason where
  | start | periodic | wake | overflow | trigger
  deriving DecidableEq, Repr

/-- The code of a SYNC reason (R188). -/
def SyncReason.code : SyncReason → Nat
  | .start => 1 | .periodic => 2 | .wake => 3 | .overflow => 4 | .trigger => 5

/-- The bytes of a SYNC packet (R188). -/
def Dev.syncBytes (d : Dev) (source stamp : Nat) (r : SyncReason) : Bytes :=
  packetHead 2 source (b2n (d.uncertainAt stamp)) stamp ++ leBytes 1 r.code ++ zeros 3 ++ leBytes 8 stamp

/-- The bytes that a source's FIFO holds. -/
def fifoBytes (l : List TPkt) : Nat := l.foldl (fun n p => n + p.bytes.length) 0

/-- The room left in a source's 2 KiB FIFO (R194). -/
def TSource.room (x : TSource) : Nat := 2048 - fifoBytes x.fifo

/-- A source has made a packet. -/
def Dev.countPkt (d : Dev) (s : Nat) : Dev := d.inc (key (0x2510 + s) 4)

/-- A packet that is known to fit enters its source's FIFO. -/
def Dev.enqueue (d : Dev) (s : Nat) (p : TPkt) : Dev :=
  (d.countPkt s).modSrc s fun x => { x with fifo := x.fifo ++ [p] }

/-- The OVERFLOW packet of a source and its SYNC enter the FIFO (R189, R193, R196). -/
def Dev.putOverflow (d : Dev) (s lost tag : Nat) (capture toCap : Bool) : Dev :=
  let t := d.stamp
  let o := packetHead 3 s (b2n capture) t ++ leBytes 4 (satNat 32 lost) ++ leBytes 2 tag ++ zeros 6
  let d := d.enqueue s (pkt (.overflow s) s t o toCap none)
  let d := d.enqueue s (pkt (.overflow s) s t (d.syncBytes s t .overflow) toCap none)
  let d := d.modSrc s fun x => { x with lastSync := d.time.tick }
  let d := (d.always 0x1F lost).add (key (0x2510 + s) 3) lost
  d.flag 0x2503 0

/-- A source with room for 32 bytes reports a loss (R196, R210): of a capture first, then of digests, then of the
trace while it records. -/
def Dev.reportLoss (d : Dev) (s : Nat) : Dev :=
  let x := d.srcAt s
  if x.room < 32 || x.asleep.isSome then d
  else match x.capLost with
    | (tag, n) :: rest => (d.modSrc s fun x => { x with capLost := rest }).putOverflow s n tag true true
    | [] =>
      if x.digLost != 0 then (d.modSrc s fun x => { x with digLost := 0 }).putOverflow s x.digLost 0 false true
      else if x.lost != 0 && d.recording then
        (d.modSrc s fun x => { x with lost := 0 }).putOverflow s x.lost 0 false false
      else d

/-- A capture is lost (R210): the source stops capturing and reports it. `n` packets were lost. -/
def Dev.loseCapture (d : Dev) (s n : Nat) : Dev :=
  match (d.srcAt s).capture with
  | none => d
  | some c =>
    let d := d.modSrc s fun x => { x with capture := none, capLost := x.capLost ++ [(c.tag, n)] }
    let d := (d.inc 0x2501_09).flag 0x2503 1
    d.reportLoss s

/-- A source makes a packet: it enters the FIFO, or is lost (R196, R210, R212). -/
def Dev.makePkt (d : Dev) (s : Nat) (p : TPkt) : Dev :=
  if p.bytes.length ≤ (d.srcAt s).room then d.enqueue s p
  else
    let d := d.countPkt s
    if p.cap.isSome then d.loseCapture s 1
    else if p.toCap then d.modSrc s fun x => { x with digLost := x.digLost + 1 }
    else d.modSrc s fun x => { x with lost := x.lost + 1 }

/-- A source emits a SYNC packet (R193). -/
def Dev.sync (d : Dev) (s : Nat) (r : SyncReason) : Dev :=
  let t := d.stamp
  let d := d.makePkt s (pkt (.sync s) s t (d.syncBytes s t r) false none)
  d.modSrc s fun x => { x with lastSync := d.time.tick }

/-- The hub itself makes a packet. -/
def Dev.hubPkt (d : Dev) (p : TPkt) : Dev := { d with trc := { d.trc with hubq := d.trc.hubq ++ [p] } }

/-! ### The ring (R194, R195, R198, R202) -/

/-- The bytes that the ring holds. -/
def Dev.ringFill (d : Dev) : Nat := fifoBytes d.trc.ring

/-- Is the ring's Destination STREAM (R198)? -/
def Dev.streaming (d : Dev) : Bool := d.get 0x2500_02 = 1

/-- May the funnel move a packet now: one for the recompute source always; one for the ring unless the trace is
FROZEN, its stamp is at or past a freeze that is set (R202), or a STREAM ring is full (R198)? -/
def Dev.admitsPkt (d : Dev) (p : TPkt) : Bool :=
  p.toCap || (d.traceState != 3 && (!d.trc.bound || p.stamp < d.get 0x2501_03)
    && (!d.streaming || d.ringFill + p.bytes.length ≤ 2097152))

/-- Does a packet come before another in the ring (R195)? -/
def TPkt.before (p q : TPkt) : Bool := p.stamp < q.stamp || (p.stamp = q.stamp && p.rank < q.rank)

/-- The oldest whole packets leave a ring until `size` bytes fit; the number that left. -/
def makeRoom (size : Nat) : List TPkt → Nat → List TPkt × Nat
  | [], n => ([], n)
  | p :: ps, n => if fifoBytes (p :: ps) + size ≤ 2097152 then (p :: ps, n) else makeRoom size ps (n + 1)

/-- A packet enters the ring (R195, R198). -/
def Dev.enterRing (d : Dev) (p : TPkt) : Dev :=
  let (kept, gone) := makeRoom p.bytes.length d.trc.ring 0
  let d := { d with trc := { d.trc with ring := insertBy TPkt.before p kept } }
  let d := if gone = 0 then d else d.setB 0x2501_07 true
  d.inc 0x2501_08

/-- A packet joins the recompute capture source (R310): packets of one capture share transfers of up to 4,096 bytes. -/
def Dev.enterRecompute (d : Dev) (p : TPkt) : Dev :=
  let q := d.queue 4
  match q.getLast? with
  | some x =>
    if x.cuts = 0 && x.capture = p.cap && x.bytes.length + p.bytes.length ≤ 4096 then
      d.setQueue 4 (q.dropLast ++ [{ x with bytes := x.bytes ++ p.bytes }])
    else d.queueUp .recompute { cls := 0x07, bytes := p.bytes, capture := p.cap }
  | none => d.queueUp .recompute { cls := 0x07, bytes := p.bytes, capture := p.cap }

/-- Has a packet for the recompute source its place there: no packet that waits for it comes before (R195)? -/
def Dev.inOrder (d : Dev) (p : TPkt) : Bool := !d.trc.srcs.any fun x => x.fifo.any fun q => q.toCap && q.before p

/-- The first packet of a queue that the funnel may move. -/
def Dev.firstOf (d : Dev) (l : List TPkt) : Option TPkt := l.find? fun p => d.admitsPkt p && (!p.toCap || d.inOrder p)

/-- The sources in the order in which the funnel serves them: round-robin (R194). -/
def Dev.turns (d : Dev) : List Nat :=
  let n := d.trc.srcs.length
  (List.range n).map fun i => (d.trc.turn + i) % n

/-- The packet that the funnel moves next: one that the hub itself has made, at source none, before a source's in its
turn (R194; log 108). -/
def Dev.funnelNext (d : Dev) : Option (Option Nat × TPkt) :=
  match d.firstOf d.trc.hubq with
  | some p => some (none, p)
  | none => d.turns.findSome? fun s => (d.firstOf (d.srcAt s).fifo).map (some s, ·)

/-- The funnel moves one whole packet. -/
def Dev.funnel (d : Dev) : Dev :=
  match d.funnelNext with
  | none => d
  | some (src, p) =>
    let d := match src with
      | none => { d with trc := { d.trc with hubq := d.trc.hubq.erase p } }
      | some s => Dev.modSrc { d with trc := { d.trc with turn := s + 1 } } s fun x => { x with fifo := x.fifo.erase p }
    if p.toCap then d.enterRecompute p else d.enterRing p

/-- FUNNEL_TRANSFER (R194). -/
def execFunnelTransfer (l : LeafId) (s : State) : Host.Outcome State Fault Refusal := s.onLeaf l Dev.funnel

/-- OVERFLOW_PACKET (R196). -/
def execOverflowPacket (l : LeafId) (src : Nat) (s : State) : Host.Outcome State Fault Refusal :=
  s.onLeaf l fun d => if src < d.cfg.traceSources then d.reportLoss src else d

/-- PERIODIC_SYNC (R193). -/
def execPeriodicSync (l : LeafId) (src : Nat) (s : State) : Host.Outcome State Fault Refusal :=
  s.onLeaf l fun d =>
    if src < d.cfg.traceSources && d.tracing src && d.time.tick ≥ (d.srcAt src).lastSync + d.get 0x2500_04 then
      d.sync src .periodic
    else d

/-! ### Triggers (R199 to R205) -/

/-- The causes of a trace trigger (R191). -/
inductive TrigCause where
  | selector (k : Nat) | software | fleet (id : Nat) | fatal
  deriving DecidableEq, Repr

/-- Cause, Detail and TriggerId of a TRIGGER packet (R191), and the place among triggers of one tick (R201). -/
def TrigCause.fields : TrigCause → Nat × Nat × Nat × Nat
  | .selector k => (1, k, 0, 2 + k)
  | .software => (2, 0, 0, 6)
  | .fleet id => (3, 0, id, 1)
  | .fatal => (4, 0, 0, 0)

/-- The cause of the snapshot record that a trigger offers the recorder (R220). -/
def TrigCause.snap : TrigCause → SnapCause
  | .selector k => .selector k
  | .software => .software
  | .fleet _ => .fleet
  | .fatal => .fatal

/-- A TRIGGER packet and its SYNC (R191, R193). -/
def Dev.triggerPkt (d : Dev) (c : TrigCause) (origin : Nat) (late : Bool) : Dev :=
  let (cause, detail, id, place) := c.fields
  let t := d.stamp
  let bs := packetHead 6 0 (b2n late + 2 * b2n (d.uncertainAt t)) t ++ leBytes 1 cause ++ leBytes 1 detail ++
    zeros 2 ++ leBytes 4 (ft32 origin) ++ leBytes 4 id
  let d := d.hubPkt (pkt (.trigger place) 0 t bs false none)
  d.hubPkt (pkt (.trigger place) 0 t (d.syncBytes 0 t .trigger) false none)

/-- A trigger sets the freeze (R199, R200). -/
def Dev.setFreeze (d : Dev) (c : TrigCause) (origin : Nat) : Dev :=
  let d := d.triggerPkt c origin false
  let delay := 8 * ((d.get 0x2500_03 + 7) / 8)
  let d := (d.set 0x2501_02 d.stamp).set 0x2501_03 (max (origin + delay) d.stamp)
  let d := { d with trc := { d.trc with setter := c.fields.2.2.2, bound := true } }
  ((d.set 0x2501_04 c.fields.1).set 0x2501_01 2).flag 0x2503 2

/-- A TRIGGER packet of a stamp becomes LATE (R201). -/
def lateAt (t : Nat) (p : TPkt) : TPkt :=
  if p.stamp = t && natAt p.bytes 0 1 = 0x60 then { p with bytes := p.bytes.set 1 (p.bytes.getD 1 0 ||| 1) } else p

/-- A trigger of this tick comes before the one that has set the freeze in it, which is LATE (R201). -/
def Dev.takeOver (d : Dev) (c : TrigCause) (origin : Nat) : Dev :=
  let late := lateAt d.stamp
  let d := { d with trc := { d.trc with hubq := d.trc.hubq.map late, ring := d.trc.ring.map late } }
  (d.setFreeze c origin).inc 0x2501_05

/-- The trace takes a trigger whose stamp is this tick (R199 to R201). -/
def Dev.traceTrigger (d : Dev) (c : TrigCause) (origin : Nat) : Dev :=
  match d.traceState with
  | 1 => d.setFreeze c origin
  | 2 =>
    if d.get 0x2501_02 = d.stamp && c.fields.2.2.2 < d.trc.setter then d.takeOver c origin
    else (d.triggerPkt c origin true).inc 0x2501_05
  | 3 => d.inc 0x2501_05
  | _ => d

/-- A trigger fires (R204): the trace and the recorder take it, but not in a tick whose number a backward step repeats (R96),
where it has no effect (log 104). -/
def Dev.trigger (d : Dev) (c : TrigCause) (origin : Nat) : Dev :=
  if d.time.dead then d
  else
    let d := if d.isTrunk then d else d.traceTrigger c origin
    d.snapshot c.snap origin

/-- One occurrence of the event of selector `k` (R205): it fires in no tick that repeats a number (R96). -/
def Dev.selectorHit (d : Dev) (k : Nat) : Dev :=
  let i := 0x2508 + k
  if d.cfg.traceSources = 0 || !d.on (key i 1) || d.trc.fired.getD k false then d
  else
    let n := d.get (key i 7) + 1
    let d := d.set (key i 7) n
    if n < d.get (key i 4) || d.time.dead then d
    else Dev.trigger { d with trc := { d.trc with fired := d.trc.fired.set k true } } (.selector k) d.stamp

/-- The trace freezes: packets still waiting for the ring are lost (R202). -/
def Dev.frozen (d : Dev) : Dev :=
  let drop (x : TSource) : TSource :=
    let kept := x.fifo.filter (·.toCap)
    { x with fifo := kept, lost := x.lost + (x.fifo.length - kept.length) }
  let d := { d with trc := { d.trc with srcs := d.trc.srcs.map drop, hubq := [] } }
  d.set 0x2501_01 3

/-- FREEZE (R202): once every packet stamped below the freeze has entered, at the latest 512 ns after it. -/
def execFreeze (l : LeafId) (s : State) : Host.Outcome State Fault Refusal :=
  s.onLeaf l fun d =>
    let f := d.get 0x2501_03
    let waits := (d.trc.hubq ++ d.trc.srcs.flatMap (·.fifo)).any (fun p => !p.toCap && p.stamp < f)
    if d.traceState = 2 && d.stamp ≥ f && (!waits || d.stamp ≥ f + 512) then d.frozen else d

/-- Move packets until none can move or `fuel` runs out. -/
def funnelAll : (fuel : Nat) → Dev → Dev
  | 0, d => d
  | fuel + 1, d => if d.funnelNext.isNone then d else funnelAll fuel d.funnel

/-- The power-fail warning freezes the trace in its own tick and abandons captures (R203, R210): what is stamped below
the freeze still enters (R202). -/
def Dev.freezeOnPowerFail (d : Dev) : Dev :=
  if d.cfg.traceSources = 0 then d
  else
    let at_ := if d.traceState = 2 then min (d.get 0x2501_03) d.stamp else d.stamp
    let d := if d.recording then (d.set 0x2501_03 at_).set 0x2501_01 2 else d
    let d := { d with trc := { d.trc with bound := d.trc.bound || d.recording } }
    let n := d.trc.hubq.length + (d.trc.srcs.flatMap (·.fifo)).length
    let d := (funnelAll n d).frozen
    let d := ((d.set 0x2501_03 d.stamp).set 0x2501_04 5).flag 0x2503 3
    (List.range d.cfg.traceSources).foldl (fun d s => d.loseCapture s 0) d

/-- SOFT_TRIGGER (R199). -/
def execSoftTrigger (l : LeafId) (e : Env) (value : Nat) (s : State) : Host.Outcome State Fault Refusal :=
  s.onLeaf l fun d => d.serveWrite e 0x2500 7 value fun d v _ => cmdOne d v (ok (d.trigger .software d.stamp))

/-- A fatal fault: its record, its trigger, and the flush of a leaf (R204, R216, R228). -/
def Dev.fatalFault (d : Dev) (code detail : Nat) : Dev :=
  let d := d.record .fatal d.stamp (leBytes 2 code ++ zeros 2 ++ leBytes 4 detail)
  (d.trigger .fatal d.stamp).flushOn .fatal

/-! ### Control (R206, R207) -/

/-- A source's packets that a freeze keeps out of the ring are lost (R196, R202). -/
def TSource.dropLate (x : TSource) (freeze : Nat) : TSource :=
  let kept := x.fifo.filter fun p => p.toCap || p.stamp < freeze
  { x with fifo := kept, lost := x.lost + (x.fifo.length - kept.length) }

/-- The trace enters ARMED with an empty ring (R193, R206); what an earlier freeze kept out does not enter it (R202). -/
def Dev.armTrace (d : Dev) : Dev :=
  let f := d.get 0x2501_03
  let d := if d.trc.bound then
      { d with trc := { d.trc with srcs := d.trc.srcs.map (·.dropLate f), hubq := d.trc.hubq.filter (·.stamp < f), bound := false } }
    else d
  let d := Dev.set { d with trc := { d.trc with ring := [] } } 0x2501_01 1
  (List.range d.cfg.traceSources).foldl (fun d s => if d.tracing s then d.sync s .start else d) d

/-- A write to the trace's `Enable` (R206). -/
def Dev.traceEnableAns (d : Dev) (v : Nat) : Ans :=
  let was := d.traceState
  let d := d.set 0x2500_01 v
  ok (if v = 0 then d.set 0x2501_01 0 else if was = 0 then d.armTrace else d)

/-- TRACE_ENABLE (R206). -/
def execTraceEnable (l : LeafId) (e : Env) (value : Nat) (s : State) : Host.Outcome State Fault Refusal :=
  s.onLeaf l fun d => d.serveWrite e 0x2500 1 value fun d v _ => d.traceEnableAns v

/-- A write to `Rearm` (R206). -/
def Dev.rearmAns (d : Dev) (v : Nat) : Ans :=
  cmdOne d v <|
    if d.traceState = 0 || d.trc.drain.isSome then fail d .state
    else
      let d := (List.range 4).foldl (fun d k => d.set (key (0x2508 + k) 7) 0) (d.setB 0x2501_07 false)
      ok (Dev.armTrace { d with trc := { d.trc with fired := List.replicate 4 false } })

/-- REARM (R206). -/
def execRearm (l : LeafId) (e : Env) (value : Nat) (s : State) : Host.Outcome State Fault Refusal :=
  s.onLeaf l fun d => d.serveWrite e 0x2500 6 value fun d v _ => d.rearmAns v

/-- A write to `DrainCmd` (R207). -/
def Dev.drainAns (d : Dev) (v : Nat) : Ans :=
  cmdOne d v <|
    if d.trc.drain.isSome then fail d .busy
    else if d.recording then fail d .state
    else ok { d with trc := { d.trc with drain := some d.trc.ring } }

/-- DRAIN_CMD (R207). -/
def execDrainCmd (l : LeafId) (e : Env) (value : Nat) (s : State) : Host.Outcome State Fault Refusal :=
  s.onLeaf l fun d => d.serveWrite e 0x2500 8 value fun d v _ => d.drainAns v

/-- The oldest whole packets of a list, up to 4,096 bytes, and the rest (R310). -/
def drainChunk (room : Nat) : List TPkt → Bytes × List TPkt
  | [] => ([], [])
  | p :: ps =>
    if p.bytes.length ≤ room then
      let (bs, rest) := drainChunk (room - p.bytes.length) ps
      (p.bytes ++ bs, rest)
    else ([], p :: ps)

/-- The trace drain offers its next transfer to the uplink (R198, R207): of a drain command, or of a STREAM ring; after
a power-fail freeze no stream (R203). -/
def Dev.offerDrain (d : Dev) : Dev :=
  if !(d.queue 3).isEmpty then d
  else match d.trc.drain with
  | some (p :: ps) =>
    let (bs, rest) := drainChunk 4096 (p :: ps)
    Dev.queueUp { d with trc := { d.trc with drain := some rest } } .traceDrain { cls := 0x06, bytes := bs }
  | _ =>
    if d.trc.drain.isSome || !d.streaming || d.traceState = 0 || (d.traceState = 3 && d.get 0x2501_04 = 5)
      || d.trc.ring.isEmpty then d
    else
      let (bs, rest) := drainChunk 4096 d.trc.ring
      Dev.queueUp { d with trc := { d.trc with ring := rest } } .traceDrain { cls := 0x06, bytes := bs }

/-- DRAIN_DONE (R207): the last packet of the drain has left. -/
def execDrainDone (l : LeafId) (s : State) : Host.Outcome State Fault Refusal :=
  s.onLeaf l fun d =>
    if d.trc.drain = some [] && (d.queue 3).isEmpty && d.arb.current != 3 then { d with trc := { d.trc with drain := none } }
    else d

/-! ### Sleep and wake (R197) -/

/-- The sources whose tap lies in a clock region. -/
def Dev.srcsOf (d : Dev) (r : Nat) : List Nat :=
  (List.range d.cfg.traceSources).filter (fun s => (d.tapDesc (d.srcTap s)).region = r
    && (d.cfg.taps[d.srcTap s]?).isSome)

/-- A region stops at `stop` or powers down, be it from a stop: its sources sleep (R190, R197). -/
def Dev.sleepSrcs (d : Dev) (r stop : Nat) (powerDown : Bool) : Dev :=
  (d.srcsOf r).foldl (fun d s =>
    let d := if d.traced s then
        (d.countPkt s).hubPkt (pkt (.sleep s) s stop (packetHead 4 s (b2n powerDown) stop ++ zeros 4) false none)
      else d
    d.modSrc s fun x => { x with asleep := some (x.asleep.getD stop) }) d

/-- A region resumes or powers up: its sources wake (R190, R193, R197). -/
def Dev.wakeSrcs (d : Dev) (r : Nat) (powerUp : Bool) : Dev :=
  (d.srcsOf r).foldl (fun d s =>
    match (d.srcAt s).asleep with
    | none => d
    | some stop =>
      let t := d.stamp
      let d := d.modSrc s fun x => { x with asleep := none }
      if d.tracing s then
        let bs := packetHead 5 s (b2n powerUp) t ++ leBytes 4 (satNat 32 ((t - stop) / 8))
        let d := ((d.countPkt s).countPkt s).hubPkt (pkt (.wake s) s t bs false none)
        let d := d.hubPkt (pkt (.wake s) s t (d.syncBytes s t .wake) false none)
        d.modSrc s fun x => { x with lastSync := d.time.tick }
      else d) d

/-! ### Filters, captures and digests -/

/-- The enabled filters of a source with a role that match an access (R182). -/
def Dev.matching (d : Dev) (s role : Nat) (a : PortAccess) : List Nat :=
  (List.range 8).filter fun f =>
    let i := 0x2520 + 8 * s + f
    let c := d.get (key i 3)
    c.testBit 0 && field c 5 4 = role && c.testBit (if a.write then 2 else 1)
      && d.get (key i 1) ≤ a.addr && a.addr ≤ d.get (key i 2)

/-- Has a source an enabled filter of a role? -/
def Dev.hasFilter (d : Dev) (s role : Nat) : Bool :=
  (List.range 8).any fun f =>
    let c := d.get (key (0x2520 + 8 * s + f) 3)
    c.testBit 0 && field c 5 4 = role

/-- The tag of the command held on the source's tap, 0 if none (R187). -/
def Dev.heldTag (d : Dev) (s : Nat) : Nat := ((d.tapAt (d.srcTap s)).held.map (·.tag)).getD 0

/-- The bytes of a DATA packet (R187). -/
def dataPacket (s stamp filter tag : Nat) (a : PortAccess) (captured : Bytes) (capture trunc : Bool) : Bytes :=
  packetHead 1 s (filter * 16 + 8 * b2n capture + 4 * b2n a.error + 2 * b2n trunc + b2n a.write) stamp ++
  leBytes 1 a.size ++ leBytes 1 captured.length ++ leBytes 2 tag ++ leBytes 8 a.addr ++
  bytesAt captured 0 (alignUp captured.length 8)

/-- The TRACE role of an access (R183). -/
def Dev.traceRole (d : Dev) (s : Nat) (a : PortAccess) : Dev :=
  match d.matching s 0 a with
  | [] => d
  | f :: _ =>
    if !d.tracing s then d
    else
      let c := d.get (key (0x2520 + 8 * s + f) 3)
      let most := field c 15 8
      let trunc := most < a.size
      let bs := if !trunc then a.value else if c.testBit 3 then a.value.take most else []
      d.makePkt s (pkt (.data s) s d.stamp (dataPacket s d.stamp f (d.heldTag s) a bs false trunc) false none)

/-- The CAPTURE role of an access (R209). -/
def Dev.captureRole (d : Dev) (s : Nat) (a : PortAccess) : Dev :=
  match (d.srcAt s).capture with
  | none => d
  | some c =>
    if d.hasFilter s 1 && (d.matching s 1 a).isEmpty then d
    else
      let d := d.modSrc s fun x =>
        { x with capture := some { c with crc := crc32cStep c.crc a.value, bytes := c.bytes + a.value.length } }
      d.makePkt s (pkt (.data s) s d.stamp (dataPacket s d.stamp 0 (d.heldTag s) a a.value true false) true
        (some (s, c.begin)))

/-- The kinds of a DIGEST packet (R192). -/
inductive DigestKind where
  | block | command | captureEnd
  deriving DecidableEq, Repr

/-- The code of a DIGEST packet's Kind (R192). -/
def DigestKind.code : DigestKind → Nat
  | .block => 1 | .command => 2 | .captureEnd => 3

/-- A source sends a DIGEST packet (R192). -/
def Dev.digestPkt (d : Dev) (s : Nat) (k : DigestKind) (tag : Nat) (crc : BitVec 32) (bytes index : Nat)
    (cap : Option (Nat × Nat)) : Dev :=
  let bs := packetHead 7 s 0 d.stamp ++ leBytes 1 k.code ++ zeros 1 ++ leBytes 2 tag ++ leBytes 4 (~~~ crc).toNat ++
    leBytes 4 (satNat 32 bytes) ++ leBytes 8 index
  d.makePkt s (pkt (.data s) s d.stamp bs true cap)

/-- The open BLOCK digest of a source closes and a new one opens (R211, R212). -/
def Dev.closeBlock (d : Dev) (s : Nat) : Dev :=
  let x := d.srcAt s
  let d := d.digestPkt s .block 0 x.digest x.digBytes x.blockNo none
  d.modSrc s fun x => { x with digest := 0xFFFFFFFF#32, digBytes := 0, blockNo := x.blockNo + 1 }

/-- Does a command with a tag match the COMMAND digests of a source (R211)? -/
def Dev.digestTag (d : Dev) (s tag : Nat) : Bool :=
  d.get (key (0x2510 + s) 6) = 3 && tag &&& d.get (key (0x2510 + s) 9) = d.get (key (0x2510 + s) 8)

/-- The BEGIN stamp of the command held on a source's tap, if a COMMAND digest covers it (R211). -/
def Dev.digestHeld (d : Dev) (s : Nat) : Option Nat :=
  ((d.tapAt (d.srcTap s)).held.filter fun h => d.digestTag s h.tag).map (·.begin)

/-- The DIGEST role of an access (R211). -/
def Dev.digestRole (d : Dev) (s : Nat) (a : PortAccess) : Dev :=
  let mode := d.get (key (0x2510 + s) 6)
  if mode = 0 || (d.matching s 2 a).isEmpty || (mode = 3 && (d.digestHeld s).isNone) then d
  else
    let d := d.modSrc s fun x =>
      { x with digest := crc32cStep x.digest a.value, digBytes := x.digBytes + a.value.length
               digCmd := if mode = 3 then d.digestHeld s else x.digCmd }
    if mode = 2 && (d.srcAt s).digBytes ≥ d.get (key (0x2510 + s) 7) then d.closeBlock s else d

/-- TRACE_ACCESS (R183, R209, R211): each role acts on the access independently (R182). -/
def execTraceAccess (l : LeafId) (src : Nat) (a : PortAccess) (s : State) : Host.Outcome State Fault Refusal :=
  s.onLeaf l fun d =>
    let a := { a with value := bytesAt a.value 0 a.size, addr := a.addr % 2 ^ 64 }
    if src ≥ d.cfg.traceSources || a.size = 0 || a.size > 64 || (d.srcAt src).asleep.isSome then d
    else ((d.traceRole src a).captureRole src a).digestRole src a

/-- DIGEST_BLOCK_CLOSE (R211): evt[6] of the source's tap. -/
def execDigestBlockClose (l : LeafId) (src : Nat) (s : State) : Host.Outcome State Fault Refusal :=
  s.onLeaf l fun d =>
    if src < d.cfg.traceSources && d.get (key (0x2510 + src) 6) = 1 && (d.srcAt src).asleep.isNone then
      d.closeBlock src
    else d

/-- A write to a source's `DigestMode` (R212): a COMMAND digest opens on a command that is held (R211). -/
def Dev.digestModeAns (d : Dev) (i v : Nat) : Ans :=
  let d := d.set (key i 6) v
  ok (d.modSrc (i - 0x2510) fun x =>
    { x with digest := 0xFFFFFFFF#32, digBytes := 0, blockNo := 0, digCmd := d.digestHeld (i - 0x2510) })

/-- DIGEST_MODE_WRITE (R212). -/
def execDigestModeWrite (l : LeafId) (e : Env) (src value : Nat) (s : State) : Host.Outcome State Fault Refusal :=
  s.onLeaf l fun d => d.serveWrite e (0x2510 + src) 6 value fun d v _ => d.digestModeAns (0x2510 + src) v

/-- A write to `CaptureArm` (R209, R213). -/
def Dev.captureArmAns (d : Dev) (v : Nat) : Ans :=
  let s := field v 35 32
  if s ≥ d.cfg.traceSources then fail d .range
  else if (d.srcAt s).arm.isSome || (d.srcAt s).capture.isSome then fail d .busy
  else ok (d.modSrc s fun x => { x with arm := some (field v 15 0, field v 31 16) })

/-- CAPTURE_ARM (R209). -/
def execCaptureArm (l : LeafId) (e : Env) (value : Word) (s : State) : Host.Outcome State Fault Refusal :=
  s.onLeaf l fun d => d.serveWrite e 0x25A0 0 value.toNat fun d v _ => d.captureArmAns v

/-- The sources that a tap owns. -/
def Dev.srcsOfTap (d : Dev) (t : Nat) : List Nat := (List.range d.cfg.traceSources).filter (d.srcTap · = t)

/-- A BEGIN on a tap starts an armed capture (R209) and opens a COMMAND digest (R211). -/
def Dev.traceBegin (d : Dev) (t tag : Nat) : Dev :=
  (d.srcsOfTap t).foldl (fun d s =>
    let d := match (d.srcAt s).arm with
      | some (want, mask) =>
        if tag &&& mask = want then
          d.modSrc s fun x => { x with arm := none, capture := some { tag := tag, begin := d.stamp } }
        else d
      | none => d
    if d.digestTag s tag then
      d.modSrc s fun x => { x with digest := 0xFFFFFFFF#32, digBytes := 0, digCmd := some d.stamp }
    else d) d

/-- The END of a held command on a tap, begun at `begin`, ends its capture (R209) and closes its COMMAND digest (R211). -/
def Dev.traceEnd (d : Dev) (t tag begin : Nat) : Dev :=
  (d.srcsOfTap t).foldl (fun d s =>
    let x := d.srcAt s
    let d := match x.capture with
      | some c =>
        let d := d.digestPkt s .captureEnd c.tag c.crc c.bytes c.begin (some (s, c.begin))
        if (d.srcAt s).capture.isSome then
          ((d.modSrc s fun x => { x with capture := none }).inc 0x25A1_01).always 0x2E 1
        else d
      | none => d
    match x.digCmd.or (if d.digestTag s tag then some begin else none) with
    | some b =>
      let d := d.digestPkt s .command tag x.digest x.digBytes b none
      d.modSrc s fun x => { x with digest := 0xFFFFFFFF#32, digBytes := 0, digCmd := none }
    | none => d) d

end Sys2Proof.Machine
end

