-- ==== Sys2Proof/Machine/Time.lean ====
section
/-! DEFINITION. FleetTime (chapter 02): the counter and its steps, time messages, the class A servo, the choice of the
source, the transmit timestamp queue, UTC mapping, and the stops of clock regions. -/

namespace Sys2Proof.Machine

open Sys2Proof

/-! ### The counter -/

/-- The time-clock cycles until the nanosecond count next reaches or passes a multiple of 8 (R76). -/
def cyclesToTick (total inc target : Nat) : Nat := max 1 ((target - total + inc - 1) / inc)

/-- FleetTime runs on to its next sample tick (R73, R76, R96). -/
def Dev.advance (d : Dev) : Dev :=
  let inc := max 1 (d.get 0x2001_03)
  let total := d.time.ns * 2 ^ 32 + d.time.frac
  let total := total + cyclesToTick total inc (8 * (d.time.tick + 1) * 2 ^ 32) * inc
  let ns := total / 2 ^ 32 % 2 ^ 64
  let tick := ns / 8
  { d with
    sets := []
    rcd := { d.rcd with fresh := 0 }
    srv := { d.srv with cmds := [] }
    time := { d.time with
      ns := ns, frac := total % 2 ^ 32, tick := tick, ran := d.time.ran + 1, highest := max d.time.highest tick,
      dead := tick ≤ d.time.highest, since := d.time.stepFrom.getD d.time.tick, stepFrom := none } }

/-- The time in ns that sample ticks have measured since reset: steps do not move it (R87, R93, R98, R99). -/
def Dev.elapsed (d : Dev) : Nat := 8 * d.time.ran

/-- FleetTime is stepped by a multiple of 8 ns (R95, R96): STEPPED, `Steps` and the TIME_EVENT record of the tick. -/
def Dev.stepTime (d : Dev) (v : Int) : Dev :=
  let d := ((d.inc 0x2002_0D).flag 0x2006 1).timeEvent 2 v
  let ns := ofSigned 64 ((d.time.ns : Int) + v)
  let from_ := if 0 < v then some (d.time.stepFrom.getD d.time.tick) else none
  { d with time := { d.time with ns := ns, tick := ns / 8, stepFrom := from_, uncAt := min d.time.uncAt (8 * (ns / 8)),
                                 highest := if 0 < v then max d.time.highest (ns / 8) else d.time.highest,
                                 dead := d.time.dead || v < 0 } }

/-! ### The servo -/

/-- The servo states of R93. -/
inductive Servo where
  | freeRun | acquire | locked | holdover | source
  deriving DecidableEq, Repr

/-- The code of a servo state (R93). -/
def Servo.code : Servo → Nat
  | .freeRun => 0 | .acquire => 1 | .locked => 2 | .holdover => 3 | .source => 4

/-- The servo state. -/
def Dev.servo (d : Dev) : Servo :=
  match d.get 0x2002_01 with
  | 1 => .acquire | 2 => .locked | 3 => .holdover | 4 => .source | _ => .freeRun

/-- Is the unit's time mode HOST (R114)? -/
def Dev.timeHost (d : Dev) : Bool := d.get 0x2000_00 = 1

/-- Does the newest time message of the upstream set UNCERTAIN (R94)? A leaf's upstream is its Stem port, a trunk's the Pleach
port chosen (R99, R100). -/
def Dev.upUncertain (d : Dev) : Bool :=
  match (if d.isTrunk then d.time.upPort else some 0) with
  | some p => (d.time.links[p]?).any (·.uncertain)
  | none => false

/-- TIME_UNCERTAIN follows the servo state, the upstream and the mode (R94). -/
def Dev.refreshUncertain (d : Dev) : Dev :=
  let s := d.servo
  d.setUncertain (s != .source &&
    (s = .freeRun || s = .acquire || d.upUncertain || (d.timeHost && !d.on 0x2002_10)))

/-- An `Increment` that the servo computes, clamped (R75). -/
def clampInc (i : Int) : Nat := (max 0xFFBE76C9 (min 0x100418937 i)).toNat

/-- `Increment` = 1.0 ns + `FreqAdjust` (R93), in HW mode (R114). -/
def Dev.coastInc (d : Dev) : Dev :=
  if d.timeHost then d
  else Dev.set { d with time := { d.time with newInc := none } } 0x2001_03 (clampInc (0x100000000 + d.getI 0x2002_05))

/-- The servo enters a state (R93): a state without an upstream coasts, and `Upstream` reads 0xFF in FREE_RUN and
SOURCE. -/
def Dev.setServo (d : Dev) (s : Servo) : Dev :=
  let d := d.set 0x2002_01 s.code
  let d := if s = .freeRun || s = .source then d.set 0x2002_02 0xFF
    else d.set 0x2002_02 ((if d.isTrunk then d.time.upPort else some 0).getD 0xFF)
  let d := match s with
    | .freeRun | .holdover | .source => d.coastInc
    | .acquire | .locked => d
  let d := { d with time := { d.time with goodRun := 0, badRun := 0, holdSince := d.elapsed } }
  d.refreshUncertain

/-- LOCK_LOST is set (R93, R217), with the offset in ps. -/
def Dev.lockLost (d : Dev) (ps : Int) : Dev := (((d.inc 0x2002_0E).always 0x28 1).flag 0x2006 0).timeEvent 1 ps

/-- An integer quotient rounded half away from zero. -/
def roundDiv (a b : Int) : Int := if 0 ≤ a then (2 * a + b) / (2 * b) else -((2 * (-a) + b) / (2 * b))

/-- Units of 1/16,384 ps in one ns and in one ps: every offset of R91 is a whole number of them. -/
def unitNs : Int := 16384000

/-- Units of 1/16,384 ps in one ps. -/
def unitPs : Int := 16384

/-- A stamp in units of 2^-16 ns. -/
def stampUnits (t : Stamp) : Int := t.ns * 65536 + t.frac

/-- The state that the servo is in when an accepted exchange arrives (R91, R93, R101). -/
def Dev.enterServo (d : Dev) (offset : Int) : Dev :=
  let unlock := d.get 0x2002_07 * unitPs
  match d.servo with
  | .freeRun => d.setServo .acquire
  | .holdover =>
    if offset.natAbs ≤ unlock then d.setServo .locked
    else (d.setServo .acquire).lockLost (roundDiv offset unitPs)
  | .locked =>
    if d.time.upChanged && offset.natAbs > unlock then (d.setServo .acquire).lockLost (roundDiv offset unitPs) else d
  | .acquire | .source => d

/-- The runs of good and bad exchanges move the state (R93). -/
def Dev.updateServo (d : Dev) (offset : Int) : Dev :=
  match d.servo with
  | .acquire =>
    let n := if offset.natAbs ≤ d.get 0x2002_06 * unitPs then d.time.goodRun + 1 else 0
    if n ≥ d.get 0x2002_08 then d.setServo .locked else { d with time := { d.time with goodRun := n } }
  | .locked =>
    let n := if offset.natAbs > d.get 0x2002_07 * unitPs then d.time.badRun + 1 else 0
    if n ≥ 4 then (d.setServo .acquire).lockLost (roundDiv offset unitPs)
    else { d with time := { d.time with badRun := n } }
  | _ => d

/-- The new `FreqAdjust` and `Increment` after an accepted exchange (R91); the latter takes effect two ticks later
(R92). -/
def Dev.steer (d : Dev) (offset : Int) : Dev :=
  let (kp, ki) := if d.servo = .acquire then (4, 64) else (16, 1024)
  let cycles : Int := 8 * d.get 0x2005_01
  let freq := d.getI 0x2002_05 - roundDiv (offset * 2 ^ 32) (unitNs * ki * cycles)
  let freq := max (-4294967) (min 4294967 freq)
  let phase := -roundDiv (offset * 2 ^ 32) (unitNs * kp * cycles)
  let d := d.setI 0x2002_05 freq
  { d with time := { d.time with newInc := some (clampInc (0x100000000 + freq + phase), d.time.tick + 2) } }

/-- A completed exchange at the servo (R91): `x` and `y` are (t₂ − t₁) − (t₄ − t₃) and their sum, in 2^-16 ns. -/
def Dev.exchange (d : Dev) (port : Nat) (x y : Int) (source : Nat) : Dev :=
  let offset := x * 125 - d.getI (key 0x2003 (port + 1)) * unitPs
  let delay := y * 125
  let least := d.time.delays.foldl min (d.time.delays.headD 0)
  if d.time.delays.length = 16 && delay > least + d.get 0x2002_0B * unitPs then d.inc 0x2002_0C
  else
    let d := { d with time := { d.time with delays := (delay :: d.time.delays).take 16 } }
    let d := d.enterServo offset
    let limit := d.get 0x2002_0A * unitNs
    let (d, offset) := if d.servo = .acquire && offset.natAbs > limit then
        let n := roundDiv offset (8 * unitNs)
        (d.stepTime (-8 * n), offset - 8 * n * unitNs)
      else (d, offset)
    let d := d.steer offset
    let d := d.setI 0x2002_03 (satI32 (roundDiv offset unitPs))
    let d := d.set 0x2002_04 (satNat 32 (roundDiv delay unitPs).toNat)
    let d := { d with time := { d.time with lastAccept := d.elapsed, upChanged := false } }
    let d := d.updateServo offset
    if d.isTrunk then d
    else
      let changed := d.time.lastSource.any (· != source)
      let d := { d with time := { d.time with lastSource := some source } }
      if changed then (d.flag 0x2006 3).timeEvent 4 0 else d

/-! ### Link ports -/

/-- The unit at which a link port stands. -/
def timeUnit : TimePort → UnitId
  | .stem (.leaf l) => .leaf l
  | .stem (.trunk _) => .trunk
  | .pleach _ => .trunk

/-- The place of a link port in `TimeSt.links`. -/
def timeSlot : TimePort → Nat
  | .stem (.leaf _) => 0
  | .stem (.trunk n) => 6 + n
  | .pleach p => p

/-- Is the link of a port UP? -/
def Dev.linkUp (d : Dev) (p : TimePort) : Bool :=
  match p with
  | .stem (.leaf _) => d.get 0x3001_02 = 4
  | .stem (.trunk n) => n ≤ 255 && d.stemUp n
  | .pleach p => p ≤ 5 && d.portUp p

/-- The follower port of a link port, as LinkAsymmetry and ExchangeRecord number it: a leaf's Stem port and a trunk's
Pleach ports can be time followers (R100, R104). -/
def followPort : TimePort → Option Nat
  | .stem (.leaf _) => some 0
  | .stem (.trunk _) => none
  | .pleach p => some p

/-- The time-message state of a port. -/
def Dev.timeLink (d : Dev) (p : TimePort) : TimeLink := (d.time.links[timeSlot p]?).getD {}

/-- The time-message state of a port changed. -/
def Dev.modLink (d : Dev) (p : TimePort) (f : TimeLink → TimeLink) : Dev :=
  { d with time := { d.time with links := d.time.links.modify (timeSlot p) f } }

/-- A link has entered UP: its time messages start anew (R88, R89); the newest message received stays the newest (R94). -/
def Dev.resetLink (d : Dev) (p : TimePort) : Dev := d.modLink p fun x => { uncertain := x.uncertain }

/-! ### The choice of the source (R97 to R101) -/

/-- The advertisements that are fresh, with their ports (R99). -/
def Dev.freshAdverts (d : Dev) : List (Nat × Advert) :=
  (d.time.adverts.zipIdx.filterMap fun (a, p) => a.map (p, ·)).filter
    fun x => d.elapsed < x.2.risenAt + d.get 0x2004_06

/-- Lexicographic order on four numbers. -/
def lexLess (a b : Nat × Nat × Nat × Nat) : Bool :=
  a.1 < b.1 || (a.1 = b.1 && (a.2.1 < b.2.1 || (a.2.1 = b.2.1 &&
    (a.2.2.1 < b.2.2.1 || (a.2.2.1 = b.2.2.1 && a.2.2.2 < b.2.2.2)))))

/-- The order of R99: priority, source, hops, port. -/
def advertKey (x : Nat × Advert) : Nat × Nat × Nat × Nat := (x.2.priority, x.2.source, x.2.hops, x.1)

/-- The best fresh advertisement (R99). -/
def Dev.bestAdvert (d : Dev) : Option (Nat × Advert) :=
  d.freshAdverts.foldl (fun b x => match b with
    | none => some x
    | some y => if lexLess (advertKey x) (advertKey y) then some x else some y) none

/-- The advertisement that the trunk has chosen, with its port, while it is fresh (R99). -/
def Dev.chosen (d : Dev) : Option (Nat × Advert) :=
  match d.time.upPort with
  | some p => d.freshAdverts.find? (·.1 = p)
  | none => none

/-- The trunk's source is now `id`: a change is counted, flagged and recorded (R101). -/
def Dev.setSource (d : Dev) (id hops seq : Nat) : Dev :=
  let changed := d.get 0x2004_02 != id
  let d := ((d.set 0x2004_02 id).set 0x2004_03 hops).set 0x2004_04 seq
  if changed then ((d.inc 0x2004_05).flag 0x2006 3).timeEvent 4 0 else d

/-- A trunk chooses its upstream among fresh advertisements, or enters SOURCE (R99, R101). One that enters SOURCE goes on from
0x2004.04 (log 99); one that a better advertisement displaces from SOURCE is in FREE_RUN (log 98); Hops counts modulo 256
(log 100). -/
def Dev.chooseSource (d : Dev) : Dev :=
  let own := d.get 0x3100_01
  let prio := d.get 0x2004_01
  let best := d.bestAdvert
  let ownBetter := prio < 255 && best.all fun x => lexLess (prio, own, 0, 0) (advertKey x)
  if ownBetter then
    if d.servo = .source then d
    else
      let d := { d with time := { d.time with upPort := none, seqAt := d.time.ran } }
      (d.setSource own 0 (d.get 0x2004_04)).setServo .source
  else match best with
  | none => d
  | some (p, a) =>
    let moved := d.time.upPort != some p || d.get 0x2004_02 != a.source
    let d := d.setSource a.source ((a.hops + 1) % 256) a.seq
    let d := { d with time := { d.time with upPort := some p, upChanged := d.time.upChanged || moved } }
    if d.servo = .source then d.setServo .freeRun
    else if d.servo = .freeRun then d else (d.set 0x2002_02 p).refreshUncertain

/-- A trunk takes the advertisement of a time message on Pleach port `p` (R99): it is fresh from when its SourceSeq rises, or from
its first arrival. -/
def Dev.takeAdvert (d : Dev) (p : Nat) (m : TimeMsg) : Dev :=
  if !m.sourceValid then d
  else
    let old := (d.time.adverts[p]?).getD none
    let risen := match old with
      | some a =>
        if a.source = m.sourceId && seqDiff 32 m.sourceSeq a.seq ≤ 0 then a.risenAt else d.elapsed
      | none => d.elapsed
    let a : Advert := ⟨m.sourcePriority, m.sourceId, m.sourceSeq, m.hops, risen⟩
    { d with time := { d.time with adverts := d.time.adverts.set p (some a) } }

/-- SOURCE_TIMEOUT (R99): the chosen advertisement is no longer fresh, or none has been chosen for that long. -/
def execSourceTimeout (s : State) : Host.Outcome State Fault Refusal :=
  s.onTrunk fun d =>
    let last := ((d.time.upPort.bind (d.time.adverts[·]?)).bind id |>.map (·.risenAt)).getD 0
    if d.servo != .source && d.elapsed ≥ last + d.get 0x2004_06 then d.chooseSource else d

/-! ### Time messages -/

/-- The source fields of a message that a unit sends on a port (R98, R653). -/
def Dev.sourceFields (d : Dev) (p : TimePort) (m : TimeMsg) : TimeMsg :=
  let own := d.get 0x3100_01
  match p with
  | .stem (.leaf _) => m
  | .stem (.trunk _) =>
    let chosen := d.chosen.map (·.2)
    { m with sourceValid := true, hops := (d.get 0x2004_03 + 1) % 256
             sourceId := (chosen.map (·.source)).getD own
             sourcePriority := (chosen.map (·.priority)).getD (d.get 0x2004_01)
             sourceSeq := (chosen.map (·.seq)).getD (d.get 0x2004_04) }
  | .pleach _ =>
    if d.servo = .source then
      { m with sourceValid := true, hops := 0, sourceId := own, sourcePriority := d.get 0x2004_01
               sourceSeq := d.get 0x2004_04 }
    else match d.chosen.map (·.2) with
      | none => m
      | some a => { m with sourceValid := true, hops := d.get 0x2004_03, sourceId := a.source
                           sourcePriority := a.priority, sourceSeq := a.seq }

/-- A transmit stamp enters `TxTimestampQueue`, or is lost (R104, R105). -/
def Dev.queueStamp (d : Dev) (port kind seqId : Nat) (t : Stamp) : Dev :=
  if d.time.txq.length ≥ d.get 0x2008_01 then (d.inc 0x2008_03).flag 0x2006 4
  else
    let entry := leBytes 1 port ++ leBytes 1 kind ++ leBytes 2 seqId ++ leBytes 2 t.frac ++ zeros 2 ++ leBytes 8 t.ns
    { d with time := { d.time with txq := d.time.txq ++ [entry] } }

/-- A trunk in SOURCE counts up `SourceSeq` once per period (R98). -/
def Dev.countSource (d : Dev) : Dev :=
  if d.isTrunk && d.servo = .source && d.time.ran ≥ d.time.seqAt + d.get 0x2005_01 then
    Dev.addMod { d with time := { d.time with seqAt := d.time.ran } } 0x2004_04 1
  else d

/-- The bits of a link timestamp that are measured (R84). -/
def measured (t : Stamp) : Stamp := ⟨t.ns % 2 ^ 64, t.frac % 65536 / 1024 * 1024⟩

/-- FleetTime of the unit a given time after its newest tick, or before it (R83), as a link timestamp. -/
def Dev.linkStamp (d : Dev) (before : Bool) (t : Stamp) : Stamp :=
  let u := d.time.ns * 65536 + d.time.frac / 65536
  let dt := t.ns * 65536 + t.frac
  let v := if before then (u + 2 ^ 80 - dt % 2 ^ 80) % 2 ^ 80 else (u + dt) % 2 ^ 80
  measured ⟨v / 65536, v % 65536⟩

/-- The time message that a unit sends next on a port (R89, R94, R98, R653). -/
def Dev.timeMsg (d : Dev) (p : TimePort) : TimeMsg :=
  let x := d.timeLink p
  d.sourceFields p
    { seq := x.txSeq, uncertain := d.uncertain, host := d.timeHost
      prevValid := x.prevTx.isSome, peerValid := x.peerRx.isSome
      prevTx := (x.prevTx.map (·.2)).getD {}, prevTxSeq := (x.prevTx.map (·.1)).getD 0
      peerRx := (x.peerRx.map (·.2)).getD {}, peerRxSeq := (x.peerRx.map (·.1)).getD 0 }

/-- A unit's time message leaves on a port with its transmit stamp (R87, R89, R104). -/
def Dev.noteTime (d : Dev) (p : TimePort) (m : TimeMsg) (tx : Stamp) : Dev :=
  let d := d.modLink p fun x =>
    { x with txSeq := (x.txSeq + 1) % 65536, prevTx := some (x.txSeq, tx)
             txHist := ((x.txSeq, tx) :: x.txHist).take 16 }
  let d := if d.timeHost && (followPort p).isSome then d.queueStamp ((followPort p).getD 0) 1 m.seq tx else d
  d.emit (.time p m tx)

/-- A time message of a port is due: the next is a period later (R87). -/
def Dev.startPeriod (d : Dev) (p : TimePort) : Dev := d.modLink p fun x => { x with lastTx := some d.time.ran }

/-- Has the period since the last time message on a port elapsed (R87)? -/
def Dev.timeDue (d : Dev) (p : TimePort) : Bool := (d.timeLink p).lastTx.all (d.time.ran ≥ · + d.get 0x2005_01)

/-- The exchange that the newest carried stamps complete (R90): messages m and n with t₁ to t₄, and what m says of the
source. -/
def TimeLink.complete (x : TimeLink) (period : Nat) : Option ((Nat × Nat) × (Stamp × Stamp × Stamp × Stamp) × Bool × Nat) :=
  match x.t1, x.t4 with
  | some (m, t1), some (n, t4) =>
    match x.rxHist.find? (·.1 = m), x.txHist.find? (·.1 = n) with
    | some (_, t2, valid, src), some (_, t3) =>
      if x.lastPair != some (m, n) && (stampUnits t2 - stampUnits t3).natAbs ≤ period * 8 * 65536 then
        some ((m, n), (t1, t2, t3, t4), valid, src)
      else none
    | _, _ => none
  | _, _ => none

/-- A follower port completes its exchange, if it can: the record is published (R114), and at the upstream of a unit in
HW mode the servo runs (R91). -/
def Dev.runExchange (d : Dev) (p : TimePort) (port : Nat) : Dev :=
  match (d.timeLink p).complete (d.get 0x2005_01) with
  | none => d
  | some (pair, (t1, t2, t3, t4), valid, src) =>
    let d := d.modLink p fun x => { x with lastPair := some pair }
    let base := (t1.ns : Int) * 65536
    let rel (t : Stamp) : Nat := ofSigned 64 (stampUnits t - base)
    let d := d.complete (0x2020 + port) [(4, t1.ns), (5, rel t1), (6, rel t2), (7, rel t3), (8, rel t4)]
    let upstream := !d.isTrunk || (d.chosen.any (·.1 = port) && d.servo != .source)
    if d.timeHost || !upstream || !valid then d
    else
      let a := stampUnits t2 - stampUnits t1
      let b := stampUnits t4 - stampUnits t3
      d.exchange port (a - b) (a + b) src

/-- A unit accepts a time message (R88 to R90, R94, R99). -/
def Dev.takeTime (d : Dev) (p : TimePort) (m : TimeMsg) (rx : Stamp) : Dev :=
  let x := d.timeLink p
  let lost : Int := match x.peerRx with
    | some (last, _) => seqDiff 16 m.seq ((last + 1) % 65536)
    | none => 0
  let d := if 0 < lost then d.add 0x2005_02 lost.toNat else d
  let d := d.modLink p fun x =>
    { x with peerRx := some (m.seq, rx), uncertain := m.uncertain
             t1 := if m.prevValid then some (m.prevTxSeq, m.prevTx) else x.t1
             t4 := if m.peerValid then some (m.peerRxSeq, m.peerRx) else x.t4
             rxHist := ((m.seq, rx, m.sourceValid, m.sourceId) :: x.rxHist).take 16 }
  match followPort p with
  | none => d
  | some port =>
    let d := if d.isTrunk then (d.takeAdvert port m).chooseSource else d
    let d := if !d.isTrunk || d.time.upPort = some port then
        d.refreshUncertain
      else d
    d.runExchange p port

/-- TIME_MESSAGE (R88): one that fails its CRC is discarded. -/
def execTimeMessage (p : TimePort) (m : TimeWire) (rx : Stamp) (s : State) :
    Host.Outcome State Fault Refusal :=
  s.on (timeUnit p) fun d => if d.linkUp p && m.crcOk then d.takeTime p (readTime m.data) (d.linkStamp true rx) else d

/-- INCREMENT_APPLY (R92): at the second tick after the exchange. -/
def execIncrementApply (u : UnitId) (s : State) : Host.Outcome State Fault Refusal :=
  s.on u fun d =>
    match d.time.newInc with
    | some (v, due) =>
      if d.time.tick ≥ due && !d.timeHost then
        Dev.set { d with time := { d.time with newInc := none } } 0x2001_03 v
      else d
    | none => d

/-- EXCHANGE_TIMEOUT (R93): 16 exchange periods without an accepted exchange. -/
def execExchangeTimeout (u : UnitId) (s : State) : Host.Outcome State Fault Refusal :=
  s.on u fun d =>
    if d.timeHost || d.elapsed < d.time.lastAccept + 128 * d.get 0x2005_01 then d
    else match d.servo with
      | .acquire => d.setServo .freeRun
      | .locked => d.setServo .holdover
      | _ => d

/-- HOLDOVER_EXPIRED (R93). -/
def execHoldoverExpired (u : UnitId) (s : State) : Host.Outcome State Fault Refusal :=
  s.on u fun d =>
    if d.servo = .holdover && d.elapsed ≥ d.time.holdSince + d.get 0x2002_09 then
      ((d.setServo .freeRun).flag 0x2006 2).timeEvent 3 0
    else d

/-- A write to `StepCmd` (R115). -/
def Dev.stepCmdAns (d : Dev) (v : Nat) : Ans :=
  let i := toSigned 64 v
  if !d.timeHost then fail d .state
  else if i % 8 != 0 then fail d .range
  else ok (d.stepTime i)

/-- STEP_CMD (R115). -/
def execStepCmd (u : UnitId) (e : Env) (value : Int) (s : State) : Host.Outcome State Fault Refusal :=
  s.on u fun d => d.serveWrite e 0x2001 4 (ofSigned 64 value) fun d v _ => d.stepCmdAns v

/-- A write to `Pop` (R105). -/
def Dev.popAns (d : Dev) (k : Nat) : Ans :=
  if k > d.time.txq.length then fail d .range
  else ok { d with time := { d.time with txq := d.time.txq.drop k } }

/-- POP (R105). -/
def execPop (u : UnitId) (e : Env) (k : Nat) (s : State) : Host.Outcome State Fault Refusal :=
  s.on u fun d => d.serveWrite e 0x2008 4 k fun d v _ => d.popAns v

/-! ### UTC mapping (R106 to R109) -/

/-- The PtpState codes of `UtcMap`: OFF, SEARCHING, MAPPED, HOLD. -/
inductive PtpState where
  | off | searching | mapped | hold
  deriving DecidableEq, Repr

/-- The code of a PtpState. -/
def PtpState.code : PtpState → Nat
  | .off => 0 | .searching => 1 | .mapped => 2 | .hold => 3

/-- The PTP time that the mapping gives now (R107). -/
def Dev.mappedTime (d : Dev) : Int :=
  let delta := (d.now : Int) - d.get 0x2010_05
  d.get 0x2010_04 + delta + delta * d.getI 0x2010_06 / 2 ^ 48

/-- `UtcMap` is published. -/
def Dev.publishUtc (d : Dev) (base fleet : Nat) (rate : Int) (st : PtpState) (m : PtpMeas) : Dev :=
  d.complete 0x2010 [(4, base), (5, fleet), (6, ofSigned 64 rate), (7, ofSigned 16 m.utcOffset), (8, st.code),
    (9, m.grandmaster)]

/-- A PTP measurement reaches firmware (R108, R109). -/
def Dev.ptpMeasure (d : Dev) (m : PtpMeas) : Dev :=
  let base := d.get 0x2010_04
  let fleet := d.get 0x2010_05
  let rate := d.getI 0x2010_06
  let first := d.get 0x2010_08 < 2 || d.time.restep
  if first then
    if m.locked then
      Dev.publishUtc { d with time := { d.time with restep := false } } m.ptpTime d.now m.rate .mapped m
    else d.publishUtc base fleet rate .searching m
  else if d.get 0x2010_08 = 3 || !m.locked then d
  else
    let t := d.mappedTime
    if ((m.ptpTime : Int) - t).natAbs > d.get 0x2011_05 then (d.flag 0x2006 5).publishUtc base fleet rate .hold m
    else d.publishUtc (ofSigned 64 t) d.now m.rate .mapped m

/-- Does a PTP measurement come from messages of the subset and the settings in use (R106): two-step, of the domain, over the
transport, with the delay mechanism? -/
def Dev.ptpFits (d : Dev) (m : PtpMeas) : Bool :=
  m.twoStep && m.domain = d.get 0x2011_04 && m.udp = d.on 0x2011_03 && m.peerToPeer = d.on 0x2011_02

/-- PTP_MESSAGE (R106, R108). -/
def execPtpMessage (m : PtpMeas) (s : State) : Host.Outcome State Fault Refusal :=
  s.onTrunk fun d => if d.on 0x2011_01 && d.ptpFits m then d.ptpMeasure m else d

/-- A write to `UtcRestep` (R108, R109). -/
def Dev.utcRestepAns (d : Dev) (v : Nat) : Ans := cmdOne d v (ok { d with time := { d.time with restep := true } })

/-- UTC_RESTEP (R108). -/
def execUtcRestep (e : Env) (value : Nat) (s : State) : Host.Outcome State Fault Refusal :=
  s.onTrunk fun d => d.serveWrite e 0x2011 6 value fun d v _ => d.utcRestepAns v

/-- The Kind of a PTP event message in the timestamp queue (R104). -/
def ptpKindCode : PtpKind → Nat
  | .delayReq => 2 | .pdelayReq => 3 | .pdelayResp => 4

/-- PTP_EVENT_MESSAGE_SEND (R104, R106): an ordinary clock that is enabled sends Delay_Req with the end-to-end mechanism, the
peer messages with the peer-to-peer one. -/
def execPtpEventMessageSend (port : Nat) (kind : PtpKind) (seqId : Nat) (tx : Stamp) (s : State) :
    Host.Outcome State Fault Refusal :=
  s.onTrunk fun d =>
    if port ≤ 1 && d.on 0x2011_01 && decide (kind = .delayReq) = !d.on 0x2011_02 then
      d.queueStamp (0x40 + port) (ptpKindCode kind) seqId (d.linkStamp false tx)
    else d

/-! ### Clock regions (R113, R129, R654) -/

/-- A clock region changed. -/
def Dev.modRegion (d : Dev) (r : Nat) (f : Region → Region) : Dev :=
  { d with tap := { d.tap with regions := d.tap.regions.modify r f } }

/-- A region becomes STOPPED at the fourth tick without activity (R113, R127, R149, R197). -/
def Dev.stopRegion (d : Dev) (r : Nat) : Dev :=
  let stop := (d.regionAt r).idleFrom
  let d := d.modRegion r fun x => { x with stopped := true, heldBack := 0 }
  let d := (d.always 0x1A 4).record .regionStop stop (leBytes 1 r ++ zeros 3)
  d.sleepSrcs r stop false

/-- REGION_STOP (R113). -/
def execRegionStop (l : LeafId) (r : Nat) (s : State) : Host.Outcome State Fault Refusal :=
  s.onLeaf l fun d =>
    let x := d.regionAt r
    if r < d.tap.regions.length && x.powered && !x.stopped && x.idle ≥ 4 then d.stopRegion r else d

/-- A region's stop ends with this tick as its resume time (R113). -/
def Dev.endStop (d : Dev) (r : Nat) : Dev :=
  let ticks := (d.stamp - (d.regionAt r).idleFrom) / 8
  let d := d.modRegion r fun x => { x with stopped := false, idle := 0 }
  d.record .regionResume d.stamp (leBytes 1 r ++ zeros 3 ++ leBytes 4 (satNat 32 ticks))

/-- REGION_RESUME (R113): the first tick with activity of a STOPPED region. -/
def execRegionResume (l : LeafId) (r : Nat) (s : State) : Host.Outcome State Fault Refusal :=
  s.onLeaf l fun d =>
    let x := d.regionAt r
    if r < d.tap.regions.length && x.stopped && x.idle = 0 then (d.endStop r).wakeSrcs r false else d

/-- REGION_POWER_DOWN (R654): a stop ends at the tick at which region_pwr_ok is first seen low, which is not a tick of it. -/
def execRegionPowerDown (l : LeafId) (r : Nat) (s : State) : Host.Outcome State Fault Refusal :=
  s.onLeaf l fun d =>
    let x := d.regionAt r
    if r ≥ d.tap.regions.length || !x.powered then d
    else
      let d := if x.stopped then (if x.active then d else d.always 0x1A (2 ^ 64 - 1)).endStop r else d
      let d := d.modRegion r fun x => { x with powered := false, idle := 0, heldBack := 0 }
      d.sleepSrcs r d.stamp true

/-- REGION_POWER_UP (R122, R129, R654): the taps' counters hold what they held, the previous values of EDGE events are
false, those of the selectors included (R205), and the ticks without activity are counted from this one on. -/
def execRegionPowerUp (l : LeafId) (r : Nat) (s : State) : Host.Outcome State Fault Refusal :=
  s.onLeaf l fun d =>
    let x := d.regionAt r
    if r ≥ d.tap.regions.length || x.powered then d
    else
      let d := d.modRegion r fun x => { x with powered := true, idle := b2n (!x.active), idleFrom := d.stamp }
      let mine (t : Nat) : Bool := (d.tapDesc t).region = r
      let ts := d.tap.taps.zipIdx.map fun (t, n) => if mine n then { t with prev := [] } else t
      let sel := d.trc.selPrev.zipIdx.map fun (b, k) => b && !mine (d.get (key (0x2508 + k) 2))
      Dev.wakeSrcs { d with tap := { d.tap with taps := ts }, trc := { d.trc with selPrev := sel } } r true

end Sys2Proof.Machine
end

