-- ==== Sys2Proof/Machine/Taps.lean ====
section
/-! DEFINITION. Taps, counters and the command log (chapter 03). -/

namespace Sys2Proof.Machine

open Sys2Proof

/-! ### Cycles and events -/

/-- A tap changed. -/
def Dev.modTap (d : Dev) (t : Nat) (f : Tap → Tap) : Dev :=
  { d with tap := { d.tap with taps := d.tap.taps.modify t f } }

/-- A region cycle as a tap sees it: the wires, whether a command is held in it, and its command pulses. -/
structure CycleEv where
  c     : Cycle
  held  : Bool
  begin : Bool := false
  fin   : Bool := false

/-- The slots issued in a cycle (R124). -/
def issuedOf (slots : Nat) (c : Cycle) : Nat := min c.slotIssued slots

/-- The slots discarded in a cycle (R124). -/
def discardOf (slots : Nat) (c : Cycle) : Nat := min c.slotDiscard (issuedOf slots c)

/-- Does an event of R120 hold in a cycle? `th` gives the thresholds (R121). -/
def CycleEv.holds (x : CycleEv) (th : Nat → Nat) (code : Nat) : Bool :=
  match code with
  | 0x01 => true
  | 0x02 => x.c.busy
  | 0x03 => x.held
  | 0x04 => x.begin
  | 0x05 => x.fin
  | 0x06 => x.c.feWait
  | 0x07 => x.c.beWait
  | 0x08 => x.c.slotIssued != 0
  | 0x09 => x.c.slotDiscard != 0
  | 0x18 => x.c.occ = 255
  | _ =>
    if 0x10 ≤ code && code ≤ 0x17 then x.c.occ > th (code - 0x10)
    else if 0x40 ≤ code && code ≤ 0x4F then x.c.evt.getLsbD (code - 0x40)
    else false

/-- What an event adds to a LEVEL counter in a cycle (R120). -/
def CycleEv.level (x : CycleEv) (slots : Nat) (th : Nat → Nat) (code : Nat) : Nat :=
  match code with
  | 0x08 => issuedOf slots x.c
  | 0x09 => discardOf slots x.c
  | _ => b2n (x.holds th code)

/-- RETIRED, WASTED, FRONT_STARVED, BACK_STARVED and IDLE slots of a cycle (R124). -/
def CycleEv.slots (x : CycleEv) (slots : Nat) : List Nat :=
  let i := issuedOf slots x.c
  let w := discardOf slots x.c
  if x.held then [i - w, w, if x.c.beWait then 0 else slots - i, if x.c.beWait then slots - i else 0, 0]
  else [0, 0, 0, 0, slots]

/-- The event codes of R120, NONE apart. -/
def eventCodes : List Nat :=
  (List.range 9).map (· + 1) ++ (List.range 9).map (· + 0x10) ++ (List.range 16).map (· + 0x40)

/-- The threshold of selector `k` of tap `t` (R121). -/
def Dev.threshold (d : Dev) (t k : Nat) : Nat := d.get (key (0x2300 + t) (2 + k))

/-- What a cycle adds to counter `n` of tap `t` (R117, R120, R122); `prev` are the events that held in the previous cycle. -/
def Dev.counterAdd (d : Dev) (t : Nat) (x : CycleEv) (prev : List Nat) (n : Nat) : Nat :=
  let slots := (d.tapDesc t).slotsPerCycle
  if n = 0 then 1
  else if n ≤ 5 then (x.slots slots).getD (n - 1) 0
  else
    let sel := d.get (key (0x2200 + t) (n + 1))
    let code := field sel 7 0
    if sel.testBit 8 then b2n (x.holds (d.threshold t) code && !prev.contains code) else x.level slots (d.threshold t) code

/-- The held command gains the slots of a cycle (R138). -/
def Held.addSlots (h : Held) (s : List Nat) : Held :=
  { h with retired := h.retired + s.getD 0 0, wasted := h.wasted + s.getD 1 0, front := h.front + s.getD 2 0
           back := h.back + s.getD 3 0 }

/-- The counters of tap `t` count a cycle (R116, R117). -/
def Dev.countCycle (d : Dev) (t : Nat) (x : CycleEv) : Dev :=
  let tap := d.tapAt t
  let adds := (List.range 32).map fun n => d.counterAdd t x tap.prev n
  let plus (l : List Nat) : List Nat := l.zipWith (· + ·) adds
  let d := d.modTap t fun tap =>
    { tap with raw := (plus tap.raw).map (· % 2 ^ 40), tickAdd := plus tap.tickAdd
               prev := eventCodes.filter (x.holds (d.threshold t))
               half := false
               held := tap.held.map (·.addSlots (x.slots (d.tapDesc t).slotsPerCycle)) }
  d.always (1 + (d.tapDesc t).engineType) (b2n x.c.busy)

/-- The selectors on tap `t` see a cycle (R205): those that watch a pulse present in the cycle are left to the
command that carries the pulse. -/
def Dev.watchCycle (d : Dev) (t : Nat) (x : CycleEv) : Dev :=
  (List.range 4).foldl (fun d k =>
    let i := 0x2508 + k
    let ev := d.get (key i 3)
    if d.cfg.traceSources = 0 || d.get (key i 2) != t || (ev = 4 && x.begin) || (ev = 5 && x.fin) then d
    else
      let h := x.holds (d.threshold t) ev
      let was := d.trc.selPrev.getD k false
      let d := { d with trc := { d.trc with selPrev := d.trc.selPrev.set k h } }
      if h && !was then d.selectorHit k else d) d

/-- A tap runs a cycle. -/
def Dev.runCycle (d : Dev) (t : Nat) (x : CycleEv) : Dev := (d.countCycle t x).watchCycle t x

/-- A tap runs cycles without command pulses. -/
def Dev.runCycles (d : Dev) (t : Nat) (cs : List Cycle) : Dev :=
  cs.foldl (fun d c => d.runCycle t { c := c, held := (d.tapAt t).held.isSome }) d

/-- The selectors that watch CMD_BEGIN (4) or CMD_END (5) on tap `t` see its pulse (R205). -/
def Dev.watchPulse (d : Dev) (t ev tag : Nat) : Dev :=
  (List.range 4).foldl (fun d k =>
    let i := 0x2508 + k
    if d.cfg.traceSources = 0 || d.get (key i 2) != t || d.get (key i 3) != ev then d
    else
      let was := d.trc.selPrev.getD k false
      let d := { d with trc := { d.trc with selPrev := d.trc.selPrev.set k true } }
      if !was && tag &&& d.get (key i 6) = d.get (key i 5) then d.selectorHit k else d) d

/-! ### The command log -/

/-- A record enters the command log, or is discarded (R139, R140). -/
def Dev.logPut (d : Dev) (r : LogRec) : Dev :=
  if !d.on 0x2103_01 then d
  else if d.tap.lost = 0 && logFill d.tap.log + r.size ≤ d.get 0x2103_02 then
    { d with tap := { d.tap with log := d.tap.log ++ [r] } }
  else
    let d := (d.addMod 0x2103_04 1).always 0x26 1
    Dev.flag { d with tap := { d.tap with lost := d.tap.lost + 1 } } 0x2101 1

/-- The Kind byte of a record (R137). -/
def Dev.logKind (d : Dev) (kind : Nat) (overlap orphan sat : Bool) : Nat :=
  kind + 16 * b2n (d.uncertainAt d.stamp) + 32 * b2n overlap + 64 * b2n orphan + 128 * b2n sat

/-- LOST_RECORD (R140): the ring has 16 bytes free and the log is enabled. -/
def execLostRecord (l : LeafId) (s : State) : Host.Outcome State Fault Refusal :=
  s.onLeaf l fun d =>
    if d.tap.lost = 0 || !d.on 0x2103_01 || logFill d.tap.log + 16 > d.get 0x2103_02 then d
    else
      let r : LogRec := ⟨d.stamp, 0, 0xFF, d.logKind 4 false false false, d.tap.lost % 2 ^ 32, 0, none⟩
      { d with tap := { d.tap with log := d.tap.log ++ [r], lost := 0 } }

/-- An arrival is made, or merged with one of its stamp (R141 to R144). -/
def Dev.arrive (d : Dev) (step tap source : Nat) : Dev :=
  if d.tap.lastArr = some d.stamp then d.flag 0x2101 6
  else
    let d := { d with tap := { d.tap with lastArr := some d.stamp } }
    let d := (d.set 0x2103_08 step).always 0x25 1
    let d := d.logPut ⟨d.stamp, 0, tap, d.logKind 3 false false false, step, source, none⟩
    d.complete 0x2104 [(4, step), (5, d.stamp), (6, source)]

/-- A write to `ArrivalMark` (R142). -/
def Dev.arrivalAns (d : Dev) (v : Nat) : Ans := ok (d.arrive v 0xFF 1)

/-- ARRIVAL_MARK (R142). -/
def execArrivalMark (l : LeafId) (e : Env) (step : Nat) (s : State) : Host.Outcome State Fault Refusal :=
  s.onLeaf l fun d => d.serveWrite e 0x2103 9 step fun d v _ => d.arrivalAns v

/-! ### Commands on a tap -/

/-- The stretch of a tap's region (R126). -/
def Dev.stretchOf (d : Dev) (t : Nat) : Nat := d.get (key 0x2111 ((d.tapDesc t).region + 1))

/-- The END of the held command of tap `t` (R137 to R139): one that an OVERLAP makes has no pulse (R120). -/
def Dev.endHeld (d : Dev) (t tag : Nat) (h : Held) (overlap : Bool) : Dev :=
  let aux := (d.stretchOf t + 2 ^ 64 - h.stretchAt) % 2 ^ 64
  let sat := [h.retired, h.wasted, h.front, h.back, aux].any (· ≥ 2 ^ 32)
  let d := d.modTap t fun x => { x with held := none }
  let d := d.always 0x24 1
  let d := d.flagIf sat 0x2101 4
  let d := d.logPut ⟨d.stamp, tag, t, d.logKind 2 overlap false sat, (d.stamp - h.begin) / 8 % 2 ^ 32, satNat 32 aux,
    some (satNat 32 h.retired, satNat 32 h.wasted, satNat 32 h.front, satNat 32 h.back)⟩
  (if overlap then d else d.watchPulse t 5 tag).traceEnd t tag h.begin

/-- An END with no command held (R139). -/
def Dev.orphanEnd (d : Dev) (t tag : Nat) : Dev :=
  let d := (d.always 0x24 1).flag 0x2101 2
  let d := d.logPut ⟨d.stamp, tag, t, d.logKind 2 false true false, 0, 0, some (0, 0, 0, 0)⟩
  d.watchPulse t 5 tag

/-- The counters with RESET_ON_BEGIN restart (R145, R655): with this tick's events. -/
def Dev.resetOnBegin (d : Dev) (t : Nat) : Dev :=
  let zero (n v : Nat) (w : Nat) : Nat := if n ≥ 6 && (d.get (key (0x2200 + t) (n + 1))).testBit 9 then w else v
  d.modTap t fun x =>
    { x with raw := x.raw.zipIdx.map (fun (v, n) => zero n v (x.tickAdd.getD n 0 % 2 ^ 40))
             last := x.last.zipIdx.map (fun (v, n) => zero n v 0)
             ext := x.ext.zipIdx.map (fun (v, n) => zero n v 0) }

/-- Is the region of a tap powered? -/
def Dev.tapPowered (d : Dev) (t : Nat) : Bool := t < d.tap.taps.length && (d.regionAt (d.tapDesc t).region).powered

/-- A BEGIN (R135, R139, R141, R145, R656). -/
def Dev.begin (d : Dev) (t tag : Nat) (c : Cycle) (pair : Bool) : Dev :=
  let second := pair && (d.tapAt t).half
  let d := match (d.tapAt t).held with
    | some h => (d.flag 0x2101 3).endHeld t h.tag h true
    | none => d
  let d := d.modTap t fun x =>
    { x with held := some { tag := tag, begin := d.stamp, stretchAt := d.stretchOf t }, half := false }
  let d := if second then d else d.runCycle t { c := c, held := true, begin := true, fin := pair }
  let d := d.modTap t fun x => { x with half := pair && !second }
  let d := (d.resetOnBegin t).always 0x23 1
  let d := d.logPut ⟨d.stamp, tag, t, d.logKind 1 false false false, 0, 0, none⟩
  let d := d.watchPulse t 4 tag
  let d := d.traceBegin t tag
  if d.get 0x2103_05 = t && tag &&& d.get 0x2103_07 = d.get 0x2103_06 then
    d.arrive ((d.get 0x2103_08 + 1) % 2 ^ 32) t 0
  else d

/-- CMD_BEGIN (R135). -/
def execCmdBegin (l : LeafId) (tap tag : Nat) (pre : List Cycle) (c : Cycle) (pair : Bool) (s : State) :
    Host.Outcome State Fault Refusal :=
  s.onLeaf l fun d => if d.tapPowered tap then (d.runCycles tap pre).begin tap (tag % 65536) c pair else d

/-- An END (R138, R139, R656): of two pulses in a cycle with a command held, it carries the held command's tag. -/
def Dev.finish_ (d : Dev) (t tag : Nat) (c : Cycle) (pair : Bool) : Dev :=
  let second := pair && (d.tapAt t).half
  let held := (d.tapAt t).held
  let d := if second then d else d.runCycle t { c := c, held := held.isSome, begin := pair, fin := true }
  let d := d.modTap t fun x => { x with half := pair && !second }
  match (d.tapAt t).held with
  | some h => d.endHeld t (if pair && !second then h.tag else tag) h false
  | none => d.orphanEnd t tag

/-- CMD_END (R138). -/
def execCmdEnd (l : LeafId) (tap tag : Nat) (pre : List Cycle) (c : Cycle) (pair : Bool) (s : State) :
    Host.Outcome State Fault Refusal :=
  s.onLeaf l fun d => if d.tapPowered tap then (d.runCycles tap pre).finish_ tap (tag % 65536) c pair else d

/-! ### Scans and resets -/

/-- The hub scans the counters of tap `t` (R131, R133, R134). -/
def Dev.scanTap (d : Dev) (t : Nat) : Dev :=
  let x := d.tapAt t
  if !d.tapPowered t then d
  else
    let limit := 400000000000 / (max 1 (d.tapDesc t).slotsPerCycle)
    let d := if x.scanGap > limit then (d.tapFlag t 0).always 0x27 1 else d
    let d := if x.epoch then d.tapFlag t 1 else d
    d.modTap t fun x =>
      { x with ext := (List.range 32).map x.counter, last := x.raw, epoch := false, scanGap := 0 }

/-- COUNTER_SCAN (R131): once per `ScanPeriod`. -/
def execCounterScan (l : LeafId) (s : State) : Host.Outcome State Fault Refusal :=
  s.onLeaf l fun d =>
    if d.now < d.tap.lastScan + d.get 0x2100_01 then d
    else
      let d := (List.range d.tap.taps.length).foldl Dev.scanTap d
      { d with tap := { d.tap with lastScan := d.now } }

/-- An access that presents counters scans their taps at its own tick (R132, R134): a counter window its tap, the always-on sums
every tap. -/
def Dev.scanFor (d : Dev) (i : Nat) : Dev :=
  if 0x6000 ≤ i && i ≤ 0x60FE then d.scanTap (i - 0x6000)
  else if i = 0x2108 then (List.range d.tap.taps.length).foldl Dev.scanTap d
  else d

/-- The cycles of this tick that have run before an access (R132, R146). -/
def Dev.runBefore (d : Dev) (e : Env) : Dev :=
  e.cycles.foldl (fun (d : Dev) (x : Nat × List Cycle) => if d.tapPowered x.1 then d.runCycles x.1 x.2 else d) d

/-- REGION_RST (R626). -/
def execRegionRst (l : LeafId) (r : Nat) (s : State) : Host.Outcome State Fault Refusal :=
  s.onLeaf l fun d =>
    let ts := d.tap.taps.zipIdx.map fun (t, n) =>
      if (d.tapDesc n).region = r then
        { t with raw := List.replicate 32 0, tickAdd := List.replicate 32 0, prev := [], epoch := true }
      else t
    { d with tap := { d.tap with taps := ts } }

end Sys2Proof.Machine
end

