-- ==== Sys2Proof/Machine/Dictionary.lean ====
section
/-! DEFINITION. Dictionary commands of chapter 01 that act on the server alone. -/

namespace Sys2Proof.Machine

open Sys2Proof

/-- READ (R132, R652). -/
def execRead (u : UnitId) (e : Env) (index sub offset length : Nat) (s : State) : Host.Outcome State Fault Refusal :=
  s.on u fun d => (d.runBefore e).serve e 0x01 index sub offset fun d => (d.scanFor index).readAns e index sub offset length

/-- READ_RECORD (R44, R132). -/
def execReadRecord (u : UnitId) (e : Env) (index offset length : Nat) (s : State) :
    Host.Outcome State Fault Refusal :=
  s.on u fun d => (d.runBefore e).serve e 0x03 index 0 offset fun d => (d.scanFor index).recordAns e index offset length

/-- The checks of a SUBSCRIBE or UNSUBSCRIBE, in the order of R50. -/
def Dev.subCheck (d : Dev) (i sub : Nat) (r : Ans) : Ans :=
  if !d.serves i then fail d .noObject else if sub != 0 || !isRes d.cfg i then fail d .range else r

/-- The subscription that a Source holds of an object (R50). -/
def holdsSub (e : Env) (i : Nat) (x : SubEnt) : Bool := sameSource x.who e && x.index = i

/-- A SUBSCRIBE (R50). -/
def Dev.subscribeAns (d : Dev) (e : Env) (i sub : Nat) : Ans :=
  d.subCheck i sub <|
    if d.srv.subs.any (holdsSub e i) then
      let l := d.srv.subs.map fun x => if holdsSub e i x then { x with txn := e.txn, mac := e.mac } else x
      ok { d with srv := { d.srv with subs := l } }
    else if d.srv.subs.length ≥ d.get 0x1101_03 then fail d .busy
    else ok { d with srv := { d.srv with subs := d.srv.subs ++ [⟨requesterOf e, e.segment, i, e.txn, e.mac⟩] } }

/-- SUBSCRIBE (R50). -/
def execSubscribe (u : UnitId) (e : Env) (index sub : Nat) (s : State) : Host.Outcome State Fault Refusal :=
  s.on u fun d => d.serve e 0x04 index sub 0 fun d => d.subscribeAns e index sub

/-- UNSUBSCRIBE (R50). -/
def execUnsubscribe (u : UnitId) (e : Env) (index sub : Nat) (s : State) : Host.Outcome State Fault Refusal :=
  s.on u fun d => d.serve e 0x05 index sub 0 fun d => d.subCheck index sub <|
    ok { d with srv := { d.srv with subs := d.srv.subs.filter (fun x => !holdsSub e index x) } }

/-- The data of an IDENTIFY response: 0x1000.03 to 0x1000.06 (R43). -/
def Dev.identity (d : Dev) : Bytes :=
  leBytes 1 (d.value 0x1000 3) ++ leBytes 2 (d.value 0x1000 4) ++ leBytes 8 (d.value 0x1000 5) ++
  leBytes 4 (d.value 0x1000 6)

/-- IDENTIFY (R43). -/
def execIdentify (u : UnitId) (e : Env) (s : State) : Host.Outcome State Fault Refusal :=
  s.on u fun d => d.serve e 0x06 0 0 0 fun d => { dev := d, data := d.identity }

/-- A write to a result's Ack (R39): a value other than the current Seq fails with STATE; the Seq consumed is kept for the
subscribers. -/
def Dev.ackAns (d : Dev) (i v : Nat) : Ans := guardAns (v = d.get (key i 2)) d .state (d.store i 0xFF v)

/-- ACK (R39). -/
def execAck (u : UnitId) (e : Env) (index : Nat) (seq : Nat) (s : State) : Host.Outcome State Fault Refusal :=
  s.on u fun d => d.serveWrite e index 0xFF seq fun d v _ => d.ackAns index v

/-- SHORT_MESSAGE_DISCARD (R650): a message of fewer than 24 bytes leaves a violation entry and nothing else. -/
def execShortMessageDiscard (u : UnitId) (data : Bytes) (s : State) : Host.Outcome State Fault Refusal :=
  s.on u fun d => if data.length < 24 then d.violation 0 0x01 Abort.typeLength.code 0 else d

/-- MISADDRESSED (R651): a request that is not for the unit is counted and discarded; a frame for another MAC address reaches no
server (R59), and what the trunk routes or proxies is not misaddressed. -/
def execMisaddressed (u : UnitId) (e : Env) (s : State) : Host.Outcome State Fault Refusal :=
  s.on u fun d => if e.via = .lp || !d.hearsFrame e || d.takes e || d.passesOn e then d else d.inc 0x1101_07

/-- A drop of a trunk's service segment has answered IDENTIFY (`DropsSeen`, 0x1110 + segment). -/
def Dev.dropSeen (d : Dev) (drop : Option (Nat × Nat)) : Dev :=
  match drop with
  | some (seg, n) =>
    let k := key (0x1110 + seg) 4
    if d.isTrunk && seg < 16 && 1 ≤ n && n ≤ 16 then d.set k (setBit (d.get k) n) else d
  | none => d

/-- Does a response answer this request of the unit's own (R41): by its opcode, its TxnId and who sent it? -/
def Asked.answeredBy (x : Asked) (opcode txn source : Nat) (drop : Option (Nat × Nat)) : Bool :=
  x.txn = txn && opcode = 0x80 + x.opcode && (match x.drop with
    | some g => drop = some g
    | none => x.dest = source || x.dest = 0x400000)

/-- A drop's answer to the IDENTIFY that its trunk asks of every drop; the spec does not say when it asks, so one is always
outstanding (log 93). -/
def Dev.identified (d : Dev) (opcode index length abort : Nat) (drop : Option (Nat × Nat)) : Bool :=
  d.isTrunk && drop.isSome && opcode = 0x86 && index = 0 && length = 15 && abort = 0

/-- SDP_RESPONSE (R41, R650): one with fewer data bytes than its Length states, or that answers no request that the unit has
outstanding, is discarded (no unit of the model holds a subscription elsewhere); another is taken. -/
def execSdpResponse (u : UnitId) (opcode txn source index length abort : Nat) (data : Bytes) (drop : Option (Nat × Nat))
    (s : State) : Host.Outcome State Fault Refusal :=
  s.on u fun d =>
    if data.length < length || opcode < 0x80 then d
    else
      let r : Resp := { opcode := opcode, txn := txn, dest := d.source, source := source, index := index,
                        length := length, abort := abort, data := data.take length }
      match d.srv.asked.find? (·.answeredBy opcode txn source drop) with
      | some x =>
        let k := (x.dest, x.index, x.sub)
        let known := if x.opcode = 2 then d.srv.known
          else d.srv.known.filter (fun (y : (Nat × Nat × Nat) × Bytes) => y.1 != k) ++ (if abort = 0 then [(k, r.data)] else [])
        { d with srv := { d.srv with received := [r], asked := d.srv.asked.erase x, known := known } }
      | none =>
        if d.identified opcode index length abort drop then
          Dev.dropSeen { d with srv := { d.srv with received := [r] } } drop
        else d

/-- LATCH_RELEASE (R45): latches unused for 1 s are released. -/
def execLatchRelease (u : UnitId) (s : State) : Host.Outcome State Fault Refusal := s.on u Dev.purgeLatches

/-- REPLAY_ENTRY_FREE (R47): entries of Sources silent for 2 s are freed. -/
def execReplayEntryFree (u : UnitId) (s : State) : Host.Outcome State Fault Refusal := s.on u Dev.purgeReplay

/-- UNLISTED_OPCODE (R41): a request opcode that R41 does not list fails with RANGE; one with bit 7 set is never
answered. -/
def execUnlistedOpcode (u : UnitId) (e : Env) (opcode index sub : Nat) (s : State) :
    Host.Outcome State Fault Refusal :=
  s.on u fun d =>
    if opcode ≥ 0x80 || (1 ≤ opcode && opcode ≤ 6) then d
    else d.serve e opcode index sub 0 fun d => fail d .range

/-! ### The proxy (R58, R59) -/

/-- The lowest free proxy slot, 1 to 255. -/
def Dev.freeSlot (d : Dev) : Option Nat :=
  ((List.range 255).map (· + 1)).find? (fun n => !d.srv.slots.any (·.slot = n))

/-- The partition in which a trunk routes a message that a drop of a service segment sends to another unit (R56): that of the
Stem port of the leaf that its Source names; 0 for another Source (log 94). -/
def Dev.dropPartition (d : Dev) (source : Nat) : Nat :=
  if source < 2 ^ 20 && addrTrunk source = d.get 0x3100_01 then d.stemPartition (source % 256) else 0

/-- PROXY_REQUEST (R56, R58, R59): a request that arrives at an export port or the service port for another unit is forwarded
in-band under a proxy slot's address, in the export partition (R411); one from a service segment is routed as it is. -/
def execProxyRequest (e : Env) (origin : Origin) (opcode index sub offset length : Nat) (m : SdpBody) (s : State) :
    Host.Outcome State Fault Refusal :=
  s.onTrunk fun d =>
    let req (src : Nat) : Resp := { opcode := opcode, txn := e.txn, dest := e.dest, source := src, index := index, sub := sub
                                    flags := m.flags % 8, offset := offset, length := length, data := m.data }
    if !d.hearsFrame e || d.takes e || !d.passesOn e || e.via = .inband then d
    else if e.via = .service then
      (d.emit (.request .inband 0 (req e.source))).sendSdp e.dest (d.dropPartition e.source) (sdpBytes (req e.source))
    else
      let answer (d : Dev) (a : Abort) : Dev :=
        let d := (d.inc 0x1101_06).logAbort e index sub offset a.code
        d.sendProxied origin (respOf d e opcode index sub offset (fail d a))
      if d.quickset then answer d .state
      else match d.freeSlot with
      | none => answer d .busy
      | some n =>
        let src := 0x100000 + d.get 0x3100_01 * 256 + n
        let slot : ProxySlot := ⟨n, e.txn, opcode, e.via, origin, e.source, d.now⟩
        let d := { d with srv := { d.srv with slots := d.srv.slots ++ [slot] } }
        (d.emit (.request .inband 0 (req src))).sendSdp e.dest (d.get 0x3100_08) (sdpBytes (req src))

/-- PROXY_RESPONSE (R58): the response goes back to the requester that its slot and TxnId name, and frees the slot. -/
def execProxyResponse (slot txn opcode abort : Nat) (m : SdpReply) (s : State) :
    Host.Outcome State Fault Refusal :=
  s.onTrunk fun d =>
    match d.srv.slots.find? (fun x => x.slot = slot && x.txn = txn) with
    | none => d
    | some x =>
      let r : Resp := { opcode := opcode, txn := txn, dest := x.source, source := m.source, index := m.index, sub := m.sub
                        flags := m.flags % 8, offset := m.offset, length := m.data.length, abort := abort, data := m.data }
      let d := { d with srv := { d.srv with slots := d.srv.slots.filter (·.slot != slot) } }
      d.sendProxied x.origin r

/-- PROXY_SLOT_TIMEOUT (R58): a slot is freed 100 ms after its request. -/
def execProxySlotTimeout (slot : Nat) (s : State) : Host.Outcome State Fault Refusal :=
  s.onTrunk fun d =>
    let l := d.srv.slots.filter (fun x => !(x.slot = slot && d.now ≥ x.time + 100000000))
    { d with srv := { d.srv with slots := l } }

/-! ### The local port -/

/-- RES_LATCH_READ (R62): a local-port read of subindex 0x01 of a result object latches it. -/
def execResLatchRead (l : LeafId) (e : Env) (index : Nat) (s : State) : Host.Outcome State Fault Refusal :=
  s.onLeaf l fun d =>
    let e := { e with via := .lp }
    d.serve e 0x01 index 1 0 fun d => d.lpRead e index 1 0 1

/-- The access checks that the indirection pairs' scalars share with every local-port access (R63). -/
def pairEnv (e : Env) : Env := { e with via := .lp }

/-- An indirection pair changed. -/
def Dev.setPair (d : Dev) (p : Nat) (x : Pair) : Dev := { d with srv := { d.srv with pairs := d.srv.pairs.set p x } }

/-- A write to a pair's Select (R64): with Offset 0 the named value is latched, from the R62 latch if that holds the
object, and the staging buffer is emptied (log 95); WO and CMD values have no bytes to latch. A latching Select of a voltage
sensor's MinV re-arms the minimum as any read of it does (R157). A refused write leaves Select as it was. -/
def Dev.pairSelectAns (d : Dev) (pair v : Nat) : Ans :=
  let v := v % 2 ^ 56
  let (off, sub, i) := selectOf v
  let d1 := d.set (key (0x1180 + pair) 1) v
  if off != 0 then ok d1
  else if !d.serves i then fail d .noObject
  else match d.cfg.rowOf i sub with
  | none => fail d .noSubindex
  | some r =>
    if d.readRefused i then fail d .state
    else
      let fromRes := match d.srv.resLatch with
        | some (j, c) => if j = i && r.acc == Access.res then inCopy c sub else none
        | none => none
      let d1 := d1.scanFor i
      let bs := if r.acc = .wo || r.acc = .cmd then [] else fromRes.getD (d1.wire i sub r.ty)
      let d2 := if isVolt i && sub = 2 then d1.rearmMinV i else d1
      ok ((d2.setPair pair { copy := bs, staging := [] }).set (key (0x1180 + pair) 4) bs.length)

/-- A write to a pair's Data (R64): 8 bytes into the staging buffer at Offset; Offset advances. -/
def Dev.pairDataAns (d : Dev) (pair v : Nat) : Ans :=
  let off := (selectOf (d.get (key (0x1180 + pair) 1))).1
  let p := d.pair pair
  ok ((d.setPair pair { p with staging := patch p.staging off (leBytes 8 v) }).advancePair pair)

/-- LOCAL_INDIRECT_SELECT (R64). -/
def execLocalIndirectSelect (l : LeafId) (e : Env) (pair : Nat) (value : Word) (s : State) :
    Host.Outcome State Fault Refusal :=
  s.onLeaf l fun d =>
    if pair < 4 then
      (d.runBefore e).serveWrite (pairEnv e) (0x1180 + pair) 1 value.toNat fun d v _ => d.pairSelectAns pair v
    else d

/-- LOCAL_INDIRECT_DATA_READ (R64). -/
def execLocalIndirectDataRead (l : LeafId) (e : Env) (pair : Nat) (s : State) : Host.Outcome State Fault Refusal :=
  s.onLeaf l fun d =>
    if pair < 4 then
      d.serve (pairEnv e) 0x01 (0x1180 + pair) 2 0 fun d => d.readAns (pairEnv e) (0x1180 + pair) 2 0 8
    else d

/-- LOCAL_INDIRECT_DATA_WRITE (R64). -/
def execLocalIndirectDataWrite (l : LeafId) (e : Env) (pair : Nat) (value : Word) (s : State) :
    Host.Outcome State Fault Refusal :=
  s.onLeaf l fun d =>
    if pair < 4 then d.serveWrite (pairEnv e) (0x1180 + pair) 2 value.toNat fun d v _ => d.pairDataAns pair v else d

/-- FLAG_CLEAR (R148): a software write to an RWC object. -/
def execFlagClear (u : UnitId) (e : Env) (index sub : Nat) (value : BitVec 32) (s : State) :
    Host.Outcome State Fault Refusal :=
  s.on u fun d => d.serveWrite e index sub value.toNat fun d v _ =>
    match d.cfg.rowOf index sub with
    | some r => if r.acc = .rwc then ok (d.clearFlags (key index sub) v) else fail d .range
    | none => fail d .noSubindex

end Sys2Proof.Machine
end

