-- ==== Sys2Proof/Machine/Codec.lean ====
section
/-! DEFINITION. The Sahlet Frame Codec (chapter 08): headers, tokens, decoding with its statuses, and coding. -/

namespace Sys2Proof.Machine

open Sys2Proof

/-- The status codes of R292. -/
inductive CodecStatus where
  | ok | noShrink | outFull | illegalCode | distBeyond | lengthOverrun | truncated | checkMismatch | contextInvalid
  deriving DecidableEq, Repr

/-- The value of a status (R292). -/
def CodecStatus.code : CodecStatus → Nat
  | .ok => 0 | .noShrink => 1 | .outFull => 2 | .illegalCode => 3 | .distBeyond => 4 | .lengthOverrun => 5
  | .truncated => 6 | .checkMismatch => 7 | .contextInvalid => 8

/-- The 16-byte header of a coded frame (R281). -/
structure CodedHead where
  format  : Nat
  flags   : Nat
  orig    : Nat
  crc     : Nat
  payload : Nat
  deriving DecidableEq, Repr

/-- The header that bytes hold (R281). -/
def codedHead (bs : Bytes) : CodedHead :=
  ⟨natAt bs 0 1, natAt bs 1 1, natAt bs 4 4, natAt bs 8 4, natAt bs 12 4⟩

/-- The bytes of a header (R281). -/
def CodedHead.bytes (h : CodedHead) : Bytes :=
  leBytes 1 h.format ++ leBytes 1 h.flags ++ zeros 2 ++ leBytes 4 h.orig ++ leBytes 4 h.crc ++ leBytes 4 h.payload

/-- The context at the start of a stream (R278). -/
def Ctx.restart (c : Ctx) : Ctx := { c with win := [], histFill := 0, prevLen := 0, lastDist := 0, lastLen := 0 }

/-- One original byte is produced (R277): it enters the history and the running CRC. -/
def Ctx.put (c : Ctx) (b : Byte) : Ctx :=
  { c with win := (b :: c.win).take 65536, out := c.out + 1, histPos := (c.histPos + 1) % 65536
           runCrc := crcByte 0x82F63B78#32 c.runCrc b }

/-- The bytes that a distance can reach (R292). -/
def Ctx.reach (c : Ctx) : Nat := min 65536 (c.histFill + c.out)

/-- The byte at a distance back from the next output byte (R287). -/
def Ctx.back (c : Ctx) (dist : Nat) : Byte := c.win.getD (dist - 1) 0

/-- A decoder at work: the context, the payload bytes not yet read, those read in this call, the bytes produced in this
call (newest first), and the room left in the output buffer. -/
structure Decoder where
  ctx  : Ctx
  inp  : Bytes
  used : Nat := 0
  made : Bytes := []
  room : Nat

/-- What a step of the decoder gives: it goes on, or the operation ends with a status. -/
abbrev DecStep := Except CodecStatus Decoder

/-- A decoder has produced a byte. -/
def Decoder.emit (d : Decoder) (b : Byte) : Decoder :=
  { d with ctx := d.ctx.put b, made := b :: d.made, room := d.room - 1 }

/-- A decoder reads a payload byte. -/
def Decoder.byte (d : Decoder) : Except CodecStatus (Byte × Decoder) :=
  match d.inp with
  | [] => .error .truncated
  | b :: bs => .ok (b, { d with inp := bs, used := d.used + 1 })

/-- A varint of at most `most` bytes, of which `done` have been read (R286). -/
def Decoder.varint : (most done : Nat) → (d : Decoder) → Except CodecStatus (Nat × Decoder)
  | 0, _, _ => .error .illegalCode
  | most + 1, done, d =>
    match d.byte with
    | .error e => .error e
    | .ok (b, d) =>
      if done = 9 && b.toNat > 1 then .error .illegalCode
      else if b.getLsbD 7 then
        match Decoder.varint most (done + 1) d with
        | .error e => .error e
        | .ok (n, d) => .ok (b.toNat % 128 + 128 * n, d)
      else .ok (b.toNat, d)

/-- Copy up to `n` literal bytes, as far as the output buffer goes; the bytes left. -/
def Decoder.literal : (n : Nat) → (d : Decoder) → Except CodecStatus (Nat × Decoder)
  | 0, d => .ok (0, d)
  | n + 1, d =>
    if d.room = 0 then .ok (n + 1, d)
    else match d.byte with
    | .error e => .error e
    | .ok (b, d) => Decoder.literal n (d.emit b)

/-- Copy up to `n` bytes of a match (R287), as far as the output buffer goes; the bytes left. -/
def Decoder.copy : (n : Nat) → (d : Decoder) → Nat × Decoder
  | 0, d => (0, d)
  | n + 1, d => if d.room = 0 then (n + 1, d) else Decoder.copy n (d.emit (d.ctx.back d.ctx.lastDist))

/-- The value of a zigzag delta (R289). -/
def zigzag (z : Nat) : Nat := if z % 2 = 0 then z / 2 else (2 ^ 64 - (z + 1) / 2) % 2 ^ 64

/-- Decode up to `n` words of a FIELD_DELTA token (R289), as far as the output buffer goes; the words left. -/
def Decoder.words : (n : Nat) → (d : Decoder) → Except CodecStatus (Nat × Decoder)
  | 0, d => .ok (0, d)
  | n + 1, d =>
    if d.room < 8 then .ok (n + 1, d)
    else
      let ref := leNat ((List.range 8).map fun i => d.ctx.back (d.ctx.prevLen - i))
      match Decoder.varint 10 0 d with
      | .error e => .error e
      | .ok (z, d) => Decoder.words n ((leBytes 8 ((ref + zigzag z) % 2 ^ 64)).foldl Decoder.emit d)

/-- A run that the buffer has cut is held in the context (R301); FIELD_DELTA words as 8 bytes each under kind 0. -/
def Decoder.hold (d : Decoder) (kind n : Nat) : Decoder := { d with ctx := { d.ctx with pendKind := kind, pendLen := n } }

/-- The length of a token's run: the count field, or a varint after it (R284). -/
def Decoder.count (d : Decoder) (c short long : Nat) : Except CodecStatus (Nat × Decoder) :=
  if c < 63 then .ok (c + short, d)
  else match Decoder.varint 3 0 d with
  | .error e => .error e
  | .ok (x, d) => .ok (x + long, d)

/-- A LITERAL run goes on (R284). -/
def Decoder.runLiteral (d : Decoder) (n : Nat) : DecStep :=
  match Decoder.literal n d with
  | .error e => .error e
  | .ok (left, d) => .ok (d.hold (if left = 0 then 0 else 1) left)

/-- A MATCH or REPEAT goes on (R287, R288). -/
def Decoder.runMatch (d : Decoder) (n : Nat) : Decoder :=
  let (left, d) := Decoder.copy n d
  d.hold (if left = 0 then 0 else 2) left

/-- FIELD_DELTA words go on (R289). -/
def Decoder.runWords (d : Decoder) (n : Nat) : DecStep :=
  match Decoder.words n d with
  | .error e => .error e
  | .ok (left, d) => .ok (d.hold 0 (8 * left))

/-- A MATCH of a length at a distance, after its checks (R287, R292). -/
def Decoder.startMatch (d : Decoder) (len dist : Nat) : DecStep :=
  if dist = 0 then .error .illegalCode
  else if dist > d.ctx.reach then .error .distBeyond
  else if d.ctx.out + len > d.ctx.orig then .error .lengthOverrun
  else .ok (Decoder.runMatch { d with ctx := { d.ctx with lastDist := dist, lastLen := len } } len)

/-- One token other than END, whose first byte has been read (R284, R285, R289). -/
def Decoder.token (d : Decoder) (b : Nat) : DecStep :=
  let c := b % 64
  match b / 64 with
  | 0 =>
    match d.count c 1 64 with
    | .error e => .error e
    | .ok (n, d) => if d.ctx.out + n > d.ctx.orig then .error .lengthOverrun else d.runLiteral n
  | 1 =>
    match d.count c 4 67 with
    | .error e => .error e
    | .ok (n, d) =>
      match d.byte with
      | .error e => .error e
      | .ok (lo, d) =>
        match d.byte with
        | .error e => .error e
        | .ok (hi, d) => d.startMatch n (lo.toNat + 256 * hi.toNat)
  | 2 =>
    let p := d.ctx.prevLen
    if !d.ctx.flags.testBit 2 || d.ctx.out % 8 != 0 then .error .illegalCode
    else if p = 0 || p % 8 != 0 || p > d.ctx.reach then .error .distBeyond
    else match d.count c 1 64 with
    | .error e => .error e
    | .ok (n, d) =>
      if d.ctx.out + 8 * n > d.ctx.orig then .error .lengthOverrun
      else d.runWords n
  | _ =>
    if b = 0xC1 then (if d.ctx.lastLen = 0 then .error .illegalCode else d.startMatch d.ctx.lastLen d.ctx.lastDist)
    else .error .illegalCode

/-- Is the output buffer full while original bytes remain (R301)? -/
def Decoder.full (d : Decoder) : Bool := d.room = 0 && d.ctx.out < d.ctx.orig

/-- The END token or the end of a RAW payload: what the frame must then satisfy (R291, R292). -/
def Decoder.atEnd (d : Decoder) : CodecStatus :=
  if !d.inp.isEmpty then .lengthOverrun
  else if d.ctx.out < d.ctx.orig then .truncated
  else if (~~~ d.ctx.runCrc).toNat != d.ctx.expCrc then .checkMismatch
  else .ok

/-- The tokens of a payload, in order (R291). -/
def Decoder.tokens : (fuel : Nat) → (d : Decoder) → CodecStatus × Decoder
  | 0, d => (.truncated, d)
  | fuel + 1, d =>
    if d.full then (.outFull, d)
    else match d.byte with
    | .error e => (e, d)
    | .ok (b, d') =>
      if b = 0xC0 then (d'.atEnd, d')
      else match d'.token b.toNat with
      | .error e => (e, d')
      | .ok d'' => Decoder.tokens fuel d''

/-- A held run goes on at a resumption (R301, R302). -/
def Decoder.pending (d : Decoder) : DecStep :=
  let n := d.ctx.pendLen
  match d.ctx.pendKind with
  | 1 => d.runLiteral n
  | 2 => .ok (d.runMatch n)
  | _ => d.runWords (n / 8)

/-- The payload of a frame in progress is decoded as far as it goes. -/
def Decoder.payload (d : Decoder) : CodecStatus × Decoder :=
  match d.pending with
  | .error e => (e, d)
  | .ok d =>
    if d.full then (.outFull, d)
    else if d.ctx.flags.testBit 0 then (d.atEnd, d)
    else Decoder.tokens (d.inp.length + 1) d

/-- A frame has completed (R279): PrevLen, HistFill; after LAST the stream starts anew, so that a HIST_CONT 1 frame finds
an EMPTY context (R292; DEDUCED). -/
def Ctx.finish (c : Ctx) : Ctx :=
  let c := { c with phase := 1, prevLen := c.orig, histFill := min 65536 (c.histFill + c.orig)
                    pendLen := 0, pendKind := 0, left := 0 }
  if c.flags.testBit 3 then { c.restart with phase := 0 } else c

/-- What a decoding call gives: status, context, bytes produced, bytes consumed, CRC. -/
structure DecResult where
  status   : CodecStatus
  ctx      : Ctx
  out      : Bytes
  consumed : Nat
  crc      : Nat

/-- The end of a call: the context of R293, R301 or R279. -/
def closeCall (head : Nat) (s : CodecStatus) (d : Decoder) : DecResult :=
  let c := d.ctx
  let c := match s with
    | .ok => c.finish
    | .outFull => { c with phase := 2, left := d.inp.length }
    | _ => { c with phase := 3 }
  { status := s, ctx := c, out := d.made.reverse, consumed := head + d.used
    crc := if s = .ok then c.expCrc else 0 }

/-- A call that fails before any output. -/
def failCall (c : Ctx) (s : CodecStatus) : DecResult :=
  { status := s, ctx := { c with phase := 3 }, out := [], consumed := 0, crc := 0 }

/-- The context once a frame's header has been taken (R278). -/
def Ctx.open_ (c : Ctx) (h : CodedHead) : Ctx :=
  let c := if h.flags.testBit 1 then { c with frames := c.frames + 1 } else { c.restart with frames := 1 }
  { c with flags := h.flags % 16, orig := h.orig, out := 0, expCrc := h.crc, runCrc := 0xFFFFFFFF#32, left := h.payload
           pendKind := if h.flags.testBit 0 then 1 else 0, pendLen := if h.flags.testBit 0 then h.orig else 0 }

/-- A DECOMPRESS without RESUME (R291, R292, R302): `room` is the size of the output buffer. -/
def decodeFrame (c : Ctx) (inp : Bytes) (room : Nat) : DecResult :=
  let c := if c.phase = 2 then { c with phase := 3 } else c
  let h := codedHead inp
  if inp.length ≥ 16 && h.flags.testBit 1 && c.phase != 1 then failCall c .contextInvalid
  else if inp.length < 16 then failCall c .truncated
  else if h.format != 1 then failCall c .illegalCode
  else if h.orig = 0 || h.orig > 16777216 || (h.flags.testBit 0 && h.payload != h.orig) then
    failCall c .lengthOverrun
  else if inp.length < 16 + h.payload then failCall c .truncated
  else
    let (s, d) := Decoder.payload { ctx := c.open_ h, inp := (inp.drop 16).take h.payload, room := room }
    closeCall 16 s d

/-- A DECOMPRESS with RESUME (R302). -/
def resumeFrame (c : Ctx) (inp : Bytes) (room : Nat) : DecResult :=
  if c.phase != 2 then failCall c .contextInvalid
  else if inp.length < c.left then failCall c .truncated
  else
    let (s, d) := Decoder.payload { ctx := c, inp := inp.take c.left, room := room }
    closeCall 0 s d

/-! ### Coding (R283, R290, R295, R298) -/

/-- A coded frame, the context it leaves, and whether it is RAW. -/
structure Coded where
  bytes : Bytes
  ctx   : Ctx
  raw   : Bool

/-- The frame of a payload under flags. -/
def frameOf (flags : Nat) (orig payload : Bytes) : Bytes :=
  (CodedHead.mk 1 flags orig.length (crc32c orig) payload.length).bytes ++ payload

/-- Code an original in a context: `cont` HIST_CONT, `last` LAST, `delta` whether FIELD_DELTA tokens are allowed,
`tokens` whether tokens may be used at all (R308). The tokens are the encoder's free choice; a choice that does not
decode to the original, or is not shorter, gives way to RAW (R295). -/
def encodeFrame (c : Ctx) (orig : Bytes) (cont last delta tokens : Bool) : Coded :=
  let base := if cont then c else c.restart
  let delta := delta && base.prevLen ≤ 65536
  let fl := 2 * b2n cont + 8 * b2n last
  let dec (bs : Bytes) : DecResult := decodeFrame { base with phase := 1 } bs orig.length
  let payload := Config.codecTokens delta base.prevLen base.lastDist base.lastLen base.win orig
  let coded := frameOf (fl + 4 * b2n delta) orig payload
  let r := dec coded
  if tokens && payload.length < orig.length && r.status = .ok && r.out = orig then ⟨coded, r.ctx, false⟩
  else
    let raw := frameOf (fl + 1) orig orig
    ⟨raw, (dec raw).ctx, true⟩

end Sys2Proof.Machine
end

