-- ==== Sys2Proof/Machine/Float.lean ====
section
/-! DEFINITION. Floating-point numbers as exact values: the formats that the spec names (R428, R526, R539), exact
addition and multiplication, and rounding (R544, R547). -/

namespace Sys2Proof.Machine

/-- A floating-point value: a NaN, an infinity, or ±m × 2^e. -/
inductive FVal where
  | nan
  | inf (neg : Bool)
  | fin (neg : Bool) (m : Nat) (e : Int)
  deriving DecidableEq, Repr

/-- What a format keeps its largest exponent field for (R539): nothing, one NaN (E4M3), or Inf and NaNs. -/
inductive Specials where
  | none
  | oneNan
  | ieee
  deriving DecidableEq, Repr

/-- A format: exponent bits, mantissa bits, bias, special values (R539). -/
structure FFmt where
  ebits : Nat
  mbits : Nat
  bias  : Nat
  spec  : Specials := .ieee
  deriving DecidableEq, Repr

/-- binary64. -/
def f64 : FFmt := ⟨11, 52, 1023, .ieee⟩

/-- binary32. -/
def f32 : FFmt := ⟨8, 23, 127, .ieee⟩

/-- BF16. -/
def bf16 : FFmt := ⟨8, 7, 127, .ieee⟩

/-- FP8_E5M2. -/
def e5m2 : FFmt := ⟨5, 2, 15, .ieee⟩

/-- FP8_E4M3. -/
def e4m3 : FFmt := ⟨4, 3, 7, .oneNan⟩

/-- FP6_E3M2. -/
def e3m2 : FFmt := ⟨3, 2, 3, .none⟩

/-- FP6_E2M3. -/
def e2m3 : FFmt := ⟨2, 3, 1, .none⟩

/-- FP4_E2M1. -/
def e2m1 : FFmt := ⟨2, 1, 1, .none⟩

/-- The value of an element of a format (R539). -/
def FFmt.decode (f : FFmt) (w : Nat) : FVal :=
  let m := w % 2 ^ f.mbits
  let e := w / 2 ^ f.mbits % 2 ^ f.ebits
  let s := (w / 2 ^ (f.mbits + f.ebits)) % 2 = 1
  let top := e = 2 ^ f.ebits - 1
  let fin : FVal :=
    if e = 0 then .fin s m (1 - (f.bias : Int) - f.mbits)
    else .fin s (2 ^ f.mbits + m) ((e : Int) - f.bias - f.mbits)
  match f.spec with
  | .none => fin
  | .oneNan => if top && m = 2 ^ f.mbits - 1 then .nan else fin
  | .ieee => if top then (if m = 0 then .inf s else .nan) else fin

/-- Is an element subnormal? -/
def FFmt.subnormal (f : FFmt) (w : Nat) : Bool := w / 2 ^ f.mbits % 2 ^ f.ebits = 0 && w % 2 ^ f.mbits != 0

/-- Is a value ±0? -/
def FVal.isZero : FVal → Bool
  | .fin _ 0 _ => true
  | _ => false

/-- The sign of a value (false for a NaN). -/
def FVal.neg : FVal → Bool
  | .nan => false
  | .inf s => s
  | .fin s _ _ => s

/-- The exact product (R543). -/
def FVal.mul : FVal → FVal → FVal
  | .nan, _ => .nan
  | _, .nan => .nan
  | .inf s, y => if y.isZero then .nan else .inf (s != y.neg)
  | x, .inf t => if x.isZero then .nan else .inf (x.neg != t)
  | .fin s m e, .fin t n g => .fin (s != t) (m * n) (e + g)

/-- A value times a power of two. -/
def FVal.scale (k : Int) : FVal → FVal
  | .fin s m e => .fin s m (e + k)
  | x => x

/-- The signed integer of a finite value in units of 2^g, where g is at most its exponent. -/
def units (s : Bool) (m : Nat) (e g : Int) : Int :=
  let n : Int := (m * 2 ^ (e - g).toNat : Nat)
  if s then -n else n

/-- The exact sum; a sum of zero from operands other than two of one sign is −0 if `down`, else +0. -/
def FVal.add (down : Bool) : FVal → FVal → FVal
  | .nan, _ => .nan
  | _, .nan => .nan
  | .inf s, .inf t => if s = t then .inf s else .nan
  | .inf s, _ => .inf s
  | _, .inf t => .inf t
  | .fin s m e, .fin t n f =>
    let g := min e f
    let sum := units s m e g + units t n f g
    if sum = 0 then .fin (if m = 0 && n = 0 && s = t then s else down) 0 g
    else .fin (sum < 0) sum.natAbs g

/-- The rounding directions (R547). -/
inductive Rnd where
  | rne | rtz | rup | rdn
  deriving DecidableEq, Repr

/-- `m` divided by 2^k, rounded. -/
def shiftRound (r : Rnd) (neg : Bool) (m k : Nat) : Nat :=
  let q := m / 2 ^ k
  let rest := m % 2 ^ k
  let up := match r with
    | .rne => 2 * rest > 2 ^ k || (2 * rest = 2 ^ k && q % 2 = 1)
    | .rtz => false
    | .rup => !neg && rest != 0
    | .rdn => neg && rest != 0
  if up then q + 1 else q

/-- The least exponent of a format's values: that of its smallest subnormal. -/
def FFmt.emin (f : FFmt) : Int := 1 - (f.bias : Int) - f.mbits

/-- A value rounded to a format's precision, with unbounded exponent above. -/
def FFmt.round (f : FFmt) (r : Rnd) : FVal → FVal
  | .fin s m e =>
    if m = 0 then .fin s 0 f.emin
    else
      let g := max f.emin (e + (Nat.log2 m + 1 : Nat) - (f.mbits + 1 : Nat))
      if g ≤ e then .fin s (m * 2 ^ (e - g).toNat) g else .fin s (shiftRound r s m (g - e).toNat) g
  | x => x

/-- The largest finite magnitude of a format, as a pair: m × 2^e. -/
def FFmt.largest (f : FFmt) : Nat × Int :=
  let field := match f.spec with
    | .ieee => 2 ^ f.ebits - 2
    | _ => 2 ^ f.ebits - 1
  let m := match f.spec with
    | .oneNan => 2 ^ (f.mbits + 1) - 2
    | _ => 2 ^ (f.mbits + 1) - 1
  (m, (field : Int) - f.bias - f.mbits)

/-- Does a rounded value exceed the largest finite value? -/
def FFmt.overflows (f : FFmt) : FVal → Bool
  | .fin _ m e =>
    let (n, g) := f.largest
    let h := min e g
    m * 2 ^ (e - h).toNat > n * 2 ^ (g - h).toNat
  | _ => false

/-- Under this rounding, does an overflow of a sign give the largest finite value? RTZ and RDN never overflow to Inf (R547). -/
def Rnd.toLargest (r : Rnd) (neg : Bool) : Bool :=
  match r with
  | .rne => false
  | .rtz => true
  | .rup => neg
  | .rdn => true

/-- A value rounded into a format, with the overflow of IEEE 754-2019. -/
def FFmt.fit (f : FFmt) (r : Rnd) (x : FVal) : FVal :=
  let y := f.round r x
  if f.overflows y then (if r.toLargest y.neg then .fin y.neg f.largest.1 f.largest.2 else .inf y.neg) else y

/-- Is a rounded value a nonzero one below the smallest normal? -/
def FFmt.tiny (f : FFmt) : FVal → Bool
  | .fin _ m e => m != 0 && e ≤ f.emin && m < 2 ^ (f.mbits + (f.emin - e).toNat)
  | _ => false

/-- A rounded value with subnormals made zeros of their sign where `flush` holds (R546, R547). -/
def FFmt.flushed (f : FFmt) (flush : Bool) (x : FVal) : FVal :=
  if flush && f.tiny x then .fin x.neg 0 f.emin else x

/-- The bits of a value that the format holds; `nan` are the bits of a NaN. -/
def FFmt.encode (f : FFmt) (nan : Nat) (x : FVal) : Nat :=
  let sign (s : Bool) : Nat := b2n s * 2 ^ (f.ebits + f.mbits)
  match x with
  | .nan => nan
  | .inf s => sign s + (2 ^ f.ebits - 1) * 2 ^ f.mbits
  | .fin s m e =>
    let (m, e) := match f.round .rne (.fin s m e) with
      | .fin _ m e => (m, e)
      | _ => (0, f.emin)
    if m < 2 ^ f.mbits then sign s + m
    else
      let (m, e) := if m = 2 ^ (f.mbits + 1) then (2 ^ f.mbits, e + 1) else (m, e)
      sign s + (e + f.bias + f.mbits).toNat * 2 ^ f.mbits + (m - 2 ^ f.mbits)

/-- The rounded sum of two values of a format. -/
def FFmt.addR (f : FFmt) (r : Rnd) (x y : FVal) : FVal := f.fit r (x.add (r = .rdn) y)

/-- A value of an integer. -/
def FVal.ofInt (i : Int) : FVal := .fin (i < 0) i.natAbs 0

/-- Quiet less-than of IEEE 754-2019: false where either is a NaN. -/
def FVal.lt : FVal → FVal → Bool
  | .nan, _ => false
  | _, .nan => false
  | .inf s, y => s && y != .inf true
  | x, .inf t => !t && x != .inf false
  | .fin s m e, .fin t n f => let g := min e f; units s m e g < units t n f g

/-- A key of binary64 bits whose order is the totalOrder predicate of IEEE 754-2019. -/
def totalKey (w : Nat) : Nat := if w.testBit 63 then 2 ^ 64 - 1 - w else w + 2 ^ 63

end Sys2Proof.Machine
end

