-- ==== Sys2Proof/Machine/Partial.lean ====
section
/-! DEFINITION. The data of the reduction, as functions on bytes: telemetry frames as a trunk reads them (chapter 07), the
log-bucket histogram (R497, R498), field lists (R427), and partials with their operations (R428, R429). -/

namespace Sys2Proof.Machine

open Sys2Proof

/-! ### Frames as received (R259 to R261) -/

/-- A FleetTime that an FT32 names, near a full FleetTime (R111). -/
def expandFt (near v : Nat) : Nat := ((near : Int) + seqDiff 32 v near).toNat

/-- Flags of a raw frame (R259). -/
def frFlags (f : Bytes) : Nat := natAt f 2 2

/-- Group of a raw frame. -/
def frGroup (f : Bytes) : Nat := natAt f 8 2 % 4096

/-- Generation of a raw frame. -/
def frGen (f : Bytes) : Nat := natAt f 10 1

/-- Partition of a raw frame. -/
def frPart (f : Bytes) : Nat := natAt f 11 1

/-- Window of a raw frame. -/
def frWindow (f : Bytes) : Nat := natAt f 16 4

/-- LatchStamp of a raw frame, an FT32. -/
def frLatch (f : Bytes) : Nat := natAt f 20 4

/-- PrevLatch of a raw frame, an FT32. -/
def frPrev (f : Bytes) : Nat := natAt f 36 4

/-- The sections of a frame: type, CARRYOVER, body (R260). -/
def walkSections : (fuel : Nat) → Bytes → List (Nat × Bool × Bytes)
  | 0, _ => []
  | fuel + 1, bs =>
    if bs.length < 8 then []
    else
      let n := natAt bs 4 4
      (natAt bs 0 1, (natAt bs 1 1).testBit 0, (bs.drop 8).take n) :: walkSections fuel (bs.drop (8 + n))

/-- The sections of a raw frame. -/
def frSections (f : Bytes) : List (Nat × Bool × Bytes) := walkSections (natAt f 33 1) (f.drop 40)

/-- The body of a frame's section of a type; types above `most` are not looked at (R275, step 3). -/
def frSection (f : Bytes) (most ty : Nat) : Option Bytes :=
  if most < ty then none else ((frSections f).find? (·.1 = ty)).map (·.2.2)

/-- The lowest VoltMin of a SENSORS body; none where the leaf has no voltage sensor. -/
def voltMin (b : Bytes) : Option Nat := ((List.range (natAt b 0 1)).map fun i => natAt b (24 + 4 * i) 4).min?

/-- The highest Temp of a SENSORS body. -/
def tempMax (b : Bytes) : Option Int :=
  let off := 24 + 4 * natAt b 0 1 + 4 * natAt b 1 1
  ((List.range (natAt b 2 1)).map fun i => intAt b (off + 2 * i) 2).max?

/-- The sum over a SLOTS body's entries of fixed counter `c`. -/
def slotSum (b : Bytes) (c : Nat) : Nat :=
  (List.range (b.length / 56)).foldl (fun n i => n + natAt b (56 * i + 8 + 8 * c) 8) 0

/-- The value of an element of a difference source in a frame: ALWAYS_ON (1), COUNTERS (2) or SLOTS (5) (R429). -/
def latched (f : Bytes) (most source sel i : Nat) : Option Nat :=
  match source with
  | 1 => (frSection f most 1).map fun b => natAt b (8 * (sel + i - 1)) 8
  | 2 => (frSection f most 6).bind fun b =>
    if sel + i < natAt b 4 2 then some (natAt b (8 + 8 * (sel + i)) 8) else none
  | 5 => (frSection f most 5).map fun b => slotSum b sel
  | _ => none

/-! ### The log-bucket histogram -/

/-- q of a histogram of N buckets (R497). -/
def histQ (n : Nat) : Nat := if n < 128 then 0 else if n < 256 then 1 else 2

/-- The bucket of a value (R497). -/
def bucketOf (n : Nat) (v : Int) : Nat :=
  let q := histQ n
  let v := v.toNat
  let b :=
    if v < 2 ^ (q + 1) then v
    else
      let e := Nat.log2 v
      2 ^ (q + 1) + (e - q - 1) * 2 ^ q + (v / 2 ^ (e - q) - 2 ^ q)
  min b (n - 1)

/-- The lowest value of a bucket (R497). -/
def bucketLow (n b : Nat) : Nat :=
  let q := histQ n
  if b < 2 ^ (q + 1) then b
  else
    let j := b - 2 ^ (q + 1)
    (2 ^ q + j % 2 ^ q) * 2 ^ (1 + j / 2 ^ q)

/-- The width of a bucket (R497). -/
def bucketWidth (n b : Nat) : Nat :=
  let q := histQ n
  if b < 2 ^ (q + 1) then 1 else 2 ^ (1 + (b - 2 ^ (q + 1)) / 2 ^ q)

/-- The total of a histogram. -/
def histTotal (h : List Nat) : Nat := h.foldl (· + ·) 0

/-- The bucket in which the count reaches `t`, and the count before it. -/
def findBucket (t : Nat) : (h : List Nat) → (b c : Nat) → Nat × Nat
  | [], b, c => (b, c)
  | x :: xs, b, c => if c + x < t then findBucket t xs (b + 1) (c + x) else (b, c)

/-- The quantile of a histogram (R498); none where it is empty. -/
def quantileOf (h : List Nat) (p16 : Nat) : Option Nat :=
  let total := histTotal h
  if total = 0 then none
  else
    let t := (p16 * total + 65535) / 65536
    let (b, c) := findBucket t h 0 0
    some (bucketLow h.length b + (t - c - 1) * bucketWidth h.length b / h.getD b 1)

/-- The rank of a value in a histogram (R498). -/
def rank16 (h : List Nat) (x : Int) : Nat :=
  let total := histTotal h
  if total = 0 then 32768
  else
    let b := bucketOf h.length x
    let c := histTotal (h.take b)
    let w := bucketWidth h.length b
    let off := min ((x - bucketLow h.length b).toNat) w
    65536 * (c * w + h.getD b 0 * off) / (total * w)

/-- The buckets in a body of U32 counts. -/
def histOf (b : Bytes) : List Nat := (List.range (b.length / 4)).map fun i => natAt b (4 * i) 4

/-- The body of U32 bucket counts. -/
def histBytes (h : List Nat) : Bytes := h.flatMap (leBytes 4)

/-- A value adds one to its bucket, saturating. -/
def histPut (h : List Nat) (v : Int) : List Nat := h.modify (bucketOf h.length v) fun n => satNat 32 (n + 1)

/-- Two histograms added, saturating (R428). -/
def histAdd (a b : List Nat) : List Nat := (List.range a.length).map fun i => satNat 32 (a.getD i 0 + b.getD i 0)

/-! ### Field lists -/

/-- A field descriptor (R427). -/
structure FieldD where
  op     : Nat
  ty     : Nat
  k      : Nat
  source : Nat
  sel    : Nat
  count  : Nat
  deriving DecidableEq, Repr

/-- The descriptors of a field list. -/
def fieldsOf (bs : Bytes) : List FieldD :=
  (List.range (bs.length / 8)).map fun i =>
    let o := 8 * i
    ⟨natAt bs o 1, natAt bs (o + 1) 1, natAt bs (o + 2) 1, natAt bs (o + 3) 1, natAt bs (o + 4) 2, natAt bs (o + 6) 2⟩

/-- The size of a field's body (R428). -/
def FieldD.size (f : FieldD) : Nat :=
  match f.op with
  | 1 | 6 => 8 * f.count
  | 2 | 3 => 16
  | 4 => 8 + 16 * f.k
  | 5 => 4 * f.count
  | _ => 8

/-- The outputs that an ENGINE field may name (R495). -/
def engineSel (n : Nat) : Bool := (1 ≤ n && n ≤ 3) || (0x10 ≤ n && n ≤ 0x1F)

/-- Is a descriptor one that R427, R428 and R495 allow? -/
def FieldD.valid (f : FieldD) : Bool :=
  (1 ≤ f.op && f.op ≤ 7) && (5 ≤ f.op || (1 ≤ f.ty && f.ty ≤ 3)) &&
  (if f.op = 4 then 1 ≤ f.k && f.k ≤ 16 else f.k = 0) &&
  (match f.op with
   | 1 | 6 => 1 ≤ f.count && f.count ≤ 64
   | 5 => 8 ≤ f.count && f.count ≤ 256 && f.count % 2 = 0
   | _ => f.count = 1) &&
  (match f.source with
   | 1 => 1 ≤ f.sel && f.sel + (if f.op = 1 || f.op = 6 then f.count else 1) ≤ 65
   | 2 => true
   | 5 => f.sel ≤ 5
   | 6 => engineSel f.sel
   | 3 | 4 | 7 => f.sel = 0
   | _ => false)

/-- The partial size P (R427). -/
def partialSize (fs : List FieldD) : Nat := fs.foldl (fun n f => n + f.size) 40

/-! ### Entries and bodies -/

/-- The order of a key of a type (R428): F64 by totalOrder. -/
def keyOrder (ty key : Nat) : Int :=
  match ty with
  | 2 => toSigned 64 key
  | 3 => totalKey key
  | _ => key

/-- A value as the bits of a field's type (R429, R495). -/
def keyBits (ty : Nat) (v : Int) : Nat :=
  if ty = 3 then f64.encode 0 (f64.fit .rne (.ofInt v)) else ofSigned 64 v

/-- An entry of a MIN_ARG, MAX_ARG or TOPK body: Key, Arg, Aux. -/
structure Entry where
  key : Nat
  arg : Nat
  aux : Nat
  deriving DecidableEq, Repr

/-- The entry at an offset of a body. -/
def entryAt (b : Bytes) (o : Nat) : Entry := ⟨natAt b o 8, natAt b (o + 8) 4, natAt b (o + 12) 4⟩

/-- The bytes of an entry. -/
def Entry.bytes (e : Entry) : Bytes := leBytes 8 e.key ++ leBytes 4 e.arg ++ leBytes 4 e.aux

/-- Does `a` win over `b` in a MIN_ARG (`sign` −1) or MAX_ARG (`sign` 1) field? -/
def Entry.beats (ty : Nat) (sign : Int) (a b : Entry) : Bool :=
  if a.arg = 0xFFFFFFFF then false
  else if b.arg = 0xFFFFFFFF then true
  else
    let x := sign * keyOrder ty a.key
    let y := sign * keyOrder ty b.key
    y < x || (x = y && a.arg < b.arg)

/-- The entries of a TOPK body. -/
def topkOf (b : Bytes) : List Entry := (List.range (natAt b 0 1)).map fun i => entryAt b (8 + 16 * i)

/-- The first K of entries by descending Key, then ascending Arg. -/
def topkSort (ty k : Nat) (l : List Entry) : List Entry :=
  (sortBy (fun a b => keyOrder ty b.key < keyOrder ty a.key || (keyOrder ty a.key = keyOrder ty b.key && a.arg ≤ b.arg))
    l).take k

/-- The body of a TOPK field. -/
def topkBytes (k : Nat) (l : List Entry) : Bytes :=
  leBytes 1 l.length ++ zeros 7 ++ l.flatMap Entry.bytes ++ zeros (16 * (k - l.length))

/-- Two binary64 numbers added (R428). -/
def addF64 (a b : Nat) : Nat := f64.encode (Config.nan64 a b).toNat (f64.addR .rne (f64.decode a) (f64.decode b))

/-- Two elements of a SUM body added. -/
def addElem (ty a b : Nat) : Nat := if ty = 3 then addF64 a b else (a + b) % 2 ^ 64

/-- The 8-byte elements of a body. -/
def wordsOf (b : Bytes) : List Nat := (List.range (b.length / 8)).map fun i => natAt b (8 * i) 8

/-- Element-wise combination of two bodies of 8-byte elements. -/
def zipWords (f : Nat → Nat → Nat) (a b : Bytes) : Bytes :=
  (List.zipWith f (wordsOf a) (wordsOf b)).flatMap (leBytes 8)

/-- The body of a field in an empty partial (R428). -/
def FieldD.empty (f : FieldD) : Bytes :=
  match f.op with
  | 2 | 3 => Entry.bytes ⟨Config.emptyEntry.1.toNat, 0xFFFFFFFF, Config.emptyEntry.2.toNat⟩
  | _ => zeros f.size

/-- The merge of two bodies of a field (R428). -/
def FieldD.merge (f : FieldD) (a b : Bytes) : Bytes :=
  match f.op with
  | 1 => zipWords (addElem f.ty) a b
  | 2 => if (entryAt b 0).beats f.ty (-1) (entryAt a 0) then b else a
  | 3 => if (entryAt b 0).beats f.ty 1 (entryAt a 0) then b else a
  | 4 => topkBytes f.k (topkSort f.ty f.k (topkOf a ++ topkOf b))
  | 5 => histBytes (histAdd (histOf a) (histOf b))
  | 6 => zipWords (· ||| ·) a b
  | _ => zipWords (fun x y => (x + y) % 2 ^ 64) a b

/-- Bodies in field-list order, merged field by field. -/
def mergeBodies : List FieldD → Bytes → Bytes → Bytes
  | [], _, _ => []
  | f :: fs, a, b => f.merge (a.take f.size) (b.take f.size) ++ mergeBodies fs (a.drop f.size) (b.drop f.size)

/-- An empty partial of a field list (R428). -/
def Part.empty (fs : List FieldD) : Part := { bodies := fs.flatMap FieldD.empty }

/-- Two partials merged (R426, R428). -/
def Part.merge (fs : List FieldD) (a b : Part) : Part :=
  { members := a.members + b.members, present := a.present + b.present, gapLeaves := a.gapLeaves + b.gapLeaves
    trunks := a.trunks + b.trunks, flags := a.flags ||| b.flags, bodies := mergeBodies fs a.bodies b.bodies }

/-- The body of a field that one member's contributions give (R429, R495): element values with Aux, and the leaf ID. -/
def FieldD.contribute (f : FieldD) (leaf : Nat) (cs : List (List Int × Nat)) : Bytes :=
  let one (c : List Int × Nat) : Bytes :=
    match f.op with
    | 1 | 6 => (List.range f.count).flatMap fun i => leBytes 8 (keyBits (if f.op = 6 then 1 else f.ty) (c.1.getD i 0))
    | 2 | 3 => Entry.bytes ⟨keyBits f.ty (c.1.getD 0 0), leaf, c.2⟩
    | 4 => topkBytes f.k [⟨keyBits f.ty (c.1.getD 0 0), leaf, c.2⟩]
    | 5 => histBytes (histPut (List.replicate f.count 0) (c.1.getD 0 0))
    | _ => []
  if f.op = 7 then leBytes 8 (b2n (cs.any fun c => c.1.any (· != 0)))
  else cs.foldl (fun b c => f.merge b (one c)) f.empty

/-- The header and bodies of a PARTIAL or RESULT (R426). -/
def partialBytes (group gen stage window origin : Nat) (minus : Bool) (list : Bytes) (p : Part) : Bytes :=
  leBytes 2 group ++ leBytes 1 gen ++ leBytes 1 stage ++ leBytes 4 window ++ leBytes 2 origin ++ leBytes 1 (b2n minus) ++
  zeros 1 ++ leBytes 4 p.members ++ leBytes 4 p.present ++ leBytes 4 p.gapLeaves ++ leBytes 2 p.trunks ++
  leBytes 2 (list.length / 8) ++ leBytes 4 p.flags ++ leBytes 4 (crc32c list) ++ zeros 4 ++ p.bodies

/-- The payload of a PARTIAL message as received (R426). -/
def partialMsgBytes (m : PartialMsg) : Bytes :=
  leBytes 2 m.group ++ leBytes 1 m.generation ++ leBytes 1 m.stage ++ leBytes 4 m.window ++ leBytes 2 m.origin ++
  leBytes 1 (b2n m.minus) ++ zeros 1 ++ leBytes 4 m.members ++ leBytes 4 m.present ++ leBytes 4 m.gapLeaves ++
  leBytes 2 m.trunks ++ leBytes 2 m.fieldCount ++ leBytes 4 m.flags ++ leBytes 4 m.listCrc ++ zeros 4 ++ m.bodies

/-- The partial that a message carries. -/
def msgPart (m : PartialMsg) : Part :=
  { members := m.members, present := m.present, gapLeaves := m.gapLeaves, trunks := m.trunks, flags := m.flags % 128
    bodies := m.bodies }

end Sys2Proof.Machine
end

