-- ==== Sys2Proof/Machine/Mem.lean ====
section
/-! DEFINITION. The trunk's memory (R459): bytes by physical address in one canonical form, the sync counters (R464),
and the checks of an access (R460, R472). An address that nothing has written reads as 0 (log 2). -/

namespace Sys2Proof.Machine

/-- Memory: cells of rising address, none of value 0. -/
abbrev Mem := List Host.Cell

/-- The canonical form. -/
def Mem.wf (m : Mem) : Bool := rising (m.map (·.1)) && m.all (·.2 != 0)

/-- The byte at an address. -/
def Mem.byte (m : Mem) (a : Nat) : Byte := (lookupKey a m).getD 0

/-- Memory with one byte written. -/
def Mem.put (m : Mem) (a : Nat) (b : Byte) : Mem := if b = 0 then eraseKey a m else insertKey a b m

/-- Memory with a string of bytes written from an address. -/
def Mem.write (m : Mem) (a : Nat) : Bytes → Mem
  | [] => m
  | b :: bs => Mem.write (m.put a b) (a + 1) bs

/-- The `n` bytes from an address. -/
def Mem.read (m : Mem) (a n : Nat) : Bytes := (List.range n).map fun i => m.byte (a + i)

/-- A command acts on the trunk and its memory. -/
def State.onMem (s : State) (f : Dev → Mem → Dev × Mem) : Host.Outcome State Fault Refusal :=
  let d := { s.trunk with out := [], lines := [] }
  let (d, m) := if d.boot.held then (d, s.mem) else f d s.mem
  .next { s with trunk := { d with cfg := s.trunk.cfg }, mem := m }

/-! ### The address map (R459) -/

/-- A 4 MiB tile memory, the runtime region's and the stacks' bases, in bytes. -/
def tileBytes : Nat := 0x400000

/-- The base of the tile memories. -/
def tileBase : Nat := 0x000100000000

/-- The base of shared memory. -/
def sharedBase : Nat := 0x000200000000

/-- The base of the sync counters. -/
def syncBase : Nat := 0x000300000000

/-- The base of a memory stack. -/
def stackBase (s : Nat) : Nat := 0x010000000000 + 0x002000000000 * s

/-- The bytes of a stack. -/
def Dev.stackSize (d : Dev) : Nat := d.get 0x4001_01

/-- The zone of an address: 1 tile memories, 2 shared memory, 3 sync counters, 4 + s stack s; 0 unmapped. -/
def Dev.zone (d : Dev) (a : Nat) : Nat :=
  if tileBase ≤ a && a < tileBase + 64 * tileBytes then 1
  else if sharedBase ≤ a && a < sharedBase + 0x8000000 then 2
  else if syncBase ≤ a && a < syncBase + 0x20000 then 3
  else match (List.range 4).find? fun s => stackBase s ≤ a && a < stackBase s + d.stackSize with
    | some s => 4 + s
    | none => 0

/-- The address that a sprig of a tile names: its own tile's memory also lies at 0. -/
def ownTile (tile a : Nat) : Nat := if a < tileBytes then tileBase + tile * tileBytes + a else a

/-- The size of a pool page (R476). -/
def pageBytes : Nat := 0x200000

/-- The fixed region of the decoder contexts (R303), taken from the end of the last stack (log 19). -/
def contextBytes : Nat := 67174400

/-- The step of the trunk's ladders (R275). -/
def Dev.trunkStep (d : Dev) : Nat := max (d.get 0x2710_01) (d.get 0x2711_01)

/-- The address of the context that the trunk keeps for a stream, Stem port × 4 + schedule (R303). -/
def Dev.contextAt (d : Dev) (stream : Nat) : Nat := stackBase 3 + d.stackSize - contextBytes + 65600 * stream

/-- The places of pool pages: base address and number of pages (R459, R476): shared memory, then the stacks. -/
def Dev.poolPlaces (d : Dev) : List (Nat × Nat) :=
  (sharedBase + 0x1800000, 52) ::
  (List.range 4).map fun s => (stackBase s, (d.stackSize - (if s = 3 then contextBytes else 0)) / pageBytes)

/-- Does an address lie in a pool page? -/
def Dev.inPool (d : Dev) (a : Nat) : Bool := d.poolPlaces.any fun p => p.1 ≤ a && a < p.1 + p.2 * pageBytes

/-- The run that holds an address. -/
def Dev.runAt (d : Dev) (a : Nat) : Option PoolRun :=
  d.tk.ana.runs.find? fun r => r.lease.isNone && r.base ≤ a && a < r.base + r.pages * pageBytes

/-- The ways an access to memory fails (R460): with their codes. -/
inductive MemErr where
  | unmapped | evicted | partition | writeProtected | misalignedSync | uncorrectable
  deriving DecidableEq, Repr

/-- The code of a failed access (R460). -/
def MemErr.code : MemErr → Nat
  | .unmapped => 1 | .evicted => 2 | .partition => 3 | .writeProtected => 4 | .misalignedSync => 5 | .uncorrectable => 6

/-- The page of an address checked against a partition (R460): 0 reaches every page, and a page of partition 0 is open. -/
def Dev.checkPage (d : Dev) (part a : Nat) : Option MemErr :=
  if d.zone a = 0 then some .unmapped
  else if !d.inPool a then none
  else match d.runAt a with
    | some r => if r.part != 0 && part != 0 && r.part != part then some .partition else none
    | none =>
      if d.tk.ana.evicted.any (fun e => e.1 ≤ a && a < e.1 + e.2 * pageBytes) then some .evicted else some .unmapped

/-- The pages from an address up to `last` checked, lowest first. -/
def Dev.checkPages (d : Dev) (part last : Nat) : (fuel a : Nat) → Option MemErr
  | 0, _ => none
  | fuel + 1, a =>
    match d.checkPage part a with
    | some e => some e
    | none =>
      let next := (a / pageBytes + 1) * pageBytes
      if next ≤ last then d.checkPages part last fuel next else none

/-- An access of `n` bytes checked. -/
def Dev.checkRange (d : Dev) (part a n : Nat) : Option MemErr :=
  if n = 0 then none
  else if d.zone a != d.zone (a + n - 1) then some ((d.checkPage part a).getD .unmapped)
  else d.checkPages part (a + n - 1) (n / pageBytes + 2) a

/-! ### Sync counters (R464 to R466) -/

/-- The analysis fabric changed. -/
def Dev.modAna (d : Dev) (f : AnaSt → AnaSt) : Dev := { d with tk := { d.tk with ana := f d.tk.ana } }

/-- The value of a sync counter. -/
def Dev.syncAt (d : Dev) (c : Nat) : Word := (lookupKey c d.tk.ana.sync).getD 0

/-- Is a counter's value at or past a target (R461)? -/
def syncReached (v target : Word) : Bool := 0 ≤ toSigned 64 (v - target).toNat

/-- Threads that wait on a counter see the value it has taken (R466). -/
def Thread.sees (t : Thread) (c : Nat) (v : Word) : Thread :=
  match t.wait with
  | some (k, target, since, none) =>
    if k = c && syncReached v target then { t with wait := some (k, target, since, some v) } else t
  | _ => t

/-- An add to a sync counter (R464). -/
def Dev.syncAdd (d : Dev) (c : Nat) (v : Word) : Dev :=
  let n := d.syncAt c + v
  d.modAna fun a => { a with sync := if n = 0 then eraseKey c a.sync else insertKey c n a.sync
                             threads := a.threads.map fun (x : Nat × Thread) => (x.1, x.2.sees c n) }

/-- Does an address lie in the ring of the trunk's recorder (R235)? -/
def Dev.inRing (d : Dev) (a : Nat) : Bool :=
  d.isTrunk && recorderRun.base ≤ a && a < recorderRun.base + d.get 0x2600_01

/-- A byte of memory as a load finds it: in the recorder's ring that of its record, where one lies there (R235; log 21). -/
def Dev.loadByte (d : Dev) (m : Mem) (a : Nat) : Byte :=
  if d.inRing a then
    (ringCell true (d.get 0x2600_01) d.rcd.hist (a - recorderRun.base)).getD (m.byte a)
  else m.byte a

/-- The bytes that plain loads find: the counters' own range, the recorder's ring, or memory. -/
def Dev.load_ (d : Dev) (m : Mem) (a n : Nat) : Bytes :=
  if d.zone a = 3 then
    (List.range n).map fun i => ((leBytes 8 (d.syncAt ((a + i - syncBase) / 8)).toNat).getD ((a + i) % 8) 0)
  else if d.isTrunk && recorderRun.base < a + n && a < recorderRun.base + d.get 0x2600_01 then (List.range n).map fun i => d.loadByte m (a + i)
  else m.read a n

/-- The 8-byte number at an address. -/
def Dev.word (d : Dev) (m : Mem) (a : Nat) : Nat := leNat (d.load_ m a 8)

end Sys2Proof.Machine
end

