-- ==== Sys2Proof/Machine/Uplink.lean ====
section
/-! DEFINITION. The share arbiters of chapter 09: the leaf uplink (R310 to R322) and the trunk's memory ports (R323,
R324), and what leaves on the uplink in link frames (R354, R355). -/

namespace Sys2Proof.Machine

open Sys2Proof

/-- The credit of an uplink source (R312). -/
def Dev.credit (d : Dev) (src : Nat) : Int := d.arb.credit.getD src 0

/-- A credit changed; it saturates at -2^31 (R312). -/
def Dev.setCredit (d : Dev) (src : Nat) (v : Int) : Dev :=
  { d with arb := { d.arb with credit := d.arb.credit.set src (max (-2147483648) v) } }

/-- The sources that make their transfers as the uplink takes them offer the next one (R198, R207, R229). -/
def Dev.offer (d : Dev) : Dev := d.offerRecord.offerDrain

/-- The fill of a source: none, the lowest, with Quota 0 (R314). -/
def fillOf (credit : Int) (quota : Nat) : Option Int := if quota = 0 then none else some (credit * 65536 / quota)

/-- Is one fill below another? -/
def fillLess : Option Int → Option Int → Bool
  | none, none => false
  | none, some _ => true
  | some _, none => false
  | some a, some b => a < b

/-- The first entry of a list whose value no other exceeds. -/
def firstBest {α β : Type} (less : β → β → Bool) (f : α → β) (l : List α) : Option α :=
  l.foldl (fun b x => match b with
    | none => some x
    | some y => if less (f y) (f x) then some x else some y) none

/-- What a decision of R314 gives: the winner, and whether its wait forced it. -/
structure Verdict where
  src    : Nat
  forced : Bool
  deriving DecidableEq, Repr

/-- The winner of R314 among the sources with a transfer queued. `cut`: a preemption has just cut a transfer. -/
def Dev.winner (d : Dev) (cut : Bool) : Option Verdict :=
  let cands := (List.range 6).filter (fun s => !(d.queue s).isEmpty)
  if d.pfActive then (if cands.contains 1 then some ⟨1, false⟩ else none)
  else if cut then (cands.find? (fun s => d.on (key (0x2901 + s) 4))).map (⟨·, false⟩)
  else
    let wait (s : Nat) : Nat := headWait d.now (d.queue s)
    let limit (s : Nat) : Nat := d.get (key (0x2901 + s) 3)
    match firstBest (fun a b => Nat.blt a b) wait (cands.filter fun s => limit s != 0 && wait s ≥ limit s) with
    | some s => some ⟨s, true⟩
    | none =>
      let pool := cands.filter (0 < d.credit ·)
      let pool := if pool.isEmpty then cands else pool
      (firstBest fillLess (fun s => fillOf (d.credit s) (d.get (key (0x2901 + s) 1))) pool).map (⟨·, false⟩)

/-- The colour of a transfer that a decision sends: true for YELLOW (R314, R320). -/
def Dev.yellowOf (d : Dev) (src : Nat) : Bool := !(0 < d.credit src || d.pfActive)

/-- A decision is made for a winner: counted, its credit charged, its head taken from the queue (R314, R320). -/
def Dev.award (d : Dev) (v : Verdict) : Dev :=
  match d.queue v.src with
  | [] => d
  | x :: rest =>
    let yellow := d.yellowOf v.src
    let d := d.inc 0x2900_04
    let d := if v.forced then d.inc 0x2900_05 else d
    let d := if d.pfActive then d else d.setCredit v.src (d.credit v.src - x.bytes.length)
    let d := d.setQueue v.src rest
    { d with arb := { d.arb with sending := some (v.src, yellow), line := d.arb.line ++ [x] } }

/-- A decision of the free uplink (R314). -/
def Dev.decideUplink (d : Dev) (cut : Bool) : Dev :=
  if d.arb.sending.isSome then d
  else
    let d := d.offer
    match d.winner cut with
    | some v => d.award v
    | none => d

/-- The objects that count bytes on the uplink: `BytesSent` of a source, and `YellowBytes` (R315). -/
def Dev.countSent (d : Dev) (src n : Nat) (yellow : Bool) : Dev :=
  let d := d.add (key (0x2901 + src) 8) n
  if yellow then d.add 0x2900_06 n else d

/-- A transfer has left whole: frames and records are counted (R149, R229). -/
def Dev.xferSent (d : Dev) (src : Nat) : Dev :=
  match src with
  | 0 => d.always 0x2A 1
  | 1 => d.inc 0x2603_04
  | _ => d

/-- The bytes of whole link frames leave the transfers in progress. -/
def leave (n off : Nat) : List Xfer → Nat → List Xfer × Nat × Nat
  | [], done => ([], 0, done)
  | x :: xs, done =>
    if off + n ≥ x.bytes.length then leave (off + n - x.bytes.length) 0 xs (done + 1)
    else (x :: xs, off + n, done)

/-- `n` bytes of the transfers in progress have left in a whole link frame. -/
def Dev.lineSent (d : Dev) (n : Nat) : Dev :=
  match d.arb.sending with
  | none => d
  | some (src, yellow) =>
    let (line, off, done) := leave n d.arb.off d.arb.line 0
    let d := (List.range done).foldl (fun d _ => d.xferSent src) (d.countSent src n yellow)
    { d with arb := { d.arb with line := line, off := off
                                 sending := if line.isEmpty then none else some (src, yellow) } }

/-- The transfers in progress are cut: of them `sent` bytes had left in all. Each returns, parked, to the head of its
queue; the rest of their bytes is given back to the credit (R319, R355). -/
def Dev.cutLine (d : Dev) (sent : Nat) : Dev :=
  match d.arb.sending with
  | none => d
  | some (src, yellow) =>
    let line := d.arb.line
    let total := line.foldl (fun n x => n + x.bytes.length) 0
    let sent := min sent total
    let d := d.countSent src (sent - d.arb.off) yellow
    let d := if d.pfActive then d else d.setCredit src (min (d.credit src + (total - sent : Nat)) 2147483647)
    let d := (d.add (key (0x2901 + src) 9) line.length).always 0x2C line.length
    let d := { d with arb := { d.arb with sending := none, line := [], off := 0 } }
    d.setQueue src (line.map (fun x => { x with cuts := x.cuts + 1 }) ++ d.queue src)

/-- A leaf cuts its link frame (R318, R320, R355). -/
def Dev.abortFrame (d : Dev) (l : LeafId) : Dev := d.abortAt (.leaf l)

/-- The units of a link frame (R365, R367). -/
def unitsOf (n : Nat) : Nat := (n + 7) / 8

/-- The credit pool of a message class: 0 ASSURED, 1 BULK (R365). -/
def poolOf (cls : Nat) : Nat := if 5 ≤ cls && cls ≤ 8 then 1 else 0

/-- A sender's end after the END of the link frame in flight (R362, R367): the first transmission is charged, kept for
retry, and moves the Seq on. -/
def StemEnd.ended (x : StemEnd) (now : Nat) : StemEnd :=
  match x.sending with
  | none => x
  | some (_, false) => { x with sending := none }
  | some (f, true) =>
    let k := poolOf f.head.cls
    { x with sending := none, txSeq := (x.txSeq + 1) % 256, retry := x.retry ++ [f]
             lastAdv := if x.retry.isEmpty then now else x.lastAdv
             charged := x.charged.modify k (fun c => (c + unitsOf f.data.length) % 2 ^ 24) }

/-- The link frame in flight of a leaf ends (R354, R362, R367). -/
def Dev.endFrame (d : Dev) : Dev :=
  let sent := d.stem.sending
  let d := { d with stem := d.stem.ended d.now }
  match sent with
  | some (f, true) => (d.inc 0x3001_08).lineSent f.data.length
  | _ => d

/-- May the transfer being sent be cut by a queued one (R318)? -/
def Dev.preemptible (d : Dev) : Bool :=
  match d.arb.sending with
  | none => false
  | some (src, _) =>
    !d.on (key (0x2901 + src) 4) && d.arb.line.all (·.cuts < 4) &&
    (List.range 6).any (fun s => d.on (key (0x2901 + s) 4) && !(d.queue s).isEmpty)

/-- PREEMPTION (R318): `sent` bytes of the transfers in progress had left; a link frame whose bytes have all left has
ended. -/
def execPreemption (l : LeafId) (sent : Nat) (s : State) : Host.Outcome State Fault Refusal :=
  s.onLeaf l fun d =>
    let ended : Bool := match d.stem.sending with
      | some (f, _) => decide (sent ≥ d.arb.off + f.data.length)
      | none => false
    let d := (if ended then d.endFrame else d).offer
    if d.preemptible then ((d.abortFrame l).cutLine (if ended then d.arb.off else max sent d.arb.off)).decideUplink true
    else d

/-! ### Windows -/

/-- The settings that wait for a window opening take effect (R313). -/
def Dev.applyWaiting (d : Dev) (mine : Nat → Bool) : Dev :=
  let (now, later) := d.arb.waiting.partition (fun x => mine x.1)
  let d := { d with arb := { d.arb with waiting := later } }
  now.foldl (fun d x => d.set x.1 x.2) d

/-- Settings of the uplink: 0x2900 to 0x2906. -/
def isUplink (k : Nat) : Bool := k / 256 < 0x2907

/-- An uplink window opens (R312). -/
def Dev.uplinkWindow (d : Dev) : Dev :=
  if d.time.tick % (max 1 (d.get 0x2900_01)) != 0 || d.arb.lastWin = some d.time.tick || d.time.dead then d
  else
    let d := d.applyWaiting isUplink
    let d := { d with arb := { d.arb with lastWin := some d.time.tick } }
    (List.range 6).foldl (fun d s =>
      d.setCredit s (min (d.credit s) (d.get (key (0x2901 + s) 2)) + d.get (key (0x2901 + s) 1))) d

/-! ### Memory ports -/

/-- A memory-port arbiter changed. -/
def Dev.modMem (d : Dev) (n : Nat) (f : MemArbiter → MemArbiter) : Dev :=
  d.modFab fun x => { x with memArb := x.memArb.modify n f }

/-- A memory-port arbiter of a trunk. -/
def Dev.memAt (d : Dev) (n : Nat) : MemArbiter := (d.tk.fab.memArb[n]?).getD {}

/-- Has the window of a memory port opened in this tick? -/
def Dev.memOpened (d : Dev) (n : Nat) : Bool := (d.memAt n).lastWin = some d.time.tick

/-- A memory-port window opens (R312, R323): the four ports' windows open in one tick, and pending settings take effect at
the first of them. -/
def Dev.memWindow (d : Dev) (n : Nat) : Dev :=
  let others := [0, 1, 2, 3].any d.memOpened
  if n ≥ 4 || d.time.dead || d.memOpened n || !(others || d.time.tick % (max 1 (d.get 0x2908_01)) = 0) then d
  else
    let d := if others then d else d.applyWaiting (!isUplink ·)
    let carry (s : Nat) (c : Int) : Int := min c (d.get (key (0x2909 + s) 2)) + d.get (key (0x2909 + s) 1)
    d.modMem n fun m => { m with lastWin := some d.time.tick, credit := m.credit.zipIdx.map (fun (c, s) => carry s c) }

/-- A queue with the head's waiting time started. -/
def markMem (now : Nat) : List MemXfer → List MemXfer
  | [] => []
  | x :: xs => (if x.headSince.isNone then { x with headSince := some now } else x) :: xs

/-- A decision of a memory port (R314, R323, R324): its head access is made. -/
def Dev.memDecide (d : Dev) (n : Nat) : Dev :=
  let m := d.memAt n
  let cands := (List.range 8).filter (fun s => !((m.queues[s]?).getD []).isEmpty)
  let head (s : Nat) : MemXfer := (((m.queues[s]?).getD []).head?).getD { len := 0 }
  let wait (s : Nat) : Nat := d.now - (head s).headSince.getD d.now
  let limit (s : Nat) : Nat := d.get (key (0x2909 + s) 3)
  let credit (s : Nat) : Int := m.credit.getD s 0
  let forced := firstBest (fun a b => Nat.blt a b) wait (cands.filter fun s => limit s != 0 && wait s ≥ limit s)
  let pool := cands.filter (0 < credit ·)
  let pool := if pool.isEmpty then cands else pool
  let best := firstBest fillLess (fun s => fillOf (credit s) (d.get (key (0x2909 + s) 1))) pool
  match forced.orElse (fun _ => best) with
  | none => d
  | some s =>
    let d := if forced.isSome then d.inc (key (0x2909 + s) 5) else d
    let len := (head s).len
    let d := d.add (key (0x2909 + s) 4) len
    d.modMem n fun m =>
      { m with queues := m.queues.modify s (fun q => markMem d.now q.tail)
               credit := m.credit.set s (max (-2147483648) (credit s - len)) }

/-- ARBITER_WINDOW (R312). -/
def execArbiterWindow (a : ArbId) (s : State) : Host.Outcome State Fault Refusal :=
  match a with
  | .uplink l => s.onLeaf l Dev.uplinkWindow
  | .mem n => s.onTrunk (·.memWindow n)

/-- DECISION (R314). -/
def execDecision (a : ArbId) (s : State) : Host.Outcome State Fault Refusal :=
  match a with
  | .uplink l => s.onLeaf l (·.decideUplink false)
  | .mem n => s.onTrunk (·.memDecide n)

end Sys2Proof.Machine
end

