-- ==== Sys2Proof/Machine/Sprigs.lean ====
section
/-! DEFINITION. Sprig threads with their registers and exceptions, the Kioft instructions, loads and stores, and the sync unit
(R456 to R466). -/

namespace Sys2Proof.Machine

open Sys2Proof

/-! ### Threads -/

/-- The number of a thread: 1,024 × tile + 16 × sprig + thread (R457, R460). -/
def threadNo (t : ThreadId) : Nat := 1024 * t.tile + 16 * t.sprig + t.thread

/-- Is there such a thread? -/
def threadOk (t : ThreadId) : Bool := t.tile < 64 && t.sprig < 64 && t.thread < 16

/-- A thread's state. -/
def Dev.thread (d : Dev) (t : ThreadId) : Thread := (lookupKey (threadNo t) d.tk.ana.threads).getD {}

/-- A thread's state changed. -/
def Dev.modThread (d : Dev) (t : ThreadId) (f : Thread → Thread) : Dev :=
  d.modAna fun a => { a with threads := insertKey (threadNo t) (f (d.thread t)) a.threads }

/-- Is a governor class held: 3 to 6 with its account at 0 or below (R486), or during a power-fail warning (R644)? -/
def Dev.classHeld (d : Dev) (c : Nat) : Bool := 3 ≤ c && c ≤ 6 && (d.getI (key (0x4010 + c) 4) ≤ 0 || d.pfActive)

/-- A thread issues an instruction (R457): a WAITING or STALLED thread issues none; a thread of a held class is GATED at
its next instruction (R486); another is READY as it issues (log 20). -/
def Dev.issueThread (d : Dev) (t : ThreadId) (f : Dev → Dev) : Dev :=
  let x := d.thread t
  if !threadOk t || d.noAnalysis || x.state = .waiting || x.state = .stalled then d
  else if d.classHeld x.kclass then d.modThread t fun x => { x with state := .gated }
  else f (d.modThread t fun x => { x with state := .ready })

/-- The same for an instruction that may write memory. -/
def Dev.issueMem (d : Dev) (m : Mem) (t : ThreadId) (f : Dev → Dev × Mem) : Dev × Mem :=
  let x := d.thread t
  if !threadOk t || d.noAnalysis || x.state = .waiting || x.state = .stalled then (d, m)
  else if d.classHeld x.kclass then (d.modThread t fun x => { x with state := .gated }, m)
  else f (d.modThread t fun x => { x with state := .ready })

/-! ### Registers -/

/-- An integer register; x0 reads as 0. -/
def Thread.xreg (x : Thread) (n : BitVec 5) : Word := if n = 0 then 0 else x.x[n.toNat]'n.isLt

/-- An integer register written; x0 discards it. -/
def Thread.setX (x : Thread) (n : BitVec 5) (w : Word) : Thread := if n = 0 then x else { x with x := x.x.set n.toNat w n.isLt }

/-- A floating-point register written. -/
def Thread.setF (x : Thread) (n : BitVec 5) (w : Word) : Thread := { x with f := x.f.set n.toNat w n.isLt }

/-- A vector register written. -/
def Thread.setV (x : Thread) (n : BitVec 5) (w : BitVec 512) : Thread := { x with v := x.v.set n.toNat w n.isLt }

/-- The thread goes on to its next instruction, `n` bytes further. -/
def Thread.next (x : Thread) (n : Nat) : Thread := { x with pc := x.pc + BitVec.ofNat 64 n }

/-! ### Exceptions -/

/-- `mstatus` once a trap from a mode has been taken: MPIE (bit 7) takes MIE (bit 3), MIE is 0, and MPP ([12:11]) is the mode
(the RISC-V standard, R456; log 65). -/
def trapStatus (st : Word) (p : Priv) : Word :=
  let n := putBit (putBit st.toNat 7 (st.getLsbD 3)) 3 false
  BitVec.ofNat 64 (putBit (putBit n 11 (p = .machine)) 12 (p = .machine))

/-- A thread takes an exception: the pc and the status are saved, the cause and its value recorded, and the thread goes on in
machine mode at the base of mtvec (the RISC-V standard, R456; log 65). -/
def Thread.takeTrap (x : Thread) (cause about : Nat) : Thread :=
  { x with
    mepc := x.pc, mcause := BitVec.ofNat 64 cause, mtval := Config.trapValue cause about
    mstatus := trapStatus x.mstatus x.priv, priv := .machine, pc := x.mtvec &&& BitVec.ofNat 64 (2 ^ 64 - 4) }

/-- An exception is raised in a thread (R456, R460). -/
def Dev.trap (d : Dev) (t : ThreadId) (cause about : Nat) : Dev := d.modThread t fun x => x.takeTrap cause about

/-- A sprig memory fault (R460): the access-fault exception (5 load, 7 store) and the violation entry. -/
def Dev.sprigFault (d : Dev) (t : ThreadId) (store : Bool) (e : MemErr) (addr : Nat) : Dev :=
  (d.trap t (if store then 7 else 5) addr).violation (threadNo t) 0x04 e.code addr

/-- The accesses of 64 to 512 bytes of a source to `n` bytes of a stack wait at its port (R323, R324). -/
def Dev.queueMem (d : Dev) (stack src n : Nat) : Dev :=
  let rest := n % 512
  let l : List MemXfer := List.replicate (n / 512) { len := 512 } ++ (if rest = 0 then [] else [{ len := max 64 rest }])
  d.modMem stack fun x => { x with queues := x.queues.modify src fun q => markMem d.now (q ++ l) }

/-- Accesses of a source to the `n` bytes at an address, where they lie in a stack. -/
def Dev.useMem (d : Dev) (src a n : Nat) : Dev :=
  let z := d.zone a
  if z < 4 || n = 0 then d else d.queueMem (z - 4) src n

/-- An instruction of four bytes puts its value in rd and is done. -/
def Dev.retire (d : Dev) (t : ThreadId) (rd : BitVec 5) (v : Word) : Dev := d.modThread t fun x => (x.setX rd v).next 4

/-! ### Sync instructions -/

/-- The counter that an address names; a fault where it names none (R460). -/
def syncCounter (addr : Nat) : Option Nat :=
  if syncBase ≤ addr && addr < syncBase + 0x20000 && addr % 8 = 0 then some ((addr - syncBase) / 8) else none

/-- SYNC_ADD (R461, R463, R465). -/
def execSyncAdd (t : ThreadId) (rd rs1 rs2 : BitVec 5) (s : State) : Host.Outcome State Fault Refusal :=
  s.onTrunk fun d => d.issueThread t fun d =>
    let addr := ((d.thread t).xreg rs1).toNat
    match syncCounter addr with
    | none => d.sprigFault t true .misalignedSync addr
    | some c => (d.retire t rd (d.syncAt c)).syncAdd c ((d.thread t).xreg rs2)

/-- SYNC_WAIT (R461, R466): the wait registers; one that is satisfied at once ends at once. -/
def execSyncWait (t : ThreadId) (rd rs1 rs2 : BitVec 5) (s : State) : Host.Outcome State Fault Refusal :=
  s.onTrunk fun d => d.issueThread t fun d =>
    let addr := ((d.thread t).xreg rs1).toNat
    let target := (d.thread t).xreg rs2
    match syncCounter addr with
    | none => d.sprigFault t false .misalignedSync addr
    | some c =>
      let v := d.syncAt c
      if syncReached v target then d.retire t rd v
      else d.modThread t fun x => { x with state := .waiting, wait := some (c, target, d.now, none), waitRd := rd }

/-- SYNC_WAIT_END (R463, R466): a satisfied wait returns the value that satisfied it; one that has reached kwaitlim returns
the counter's value. -/
def execSyncWaitEnd (t : ThreadId) (s : State) : Host.Outcome State Fault Refusal :=
  s.onTrunk fun d =>
    let x := d.thread t
    let end_ (v : Word) : Dev := d.modThread t fun x => ({ x with state := .ready, wait := none }.setX x.waitRd v).next 4
    match x.wait with
    | some (c, _, since, hit) =>
      if !threadOk t || d.noAnalysis || x.state != .waiting then d
      else match hit with
      | some v => end_ v
      | none => if x.kwaitlim != 0 && since + x.kwaitlim.toNat ≤ d.now then end_ (d.syncAt c) else d
    | none => d

/-- SYNC_ADD_CMD (R465): a write of `SyncAdd`. -/
def Dev.syncAddAns (d : Dev) (v : Nat) : Ans := ok (d.syncAdd (d.get 0x4004_01) (BitVec.ofNat 64 v))

/-- SYNC_ADD_CMD (R465). -/
def execSyncAddCmd (e : Env) (value : Word) (s : State) : Host.Outcome State Fault Refusal :=
  s.onTrunk fun d => d.serveWrite e 0x4004 3 value.toNat fun d v _ => d.syncAddAns v

/-! ### The other Kioft instructions -/

/-- FT_READ (R461, R463). -/
def execFtRead (t : ThreadId) (rd : BitVec 5) (s : State) : Host.Outcome State Fault Refusal :=
  s.onTrunk fun d => d.issueThread t fun d => d.retire t rd (BitVec.ofNat 64 d.time.ns)

/-- FT_READF (R461): ns [31:0] and the fraction of one cycle. -/
def execFtReadF (t : ThreadId) (rd : BitVec 5) (s : State) : Host.Outcome State Fault Refusal :=
  s.onTrunk fun d => d.issueThread t fun d =>
    d.retire t rd (BitVec.ofNat 64 (d.time.ns % 2 ^ 32 * 2 ^ 32 + d.time.frac % 2 ^ 32))

/-- An access of a thread checked (R459, R460): its own tile's memory ends where the addresses of that region end. -/
def Dev.checkSprig (d : Dev) (t : ThreadId) (a n : Nat) : Option MemErr :=
  if a < tileBytes && tileBytes < a + n then some .unmapped
  else d.checkRange (d.thread t).kpart (ownTile t.tile a) n

/-- A frame's section headers searched from an address (R463): the address of the first of a type, 0 where the frame holds
none, all ones where it is malformed or holds more than its count; a failed read with its address. -/
def Dev.findSection (d : Dev) (m : Mem) (t : ThreadId) (kind end_ : Nat) : (left a : Nat) → Except (MemErr × Nat) Word
  | 0, a => .ok (if a < end_ then BitVec.allOnes 64 else 0)
  | left + 1, a =>
    if a + 8 > end_ then .ok (BitVec.allOnes 64)
    else match d.checkSprig t a 8 with
    | some e => .error (e, a)
    | none =>
      let h := d.load_ m (ownTile t.tile a) 8
      let next := a + 8 + natAt h 4 4
      if next > end_ then .ok (BitVec.allOnes 64)
      else if natAt h 0 1 = kind then .ok (BitVec.ofNat 64 a)
      else d.findSection m t kind end_ left next

/-- FRAME.LOC of the frame at an address of a thread (R259, R260, R463). -/
def Dev.frameLoc (d : Dev) (m : Mem) (t : ThreadId) (a kind : Nat) : Except (MemErr × Nat) Word :=
  match d.checkSprig t a 40 with
  | some e => .error (e, a)
  | none =>
    let h := d.load_ m (ownTile t.tile a) 40
    if natAt h 0 1 != 1 || natAt h 28 4 < 40 then .ok (BitVec.allOnes 64)
    else d.findSection m t kind (a + natAt h 28 4) (natAt h 33 1) (a + 40)

/-- FRAME_LOC (R461, R463). -/
def execFrameLoc (t : ThreadId) (rd rs1 rs2 : BitVec 5) (s : State) : Host.Outcome State Fault Refusal :=
  s.onTrunk fun d => d.issueThread t fun d =>
    match d.frameLoc s.mem t ((d.thread t).xreg rs1).toNat ((d.thread t).xreg rs2).toNat with
    | .ok v => d.retire t rd v
    | .error (e, a) => d.sprigFault t false e a

/-- Is a word one of the Kioft instructions (R461, R462)? -/
def isKioft (w : Nat) : Bool :=
  let f7 := field w 31 25
  let f3 := field w 14 12
  w % 128 = 0x0B &&
  ((f7 = 0 && (f3 = 0 || f3 = 1 || f3 = 3)) || (f3 = 2 && f7 ≤ 1 && field w 24 15 = 0))

/-- ILLEGAL_INSTRUCTION (R456, R462): the illegal-instruction exception, RISC-V cause 2. -/
def execIllegalInstruction (t : ThreadId) (word : BitVec 32) (s : State) : Host.Outcome State Fault Refusal :=
  s.onTrunk fun d => if isKioft word.toNat then d else d.issueThread t fun d => d.trap t 2 word.toNat

/-- The address of an access. -/
def Thread.addrOf (x : Thread) (a : SprigAccess) : Nat := (x.xreg a.base + a.offset).toNat

/-- The bytes that a store of a register stores. -/
def Thread.stored (x : Thread) (a : SprigAccess) : Bytes :=
  match a.reg with
  | .x n => leBytes a.size (x.xreg n).toNat
  | .f n => leBytes a.size (x.f[n.toNat]'n.isLt).toNat
  | .v n pos => bytesAt (leBytes 64 (x.v[n.toNat]'n.isLt).toNat) pos a.size

/-- A register takes the bytes of a load: an integer register sign- or zero-extended, a floating-point register of 4 bytes
with ones above them (the RISC-V standard's NaN boxing), a vector register at its bytes from `pos` on. -/
def Thread.loaded (x : Thread) (a : SprigAccess) (bs : Bytes) : Thread :=
  match a.reg with
  | .x n => x.setX n (if a.signed then BitVec.ofInt 64 (toSigned (8 * a.size) (leNat bs)) else BitVec.ofNat 64 (leNat bs))
  | .f n => x.setF n (BitVec.ofNat 64 (leNat bs + (if a.size = 4 then 0xFFFFFFFF00000000 else 0)))
  | .v n pos => x.setV n (BitVec.ofNat 512 (leNat (patch (leBytes 64 (x.v[n.toNat]'n.isLt).toNat) pos bs)))

/-- SPRIG_LOAD_STORE (R459, R460): a load fills its register, a store writes its bytes. -/
def execSprigLoadStore (t : ThreadId) (a : SprigAccess) (s : State) : Host.Outcome State Fault Refusal :=
  s.onMem fun d m => d.issueMem m t fun d =>
    let x := d.thread t
    let addr := x.addrOf a
    let p := ownTile t.tile addr
    match d.checkSprig t addr a.size with
    | some e => (d.sprigFault t a.store e addr, m)
    | none =>
      if a.store && d.zone p = 3 then (d.sprigFault t true .writeProtected addr, m)
      else if a.ecc then (d.sprigFault t a.store .uncorrectable addr, m)
      else if a.store then ((d.useMem 6 p a.size).modThread t fun x => x.next a.advance, m.write p (x.stored a))
      else
        let bs := d.load_ m p a.size
        ((d.useMem 6 p a.size).modThread t fun x => (x.loaded a bs).next a.advance, m)

/-- KCLASS_WRITE (R458): 0 and values above 6 leave it unchanged. kclass belongs to machine mode; in user mode the instruction
is illegal. -/
def execKclassWrite (t : ThreadId) (rd : BitVec 5) (value : Word) (s : State) : Host.Outcome State Fault Refusal :=
  s.onTrunk fun d => d.issueThread t fun d =>
    let x := d.thread t
    if x.priv = .user then d.trap t 2 0x7C1
    else
      let d := d.retire t rd (BitVec.ofNat 64 x.kclass)
      if 1 ≤ value.toNat && value.toNat ≤ 6 then d.modThread t fun x => { x with kclass := value.toNat } else d

end Sys2Proof.Machine
end

