-- ==== Sys2Proof/Machine/Pool.lean ====
section
/-! DEFINITION. The memory pool (R476 to R478) and leases (R479 to R482). -/

namespace Sys2Proof.Machine

open Sys2Proof

/-! ### Pages -/

/-- Is the fabric in HOST mode (R490)? -/
def Dev.fabricHost (d : Dev) : Bool := d.get 0x4000_00 = 1

/-- The local pages of a class. -/
def Dev.usedPages (d : Dev) (c : Nat) : Nat :=
  ((d.tk.ana.runs.filter fun r => r.cls = c && r.lease.isNone).map (·.pages)).sum

/-- A percentage of the local pool pages (R476). -/
def Dev.pagesPct (d : Dev) (pct : Nat) : Nat := pct * d.get 0x4020_01 / 100

/-- The reserve of a class. -/
def Dev.reserveOf (d : Dev) (c : Nat) : Nat := d.pagesPct (d.get (key (0x4020 + c) 1))

/-- The quota of a class. -/
def Dev.quotaOf (d : Dev) (c : Nat) : Nat := d.pagesPct (d.get (key (0x4020 + c) 2))

/-- The pool's gauges follow its runs. -/
def Dev.refreshPool (d : Dev) : Dev :=
  let rs := d.tk.ana.runs
  let loc := ((rs.filter (·.lease.isNone)).map (·.pages)).sum
  let d := d.set 0x4020_02 (d.get 0x4020_01 - loc)
  (List.range 6).foldl (fun (d : Dev) c =>
    let mine := rs.filter (·.cls = c + 1)
    (d.set (key (0x4021 + c) 3) (mine.map (·.pages)).sum).set (key (0x4021 + c) 4) mine.length) d

/-- A range of addresses taken out of a list of ranges (base and pages). -/
def cutRange (base pages : Nat) (l : List (Nat × Nat)) : List (Nat × Nat) :=
  l.flatMap fun x =>
    let e := base + pages * pageBytes
    let xe := x.1 + x.2 * pageBytes
    if e ≤ x.1 || xe ≤ base then [x]
    else (if x.1 < base then [(x.1, (base - x.1) / pageBytes)] else []) ++ (if e < xe then [(e, (xe - e) / pageBytes)] else [])

/-- The free ranges of a place, given the runs in it. -/
def freeRanges (place : Nat × Nat) (rs : List PoolRun) : List (Nat × Nat) :=
  rs.foldl (fun l r => cutRange r.base r.pages l) [place]

/-- A place of the pool: pages of a lease, or local ones. -/
structure Place where
  lease : Option Nat
  base  : Nat
  pages : Nat

/-- The free ranges among which a POOL_ALLOC of a class may choose (R475): 0 ANY, 1 SHARED, 2 STACK, 3 REMOTE; only
HISTORY may hold REMOTE pages. -/
def Dev.freePlaces (d : Dev) (c where_ : Nat) : List Place :=
  let loc := match where_ with
    | 0 => d.poolPlaces
    | 1 => d.poolPlaces.take 1
    | 2 => d.poolPlaces.drop 1
    | _ => []
  let rem := if c = 1 && (where_ = 0 || where_ = 3) then d.tk.ana.leases.filter (!·.lending) else []
  loc.flatMap (fun p => (freeRanges p (d.tk.ana.runs.filter (·.lease.isNone))).map fun x => ⟨none, x.1, x.2⟩) ++
  rem.flatMap (fun l => (freeRanges (0, 512 * l.units) (d.tk.ana.runs.filter (·.lease = some l.id))).map
    fun x => ⟨some l.id, x.1, x.2⟩)

/-- The `k`-th start of a run of `n` pages in the ranges. -/
def nthStart (n : Nat) : (k : Nat) → List Place → Option Place
  | _, [] => none
  | k, p :: ps =>
    let c := p.pages + 1 - n
    if k < c then some ⟨p.lease, p.base + k * pageBytes, n⟩ else nthStart n (k - c) ps

/-- A place for a run of `n` pages, if one fits. -/
def Dev.pickPlace (d : Dev) (c where_ n : Nat) : Option Place :=
  let l := (d.freePlaces c where_).filter (n ≤ ·.pages)
  let starts := (l.map fun p => p.pages + 1 - n).sum
  nthStart n (Config.poolPick d.tk.ana.serial % max 1 starts) l

/-- The addresses that a descriptor names: its result block and the 8-byte fields of its operation. -/
def descAddrs (bytes : Bytes) : List Nat := (List.range 7).map fun i => natAt bytes (8 + 8 * i) 8

/-- Does a descriptor that has begun and not ended name an address in a run (R477)? -/
def Dev.busyRun (d : Dev) (r : PoolRun) : Bool :=
  d.tk.ana.rings.any fun g => g.taken.any fun x =>
    x.begun && x.result.isNone &&
    (descAddrs x.bytes).any fun a => r.base ≤ a && a < r.base + r.pages * pageBytes

/-- The handles of a class that may be evicted, oldest first; ties by address (R477). -/
def Dev.candidates (d : Dev) (c : Nat) : List PoolRun :=
  if c = 1 || c = 2 || c = 5 then
    sortBy (fun a b => a.age < b.age || (a.age = b.age && a.base ≤ b.base))
      (d.tk.ana.runs.filter fun r => r.cls = c && !d.busyRun r)
  else []

/-- An entry is appended to EvictLog, which holds 4,096 (R478). -/
def Dev.logEvict (d : Dev) (r : PoolRun) : Dev :=
  let log := d.blob 0x4020_05 ++ leBytes 4 r.handle ++ leBytes 1 r.cls ++ zeros 3 ++ leBytes 8 d.now
  d.setBlob 0x4020_05 (log.drop (log.length - 65536))

/-- Staged captures are discarded and counted (R554, R560, R566). -/
def Dev.skipCaps (d : Dev) (p : StagedSt → Bool) : Dev :=
  let gone := (d.tk.rec_.caps.filter p).length
  let d := { d with tk := { d.tk with rec_ := { d.tk.rec_ with caps := d.tk.rec_.caps.filter fun x => !p x } } }
  (d.add 0x4304_0B gone).flagIf (gone != 0) 0x4302 4

/-- A handle is evicted (R478), with the staged capture it holds (R566). -/
def Dev.evict (d : Dev) (r : PoolRun) : Dev :=
  let d := d.skipCaps (·.handle = r.handle)
  let d := d.modAna fun a => { a with
    runs := a.runs.filter (·.handle != r.handle)
    evicted := if r.lease.isNone then (r.base, r.pages) :: a.evicted else a.evicted }
  let d := ((d.logEvict r).syncAdd (d.get 0x4020_04) 1).inc 0x4020_06
  (d.flag 0x4002 3).refreshPool

/-- Handles of a class are evicted until `n` more pages keep its quota (R477). -/
def Dev.keepQuota (c n : Nat) : (fuel : Nat) → Dev → Dev
  | 0, d => d
  | fuel + 1, d =>
    if d.usedPages c + n ≤ d.quotaOf c then d
    else match (d.candidates c).filter (·.lease.isNone) with
    | r :: _ => Dev.keepQuota c n fuel (d.evict r)
    | [] => d

/-- The handle that gives way to a run of class `c` (R477): the oldest candidate of the classes above their reserve; an
allocation of RECORDER or MODELS takes no other class below its reserve. -/
def Dev.victim (d : Dev) (c : Nat) : Option PoolRun :=
  let may (k : Nat) (r : PoolRun) : Bool :=
    k = c || (d.usedPages k > d.reserveOf k && (!(c = 3 || c = 4) || d.usedPages k ≥ d.reserveOf k + r.pages))
  let l := [1, 2, 5].flatMap fun k => (d.candidates k).filter (may k)
  firstBest (fun (a b : Nat × Nat × Nat) =>
    b.1 < a.1 || (b.1 = a.1 && (b.2.1 < a.2.1 || (b.2.1 = a.2.1 && b.2.2 < a.2.2)))) (fun r => (r.age, r.cls, r.base)) l

/-- Room is made for a run (R477). -/
def Dev.makePlace (c where_ n : Nat) : (fuel : Nat) → Dev → Dev
  | 0, d => d
  | fuel + 1, d =>
    if (d.pickPlace c where_ n).isSome then d
    else match d.victim c with
    | some r => Dev.makePlace c where_ n fuel (d.evict r)
    | none => d

/-- The first number from `h` on that is no handle of a run. -/
def freshHandle (rs : List PoolRun) : (fuel h : Nat) → Nat
  | 0, h => h
  | fuel + 1, h => if rs.any (·.handle = h) then freshHandle rs fuel ((h + 1) % 2 ^ 32) else h

/-- A run enters the pool at a place. -/
def Dev.addRun (d : Dev) (c part : Nat) (p : Place) : PoolRun × Dev :=
  let a := d.tk.ana
  let h := freshHandle a.runs (a.runs.length + 1) (Config.poolHandle a.serial).toNat
  let r : PoolRun := { handle := h, cls := c, part := part, base := p.base, pages := p.pages, age := d.now, lease := p.lease }
  let d := d.modAna fun a => { a with
    runs := a.runs ++ [r], serial := a.serial + 1
    evicted := if p.lease.isNone then cutRange p.base p.pages a.evicted else a.evicted }
  (r, d.refreshPool)

/-- An allocation fails (0x4020 + c, sub 05). -/
def Dev.poolFail (d : Dev) (c : Nat) : Dev := d.inc (key (0x4020 + c) 5)

/-- An allocation of `n` pages in class `c` (R477): the run, or the status QUOTA (2) or NO_MEMORY (1). -/
def Dev.poolAlloc (d : Dev) (c where_ n part : Nat) : Except Nat PoolRun × Dev :=
  let host := d.fabricHost
  let fuel := d.tk.ana.runs.length + 1
  let d := if host then d else Dev.keepQuota c n fuel d
  if d.usedPages c + n > d.quotaOf c then (.error 2, d.poolFail c)
  else
    let d := if host then d else Dev.makePlace c where_ n fuel d
    match d.pickPlace c where_ n with
    | none => (.error 1, d.poolFail c)
    | some p => let (r, d) := d.addRun c part p; (.ok r, d)

/-- A handle's run is freed. -/
def Dev.freeRun (d : Dev) (h : Nat) : Dev :=
  (d.modAna fun a => { a with runs := a.runs.filter (·.handle != h) }).refreshPool

/-- A handle moves to a class and its age is reset (R475, R476): the class's quota holds. -/
def Dev.poolRetag (d : Dev) (r : PoolRun) (c : Nat) : Nat × Dev :=
  let d := if d.fabricHost || r.cls = c then d else Dev.keepQuota c r.pages (d.tk.ana.runs.length + 1) d
  if r.cls != c && d.usedPages c + r.pages > d.quotaOf c then (2, d.poolFail c)
  else
    (0, (d.modAna fun a => { a with
      runs := a.runs.map fun x => if x.handle = r.handle then { x with cls := c, age := d.now } else x }).refreshPool)

/-! ### Leases -/

/-- The bytes 2 to 31 of a LEASE message that describe a lease (R479). -/
def Dev.leaseEntry (d : Dev) (l : Lease) : Bytes :=
  let own := d.get 0x3100_01
  leBytes 2 l.units ++ leBytes 4 l.id ++ leBytes 2 (if l.lending then own else l.peer) ++
  leBytes 2 (if l.lending then l.peer else own) ++ zeros 4 ++ leBytes 8 l.expires ++ leBytes 8 l.recallAt

/-- LeaseTable and the gauges of leases follow the leases held. -/
def Dev.refreshLeases (d : Dev) : Dev :=
  let ls := d.tk.ana.leases
  let sum (p : Lease → Bool) : Nat := ((ls.filter p).map (·.units)).sum
  let d := (d.set 0x4030_06 (sum (·.lending))).set 0x4030_07 (sum (!·.lending))
  let d := d.set 0x4020_03 (512 * sum (!·.lending))
  d.setBlob 0x4030_0B ((ls.take 64).flatMap d.leaseEntry)

/-- The leases changed. -/
def Dev.setLeases (d : Dev) (l : List Lease) : Dev := (d.modAna fun a => { a with leases := l }).refreshLeases

/-- A lease at this trunk's end. -/
def Dev.lease (d : Dev) (id : Nat) (lending : Bool) : Option Lease :=
  d.tk.ana.leases.find? fun l => l.id = id && l.lending = lending

/-- One lease changed. -/
def Dev.modLease (d : Dev) (id : Nat) (lending : Bool) (f : Lease → Lease) : Dev :=
  d.setLeases (d.tk.ana.leases.map fun l => if l.id = id && l.lending = lending then f l else l)

/-- The 40 bytes of a LEASE message (R479). -/
def leaseBytes (op : Nat) (m : LeaseMsg) : Bytes :=
  leBytes 1 op ++ leBytes 1 m.reason ++ leBytes 2 m.units ++ leBytes 4 m.leaseId ++ leBytes 2 m.lender ++
  leBytes 2 m.borrower ++ zeros 4 ++ leBytes 8 m.expires ++ leBytes 8 m.recallAt ++ leBytes 8 m.duration

/-- A LEASE message goes to another trunk (Pleach Type 0x0A, class 2, Partition 0). -/
def Dev.sendLease (d : Dev) (dest op : Nat) (m : LeaseMsg) : Dev :=
  d.sendFree { kind := 0x0A, cls := 2, dest := dest, source := d.get 0x3100_01, payload := leaseBytes op m }

/-- The message that describes a lease. -/
def Dev.leaseMsg (d : Dev) (l : Lease) : LeaseMsg :=
  let own := d.get 0x3100_01
  { units := l.units, leaseId := l.id, lender := if l.lending then own else l.peer
    borrower := if l.lending then l.peer else own, expires := l.expires }

/-- A lender answers, and remembers what it has answered (R481). -/
def Dev.answerLease (d : Dev) (m : LeaseMsg) (op : Nat) (r : LeaseMsg) : Dev :=
  let d := d.modLease m.leaseId true fun l => { l with asked := some m, answer := some { r with reason := 256 * op + r.reason } }
  d.sendLease m.borrower op { r with reason := r.reason % 256 }

/-- A lender repeats its previous answer (R481). -/
def Dev.repeatAnswer (d : Dev) (m : LeaseMsg) : Option Dev :=
  match d.lease m.leaseId true with
  | some l => if l.asked = some m then
      l.answer.map fun r => d.sendLease m.borrower (r.reason / 256) { r with reason := r.reason % 256 }
    else none
  | none => none

/-- The hops to another trunk by dimension order (R402, R480). -/
def Dev.hopsTo (d : Dev) (t : Nat) : Nat :=
  let own := d.get 0x3100_01
  ((List.range 3).map fun k =>
    let n := d.torusSize k
    let diff := (coord t k % n + n - coord own k % n) % n
    min diff (n - diff)).sum

/-- Whole ranges of `n` pages taken from free ranges, first to last. -/
def takePages : (n : Nat) → List (Nat × Nat) → List (Nat × Nat)
  | _, [] => []
  | n, x :: xs => if n = 0 then [] else if x.2 = 0 then takePages n xs
    else (x.1, min n x.2) :: takePages (n - min n x.2) xs

/-- Pages of the memory stacks enter class LENT (R480). -/
def Dev.lendPages (d : Dev) (n : Nat) : List (Nat × Nat) × Dev :=
  let free := ((d.poolPlaces.drop 1).flatMap fun p => freeRanges p (d.tk.ana.runs.filter (·.lease.isNone)))
  let l := takePages n free
  (l, l.foldl (fun (d : Dev) x => (d.addRun 6 0 ⟨none, x.1, x.2⟩).2) d)

/-- Why a REQUEST is denied (R480); none where it is granted. -/
def Dev.denyReason (d : Dev) (m : LeaseMsg) : Option Nat :=
  let n := 512 * m.units
  let stackFree := (((d.poolPlaces.drop 1).flatMap fun p =>
    freeRanges p (d.tk.ana.runs.filter (·.lease.isNone))).map (·.2)).sum
  if d.fabricHost then some 3
  else if !d.on 0x4030_01 then some ((Config.unstated 0x4030_01 d.now).toNat % 256)
  else if d.hopsTo m.borrower > d.get 0x4030_03 then some 2
  else if d.get 0x4020_02 < d.get 0x4030_02 + n || stackFree < n then some 1
  else if d.usedPages 6 + n > d.quotaOf 6 || m.units = 0 || m.units > 64 then some 5
  else none

/-- The reason of a DENY that a lender has answered to the same REQUEST, a borrower's newest (R481). -/
def Dev.denied (d : Dev) (m : LeaseMsg) : Option Nat :=
  (d.tk.ana.denied.find? fun (x : LeaseMsg × Nat) => x.1 = m).map (·.2)

/-- LEASE_REQUEST (R480, R481): at the lender. -/
def execLeaseRequest (m : LeaseMsg) (s : State) : Host.Outcome State Fault Refusal :=
  s.onTrunk fun d =>
    match d.repeatAnswer m with
    | some d => d
    | none =>
      match (d.denied m).orElse fun _ => d.denyReason m with
      | some r =>
        let d := d.modAna fun a => { a with
          denied := a.denied.filter (fun (x : LeaseMsg × Nat) => x.1.borrower != m.borrower) ++ [(m, r)] }
        d.sendLease m.borrower 3 { m with reason := r }
      | none =>
        let (pages, d) := d.lendPages (512 * m.units)
        let l : Lease := { id := m.leaseId, lending := true, units := m.units, peer := m.borrower
                           expires := d.now + min m.duration (d.get 0x4030_04), duration := m.duration, pages := pages }
        let d := d.setLeases (d.tk.ana.leases.filter (fun x => !(x.id = m.leaseId && x.lending)) ++ [l])
        d.answerLease m 2 { d.leaseMsg l with duration := m.duration }

/-- LEASE_GRANT (R480, R481): at the borrower, for a new lease or a renewed one. -/
def execLeaseGrant (m : LeaseMsg) (s : State) : Host.Outcome State Fault Refusal :=
  s.onTrunk fun d =>
    if m.leaseId / 2 ^ 20 != d.get 0x3100_01 || m.units = 0 || m.units > 64 then d
    else match d.lease m.leaseId false with
    | some _ => d.modLease m.leaseId false fun l => { l with expires := m.expires, sentAt := none, askedAt := none }
    | none => d.setLeases (d.tk.ana.leases ++ [{ id := m.leaseId, lending := false, units := m.units, peer := m.lender
                                                 expires := m.expires, duration := m.duration }])

/-- LEASE_DENY (R480): at the borrower: the REQUEST or RENEW has its answer. -/
def execLeaseDeny (m : LeaseMsg) (s : State) : Host.Outcome State Fault Refusal :=
  s.onTrunk fun d => d.modLease m.leaseId false fun l => { l with sentAt := none, askedAt := none }

/-- A lender recalls a lease (R482). -/
def Dev.recall (d : Dev) (l : Lease) : Dev :=
  let t := d.now + 10000000
  let d := (d.modLease l.id true fun l => { l with recallAt := t }).inc 0x4030_08
  d.sendLease l.peer 5 { d.leaseMsg l with recallAt := t }

/-- LEASE_RENEW (R481): at the lender. -/
def execLeaseRenew (m : LeaseMsg) (s : State) : Host.Outcome State Fault Refusal :=
  s.onTrunk fun d =>
    match d.repeatAnswer m with
    | some d => d
    | none =>
      match d.lease m.leaseId true with
      | none => d.sendLease m.borrower 3 { m with reason := 4 }
      | some l =>
        if l.recallAt != 0 || (!d.fabricHost && d.get 0x4020_02 < d.get 0x4030_02) then d.recall l
        else
          let t := d.now + min m.duration (d.get 0x4030_04)
          let d := d.modLease m.leaseId true fun l => { l with expires := t }
          d.answerLease m 2 { d.leaseMsg { l with expires := t } with duration := m.duration }

/-- LEASE_RECALL (R482): at the borrower. -/
def execLeaseRecall (m : LeaseMsg) (s : State) : Host.Outcome State Fault Refusal :=
  s.onTrunk fun d => d.modLease m.leaseId false fun l =>
    { l with recallAt := m.recallAt, sentAt := none, askedAt := none }

/-- A lender frees the pages of a lease (R482). -/
def Dev.endLent (d : Dev) (l : Lease) : Dev :=
  let d := d.modAna fun a => { a with runs := a.runs.filter fun r => !(r.cls = 6 && l.pages.contains (r.base, r.pages)) }
  (d.setLeases (d.tk.ana.leases.filter fun x => !(x.id = l.id && x.lending))).refreshPool

/-- LEASE_RELEASE (R482): at the lender. -/
def execLeaseRelease (m : LeaseMsg) (s : State) : Host.Outcome State Fault Refusal :=
  s.onTrunk fun d =>
    match d.lease m.leaseId true with
    | some l => (d.endLent l).sendLease m.borrower 7 (d.leaseMsg l)
    | none => d.sendLease m.borrower 7 m

/-- The LEASE_READs of a lease complete with LEASE_LOST (R482). -/
def Dev.loseReads (d : Dev) (id : Nat) : Dev :=
  let mine := d.tk.ana.reads.filter (·.lease = id)
  let lost (r : Nat) (x : DescSt) : DescSt :=
    if x.result.isNone && mine.any (fun q => q.ring = r && q.idx = x.idx) then { x with result := some (leBytes 16 4) } else x
  d.modAna fun a => { a with
    reads := a.reads.filter (·.lease != id)
    rings := a.rings.zipIdx.map fun (g, r) => { g with taken := g.taken.map (lost r) } }

/-- A borrower's lease ends: every handle in its pages is evicted (R478, R482). -/
def Dev.endBorrowed (d : Dev) (id : Nat) : Dev :=
  let d := (d.tk.ana.runs.filter (·.lease = some id)).foldl Dev.evict d
  (d.loseReads id).setLeases (d.tk.ana.leases.filter fun x => !(x.id = id && !x.lending))

/-- A borrower treats a lease as LOST (R482). -/
def Dev.loseLease (d : Dev) (id : Nat) : Dev :=
  if (d.lease id false).isSome then ((d.endBorrowed id).inc 0x4030_09).flag 0x4002 4 else d

/-- LEASE_RELEASED (R479): at the borrower: the pages are gone. -/
def execLeaseReleased (m : LeaseMsg) (s : State) : Host.Outcome State Fault Refusal :=
  s.onTrunk fun d => if (d.lease m.leaseId false).isSome then d.endBorrowed m.leaseId else d

/-- RENEW_LEAD (R481): at the borrower. -/
def execRenewLead (leaseId : Nat) (s : State) : Host.Outcome State Fault Refusal :=
  s.onTrunk fun d =>
    match d.lease leaseId false with
    | some l =>
      if l.sentAt.isSome || l.recallAt != 0 || d.now + d.get 0x4030_05 < l.expires then d
      else
        let d := d.modLease leaseId false fun l => { l with sentAt := some d.now, askedAt := some d.now }
        d.sendLease l.peer 4 { d.leaseMsg l with duration := l.duration }
    | none => d

/-- LEASE_RESEND (R481): 100 µs without an answer. -/
def execLeaseResend (leaseId : Nat) (s : State) : Host.Outcome State Fault Refusal :=
  s.onTrunk fun d =>
    match d.lease leaseId false with
    | some l =>
      if !l.sentAt.any (· + 100000 ≤ d.now) then d
      else
        let d := d.modLease leaseId false fun l => { l with sentAt := some d.now }
        d.sendLease l.peer 4 { d.leaseMsg l with duration := l.duration }
    | none => d

/-- RENEW_UNANSWERED (R482): 1 ms without an answer. -/
def execRenewUnanswered (leaseId : Nat) (s : State) : Host.Outcome State Fault Refusal :=
  s.onTrunk fun d =>
    if (d.lease leaseId false).any (fun l => l.askedAt.any (· + 1000000 ≤ d.now)) then d.loseLease leaseId else d

/-- RECALL_AT (R482): at the lender. -/
def execRecallAt (leaseId : Nat) (s : State) : Host.Outcome State Fault Refusal :=
  s.onTrunk fun d =>
    match d.lease leaseId true with
    | some l => if l.recallAt != 0 && l.recallAt ≤ d.now then d.endLent l else d
    | none => d

/-- LEASE_EXPIRES (R482): at both ends. -/
def execLeaseExpires (leaseId : Nat) (s : State) : Host.Outcome State Fault Refusal :=
  s.onTrunk fun d =>
    let d := match d.lease leaseId true with
      | some l => if l.expires ≤ d.now then d.endLent l else d
      | none => d
    if (d.lease leaseId false).any (·.expires ≤ d.now) then d.loseLease leaseId else d

/-- The write of `LeaseRecall`. -/
def Dev.leaseRecallAns (d : Dev) (v : Nat) : Ans :=
  match d.lease v true with
  | some l => ok (d.recall l)
  | none => fail d .state

/-- LEASE_RECALL_CMD (R482). -/
def execLeaseRecallCmd (e : Env) (leaseId : Nat) (s : State) : Host.Outcome State Fault Refusal :=
  s.onTrunk fun d => d.serveWrite e 0x4030 0xA leaseId fun d v _ => d.leaseRecallAns v

/-- A lender recalls its oldest lease not yet recalled while its free local pages, those under recall counted, are below
`LendFloor` (R482). -/
def Dev.recallLow (d : Dev) : Dev :=
  let coming := ((d.tk.ana.leases.filter fun l => l.lending && l.recallAt != 0).map fun l => 512 * l.units).sum
  if d.fabricHost || d.get 0x4020_02 + coming ≥ d.get 0x4030_02 then d
  else match d.tk.ana.leases.find? fun l => l.lending && l.recallAt = 0 with
  | some l => d.recall l
  | none => d

/-! ### LEASE_DATA (R479, R482) -/

/-- A LEASE_DATA message goes to another trunk (Type 0x0B, class 7, in the data's partition). At step 1 of a ladder the trunk
originates no traffic of that class (R275): the message is kept until the step is 0. -/
def Dev.sendLeaseData (d : Dev) (dest op part id offset length tag : Nat) (data : Bytes) : Dev :=
  let x : PMsg := { kind := 0x0B, cls := 7, dest := dest, source := d.get 0x3100_01, partition := part
                    payload := leBytes 1 op ++ zeros 3 ++ leBytes 4 id ++ leBytes 8 offset ++ leBytes 4 length ++
                      leBytes 4 tag ++ data }
  if d.trunkStep ≥ 1 then d.modAna fun a => { a with kept := a.kept ++ [x] } else d.originate x

/-- At step 0 the kept messages go out (R275). -/
def Dev.sendKept (d : Dev) : Dev :=
  if d.trunkStep ≥ 1 || d.tk.ana.kept.isEmpty then d
  else d.tk.ana.kept.foldl (fun (d : Dev) x => d.originate x) (d.modAna fun a => { a with kept := [] })

/-- The physical address of a byte of a lease at the lender. -/
def leaseAddr : List (Nat × Nat) → Nat → Nat
  | [], o => o
  | (b, n) :: l, o => if o < n * pageBytes then b + o else leaseAddr l (o - n * pageBytes)

/-- Does an access lie within a lease? -/
def Lease.covers (l : Lease) (offset length : Nat) : Bool := offset + length ≤ l.units * 2 ^ 30 && length ≤ 1048576

/-- The bytes of a lease are written at the lender. -/
def writeLease (m : Mem) (pages : List (Nat × Nat)) (o : Nat) : Bytes → Mem
  | [] => m
  | b :: bs => writeLease (m.put (leaseAddr pages o) b) pages (o + 1) bs

/-- LEASE_DATA_WRITE (R479, R482): at the lender. -/
def execLeaseDataWrite (m : LeaseData) (s : State) : Host.Outcome State Fault Refusal :=
  s.onMem fun d mem =>
    match d.lease m.leaseId true with
    | some l =>
      if l.covers m.offset m.data.length then (d, writeLease mem l.pages m.offset m.data)
      else (d.sendLeaseData m.sender 4 m.partition m.leaseId m.offset m.length m.tag [], mem)
    | none => (d.sendLeaseData m.sender 4 m.partition m.leaseId m.offset m.length m.tag [], mem)

/-- LEASE_DATA_READ_REQ (R479, R482): at the lender. -/
def execLeaseDataReadReq (m : LeaseData) (s : State) : Host.Outcome State Fault Refusal :=
  s.onTrunk fun d =>
    match d.lease m.leaseId true with
    | some l =>
      if l.covers m.offset m.length then
        let bs := (List.range m.length).map fun i => d.loadByte s.mem (leaseAddr l.pages (m.offset + i))
        d.sendLeaseData m.sender 3 m.partition m.leaseId m.offset m.length m.tag bs
      else d.sendLeaseData m.sender 4 m.partition m.leaseId m.offset m.length m.tag []
    | none => d.sendLeaseData m.sender 4 m.partition m.leaseId m.offset m.length m.tag []

/-- LEASE_DATA_READ_DATA (R479): at the borrower: the bytes go where their LEASE_READ asks; the descriptor has its result
when all have come. -/
def execLeaseDataReadData (m : LeaseData) (s : State) : Host.Outcome State Fault Refusal :=
  s.onMem fun d mem =>
    match d.tk.ana.reads.find? fun q => q.tag = m.tag && q.lease = m.leaseId with
    | none => (d, mem)
    | some q =>
      let rest := d.tk.ana.reads.erase q
      let whole := !rest.any fun x => x.ring = q.ring && x.idx = q.idx
      let done (x : DescSt) : DescSt :=
        if x.idx = q.idx && x.result.isNone && whole then { x with result := some (zeros 16) } else x
      let d := d.modAna fun a => { a with
        reads := rest, rings := a.rings.modify q.ring fun g => { g with taken := g.taken.map done } }
      (d, mem.write q.dst (bytesAt m.data 0 q.len))

/-- LEASE_DATA_ERROR (R482): at the borrower. -/
def execLeaseDataError (m : LeaseData) (s : State) : Host.Outcome State Fault Refusal :=
  s.onTrunk fun d => d.loseLease m.leaseId

end Sys2Proof.Machine
end

