-- ==== Sys2Proof/Machine/Rings.lean ====
section
/-! DEFINITION. Descriptor rings (R467 to R473), the Movers (R475), the codec engines (R300 to R307) and the Sketch
engines (R499). -/

namespace Sys2Proof.Machine

open Sys2Proof

/-! ### Rings -/

/-- An object of ring `r`. -/
def ringKey (r sub : Nat) : Nat := key (0x4040 + r) sub

/-- A ring's internal state. -/
def Dev.ring (d : Dev) (r : Nat) : RingSt := (d.tk.ana.rings[r]?).getD {}

/-- A ring's internal state changed. -/
def Dev.modRing (d : Dev) (r : Nat) (f : RingSt → RingSt) : Dev :=
  d.modAna fun a => { a with rings := a.rings.modify r f }

/-- The produce counter P of a ring. -/
def Dev.ringP (d : Dev) (r : Nat) : Nat := (d.syncAt (d.get (ringKey r 4))).toNat

/-- The complete counter D of a ring. -/
def Dev.ringD (d : Dev) (r : Nat) : Nat := (d.syncAt (d.get (ringKey r 5))).toNat

/-- The operations that an engine knows (R300, R475, R499, R523, R590, R592); none for Straggler and Drift (R499). -/
def opsOf : Nat → List Nat
  | 3 => [2] | 4 => [1] | 5 => [1, 2, 3, 4] | 8 => [1, 2, 3] | 9 => [1, 2, 3] | 10 => [1, 2, 3, 4, 5, 6, 7, 8, 9] | _ => []

/-- Is a descriptor malformed by its own fields (R472)? -/
def malformedDesc (engine : Nat) (b : Bytes) : Bool :=
  natAt b 0 1 != 1 || natAt b 1 1 > 1 || natAt b 2 1 = 0 || natAt b 2 1 > 6 || natAt b 4 4 != 0 ||
  !(opsOf engine).contains (natAt b 16 1)

/-- A 16-byte result block: status, two U32 and a U32 (each engine's own layout). -/
def resultBlock (status a b c : Nat) : Bytes := leBytes 1 status ++ zeros 3 ++ leBytes 4 a ++ leBytes 4 b ++ leBytes 4 c

/-- A result block of a status alone. -/
def statusOnly (status : Nat) : Bytes := resultBlock status 0 0 0

/-- A result block with a U64 in bytes 8 to 15. -/
def valueBlock (status a v : Nat) : Bytes := leBytes 1 status ++ zeros 3 ++ leBytes 4 a ++ leBytes 8 v

/-- The engine takes the descriptors from `next` up to P (R469, R470). -/
def Dev.takeDescs (m : Mem) (r p : Nat) : (fuel : Nat) → Dev → Nat → Dev
  | 0, d, _ => d
  | fuel + 1, d, i =>
    if i = p then d
    else
      let b := d.load_ m (d.get (ringKey r 2) + 64 * (i % max 1 (d.get (ringKey r 3)))) 64
      let bad := malformedDesc (d.get (ringKey r 1)) b
      let x : DescSt := { idx := i, bytes := b, result := if bad then some (statusOnly 0xF0) else none }
      let next := (i + 1) % 2 ^ 64
      Dev.takeDescs m r p fuel (d.modRing r fun g => { g with next := some next, taken := g.taken ++ [x] }) next

/-- DESCRIPTOR_SUBMIT (R469): P has risen. -/
def execDescriptorSubmit (r : Nat) (s : State) : Host.Outcome State Fault Refusal :=
  s.onTrunk fun d =>
    if r ≥ 64 || d.get (ringKey r 1) = 0 || d.get (ringKey r 7) = 2 then d
    else
      let p := d.ringP r
      let diff := toSigned 64 (p + 2 ^ 64 - d.ringD r)
      if diff > d.get (ringKey r 3) then (d.set (ringKey r 7) 2).flag 0x4002 2
      else
        let from_ := ((d.ring r).next).getD (d.ringD r)
        let n := (p + 2 ^ 64 - from_) % 2 ^ 64
        if n = 0 || n > d.get (ringKey r 3) then d
        else Dev.takeDescs s.mem r p n (d.set (ringKey r 7) 1) from_

/-- A descriptor that an engine has taken. -/
def Dev.desc (d : Dev) (r i : Nat) : Option DescSt := (d.ring r).taken.find? (·.idx = i)

/-- A descriptor taken changed. -/
def Dev.modDesc (d : Dev) (r i : Nat) (f : DescSt → DescSt) : Dev :=
  d.modRing r fun g => { g with taken := g.taken.map fun x => if x.idx = i then f x else x }

/-- The bytes of a descriptor's operation block. -/
def opBlock (x : DescSt) : Bytes := x.bytes.drop 16

/-- The descriptors of a ring before one. -/
def beforeIn (i : Nat) (l : List DescSt) : List DescSt := l.takeWhile (·.idx != i)

/-- May a descriptor run at its place in its ring (R470, R486): a FENCE after every earlier one has completed, one codec context at a time, its
class not held, no thermal trip (R643), and no archival
compression and no lease traffic, which is ARCHIVE traffic, from step 1 of the trunk's ladder on (R275)? -/
def Dev.startable (d : Dev) (r : Nat) (x : DescSt) : Bool :=
  let engine := d.get (ringKey r 1)
  let before := beforeIn x.idx (d.ring r).taken
  let codec := engine = 3 || engine = 4
  d.get (ringKey r 7) = 1 && !d.noAnalysis && (!(natAt x.bytes 1 1).testBit 0 || before.all (·.finished)) &&
  (!codec || before.all fun y => y.result.isSome || natAt y.bytes 48 8 != natAt x.bytes 48 8) &&
  !d.classHeld (natAt x.bytes 2 1) && !(engine = 4 && natAt x.bytes 2 1 = 6 && d.trunkStep ≥ 1) &&
  !(engine = 10 && (natAt x.bytes 16 1 = 8 || natAt x.bytes 16 1 = 9) && d.trunkStep ≥ 1)

/-- Does a ring hold a descriptor that could start and has not? -/
def Dev.ringWaits (d : Dev) (r : Nat) : Bool :=
  (d.ring r).taken.any fun x => !x.begun && x.result.isNone && d.startable r x

/-- A ring's rank among those of its engine type (R471): its Priority, then its distance from the ring served last. -/
def Dev.ringRank (d : Dev) (r : Nat) : Nat :=
  64 * d.get (ringKey r 6) + (r + 63 - (lookupKey (d.get (ringKey r 1)) d.tk.ana.turns).getD 63) % 64

/-- Is a ring the one of its engine type that is served next (R471)? -/
def Dev.ringServed (d : Dev) (r : Nat) : Bool :=
  (List.range 64).all fun q =>
    d.get (ringKey q 1) != d.get (ringKey r 1) || !d.ringWaits q || d.ringRank r ≤ d.ringRank q

/-- May a descriptor start (R470, R471, R486)? One that has begun goes on. -/
def Dev.mayStart (d : Dev) (r : Nat) (x : DescSt) : Bool := d.startable r x && (x.begun || d.ringServed r)

/-- A descriptor starts: its ring has been served (R471). -/
def Dev.startDesc (d : Dev) (r i : Nat) : Dev :=
  let d := d.modAna fun a => { a with turns := insertKey (d.get (ringKey r 1)) r a.turns }
  d.modDesc r i fun x => { x with begun := true }

/-- What an operation gives: its result (none: it is still at work), the trunk and memory. -/
abbrev OpOut := Option Bytes × Dev × Mem

/-- Ranges that an operation names, checked in order (R472): ACCESS or FENCED. -/
def Dev.accessStatus (d : Dev) (part : Nat) : List (Nat × Nat) → Option Nat
  | [] => none
  | (a, n) :: l =>
    match d.checkRange part a n with
    | some .partition => some 0xF2
    | some _ => some 0xF1
    | none => if n != 0 && d.zone a = 3 then some 0xF1 else d.accessStatus part l

/-- Descriptor `i` of ring `r` runs on an engine as the operation `op`. -/
def State.runOp (s : State) (r i engine op : Nat) (f : Dev → Mem → DescSt → OpOut) : Host.Outcome State Fault Refusal :=
  s.onMem fun d m =>
    match d.desc r i with
    | none => (d, m)
    | some x =>
      if d.get (ringKey r 1) != engine || natAt x.bytes 16 1 != op || x.result.isSome || !d.mayStart r x then (d, m)
      else
        let d := d.startDesc r i
        let (res, d, m) := f d m x
        (d.modDesc r i fun x => { x with result := res }, m)

/-- Sources that an operation reads, checked in order (R472): sync counters may be read (R464). -/
def Dev.sourceStatus (d : Dev) (part : Nat) (l : List (Nat × Nat)) : Option Nat :=
  d.accessStatus part (l.filter fun x => d.zone x.1 != 3 || d.zone (x.1 + x.2 - 1) != 3)

/-- An operation whose ranges are checked first. -/
def guardRanges (d : Dev) (m : Mem) (x : DescSt) (l : List (Nat × Nat)) (f : OpOut) : OpOut :=
  match d.accessStatus (natAt x.bytes 3 1) l with
  | some st => (some (statusOnly st), d, m)
  | none => f

/-- An operation whose sources are checked first. -/
def guardSources (d : Dev) (m : Mem) (x : DescSt) (l : List (Nat × Nat)) (f : OpOut) : OpOut :=
  match d.sourceStatus (natAt x.bytes 3 1) l with
  | some st => (some (statusOnly st), d, m)
  | none => f

/-- The result block of a descriptor is written where it asks. -/
def Dev.putResult (d : Dev) (m : Mem) (x : DescSt) (res : Bytes) : Mem :=
  let a := natAt x.bytes 8 8
  if a = 0 || (d.accessStatus (natAt x.bytes 3 1) [(a, 16)]).isSome then m else m.write a (bytesAt res 0 16)

/-- A descriptor has completed: the ring's counts. -/
def Dev.countDesc (d : Dev) (r : Nat) (res : Bytes) : Dev :=
  let st := natAt res 0 1
  let d := d.inc (ringKey r 8)
  if 0xF0 ≤ st && st ≤ 0xF3 then d.inc (ringKey r 9) else d

/-- DESCRIPTOR_COMPLETE (R470): the result block is written, then D advances past every completed descriptor. -/
def execDescriptorComplete (r i : Nat) (s : State) : Host.Outcome State Fault Refusal :=
  s.onMem fun d m =>
    match d.desc r i with
    | some x =>
      match x.result with
      | some res =>
        if x.finished then (d, m)
        else
          let m := d.putResult m x res
          let d := (d.countDesc r res).modDesc r i fun x => { x with finished := true }
          let done := ((d.ring r).taken.takeWhile (·.finished)).length
          let d := d.modRing r fun g => { g with taken := g.taken.drop done }
          let d := if done = 0 then d else d.syncAdd (d.get (ringKey r 5)) (BitVec.ofNat 64 done)
          let d := if (d.ring r).taken.isEmpty && (d.ring r).next = some (d.ringP r) then d.set (ringKey r 7) 0 else d
          (d, m)
      | none => (d, m)
    | none => (d, m)

/-- An object of model slot `m`. -/
def modelKey (m sub : Nat) : Nat := key (0x4210 + m) sub

/-- The entries used in a bank. -/
def bankUsed (ms : List ThModel) (b : Nat) : Nat :=
  (ms.flatMap fun m => (m.trees.filter (·.bank = b)).map fun t => t.addrs.length).sum

/-- The models changed, and the gauges of 0x4201 with them. -/
def Dev.setModels (d : Dev) (ms : List ThModel) : Dev :=
  let d := { d with tk := { d.tk with thk := ms } }
  let free := (List.range 32).map fun b => 32768 - bankUsed ms b
  let d := (d.set 0x4201_01 ((ms.map (·.comps.length)).sum)).set 0x4201_02 ((ms.map (·.trees.length)).sum)
  let d := d.set 0x4201_03 (1048576 - free.sum)
  (d.set 0x4201_04 ((free.min?).getD 0)).set 0x4201_05 ((free.max?).getD 0)

/-- A LOAD that a ring's reset aborts leaves its slot EMPTY and takes no resources (R472, R518). -/
def Dev.dropLoads (d : Dev) (r : Nat) : Dev :=
  let mine (m : ThModel) : Bool := m.load.any (·.1 = r)
  let gone := d.tk.thk.filter mine
  if gone.isEmpty then d
  else gone.foldl (fun (d : Dev) m => (List.range 0xB).foldl (fun (d : Dev) k => d.clear (modelKey m.id (k + 1))) d)
    (d.setModels (d.tk.thk.filter (!mine ·)))

/-- The descriptors of a ring that have not completed at a reset: those taken, then those still in the ring (R473). -/
def Dev.uncompleted (d : Dev) (m : Mem) (r : Nat) : List DescSt :=
  let from_ := ((d.ring r).next).getD (d.ringD r)
  let n := (d.ringP r + 2 ^ 64 - from_) % 2 ^ 64
  let rest := if n ≤ d.get (ringKey r 3) then (List.range n).map (fun k => (from_ + k) % 2 ^ 64) else []
  (d.ring r).taken.filter (!·.finished) ++
  rest.map fun i => { idx := i, bytes := d.load_ m (d.get (ringKey r 2) + 64 * (i % max 1 (d.get (ringKey r 3)))) 64 }

/-- A ring's reset (R473, R530): every uncompleted descriptor completes with ABORTED; D becomes P; State IDLE. -/
def Dev.resetRing (d : Dev) (m : Mem) (r : Nat) : Dev × Mem :=
  let aborted (x : DescSt) : Bytes :=
    if d.get (ringKey r 1) = 8 && natAt x.bytes 16 1 = 3 then resultBlock 0xF3 x.done x.nans 0 else statusOnly 0xF3
  let (d, m) := (d.uncompleted m r).foldl (fun (d, m) x => (d.countDesc r (aborted x), d.putResult m x (aborted x))) (d, m)
  let diff := (d.ringP r + 2 ^ 64 - d.ringD r) % 2 ^ 64
  let d := if diff = 0 then d else d.syncAdd (d.get (ringKey r 5)) (BitVec.ofNat 64 diff)
  let d := d.modAna fun a => { a with reads := a.reads.filter (·.ring != r) }
  (((d.dropLoads r).modRing r fun _ => {}).set (ringKey r 7) 0, m)

/-- Does the server execute a write of 1 to a ring's `Reset`? The request is served as it will be, with an effect that
shows. -/
def Dev.resetRuns (d : Dev) (e : Env) (r value : Nat) : Bool :=
  (d.serveWrite e (0x4040 + r) 0xA value fun d v _ => cmdOne d v (ok { d with tk := { d.tk with tripped := !d.tk.tripped } })
    ).tk.tripped != d.tk.tripped

/-- RING_RESET (R473): the write is served, and on success the ring is reset. -/
def execRingReset (e : Env) (r value : Nat) (s : State) : Host.Outcome State Fault Refusal :=
  s.onMem fun d m =>
    if r ≥ 64 then (d, m)
    else
      (d.serveWrite e (0x4040 + r) 0xA value fun d v _ => cmdOne d v (ok (d.resetRing m r).1),
       if d.resetRuns e r value then (d.resetRing m r).2 else m)

/-! ### Movers (R475) -/

/-- The fields of a Movers operation block. -/
structure MoverOp where
  len    : Nat
  src    : Nat
  dst    : Nat
  index  : Nat
  elem   : Nat
  handle : Nat
  aux    : Nat
  part   : Nat
  bad    : Bool

/-- The operation block of a Movers descriptor. -/
def moverOp (x : DescSt) : MoverOp :=
  let b := opBlock x
  { len := natAt b 4 4, src := natAt b 8 8, dst := natAt b 16 8, index := natAt b 24 8, elem := natAt b 32 4
    handle := natAt b 36 4, aux := natAt b 40 8, part := natAt x.bytes 3 1, bad := natAt b 1 3 != 0 }

/-- A Movers operation: a malformed one completes so. -/
def State.mover (s : State) (r i op : Nat) (f : Dev → Mem → DescSt → MoverOp → OpOut) : Host.Outcome State Fault Refusal :=
  s.runOp r i 10 op fun d m x =>
    let o := moverOp x
    if o.bad then (some (statusOnly 0xF0), d, m) else f d m x o

/-- COPY (R475): as if through a buffer. -/
def execCopy (r i : Nat) (s : State) : Host.Outcome State Fault Refusal :=
  s.mover r i 1 fun d m x o =>
    guardSources d m x [(o.src, o.len)] <| guardRanges d m x [(o.dst, o.len)]
      (some (statusOnly 0), (d.useMem 7 o.src o.len).useMem 7 o.dst o.len, m.write o.dst (d.load_ m o.src o.len))

/-- The addresses that the index list of GATHER or SCATTER names. -/
def Dev.indexList (d : Dev) (m : Mem) (o : MoverOp) : List Nat := (List.range o.len).map fun k => d.word m (o.index + 8 * k)

/-- Is an element size one that R475 allows? -/
def elemOk (n : Nat) : Bool := 8 ≤ n && n ≤ 4096 && n % 8 = 0

/-- GATHER (R475). -/
def execGather (r i : Nat) (s : State) : Host.Outcome State Fault Refusal :=
  s.mover r i 2 fun d m x o =>
    if !elemOk o.elem then (some (statusOnly 0xF0), d, m)
    else guardSources d m x [(o.index, 8 * o.len)] <| guardRanges d m x [(o.dst, o.len * o.elem)] <|
      let l := d.indexList m o
      guardSources d m x (l.map (·, o.elem))
        (some (statusOnly 0), d.useMem 7 o.dst (o.len * o.elem), m.write o.dst (l.flatMap fun a => d.load_ m a o.elem))

/-- SCATTER (R475). -/
def execScatter (r i : Nat) (s : State) : Host.Outcome State Fault Refusal :=
  s.mover r i 3 fun d m x o =>
    if !elemOk o.elem then (some (statusOnly 0xF0), d, m)
    else guardSources d m x [(o.index, 8 * o.len), (o.src, o.len * o.elem)] <|
      let l := d.indexList m o
      guardRanges d m x (l.map (·, o.elem))
        (some (statusOnly 0), d.useMem 7 o.src (o.len * o.elem),
          l.zipIdx.foldl (fun (m' : Mem) (a, k) => m'.write a (d.load_ m (o.src + k * o.elem) o.elem)) m)

/-- FILL (R475). -/
def execFill (r i : Nat) (s : State) : Host.Outcome State Fault Refusal :=
  s.mover r i 4 fun d m x o =>
    guardRanges d m x [(o.dst, o.len)]
      (some (statusOnly 0), d.useMem 7 o.dst o.len,
        m.write o.dst ((List.range o.len).map fun k => (leBytes 8 o.aux).getD (k % 8) 0))

/-- POOL_ALLOC (R475, R477): the handle and the base address; a recall follows where too few pages are left (R482). -/
def execPoolAlloc (r i : Nat) (s : State) : Host.Outcome State Fault Refusal :=
  s.mover r i 5 fun d m _ o =>
    let c := field o.aux 7 0
    let where_ := field o.aux 15 8
    let n := field o.aux 47 16
    if c = 0 || c > 6 || where_ > 3 || n = 0 || field o.aux 63 48 != 0 then (some (statusOnly 0xF0), d, m)
    else match d.poolAlloc c where_ n o.part with
      | (.ok run, d) =>
        let base := if run.lease.isSome then (Config.remoteBase run.handle).toNat else run.base
        (some (valueBlock 0 run.handle base), d.recallLow, m)
      | (.error st, d) => (some (statusOnly st), d, m)

/-- The run of a handle that a descriptor may name, or the status that it completes with. -/
def Dev.runOf (d : Dev) (h part : Nat) : Except Nat PoolRun :=
  match d.tk.ana.runs.find? (·.handle = h) with
  | none => .error 3
  | some r =>
    if r.cls = 3 || r.cls = 6 then .error 3
    else if r.part != 0 && part != 0 && r.part != part then .error 0xF2
    else .ok r

/-- POOL_FREE (R475). -/
def execPoolFree (r i : Nat) (s : State) : Host.Outcome State Fault Refusal :=
  s.mover r i 6 fun d m _ o =>
    match d.runOf o.handle o.part with
    | .error st => (some (statusOnly st), d, m)
    | .ok run => (some (statusOnly 0), d.freeRun run.handle, m)

/-- POOL_RETAG (R475, R476): REMOTE pages stay in HISTORY. -/
def execPoolRetag (r i : Nat) (s : State) : Host.Outcome State Fault Refusal :=
  s.mover r i 7 fun d m _ o =>
    let c := field o.aux 7 0
    if c = 0 || c > 6 then (some (statusOnly 0xF0), d, m)
    else match d.runOf o.handle o.part with
    | .error st => (some (statusOnly st), d, m)
    | .ok run =>
      if run.lease.isSome && c != 1 then (some (statusOnly 0xF0), d, m)
      else
        let (st, d) := d.poolRetag run c
        (some (statusOnly st), d, m)

/-- The pieces of at most 1,048,576 bytes of a transfer: offset and length (R479). -/
def pieces (n : Nat) : List (Nat × Nat) :=
  (List.range ((n + 1048575) / 1048576)).map fun k => (1048576 * k, min 1048576 (n - 1048576 * k))

/-- LEASE_WRITE (R475, R479, R482). -/
def execLeaseWrite (r i : Nat) (s : State) : Host.Outcome State Fault Refusal :=
  s.mover r i 8 fun d m x o =>
    match d.lease o.handle false with
    | none => (some (statusOnly 4), d, m)
    | some l =>
      if o.aux + o.len > l.units * 2 ^ 30 then (some (statusOnly 0xF0), d, m)
      else guardRanges d m x [(o.src, o.len)] <|
        let send (d : Dev) (p : Nat × Nat) : Dev :=
          d.sendLeaseData l.peer 1 o.part l.id (o.aux + p.1) p.2 0 (d.load_ m (o.src + p.1) p.2)
        (some (statusOnly 0), (pieces o.len).foldl send (d.useMem 7 o.src o.len), m)

/-- LEASE_READ (R475, R479, R482): the descriptor has its result when the bytes have come. -/
def execLeaseRead (r i : Nat) (s : State) : Host.Outcome State Fault Refusal :=
  s.mover r i 9 fun d m x o =>
    match d.lease o.handle false with
    | none => (some (statusOnly 4), d, m)
    | some l =>
      if x.begun then (none, d, m)
      else if o.aux + o.len > l.units * 2 ^ 30 then (some (statusOnly 0xF0), d, m)
      else guardRanges d m x [(o.dst, o.len)] <|
        if o.len = 0 then (some (statusOnly 0), d, m)
        else
          let ask (d : Dev) (p : Nat × Nat) : Dev :=
            let tag := (d.tk.ana.tagNo + 1) % 2 ^ 32
            let q : LeaseRead := ⟨tag, r, i, l.id, o.dst + p.1, p.2⟩
            let d := d.modAna fun a => { a with tagNo := tag, reads := a.reads ++ [q] }
            d.sendLeaseData l.peer 2 o.part l.id (o.aux + p.1) p.2 tag []
          (none, (pieces o.len).foldl ask (d.useMem 7 o.dst o.len), m)

/-! ### Codec engines (R300 to R307) -/

/-- The context that lies at an address (R305): none where it fails R306. A block of zeros is EMPTY (R307). -/
def Dev.readCtx (d : Dev) (m : Mem) (a role : Nat) : Option Ctx :=
  let b := d.load_ m (a + 65536) 64
  if b.all (· = 0) then some { role := role }
  else
    let hist := d.load_ m a 65536
    let pos := natAt b 8 4
    if natAt b 60 4 != crc32c (b.take 60 ++ hist) || natAt b 0 1 != 1 || natAt b 1 1 != role || natAt b 2 1 > 3
      || natAt b 4 4 > 65536 || pos > 65535 || natAt b 48 1 > 2 || natAt b 12 4 > 16777216 || natAt b 24 4 > 16777216 then none
    else some {
      role := role, phase := natAt b 2 1, flags := natAt b 3 1
      win := hist.drop pos ++ hist.take pos |>.reverse
      histFill := natAt b 4 4, histPos := pos, prevLen := natAt b 12 4, lastLen := natAt b 16 4, lastDist := natAt b 20 2
      orig := natAt b 24 4, out := natAt b 28 4, expCrc := natAt b 32 4, runCrc := BitVec.ofNat 32 (natAt b 36 4)
      left := natAt b 40 4, pendLen := natAt b 44 4, pendKind := natAt b 48 1, frames := natAt b 52 4 }

/-- The first 60 bytes of a context's state block (R305). -/
def Ctx.stateBytes (c : Ctx) : Bytes :=
  leBytes 1 1 ++ leBytes 1 c.role ++ leBytes 1 c.phase ++ leBytes 1 c.flags ++ leBytes 4 c.histFill ++ leBytes 4 c.histPos ++
  leBytes 4 c.prevLen ++ leBytes 4 c.lastLen ++ leBytes 2 c.lastDist ++ zeros 2 ++ leBytes 4 c.orig ++ leBytes 4 c.out ++
  leBytes 4 c.expCrc ++ leBytes 4 c.runCrc.toNat ++ leBytes 4 c.left ++ leBytes 4 c.pendLen ++ leBytes 1 c.pendKind ++
  zeros 3 ++ leBytes 4 c.frames ++ zeros 4

/-- The history and state block of a context written back, StateCrc included (R306): `made` original bytes are new. -/
def Mem.writeCtx (m : Mem) (a : Nat) (c : Ctx) (made : Bytes) : Mem :=
  let n := made.length
  let m := made.zipIdx.foldl (fun (m : Mem) (b, k) => m.put (a + (c.histPos + 65536 * (n / 65536 + 1) - n + k) % 65536) b) m
  let s := c.stateBytes
  m.write (a + 65536) (s ++ leBytes 4 (crc32c (s ++ m.read a 65536)))

/-- An operation that fails on its context or its lengths: the context is written back INVALID (R293, R306). One that fails
R306 holds nothing else (log 51). -/
def failCtx (d : Dev) (m : Mem) (a st : Nat) (c : Ctx) : OpOut :=
  (some (resultBlock st 0 0 0), d, m.writeCtx a { c with phase := 3 } [])

/-- COMPRESS (R291 to R293, R298, R300, R306). -/
def execCompress (r i : Nat) (s : State) : Host.Outcome State Fault Refusal :=
  s.runOp r i 4 1 fun d m x =>
    let b := opBlock x
    let fl := natAt b 1 1
    let n := natAt b 4 4
    let bad := fl ≥ 16 || natAt b 2 2 != 0 || natAt b 28 4 != 0 || natAt b 40 8 != 0 || natAt b 24 4 < n + 16
    let (src, dst, ctx) := (natAt b 8 8, natAt b 16 8, natAt b 32 8)
    if bad then (some (statusOnly 0xF0), d, m)
    else guardRanges d m x [(src, n), (dst, natAt b 24 4), (ctx, 65600)] <|
      match d.readCtx m ctx 1 with
      | none => failCtx d m ctx 8 { role := 1 }
      | some c =>
        let cont := !fl.testBit 1
        if fl.testBit 0 || cont && c.phase != 1 then failCtx d m ctx 8 c
        else if n = 0 || n > 16777216 then failCtx d m ctx 5 c
        else
          let orig := d.load_ m src n
          let r := encodeFrame c orig cont (fl.testBit 3) (!fl.testBit 2) true
          let c' : Ctx := { r.ctx with role := 1 }
          (some (resultBlock (b2n r.raw) n r.bytes.length (crc32c orig)), (d.useMem 5 src n).useMem 5 dst r.bytes.length,
            (m.writeCtx ctx c' orig).write dst r.bytes)

/-- A DECOMPRESS descriptor (R300 to R302, R306), with or without RESUME. -/
def decompressOp (resume : Bool) (d : Dev) (m : Mem) (x : DescSt) : OpOut :=
  let b := opBlock x
  let n := natAt b 4 4
  let out := natAt b 24 4
  let bad := natAt b 1 1 ≥ 16 || natAt b 2 2 != 0 || natAt b 28 4 != 0 || natAt b 40 8 != 0 || out < 64 || out % 8 != 0
  let (src, dst, ctx) := (natAt b 8 8, natAt b 16 8, natAt b 32 8)
  if bad then (some (statusOnly 0xF0), d, m)
  else guardRanges d m x [(src, n), (dst, out), (ctx, 65600)] <|
    match d.readCtx m ctx 2 with
    | none => failCtx d m ctx 8 { role := 2 }
    | some c =>
      let inp := d.load_ m src n
      let r := if resume then resumeFrame c inp out else decodeFrame c inp out
      (some (resultBlock r.status.code r.consumed r.out.length r.crc), (d.useMem 0 src n).useMem 0 dst r.out.length,
        (m.writeCtx ctx { r.ctx with role := 2 } r.out).write dst r.out)

/-- The RESUME flag of a codec descriptor. -/
def resumes (d : Dev) (r i : Nat) : Bool := (d.desc r i).any fun x => (natAt x.bytes 17 1).testBit 0

/-- DECOMPRESS (R301). -/
def execDecompress (r i : Nat) (s : State) : Host.Outcome State Fault Refusal :=
  if resumes s.trunk r i then s.onTrunk id else s.runOp r i 3 2 (decompressOp false)

/-- DECOMPRESS_RESUME (R302). -/
def execDecompressResume (r i : Nat) (s : State) : Host.Outcome State Fault Refusal :=
  if resumes s.trunk r i then s.runOp r i 3 2 (decompressOp true) else s.onTrunk id

/-! ### Sketch engines (R499) -/

/-- The fields of a Sketch operation block. -/
structure SketchOp where
  ty    : Nat
  n     : Nat
  count : Nat
  src   : Nat
  src2  : Nat
  dst   : Nat
  p16   : Nat
  value : Nat
  bad   : Bool

/-- The operation block of a Sketch descriptor. -/
def sketchOp (x : DescSt) : SketchOp :=
  let b := opBlock x
  let n := natAt b 2 2
  { ty := natAt b 1 1, n := n, count := natAt b 4 4, src := natAt b 8 8, src2 := natAt b 16 8, dst := natAt b 24 8
    p16 := natAt b 32 4, value := natAt b 40 8, bad := n < 8 || n > 256 || n % 2 != 0 || natAt b 36 4 != 0 }

/-- A Sketch operation: a malformed one completes so. -/
def State.sketch (s : State) (r i op : Nat) (f : Dev → Mem → DescSt → SketchOp → OpOut) : Host.Outcome State Fault Refusal :=
  s.runOp r i 5 op fun d m x =>
    let o := sketchOp x
    if o.bad then (some (statusOnly 0xF0), d, m) else f d m x o

/-- The histogram of N buckets at an address. -/
def Dev.histAt (d : Dev) (m : Mem) (a n : Nat) : List Nat := histOf (d.load_ m a (4 * n))

/-- BUCKET (R499). -/
def execBucket (r i : Nat) (s : State) : Host.Outcome State Fault Refusal :=
  s.sketch r i 1 fun d m x o =>
    if o.ty != 1 && o.ty != 2 then (some (statusOnly 0xF0), d, m)
    else guardRanges d m x [(o.src, 8 * o.count), (o.dst, 4 * o.n)] <|
      let val (k : Nat) : Int := let w := d.word m (o.src + 8 * k); if o.ty = 2 then toSigned 64 w else w
      let h := (List.range o.count).foldl (fun h k => histPut h (val k)) (d.histAt m o.dst o.n)
      (some (statusOnly 0), (d.useMem 2 o.src (8 * o.count)).useMem 2 o.dst (4 * o.n), m.write o.dst (histBytes h))

/-- MERGE (R499). -/
def execMerge (r i : Nat) (s : State) : Host.Outcome State Fault Refusal :=
  s.sketch r i 2 fun d m x o =>
    guardRanges d m x [(o.src, 4 * o.n), (o.src2, 4 * o.n), (o.dst, 4 * o.n)]
      (some (statusOnly 0), (d.useMem 2 o.src (4 * o.n)).useMem 2 o.dst (4 * o.n),
        m.write o.dst (histBytes (histAdd (d.histAt m o.src o.n) (d.histAt m o.src2 o.n))))

/-- RANK (R499): the value is taken as I64. -/
def execRank (r i : Nat) (s : State) : Host.Outcome State Fault Refusal :=
  s.sketch r i 3 fun d m x o =>
    guardRanges d m x [(o.src, 4 * o.n)] <|
      let h := d.histAt m o.src o.n
      let st := b2n (histTotal h = 0)
      (some (valueBlock st (rank16 h (if o.ty = 1 then (o.value : Int) else toSigned 64 o.value)) 0), d.useMem 2 o.src (4 * o.n), m)

/-- QUANTILE (R499). -/
def execQuantile (r i : Nat) (s : State) : Host.Outcome State Fault Refusal :=
  s.sketch r i 4 fun d m x o =>
    if o.p16 = 0 || o.p16 > 65536 then (some (statusOnly 0xF0), d, m)
    else guardRanges d m x [(o.src, 4 * o.n)] <|
      match quantileOf (d.histAt m o.src o.n) o.p16 with
      | none => (some (statusOnly 1), d.useMem 2 o.src (4 * o.n), m)
      | some q => (some (valueBlock 0 0 q), d.useMem 2 o.src (4 * o.n), m)

end Sys2Proof.Machine
end

