-- ==== Sys2Proof/Machine/Power.lean ====
section
/-! DEFINITION. Power and health sensing (chapter 04): sensors, the inrush gate, regulator failure and the end of a
power-fail warning. -/

namespace Sys2Proof.Machine

open Sys2Proof

/-! ### Sensors -/

/-- A valid voltage reading of sensor `v` in µV (R154 to R156, R149). -/
def Dev.voltReading (d : Dev) (v r : Nat) : Dev :=
  let i := 0x2410 + v
  let d := d.set (key i 1) r
  let d := if r < d.get (key i 2) then
      Dev.set { d with pow := { d.pow with runStamp := d.pow.runStamp.set v d.stamp } } (key i 2) r
    else d
  d.set 0x2108_19 (min (d.get 0x2108_19) (r / 1000))

/-- A current sample is due (R154): the quotient of the tick number by 16 has risen. -/
def Dev.currentDue (d : Dev) : Bool := d.time.tick / 16 > d.pow.lastCur

/-- Is a cluster DEGRADED (R166)? -/
def Dev.degraded (d : Dev) (c : Nat) : Bool := d.get (key (0x2490 + c) 4) = 1

/-- `TestAllowed` at a tick (R173). -/
def Dev.testAllowed (d : Dev) : Bool :=
  let readings := (List.range d.cfg.tempRegions.length).map fun n => d.getI (key (0x24A0 + n) 1)
  let valid := readings.filter (· != -32768)
  d.pow.headSince.any (d.stamp ≥ · + d.get 0x2406_02) && valid.all (· < d.getI 0x2406_03) &&
  (readings.isEmpty || !valid.isEmpty) && !(List.range d.cfg.clusters).any d.degraded && d.pow.pend.isEmpty &&
  !d.pfActive

/-- `TestAllowed` falls at once when a condition fails in the tick (R173). -/
def Dev.refreshTest (d : Dev) : Dev := if d.on 0x2406_04 && !d.testAllowed then d.setB 0x2406_04 false else d

/-- The cluster of a power region. -/
def Dev.clusterOf (d : Dev) (r : Nat) : Nat := d.get (key (0x2450 + r) 2)

/-- An episode changed. -/
def Dev.modEpisode (d : Dev) (c : Nat) (f : Episode → Episode) : Dev :=
  let l := d.pow.episodes.map (fun x => if x.unit = c then f x else x)
  { d with pow := { d.pow with episodes := l } }

/-- The region-off request of a region is asserted (R167 to R169). -/
def Dev.darken (d : Dev) (r : Nat) : Dev :=
  ((d.setB (key (0x2450 + r) 4) true).inc 0x2405_07).emit (.pin .regionOff r 1)

/-- Region-off for every region of a cluster that is not yet dark and whose fault input is asserted; their number. -/
def Dev.darkenFaulted (d : Dev) (c : Nat) : Dev × Nat :=
  let rs := (d.regionsOf c).filter fun r => !d.dark r && d.faulted r
  let d := rs.foldl Dev.darken d
  (d.modEpisode c fun x => { x with darked := x.darked + rs.length }, rs.length)

/-- The comparison of R167 at a current sample. -/
def Dev.overcarry (d : Dev) (c : Nat) : Dev :=
  let cap := d.capacity c
  if d.degraded c && (cap = 0 || d.load c * 100 > d.get 0x2405_01 * cap) then
    let (d, n) := d.darkenFaulted c
    if n = 0 then d else (d.flag 0x2401 4).flag 0x2401 2
  else d

/-- The running maxima of the schedules' intervals take valid current readings (R262). -/
def Dev.mergeCurrents (d : Dev) (vals : List (Nat × Option Nat)) : Dev :=
  let up (l : List Nat) : List Nat := (List.range d.cfg.powerRegions).map fun r =>
    vals.foldl (fun m x => if x.1 = r then max m (x.2.getD 0) else m) (l.getD r 0)
  { d with frm := { d.frm with scheds := d.frm.scheds.map fun c => { c with cmax := up c.cmax } } }

/-- CURRENT_SAMPLE (R154, R155, R167): every 16 ticks. -/
def execCurrentSample (l : LeafId) (vals : List (Nat × Option Nat)) (s : State) : Host.Outcome State Fault Refusal :=
  s.onLeaf l fun d =>
    if !d.currentDue then d
    else
      let d := vals.foldl (fun d (r, v) => match v with
        | some v => if r < d.cfg.powerRegions then d.set (key (0x2450 + r) 1) v else d
        | none => d) d
      let d := d.mergeCurrents vals
      let d := { d with pow := { d.pow with lastCur := d.time.tick / 16, curTick := some d.time.tick } }
      if d.cfg.inrushGate then (List.range d.cfg.clusters).foldl Dev.overcarry d else d

/-- A valid temperature reading, in 1/16 °C (R154, R149). -/
def Dev.tempReading (d : Dev) (n : Nat) (v : Int) : Dev :=
  let d := d.setI (key (0x24A0 + n) 1) v
  d.setI 0x2108_18 (max (toSigned 64 (d.get 0x2108_18)) v)

/-- TEMPERATURE_READING (R154, R155): every 12,500 ticks. -/
def execTemperatureReading (l : LeafId) (vals : List (Nat × Option Int)) (s : State) :
    Host.Outcome State Fault Refusal :=
  s.onLeaf l fun d =>
    if d.time.tick / 12500 ≤ d.pow.lastTemp then d
    else
      let d := vals.foldl (fun d (n, v) => match v with
        | some v => if n < d.cfg.tempRegions.length then d.tempReading n v else d
        | none => d) d
      Dev.refreshTest { d with pow := { d.pow with lastTemp := d.time.tick / 12500 } }

/-- MIN_V_READ (R157). -/
def execMinVRead (l : LeafId) (e : Env) (sensor : Nat) (s : State) : Host.Outcome State Fault Refusal :=
  s.onLeaf l fun d => d.serve e 0x01 (0x2410 + sensor) 2 0 fun d => d.readAns e (0x2410 + sensor) 2 0 4

/-! ### The inrush gate -/

/-- A request is answered: the pulse on its pin, and stage_req must fall before the next (R161, R624). -/
def Dev.answer (d : Dev) (r : Nat) (p : Pin) : Dev :=
  let pend := d.pow.pend.filter (·.region != r)
  Dev.emit { d with pow := { d.pow with pend := pend, awaitLow := r :: d.pow.awaitLow } } (.pin p r 1)

/-- A pending request is denied (R163). -/
def Dev.deny (d : Dev) (q : StageReq) : Dev := (d.answer q.region .stageDeny).inc 0x2404_04

/-- Every pending request that satisfies `p` is denied. -/
def Dev.denyAll (d : Dev) (p : StageReq → Bool) : Dev := (d.pow.pend.filter p).foldl Dev.deny d

/-- The declared inrush of a stage (R163). -/
def Dev.inrush (d : Dev) (q : StageReq) : Nat := d.get (key (0x2450 + q.region) (5 + q.stage))

/-- The in-flight inrush of a cluster (R163). -/
def Dev.inflight (d : Dev) (c : Nat) : Nat :=
  (d.pow.granted.filter fun x => x.1 = c && d.now < x.2.2 + d.get 0x2404_02).foldl (fun n x => n + x.2.1) 0

/-- Does a request fit under its cluster's `Limit` (R163, R164)? -/
def Dev.fits (d : Dev) (c : Nat) (q : StageReq) : Bool :=
  d.load c + d.inflight c + d.inrush q ≤ d.get (key (0x2490 + c) 1)

/-- A pending request is granted (R163). -/
def Dev.grantReq (d : Dev) (c : Nat) (q : StageReq) : Dev :=
  let live := d.pow.granted.filter fun x => d.now < x.2.2 + d.get 0x2404_02
  let d := { d with pow := { d.pow with granted := (c, d.inrush q, d.now) :: live } }
  (d.answer q.region .stageGrant).inc 0x2404_03

/-- Does the gate deny every request of a cluster now (R163)? -/
def Dev.denying (d : Dev) (c : Nat) : Bool := d.pfActive || d.degraded c

/-- STAGE_REQUEST (R161, R162; R172 without a gate). -/
def execStageRequest (l : LeafId) (r stage : Nat) (s : State) : Host.Outcome State Fault Refusal :=
  s.onLeaf l fun d =>
    if r ≥ d.cfg.powerRegions || d.pow.awaitLow.contains r || d.pow.pend.any (·.region = r) then d
    else if !d.cfg.inrushGate then d.answer r .stageGrant
    else
      let q : StageReq := { region := r, stage := stage % 8, since := d.stamp }
      let before (a b : StageReq) : Bool := a.since < b.since || (a.since = b.since && a.region < b.region)
      Dev.refreshTest { d with pow := { d.pow with pend := insertBy before q d.pow.pend } }

/-- Has the gate granted a request of a cluster in this tick (R163)? -/
def Dev.grantedNow (d : Dev) (c : Nat) : Bool := d.pow.granted.any fun x => x.1 = c && x.2.2 = d.now

/-- GRANT (R163): in HW mode, the oldest request of a cluster, one per cluster and tick. -/
def execGrant (l : LeafId) (c : Nat) (s : State) : Host.Outcome State Fault Refusal :=
  s.onLeaf l fun d =>
    match (d.pendOf c).head? with
    | none => d
    | some q =>
      if d.denying c || d.on 0x2400_00 || !d.fits c q || d.grantedNow c then d
      else d.grantReq c q

/-- DENY (R163): the oldest request of a cluster. -/
def execDeny (l : LeafId) (c : Nat) (s : State) : Host.Outcome State Fault Refusal :=
  s.onLeaf l fun d =>
    match (d.pendOf c).head? with
    | none => d
    | some q => if d.denying c then d.deny q else d

/-- A pending request changed. -/
def Dev.modReq (d : Dev) (r : Nat) (f : StageReq → StageReq) : Dev :=
  let l := d.pow.pend.map (fun q => if q.region = r then f q else q)
  { d with pow := { d.pow with pend := l } }

/-- The deferred request of a cluster at a tick's evaluation: in HW mode the oldest, if it does not fit; none once the tick has
granted one (R163). -/
def Dev.deferredReq (d : Dev) (c : Nat) : Option StageReq :=
  match (d.pendOf c).head? with
  | none => none
  | some q => if d.denying c || d.on 0x2400_00 || d.fits c q || d.grantedNow c then none else some q

/-- INRUSH_DEFER_TIMEOUT (R163, R165, R220). -/
def execInrushDeferTimeout (l : LeafId) (c : Nat) (s : State) : Host.Outcome State Fault Refusal :=
  s.onLeaf l fun d =>
    match d.deferredReq c with
    | none => d
    | some q =>
      let waited := d.stamp - q.since
      if q.timedOut || waited < d.get 0x2404_01 then d
      else
        let d := (d.modReq q.region fun q => { q with timedOut := true }).inc 0x2404_05
        let d := (d.flag 0x2401 3).record .inrushTimeout d.stamp
          (leBytes 1 q.region ++ leBytes 1 q.stage ++ leBytes 1 c ++ zeros 1 ++ leBytes 4 (satNat 32 waited))
        d.snapshot .inrushTimeout d.stamp

/-- A write to `StageGrant` (R177). -/
def Dev.stageGrantAns (d : Dev) (v : Nat) : Ans :=
  let r := field v 5 0
  let stage := field v 8 6
  let c := d.clusterOf r
  if r ≥ d.cfg.powerRegions then fail d .range
  else if !d.on 0x2400_00 || d.denying c then fail d .state
  else match d.pow.pend.find? (fun q => q.region = r && q.stage = stage) with
  | none => fail d .state
  | some q =>
    if v.testBit 15 then ok (d.deny q) else if d.fits c q then ok (d.grantReq c q) else fail d .state

/-- STAGE_GRANT (R177). -/
def execStageGrant (l : LeafId) (e : Env) (r stage : Nat) (s : State) : Host.Outcome State Fault Refusal :=
  s.onLeaf l fun d => d.serveWrite e 0x2408 0 (stage % 8 * 64 + r % 64) fun d v _ => d.stageGrantAns v

/-- STAGE_DENY (R177). -/
def execStageDeny (l : LeafId) (e : Env) (r stage : Nat) (s : State) : Host.Outcome State Fault Refusal :=
  s.onLeaf l fun d => d.serveWrite e 0x2408 0 (32768 + stage % 8 * 64 + r % 64) fun d v _ => d.stageGrantAns v

/-! ### Shedding (R171, R659) -/

/-- The cluster that follows `c` among those shedding, in ascending order, wrapping. -/
def nextShed (l : List Nat) (c : Nat) : Nat := ((l.find? (c < ·)).orElse fun _ => l.head?).getD 0

/-- The shed outputs show the clusters shedding. -/
def Dev.showShed (d : Dev) : Dev :=
  (d.emit (.pin .shedReq 0 (b2n !d.pow.shedding.isEmpty))).emit (.pin .shedCluster 0 d.pow.shedCur)

/-- A cluster's shed request is asserted. -/
def Dev.shedOn (d : Dev) (c : Nat) : Dev :=
  if d.pow.shedding.contains c then d
  else
    let cur := if d.pow.shedding.isEmpty then c else d.pow.shedCur
    let l := insertBy (fun a b => decide (a < b)) c d.pow.shedding
    Dev.showShed { d with pow := { d.pow with shedding := l, shedCur := cur } }

/-- A cluster's shed request is released. -/
def Dev.shedOff (d : Dev) (c : Nat) : Dev :=
  if !d.pow.shedding.contains c then d
  else
    let l := d.pow.shedding.filter (· != c)
    let cur := if d.pow.shedCur = c then nextShed l c else d.pow.shedCur
    Dev.showShed { d with pow := { d.pow with shedding := l, shedCur := cur } }

/-- At a tick shed_cluster moves to the next shedding cluster (R659). -/
def Dev.rotateShed (d : Dev) : Dev :=
  if d.pow.shedding.isEmpty then d
  else
    let cur := nextShed d.pow.shedding d.pow.shedCur
    if cur = d.pow.shedCur then d else Dev.showShed { d with pow := { d.pow with shedCur := cur } }

/-- A write to `ShedCmd` (R171, R177). -/
def Dev.shedAns (d : Dev) (v : Nat) : Ans :=
  let c := field v 3 0
  if c ≥ d.cfg.clusters then fail d .range
  else if !d.on 0x2400_00 then fail d .state
  else ok (if v.testBit 7 then d.shedOn c else d.shedOff c)

/-- SHED_ASSERT (R171). -/
def execShedAssert (l : LeafId) (e : Env) (c : Nat) (s : State) : Host.Outcome State Fault Refusal :=
  s.onLeaf l fun d => d.serveWrite e 0x2409 0 (128 + c % 16) fun d v _ => d.shedAns v

/-- SHED_RELEASE (R171). -/
def execShedRelease (l : LeafId) (e : Env) (c : Nat) (s : State) : Host.Outcome State Fault Refusal :=
  s.onLeaf l fun d => d.serveWrite e 0x2409 0 (c % 16) fun d v _ => d.shedAns v

/-! ### Regulator failure -/

/-- The voltage sensors of regions that satisfy `p`. -/
def Dev.sensorsOf (d : Dev) (p : Nat → Bool) : List Nat :=
  (List.range d.cfg.voltRegions.length).filter fun v => p (d.cfg.voltRegions.getD v 0)

/-- The lower of two minima with their stamps; the first where they are equal. -/
def lowerOf (a b : Nat × Nat) : Nat × Nat := if b.1 < a.1 then b else a

/-- The lowest `MinV` among sensors, with its stamp, nothing re-armed (R166). -/
def Dev.lowestMinV (d : Dev) (vs : List Nat) : Nat × Nat :=
  (vs.map fun v => (d.get (key (0x2410 + v) 2), d.pow.runStamp.getD v 0)).foldl lowerOf (0xFFFFFFFF, 0)

/-- The lowest valid reading of this tick among sensors. -/
def Dev.lowestNow (d : Dev) (vs : List Nat) : Nat × Nat :=
  (vs.filterMap fun v => ((d.pow.volts[v]?).getD none).map (·, d.stamp)).foldl lowerOf (0xFFFFFFFF, 0)

/-- The regulator-fault input of a region shows at the Fault objects. -/
def Dev.setFault (d : Dev) (r : Nat) (b : Bool) : Dev :=
  let k := key 0x2405 (if r < 32 then 5 else 6)
  d.set k (putBit (d.get k) (r % 32) b)

/-- The payload of a REG_FAULT or REG_CLEAR record (R216). -/
def regPayload (cluster second minV stamp : Nat) : Bytes :=
  leBytes 1 cluster ++ leBytes 1 second ++ zeros 2 ++ leBytes 4 minV ++ leBytes 8 stamp

/-- A fault begins or goes on an episode of a cluster (or of a region without a gate). -/
def Dev.openEpisode (d : Dev) (u : Nat) (vs : List Nat) : Dev :=
  if d.pow.episodes.any (·.unit = u) then d.modEpisode u fun x => { x with clearAt := none }
  else
    let (v, t) := d.lowestNow vs
    let x : Episode := { unit := u, first := d.stamp, minV := v, minStamp := t }
    { d with pow := { d.pow with episodes := d.pow.episodes ++ [x] } }

/-- A regulator-fault input asserts on a leaf with a gate (R166). -/
def Dev.clusterFault (d : Dev) (r : Nat) : Dev :=
  let c := d.clusterOf r
  let vs := d.sensorsOf (d.regionsOf c).contains
  let d := (d.set (key (0x2490 + c) 4) 1).flag 0x2401 1
  let d := (d.openEpisode c vs).denyAll (fun q => d.clusterOf q.region = c)
  let (v, t) := d.lowestMinV vs
  let d := d.record .regFault d.stamp (regPayload c r v t)
  if d.on 0x2400_00 then d else d.shedOn c

/-- A regulator-fault input asserts on a leaf without a gate (R172). -/
def Dev.regionFault (d : Dev) (r : Nat) : Dev :=
  let vs := d.sensorsOf (· = r)
  let d := (d.flag 0x2401 1).openEpisode r vs
  let (v, t) := d.lowestMinV vs
  d.record .regFault d.stamp (regPayload (0x80 + r) r v t)

/-- A regulator-fault input asserts at a tick (R166, R172, R220). -/
def Dev.assertFault (d : Dev) (r : Nat) : Dev :=
  if r ≥ d.cfg.powerRegions || d.faulted r then d
  else
    let d := (d.setFault r true).always 0x1D 1
    let d := if d.cfg.inrushGate then d.clusterFault r else d.regionFault r
    (d.snapshot .regFault d.stamp).refreshTest

/-- REG_FAULT (R166, R172, R220); in reset and until the first tick after it, region_off follows the input (R636). -/
def execRegFault (l : LeafId) (r : Nat) (s : State) : Host.Outcome State Fault Refusal :=
  s.onHeld (.leaf l) fun d =>
    if d.boot.held || d.boot.first then (if r < d.cfg.powerRegions then d.emit (.pin .regionOff r 1) else d)
    else d.assertFault r

/-- CARRY_TIME_EXPIRED (R168). -/
def execCarryTimeExpired (l : LeafId) (c : Nat) (s : State) : Host.Outcome State Fault Refusal :=
  s.onLeaf l fun d =>
    match d.pow.episodes.find? (·.unit = c) with
    | none => d
    | some x =>
      if !d.cfg.inrushGate || x.carried || d.stamp < x.first + d.get 0x2405_02 then d
      else
        let d := d.modEpisode c fun x => { x with carried := true }
        if d.load c * 100 ≥ d.get 0x2405_03 * d.capacity c then
          let (d, n) := d.darkenFaulted c
          d.flagIf (n != 0) 0x2401 2
        else d

/-- A cluster leaves DEGRADED (R170). -/
def Dev.clearCluster (d : Dev) (x : Episode) : Dev :=
  let c := x.unit
  let dark := (d.regionsOf c).filter d.dark
  let d := dark.foldl (fun d r => (d.setB (key (0x2450 + r) 4) false).emit (.pin .regionOff r 0)) d
  let d := d.set (key (0x2490 + c) 4) 0
  let d := if d.on 0x2400_00 then d else d.shedOff c
  d.record .regClear d.stamp (regPayload c x.darked x.minV x.minStamp)

/-- REG_CLEAR (R170, R172): at a current sample after `RegClearTime` without a fault; without a gate after 1 ms. -/
def execRegClear (l : LeafId) (c : Nat) (s : State) : Host.Outcome State Fault Refusal :=
  s.onLeaf l fun d =>
    match d.pow.episodes.find? (·.unit = c) with
    | none => d
    | some x =>
      let due (t : Nat) : Bool := x.clearAt.any (d.stamp ≥ · + t)
      let rest := { d with pow := { d.pow with episodes := d.pow.episodes.filter (·.unit != c) } }
      if d.cfg.inrushGate then
        if due (d.get 0x2405_04) && d.pow.curTick = some d.time.tick then rest.clearCluster x else d
      else if due 1000000 then rest.record .regClear d.stamp (regPayload (0x80 + c) 0 x.minV x.minStamp)
      else d

/-- At a tick the fault inputs that have fallen show so, and an episode whose inputs have all fallen begins to clear;
the episode's lowest reading follows this tick's (R166, R170, R172). -/
def Dev.tickEpisodes (d : Dev) (level : BitVec 64) : Dev :=
  let d := (List.range d.cfg.powerRegions).foldl (fun d r =>
    if d.faulted r && !level.getLsbD r then d.setFault r false else d) d
  let mine (u r : Nat) : Bool := if d.cfg.inrushGate then d.clusterOf r = u else r = u
  d.pow.episodes.foldl (fun d x =>
    let asserted := (List.range d.cfg.powerRegions).any fun r => mine x.unit r && d.faulted r
    let low := d.lowestNow (d.sensorsOf (mine x.unit))
    d.modEpisode x.unit fun x =>
      let m := lowerOf (x.minV, x.minStamp) low
      { x with minV := m.1, minStamp := m.2
               clearAt := if asserted then none else some (x.clearAt.getD d.stamp) }) d

/-! ### The end of a warning -/

/-- POWER_FAIL_RECOVER (R176): the input has been low for `PfRecoverTime`. -/
def execPowerFailRecover (u : UnitId) (s : State) : Host.Outcome State Fault Refusal :=
  s.on u fun d =>
    if d.pfActive && d.pow.pfLowSince.any (d.stamp ≥ · + d.get 0x2407_03) then d.setB 0x2407_01 false else d

end Sys2Proof.Machine
end

