-- ==== Sys2Proof/Machine/Frames.lean ====
section
/-! DEFINITION. Frame schedules, the shadow bank, the building of frames and the leaf ladder (chapter 07), and the hub's
encoder (chapter 08). -/

namespace Sys2Proof.Machine

open Sys2Proof

/-! ### Schedules -/

/-- A schedule of a leaf. -/
def Dev.sched (d : Dev) (s : Nat) : Sched := (d.frm.scheds[s]?).getD {}

/-- A schedule changed. -/
def Dev.modSched (d : Dev) (s : Nat) (f : Sched → Sched) : Dev :=
  { d with frm := { d.frm with scheds := d.frm.scheds.modify s f } }

/-- An object of a schedule. -/
def schedKey (s sub : Nat) : Nat := key (0x2701 + s) sub

/-- Is a schedule in the class ARCHIVE? -/
def Dev.archive (d : Dev) (s : Nat) : Bool := d.get (schedKey s 6) = 1

/-- T_k of a schedule (R243). -/
def Dev.windowTime (d : Dev) (s k : Nat) : Nat := d.get (schedKey s 3) + 8 * d.get (schedKey s 2) * k

/-- The windows of a schedule that close in this tick (R96, R243, R245): none, or the highest and whether it is not the
only one. -/
def Dev.dueWindow (d : Dev) (s : Nat) : Option (Nat × Bool) :=
  let start := d.get (schedKey s 3)
  let p := 8 * max 1 (d.get (schedKey s 2))
  let low := max (8 * d.time.since) (d.sched s).from_
  if d.time.dead || d.stamp < start || d.stamp ≤ low then none
  else
    let k := (d.stamp - start) / p
    if start + p * k ≤ low then none else some (k, k ≥ 1 && start + p * (k - 1) > low)

/-- The frames that a leaf holds: schedule and build tick of each, and whether it waits (R268, R269). -/
def Dev.heldFrames (d : Dev) : List (Nat × Nat × Bool) :=
  (List.range 4).flatMap (fun s => (d.sched s).waiting.map fun f => (s, f.built, true)) ++
  (d.queue 0).map (fun x => (x.sched, x.built, true)) ++
  (match d.arb.sending with
   | some (0, _) => d.arb.line.map fun x => (x.sched, x.built, false)
   | _ => [])

/-- Does a schedule hold a waiting frame (R268)? -/
def Dev.holdsWaiting (d : Dev) (s : Nat) : Bool := d.heldFrames.any fun f => f.1 = s && f.2.2

/-- The sum of the rates of the enabled schedules with one more (R267). -/
def Dev.frameRate (d : Dev) (extra : Option Nat) : Nat :=
  ((List.range 4).filter fun s => d.on (schedKey s 1) || extra = some s).foldl (fun n s =>
    let p := max 1 (d.get (schedKey s 2))
    n + (d.get (schedKey s 4) * 125 + p - 1) / p) 0

/-- A write to a schedule's `Enable` (R245, R246, R267). -/
def Dev.enableAns (d : Dev) (s v : Nat) : Ans :=
  let active := (d.sched s).active
  if v = 0 then ok (if active then d.modSched s fun x => { x with stopping := true } else d)
  else if active then ok (d.modSched s fun x => { x with stopping := false })
  else if d.frameRate (some s) > d.get 0x2700_02 then fail d .state
  else
    let start := d.get (schedKey s 3)
    let closed := if d.stamp < start then none else some ((d.stamp - start) / (8 * max 1 (d.get (schedKey s 2))))
    ok ((d.set (schedKey s 1) 1).modSched s fun x =>
      { x with active := true, stopping := false, from_ := d.stamp, prevLatch := none, prevWin := closed, latch := none
               rebind := none, vmin := [], cmax := [] })

/-- SCHEDULE_ENABLE (R245). -/
def execScheduleEnable (l : LeafId) (e : Env) (sc : Nat) (s : State) : Host.Outcome State Fault Refusal :=
  s.onLeaf l fun d => if sc ≥ 4 then d else d.serveWrite e (0x2701 + sc) 1 1 fun d v _ => d.enableAns sc v

/-- SCHEDULE_DISABLE (R246). -/
def execScheduleDisable (l : LeafId) (e : Env) (sc : Nat) (s : State) : Host.Outcome State Fault Refusal :=
  s.onLeaf l fun d => if sc ≥ 4 then d else d.serveWrite e (0x2701 + sc) 1 0 fun d v _ => d.enableAns sc v

/-- A write to `Rebind` (R265, R266). -/
def Dev.rebindAns (d : Dev) (s v : Nat) : Ans :=
  if !d.on (schedKey s 1) then fail d .state
  else if (d.sched s).rebind.isSome then fail d .busy
  else if d.windowTime s (field v 63 32) ≤ d.stamp then fail d .state
  else ok (d.modSched s fun x => { x with rebind := some (field v 63 32, field v 31 24, field v 23 16, field v 11 0) })

/-- REBIND (R266). -/
def execRebind (l : LeafId) (e : Env) (sc : Nat) (value : Word) (s : State) : Host.Outcome State Fault Refusal :=
  s.onLeaf l fun d =>
    if sc ≥ 4 then d else d.serveWrite e (0x2701 + sc) 0x0D value.toNat fun d v _ => d.rebindAns sc v

/-! ### The shadow bank -/

/-- Is a tap STALE (R252)? -/
def Dev.staleTap (d : Dev) (t : Nat) : Bool := (d.regionAt (d.tapDesc t).region).stopped

/-- A value of the always-on set as it stood before this tick's sampling (R80, R244). -/
def Dev.alwaysAt (d : Dev) (sub : Nat) : Nat := (lookupKey sub d.frm.aoPre).getD (d.value 0x2108 sub)

/-- The bits of the taps of which `p` holds, as bytes: bit t of byte t / 8. -/
def Dev.tapBits (d : Dev) (p : Nat → Bool) : Nat :=
  (List.range d.tap.taps.length).foldl (fun n t => if p t then setBit n t else n) 0

/-- Every tap is scanned, as a latch or a frame asks (R132). -/
def Dev.scanTaps (d : Dev) : Dev := (List.range d.tap.taps.length).foldl (fun (d : Dev) t => d.scanTap t) d

/-- A bank latch (R132, R250, R252): one a tick; a one-shot gives it its cause. -/
def Dev.bankLatch (d : Dev) (cause : Nat) : Dev :=
  if d.frm.bankTick = some d.time.tick then (if cause = 1 then d.set 0x2708_04 1 else d)
  else
    let d := d.scanTaps
    let d := { d with frm := { d.frm with
      bankTick := some d.time.tick
      shadow := d.tap.taps.map fun (t : Tap) => (List.range 32).map t.counter
      shadowAo := (List.range 64).map fun n => d.alwaysAt (n + 1) } }
    let d := ((d.addMod 0x2708_02 1).set 0x2708_03 d.stamp).set 0x2708_04 cause
    let d := d.setB 0x2708_05 d.uncertain
    let stale := d.tapBits d.staleTap
    (List.range 8).foldl (fun d n => d.set (key 0x2708 (6 + n)) (field stale (32 * n + 31) (32 * n))) d

/-- A write to `SnapshotAt` (R249). -/
def Dev.snapshotAtAns (d : Dev) (t : Nat) : Ans :=
  if t % 8 != 0 then fail d .range
  else if d.frm.oneShot.isSome then fail d .busy
  else if t ≤ d.stamp then fail d .state
  else ok { d with frm := { d.frm with oneShot := some t } }

/-- SNAPSHOT_AT (R249). -/
def execSnapshotAt (l : LeafId) (e : Env) (t : Nat) (s : State) : Host.Outcome State Fault Refusal :=
  s.onLeaf l fun d => d.serveWrite e 0x2708 1 t fun d v _ => d.snapshotAtAns v

/-- ONE_SHOT_LATCH (R250): at the first tick that reaches the instant (R96). -/
def execOneShotLatch (l : LeafId) (s : State) : Host.Outcome State Fault Refusal :=
  s.onLeaf l fun d =>
    match d.frm.oneShot with
    | some t => if d.stamp < t || d.time.dead then d
                else Dev.bankLatch { d with frm := { d.frm with oneShot := none } } 1
    | none => d

/-! ### The latch -/

/-- The SENSORS body (R261, R262) with a schedule's minima and maxima. -/
def Dev.sensorsBody (d : Dev) (x : Sched) : Bytes :=
  let mask (n : Nat) (p : Nat → Bool) : Nat := (List.range n).foldl (fun m i => if p i then setBit m i else m) 0
  let regions := d.cfg.powerRegions
  let volts := d.cfg.voltRegions.length
  let temps := d.cfg.tempRegions.length
  let pendingIn (r : Nat) : Bool := d.pow.pend.any (·.region = r)
  leBytes 1 (d.get 0x2403_01) ++ leBytes 1 (d.get 0x2403_02) ++ leBytes 1 (d.get 0x2403_03) ++
  leBytes 1 (d.get 0x2403_04) ++ leBytes 2 (mask d.cfg.clusters d.degraded) ++ zeros 2 ++
  leBytes 8 (mask regions d.dark) ++ leBytes 8 (mask regions pendingIn) ++
  (List.range volts).flatMap (fun v => leBytes 4 (x.vmin.getD v 0xFFFFFFFF)) ++
  (List.range regions).flatMap (fun r => leBytes 4 (x.cmax.getD r 0)) ++
  (List.range temps).flatMap (fun n => leBytes 2 (d.get (key (0x24A0 + n) 1)))

/-- The SLOTS body (R261): taps set in `SlotTaps`. -/
def Dev.slotsBody (d : Dev) (s : Nat) : Bytes :=
  let map := leNat (d.blobValue (0x2701 + s) 8)
  ((List.range d.tap.taps.length).filter map.testBit).flatMap fun t =>
    leBytes 1 t ++ zeros 7 ++ (List.range 6).flatMap fun c => leBytes 8 ((d.tapAt t).counter c)

/-- The COUNTERS body (R261): the entries of `CounterList`. -/
def Dev.countersBody (d : Dev) (s : Nat) : Bytes :=
  let list := d.blobValue (0x2701 + s) 9
  let entries := (List.range (list.length / 2)).map fun n => natAt list (2 * n) 2
  leBytes 4 (crc32c list) ++ leBytes 2 entries.length ++ zeros 2 ++
    entries.flatMap fun e => leBytes 8 ((d.tapAt (field e 12 5)).counter (field e 4 0))

/-- The payload of a GROUP_CHANGE record (R453). -/
def groupPayload (group gen change at_ leaf count : Nat) : Bytes :=
  leBytes 2 group ++ leBytes 1 gen ++ leBytes 1 change ++ leBytes 4 at_ ++ leBytes 4 leaf ++ leBytes 2 count ++ zeros 2

/-- The leaf's record of a Rebind that applied: JOIN of the new group, or LEAVE of the old one (R453, log 111). -/
def Dev.rebound (d : Dev) (s group gen at_ : Nat) : Dev :=
  d.record .groupChange d.now
    (if group != 0 then groupPayload group gen 5 at_ d.source 1
     else groupPayload (d.get (schedKey s 0x0A)) (d.get (schedKey s 0x0B)) 6 at_ d.source 1)

/-- A pending Rebind applies at the latch of its window (R266), recorded (R453); the stream starts anew (R297). -/
def Dev.applyRebind (d : Dev) (s k : Nat) : Dev :=
  match (d.sched s).rebind with
  | some (at_, part, gen, group) =>
    if k < at_ then d
    else
      let d := d.rebound s group gen at_
      let d := ((d.set (schedKey s 0x0A) group).set (schedKey s 0x0B) gen).set (schedKey s 0x0C) part
      d.modSched s fun x => { x with rebind := none, restart := true }
  | none => d

/-- A schedule takes its latch of window `k` (R132, R244, R250, R252). -/
def Dev.takeLatch (d : Dev) (s k : Nat) (merged : Bool) : Dev :=
  let d := (d.applyRebind s k).scanTaps
  let d := d.set (schedKey s 0x0F) k
  let stale := d.tapBits d.staleTap
  let wrapped := d.tapBits fun t => (d.get (key (0x2300 + t) 0x0B)).testBit 0
  let lt : FrameLatch := {
    window := k, stamp := d.stamp, stepped := merged || d.stamp != d.windowTime s k, merged := merged
    uncertain := d.uncertain, stale := stale != 0, wrap := (d.get 0x2101_00).testBit 0
    group := d.get (schedKey s 0x0A), gen := d.get (schedKey s 0x0B), part := d.get (schedKey s 0x0C)
    always := (List.range 64).flatMap fun n => leBytes 8 (d.alwaysAt (n + 1))
    status := leBytes 32 stale ++ leBytes 32 wrapped
    sensors := d.sensorsBody (d.sched s), slots := d.slotsBody s, counters := d.countersBody s }
  let d := d.modSched s fun x => { x with latch := some lt }
  if d.on (schedKey s 0x0E) then d.bankLatch (0x10 + s) else d

/-- LATE (R269): at the latch that follows a lead window, a frame built no later than its frame is still held. -/
def Dev.noteLate (d : Dev) : Dev :=
  match d.frm.ladder.built with
  | some b =>
    let late := d.heldFrames.any fun f => f.2.1 ≤ b
    { d with frm := { d.frm with ladder := { d.frm.ladder with late := d.frm.ladder.late || late } } }
  | none => d

/-- What a schedule does at the tick at which its window `k` closes (R246, R268, R271). -/
def Dev.latchSched (d : Dev) (s k : Nat) (merged : Bool) : Dev :=
  let x := d.sched s
  let d := d.modSched s fun x => { x with lastTick := some d.time.tick }
  if x.stopping then
    (d.set (schedKey s 1) 0).modSched s fun x => { x with active := false, stopping := false, rebind := none }
  else
    let d := if s = d.get 0x2700_03 then d.noteLate else d
    let d :=
      if d.archive s && d.frm.ladder.step ≥ 1 then d
      else if d.holdsWaiting s then (d.inc (schedKey s 0x12)).flag 0x2709 1
      else d.takeLatch s k merged
    if d.doubled s && k % 2 = 1 then d else d.modSched s fun x => { x with vmin := [], cmax := [] }

/-- LATCH (R244): once at each latch tick of an enabled schedule. -/
def execLatch (l : LeafId) (sc : Nat) (s : State) : Host.Outcome State Fault Refusal :=
  s.onLeaf l fun d =>
    let x := d.sched sc
    if !x.active || x.lastTick = some d.time.tick then d
    else match d.dueWindow sc with
    | some (k, merged) => d.latchSched sc k merged
    | none => d

/-! ### The leaf ladder -/

/-- The ladder changed. -/
def Dev.modLadder (d : Dev) (f : Ladder → Ladder) : Dev := { d with frm := { d.frm with ladder := f d.frm.ladder } }

/-- The payload of a LEVELSAT record (R273). -/
def levelPayload (level step dir causes window skipped mode : Nat) : Bytes :=
  leBytes 1 level ++ leBytes 1 step ++ leBytes 1 dir ++ leBytes 1 causes ++ leBytes 4 window ++ leBytes 4 skipped ++
  leBytes 1 mode ++ zeros 3

/-- LEVELSAT is set and recorded (R273). -/
def Dev.levelSat (d : Dev) (dir window : Nat) : Dev :=
  let skipped := (List.range 4).foldl (fun n s => n + d.get (schedKey s 0x12)) 0
  (d.flag 0x2709 0).record .levelSat d.stamp
    (levelPayload 1 d.frm.ladder.step dir d.frm.ladder.causes window skipped (d.get 0x2700_01))

/-- The leaf ladder changes to a step (R270, R274). -/
def Dev.toStep (d : Dev) (step window : Nat) : Dev :=
  let old := d.frm.ladder.step
  if step = old then d
  else
    let d := (d.modLadder fun x => { x with step := step }).always 0x2B 1
    if old < step then (d.inc 0x270B_02).levelSat 1 window else (d.inc 0x270B_03).levelSat 2 window

/-- The decision on the lead window that precedes the frame now built (R269, R270, R273). -/
def Dev.decideLadder (d : Dev) (window : Nat) : Dev :=
  let x := d.frm.ladder
  let host := d.get 0x2700_01 = 1
  let causes := b2n x.late + 2 * b2n x.oversize + 4 * b2n x.backlog
  let d :=
    if x.built.isNone then d
    else if causes = 0 then
      let d := d.modLadder fun x => { x with sat := 0, clear := x.clear + 1, causes := 0, satTick := none }
      if d.frm.ladder.clear < d.get 0x2700_05 then d
      else
        let d := d.modLadder fun x => { x with clear := 0 }
        if host then d else d.toStep (x.step - 1) window
    else
      let d := ((d.flagIf x.late 0x2709 2).flagIf x.oversize 0x2709 3).flagIf x.backlog 0x2709 4
      let d := (d.inc 0x270B_01).modLadder fun x =>
        { x with clear := 0, sat := x.sat + 1, causes := x.causes ||| causes, satTick := some d.time.tick }
      if d.frm.ladder.sat < d.get 0x2700_04 then d
      else
        let d := if host then d.levelSat 3 window else d.toStep (min 3 (x.step + 1)) window
        d.modLadder fun x => { x with sat := 0, causes := 0 }
  match d.frm.ladder.cmd with
  | some c => (if host then d.toStep c window else d).modLadder fun x => { x with cmd := none }
  | none => d

/-- A write to `DegradeCmd` (R274). -/
def Dev.degradeAns (d : Dev) (v : Nat) : Ans :=
  if d.get 0x2700_01 != 1 then fail d .state
  else if v > 3 then fail d .range
  else ok (d.modLadder fun x => { x with cmd := some v })

/-- DEGRADE_CMD (R274). -/
def execDegradeCmd (l : LeafId) (e : Env) (value : Nat) (s : State) : Host.Outcome State Fault Refusal :=
  s.onLeaf l fun d => d.serveWrite e 0x2700 7 value fun d v _ => d.degradeAns v

/-! ### Building a frame -/

/-- A section: type, whether it carries over, and its padded body (R260). -/
structure Section where
  type : Nat
  cut : Bool := false
  body : Bytes

/-- The bytes of a section (R260). -/
def Section.bytes (x : Section) : Bytes :=
  let n := alignUp x.body.length 8
  leBytes 1 x.type ++ leBytes 1 (b2n x.cut) ++ zeros 2 ++ leBytes 4 n ++ bytesAt x.body 0 n

/-- The bytes of a command-log record (R137). -/
def LogRec.bytes (r : LogRec) : Bytes :=
  leBytes 4 r.stamp ++ leBytes 2 r.tag ++ leBytes 1 r.tap ++ leBytes 1 r.kind ++ leBytes 4 r.value ++ leBytes 4 r.aux ++
  match r.slots with
  | some (a, b, c, e) => leBytes 4 a ++ leBytes 4 b ++ leBytes 4 c ++ leBytes 4 e
  | none => []

/-- Is a record an ARRIVAL (R137, R257)? -/
def LogRec.isArrival (r : LogRec) : Bool := r.kind % 16 = 3

/-- The first records of the ring that `mine` selects, as many whole ones as `room` bytes and `most` records allow;
those taken, and the ring without them. -/
def takeLog (mine : LogRec → Bool) : (room most : Nat) → List LogRec → List LogRec × List LogRec
  | _, _, [] => ([], [])
  | room, most, r :: rs =>
    if !mine r then
      let (t, k) := takeLog mine room most rs
      (t, r :: k)
    else if most = 0 || r.size > room then ([], r :: rs)
    else
      let (t, k) := takeLog mine (room - r.size) (most - 1) rs
      (r :: t, k)

/-- The frame header (R259). -/
structure FrameHead where
  sched  : Nat
  flags  : Nat
  leaf   : Nat
  group  : Nat
  gen    : Nat
  part   : Nat
  seq    : Nat
  window : Nat
  stamp  : Nat
  ticks  : Nat
  step   : Nat
  count  : Nat
  prev   : Nat

/-- A frame of a header and its sections (R259, R260). -/
def FrameHead.frame (h : FrameHead) (sections : Bytes) : Bytes :=
  leBytes 1 1 ++ leBytes 1 (h.sched % 4) ++ leBytes 2 h.flags ++ leBytes 4 (h.leaf % 2 ^ 20) ++
  leBytes 2 (h.group % 2 ^ 12) ++ leBytes 1 h.gen ++ leBytes 1 h.part ++ leBytes 4 h.seq ++ leBytes 4 h.window ++
  leBytes 4 h.stamp ++ leBytes 4 h.ticks ++ leBytes 4 (40 + sections.length) ++ leBytes 1 h.step ++
  leBytes 1 h.count ++ zeros 2 ++ leBytes 4 h.prev ++ sections

/-- The fixed sections of a frame (R255, R260, R261, R271); ARRIVALS is given. -/
def FrameLatch.fixed (x : FrameLatch) (sel : Nat) (summary : Bool) (arrivals : Option Section) : List Section :=
  [{ type := 1, body := x.always }] ++
  (if x.stale || x.wrap then [{ type := 2, body := x.status }] else []) ++ arrivals.toList ++
  (if sel.testBit 4 then [{ type := 4, body := x.sensors }] else []) ++
  (if sel.testBit 5 && !summary then [{ type := 5, body := x.slots }] else []) ++
  (if sel.testBit 6 && !summary then [{ type := 6, body := x.counters }] else [])

/-- The bytes of sections. -/
def sectionBytes (l : List Section) : Bytes := l.flatMap Section.bytes

/-- OVERSIZE of a frame is noted for the lead window that it counts in (R269). -/
def Dev.noteOversize (d : Dev) : Dev :=
  d.modLadder fun x => if x.built = some d.time.tick then { x with oversize := true } else { x with overNext := true }

/-- A frame is built of a latch (R254 to R260, R270, R271). -/
def Dev.buildFrame (d : Dev) (s : Nat) (lt : FrameLatch) : Dev :=
  let x := d.sched s
  let lead := s = d.get 0x2700_03
  let budget := d.get (schedKey s 4)
  let sel := d.get (schedKey s 7)
  let below := d.windowTime s lt.window
  let step := d.frm.ladder.step
  let arr (r : LogRec) : Bool := r.isArrival && r.stamp < below
  let cmd (r : LogRec) : Bool := !r.isArrival && r.stamp < below
  let (arrs, log) := if lead && sel.testBit 3 then takeLog arr (64 * 16) 64 d.tap.log else ([], d.tap.log)
  let arrOver := lead && sel.testBit 3 && log.any arr
  let arrivals := if lead && sel.testBit 3 then
      some { type := 3, cut := arrOver, body := arrs.flatMap LogRec.bytes : Section } else none
  let wide := step < 3 && 40 + (sectionBytes (lt.fixed sel false arrivals)).length > budget
  let summary := step ≥ 3 || wide
  let fixed := lt.fixed sel summary arrivals
  let used := 40 + (sectionBytes fixed).length
  let logging := lead && sel.testBit 7 && !summary && used + 8 ≤ budget
  let (cmds, log) := if logging then takeLog cmd (budget - used - 8) log.length log else ([], log)
  let cmdOver := lead && sel.testBit 7 && !summary && log.any cmd
  let sections := fixed ++
    (if logging then [{ type := 7, cut := cmdOver, body := cmds.flatMap LogRec.bytes : Section }] else [])
  let first := match x.prevLatch with
    | some p => lt.stamp > p + 2 ^ 31
    | none => true
  let prev := if first then 0 else ft32 (x.prevLatch.getD 0)
  let gap := lt.merged || ((x.prevWin.map (· + 1)).getD 0) < lt.window
  let resync := x.resetAt.any (· < d.time.tick)
  let flags := b2n lt.uncertain + 2 * b2n lt.stale + 4 * b2n (d.doubled s) + 8 * b2n summary +
    16 * b2n (cmdOver || arrOver) + 32 * b2n lt.stepped + 64 * b2n gap + 128 * b2n lt.wrap +
    256 * b2n (d.frm.ladder.satTick = some d.time.tick) + 512 * b2n first + 1024 * b2n (d.archive s)
  let seq := nextSeq (d.get (schedKey s 0x10))
  let head : FrameHead := {
    sched := s, flags := flags, leaf := d.address, group := lt.group, gen := lt.gen, part := lt.part, seq := seq
    window := lt.window, stamp := ft32 lt.stamp, ticks := (ft32 lt.stamp + 2 ^ 32 - prev) % 2 ^ 32 / 8
    step := step, count := sections.length, prev := prev }
  let raw := head.frame (sectionBytes sections)
  let built : BuiltFrame := { built := d.time.tick, restart := first || x.restart || resync, raw := raw }
  let d := (d.set (schedKey s 0x10) seq).inc (schedKey s 0x11)
  let d := { d with tap := { d.tap with log := log } }
  let d := d.modSched s fun x =>
    { x with prevLatch := some lt.stamp, prevWin := some lt.window, waiting := x.waiting ++ [built], restart := false
             resetAt := x.resetAt.filter (d.time.tick ≤ ·) }
  let d := if wide then d.noteOversize else d
  if lead then d.modLadder fun x => { x with backlog := (cmdOver || arrOver) && logFill log > 32768 } else d

/-- At the build tick of the lead schedule: the decision on the window before, then a new window is watched (R269). -/
def Dev.leadBuild (d : Dev) (window : Nat) : Dev :=
  (d.decideLadder window).modLadder fun x =>
    { x with built := some d.time.tick, late := false, backlog := false, oversize := x.overNext, overNext := false }

/-- FRAME_BUILD (R254, R258, R271): one tick after the latch; a doubled schedule builds even windows only, and a leaf in
Quickset mode builds none (R610). -/
def execFrameBuild (l : LeafId) (sc : Nat) (s : State) : Host.Outcome State Fault Refusal :=
  s.onLeaf l fun d =>
    match (d.sched sc).latch with
    | none => d
    | some lt =>
      if d.stamp < lt.stamp + 8 then d
      else
        let d := d.modSched sc fun x => { x with latch := none }
        if d.pfActive || d.quickset then d
        else
          let d := if sc = d.get 0x2700_03 then d.leadBuild lt.window else d
          if (d.archive sc && d.frm.ladder.step ≥ 1) || (d.doubled sc && lt.window % 2 = 1) then d
          else d.buildFrame sc lt

/-! ### The encoder -/

/-- The encoder's context of a schedule (R277). -/
def Dev.encoder (d : Dev) (s : Nat) : Ctx := (d.frm.encoders[s]?).getD { role := 1 }

/-- The FRAMES queue takes a coded frame: the lowest `Priority` first, then the earliest build tick, after frames that
have been cut (R310, R319). -/
def queueFrame (x : Xfer) : List Xfer → List Xfer
  | [] => [x]
  | y :: ys =>
    if y.cuts > 0 || y.prio < x.prio || (y.prio = x.prio && y.built ≤ x.built) then y :: queueFrame x ys
    else x :: y :: ys

/-- The oldest built frame of a schedule is coded and handed to the arbiter (R296 to R298, R308). -/
def Dev.encodeNext (d : Dev) (s : Nat) : Dev :=
  match (d.sched s).waiting with
  | [] => d
  | f :: rest =>
    let c := d.encoder s
    let host := d.get 0x2800_00 = 1
    let cont := !host && !f.restart && c.phase = 1 && !c.flags.testBit 3
    let count := if cont then c.frames + 1 else 1
    let r := encodeFrame c f.raw cont (count ≥ d.get 0x2801_01) (d.on 0x2801_02) (!host)
    let d := { d with frm := { d.frm with encoders := d.frm.encoders.set s r.ctx } }
    let d := d.modSched s fun x => { x with waiting := rest }
    let d := if r.raw then d.inc 0x2802_02 else d.inc 0x2802_01
    let d := (d.add 0x2802_03 f.raw.length).add 0x2802_04 r.bytes.length
    let d := if cont then d else d.inc 0x2802_05
    let x : Xfer := { cls := USrc.frames.cls, bytes := r.bytes, sched := s, archive := d.archive s
                      prio := d.get (schedKey s 5), built := f.built }
    d.setQueue 0 (queueFrame x (d.queue 0))

/-- FRAME_ENCODE (R296). -/
def execFrameEncode (l : LeafId) (sc : Nat) (s : State) : Host.Outcome State Fault Refusal :=
  s.onLeaf l fun d => if d.pfActive then d else d.encodeNext sc

/-- A write to `StreamReset` (R297). -/
def Dev.streamResetAns (d : Dev) (v : Nat) : Ans :=
  ok ((List.range 4).foldl (fun d s =>
    if v.testBit s then d.modSched s fun x => { x with resetAt := x.resetAt ++ [d.time.tick] } else d) d)

/-- STREAM_RESET (R297). -/
def execStreamReset (l : LeafId) (e : Env) (value : Nat) (s : State) : Host.Outcome State Fault Refusal :=
  s.onLeaf l fun d => d.serveWrite e 0x2801 3 value fun d v _ => d.streamResetAns v

/-- Every stream of the encoder starts anew at its next frame (R297). -/
def Dev.restartStreams (d : Dev) : Dev :=
  { d with frm := { d.frm with encoders := d.frm.encoders.map fun c => { c with phase := 0 } } }

end Sys2Proof.Machine
end

