-- ==== Sys2Proof/Machine/Sched.lean ====
section
/-! DEFINITION. The schedulers, shapers and policers of a trunk (chapter 09: R325 to R341). -/

namespace Sys2Proof.Machine

open Sys2Proof

/-! ### The objects of an egress port -/

/-- The scheduler's object index (0x2920 + p; 0x2926 for every Stem port). -/
def schedIndex : EgressId → Nat
  | .pleach p => 0x2920 + p
  | .stem _ => 0x2926

/-- The weights' object index. -/
def weightIndex : EgressId → Nat
  | .pleach _ => 0x2930
  | .stem _ => 0x2931

/-- The index of the shaper of a class (R333). -/
def shaperIndex : EgressId → Nat → Nat
  | .pleach p, c => 0x2940 + 8 * p + c
  | .stem _, c => 0x2970 + c

/-- The weight of a class at a port. -/
def Dev.weight (d : Dev) (g : EgressId) (c : Nat) : Nat := max 1 (d.get (key (weightIndex g) (c + 1)))

/-- The scheduler's Overhead at a port. -/
def Dev.schedOverhead (d : Dev) (g : EgressId) : Nat := d.get (key (schedIndex g) 3)

/-- Is a class eligible at a port (R333, R334)? -/
def Dev.eligible (d : Dev) (g : EgressId) (c : Nat) : Bool :=
  d.get (key (shaperIndex g c) 1) = 0 || (d.egress g).buckets.getD c 0 ≥ 0

/-- A message starts: its shaper's bucket pays for it (R334). -/
def Dev.payShaper (d : Dev) (g : EgressId) (c len : Nat) : Dev :=
  let i := shaperIndex g c
  if d.get (key i 1) = 0 then d
  else d.modEgress g fun e => { e with buckets := e.buckets.modify c (· - 1000 * (len + d.get (key i 3))) }

/-- A class's queue at a port. -/
def Egress.queue (e : Egress) (c : Nat) : List EMsg := (e.queues[c]?).getD []

/-! ### Tags and the DRR states -/

/-- The later of two U32 times by signed difference (R327). -/
def later32 (a b : Nat) : Nat := if 0 < seqDiff 32 b a then b else a

/-- The scheduler of a port is in a state; at a Stem port the most recent change shows at 0x2926 (R332). -/
def Dev.setSched (d : Dev) (g : EgressId) (st : SchedState) : Dev :=
  let d := d.modEgress g fun e => { e with state := st }
  match g with
  | .stem _ => d.set 0x2926_02 st.code
  | .pleach _ => d

/-- A port enters a DRR state (R330): its round starts at the lowest class that holds a message, queued or in transmission. -/
def Dev.enterDrr (d : Dev) (g : EgressId) (st : SchedState) : Dev :=
  let e := d.egress g
  let first := ((List.range 8).find? fun c => c ≥ 1 && (!(e.queue c).isEmpty || d.inTransmission g c e)).getD 1
  let d := if st = .drrFallback then d.inc (key (schedIndex g) 5) else d
  (d.modEgress g fun e => { e with deficit := List.replicate 8 0, visit := first, quantum := false }).setSched g st

/-- A message of class `c` at a place in its queue gets its finish tag, or the port falls back (R327, R330). -/
def Dev.tagMsg (d : Dev) (g : EgressId) (c i : Nat) : Dev :=
  let e := d.egress g
  match (e.queue c)[i]? with
  | none => d
  | some m =>
    if e.state != .wfq || m.tag.isSome || c = 0 then d
    else
      let lastF := e.lastF.getD c 0
      let start := if m.newly then later32 e.v lastF else lastF
      let w := d.weight g c
      let inc := ((m.len + d.schedOverhead g) * 65536 + w - 1) / w
      if inc > 2 ^ 30 || seqDiff 32 (start + inc) e.v > 2 ^ 30 then d.enterDrr g .drrFallback
      else
        let f := (start + inc) % 2 ^ 32
        d.modEgress g fun e =>
          { e with lastF := e.lastF.set c f
                   queues := e.queues.modify c fun q => q.modify i fun m => { m with tag := some f } }

/-- The place of the message that is tagged next in a class: a Stem port tags the head (R327), a Pleach port each message
as its header arrives (R408). -/
def Dev.untagged (d : Dev) (g : EgressId) (c : Nat) : Option Nat :=
  match g with
  | .stem _ => some 0
  | .pleach _ => ((d.egress g).queue c).findIdx? (·.tag.isNone)

/-- WFQ_TAG (R327). -/
def Dev.tagNext (d : Dev) (g : EgressId) (c : Nat) : Dev :=
  match d.untagged g c with
  | some i => d.tagMsg g c i
  | none => d

/-- Every message that is to have a tag by now gets it. -/
def Dev.tagAll (d : Dev) (g : EgressId) : Dev :=
  [1, 2, 3, 4, 5, 6, 7].foldl (fun d c =>
    match g with
    | .stem _ => d.tagNext g c
    | .pleach _ => ((d.egress g).queue c).foldl (fun d _ => d.tagNext g c) d) d

/-- Is an egress port one that exists? -/
def EgressId.ok : EgressId → Bool
  | .pleach p => p < 6
  | .stem n => n < 256

/-- WFQ_TAG (R327). -/
def execWfqTag (g : EgressId) (cls : Nat) (s : State) : Host.Outcome State Fault Refusal :=
  s.onTrunk fun d => if EgressId.ok g && cls < 8 then d.tagNext g cls else d

/-! ### The choice -/

/-- What a class offers: the message's length and tag, and whether it has already been started (Pleach). -/
structure Head where
  len     : Nat
  tag     : Option Nat
  started : Bool := false

/-- The class of 1 to 7 with the smallest finish tag (R327, R328). -/
def smallestTag (heads : List (Nat × Head)) : Option (Nat × Nat) :=
  heads.foldl (fun b x => match x.2.tag with
    | none => b
    | some f => match b with
      | none => some (x.1, f)
      | some (c, g) => if seqDiff 32 f g < 0 then some (x.1, f) else some (c, g)) none

/-- The DRR state of a port: the class visited, whether its quantum has been added, and the deficits. -/
structure Drr where
  visit   : Nat
  quantum : Bool
  deficit : List Nat

/-- What a head costs a deficit: a message in progress has paid (R331, R408). -/
def Head.cost (h : Head) (overhead : Nat) : Nat := if h.started then 0 else h.len + overhead

/-- Up to `n` visits of the DRR round (R331): the class that sends, and the state as it sends. -/
def Drr.visits (weight : Nat → Nat) (overhead : Nat) (holds : Nat → Bool) (head : Nat → Option Head) :
    (n : Nat) → Drr → Option Nat × Drr
  | 0, r => (none, r)
  | n + 1, r =>
    let c := r.visit
    let next (r : Drr) : Drr :=
      { r with visit := if c ≥ 7 then 1 else c + 1, quantum := false
               deficit := if r.quantum && !holds c then r.deficit.set c 0 else r.deficit }
    match head c with
    | none => Drr.visits weight overhead holds head n (next r)
    | some h =>
      let r := if r.quantum then r
        else { r with quantum := true, deficit := r.deficit.modify c (· + weight c) }
      let have_ := r.deficit.getD c 0
      if h.cost overhead ≤ have_ then (some c, { r with deficit := r.deficit.set c (have_ - h.cost overhead) })
      else Drr.visits weight overhead holds head n (next r)

/-- The class that DRR sends (R331): rounds in which no class can send are added up at once. -/
def Drr.choose (r : Drr) (weight : Nat → Nat) (overhead : Nat) (holds : Nat → Bool) (head : Nat → Option Head) :
    Option Nat × Drr :=
  match Drr.visits weight overhead holds head 8 r with
  | (some c, r) => (some c, r)
  | (none, r) =>
    let act := (List.range 8).filterMap fun c => if c = 0 then none else (head c).map fun h => (c, h)
    match act with
    | [] => (none, r)
    | (c0, h0) :: rest =>
      let rounds (c : Nat) (h : Head) : Nat := (h.cost overhead - r.deficit.getD c 0 + weight c - 1) / weight c
      let least := rest.foldl (fun n x => min n (rounds x.1 x.2)) (rounds c0 h0)
      let r := { r with deficit := act.foldl (fun l x => l.modify x.1 (· + (least - 1) * weight x.1)) r.deficit }
      Drr.visits weight overhead holds head 8 r

/-- A port makes its choice (R326, R327, R331): class 0 first. The unit with V or the DRR state moved on. -/
def Dev.choose (d : Dev) (g : EgressId) (holds : Nat → Bool) (head : Nat → Option Head) : Option Nat × Dev :=
  if (head 0).isSome then (some 0, d)
  else
    let e := d.egress g
    if e.state = .wfq then
      let heads := [1, 2, 3, 4, 5, 6, 7].filterMap fun c => (head c).map fun h => (c, h)
      match smallestTag heads with
      | some (c, f) => (some c, d.modEgress g fun e => { e with v := f })
      | none => (none, d)
    else
      let r : Drr := { visit := e.visit, quantum := e.quantum, deficit := e.deficit }
      let (c, r) := r.choose (d.weight g) (d.schedOverhead g) holds head
      (c, d.modEgress g fun e => { e with visit := r.visit, quantum := r.quantum, deficit := r.deficit })

/-- The head of a class at a Stem port, if it is eligible. -/
def Dev.stemHead (d : Dev) (n c : Nat) : Option Head :=
  if d.eligible (.stem n) c then
    (((d.egress (.stem n)).queue c).head?).map fun m => { len := m.len, tag := m.tag }
  else none

/-- The choice of a Stem port: the class it sends next, with the unit after the choice (R327, R331). -/
def Dev.chooseStem (d : Dev) (n : Nat) : Option Nat × Dev :=
  let d := d.tagAll (.stem n)
  d.choose (.stem n) (fun c => !((d.egress (.stem n)).queue c).isEmpty) (d.stemHead n)

/-- Does a time message wait at an egress port that may send it (R326, R334)? -/
def Dev.timeWaits (d : Dev) (g : EgressId) : Bool := !((d.egress g).queue 0).isEmpty && d.eligible g 0

/-- A time message leaves its queue: class 0's shaper pays (R334). -/
def Dev.popTime (d : Dev) (g : EgressId) : Dev :=
  (d.modEgress g fun e => { e with queues := e.queues.modify 0 List.tail }).payShaper g 0 36

/-- A time message leaves on a Stem link, in a link frame of its own (R89, R356, R369). -/
def Dev.stemTime (d : Dev) (e : StemId) (tx : Stamp) : Dev :=
  let m := d.timeMsg (.stem e)
  (d.noteTime (.stem e) m (d.linkStamp false tx)).putTime e { seq := 0, cls := 0, first := true, unseq := true, length := 36 } m.bytes

/-- The head of a class starts on a Stem port: a time message leaves at once, stamped with the newest tick (log 107), another joins
the messages being sent. -/
def Dev.startStem (d : Dev) (n c : Nat) : Dev :=
  if c = 0 then (d.popTime (.stem n)).stemTime (.trunk n) {} else
  match ((d.egress (.stem n)).queue c) with
  | [] => d
  | m :: rest =>
    (d.modEgress (.stem n) fun e => { e with queues := e.queues.set c rest, line := e.line ++ [m] }).payShaper
      (.stem n) c m.len

/-- The scheduler of a free Stem port decides (R327, R331). -/
def Dev.decideStem (d : Dev) (n : Nat) : Dev :=
  if !(d.egress (.stem n)).line.isEmpty then d
  else match d.chooseStem n with
  | (some c, d) => d.startStem n c
  | (none, d) => d

/-! ### Choices of a Pleach port (R408) -/

/-- A channel of a Pleach port. -/
def Dev.pchan (d : Dev) (p ch : Nat) : PChan := ((d.tk.fab.ports[p]?).bind (·.chans[ch]?)).getD {}

/-- A Pleach port changed. -/
def Dev.modPort (d : Dev) (p : Nat) (f : PleachPort → PleachPort) : Dev :=
  d.modFab fun x => { x with ports := x.ports.modify p f }

/-- A channel of a Pleach port changed. -/
def Dev.modChan (d : Dev) (p ch : Nat) (f : PChan → PChan) : Dev :=
  d.modPort p fun x => { x with chans := x.chans.modify ch f }

/-- The message that owns a channel, or takes it next, with the bytes sent of it (R399, R407). -/
def Dev.owner (d : Dev) (p ch : Nat) : Option (EMsg × Nat) :=
  match (d.pchan p ch).tx with
  | some x => some x
  | none => (((d.egress (.pleach p)).queue (ch % 8)).find? (·.vc = ch / 8)).map fun m => (m, 0)

/-- The bytes of a message that can be sent: of one that is still coming in, those of accepted flits (R407). -/
def Dev.ready (d : Dev) (m : EMsg) : Nat :=
  match m.inp with
  | some (q, ch, no) => match (d.pchan q ch).rx with
    | some r => if r.no = no then min m.len r.got else m.len
    | none => m.len
  | none => m.len

/-- The body bytes of the next flit of a channel: as many as are ready, whole messages apart (R384, R407). -/
def Dev.nextFill (d : Dev) (p ch : Nat) : Nat :=
  match d.owner p ch with
  | some (m, sent) => min 624 (d.ready m - sent)
  | none => 0

/-- Does a channel hold credit for a number of units (R367, R394)? -/
def PChan.covers (x : PChan) (units : Nat) : Bool :=
  match x.limit with
  | some l => seqDiff 24 l x.charged ≥ units
  | none => false

/-- Can a channel send a flit? -/
def Dev.chanReady (d : Dev) (p ch : Nat) : Bool :=
  let n := d.nextFill p ch
  n > 0 && (d.pchan p ch).covers (unitsOf n) &&
  ((d.pchan p ch).tx.isSome || d.eligible (.pleach p) (ch % 8))

/-- The channel of a class that a flit goes to: the one whose owning message arrived first (R408). -/
def Dev.chanOf (d : Dev) (p c : Nat) : Option Nat :=
  let arrOf (ch : Nat) : Nat := ((d.owner p ch).map (·.1.arr)).getD 0
  firstBest (fun a b => Nat.blt a b) arrOf ([c, c + 8].filter (d.chanReady p))

/-- What a class offers at a Pleach port: class 0 a time message. -/
def Dev.pleachHead (d : Dev) (p c : Nat) : Option Head :=
  if c = 0 then (if d.timeWaits (.pleach p) then some { len := 36, tag := none } else none) else
  (d.chanOf p c).bind fun ch => (d.owner p ch).map fun (m, _) =>
    { len := m.len, tag := m.tag, started := (d.pchan p ch).tx.isSome }

/-- The choice of a Pleach port for its next flit. -/
def Dev.choosePleach (d : Dev) (p : Nat) : Option Nat × Dev :=
  let d := d.tagAll (.pleach p)
  let holds (c : Nat) : Bool := (d.owner p c).isSome || (d.owner p (c + 8)).isSome
  d.choose (.pleach p) holds (d.pleachHead p)

/-- WFQ_SEND (R327, R331): a free port makes its choice; a Stem port's message starts, a Pleach port's class is that of
its next flit. -/
def execWfqSend (g : EgressId) (s : State) : Host.Outcome State Fault Refusal :=
  s.onTrunk fun d =>
    if !EgressId.ok g then d
    else match g with
    | .stem n => d.decideStem n
    | .pleach p =>
      if (d.egress g).chosen.isSome then d
      else match d.choosePleach p with
      | (c, d) => d.modEgress g fun e => { e with chosen := c }

/-! ### Modes -/

/-- Is a port free, with classes 1 to 7 holding no message (R332)? -/
def Dev.drained (d : Dev) (g : EgressId) : Bool :=
  let e := d.egress g
  (e.queues.drop 1).all List.isEmpty && [1, 2, 3, 4, 5, 6, 7].all fun c => !d.inTransmission g c e

/-- A port returns to WFQ (R332). -/
def Dev.toWfq (d : Dev) (g : EgressId) : Dev :=
  let zero := List.replicate 8 0
  let d := d.modEgress g fun e => { e with v := 0, lastF := zero, deficit := zero, visit := 1, quantum := false }
  d.setSched g .wfq

/-- A port that may return to WFQ does (R332). -/
def Dev.maybeReturn (d : Dev) (g : EgressId) : Dev :=
  let st := (d.egress g).state
  let may := st = .drrFallback || (st = .drrForced && d.get (key (schedIndex g) 1) = 0)
  if may && d.drained g then d.toWfq g else d

/-- WFQ_RETURN (R332). -/
def execWfqReturn (g : EgressId) (s : State) : Host.Outcome State Fault Refusal :=
  s.onTrunk fun d => if EgressId.ok g then d.maybeReturn g else d

/-- The ports that a scheduler object governs: one Pleach port, or every Stem port. -/
def portsOf (p : Nat) : List EgressId := if p < 6 then [.pleach p] else (List.range 256).map .stem

/-- A write to `SchedMode` of 0x2920 + `p` (R330, R332). -/
def Dev.schedModeAns (d : Dev) (p v : Nat) : Ans :=
  let d := d.set (key (0x2920 + p) 1) v
  if v = 1 then
    ok ((portsOf p).foldl (fun d g => if (d.egress g).state = .drrForced then d else d.enterDrr g .drrForced) d)
  else ok ((portsOf p).foldl (fun d g => if (d.egress g).state = .drrForced then d.maybeReturn g else d) d)

/-- DRR_FORCE (R330). -/
def execDrrForce (e : Env) (p : Nat) (s : State) : Host.Outcome State Fault Refusal :=
  s.onTrunk fun d => if p > 6 then d else d.serveWrite e (0x2920 + p) 1 1 fun d v _ => d.schedModeAns p v

/-- WFQ_RESTORE (R332). -/
def execWfqRestore (e : Env) (p : Nat) (s : State) : Host.Outcome State Fault Refusal :=
  s.onTrunk fun d => if p > 6 then d else d.serveWrite e (0x2920 + p) 1 0 fun d v _ => d.schedModeAns p v

/-- A write to a weight (R329). -/
def Dev.weightAns (d : Dev) (i s v : Nat) : Ans :=
  let d' := d.set (key i s) v
  let sum := [2, 3, 4, 5, 6, 7, 8].foldl (fun n k => n + d'.get (key i k)) 0
  guardAns (v != 0 && 8 * d'.get (key i 4) ≥ sum) d .range (ok d')

/-! ### Shapers -/

/-- The ports of the shaper 0x2940 + `k`. -/
def shaperPorts (k : Nat) : List EgressId := if k < 48 then [.pleach (k / 8)] else (List.range 256).map .stem

/-- A write to Rate, Burst or Overhead of the shaper 0x2940 + `k` (R335). -/
def Dev.shaperAns (d : Dev) (k s v : Nat) : Ans :=
  if s = 1 && v > (if k < 48 then 200000 else 7500) then fail d .range
  else
    let d := d.set (key (0x2940 + k) s) v
    ok ((shaperPorts k).foldl (fun d g => d.modEgress g fun e => { e with buckets := e.buckets.set (k % 8) 0 }) d)

/-- SHAPER_WRITE (R335). -/
def execShaperWrite (e : Env) (k sub value : Nat) (s : State) : Host.Outcome State Fault Refusal :=
  s.onTrunk fun d =>
    if k > 55 || sub = 0 || sub > 3 then d
    else d.serveWrite e (0x2940 + k) sub value fun d v _ => d.shaperAns k sub v

/-- The tick's gain of a bucket (R333). -/
def gain (rate burst : Nat) (b : Int) : Int := max b (min (b + rate * 8) (1000 * burst))

/-- Every egress port of a trunk. -/
def allEgress : List EgressId := (List.range 6).map .pleach ++ (List.range 256).map .stem

/-- The shapers and schedulers of a port at a sample tick (R333, and `DrrTicks`). -/
def Dev.tickEgress (d : Dev) (g : EgressId) : Dev :=
  let fill (c : Nat) (b : Int) : Int :=
    let i := shaperIndex g c
    if d.get (key i 1) = 0 then b else gain (d.get (key i 1)) (d.get (key i 2)) b
  d.modEgress g fun e => { e with buckets := e.buckets.zipIdx.map (fun (b, c) => fill c b) }

/-- Does a class of a port hold a head message that is not eligible? -/
def Dev.heldBack (d : Dev) (g : EgressId) (c : Nat) : Bool := !((d.egress g).queue c).isEmpty && !d.eligible g c

/-- The shapers and schedulers of a trunk at a sample tick: gains, `HeldTicks`, `DrrTicks`. -/
def Dev.tickScheds (d : Dev) : Dev :=
  let d := allEgress.foldl Dev.tickEgress d
  let held (k : Nat) : Bool := (shaperPorts k).any fun g => d.heldBack g (k % 8)
  let d := ((List.range 56).filter held).foldl (fun d k => d.inc (key (0x2940 + k) 5)) d
  let drr (p : Nat) : Bool := (portsOf p).any fun g => (d.egress g).state != .wfq
  ((List.range 7).filter drr).foldl (fun d p => d.inc (key (0x2920 + p) 6)) d

/-! ### Policers -/

/-- The profile object of a Stem port. -/
def Dev.profile (d : Dev) (n : Nat) : Nat := 0x2981 + d.get (key (0x6400 + n) 1)

/-- The full buckets of a Stem port (R340). -/
def Dev.fullBuckets (d : Dev) (n : Nat) : Int × Int :=
  (1000 * d.get (key (d.profile n) 2), 1000 * d.get (key (d.profile n) 4))

/-- The buckets of Stem ports are set full (R340). -/
def Dev.refill (d : Dev) (which : Nat → Bool) : Dev :=
  let full (n : Nat) (b : Int × Int) : Int × Int := if which n then d.fullBuckets n else b
  d.modFab fun x => { x with policed := x.policed.zipIdx.map (fun (b, n) => full n b) }

/-- A write to a profile's setting or a port's `Profile`: every port that uses the profile is filled (R340). -/
def Dev.profileAns (d : Dev) (i s v : Nat) : Ans :=
  let d' := d.set (key i s) v
  if i ≥ 0x6400 then ok (d'.refill fun n => d'.profile n = d'.profile (i - 0x6400))
  else if d'.get (key i 1) > d'.get (key i 3) then fail d .range
  else ok (d'.refill fun n => d'.profile n = i)

/-- PROFILE_WRITE (R340). -/
def execProfileWrite (e : Env) (index sub value : Nat) (s : State) : Host.Outcome State Fault Refusal :=
  s.onTrunk fun d =>
    let prof := 0x2981 ≤ index && index ≤ 0x2984 && 1 ≤ sub && sub ≤ 4
    let port := 0x6400 ≤ index && index ≤ 0x64FE && sub = 1
    if prof || port then d.serveWrite e index sub value fun d v _ => d.profileAns index sub v else d

/-- The policers at a sample tick (R338). -/
def Dev.tickPolicers (d : Dev) : Dev :=
  let up (n : Nat) (b : Int × Int) : Int × Int :=
    let i := d.profile n
    (min (b.1 + 8 * d.get (key i 1)) (1000 * d.get (key i 2)), min (b.2 + 8 * d.get (key i 3)) (1000 * d.get (key i 4)))
  d.modFab fun x => { x with policed := x.policed.zipIdx.map (fun (b, n) => up n b) }

/-- The colours of R338. -/
inductive Colour where
  | green | yellow | red
  deriving DecidableEq, Repr

/-- The number that a colour is kept as. -/
def Colour.code : Colour → Nat
  | .green => 0 | .yellow => 1 | .red => 2

/-- The policer of a Stem port colours a message of `len` bytes (R337, R338); `marked` is the leaf's YELLOW. -/
def Dev.police (d : Dev) (n cls len : Nat) (marked : Bool) : Colour × Dev :=
  if n ≥ 255 || !(5 ≤ cls && cls ≤ 8) then (.green, d)
  else
    let bytes := len + d.get 0x2980_04
    let b : Int := 1000 * bytes
    let (tc, tp) := (d.tk.fab.policed[n]?).getD (0, 0)
    let pre := d.get 0x2980_01 = 1 && marked
    let put (x : Int × Int) (d : Dev) : Dev := d.modFab fun f => { f with policed := f.policed.set n x }
    if tp - b < 0 then (.red, d.add (key (0x6400 + n) 4) bytes)
    else if pre || tc - b < 0 then (.yellow, (put (tc, tp - b) d).add (key (0x6400 + n) 3) bytes)
    else (.green, (put (tc - b, tp - b) d).add (key (0x6400 + n) 2) bytes)

/-- Does a message of a colour pass to Ingest (R339)? -/
def Dev.passes (d : Dev) : Colour → Bool
  | .green => true
  | .yellow => d.get 0x2980_02 = 0
  | .red => d.get 0x2980_03 = 0

end Sys2Proof.Machine
end

