-- ==== Sys2Proof/Machine/Stem.lean ====
section
/-! DEFINITION. The Stem link (chapter 10): bring-up, link frames, retry, credits and resets, at a leaf's port and at the
trunk's ports. -/

namespace Sys2Proof.Machine

open Sys2Proof

/-! ### Ends of links -/

/-- The unit that an end belongs to. -/
def stemUnit : StemId → UnitId
  | .leaf l => .leaf l
  | .trunk _ => .trunk

/-- The state of an end (R348). -/
def Dev.stemState (d : Dev) (e : StemId) : Nat := d.get (stemKey e 2)

/-- The reasons of a reset (`LastResetReason`). -/
inductive ResetReason where
  | lockLost | deskewLost | retryExhausted | malformed | software | peer | optics | wiring
  deriving DecidableEq, Repr

/-- The code of a reset reason. -/
def ResetReason.code : ResetReason → Nat
  | .lockLost => 1 | .deskewLost => 2 | .retryExhausted => 3 | .malformed => 4 | .software => 5 | .peer => 6
  | .optics => 7 | .wiring => 8

/-- The receive pools of an end in units: ASSURED and BULK (R365). -/
def poolSize : StemId → Nat → Nat
  | .leaf _, 0 => 512
  | .leaf _, _ => 0
  | .trunk _, 0 => 4096
  | .trunk _, _ => 8192

/-- A CREDIT block with both Limits goes out (R346, R366). -/
def Dev.sendCredit (d : Dev) (e : StemId) : Dev :=
  let x := d.stemAt e
  let limit (k : Nat) : Nat := (x.freed.getD k 0 + poolSize e k) % 2 ^ 24
  d.sendBlock e 0x33 (leBytes 3 (limit 0) ++ leBytes 3 (limit 1))

/-! ### Leaving UP -/

/-- The open captures of a leaf that have a transfer in the RECOMPUTE queue are abandoned, and those transfers discarded
(R322, R210). -/
def Dev.loseQueued (d : Dev) : Dev :=
  let openCap (c : Nat × Nat) : Bool := ((d.srcAt c.1).capture).any (·.begin = c.2)
  let (lost, keep) := (d.queue 4).partition fun x => x.capture.any openCap
  let hit (s : Nat) : Bool := lost.any fun x => x.capture.any fun c => c.1 = s && openCap c
  let d' := ((List.range d.cfg.traceSources).filter hit).foldl (fun d s => d.loseCapture s 0) d
  d'.setQueue 4 keep

/-- What a leaf does with its queues at a link reset (R322, R372, R297). -/
def Dev.leafLinkLost (d : Dev) : Dev :=
  let flight := match d.stem.sending with
    | some (f, true) => f.data.length
    | _ => 0
  let d := d.cutLine (d.arb.off + flight)
  let d := (d.add 0x2900_07 (d.queue 0).length).setQueue 0 []
  let d := ((d.setQueue 2 []).loseQueued).restartStreams
  if d.rcd.flush.any (fun f => f.reason = FlushReason.powerFail.code) then
    let parked := (d.queue 1).map (·.seq)
    d.modRec (fun r => !r.acked && !parked.contains r.seq) fun r => { r with sentAt := none }
  else d

/-- The decoder contexts of a Stem port become INVALID (R339, R371). -/
def Dev.invalidate (d : Dev) (streams : List Nat) : Dev :=
  let stale := d.tk.ing.stale.filter (!streams.contains ·) ++ streams
  { d with tk := { d.tk with ing := { d.tk.ing with stale := stale } } }

/-- The four streams of a Stem port. -/
def streamsOf (n : Nat) : List Nat := (List.range 4).map (4 * n + ·)

/-- What a trunk does with a port's queues at a link reset (R371): messages being sent return, DICTIONARY is discarded, and no
time message passes. -/
def Dev.trunkLinkLost (d : Dev) (n : Nat) : Dev :=
  let d := d.modEgress (.stem n) fun e =>
    let back := e.line.foldr (fun m q => q.modify (stemTraffic m.stemCls) (m :: ·)) e.queues
    { e with queues := (back.set 2 []).set 0 [], line := [], off := 0 }
  d.invalidate (streamsOf n)

/-- An end leaves UP, or bring-up starts again (R371): the frame in flight is cut (R322, R355), buffers and open messages are
discarded and counted. -/
def Dev.stemDrop (d : Dev) (e : StemId) (state : Nat) : Dev :=
  let x := d.stemAt e
  let d := d.add (stemKey e 0x0E) x.opens.length
  let d := match e with
    | .leaf _ => d.leafLinkLost
    | .trunk n => d.trunkLinkLost n
  let d := (d.abortAt e).modStem e fun x => { line := x.line.drop, since := d.now }
  (d.set (stemKey e 2) state).resetLink (.stem e)

/-- Eight RESET blocks go out (R370). -/
def Dev.sendResets (d : Dev) (e : StemId) (kind reason : Nat) : Dev :=
  (List.range 8).foldl (fun d _ => d.appendBlock e 0x66 (leBytes 1 kind ++ leBytes 1 reason)) d

/-- A reset of R370: a LINK reset leads to TRAIN, a LANE reset to DOWN; the self-leaf's path has no lanes (R351). -/
def Dev.resetStem (d : Dev) (e : StemId) (lane : Bool) (r : ResetReason) : Dev :=
  let state := if selfPath e then (if d.stemState e = 0 then 0 else 3) else if lane then 0 else min 3 (d.stemState e)
  let d := d.stemDrop e state
  let d := if r = .peer then d else d.sendResets e (if lane then 2 else 1) r.code
  (d.set (stemKey e 5) r.code).flag 0x3002 0

/-- RESET_LINK (R370): a RESET block of Kind LINK has come. -/
def execResetLink (e : StemId) (s : State) : Host.Outcome State Fault Refusal :=
  s.on (stemUnit e) fun d => if StemId.ok e then d.resetStem e false .peer else d

/-- RESET_LANE (R370): a RESET block of Kind LANE has come. -/
def execResetLane (e : StemId) (s : State) : Host.Outcome State Fault Refusal :=
  s.on (stemUnit e) fun d => if StemId.ok e then d.resetStem e true .peer else d

/-- BLOCK_LOCK_LOST (R370). -/
def execBlockLockLost (e : StemId) (s : State) : Host.Outcome State Fault Refusal :=
  s.on (stemUnit e) fun d =>
    if StemId.ok e && !selfPath e && d.stemState e ≥ 2 then d.resetStem e true .lockLost else d

/-- A write to `ResetCmd` of a Stem port (R370). -/
def Dev.stemResetAns (d : Dev) (e : StemId) (v : Nat) : Ans :=
  if v != 1 && v != 2 then fail d .range else ok (d.resetStem e (v = 2) .software)

/-- A write to a Stem port's `Enable` (R348): 0 holds the port in DOWN. -/
def Dev.stemEnableAns (d : Dev) (e : StemId) (v : Nat) : Ans :=
  let d := d.set (stemKey e 1) v
  ok (if v = 0 && d.stemState e != 0 then d.stemDrop e 0 else d)

/-! ### Bring-up -/

/-- The bytes of a leaf's transfers in progress that have not left. -/
def Arbiter.rest (a : Arbiter) : Nat := a.line.foldl (fun n x => n + x.bytes.length) 0 - a.off

/-- At a sample tick an enabled end leaves DOWN for LOCK, the self-leaf's path for TRAIN (R348, R351), but not on a trunk in
Quickset mode (R610) or after a thermal trip (R643); a link frame that waits for credit counts the tick (R367). The slots of the
tick pass, in every state (R344, R348). -/
def Dev.tickStem (d : Dev) (e : StemId) : Dev :=
  let d := d.runLine e (StemLine.tick e)
  let d := if d.stemState e = 0 && d.on (stemKey e 1) && !(d.isTrunk && (d.quickset || d.tk.tripped)) then
      (d.set (stemKey e 2) (if selfPath e then 3 else 1)).modStem e fun x => { x with since := d.now }
    else d
  let (waits, rest) := match e with
    | .leaf _ => ((d.arb.line.headD { cls := 0, bytes := [] }).cls, d.arb.rest)
    | .trunk n =>
      let g := d.egress (.stem n)
      ((g.line.headD { len := 0 }).stemCls, g.line.foldl (fun k m => k + m.bytes.length) 0 - g.off)
  let x := d.stemAt e
  let short : Bool := match x.limit.getD (poolOf waits) none with
    | some l => seqDiff 24 l (x.charged.getD (poolOf waits) 0) < unitsOf (min 1024 rest)
    | none => true
  if d.stemState e = 4 && waits != 0 && x.sending.isNone && short then d.inc (stemKey e 0x0F) else d

/-- Both lanes are locked: the end leaves LOCK (R348). -/
def Dev.stemLocked (d : Dev) (e : StemId) : Dev :=
  if d.stemState e = 1 then
    (d.set (stemKey e 2) 2).modStem e fun x => { x with aligned := 0, disagree := 0 }
  else d

/-- ALIGN (R345, R348, R370): an ALIGN pair with its two MarkerCounts. -/
def Dev.stemAlign (d : Dev) (e : StemId) (c0 c1 : Nat) : Dev :=
  if d.stemState e < 2 || selfPath e then d
  else if c0 % 65536 = c1 % 65536 then
    let d := d.modStem e fun x => { x with aligned := x.aligned + 1, disagree := 0 }
    if d.stemState e = 2 && (d.stemAt e).aligned ≥ 4 then d.set (stemKey e 2) 3 else d
  else
    let d := d.modStem e fun x => { x with aligned := 0, disagree := x.disagree + 1 }
    if (d.stemAt e).disagree ≥ 2 then d.resetStem e true .deskewLost else d

/-- ALIGN (R345). -/
def execAlign (e : StemId) (count0 count1 : Nat) (s : State) : Host.Outcome State Fault Refusal :=
  s.on (stemUnit e) fun d => if StemId.ok e then d.stemAlign e count0 count1 else d

/-- LOCK and DESKEW have not completed within 2 ms: the end returns to DOWN (R348). -/
def Dev.stemTimeout (d : Dev) (e : StemId) : Dev :=
  let st := d.stemState e
  if (st = 1 || st = 2) && d.now ≥ (d.stemAt e).since + 2000000 then
    (d.set (stemKey e 2) 0).modStem e fun x => { x with aligned := 0, disagree := 0 }
  else d

/-- A HELLO block (R346, R349). -/
def Dev.helloBlock (d : Dev) (e : StemId) (accept : Bool) (id : Nat) : Dev :=
  let role := match e with
    | .leaf _ => 0
    | .trunk _ => 1
  d.appendBlock e 0x55 (leBytes 1 role ++ leBytes 1 (d.get 0x3000_01) ++ leBytes 1 (b2n accept) ++ leBytes 3 id)

/-- In TRAIN an end sends HELLO once per µs (R348, R349): a trunk repeats its last answer. -/
def Dev.stemHelloSend (d : Dev) (e : StemId) : Dev :=
  let x := d.stemAt e
  if d.stemState e != 3 || x.lastHello.any (d.now < · + 1000) then d
  else
    let d := d.modStem e fun x => { x with lastHello := some d.now }
    match e with
    | .leaf _ => d.helloBlock e false 0
    | .trunk n => d.helloBlock e x.peerOk (if x.peerOk then d.leafAddress n else 0)

/-- The level that the link of an end runs at: the leaf's (R349). -/
def Dev.stemLevel (d : Dev) (e : StemId) : Nat :=
  match e with
  | .leaf _ => d.get 0x3000_01
  | .trunk _ => d.get (stemKey e 3)

/-- An end enters UP (R344, R350): slots are numbered anew, counters zero, and its CREDIT goes out. -/
def Dev.stemEnterUp (d : Dev) (e : StemId) : Dev :=
  let d := d.runLine e (StemLine.renumber e)
  let d := d.modStem e fun x => { line := x.line, level := d.stemLevel e, since := d.now, peerOk := x.peerOk }
  let d := ((d.set (stemKey e 2) 4).inc (stemKey e 6)).set (stemKey e 7) d.now
  (d.resetLink (.stem e)).sendCredit e

/-- A HELLO is received in TRAIN (R349, R22). -/
def Dev.takeHello (d : Dev) (e : StemId) (role level : Nat) (accept : Bool) (id : Nat) : Dev :=
  if d.stemState e != 3 then d
  else match e with
  | .trunk n =>
    if role != 0 then d
    else
      let own := d.get 0x3000_01
      let fits := level = own || level + 1 = own
      let d := (d.set (stemKey e 3) level).modStem e fun x => { x with peerOk := fits }
      let d := if !fits && d.layerAwaits n then d.haltLayer 4 else d
      if !fits then (d.flag 0x3002 1).helloBlock e false 0
      else if accept then d.stemEnterUp e
      else d.helloBlock e true (d.leafAddress n)
  | .leaf _ =>
    if role != 1 then d
    else
      let d := d.set (stemKey e 3) level
      if !accept then d
      else ((d.set 0x1000_06 (id % 2 ^ 20)).helloBlock e true (id % 2 ^ 20)).stemEnterUp e

/-- HELLO (R349). -/
def execHello (e : StemId) (role level : Nat) (accept : Bool) (leafId : Nat) (s : State) :
    Host.Outcome State Fault Refusal :=
  s.on (stemUnit e) fun d => if StemId.ok e then d.takeHello e role (level % 256) accept leafId else d

/-! ### Sending link frames -/

/-- The block slots of a link frame of `n` bytes (R362). -/
def slotsOf (n : Nat) : Nat := 2 + unitsOf n

/-- May a sender start a link frame of `n` bytes of a class (R362, R367)? -/
def StemEnd.mayStart (x : StemEnd) (cls n : Nat) : Bool :=
  let k := poolOf cls
  (match x.limit.getD k none with
   | some l => decide (seqDiff 24 l (x.charged.getD k 0) ≥ unitsOf n)
   | none => false) &&
  x.retry.length < 127 && x.retry.foldl (fun m f => m + slotsOf f.data.length) (slotsOf n) ≤ 1560

/-- The link frame in flight of an end has ended (R354, R362, R367). -/
def Dev.endFrameAt (d : Dev) (e : StemId) : Dev :=
  match e with
  | .leaf _ => d.endFrame
  | .trunk n =>
    let sent := (d.stemAt e).sending
    let d := d.modStem e (·.ended d.now)
    match sent with
    | some (f, true) =>
      let rec drop : Nat → List EMsg → Nat × List EMsg
        | k, [] => (k, [])
        | k, m :: ms => if k ≥ m.bytes.length then drop (k - m.bytes.length) ms else (k, m :: ms)
      (d.inc (stemKey e 8)).modEgress (.stem n) fun g =>
        let (off, line) := drop (g.off + f.data.length) g.line
        { g with line := line, off := if line.isEmpty then 0 else off }
    | _ => d

/-- The Aux byte of a link frame's START (R352). -/
def auxOf (x : Xfer) : Nat := if x.cls = 0x05 then x.sched % 4 + 4 * b2n x.archive else 0

/-- At a START with room the arbiter's next decisions join the frame while they award the same source, class, schedule
and colour (R354), and while the peer's credit covers it. -/
def Dev.joinLeaf : (fuel : Nat) → Dev → Dev
  | 0, d => d
  | fuel + 1, d =>
    match d.arb.sending, d.arb.line.head? with
    | some (src, yellow), some x =>
      if d.arb.rest ≥ 1024 then d
      else
        let d' := d.offer
        match d'.winner false with
        | none => d
        | some v =>
          match (d'.queue v.src).head? with
          | none => d
          | some y =>
            let n := min 1024 (d.arb.rest + y.bytes.length)
            if v.src = src && d'.yellowOf src = yellow && auxOf y = auxOf x && d.stem.mayStart x.cls n then
              Dev.joinLeaf fuel (d'.award v)
            else d
    | _, _ => d

/-- The next decisions of a trunk's scheduler join a link frame while they award the same class (R354). -/
def Dev.joinTrunk (n : Nat) : (fuel : Nat) → Dev → Dev
  | 0, d => d
  | fuel + 1, d =>
    let e := d.egress (.stem n)
    let rest := e.line.foldl (fun k m => k + m.bytes.length) 0 - e.off
    match e.line.head? with
    | none => d
    | some m =>
      if rest ≥ 1024 then d
      else match d.chooseStem n with
      | (none, _) => d
      | (some c, d') =>
        match ((d'.egress (.stem n)).queue c).head? with
        | none => d
        | some y =>
          if y.stemCls = m.stemCls && (d.stemAt (.trunk n)).mayStart m.stemCls (min 1024 (rest + y.bytes.length)) then
            Dev.joinTrunk n fuel (d'.startStem n c)
          else d

/-- A new link frame goes out. -/
def Dev.sendFrame (d : Dev) (e : StemId) (h : LinkStart) (data : Bytes) (fresh : Bool) : Dev :=
  (d.modStem e fun x => { x with sending := some ({ head := h, data := data }, fresh) }).putFrame e h data

/-- A leaf starts a sequenced link frame (R352, R354, R367). -/
def Dev.startLeaf (d : Dev) (e : StemId) : Dev :=
  let d := d.decideUplink false
  match d.arb.sending, d.arb.line.head? with
  | some (_, yellow), some x =>
    if !d.stem.mayStart x.cls (min 1024 d.arb.rest) then d
    else
      let d := Dev.joinLeaf 1024 d
      let data := (((d.arb.line.flatMap (·.bytes)).drop d.arb.off).take 1024)
      d.sendFrame e { seq := d.stem.txSeq, cls := x.cls, first := d.arb.off = 0, yellow := yellow
                      length := data.length, aux := auxOf x } data true
  | _, _ => d

/-- A trunk's port starts a sequenced link frame. -/
def Dev.startTrunk (d : Dev) (n : Nat) : Dev :=
  let d := d.decideStem n
  let g := d.egress (.stem n)
  match g.line.head? with
  | none => d
  | some m =>
    let rest := g.line.foldl (fun k m => k + m.bytes.length) 0 - g.off
    if !(d.stemAt (.trunk n)).mayStart m.stemCls (min 1024 rest) then d
    else
      let d := Dev.joinTrunk n 1024 d
      let g := d.egress (.stem n)
      let data := ((g.line.flatMap (·.bytes)).drop g.off).take 1024
      d.sendFrame (.trunk n) { seq := (d.stemAt (.trunk n)).txSeq, cls := m.stemCls, first := g.off = 0
                               length := data.length } data true

/-- At a boundary of link frames a time message that waits goes first (R326, R369). -/
def Dev.timeFirst (d : Dev) (e : StemId) : Dev :=
  match e with
  | .leaf _ => d
  | .trunk n => if d.timeWaits (.stem n) then d.startStem n 0 else d

/-- LINK_FRAME_START (R367): the frame in flight has ended; a time message goes first, then a replay (R362), then a new frame
that the peer's credit covers. -/
def Dev.startFrame (d : Dev) (e : StemId) : Dev :=
  if d.stemState e != 4 then d
  else
    let d := (d.endFrameAt e).timeFirst e
    match (d.stemAt e).replay with
    | f :: rest => (d.modStem e fun x => { x with replay := rest }).sendFrame e f.head f.data false
    | [] => match e with
      | .leaf _ => d.startLeaf e
      | .trunk n => d.startTrunk n

/-- LINK_FRAME_START (R367). -/
def execLinkFrameStart (e : StemId) (s : State) : Host.Outcome State Fault Refusal :=
  s.on (stemUnit e) fun d => if StemId.ok e then d.startFrame e else d

/-! ### Acknowledgements -/

/-- An AckSeq in the outstanding range covers the frames up to it (R362). -/
def StemEnd.acked (x : StemEnd) (ackSeq now : Nat) : StemEnd :=
  match x.retry.findIdx? (·.head.seq = ackSeq) with
  | none => x
  | some i =>
    let left := x.retry.drop (i + 1)
    { x with retry := left, replay := x.replay.filter left.contains, lastAdv := now, replays := 0 }

/-- Is an AckSeq in the outstanding range, or that of the newest frame already covered? -/
def StemEnd.knows (x : StemEnd) (ackSeq : Nat) : Bool :=
  x.retry.any (·.head.seq = ackSeq) || (x.retry.head?).any (fun f => (ackSeq + 1) % 256 = f.head.seq)

/-- The frame in flight ends where an AckSeq already covers it. -/
def Dev.endIfAcked (d : Dev) (e : StemId) (ackSeq : Nat) : Dev :=
  match (d.stemAt e).sending with
  | some (f, true) => if f.head.seq = ackSeq then d.endFrameAt e else d
  | _ => d

/-- Every outstanding frame is sent again (R362), or the link resets after `RetryLimit` replays (R363). -/
def Dev.replayStem (d : Dev) (e : StemId) : Dev :=
  let x := d.stemAt e
  if x.retry.isEmpty then d
  else if x.replays ≥ d.get 0x3000_03 then (d.resetStem e false .retryExhausted).flag 0x3002 2
  else
    let d := d.modStem e fun x => { x with replay := x.retry, replays := x.replays + 1, lastAdv := d.now }
    (d.inc (stemKey e 0x0B)).always 0x14 1

/-- An ACK block of an end that is UP (R362). -/
def Dev.takeLinkAck (d : Dev) (e : StemId) (ackSeq : Nat) : Dev :=
  if d.stemState e != 4 then d else (d.endIfAcked e ackSeq).modStem e (·.acked ackSeq d.now)

/-- A NAK block of an end that is UP (R362). -/
def Dev.takeLinkNak (d : Dev) (e : StemId) (ackSeq : Nat) : Dev :=
  if d.stemState e != 4 then d
  else
    let d := d.endFrameAt e
    if !(d.stemAt e).knows ackSeq then d else (d.modStem e (·.acked ackSeq d.now)).replayStem e

/-- LINK_ACK (R362). -/
def execLinkAck (e : StemId) (ackSeq : Nat) (s : State) : Host.Outcome State Fault Refusal :=
  s.on (stemUnit e) fun d => if StemId.ok e then d.takeLinkAck e ackSeq else d

/-- LINK_NAK (R362): every outstanding frame after AckSeq is sent again. -/
def execLinkNak (e : StemId) (ackSeq : Nat) (s : State) : Host.Outcome State Fault Refusal :=
  s.on (stemUnit e) fun d => if StemId.ok e then d.takeLinkNak e ackSeq else d

/-- RETRY_TIMEOUT (R362). -/
def execRetryTimeout (e : StemId) (s : State) : Host.Outcome State Fault Refusal :=
  s.on (stemUnit e) fun d =>
    let x := d.stemAt e
    if !StemId.ok e || d.stemState e != 4 || x.retry.isEmpty || d.now < x.lastAdv + d.get 0x3000_02 then d
    else d.replayStem e

/-- The peer's Limits reach an end that is UP (R367). -/
def Dev.takeLimits (d : Dev) (e : StemId) (assured bulk : Nat) : Dev :=
  if d.stemState e != 4 then d
  else d.modStem e fun x => { x with limit := [some (assured % 2 ^ 24), some (bulk % 2 ^ 24)] }

/-- CREDIT (R367). -/
def execCredit (e : StemId) (assured bulk : Nat) (s : State) : Host.Outcome State Fault Refusal :=
  s.on (stemUnit e) fun d => if StemId.ok e then d.takeLimits e assured bulk else d

/-! ### Receiving link frames -/

/-- Does an end receive messages of a class (R356)? -/
def receives : StemId → Nat → Bool
  | .leaf _, c => c = 0x02 || c = 0x03 || c = 0x04
  | .trunk _, c => c = 0x01 || c = 0x03 || (0x05 ≤ c && c ≤ 0x08)

/-- What the first bytes of a message say of its length (R356, R359). -/
inductive MsgLen where
  | short
  | bad
  | bytes (n : Nat)
  deriving DecidableEq, Repr

/-- A length that a field gives, if it lies within bounds. -/
def bounded (ok : Bool) (n : Nat) : MsgLen := if ok then .bytes n else .bad

/-- The length of a message of a class (R40, R187 to R192, R214, R281, R356 to R358). -/
def msgLen (cls : Nat) (bs : Bytes) : MsgLen :=
  let need (n : Nat) (r : MsgLen) : MsgLen := if bs.length < n then .short else r
  match cls with
  | 0x01 => need 6 (bounded (4 ≤ natAt bs 4 2 && natAt bs 4 2 ≤ 1024 && natAt bs 4 2 % 4 = 0) (16 + natAt bs 4 2))
  | 0x02 => need 2 (bounded (1 ≤ natAt bs 0 2 && natAt bs 0 2 ≤ 64) (8 + 8 * natAt bs 0 2))
  | 0x03 => need 22 (bounded (natAt bs 20 2 ≤ 1024) (24 + natAt bs 20 2))
  | 0x04 => .bytes 16
  | 0x05 => need 16 (bounded (natAt bs 12 4 ≤ 16777216) (16 + natAt bs 12 4))
  | 0x08 => need 4 (.bytes (4 + natAt bs 0 4))
  | _ =>
    need 1 <| match natAt bs 0 1 / 16 with
      | 1 => need 6 (bounded (natAt bs 5 1 ≤ 64) (16 + alignUp (natAt bs 5 1) 8))
      | 2 | 3 | 6 => .bytes 16
      | 4 | 5 => .bytes 8
      | 7 => .bytes 24
      | _ => .bad

/-- A trunk routes a leaf's SDP message (R56): to itself, to a leaf of its own, or over Pleach in the partition of the
leaf's port. A request whose Dest names no unit, LOCAL among them, is discarded and counted (R651), such a response discarded
(R41). -/
def Dev.routeSdp (d : Dev) (port : Nat) (bs : Bytes) : Dev :=
  let dest := natAt bs 4 4
  let own := d.get 0x3100_01
  let p := d.stemPartition port
  let request := natAt bs 1 1 < 0x80
  if !(if request then otherUnit dest else dest < 2 ^ 21) then (if request then d.inc 0x1101_07 else d)
  else if addrTrunk dest != own then d.originate (sdpPMsg own (addrTrunk dest) p bs)
  else if dest.testBit 20 then d.emit (.fromStem port 0x03 0 bs)
  else d.toLeafSdp own p bs

/-- A frame has arrived at Ingest and is not filed yet (R275). -/
def Dev.noteArrival (d : Dev) (n : Nat) : Dev :=
  { d with tk := { d.tk with ing := { d.tk.ing with arrived := d.tk.ing.arrived ++ [(n, d.now)] } } }

/-- A message has come whole (R359): a trunk's policer may have it discarded (R339). -/
def Dev.deliverStem (d : Dev) (e : StemId) (cls aux : Nat) (c : Colour) (bs : Bytes) : Dev :=
  match e with
  | .leaf _ => d.emit (.fromStem 0 cls c.code bs)
  | .trunk n =>
    if !d.passes c then
      let d := d.inc (key (0x6400 + n) 5)
      if cls = 0x05 then d.invalidate [4 * n + aux % 4] else d
    else if cls = 0x03 then d.routeSdp n bs
    else
      let d := if cls = 0x05 then d.noteArrival n else d
      d.emit (.fromStem n cls c.code bs)

/-- The colour that a kept number stands for. -/
def colourOf : Nat → Colour
  | 1 => .yellow
  | 2 => .red
  | _ => .green

/-- What the bytes of an open message have led to: those left, how many messages have come whole, the colour of the one
still open, and whether a length is malformed. -/
structure Taken where
  dev    : Dev
  left   : Bytes
  whole  : Nat
  colour : Option Nat
  bad    : Bool := false

/-- The whole messages at the front of a class's bytes are delivered; each is coloured once its length is known. -/
def takeMsgs (e : StemId) (h : LinkStart) : (fuel : Nat) → Taken → Taken
  | 0, t => t
  | fuel + 1, t =>
    if t.left.isEmpty then t
    else match msgLen h.cls t.left with
    | .short => t
    | .bad => { t with bad := true }
    | .bytes n =>
      let (c, d) := match t.colour, e with
        | some c, _ => (colourOf c, t.dev)
        | none, .trunk k => t.dev.police k h.cls n h.yellow
        | none, .leaf _ => (.green, t.dev)
      if t.left.length < n then { t with dev := d, colour := some c.code }
      else
        takeMsgs e h fuel { t with dev := d.deliverStem e h.cls h.aux c (t.left.take n), left := t.left.drop n
                                   whole := t.whole + 1, colour := none }

/-- An open message of an end's receiver. -/
def Dev.openOf (d : Dev) (e : StemId) (cls : Nat) : Option OpenMsg := (d.stemAt e).opens.find? (·.cls = cls)

/-- The units of a pool are released (R366). -/
def Dev.release (d : Dev) (e : StemId) (cls n : Nat) : Dev :=
  if n = 0 then d
  else (d.modStem e fun x => { x with freed := x.freed.modify (poolOf cls) (fun c => (c + n) % 2 ^ 24) }).sendCredit e

/-- The receiver has no open message of a class any more. -/
def Dev.closeMsg (d : Dev) (e : StemId) (cls : Nat) : Dev :=
  d.modStem e fun x => { x with opens := x.opens.filter (·.cls != cls) }

/-- The bytes of an accepted link frame join the open message of their class (R359). -/
def Dev.takeBytes (d : Dev) (e : StemId) (h : LinkStart) (data : Bytes) : Dev :=
  let old := d.openOf e h.cls
  let u := unitsOf data.length
  let malformed (d : Dev) : Dev := (d.resetStem e false .malformed).flag 0x3002 3
  if !receives e h.cls then d.release e h.cls u
  else if !h.first && old.isNone then malformed d
  else
    let d := match old with
      | some o => if h.first then ((d.closeMsg e h.cls).inc (stemKey e 0x0E)).release e h.cls o.units else d
      | none => d
    let o := (d.openOf e h.cls).getD { cls := h.cls, bytes := [], units := 0 }
    let t := takeMsgs e h (data.length + 1) { dev := d, left := o.bytes ++ data, whole := 0, colour := o.colour }
    let d := t.dev.closeMsg e h.cls
    let kept : OpenMsg := { cls := h.cls, bytes := t.left, units := if t.whole = 0 then o.units + u else u, colour := t.colour }
    if t.bad then malformed (d.modStem e fun x => { x with opens := x.opens ++ [kept] })
    else if t.left.isEmpty then d.release e h.cls (o.units + u)
    else
      let d := d.modStem e fun x => { x with opens := x.opens ++ [kept] }
      d.release e h.cls (if t.whole = 0 then 0 else o.units)

/-- An ACK or NAK block with the Seq of the newest frame accepted in order (R361). -/
def Dev.sendAck (d : Dev) (e : StemId) (nak : Bool) : Dev :=
  d.sendBlock e 0x2D (leBytes 1 (((d.stemAt e).rxSeq + 255) % 256) ++ leBytes 1 (b2n nak))

/-- A link frame is refused (R360): counted, and one NAK goes out for the expected Seq (R361). -/
def Dev.refuseFrame (d : Dev) (e : StemId) (crcBad : Bool) : Dev :=
  let d := d.inc (stemKey e 0x0A)
  let d := if crcBad then d.always 0x13 1 else d
  if (d.stemAt e).naked then d else (d.modStem e fun x => { x with naked := true }).sendAck e true

/-- A block that is counted in `BlockErrors` (R347). -/
def Dev.blockError (d : Dev) (e : StemId) : Dev := d.inc (stemKey e 0x0D)

/-- An unsequenced link frame is accepted (R360, R361): a time message is handed on (R356); what another class or length brings is
dropped (log 106). -/
def Dev.takeUnseq (d : Dev) (e : StemId) (h : LinkStart) (data : Bytes) : Dev :=
  let d := ((d.inc (stemKey e 9)).modStem e fun x => { x with naked := false }).sendAck e false
  let port := match e with
    | .leaf _ => 0
    | .trunk n => n
  if h.cls = 0 && h.first && h.length = 36 then d.emit (.fromStem port 0 0 data) else d

/-- LINK_FRAME (R360). -/
def Dev.takeFrame (d : Dev) (e : StemId) (h : LinkStart) (data : Bytes) (crc : Nat) : Dev :=
  if d.stemState e != 4 then d
  else
    let x := d.stemAt e
    if data.length != h.length || h.length = 0 || h.length > 1024 || linkCrc h data != crc then d.refuseFrame e true
    else if h.unseq then d.takeUnseq e h data
    else if h.seq = x.rxSeq then
      let d := (d.inc (stemKey e 9)).modStem e fun x => { x with rxSeq := (x.rxSeq + 1) % 256, naked := false }
      (d.sendAck e false).takeBytes e h data
    else if (x.rxSeq + 256 - h.seq % 256) % 256 ≤ 127 then d.sendAck e false
    else d.refuseFrame e false

/-- What the blocks that come among those of a link frame have led to: whether the frame is still open, and the MarkerCount of an
ALIGN block of lane 0 whose pair has not come. -/
structure Among where
  dev   : Dev
  open_ : Bool := true
  first : Option Nat := none

/-- A block that may not stand in a frame ends the open one as failed (R347, R360). -/
def Among.fail (x : Among) (e : StemId) (b : RxBlock) : Among :=
  if x.open_ && !b.outside then { x with dev := x.dev.refuseFrame e true, open_ := false } else x

/-- A block comes that is none of the frame's own (R347): a data block before the frame or after it has ended is stray. -/
def Among.take (e : StemId) (x : Among) (b : RxBlock) : Among :=
  let at_ (i n : Nat) : Nat := natAt b.bytes i n
  if !b.control then { x with dev := x.dev.blockError e }
  else match at_ 0 1 with
  | 0x1E => x
  | 0x2D => { x with dev := if at_ 2 1 = 1 then x.dev.takeLinkNak e (at_ 1 1) else x.dev.takeLinkAck e (at_ 1 1) }
  | 0x33 => { x with dev := x.dev.takeLimits e (at_ 1 3) (at_ 4 3) }
  | 0x4B => match x.first with
    | none => { x with first := some (at_ 2 2) }
    | some c => { x with dev := x.dev.stemAlign e c (at_ 2 2), first := none }
  | 0x55 =>
    let x := x.fail e b
    { x with dev := x.dev.takeHello e (at_ 1 1) (at_ 2 1) ((at_ 3 1).testBit 0) (at_ 4 3 % 2 ^ 20) }
  | 0x66 =>
    let x := x.fail e b
    { x with dev := x.dev.resetStem e (decide (at_ 1 1 = 2)) .peer }
  | 0x99 => { x with open_ := x.open_ && b.outside }
  | 0x78 | 0x87 => x.fail e b
  | _ =>
    let x := x.fail e b
    { x with dev := x.dev.blockError e }

/-- A link frame comes with the blocks that stand among its own (R347, R360). -/
def Dev.takeLink (d : Dev) (e : StemId) (h : LinkStart) (data : Bytes) (crc : Nat) (between : List RxBlock) : Dev :=
  if d.stemState e != 4 then d
  else
    let x := between.foldl (Among.take e) { dev := d }
    if x.open_ then x.dev.takeFrame e h data crc else x.dev

/-- LINK_FRAME (R347, R360). -/
def execLinkFrame (e : StemId) (h : LinkStart) (data : Bytes) (x : FrameEnd) (s : State) :
    Host.Outcome State Fault Refusal :=
  s.on (stemUnit e) fun d => if StemId.ok e then d.takeLink e h data x.crc.toNat x.between else d

/-- ABORT (R355): the open link frame ends without an END. It was never accepted, so nothing of it stands; the open
message of its class stays until the transfer returns with FIRST (R359). -/
def execAbort (e : StemId) (s : State) : Host.Outcome State Fault Refusal := s.on (stemUnit e) id

/-- TRIGGER (R358, R199): a fleet trigger reaches the leaf and is applied at this sample tick, if `FleetTriggerEnable`
lets it (R204) and the leaf has trace sources (R213). -/
def execTrigger (l : LeafId) (triggerId originStamp : Nat) (s : State) : Host.Outcome State Fault Refusal :=
  s.onLeaf l fun d =>
    if d.cfg.traceSources = 0 || !d.on 0x2500_05 then d else d.trigger (.fleet triggerId) originStamp

end Sys2Proof.Machine
end

