-- ==== Sys2Proof/Machine/Pleach.lean ====
section
/-! DEFINITION. The Pleach fabric (chapter 11): bring-up, flits, retry, credits, messages, fences, optics and resets of a
trunk's six ports; and the commands that Stem and Pleach ports share. -/

namespace Sys2Proof.Machine

open Sys2Proof

/-! ### Ports -/

/-- A Pleach port of a trunk. -/
def Dev.port (d : Dev) (p : Nat) : PleachPort := (d.tk.fab.ports[p]?).getD {}

/-- An object of a Pleach port. -/
def portKey (p sub : Nat) : Nat := key (0x3101 + p) sub

/-- The state of a Pleach port (R386). -/
def Dev.portState (d : Dev) (p : Nat) : Nat := d.get (portKey p 2)

/-- May a port leave DOWN (R375, R377, R386, R418; not in Quickset mode, R610, nor after a thermal trip, R643)? -/
def Dev.portMay (d : Dev) (p : Nat) : Bool :=
  d.on (portKey p 1) && d.on (key (0x3110 + p) 1) && !(d.port p).opticsHold && d.inTorus (d.get 0x3100_01) &&
  d.torusSize (p / 2) > 1 && !d.quickset && !d.tk.tripped

/-- The channels that carry messages: classes 1 to 7 on both VCs (R393). -/
def msgChans : List Nat := [1, 2, 3, 4, 5, 6, 7, 9, 10, 11, 12, 13, 14, 15]

/-- The receive pool of a channel in units (R393). -/
def chanPool (ch : Nat) : Nat :=
  match ch % 8 with
  | 1 | 2 => 2048
  | 3 | 4 => 16384
  | 5 => 4096
  | 6 | 7 => 8192
  | _ => 0

/-! ### What comes in on a channel -/

/-- A message of a channel has been sent on, delivered or discarded: the units of flits that hold nothing else are
released (R366, R394). -/
def PChan.dispose (x : PChan) (no : Nat) : PChan :=
  let open_ := x.open_.filter (· != no)
  let busy (h : Nat × Nat × Nat) : Bool := open_.any fun n => h.2.1 ≤ n && n ≤ h.2.2
  let n := (x.held.filter (!busy ·)).foldl (fun n h => n + h.1) 0
  { x with open_ := open_, held := x.held.filter busy, freed := (x.freed + n) % 2 ^ 24, advert := x.advert || n != 0 }

/-- A message that came in has been disposed of. -/
def Dev.dispose (d : Dev) (inp : Option (Nat × Nat × Nat)) : Dev :=
  match inp with
  | some (p, ch, no) => d.modChan p ch (·.dispose no)
  | none => d

/-- A message that is being forwarded, or waits, can no longer be completed (R399): what has not been begun is dropped,
what is being sent is ended by an ABORT. -/
def Dev.abandon (d : Dev) (inp : Nat × Nat × Nat) : Dev :=
  let isIt (m : EMsg) : Bool := m.inp = some inp
  let drop (q : List EMsg) : List EMsg := q.filter (!isIt ·)
  let hit (c : PChan) : Bool := c.tx.any (fun x => isIt x.1)
  let cut (c : PChan) : PChan := if hit c then { c with tx := none } else c
  let port (x : PleachPort) : PleachPort :=
    let hits := (List.range 16).filter fun ch => (x.chans[ch]?).any hit
    { x with aborts := x.aborts ++ hits, chans := x.chans.map cut }
  let egress (e : Egress) : Egress := { e with queues := e.queues.map drop }
  let d := d.modFab fun f =>
    { f with ports := f.ports.map port, egress := f.egress.map egress
             local_ := f.local_.filter fun x => x.2 != some inp }
  d.dispose (some inp)

/-- The open message of a channel is abandoned (R399). -/
def Dev.abandonOpen (d : Dev) (p ch : Nat) : Dev :=
  match (d.pchan p ch).rx with
  | some r => ((d.modChan p ch fun x => { x with rx := none }).inc 0x310A_07).abandon (p, ch, r.no)
  | none => d

/-! ### Resets (R419, R420) -/

/-- A port leaves UP, or starts again: messages open on the link are abandoned, those queued discarded (R406, R420). -/
def Dev.portDrop (d : Dev) (p state : Nat) : Dev :=
  let d := (List.range 16).foldl (fun d ch => d.abandonOpen p ch) d
  let d := (List.range 16).foldl (fun d ch =>
    match (d.pchan p ch).tx with
    | some (m, _) => ((d.modChan p ch fun x => { x with tx := none }).inc 0x310A_07).dispose m.inp
    | none => d) d
  let queued := ((d.egress (.pleach p)).queues.drop 1).flatten
  let d := queued.foldl (fun d m => d.unroutable.dispose m.inp) d
  let d := d.modEgress (.pleach p) fun e => { e with queues := List.replicate 8 [], chosen := none }
  let d := d.modPort p fun x =>
    { opticsHold := x.opticsHold, words := x.words, scr := x.scr, since := d.now
      laneHits := if state = 0 then List.replicate 8 0 else x.laneHits
      laneMiss := if state = 0 then List.replicate 8 0 else x.laneMiss }
  (d.set (portKey p 2) state).resetLink (.pleach p)

/-- The channel whose Limit the next flit advertises (R388, R394): first every channel once; then those that have
changed, and in every fourth flit the next in turn. -/
def PleachPort.creditChan (x : PleachPort) : Nat × PleachPort :=
  let turn := msgChans.getD (x.nextChan % 14) 1
  let rotate : Nat × PleachPort := (turn, { x with nextChan := (x.nextChan + 1) % 14 })
  if x.intro > 0 then (msgChans.getD (14 - x.intro) 1, { x with intro := x.intro - 1 })
  else if x.words % 4 = 3 then rotate
  else
    let order := (List.range 14).map fun i => msgChans.getD ((x.nextChan + i) % 14) 1
    match order.find? (fun ch => (x.chans[ch]?).any (·.advert)) with
    | some ch => (ch, x)
    | none => rotate

/-- An ALIGN codeword goes out (R379, R381): it is not scrambled (R380). -/
def Dev.putAlign (d : Dev) (p : Nat) : Dev :=
  let n := (d.port p).words + 1
  let count := n / 4096 % 4096
  ((d.modPort p fun x => { x with words := n }).emit (.alignWord p count)).drive
    [.pleach p (laneSymbols (codewordSymbols (codewordTag true count) alignBody))]

/-- Is the next codeword of a port an ALIGN (R381)? -/
def Dev.alignTurn (d : Dev) (p : Nat) : Bool := ((d.port p).words + 1) % 4096 = 0

/-- A flit goes out as it is, scrambled, in a codeword (R379, R380) whose tag repeats the AlignCount of the newest ALIGN (log 101);
an ALIGN whose turn it is goes before. -/
def Dev.putFlit (d : Dev) (p : Nat) (f : Flit) : Dev :=
  let d := if d.alignTurn p then d.putAlign p else d
  let x := d.port p
  let (scr, body) := scramble x.scr f.bytes
  ((d.modPort p fun x => { x with words := x.words + 1, scr := scr }).emit (.flit p f)).drive
    [.pleach p (laneSymbols (codewordSymbols (codewordTag false (x.words / 4096)) body))]

/-- A flit goes out with the Ack of the port (R385, R390), and on a link that is UP with a credit update (R394). -/
def Dev.sendFlit (d : Dev) (p : Nat) (f : Flit) : Dev :=
  let up : Bool := d.portState p = 4
  let (ch, x) := if up then (d.port p).creditChan else (0, d.port p)
  let c := (x.chans[ch]?).getD {}
  let f := { f with ack := (x.rxSeq + 4095) % 4096, ackValid := x.rxAny || x.nakDue, nak := x.nakDue
                    creditChannel := ch, creditValid := up, creditLimit := if up then (c.freed + chanPool ch) % 2 ^ 24 else 0 }
  let x := { x with nakDue := false, chans := x.chans.modify ch fun c => { c with advert := false } }
  let seqd := f.kind = 1 || f.kind = 6
  let x := if seqd then
      { x with txSeq := (x.txSeq + 1) % 4096, replay := x.replay ++ [f]
               lastAdv := if x.replay.isEmpty then d.now else x.lastAdv }
    else x
  let d := (d.modPort p fun _ => x).putFlit p f
  if seqd then d.inc (portKey p 9) else d

/-- Eight RESET flits go out (R384, R419). -/
def Dev.sendResetFlits (d : Dev) (p : Nat) (lane : Bool) (reason : Nat) : Dev :=
  let f : Flit := { kind := 5, fill := 2, body := leBytes 1 (if lane then 2 else 1) ++ leBytes 1 reason }
  (List.range 8).foldl (fun (d : Dev) _ => d.sendFlit p f) d

/-- A LINK or LANE reset of a Pleach port (R419). -/
def Dev.resetPort (d : Dev) (p : Nat) (lane : Bool) (r : ResetReason) : Dev :=
  let d := if r = .peer then d else d.sendResetFlits p lane r.code
  let d := d.portDrop p (if lane then 0 else min 3 (d.portState p))
  (d.set (portKey p 6) r.code).flag 0x3108 0

/-- A write to a Pleach port's `ResetCmd` (R419). -/
def Dev.portResetAns (d : Dev) (p v : Nat) : Ans :=
  if v != 1 && v != 2 then fail d .range else ok (d.resetPort p (v = 2) .software)

/-- A write to a Pleach port's `Enable` or `LaserEnable` (R386): 0 holds the port in DOWN. -/
def Dev.portEnableAns (d : Dev) (p k v : Nat) : Ans :=
  let d := d.set k v
  ok (if v = 0 && d.portState p != 0 then d.portDrop p 0 else d)

/-- A write to `ResetCmd` of a Stem or Pleach port. -/
def Dev.resetCmd (d : Dev) (p : TimePort) (e : Env) (v : Nat) : Dev :=
  match p with
  | .stem x => if StemId.ok x then d.serveWrite e (stemIndex x) 4 v fun d v _ => d.stemResetAns x v else d
  | .pleach n => if n < 6 then d.serveWrite e (0x3101 + n) 5 v fun d v _ => d.portResetAns n v else d

/-- RESET_CMD_LINK (R370, R419). -/
def execResetCmdLink (p : TimePort) (e : Env) (s : State) : Host.Outcome State Fault Refusal :=
  s.on (timeUnit p) fun d => d.resetCmd p e 1

/-- RESET_CMD_LANE (R370, R419). -/
def execResetCmdLane (p : TimePort) (e : Env) (s : State) : Host.Outcome State Fault Refusal :=
  s.on (timeUnit p) fun d => d.resetCmd p e 2

/-! ### Lanes and bring-up -/

/-- One lane's lock (R381): its consecutive ALIGN symbols (3 lock it) and misses (2 lose it). -/
def laneStep (hit : Bool) (hits miss : Nat) : Nat × Nat :=
  if hit then (min 3 (hits + 1), 0)
  else if hits ≥ 3 then (if miss + 1 ≥ 2 then (0, 0) else (hits, miss + 1))
  else (0, 0)

/-- Are all eight lanes locked (R381, R386)? -/
def PleachPort.locked (x : PleachPort) : Bool := x.laneHits.all (· ≥ 3)

/-- What the RS decoder found in a codeword is counted (R382). -/
def Dev.countFec (d : Dev) (p : Nat) (fec : Fec) : Dev :=
  match fec with
  | .corrected n => d.add (portKey p 0x0C) n
  | .uncorrectable => d.inc (portKey p 0x0D)

/-- An ALIGN codeword is received (R381, R386, R419). -/
def Dev.alignWord (d : Dev) (p : Nat) (lanes : BitVec 8) (agree : Bool) : Dev :=
  let st := d.portState p
  if st = 0 then d
  else
    let x := d.port p
    let was := x.locked
    let next := (List.range 8).map fun l => laneStep (lanes.getLsbD l) (x.laneHits.getD l 0) (x.laneMiss.getD l 0)
    let lost := (List.range 8).any fun l => x.laneHits.getD l 0 ≥ 3 && (next.getD l (0, 0)).1 < 3
    let d := d.modPort p fun x => { x with laneHits := next.map (·.1), laneMiss := next.map (·.2) }
    if st ≥ 2 && lost then d.resetPort p true .lockLost
    else if st = 1 then
      if (d.port p).locked then
        (d.set (portKey p 2) 2).modPort p fun x => { x with agree := 0, disagree := 0 }
      else d
    else if agree then
      let d := d.modPort p fun x => { x with agree := x.agree + 1, disagree := 0 }
      if st = 2 && was && (d.port p).agree ≥ 4 then
        (d.set (portKey p 2) 3).modPort p fun x => { x with badSince := none, helloOk := false, sentAccept := false
                                                            gotAccept := false, lastHello := none }
      else d
    else
      let d := d.modPort p fun x => { x with agree := 0, disagree := x.disagree + 1 }
      if (d.port p).disagree ≥ 2 then d.resetPort p true .deskewLost else d

/-- ALIGN_CODEWORD (R381). -/
def execAlignCodeword (p : Nat) (fec : Fec) (m : LaneMarks) (s : State) :
    Host.Outcome State Fault Refusal :=
  s.onTrunk fun d => if p < 6 then (d.countFec p fec).alignWord p m.lanes m.agree else d

/-- BLOCK_LOCK (R348, R386): every lane of a Stem end, or of a Pleach port, is locked. -/
def execBlockLock (p : TimePort) (s : State) : Host.Outcome State Fault Refusal :=
  s.on (timeUnit p) fun d =>
    match p with
    | .stem e => if StemId.ok e then d.stemLocked e else d
    | .pleach n =>
      if n < 6 && d.portState n = 1 then
        (d.set (portKey n 2) 2).modPort n fun x =>
          { x with laneHits := List.replicate 8 3, laneMiss := List.replicate 8 0, agree := 0, disagree := 0 }
      else d

/-- BRING_UP_TIMEOUT (R348, R386). -/
def execBringUpTimeout (p : TimePort) (s : State) : Host.Outcome State Fault Refusal :=
  s.on (timeUnit p) fun d =>
    match p with
    | .stem e => if StemId.ok e then d.stemTimeout e else d
    | .pleach n =>
      let st := d.portState n
      if n < 6 && (st = 1 || st = 2) && d.now ≥ (d.port n).since + 2000000 then
        (d.set (portKey n 2) 0).modPort n fun x =>
          { x with laneHits := List.replicate 8 0, laneMiss := List.replicate 8 0, agree := 0, disagree := 0 }
      else d

/-- A port enters UP once it has sent ACCEPT and received it (R387, R388): the link runs at the lower of the two levels. -/
def Dev.maybeUp (d : Dev) (p : Nat) : Dev :=
  let x := d.port p
  if !(d.portState p = 3 && x.sentAccept && x.gotAccept) then d
  else
    let level := min (d.get 0x3100_05) (d.get (portKey p 4))
    let d := d.modPort p fun x => { laneHits := x.laneHits, laneMiss := x.laneMiss, agree := x.agree, words := x.words
                                    scr := x.scr, level := level, since := d.now, intro := 14, lastAdv := d.now }
    (((d.set (portKey p 2) 4).inc (portKey p 7)).set (portKey p 8) d.now).resetLink (.pleach p)

/-- In TRAIN a Pleach port sends a HELLO flit once per µs (R387). -/
def Dev.portHelloSend (d : Dev) (p : Nat) : Dev :=
  let x := d.port p
  if d.portState p != 3 || x.lastHello.any (d.now < · + 1000) then d
  else
    let h : PleachHello := { trunkId := d.get 0x3100_01, port := p, level := d.get 0x3100_05, sizeX := d.torusSize 0
                             sizeY := d.torusSize 1, sizeZ := d.torusSize 2, accept := x.helloOk }
    let d := d.modPort p fun x => { x with lastHello := some d.now, sentAccept := x.sentAccept || x.helloOk }
    (d.sendFlit p { kind := 4, fill := 8, body := h.bytes }).maybeUp p

/-- HELLO_SEND (R349, R387). -/
def execHelloSend (p : TimePort) (s : State) : Host.Outcome State Fault Refusal :=
  s.on (timeUnit p) fun d =>
    match p with
    | .stem e => if StemId.ok e then d.stemHelloSend e else d
    | .pleach n => if n < 6 then d.portHelloSend n else d

/-- The port opposite to a port (R376). -/
def opposite (p : Nat) : Nat := if p % 2 = 0 then p + 1 else p - 1

/-- A HELLO flit is received in TRAIN (R387). -/
def Dev.takePleachHello (d : Dev) (p : Nat) (h : PleachHello) : Dev :=
  if d.portState p != 3 then d
  else
    let own := d.get 0x3100_05
    let levelOk := h.level ≤ own + 1 && own ≤ h.level + 1
    let wired := h.sizeX = d.torusSize 0 && h.sizeY = d.torusSize 1 && h.sizeZ = d.torusSize 2 &&
      h.trunkId = d.neighbour p && h.port = opposite p
    let d := (d.set (portKey p 3) h.trunkId).set (portKey p 4) h.level
    let d := (d.flagIf (!levelOk) 0x3108 1).flagIf (!wired) 0x3108 4
    let d := d.modPort p fun x =>
      { x with helloOk := levelOk && wired, sentAccept := x.sentAccept && levelOk && wired, gotAccept := h.accept
               badSince := if wired then none else some (x.badSince.getD d.now) }
    d.maybeUp p

/-- WIRING_TIMEOUT (R387): the wiring checks have failed for 2 ms without a break. -/
def execWiringTimeout (p : Nat) (s : State) : Host.Outcome State Fault Refusal :=
  s.onTrunk fun d =>
    if p < 6 && d.portState p = 3 && (d.port p).badSince.any (d.now ≥ · + 2000000) then d.resetPort p true .wiring
    else d

/-- At a sample tick a port that may leaves DOWN for LOCK (R348, R375, R386). -/
def Dev.tickPort (d : Dev) (p : Nat) : Dev :=
  if d.portState p = 0 && d.portMay p then
    (d.set (portKey p 2) 1).modPort p fun x => { x with since := d.now }
  else if d.portState p = 4 && msgChans.any (fun ch =>
      d.nextFill p ch > 0 && !(d.pchan p ch).covers (unitsOf (d.nextFill p ch))) then d.inc (portKey p 0x0F)
  else d

/-- A trunk whose coordinates lie outside the torus flags it (R375). -/
def Dev.checkTorus (d : Dev) : Dev := d.flagIf (!d.inTorus (d.get 0x3100_01)) 0x3108 4

/-- The torus has other sizes, restored from the configuration image: a port that may not leave DOWN goes back there (R375,
R377). -/
def Dev.holdPorts (d : Dev) : Dev :=
  Dev.checkTorus ((List.range 6).foldl (fun (d : Dev) p =>
    if d.portState p != 0 && !d.portMay p then d.portDrop p 0 else d) d)

/-! ### Optics (R417, R418) -/

/-- A status word of an optical engine is taken (R418). -/
def Dev.opticsStatus (d : Dev) (p status : Nat) : Dev :=
  let v := status &&& 0xFF07
  let d := d.set (key (0x3110 + p) 2) v
  if v &&& 0xFF06 = 0 then d
  else
    let d := (d.flag 0x3108 7).resetPort p true .optics
    d.modPort p fun x => { x with opticsHold := true }

/-- OPTICS_FAULT (R418). -/
def execOpticsFault (p : Nat) (status : BitVec 32) (s : State) : Host.Outcome State Fault Refusal :=
  s.onTrunk fun d => if p < 6 then d.opticsStatus p status.toNat else d

/-- OPTICS_READY (R418). -/
def execOpticsReady (p : Nat) (s : State) : Host.Outcome State Fault Refusal :=
  s.onTrunk fun d =>
    if p < 6 then (d.set (key (0x3110 + p) 2) 1).modPort p fun x => { x with opticsHold := false } else d

/-! ### Flits received -/

/-- A failed flit: one NAK goes out for the expected Seq of a link that is UP (R389). -/
def Dev.nakFlit (d : Dev) (p : Nat) : Dev :=
  if d.portState p != 4 then d
  else d.modPort p fun x => if x.naked then x else { x with naked := true, nakDue := true }

/-- Every outstanding flit is sent again (R390), or the port resets after `RetryLimit` replays (R391). -/
def Dev.replayPort (d : Dev) (p : Nat) : Dev :=
  let x := d.port p
  if x.replay.isEmpty then d
  else if x.replays ≥ d.get 0x3100_07 then (d.resetPort p false .retryExhausted).flag 0x3108 2
  else (d.modPort p fun x => { x with resend := x.replay, replays := x.replays + 1, lastAdv := d.now }).inc
    (portKey p 0x0E)

/-- The Ack of a flit covers the outstanding flits up to AckSeq; its NAK asks for the rest again (R390). -/
def Dev.takeAck (d : Dev) (p : Nat) (f : Flit) : Dev :=
  if !f.ackValid then d
  else
    let x := d.port p
    let before := (x.replay.head?).any fun g => (f.ack + 1) % 4096 = g.seq
    match x.replay.findIdx? (·.seq = f.ack) with
    | some i =>
      let left := x.replay.drop (i + 1)
      let d := d.modPort p fun x =>
        { x with replay := left, resend := x.resend.filter left.contains, lastAdv := d.now, replays := 0 }
      if f.nak then d.replayPort p else d
    | none => if f.nak && before then d.replayPort p else d

/-- The credit update of a flit (R394). -/
def Dev.takeCredit (d : Dev) (p : Nat) (f : Flit) : Dev :=
  if f.creditValid then d.modChan p (f.creditChannel % 16) fun x => { x with limit := some (f.creditLimit % 2 ^ 24) }
  else d

/-- The body of a DATA flit joins its channel's messages (R399, R400); true: a header is malformed. -/
def PChan.take : (fuel : Nat) → PChan → Bytes → PChan × Bool
  | 0, x, _ => (x, false)
  | fuel + 1, x, bs =>
    if bs.isEmpty then (x, false)
    else
      let r := x.rx.getD { no := x.begun + 1, got := 0, head := [] }
      let x := if x.rx.isSome then x else { x with begun := r.no, open_ := x.open_ ++ [r.no] }
      if r.head.length < 16 then
        let n := min bs.length (16 - r.head.length)
        let r := { r with got := r.got + n, head := r.head ++ bs.take n }
        let len := natAt r.head 12 4
        if r.head.length = 16 && (len = 0 || len > 16777216) then ({ x with rx := some r }, true)
        else PChan.take fuel { x with rx := some r } (bs.drop n)
      else
        let total := natAt r.head 12 4 + 20
        let n := min bs.length (total - r.got)
        if r.got + n ≥ total then PChan.take fuel { x with rx := none } (bs.drop n)
        else ({ x with rx := some { r with got := r.got + n } }, false)

/-- A DATA flit is taken (R394, R399, R400). -/
def Dev.takeData (d : Dev) (p : Nat) (f : Flit) : Dev :=
  let ch := f.channel % 16
  let x := d.pchan p ch
  let first := (x.rx.map (·.no)).getD (x.begun + 1)
  let (y, bad) := PChan.take (2 * f.fill + 2) x (bytesAt f.body 0 f.fill)
  let y := ({ y with held := y.held ++ [(unitsOf f.fill, first, y.begun)] } : PChan).dispose 0
  let d := d.modChan p ch fun _ => y
  if bad then (d.resetPort p false .malformed).flag 0x3108 3 else d

/-- The Ack and the credit update of a good flit are taken on a link that is UP (R385). -/
def Dev.takeFields (d : Dev) (p : Nat) (f : Flit) : Dev :=
  if d.portState p = 4 then (d.takeAck p f).takeCredit p f else d

/-- A good flit is accepted, discarded or refused (R389), its Ack and credit taken first; whether it is accepted. -/
def Dev.acceptFlit (d : Dev) (p : Nat) (f : Flit) : Dev × Bool :=
  let d := d.takeFields p f
  let x := d.port p
  let accept (d : Dev) : Dev := (d.inc (portKey p 0x0A)).modPort p fun x => { x with naked := false }
  if f.kind != 1 && f.kind != 6 then (accept d, true)
  else if d.portState p != 4 then (d, false)
  else if f.seq = x.rxSeq then
    ((accept d).modPort p fun x => { x with rxSeq := (x.rxSeq + 1) % 4096, rxAny := true }, true)
  else if (x.rxSeq + 4096 - f.seq % 4096) % 4096 ≤ 2047 then (d, false)
  else (d.nakFlit p, false)

/-- What an accepted flit does (R384): a time message reaches the unit by TIME_MESSAGE. -/
def Dev.actFlit (d : Dev) (p : Nat) (f : Flit) : Dev :=
  match f.kind with
  | 1 => d.takeData p f
  | 4 => d.takePleachHello p (readHello f.body)
  | 5 => d.resetPort p (natAt f.body 0 1 = 2) .peer
  | 6 => d.abandonOpen p (f.channel % 16)
  | _ => d

/-- A codeword brings a flit: one that the decoder cannot correct, whose Crc fails, or of an unlisted Kind or Fill has failed
(R382, R385, R389). Flits of a kind that `mine` leaves out come by another command. -/
def Dev.takeFlit (d : Dev) (p : Nat) (fec : Fec) (data : Bytes) (mine : Nat → Bool) : Dev :=
  let d := d.countFec p fec
  let f := readFlit data
  if fec = .uncorrectable then d.nakFlit p
  else if !f.crcOk || f.fill > 624 || f.kind = 0 || f.kind > 6 then (d.inc (portKey p 0x0B)).nakFlit p
  else if !mine f.kind then d
  else match d.acceptFlit p f with
  | (d, true) => d.actFlit p f
  | (d, false) => d

/-- FLIT (R389): a DATA, IDLE or TIME flit. -/
def execFlit (p : Nat) (fec : Fec) (data : Bytes) (s : State) : Host.Outcome State Fault Refusal :=
  s.onTrunk fun d => if p < 6 then d.takeFlit p fec data (· ≤ 3) else d

/-- PLEACH_HELLO (R387): a HELLO flit. -/
def execPleachHello (p : Nat) (f : RxFlit) (s : State) : Host.Outcome State Fault Refusal :=
  s.onTrunk fun d => if p < 6 then d.takeFlit p f.fec f.data (· = 4) else d

/-- RESET_FLIT (R419): a RESET flit. -/
def execResetFlit (p : Nat) (fec : Fec) (data : Bytes) (s : State) : Host.Outcome State Fault Refusal :=
  s.onTrunk fun d => if p < 6 then d.takeFlit p fec data (· = 5) else d

/-- ABORT_FLIT (R399): an ABORT flit. -/
def execAbortFlit (p : Nat) (fec : Fec) (data : Bytes) (s : State) : Host.Outcome State Fault Refusal :=
  s.onTrunk fun d => if p < 6 then d.takeFlit p fec data (· = 6) else d

/-- FLIT_RETRY_TIMEOUT (R390). -/
def execFlitRetryTimeout (p : Nat) (s : State) : Host.Outcome State Fault Refusal :=
  s.onTrunk fun d =>
    let x := d.port p
    if p < 6 && d.portState p = 4 && !x.replay.isEmpty && d.now ≥ x.lastAdv + d.get 0x3100_06 then d.replayPort p
    else d

/-! ### Flits sent -/

/-- The bytes of a message on the link (R397). -/
def pmsgBytes (m : PMsg) : Bytes :=
  let head (hops : Nat) : Bytes :=
    leBytes 1 m.kind ++ leBytes 1 (m.cls % 8) ++ leBytes 1 (b2n m.direct) ++ leBytes 1 hops ++
    leBytes 2 (m.dest % 2 ^ 12) ++ leBytes 2 (m.source % 2 ^ 12) ++ leBytes 1 m.partition ++ zeros 3 ++
    leBytes 4 m.payload.length
  let c := crc32c (head 0 ++ m.payload)
  head m.hops ++ m.payload ++ leBytes 4 (if m.trailerOk then c else c + 1)

/-- A message begins on a channel (R399, R407). -/
def Dev.startChan (d : Dev) (p ch : Nat) (m : EMsg) : Dev :=
  let d := d.modEgress (.pleach p) fun e =>
    { e with queues := e.queues.modify (ch % 8) fun q => q.filter (fun y => y.arr != m.arr) }
  let d := d.modChan p ch fun x => { x with tx := some (m, 0) }
  (d.inc (portKey p 0x10)).payShaper (.pleach p) (ch % 8) m.len

/-- A DATA flit of a class goes out (R407, R408). -/
def Dev.sendData (d : Dev) (p c : Nat) : Dev :=
  match d.chanOf p c with
  | none => d.sendFlit p { kind := 2 }
  | some ch =>
    match d.owner p ch with
    | none => d.sendFlit p { kind := 2 }
    | some (m, sent) =>
      let n := d.nextFill p ch
      let body := match m.pm with
        | some pm => ((pmsgBytes pm).drop sent).take n
        | none => (m.bytes.drop sent).take n
      let d := if (d.pchan p ch).tx.isSome then d else d.startChan p ch m
      let d := d.modChan p ch fun x =>
        { x with tx := if sent + n ≥ m.len then none else some (m, sent + n), charged := (x.charged + unitsOf n) % 2 ^ 24 }
      let d := if sent + n ≥ m.len then d.dispose m.inp else d
      d.sendFlit p { kind := 1, channel := ch, seq := (d.port p).txSeq, fill := n, body := body }

/-- A time message leaves on a Pleach port in a TIME flit (R384, R395). -/
def Dev.pleachTime (d : Dev) (p : Nat) (tx : Stamp) : Dev :=
  let d := d.popTime (.pleach p)
  let m := d.timeMsg (.pleach p)
  (d.noteTime (.pleach p) m (d.linkStamp false tx)).sendFlit p { kind := 3, fill := 36, body := m.bytes }

/-- What a port that is UP sends in a codeword slot when no time message, replay or ABORT is due (R408). -/
def Dev.dataWord (d : Dev) (p : Nat) : Dev :=
  let g : EgressId := .pleach p
  let chosen := (d.egress g).chosen.filter fun c => (d.chanOf p c).isSome
  let d := d.modEgress g fun e => { e with chosen := none }
  match chosen with
  | some c => d.sendData p c
  | none => match d.choosePleach p with
    | (some c, d) => d.sendData p c
    | (none, d) => d.sendFlit p { kind := 2 }

/-- What a port sends in a codeword slot (R381, R386, R388, R390, R395, R408): a time message goes ahead of replays. -/
def Dev.codeword (d : Dev) (p : Nat) : Dev :=
  let x := d.port p
  if d.alignTurn p then d.putAlign p
  else if d.portState p != 4 then d.sendFlit p { kind := 2 }
  else if d.timeWaits (.pleach p) then d.pleachTime p {}
  else match x.resend with
  | f :: rest => (d.modPort p fun x => { x with resend := rest }).putFlit p f
  | [] =>
    if x.replay.length ≥ 1024 then d.sendFlit p { kind := 2 }
    else match x.aborts with
    | ch :: rest =>
      ((d.modPort p fun x => { x with aborts := rest }).inc (portKey p 0x11)).sendFlit p
        { kind := 6, channel := ch, seq := x.txSeq }
    | [] => if x.intro > 0 then d.sendFlit p { kind := 2 } else d.dataWord p

/-- FLIT_SEND (R408). -/
def execFlitSend (p : Nat) (s : State) : Host.Outcome State Fault Refusal :=
  s.onTrunk fun d => if p < 6 then d.codeword p else d

/-- The time message that is due on a port of a trunk joins class 0 of its egress port (R87, R325). -/
def Dev.queueTime (d : Dev) (p : TimePort) (g : EgressId) : Dev :=
  if d.timeDue p then (d.startPeriod p).pushEgress g 0 { len := 36 } else d

/-- TIME_MESSAGE_SEND (R87): `tx` is the time from the newest sample tick to the first transmit opportunity, at which the message
starts; a leaf's goes at once, a trunk's when class 0's shaper lets it (R326, R334). -/
def execTimeMessageSend (p : TimePort) (tx : Stamp) (s : State) : Host.Outcome State Fault Refusal :=
  s.on (timeUnit p) fun d =>
    if !d.linkUp p then d
    else match p with
    | .stem (.leaf l) => if d.timeDue p then (d.startPeriod p).stemTime (.leaf l) tx else d
    | .stem (.trunk n) =>
      let d := d.queueTime p (.stem n)
      if d.timeWaits (.stem n) then (d.popTime (.stem n)).stemTime (.trunk n) tx else d
    | .pleach n =>
      let d := d.queueTime p (.pleach n)
      if d.timeWaits (.pleach n) then d.pleachTime n tx else d

/-! ### Messages -/

/-- A message header at its trunk (R401, R402, R406, R407, R412): `port` is the port it came in on, none for a message
injected here. -/
def Dev.takeHeader (d : Dev) (inp : Option (Nat × Nat × Nat)) (vc : Nat) (m : PMsg) : Dev :=
  let own := d.get 0x3100_01
  let barredIn := match inp with
    | some (p, _, _) => !d.admits (0x3120 + p) m.partition
    | none => false
  let sdpDest := natAt m.payload 4 4
  let toLeaf := m.kind = 0x01 && !sdpDest.testBit 20
  if barredIn then (d.fenced .ingress ((inp.map (·.1)).getD 0) m).dispose inp
  else if (m.direct && inp.isSome) || m.dest = own then
    if !d.admits 0x3126 m.partition then (d.fenced .local 0 m).dispose inp
    else if toLeaf && m.partition != 0 && d.stemPartition (sdpDest % 256) != m.partition then
      (d.fenced .stemDelivery (sdpDest % 256) m).dispose inp
    else d.modFab fun f => { f with local_ := f.local_ ++ [(m, inp)] }
  else
    let d := if inp.isSome then d else d.inc 0x310A_03
    if !d.inTorus m.dest then d.unroutable.dispose inp
    else match d.routePort m.dest with
    | none => d.unroutable.dispose inp
    | some q =>
      if !d.portUp q then d.unroutable.dispose inp
      else if !d.admits (0x3120 + q) m.partition then (d.fenced .egress q m).dispose inp
      else
        let d := if inp.isSome then d.inc 0x310A_02 else d
        d.pushPort inp vc q m

/-- MESSAGE_HEADER (R407): the header of message `m` has come in an accepted flit of a port, or is injected here. -/
def execMessageHeader (i : Ingress) (vc : Nat) (m : PMsg) (s : State) : Host.Outcome State Fault Refusal :=
  s.onTrunk fun d =>
    let m := { m with cls := m.cls % 8 }
    match i with
    | .inject => if m.payload.isEmpty || m.payload.length > 16777216 then d else d.takeHeader none 0 m
    | .port p =>
      if p ≥ 6 then d
      else if m.payload.isEmpty || m.payload.length > 16777216 then (d.resetPort p false .malformed).flag 0x3108 3
      else
        let ch := m.cls + 8 * (vc % 2)
        let x := d.pchan p ch
        let no := if x.heads < x.begun then x.heads + 1 else 0
        let d := if no = 0 then d else d.modChan p ch fun x => { x with heads := no }
        d.takeHeader (some (p, ch, no)) (vc % 2) m

/-- MESSAGE_DELIVER (R401, R398): a message for this trunk has come whole; one whose head has passed the fences passes
(R415). -/
def execMessageDeliver (m : PMsg) (s : State) : Host.Outcome State Fault Refusal :=
  s.onTrunk fun d =>
    let entry := d.tk.fab.local_.find? (·.1 = m)
    let d := match entry with
      | some x => (d.modFab fun f => { f with local_ := f.local_.erase x }).dispose x.2
      | none => d
    if m.kind = 0 || m.kind > 0x0C then d.inc 0x310A_06
    else if !m.trailerOk then d.inc 0x310A_05
    else
      let d := d.inc 0x310A_01
      if m.kind = 0x01 && !(natAt m.payload 4 4).testBit 20 then
        if entry.isSome then d.toLeaf (natAt m.payload 4 4 % 256) 0x03 m.payload
        else d.toLeafSdp m.source m.partition m.payload
      else d.emit (.delivered m)

/-- FENCE_NOTICE (R414): violations of this trunk's messages elsewhere. -/
def execFenceNotice (source count : Nat) (entry : Bytes) (s : State) : Host.Outcome State Fault Refusal :=
  s.onTrunk fun d =>
    (d.modFab fun f => { f with noticed := [(source, count, bytesAt entry 0 32)] }).emit (.notice count (bytesAt entry 0 32))

end Sys2Proof.Machine
end

