-- ==== Sys2Proof/Machine/Reduce.lean ====
section
/-! DEFINITION. Reduction groups (chapter 12): boxes and lines, setup and teardown, membership, group changes,
transitions, fleet triggers, and the boundary of the trunk's reference window (R9, R415). -/

namespace Sys2Proof.Machine

open Sys2Proof

/-! ### The trunk's own requests to its leaves -/

/-- The trunk sends a request of its own to the leaf on a Stem port, in-band; the answer comes in an SDP_RESPONSE and, of a read,
is known under the subindex `known`. The last segment of a write carries LAST (R40, R46). -/
def Dev.askLeaf (d : Dev) (port opcode index sub known offset len : Nat) (data : Bytes) : Dev :=
  let (txn, d) := d.nextTxn
  let r : Resp := { opcode := opcode, txn := txn, dest := d.leafAddress port, source := d.address, index := index, sub := sub
                    flags := if opcode = 2 then 2 else 0, offset := offset, length := len, data := data }
  (d.noteAsked { r with sub := known } none).toLeaf port 0x03 (sdpBytes r)

/-- The trunk writes an object of the leaf on a Stem port. -/
def Dev.writeLeaf (d : Dev) (port index sub len v : Nat) : Dev := d.askLeaf port 0x02 index sub sub 0 len (leBytes len v)

/-- The trunk reads an object of the leaf on a Stem port (READ 0x01, READ_RECORD 0x03). -/
def Dev.readLeaf (d : Dev) (port opcode index sub len : Nat) : Dev := d.askLeaf port opcode index sub sub 0 len []

/-- The trunk reads the second 1,024 bytes of an object of a leaf; the answer is known as subindex 1 of it. -/
def Dev.readSecond (d : Dev) (port index : Nat) : Dev := d.askLeaf port 0x01 index 0 1 1024 1024 []

/-- What a leaf has answered for an object. -/
def Dev.knownOf (d : Dev) (port index sub : Nat) : Option Bytes :=
  (d.srv.known.find? fun (x : (Nat × Nat × Nat) × Bytes) => x.1 = (d.leafAddress port, index, sub)).map (·.2)

/-! ### Boxes, lines and slots -/

/-- The reduction state changed. -/
def Dev.modRed (d : Dev) (f : RedSt → RedSt) : Dev := { d with tk := { d.tk with red := f d.tk.red } }

/-- A slot's internal state. -/
def Dev.slot (d : Dev) (n : Nat) : SlotSt := (d.tk.red.slots[n]?).getD {}

/-- A slot's internal state changed. -/
def Dev.modSlot (d : Dev) (n : Nat) (f : SlotSt → SlotSt) : Dev :=
  d.modRed fun r => { r with slots := r.slots.modify n f }

/-- An object of slot `n`. -/
def slotKey (n sub : Nat) : Nat := key (0x3210 + n) sub

/-- State of a slot: 0 FREE, 1 RESERVED, 2 ACTIVE, 3 TEARING_DOWN, 4 QUARANTINED. -/
def Dev.slotState (d : Dev) (n : Nat) : Nat := d.get (slotKey n 1)

/-- The slots. -/
def slotNos : List Nat := List.range 64

/-- Does a slot hold a group ID in one of these states? -/
def Dev.holds (d : Dev) (n group : Nat) (states : List Nat) : Bool :=
  n < 64 && d.get (slotKey n 2) = group && states.contains (d.slotState n)

/-- The slot that holds a group in one of these states. -/
def Dev.slotOf (d : Dev) (group : Nat) (states : List Nat) : Option Nat := slotNos.find? (d.holds · group states)

/-- A slot's State is set; ActiveGroups counts those not FREE. -/
def Dev.setSlot (d : Dev) (n state : Nat) : Dev :=
  let d := d.set (slotKey n 1) state
  d.set 0x3201_06 (slotNos.filter (d.slotState · != 0)).length

/-- T_w of a slot's group (R425). -/
def Dev.groupTime (d : Dev) (n w : Nat) : Nat := d.get (slotKey n 8) + 8 * d.get (slotKey n 9) * w

/-- The first window of a schedule whose T_w is at least `t`. -/
def firstWindow (start period t : Nat) : Nat := (t - start + 8 * period - 1) / (8 * period)

/-- Extent of a box in dimension `k` (R441). -/
def extentOf (e k : Nat) : Nat := field e (11 - 4 * k) (8 - 4 * k) + 1

/-- The position of a trunk in a dimension of a box (R423). -/
def Dev.position (d : Dev) (origin id k : Nat) : Nat :=
  let n := d.torusSize k
  (coord id k + n - coord origin k % n) % n

/-- Does a box contain a trunk (R423)? -/
def Dev.inBox (d : Dev) (origin extent id : Nat) : Bool :=
  d.inTorus id && (List.range 3).all fun k => d.position origin id k < extentOf extent k

/-- A trunk ID with its coordinate in dimension `k` at position `p` of a box. -/
def Dev.atPosition (d : Dev) (origin id k p : Nat) : Nat :=
  let c := (coord origin k + p) % d.torusSize k
  id - coord id k * 2 ^ (8 - 4 * k) + c * 2 ^ (8 - 4 * k)

/-- The trunks of a box, by Z, then Y, then X position. -/
def Dev.boxTrunks (d : Dev) (origin extent : Nat) : List Nat :=
  (List.range (extentOf extent 0)).flatMap fun x => (List.range (extentOf extent 1)).flatMap fun y =>
    (List.range (extentOf extent 2)).map fun z =>
      d.atPosition origin (d.atPosition origin (d.atPosition origin 0 0 x) 1 y) 2 z

/-- The PLUS reach of the trunk at position `p` of a line (R431). -/
def reachPlus (l n p : Nat) : Nat :=
  if l = 1 then 0 else if l < n then l - 1 - p else if n = 2 then 1 else n / 2

/-- The MINUS reach (R431). -/
def reachMinus (l n p : Nat) : Nat :=
  if l = 1 then 0 else if l < n then p else if n = 2 then 0 else (n - 1) / 2

/-- The hop count of a stage (R431). -/
def hopsOf (l n : Nat) : Nat := if l = 1 then 0 else if l < n then l - 1 else if n = 2 then 1 else n / 2

/-- The reaches of a trunk in dimension `k` of a box: PLUS and MINUS. -/
def Dev.reaches (d : Dev) (origin extent id k : Nat) : Nat × Nat :=
  let l := extentOf extent k
  let p := d.position origin id k
  (reachPlus l (d.torusSize k) p, reachMinus l (d.torusSize k) p)

/-- The hop count of stage `k` + 1 of a box. -/
def Dev.stageHops (d : Dev) (extent k : Nat) : Nat := hopsOf (extentOf extent k) (d.torusSize k)

/-- The time that the stages up to stage `s` allow after D₀ (R433). -/
def Dev.stageTime (d : Dev) (extent s : Nat) : Nat :=
  ((List.range s).map fun k => let h := d.stageHops extent k; if h = 0 then 0 else 250 * h + 140).sum

/-- D_s of window w of a slot (R433). -/
def Dev.deadline (d : Dev) (n w s : Nat) : Nat :=
  d.groupTime n w + d.get 0x3201_01 + 300 + d.stageTime (d.get (slotKey n 7)) s

/-- The ports that the stages of a box use at this trunk (R442). -/
def Dev.stagePorts (d : Dev) (origin extent : Nat) : List Nat :=
  let own := d.get 0x3100_01
  (List.range 3).flatMap fun k =>
    let l := extentOf extent k
    let n := d.torusSize k
    let p := d.position origin own k
    if l = 1 then [] else if l = n then [2 * k, 2 * k + 1]
    else (if p + 1 < l then [2 * k] else []) ++ (if 0 < p then [2 * k + 1] else [])

/-! ### Definitions of groups (R441) -/

/-- A group's definition, as `GroupSetup` lays it out. -/
structure GroupDef where
  group     : Nat
  part      : Nat
  origin    : Nat
  extent    : Nat
  start     : Nat
  period    : Nat
  observers : List Nat
  fields    : Bytes
  trunks    : List (Nat × Bytes)
  whole     : Bool

/-- The definition that bytes hold. -/
def groupDef (b : Bytes) : GroupDef :=
  let nf := natAt b 20 2
  let nt := natAt b 22 2
  let off := 32 + 8 * nf
  { group := natAt b 0 2 % 4096, part := natAt b 2 1, origin := natAt b 4 2, extent := natAt b 6 2 % 4096
    start := natAt b 8 8, period := natAt b 16 4
    observers := [natAt b 24 2, natAt b 26 2].filter (· != 0xFFFF)
    fields := bytesAt b 32 (8 * nf)
    trunks := (List.range nt).map fun i => (natAt b (off + 36 * i) 2, bytesAt b (off + 36 * i + 4) 32)
    whole := 1 ≤ nf && nf ≤ 64 && nt ≤ 4096 && b.length = off + 36 * nt }

/-- Does a definition keep the rules of R422, R423, R427 and R441? -/
def Dev.defOk (d : Dev) (g : GroupDef) : Bool :=
  let fs := fieldsOf g.fields
  g.whole && 1 ≤ g.group && g.group ≤ 0xFFE && g.start % 8 = 0 && 64 ≤ g.period && g.period ≤ 125000
  && d.inTorus g.origin && g.origin < 4096
  && (List.range 3).all (fun k => extentOf g.extent k ≤ d.torusSize k)
  && fs.all FieldD.valid && partialSize fs ≤ 2048
  && g.trunks.all (fun t => d.inBox g.origin g.extent t.1)
  && d.inBox g.origin g.extent (d.get 0x3100_01)
  && g.observers.all (fun o => !d.inBox g.origin g.extent o)

/-- The lag bound (R437). -/
def Dev.lagOf (d : Dev) (extent : Nat) : Nat := d.get 0x3201_01 + 300 + d.stageTime extent 3

/-- The reach of this trunk on port `p`. -/
def Dev.portReach (d : Dev) (origin extent p : Nat) : Nat :=
  let r := d.reaches origin extent (d.get 0x3100_01) (p / 2)
  if p % 2 = 0 then r.1 else r.2

/-- The relay memory that a group reserves (R438). -/
def Dev.relayOf (d : Dev) (g : GroupDef) : Nat :=
  let sum := ((List.range 6).map (d.portReach g.origin g.extent)).sum
  ((d.lagOf g.extent + 8 * g.period - 1) / (8 * g.period) + 1) * sum * (partialSize (fieldsOf g.fields) + 20)

/-- The rates of loads (bytes per window, ticks per window) summed exactly, as a fraction of bytes per µs (R438). -/
def rateSum (l : List (Nat × Nat)) : Nat × Nat :=
  l.foldl (fun (s : Nat × Nat) x => (s.1 * x.2 + x.1 * 125 * s.2, s.2 * x.2)) (0, 1)

/-- Would a group's load exceed `ReductionLoadLimit` on a port (R438)? -/
def Dev.overLoad (d : Dev) (g : GroupDef) : Bool :=
  let p := partialSize (fieldsOf g.fields)
  (List.range 6).any fun q =>
    let others := (slotNos.filter (d.slotState · != 0)).map fun n => ((d.slot n).load.getD q 0, max 1 (d.get (slotKey n 9)))
    let s := rateSum ((d.portReach g.origin g.extent q * (p + 20), g.period) :: others)
    s.1 > d.get 0x3201_04 * s.2

/-- Is generation `h` later than `g` (R443)? -/
def genLater (h g : Nat) : Bool := 0 < seqDiff 8 h g

/-- Is generation `h` the same as `g` or later (R443)? -/
def genFrom (h g : Nat) : Bool := h = g || genLater h g

/-- Is generation `h` older than `g` (R443)? -/
def genOlder (h g : Nat) : Bool := seqDiff 8 h g < 0

/-! ### GROUP_CONTROL messages (R445) -/

/-- The payload of a GROUP_CONTROL message. -/
def ctlBytes (op reason group gen nakGen at_ quarantine : Nat) (setup : Bytes) : Bytes :=
  leBytes 1 op ++ leBytes 1 reason ++ leBytes 2 group ++ leBytes 1 gen ++ leBytes 1 nakGen ++ zeros 2 ++ leBytes 4 at_ ++
  zeros 4 ++ leBytes 8 quarantine ++ setup

/-- A GROUP_CONTROL message goes to another trunk. -/
def Dev.sendCtl (d : Dev) (dest : Nat) (payload : Bytes) : Dev :=
  d.sendFree { kind := 0x06, cls := 2, dest := dest, source := d.get 0x3100_01, payload := payload }

/-- A GROUP_CHANGE record (R453). -/
def Dev.groupRecord (d : Dev) (group gen change at_ leaf count : Nat) : Dev :=
  d.record .groupChange d.now (groupPayload group gen change at_ leaf count)

/-- The Stem ports that a member map names (R441). -/
def portsOfMap (m : Bytes) : List Nat := (List.range 256).filter fun q => (natAt m (q / 8) 1).testBit (q % 8)

/-- The member map of Stem ports. -/
def mapOfPorts (ps : List Nat) : Bytes := leBytes 32 (ps.foldl setBit 0)

/-- Why a trunk refuses a SETUP, with the generation it carries: the lowest reason that holds (R442). -/
def Dev.refusal (d : Dev) (g : GroupDef) (gen home : Nat) : Option (Nat × Nat) :=
  let mode := if home = d.get 0x3100_01 then d.get 0x3200_00 = 1 else Config.homeHost home g.group gen
  let ports := d.stagePorts g.origin g.extent
  let old := slotNos.find? fun n => d.holds n g.group [3, 4] && genFrom (d.get (slotKey n 3)) gen
  if slotNos.all (d.slotState · != 0) then some (1, 0)
  else if d.overLoad g then some (2, 0)
  else if d.get 0x3201_08 + d.relayOf g > d.get 0x3201_07 then some (3, 0)
  else if (d.slotOf g.group [1, 2]).isSome then some (4, 0)
  else match old with
  | some n => some (5, d.get (slotKey n 3))
  | none =>
    if ports.any (fun p => !d.portUp p) then some (6, 0)
    else if ports.any (fun p => !d.admits (0x3120 + p) g.part) || !d.admits 0x3126 g.part then some (7, 0)
    else if mode != (d.get 0x3200_00 = 1) then some (8, 0)
    else none

/-- A slot is reserved for a group (R424, R442): the lowest FREE one. -/
def Dev.reserve (d : Dev) (g : GroupDef) (gen home : Nat) : Dev :=
  match slotNos.find? (d.slotState · = 0) with
  | none => d
  | some n =>
    let own := d.get 0x3100_01
    let p := partialSize (fieldsOf g.fields)
    let map := ((g.trunks.find? (·.1 = own)).map (·.2)).getD (zeros 32)
    let reach := (List.range 6).foldl (fun b q => b + d.portReach g.origin g.extent q * 2 ^ (4 * q)) 0
    let relay := d.relayOf g
    let d := [(2, g.group), (3, gen), (4, g.part), (5, home), (6, g.origin), (7, g.extent), (8, g.start), (9, g.period),
      (0xA, 0), (0xB, 0xFFFFFFFF), (0xC, 0), (0xD, reach), (0xE, d.lagOf g.extent), (0xF, p)].foldl
        (fun (d : Dev) (x : Nat × Nat) => d.set (slotKey n x.1) x.2) d
    let d := (d.setBlob (slotKey n 0x10) g.fields).setBlob (slotKey n 0x11) map
    let d := d.set 0x3201_08 (d.get 0x3201_08 + relay)
    let st : SlotSt := {
      observers := g.observers, members := (portsOfMap map).map fun q => { port := q }, relay := relay
      load := (List.range 6).map fun q => d.portReach g.origin g.extent q * (p + 20) }
    let d := (d.modSlot n fun _ => st).setSlot n 1
    d.modRed fun r => { r with lastGen := insertKey g.group gen r.lastGen }

/-- A SETUP at a trunk of the box (R442, R453): its answer (op, reason, NakGeneration, QuarantineUntil). -/
def Dev.takeSetup (d : Dev) (bytes : Bytes) (gen home : Nat) : Dev × (Nat × Nat × Nat × Nat) :=
  let g := groupDef bytes
  match d.refusal g gen home with
  | some (reason, h) => (d, 3, reason, h, 0)
  | none =>
    let q := (((d.slotOf g.group [3, 4]).map fun n => d.get (slotKey n 0xC)).getD 0)
    let d := d.reserve g gen home
    let own := ((g.trunks.find? (·.1 = d.get 0x3100_01)).map fun t => (portsOfMap t.2).length).getD 0
    (d.groupRecord g.group gen 1 0 0 own, 2, 0, 0, q)

/-- SETUP (R442). -/
def execSetup (m : GroupCtl) (s : State) : Host.Outcome State Fault Refusal :=
  s.onTrunk fun d =>
    let (d, op, reason, nak, q) := d.takeSetup m.setup m.generation m.sender
    d.sendCtl m.sender (ctlBytes op reason m.group m.generation nak 0 q [])

/-- A slot is given up: FREE, with its relay memory. -/
def Dev.freeSlotNo (d : Dev) (n : Nat) : Dev :=
  let d := d.set 0x3201_08 (d.get 0x3201_08 - (d.slot n).relay)
  (d.modSlot n fun _ => {}).setSlot n 0

/-- An ABORT releases the slot that a generation of a group reserved (R444). -/
def Dev.takeAbort (d : Dev) (group gen : Nat) : Dev :=
  match d.slotOf group [1] with
  | some n => if d.get (slotKey n 3) = gen then d.freeSlotNo n else d
  | none => d

/-- GROUP_CONTROL_ABORT (R444). -/
def execGroupControlAbort (m : GroupCtl) (s : State) : Host.Outcome State Fault Refusal :=
  s.onTrunk fun d => d.takeAbort m.group m.generation

/-! ### Group changes (R446, R448, R451) -/

/-- Group changes join the queue. -/
def Dev.queueChanges (d : Dev) (l : List Change) : Dev :=
  let d := d.modRed fun r => { r with changes := r.changes ++ l }
  d.set 0x3201_09 d.tk.red.changes.length

/-- The change that binds a member of a slot's group at a window. -/
def Dev.bindOf (d : Dev) (n port at_ : Nat) : Change :=
  { bind := true, port := port, slot := n, at_ := at_, start := d.get (slotKey n 8), period := d.get (slotKey n 9)
    group := d.get (slotKey n 2), gen := d.get (slotKey n 3), part := d.get (slotKey n 4) }

/-- The change that unbinds a leaf from a slot's group at a window: Group 0x000, Generation 0. -/
def Dev.unbindOf (d : Dev) (n port at_ : Nat) (teardown : Bool) : Change :=
  { d.bindOf n port at_ with bind := false, teardown := teardown, group := 0, gen := 0, part := 0 }

/-- The pacing taps that a PacingTaps word names (0x4180 + n, sub 03). -/
def pacingTaps (w : Nat) : List Nat := ((List.range 4).map fun i => field w (8 * i + 7) (8 * i)).filter (· != 0xFF)

/-- The trunk reads what R492 names of a leaf of slot `n`: the barrier's tap, tag and mask, the pacing taps'
SlotsPerCycle, the tap table and the regions' clocks. -/
def Dev.readJoined (d : Dev) (n port : Nat) : Dev :=
  let d := [5, 6, 7].foldl (fun (d : Dev) k => d.readLeaf port 1 0x2103 k (if k = 5 then 1 else 2)) d
  let d := (pacingTaps (d.get (key (0x4180 + n) 3))).foldl (fun (d : Dev) t => d.readLeaf port 1 (0x2300 + t) 1 1) d
  ((d.readLeaf port 1 0xF0FF 0 1024).readSecond port 0xF0FF).readLeaf port 3 0x2110 0 1024

/-- The trunk sets the BLOCK_ENGINE digest of a leaf that joins a group that a `WeightDigest` watches (R562). -/
def Dev.digestJoined (d : Dev) (n port : Nat) : Dev :=
  (List.range 4).foldl (fun (d : Dev) k =>
    if d.on (key (0x4340 + k) 1) && d.get (key (0x4340 + k) 2) % 4096 = d.get (slotKey n 2) then
      d.writeLeaf port (0x2510 + d.get (key (0x4340 + k) 3)) 6 1 1
    else d) d

/-- A COMMIT activates the slot and queues the bindings of its members (R446, R453). -/
def Dev.takeCommit (d : Dev) (group gen first : Nat) : Dev :=
  match d.slotOf group [1] with
  | some n =>
    if d.get (slotKey n 3) != gen then d
    else
      let d := (d.set (slotKey n 0xA) first).setSlot n 2
      let ms := (d.slot n).members
      let d := ms.foldl (fun (d : Dev) (x : Member) => (d.readJoined n x.port).digestJoined n x.port) d
      (d.queueChanges (ms.map fun x => d.bindOf n x.port first)).groupRecord group gen 2 first 0 ms.length
  | none => d

/-- GROUP_COMMIT (R446). -/
def execGroupCommit (m : GroupCtl) (s : State) : Host.Outcome State Fault Refusal :=
  s.onTrunk fun d => d.takeCommit m.group m.generation m.atWindow

/-- A TEARDOWN at a trunk of the box (R449, R450, R453): T_(W_u - 1) and 16 SnapPeriods are T_(W_u + 1). -/
def Dev.takeTeardown (d : Dev) (group gen at_ : Nat) : Dev :=
  match d.slotOf group [2] with
  | some n =>
    if d.get (slotKey n 3) != gen then d
    else
      let d := d.set (slotKey n 0xB) ((at_ + 2 ^ 32 - 1) % 2 ^ 32)
      let d := d.set (slotKey n 0xC) (d.groupTime n (at_ + 1) + 8000)
      let ms := (d.slot n).members.filter (·.until_.isNone)
      let d := d.modSlot n fun x => { x with members := x.members.map fun m =>
        if m.until_.isNone then { m with until_ := some at_ } else m }
      let d := (d.setSlot n 3).queueChanges (ms.map fun x => d.unbindOf n x.port at_ true)
      d.groupRecord group gen 3 at_ 0 ms.length
  | none => d

/-- TEARDOWN (R449). -/
def execTeardown (m : GroupCtl) (s : State) : Host.Outcome State Fault Refusal :=
  s.onTrunk fun d => d.takeTeardown m.group m.generation m.atWindow

/-! ### The home trunk -/

/-- Every trunk of a box is told, this one included. -/
def Dev.tellBox (d : Dev) (trunks : List Nat) (payload : Bytes) (own : Dev → Dev) : Dev :=
  trunks.foldl (fun (d : Dev) t => if t = d.get 0x3100_01 then own d else d.sendCtl t payload) d

/-- The home trunk's record of a setup. -/
def Dev.modSetup (d : Dev) (f : HomeSetup → HomeSetup) : Dev := d.modRed fun r => { r with setup := r.setup.map f }

/-- A setup has ended (R444): `LastSetup` reports it. -/
def Dev.endSetup (d : Dev) (x : HomeSetup) (failed : Bool) (first reason trunk : Nat) : Dev :=
  let g := groupDef x.bytes
  let d := d.modRed fun r => { r with setup := none }
  let d := if failed then (d.flag 0x3207 3).groupRecord g.group x.gen 7 first 0 0 else d
  d.complete 0x3206 [(4, b2n failed), (5, g.group), (6, x.gen), (7, first), (8, reason), (9, trunk)]

/-- The trunks that acknowledged are told to abort. -/
def Dev.abortAcked (d : Dev) (x : HomeSetup) : Dev :=
  let g := groupDef x.bytes
  d.tellBox x.acks (ctlBytes 5 0 g.group x.gen 0 0 0 []) fun d => d.takeAbort g.group x.gen

/-- The home trunk commits (R444). -/
def Dev.commitSetup (d : Dev) (x : HomeSetup) : Dev :=
  let g := groupDef x.bytes
  let first := firstWindow g.start g.period (max (d.now + d.get 0x3201_02) x.quarantine)
  let d := d.tellBox x.acks (ctlBytes 4 0 g.group x.gen 0 first 0 []) fun d => d.takeCommit g.group x.gen first
  d.endSetup x false first 0 0

/-- The generations that refusals report, the highest (R443). -/
def highestGen (l : List Nat) : Nat := l.foldl (fun h g => if genLater g h then g else h) (l.headD 0)

/-- The home trunk proposes a generation (R442): its own answer comes at once. -/
def Dev.propose (d : Dev) (bytes : Bytes) (gen : Nat) (second : Bool) : Dev :=
  let g := groupDef bytes
  let own := d.get 0x3100_01
  let d := d.modRed fun r => { r with lastGen := insertKey g.group gen r.lastGen
                                      setup := some { bytes := bytes, gen := gen, second := second, began := d.now } }
  let rest := (d.boxTrunks g.origin g.extent).filter (· != own)
  let d := d.tellBox rest (ctlBytes 1 0 g.group gen 0 0 0 bytes) id
  let (d, op, reason, nak, q) := d.takeSetup bytes gen own
  d.modSetup fun x => if op = 2 then { x with acks := x.acks ++ [own], quarantine := max x.quarantine q }
                      else { x with naks := x.naks ++ [(own, reason, nak)] }

/-- Have all trunks of the box answered? -/
def Dev.allAnswered (d : Dev) (x : HomeSetup) : Bool :=
  let g := groupDef x.bytes
  (d.boxTrunks g.origin g.extent).all fun t => x.acks.contains t || x.naks.any (·.1 = t)

/-- What the home trunk does once its setup has answers (R444): commit, propose once more, or fail. -/
def Dev.judgeSetup (d : Dev) (missing : Bool) : Dev :=
  match d.tk.red.setup with
  | none => d
  | some x =>
    if !missing && !d.allAnswered x then d
    else if !missing && x.naks.isEmpty then d.commitSetup x
    else
      let d := d.abortAcked x
      let n := x.naks.headD (0, 0, 0)
      if !missing && !x.second && x.naks.all (·.2.1 = 5) then
        let d := d.propose x.bytes ((highestGen (x.naks.map (·.2.2)) + 1) % 256) true
        match d.tk.red.setup with
        | some y =>
          if !d.allAnswered y then d
          else if y.naks.isEmpty then d.commitSetup y
          else let n := y.naks.headD (0, 0, 0); (d.abortAcked y).endSetup y true 0 n.2.1 n.1
        | none => d
      else if x.naks.isEmpty then
        let u (sub : Nat) : Nat := (Config.unstated (key 0x3206 sub) d.now).toNat
        d.endSetup x true (u 7) (u 8) (u 9)
      else d.endSetup x true (Config.unstated 0x3206_07 d.now).toNat n.2.1 n.1

/-- GROUP_SETUP (R441): the write at the home trunk. -/
def Dev.groupSetupAns (d : Dev) (bs : Bytes) : Ans :=
  let g := groupDef bs
  if !d.defOk g then fail d .range
  else if (d.slotOf g.group [1, 2]).isSome then fail d .state
  else if d.tk.red.setup.isSome then fail d .busy
  else
    let last := (lookupKey g.group d.tk.red.lastGen).getD 0
    ok (((d.pendRes 0x3206).propose bs ((last + 1) % 256) false).judgeSetup false)

/-- GROUP_SETUP (R441). -/
def execGroupSetup (e : Env) (data : Bytes) (s : State) : Host.Outcome State Fault Refusal :=
  s.onTrunk fun d => d.serveDomain e 0x3202 0 data Dev.groupSetupAns

/-- Is a message an answer to the setup at work? -/
def Dev.answersSetup (d : Dev) (m : GroupCtl) : Bool :=
  d.tk.red.setup.any fun x =>
    (groupDef x.bytes).group = m.group && x.gen = m.generation && !x.acks.contains m.sender && !x.naks.any (·.1 = m.sender)

/-- SETUP_ACK (R444). -/
def execSetupAck (m : GroupCtl) (s : State) : Host.Outcome State Fault Refusal :=
  s.onTrunk fun d =>
    if !d.answersSetup m then d
    else (d.modSetup fun x => { x with acks := x.acks ++ [m.sender], quarantine := max x.quarantine m.quarantine }).judgeSetup
      false

/-- SETUP_NAK (R444). -/
def execSetupNak (m : GroupCtl) (s : State) : Host.Outcome State Fault Refusal :=
  s.onTrunk fun d =>
    if !d.answersSetup m then d
    else (d.modSetup fun x => { x with naks := x.naks ++ [(m.sender, m.reason, m.nakGen)] }).judgeSetup false

/-- SETUP_TIMEOUT (R444). -/
def execSetupTimeout (s : State) : Host.Outcome State Fault Refusal :=
  s.onTrunk fun d =>
    match d.tk.red.setup with
    | some x => if d.now < x.began + d.get 0x3201_03 then d else d.judgeSetup true
    | none => d

/-- GROUP_TEARDOWN (R449): the write at the home trunk. -/
def Dev.groupTeardownAns (d : Dev) (v : Nat) : Ans :=
  let own := d.get 0x3100_01
  match d.slotOf (v % 4096) [2] with
  | none => fail d .state
  | some n =>
    if d.get (slotKey n 5) != own then fail d .state
    else
      let gen := d.get (slotKey n 3)
      let w := firstWindow (d.get (slotKey n 8)) (d.get (slotKey n 9)) (d.now + d.get 0x3201_02)
      ok (d.tellBox (d.boxTrunks (d.get (slotKey n 6)) (d.get (slotKey n 7))) (ctlBytes 6 0 (v % 4096) gen 0 w 0 [])
        fun d => d.takeTeardown (v % 4096) gen w)

/-- GROUP_TEARDOWN (R449). -/
def execGroupTeardown (e : Env) (group : Nat) (s : State) : Host.Outcome State Fault Refusal :=
  s.onTrunk fun d => d.serveWrite e 0x3203 0 group fun d v _ => d.groupTeardownAns v

/-- Has the last window of a slot been reduced, or its lag passed (R450)? A group torn down at window 0 had none. -/
def Dev.lastDone (d : Dev) (n : Nat) : Bool :=
  let w := d.get (slotKey n 0xB)
  w = 0xFFFFFFFF || (d.slot n).through.any (w ≤ ·) || d.groupTime n w + d.get (slotKey n 0xE) ≤ d.now

/-- QUARANTINE_START (R450, R35). -/
def execQuarantineStart (slot : Nat) (s : State) : Host.Outcome State Fault Refusal :=
  s.onTrunk fun d =>
    if slot < 64 && d.slotState slot = 3 && d.lastDone slot then
      ((d.setSlot slot 4).staleRes (0x3250 + slot)).staleRes (0x4140 + slot)
    else d

/-- QUARANTINE_END (R450, R453). -/
def execQuarantineEnd (slot : Nat) (s : State) : Host.Outcome State Fault Refusal :=
  s.onTrunk fun d =>
    if slot < 64 && d.slotState slot = 4 && d.get (slotKey slot 0xC) ≤ d.now then
      let d := d.groupRecord (d.get (slotKey slot 2)) (d.get (slotKey slot 3)) 4 0 0 (d.slot slot).members.length
      d.freeSlotNo slot
    else d

/-! ### Membership (R448) -/

/-- A member map changed in its object and in the slot. -/
def Dev.setMembers (d : Dev) (n : Nat) (l : List Member) : Dev :=
  (d.modSlot n fun x => { x with members := l }).setBlob (slotKey n 0x11)
    (mapOfPorts ((l.filter (·.until_.isNone)).map (·.port)))

/-- A write to `MemberChange` (R448): a JOIN or a LEAVE. -/
def Dev.memberAns (d : Dev) (v : Nat) : Ans :=
  let op := field v 39 36
  let group := field v 35 24
  let leaf := v % 2 ^ 20
  let port := leaf % 256
  if op != 1 && op != 2 then fail d .range
  else if leaf / 256 != d.get 0x3100_01 then fail d .state
  else match d.slotOf group [2] with
  | none => fail d .state
  | some n =>
    let w := firstWindow (d.get (slotKey n 8)) (d.get (slotKey n 9)) (d.now + d.get 0x3201_02)
    let rest := (d.slot n).members.filter (fun m => m.port != port || m.until_.isSome)
    let old := (d.slot n).members.find? (fun m => m.port = port && m.until_.isNone)
    if op = 1 then
      let l := sortBy (fun a b => a.port ≤ b.port) (rest ++ [{ port := port }])
      ok ((((d.setMembers n l).readJoined n port).digestJoined n port).queueChanges [d.bindOf n port w])
    else
      let l := sortBy (fun (a b : Member) => a.port ≤ b.port)
        (rest ++ (old.map fun m => { m with until_ := some w }).toList)
      ok ((d.setMembers n l).queueChanges [d.unbindOf n port w false])

/-- JOIN (R448). -/
def execJoin (e : Env) (group leafId : Nat) (s : State) : Host.Outcome State Fault Refusal :=
  s.onTrunk fun d => d.serveWrite e 0x3204 0 (2 ^ 36 + group % 4096 * 2 ^ 24 + leafId % 2 ^ 20) fun d v _ => d.memberAns v

/-- LEAVE (R448). -/
def execLeave (e : Env) (group leafId : Nat) (s : State) : Host.Outcome State Fault Refusal :=
  s.onTrunk fun d => d.serveWrite e 0x3204 0 (2 ^ 37 + group % 4096 * 2 ^ 24 + leafId % 2 ^ 20) fun d v _ => d.memberAns v

/-! ### The reference window (R275, R9, R415) -/

/-- The slot of the group with the lowest ID among those the trunk serves (R275). -/
def Dev.reference (d : Dev) : Option Nat :=
  (slotNos.filter (d.slotState · != 0)).foldl (fun best n => match best with
    | some b => if d.get (slotKey n 2) < d.get (slotKey b 2) then some n else some b
    | none => some n) none

/-- The window of the reference group that has last closed. -/
def Dev.referenceWindow (d : Dev) : Option Nat :=
  d.reference.bind fun n =>
    if d.now < d.get (slotKey n 8) then none else some ((d.now - d.get (slotKey n 8)) / (8 * max 1 (d.get (slotKey n 9))))

/-- Is this tick a window boundary of the trunk (R9): a latch tick of the reference window, one that a step of FleetTime has
moved included (R96)? Where no group is served there is no window, and every tick is one. -/
def Dev.trunkBoundary (d : Dev) : Bool :=
  match d.reference with
  | none => true
  | some n => d.latchTick (d.get (slotKey n 8)) (8 * max 1 (d.get (slotKey n 9)))

/-- FENCE_APPLY (R415): the fence objects written take effect at a boundary. -/
def execFenceApply (s : State) : Host.Outcome State Fault Refusal :=
  s.onTrunk fun d =>
    if !d.trunkBoundary then d
    else
      let d := d.tk.fab.fences.foldl (fun (d : Dev) (x : Nat × Nat) => d.set x.1 x.2) d
      let d := match d.tk.fab.fenceBlob with
        | some b => d.setBlob 0x3127_00 b
        | none => d
      d.modFab fun f => { f with fences := [], fenceBlob := none }

/-! ### The batch of a reference window (R451) -/

/-- The lead schedule of the leaf on a Stem port, as its frames tell (R257). -/
def Dev.leadOf (d : Dev) (port : Nat) : Nat := (lookupKey port d.tk.ing.lead).getD 0

/-- The newest lead frame filed of a leaf. -/
def Dev.leadFrame (d : Dev) (port : Nat) : Option Bytes := lookupKey (4 * port + d.leadOf port) d.tk.ing.last

/-- Does a leaf's lead schedule run with a Start and SnapPeriod, as its newest frame tells (R446)? -/
def Dev.runsWith (d : Dev) (port start period : Nat) : Bool :=
  (d.leadFrame port).any fun f => frLatch f = ft32 (start + 8 * period * frWindow f)

/-- The U64 of a Rebind (R265). -/
def rebindWord (at_ part gen group : Nat) : Nat := at_ * 2 ^ 32 + part * 2 ^ 24 + gen * 2 ^ 16 + group

/-- A change is issued at a window (R446, R449): the writes to its leaf, and the change that must follow. -/
def Dev.issue (d : Dev) (c : Change) : Dev × Option Change :=
  let s := d.leadOf c.port
  let w (d : Dev) (sub len v : Nat) : Dev := d.writeLeaf c.port (0x2701 + s) sub len v
  if c.second then
    let d := w (w (w (w (w (w d 3 8 c.start) 2 4 c.period) 0x0A 2 c.group) 0x0B 1 c.gen) 0x0C 1 c.part) 1 1 1
    (d, none)
  else if c.bind && !d.runsWith c.port c.start c.period then
    let after := match d.leadFrame c.port with
      | some f => expandFt d.now (frLatch f) + 8 * natAt f 24 4
      | none => d.now
    (w d 1 1 0, some { c with second := true, after := after })
  else (w d 0x0D 8 (rebindWord c.at_ c.part c.gen c.group), none)

/-- A change's window, brought forward where its latch has passed (R451). -/
def Dev.dueAt (d : Dev) (c : Change) : Nat :=
  if c.start + 8 * c.period * c.at_ ≤ d.now then firstWindow c.start c.period (d.now + d.get 0x3201_02) else c.at_

/-- The member that a binding change names has its window; the leaf is in transition (R425, R452). -/
def Dev.noteIssued (d : Dev) (c : Change) : Dev :=
  let d := if c.bind && d.holds c.slot c.group [2] then
      d.modSlot c.slot fun x => { x with members := x.members.map fun m =>
        if m.port = c.port && m.until_.isNone then { m with from_ := some c.at_ } else m }
    else d
  let t : Trans := ⟨c.port, c.group, c.gen, c.start + 8 * c.period * (c.at_ + 4), false⟩
  let d := d.writeLeaf c.port 0x4401 4 1 1
  d.modRed fun r => { r with trans := r.trans.filter (·.port != c.port) ++ [t] }

/-- One change of a batch is issued; a change that must be followed goes to the front of the queue. -/
def Dev.issueOne (d : Dev) (c : Change) : Dev :=
  let c := { c with at_ := d.dueAt c }
  let (d, next) := d.issue c
  let d := if c.second then d else (d.inc 0x3209_04).noteIssued c
  d.modRed fun r => { r with changes := next.toList ++ r.changes }

/-- The changes beyond a batch wait, each counted once (R451). -/
def Dev.deferChanges (d : Dev) (l : List Change) : Dev :=
  let fresh := (l.filter fun c => !c.deferred && !c.second).length
  let d := (d.add 0x3209_05 fresh).flagIf (fresh != 0) 0x3207 4
  d.modRed fun r => { r with changes := l.map fun c => { c with deferred := true } }

/-- CHANGE_BATCH (R451, R452): once per reference window, up to 64 changes in order of arrival, the unbinding ones first,
teardown flushes before them. -/
def execChangeBatch (s : State) : Host.Outcome State Fault Refusal :=
  s.onTrunk fun d =>
    let w := d.referenceWindow
    if w.isSome && w = d.tk.red.lastBatch then d
    else
      let seconds := d.tk.red.changes.filter fun c => c.second && c.after < d.now
      let waitLater := d.tk.red.changes.filter fun c => c.second && !(c.after < d.now)
      let plain := d.tk.red.changes.filter (!·.second)
      let now := plain.take 64
      let d := d.modRed fun r => { r with lastBatch := w, changes := [] }
      let d := d.deferChanges (plain.drop 64)
      let d := d.modRed fun r => { r with changes := waitLater ++ r.changes }
      let d := (now.filter fun c => !c.bind && c.teardown).foldl (fun (d : Dev) c => d.writeLeaf c.port 0x2603 2 1 4) d
      let d := (now.filter (!·.bind)).foldl Dev.issueOne d
      let d := (now.filter (·.bind)).foldl Dev.issueOne d
      let d := seconds.foldl Dev.issueOne d
      d.set 0x3201_09 (d.tk.red.changes.filter (!·.second)).length

/-- Is a leaf in transition (R452)? -/
def Dev.inTransition (d : Dev) (port : Nat) : Bool := d.tk.red.trans.any (·.port = port)

/-- TRANSITION_END (R452, R583). -/
def execTransitionEnd (port : Nat) (s : State) : Host.Outcome State Fault Refusal :=
  s.onTrunk fun d =>
    let done (t : Trans) : Bool := t.port = port && (t.filed || t.end_ ≤ d.now)
    if d.tk.red.trans.any done then
      (d.writeLeaf port 0x4401 4 1 0).modRed fun r => { r with trans := r.trans.filter fun t => !done t }
    else d

/-! ### Fleet triggers (R439, R440) -/

/-- The payload of a Pleach TRIGGER (R440). -/
def triggerBytes (group gen stage id stamp : Nat) : Bytes :=
  leBytes 2 group ++ leBytes 1 gen ++ leBytes 1 stage ++ leBytes 4 id ++ leBytes 8 stamp

/-- A trigger goes out along the line of a stage in both directions, as far as this trunk's reaches ask (R440). -/
def Dev.launchTrigger (d : Dev) (n stage id stamp : Nat) : Dev :=
  let k := stage - 1
  let own := d.get 0x3100_01
  let r := d.reaches (d.get (slotKey n 6)) (d.get (slotKey n 7)) own k
  let m : PMsg := { kind := 0x05, cls := 3, dest := own, source := own, partition := d.get (slotKey n 4)
                    payload := triggerBytes (d.get (slotKey n 2)) (d.get (slotKey n 3)) stage id stamp }
  let d := if r.1 = 0 then d else d.originateDirect (2 * k) m
  if r.2 = 0 then d else d.originateDirect (2 * k + 1) m

/-- Each member, one that leaves at a later window too, gets the trigger once over Stem (R358, R440), and Align keeps the windows around it (R478). -/
def Dev.triggerMembers (d : Dev) (n id stamp : Nat) : Dev :=
  let bs := leBytes 4 id ++ zeros 4 ++ leBytes 8 stamp
  let open_ := (d.now - d.get (slotKey n 8)) / (8 * max 1 (d.get (slotKey n 9))) + 1
  let ms := ((d.slot n).members.filter fun (m : Member) => m.until_.all (open_ < ·)).map (·.port)
  let d := ms.eraseDups.foldl (fun (d : Dev) port => (d.toLeaf port 0x04 bs).inc 0x3209_07) d
  d.modRed fun r => { r with keeps := r.keeps ++ [(n, stamp)] }

/-- This trunk originates a fleet trigger for the group of a slot (R439). -/
def Dev.fleetTrigger (d : Dev) (n stamp : Nat) : Dev :=
  let id := d.get 0x3100_01 * 2 ^ 20 + d.tk.red.trigNo % 2 ^ 20
  let d := d.modRed fun r => { r with trigNo := r.trigNo + 1, triggers := ((d.get (slotKey n 2), id) :: r.triggers).take 1024 }
  let d := (d.inc 0x3209_06).triggerMembers n id stamp
  [1, 2, 3].foldl (fun (d : Dev) s => d.launchTrigger n s id stamp) d

/-- The write of `FleetTrigger`. -/
def Dev.fleetTriggerAns (d : Dev) (v : Nat) : Ans :=
  match d.slotOf (v % 4096) [2, 3] with
  | some n => ok (d.fleetTrigger n d.stamp)
  | none => fail d .state

/-- FLEET_TRIGGER (R439). -/
def execFleetTrigger (e : Env) (group : Nat) (s : State) : Host.Outcome State Fault Refusal :=
  s.onTrunk fun d => d.serveWrite e 0x3205 0 group fun d v _ => d.fleetTriggerAns v

/-- A message lying `hops` from the trunk that sent it along the line of a dimension is relayed if that trunk's reach asks
for it (R432). -/
def Dev.relay (d : Dev) (n k hops : Nat) (minus : Bool) (m : PMsg) : Dev :=
  let own := d.get 0x3100_01
  let size := d.torusSize k
  let l := extentOf (d.get (slotKey n 7)) k
  let p := d.position (d.get (slotKey n 6)) own k
  let from_ := if minus then (p + hops) % size else (p + size - hops % size) % size
  let reach := if minus then reachMinus l size from_ else reachPlus l size from_
  if hops < reach then
    (d.inc 0x310A_02).sendPort none 0 (if minus then 2 * k + 1 else 2 * k) { m with direct := true }
  else d

/-- PLEACH_TRIGGER (R440). -/
def execPleachTrigger (t : FleetTrig) (s : State) : Host.Outcome State Fault Refusal :=
  s.onTrunk fun d =>
    match d.slotOf t.group [2, 3] with
    | none => d
    | some n =>
      if d.get (slotKey n 3) != t.generation || t.stage = 0 || t.stage > 3 || d.tk.red.triggers.contains (t.group, t.triggerId)
      then d
      else
        let own := d.get 0x3100_01
        let d := d.modRed fun r => { r with triggers := ((t.group, t.triggerId) :: r.triggers).take 1024 }
        let d := d.triggerMembers n t.triggerId t.originStamp
        let m : PMsg := { kind := 0x05, cls := 3, dest := own, source := t.triggerId / 2 ^ 20, hops := t.hops
                          partition := d.get (slotKey n 4)
                          payload := triggerBytes t.group t.generation t.stage t.triggerId t.originStamp }
        let d := d.relay n (t.stage - 1) t.hops t.minus m
        ([1, 2, 3].filter (t.stage < ·)).foldl
          (fun (d : Dev) s => d.launchTrigger n s t.triggerId t.originStamp) d

end Sys2Proof.Machine
end

