-- ==== Sys2Proof/Machine/Straggler.lean ====
section
/-! DEFINITION. The Straggler and Drift engines (chapter 14): filing of arrivals, resolution, the ENGINE outputs, step
closing, attribution, drift, anomalies and the HOST export. -/

namespace Sys2Proof.Machine

open Sys2Proof

/-! ### Settings and members -/

/-- Are the engines in HOST mode (R512)? -/
def Dev.stragHost (d : Dev) : Bool := d.get 0x4100_00 = 1

/-- The engines' state in a slot. -/
def Dev.strag (d : Dev) (n : Nat) : StragSt := (d.slot n).strag

/-- The engines' state in a slot changed. -/
def Dev.modStrag (d : Dev) (n : Nat) (f : StragSt → StragSt) : Dev := d.modSlot n fun x => { x with strag := f x.strag }

/-- An object of StragglerConfig. -/
def stragKey (n sub : Nat) : Nat := key (0x4180 + n) sub

/-- An object of DriftConfig. -/
def driftKey (n sub : Nat) : Nat := key (0x41C0 + n) sub

/-- The applied setting of StragglerConfig subindex `k`. -/
def Dev.scon (d : Dev) (n k : Nat) : Nat := (d.strag n).conf.getD (k - 1) (d.cfg.default (stragKey n k))

/-- What the engines keep of a member. -/
def Dev.stragMember (d : Dev) (n port : Nat) : StragMember :=
  ((d.strag n).members.find? (·.port = port)).getD { port := port }

/-- What the engines keep of a member changed. -/
def Dev.modStragMember (d : Dev) (n port : Nat) (f : StragMember → StragMember) : Dev :=
  d.modStrag n fun x =>
    let m := f ((x.members.find? (·.port = port)).getD { port := port })
    { x with members := x.members.filter (·.port != port) ++ [m] }

/-- A value that a leaf has answered. -/
def Dev.knownNat (d : Dev) (port index sub : Nat) : Option Nat := (d.knownOf port index sub).map leNat

/-- The Region of a leaf's tap (R71), from its tap table. -/
def Dev.tapRegion (d : Dev) (port t : Nat) : Option Nat :=
  let o := 6 + 8 * t
  (d.knownOf port 0xF0FF (o / 1024)).bind fun b => if o % 1024 < b.length then some (natAt b (o % 1024) 1) else none

/-- `RegionNominalMHz` of a leaf's region. -/
def Dev.regionMHz (d : Dev) (port r : Nat) : Option Nat :=
  (d.knownOf port 0x2110 0).bind fun b => if 6 * r + 6 ≤ b.length then some (natAt b (6 * r + 4) 2) else none

/-- The windows of a slot's group that have closed by now. -/
def Dev.windowsClosed (d : Dev) (n : Nat) : Nat := (d.now - d.get (slotKey n 8)) / (8 * max 1 (d.get (slotKey n 9)))

/-! ### Filing (R493) -/

/-- The records of a COMMAND_LOG body: an END takes 32 bytes, another record 16 (R137). -/
def logRecords : (fuel : Nat) → Bytes → List Bytes
  | 0, _ => []
  | fuel + 1, bs =>
    if bs.length < 16 then []
    else
      let n := if natAt bs 7 1 % 16 = 2 then 32 else 16
      bs.take n :: logRecords fuel (bs.drop n)

/-- The END records of a body, stamps expanded (R111). -/
def endNotes (near : Nat) (b : Bytes) : List EndNote :=
  ((logRecords (b.length / 16) b).filter fun r => natAt r 7 1 % 16 = 2).map fun r =>
    { stamp := expandFt near (natAt r 0 4), tag := natAt r 4 2, tap := natAt r 6 1, aux := natAt r 12 4
      slots := (natAt r 16 4, natAt r 20 4, natAt r 24 4, natAt r 28 4) }

/-- What is kept of a frame for attribution. -/
def frameNote (near : Nat) (f : Bytes) (most : Nat) : FrameNote :=
  let sec (t : Nat) : Option Bytes := frSection f most t
  { latch := near
    always := [0x17, 0x1A, 0x1C].map fun k => ((sec 1).map fun b => natAt b (8 * (k - 1)) 8).getD 0
    minV := ((sec 4).bind voltMin).getD 0xFFFFFFFF
    lacks := (sec 1).isNone || (sec 4).isNone || (sec 7).isNone || (frFlags f).testBit 3
    whole := !(frFlags f).testBit 4 }

/-- A frame of a member is filed for the engines (R493); `most` bounds the sections that the trunk processes (R275). -/
def Dev.stragFile (d : Dev) (n port : Nat) (f : Bytes) (most : Nat) : Dev :=
  let near := expandFt d.now (frLatch f)
  let arr := (frSection f most 3).getD []
  let arrs := (List.range (arr.length / 16)).map fun i => (expandFt near (natAt arr (16 * i) 4), natAt arr (16 * i + 8) 4)
  let ends := endNotes near ((frSection f most 7).getD [])
  let filed := d.windowsClosed n
  d.modStragMember n port fun m =>
    let m := arrs.foldl (fun (m : StragMember) (x : Nat × Nat) =>
      { m with waiting := m.waiting ++ [⟨x.2, x.1, m.lastArr, filed⟩], lastArr := some x.1 }) m
    { m with ends := m.ends ++ ends, notes := m.notes ++ [frameNote near f most] }

/-! ### Resolution (R492 to R494) -/

/-- The release of an arrival: none while it is not known; `some none` where none exists. -/
def Dev.releaseOf (d : Dev) (n : Nat) (m : StragMember) (x : ArrSt) : Option (Option Nat) :=
  if d.scon n 2 = 1 then some x.prev
  else if !(m.notes.any fun y => y.whole && x.stamp < y.latch) then none
  else match d.knownNat m.port 0x2103 5, d.knownNat m.port 0x2103 6, d.knownNat m.port 0x2103 7 with
  | some tap, some tag, some mask =>
    some (((m.ends.filter fun y => y.tap = tap && y.tag &&& mask = tag && y.stamp < x.stamp).map (·.stamp)).max?)
  | _, _, _ => none

/-- Base(u) (R494). -/
def Dev.baseFor (d : Dev) (n u : Nat) : Int :=
  if d.stragHost then d.scon n 7
  else (((d.strag n).bases.find? fun x => x.1 + d.scon n 6 ≤ u).map (·.2)).getD (d.scon n 7)

/-- Is Base(u) known (R494)? -/
def Dev.baseKnown (d : Dev) (n u : Nat) : Bool :=
  d.stragHost || (d.strag n).open_.all fun x => u < x.step + d.scon n 6

/-- The release of an arrival that is resolved at a fold (R493). -/
def Dev.resolves (d : Dev) (n : Nat) (m : StragMember) (x : ArrSt) : Option Nat :=
  if d.baseKnown n x.step then (d.releaseOf n m x).join else none

/-- An arrival resolved at a fold: step, stamp, release, ℓ. -/
structure Lateness where
  step    : Nat
  stamp   : Nat
  release : Nat
  key     : Int

/-- A member's arrivals are resolved at a fold (R493). -/
def Dev.resolveMember (d : Dev) (n port : Nat) : Dev × List Lateness :=
  if d.scon n 1 = 0 then (d, [])
  else
    let m := d.stragMember n port
    let found := m.waiting.filterMap fun x => (d.resolves n m x).map fun r =>
      ({ step := x.step, stamp := x.stamp, release := r, key := (x.stamp : Int) - r - d.baseFor n x.step } : Lateness)
    let rest := m.waiting.filter fun x => (d.resolves n m x).isNone
    let d := d.add 0x4104_01 found.length
    (d.modStragMember n port fun m =>
      { m with waiting := rest, resolved := m.resolved ++ found.map fun x => ⟨x.step, x.stamp, x.release⟩ }, found)

/-- ARRIVAL_UNRESOLVED (R493): no release exists, or `ArrivalWait` windows have passed. -/
def execArrivalUnresolved (slot leafPort step : Nat) (s : State) : Host.Outcome State Fault Refusal :=
  s.onTrunk fun d =>
    let m := d.stragMember slot leafPort
    let gone (x : ArrSt) : Bool := x.step = step &&
      (d.releaseOf slot m x = some none || x.filed + d.scon slot 8 ≤ d.windowsClosed slot)
    match m.waiting.find? gone with
    | some x =>
      if slot < 64 then
        let d := d.modStragMember slot leafPort fun m => { m with waiting := m.waiting.erase x, lost := m.lost ++ [x] }
        ((d.modStrag slot fun y => { y with unresolved := true }).inc 0x4104_02).flag 0x4102 0
      else d
    | none => d

/-! ### Drift metrics and ENGINE outputs -/

/-- A drift metric (0x41C0 + n, sub 02). -/
structure MetricD where
  field     : Nat
  high      : Bool
  low       : Bool
  alpha     : Nat
  target    : Int
  slack     : Int
  threshold : Int

/-- The metrics of a list. -/
def metricsOf (b : Bytes) : List MetricD :=
  (List.range (b.length / 16)).map fun i =>
    let o := 16 * i
    { field := natAt b o 1, high := (natAt b (o + 1) 1).testBit 0, low := (natAt b (o + 1) 1).testBit 1
      alpha := natAt b (o + 2) 1, target := natAt b (o + 4) 4, slack := natAt b (o + 8) 4
      threshold := natAt b (o + 12) 4 }

/-- The metrics that are enabled in a slot: number and metric. -/
def Dev.metrics (d : Dev) (n : Nat) : List (Nat × MetricD) :=
  let x := d.strag n
  if x.dconf.getD 0 0 = 0 then [] else ((metricsOf x.metrics).zipIdx).map fun (m, i) => (i, m)

/-- A member's contributions to an ENGINE output (R495). -/
def Dev.engineOut (d : Dev) (n port sel : Nat) (found : List Lateness) : List (List Int × Nat) :=
  if d.scon n 1 = 0 && sel < 0x10 then []
  else if sel = 1 then found.map fun x => ([x.key], x.step)
  else if sel = 2 then [([(found.length : Int)], 0)]
  else if sel = 3 then found.map fun x => ([(x.stamp : Int) - x.release], x.step)
  else
    match (d.metrics n).find? (·.1 = sel % 8) with
    | some (i, m) => (((d.stragMember n port).drift.find? (·.field = i)).map fun y =>
        ([if sel < 0x18 then y.shi else y.slo], m.field)).toList
    | none => []

/-! ### Anomalies (R510) -/

/-- The fields of an ANOMALY. -/
structure Anomaly where
  kind     : Nat
  cause    : Nat := 0
  metric   : Nat := 0xFF
  rank     : Nat := 0
  leaf     : Nat
  step     : Nat
  value    : Int
  excess   : Int := 0
  evidence : Int := 0
  time     : Nat

/-- An ANOMALY of a slot's group is recorded where its kind is enabled. -/
def Dev.anomaly (d : Dev) (n : Nat) (x : Anomaly) : Dev :=
  if !(d.get 0x4101_01).testBit (x.kind - 1) then d
  else
    let group := d.get (slotKey n 2)
    let gen := d.get (slotKey n 3)
    let d := d.record .anomaly x.time (leBytes 1 x.kind ++ leBytes 1 x.cause ++ leBytes 2 group ++ leBytes 1 gen ++
      leBytes 1 x.metric ++ leBytes 2 x.rank ++ leBytes 4 x.leaf ++ leBytes 4 x.step ++ leInt 8 x.value ++
      leInt 4 (satI32 x.excess) ++ leInt 4 (satI32 x.evidence))
    let d := d.complete 0x4105 [(4, x.kind), (5, x.cause), (6, group), (7, gen), (8, x.metric), (9, x.rank), (0xA, x.leaf),
      (0xB, x.step), (0xC, ofSigned 64 x.value), (0xD, ofSigned 32 (satI32 x.excess)), (0xE, ofSigned 32 (satI32 x.evidence))]
    d.inc 0x4104_07

/-! ### Attribution (R505, R506) -/

/-- The notes of the frames of the first latch at or after `r` up to the first at or after `a`. -/
def notesOver (notes : List FrameNote) (r a : Nat) : List FrameNote :=
  let l := notes.filter (r ≤ ·.latch)
  l.takeWhile (·.latch < a) ++ ((l.find? (a ≤ ·.latch)).toList)

/-- A pacing tap's sums over END records: retired, wasted, front-starved, back-starved, Aux. -/
def endSums (l : List EndNote) : Nat × Nat × Nat × Nat × Nat :=
  l.foldl (fun (s : Nat × Nat × Nat × Nat × Nat) (e : EndNote) =>
    (s.1 + e.slots.1, s.2.1 + e.slots.2.1, s.2.2.1 + e.slots.2.2.1, s.2.2.2.1 + e.slots.2.2.2, s.2.2.2.2 + e.aux))
    (0, 0, 0, 0, 0)

/-- The times in ns that a pacing tap gives: stretch, front-starved, back-starved, wasted, retired; none where the region's
clock or the tap's slots are not known. -/
def Dev.tapTimes (d : Dev) (port : Nat) (ends : List EndNote) (t : Nat) : Option (List Nat) :=
  match (d.tapRegion port t).bind (d.regionMHz port), d.knownNat port (0x2300 + t) 1 with
  | some mhz, some slots =>
    if mhz = 0 || slots = 0 then none
    else
      let s := endSums (ends.filter (·.tap = t))
      let per (x : Nat) : Nat := x * 1000 / (slots * mhz)
      some [s.2.2.2.2 * 1000 / mhz, per s.2.2.1, per s.2.2.2.1, per s.2.1, per s.1]
  | _, _ => none

/-- The six step times of a member over (r, a] (R505), and the lowest VoltMin of its frames; no times where one cannot be
computed (R506). -/
def Dev.stepTimes (d : Dev) (n : Nat) (m : StragMember) (r a : Nat) : Option (List Int) × Nat :=
  let ns := notesOver m.notes r a
  let minV := ((ns.map (·.minV)).min?).getD 0xFFFFFFFF
  let taps := pacingTaps (d.scon n 3)
  let times := taps.mapM (d.tapTimes m.port (m.ends.filter fun e => r < e.stamp && e.stamp ≤ a))
  match ns.head?, ns.getLast?, times with
  | some x, some y, some ts =>
    if y.latch < a || ns.any (·.lacks) || ts.isEmpty then (none, minV)
    else
      let delta (i : Nat) : Nat := (y.always.getD i 0 + 2 ^ 64 - x.always.getD i 0) % 2 ^ 64
      let avg (i : Nat) : Nat := (ts.map fun t => t.getD i 0).sum / ts.length
      let l := [8 * delta 2, 8 * ((delta 0 + delta 1) % 2 ^ 64) + avg 0, avg 1, avg 2, avg 3, avg 4]
      (some (l.map fun (v : Nat) => (v : Int)), minV)
  | _, _, _ => (none, minV)

/-- The candidate with the largest excess, the lower value on a tie (R506). -/
def bestCause (l : List Int) : Nat :=
  ((List.range 6).foldl (fun b i => if l.getD b 0 < l.getD i 0 then i else b) 0) + 1

/-- What attribution finds for an entry of TopK: cause, DEGRADED, COLD, the six times, baselines and excesses, MinV. -/
structure Verdict14 where
  cause    : Nat
  degraded : Bool
  cold     : Bool
  cur      : List Int
  basel    : List Int
  excess   : List Int
  minV     : Nat

/-- A value in an Evidence entry that the spec does not state (log 18). -/
def Dev.noTime (d : Dev) (n i : Nat) : Int := (Config.unstated (key (0x4140 + n) 0x15) (8 * d.now + i)).toNat % 2 ^ 32

/-- Attribution of an arrival (R506). -/
def Dev.attribute (d : Dev) (n port step : Nat) (excessNs : Int) : Verdict14 :=
  let m := d.stragMember n port
  let none6 := (List.range 6).map (d.noTime n)
  let (times, minV) := match m.resolved.find? (·.step = step) with
    | some x => d.stepTimes n m x.release x.stamp
    | none => (none, 0xFFFFFFFF)
  let cold := m.steps < d.scon n 0xC
  let cur := times.getD none6
  let basel := if m.base.isEmpty then none6 else m.base
  let excess := List.zipWith (· - ·) cur basel
  let c := bestCause excess
  let c := if c = 6 && minV < d.scon n 0xD then 2 else c
  let e := excess.getD (c - 1) 0
  let known := !cold && times.isSome && !(e * 100 < d.scon n 0xA * excessNs || e ≤ 0)
  { cause := if known then c else 7, degraded := times.isNone, cold := cold, cur := cur, basel := basel, excess := excess
    minV := minV }

/-- A member's baselines after a step that it has an arrival of (R505). -/
def Dev.updateBase (d : Dev) (n step : Nat) (m : StragMember) : StragMember :=
  match m.resolved.find? (·.step = step) with
  | none => m
  | some x =>
    let m' := { m with resolved := m.resolved.filter (step < ·.step) }
    match (d.stepTimes n m x.release x.stamp).1 with
    | none => m'
    | some ts =>
      let b := if m.base.isEmpty then ts
        else List.zipWith (fun (b t : Int) => b + (t - b) / 2 ^ d.scon n 0xB) m.base ts
      { m' with base := b, steps := m.steps + 1 }

/-! ### Closing a step (R500 to R504, R507) -/

/-- The first field of an operation on an ENGINE output in a list, with the offset of its body. -/
def engineField (op sel : Nat) : (off : Nat) → List FieldD → Option (FieldD × Nat)
  | _, [] => none
  | off, f :: fs => if f.op = op && f.source = 6 && f.sel = sel then some (f, off) else engineField op sel (off + f.size) fs

/-- A slot's fields. -/
def Dev.slotFields (d : Dev) (n : Nat) : List FieldD := fieldsOf (d.blob (slotKey n 0x10))

/-- The slot's LATENESS TOPK field. -/
def Dev.latenessTopk (d : Dev) (n : Nat) : Option (FieldD × Nat) := engineField 4 1 0 (d.slotFields n)

/-- The slot's LATENESS HIST field. -/
def Dev.latenessHist (d : Dev) (n : Nat) : Option (FieldD × Nat) := engineField 5 1 0 (d.slotFields n)

/-- A key of a type as a whole number. -/
def keyInt (ty key : Nat) : Int :=
  match ty with
  | 2 => toSigned 64 key
  | 3 => match f64.decode key with
    | .fin neg m e =>
      let v : Int := if 0 ≤ e then m * 2 ^ e.toNat else (m / 2 ^ (-e).toNat : Nat)
      if neg then -v else v
    | _ => 0
  | _ => key

/-- The bytes of an Evidence DOMAIN (0x4140 + n, sub 15). -/
def evidenceBytes (v : Verdict14) : Bytes :=
  (List.range 6).flatMap fun i =>
    leBytes 4 (satNat 32 (v.cur.getD i 0).toNat) ++ leBytes 4 (satNat 32 (v.basel.getD i 0).toNat) ++
    leInt 4 (satI32 (v.excess.getD i 0)) ++ zeros 4

/-- The outcomes of a step, with their codes. -/
inductive StepEnd where
  | complete
  | part
  | timeout
  deriving DecidableEq

/-- The code of an outcome (R503). -/
def StepEnd.code : StepEnd → Nat
  | .complete => 0
  | .part => 1
  | .timeout => 2

/-- An entry of TopK attributed at this trunk, with its rank. -/
structure Attributed where
  rank   : Nat
  leaf   : Nat
  excess : Int
  v      : Verdict14

/-- The entries of TopK whose leaves are members of this trunk, attributed (R506). -/
def Dev.attributed (d : Dev) (n ty step : Nat) (topk : List Entry) (median : Int) : List Attributed :=
  let own := d.get 0x3100_01
  let ports := ((d.slot n).members).map (·.port)
  (topk.zipIdx.filter fun (e, _) => e.arg / 256 = own && ports.contains (e.arg % 256)).map fun (e, i) =>
    let ex := keyInt ty e.key - median
    ⟨i, e.arg, ex, d.attribute n (e.arg % 256) step ex⟩

/-- The STRAGGLER anomalies of a closed step (R507). -/
def Dev.stragglers (d : Dev) (n step : Nat) (l : List Attributed) : Dev :=
  (l.filter fun x => (d.scon n 9 : Int) ≤ x.excess).foldl (fun (d : Dev) x =>
    match (d.stragMember n (x.leaf % 256)).resolved.find? (·.step = step) with
    | some y =>
      let ev := if x.v.cause = 7 then toSigned 32 ((Config.unstated 0x4105_0E d.now).toNat % 2 ^ 32)
        else x.v.excess.getD (x.v.cause - 1) 0
      d.anomaly n { kind := 1, cause := x.v.cause, rank := x.rank, leaf := x.leaf, step := step
                    value := (y.stamp : Int) - y.release, excess := x.excess, evidence := ev, time := y.stamp }
    | none => d) d

/-- The members of a slot for a window (R425). -/
def Dev.membersAt (d : Dev) (n w : Nat) : List Nat :=
  ((d.slot n).members.filter fun m => m.from_.any (· ≤ w) && m.until_.all (w < ·)).map (·.port)

/-- Statistics and flags of a close. -/
def Dev.countClose (d : Dev) (e : StepEnd) (mixed : Bool) : Dev :=
  let d := match e with
    | .complete => d.inc 0x4104_03
    | .part => d.inc 0x4104_04
    | .timeout => (d.inc 0x4104_05).flag 0x4102 2
  if mixed then (d.inc 0x4104_06).flag 0x4102 1 else d

/-- A step closes at a window (R500 to R507). -/
def Dev.closeStep (d : Dev) (n w ty k : Nat) (x : StepSt) (e : StepEnd) : Dev :=
  let topk := x.topk.map fun (a, b, c) => (⟨a, b, c⟩ : Entry)
  let base := d.baseFor n x.step
  let median : Int := (quantileOf x.hist 32768).getD 0
  let key0 := keyInt ty ((topk.head?.map (·.key)).getD 0)
  let at_ := d.attributed n ty x.step topk median
  let first := at_.find? (·.rank = 0)
  let missing := if e = .complete then [] else
    sortBy Nat.ble ((d.membersAt n w).filter fun p => !((d.stragMember n p).resolved.any (·.step = x.step)))
  let flags := x.flags ||| (if (d.strag n).unresolved then 2 ^ 9 else 0) ||| (if first.isSome then 2 ^ 10 else 0) |||
    (if at_.any (·.v.cold) then 2 ^ 11 else 0) ||| (if at_.any (·.v.degraded) then 4 else 0)
  let own := d.get 0x3100_01
  let leaves := missing.map fun p => own * 256 + p
  let newBase : Int := match x.hist.findIdx? (0 < ·) with
    | some lo => max 0 (base + bucketLow x.hist.length lo - d.scon n 5)
    | none => d.getI (stragKey n 0xE)
  let d := d.completeWith (0x4140 + n)
    [(0xE, topkBytes k topk), (0xF, histBytes x.hist), (0x15, (first.map fun a => evidenceBytes a.v).getD []),
     (0x18, (leaves.take 16).flatMap (leBytes 4))]
    [(4, d.get (slotKey n 2)), (5, d.get (slotKey n 3)), (6, x.step), (7, e.code), (8, flags), (9, x.expected), (0xA, x.arrived),
     (0xB, x.window), (0xC, w), (0xD, ofSigned 64 base), (0x10, ofSigned 64 median),
     (0x11, (quantileOf x.hist 64881).getD 0), (0x12, (topk.head?.map (·.arg / 256)).getD 0xFFFF),
     (0x13, (first.map (·.v.cause)).getD 0), (0x14, ofSigned 64 (key0 - median)),
     (0x16, (first.map (·.v.minV)).getD 0xFFFFFFFF), (0x17, missing.length)]
  let d := (d.countClose e (x.flags.testBit 8)).stragglers n x.step at_
  let d := if e = .timeout && !missing.isEmpty then
      d.anomaly n { kind := 2, cause := 8, leaf := leaves.headD 0, step := x.step, value := (missing.length : Int)
                    time := d.groupTime n x.window + d.scon n 4 }
    else d
  let d := (d.setI (stragKey n 0xE) newBase).addMod (stragKey n 0x10) 1
  d.modStrag n fun y =>
    { y with unresolved := false, bases := (x.step, newBase) :: y.bases, members := y.members.map (d.updateBase n x.step) }

/-- A step opens at a window: Expected is the Members of its result. -/
def Dev.openStep (d : Dev) (n w step expected : Nat) (mixed : Bool) : Dev :=
  let hist := List.replicate (((d.latenessHist n).map (·.1.count)).getD 0) 0
  let x : StepSt := { step := step, expected := expected, window := w, hist := hist, flags := if mixed then 256 else 0 }
  (d.modStrag n fun y => { y with open_ := some x }).set (stragKey n 0xF) step

/-- The procedure of R500 on a result, from its `while` on: `left` are the arrivals not yet taken. -/
def Dev.stepLoop (n : Nat) (v : ViewSt) (ty k : Nat) (hist : List Nat) (top : List Entry) : (fuel left : Nat) → Dev → Dev
  | 0, _, d => d
  | fuel + 1, left, d =>
    match (d.strag n).open_ with
    | none => d
    | some x =>
      let mine := (top.filter (·.aux = x.step)).map fun e => (e.key, e.arg, e.aux)
      let topk := (topkSort ty k ((x.topk ++ mine).map fun (a, b, c) => (⟨a, b, c⟩ : Entry))).map fun e => (e.key, e.arg, e.aux)
      let later := top.any (x.step < ·.aux)
      let take := min left (x.expected - x.arrived)
      let mixed := take < left && 0 < take
      let x := { x with topk := topk, arrived := x.arrived + take
                        hist := if 0 < left then histAdd x.hist hist else x.hist
                        flags := x.flags ||| v.part.flags ||| (if mixed then 256 else 0) }
      let left := left - take
      let outcome : Option StepEnd :=
        if x.arrived = x.expected then some .complete
        else if later then some .part
        else if d.groupTime n v.window ≥ d.groupTime n x.window + d.scon n 4 then some .timeout
        else none
      match outcome with
      | none => d.modStrag n fun y => { y with open_ := some x }
      | some e =>
        let d := d.closeStep n v.window ty k x e
        let d := d.openStep n v.window ((x.step + 1) % 2 ^ 32) v.part.members mixed
        if left = 0 && !later then d else Dev.stepLoop n v ty k hist top fuel left d

/-- A result is processed (R500). -/
def Dev.runResult (d : Dev) (n : Nat) (v : ViewSt) : Dev :=
  match d.latenessTopk n, d.latenessHist n with
  | some (tf, toff), some (hf, hoff) =>
    let hist := histOf (bytesAt v.part.bodies hoff hf.size)
    let top := topkOf (bytesAt v.part.bodies toff tf.size)
    let left := histTotal hist
    let d := match (d.strag n).open_, (top.map (·.aux)).min? with
      | none, some u => d.openStep n v.window u v.part.members false
      | _, _ => d
    let now := (((d.strag n).open_).map (·.step)).getD 0
    let far := ((top.map (·.aux)).max?).getD 0
    Dev.stepLoop n v tf.ty tf.k hist top (left + (far - now) + 2) left d
  | _, _ => d

/-- A result that both engines have used is dropped. -/
def Dev.useView (d : Dev) (n w : Nat) (f : ViewSt → ViewSt) : Dev :=
  d.modSlot n fun x => { x with views := (x.views.map fun v => if v.window = w then f v else v).filter fun v => v.steps || v.drift }

/-- STEP_CLOSE (R500, R496): the oldest result that the Straggler engine has not used. -/
def execStepClose (slot : Nat) (s : State) : Host.Outcome State Fault Refusal :=
  s.onTrunk fun d =>
    match (d.slot slot).views.find? (·.steps) with
    | some v =>
      if d.stragHost || d.classHeld 3 || d.noAnalysis then d
      else
        let d := if d.scon slot 1 = 0 then d else d.runResult slot v
        d.useView slot v.window fun v => { v with steps := false }
    | none => d

/-! ### Drift (R508, R509) -/

/-- The state of a metric of a member after an update, and its alarms: high, low with the value before the reset. -/
def driftUpdate (x : MetricD) (warm r : Nat) (y : DriftSt) : DriftSt × Option Int × Option Int :=
  let r : Int := r
  let y := if y.updates = 0 then { y with e := r, shi := 0, slo := 0 } else y
  let e := satI32 (y.e + (r - y.e) / 2 ^ x.alpha)
  let shi := max 0 (satI32 (satI32 (y.shi + satI32 (r - x.target)) - x.slack))
  let slo := max 0 (satI32 (satI32 (y.slo + satI32 (x.target - r)) - x.slack))
  let n := y.updates + 1
  let hi := warm ≤ n && x.high && x.threshold < shi
  let lo := warm ≤ n && x.low && x.threshold < slo
  ({ y with e := e, shi := if hi then 0 else shi, slo := if lo then 0 else slo, updates := n },
   if hi then some shi else none, if lo then some slo else none)

/-- A drift alarm (R508, R510). -/
def Dev.driftAlarm (d : Dev) (n kind i leaf w : Nat) (e value threshold : Int) : Dev :=
  let d := (d.inc (driftKey n 5)).flag 0x4102 3
  d.anomaly n { kind := kind, metric := i, rank := min 0xFFFF (e / 2).toNat, leaf := leaf, step := w, value := value
                excess := threshold, time := d.groupTime n w }

/-- One update of a member's metric from a result. -/
def Dev.driftOne (d : Dev) (n w : Nat) (hist : List Nat) (i : Nat) (x : MetricD) (port : Nat) (v : Int) : Dev :=
  let m := d.stragMember n port
  let old := (m.drift.find? (·.field = i)).getD { field := i }
  let (y, hi, lo) := driftUpdate x ((d.strag n).dconf.getD 1 64) (rank16 hist v) old
  let d := d.modStragMember n port fun m => { m with drift := m.drift.filter (·.field != i) ++ [y] }
  let leaf := d.get 0x3100_01 * 256 + port
  let d := match hi with
    | some z => d.driftAlarm n 3 i leaf w y.e z x.threshold
    | none => d
  match lo with
  | some z => d.driftAlarm n 4 i leaf w y.e z x.threshold
  | none => d

/-- The offset of field `i` of a list. -/
def fieldOff (fs : List FieldD) (i : Nat) : Nat := ((fs.take i).map FieldD.size).sum

/-- The updates that a result asks for: metric and member's value, frames with STALE_ANY or TIME_UNCERTAIN left out. -/
def Dev.driftWork (d : Dev) (n : Nat) (v : ViewSt) : List (Nat × MetricD × Nat × Int) :=
  if v.window % max 1 ((d.strag n).dconf.getD 2 1) != 0 then []
  else
    (d.metrics n).flatMap fun (i, x) =>
      ((v.values.filter fun y => y.2.1 = x.field && !y.2.2.2 && (d.slotFields n)[x.field]?.any (·.op = 5)).map
        fun y => (i, x, y.1, y.2.2.1))

/-- DRIFT_UPDATE (R508, R509): the oldest result that the Drift engine has not used; updates that have waited more than 64
windows are skipped. -/
def execDriftUpdate (slot : Nat) (s : State) : Host.Outcome State Fault Refusal :=
  s.onTrunk fun d =>
    match (d.slot slot).views.find? (·.drift) with
    | some v =>
      let used (d : Dev) : Dev := d.useView slot v.window fun v => { v with drift := false }
      let work := d.driftWork slot v
      if d.stragHost || d.noAnalysis then d
      else if v.window + 64 < d.windowsClosed slot then
        used (if work.isEmpty then d else (d.add 0x4104_08 work.length).flag 0x4102 4)
      else if d.classHeld 3 then d
      else
        let fs := d.slotFields slot
        used (work.foldl (fun (d : Dev) (y : Nat × MetricD × Nat × Int) =>
          let off := fieldOff fs y.2.1.field
          let hist := histOf (bytesAt v.part.bodies off ((fs[y.2.1.field]?.map FieldD.size).getD 0))
          d.driftOne slot v.window hist y.1 y.2.1 y.2.2.1 y.2.2.2) d)
    | none => d

/-! ### Applying settings -/

/-- The drift work of a slot under its staged settings, as a fraction of updates per µs (R509). -/
def driftLoad (members metrics period stride : Nat) : Nat × Nat := (members * metrics * 1000, 8 * period * stride)

/-- The drift work of all slots, with staged settings for one of them, exceeds 2,048 updates per µs (R509). -/
def Dev.driftOver (d : Dev) (n : Nat) : Bool :=
  let load (k : Nat) : Nat × Nat :=
    let ms := ((d.slot k).members.filter (·.until_.isNone)).length
    let x := d.strag k
    let (on, metrics, stride) := if k = n then (d.on (driftKey k 1), d.blob (driftKey k 2), d.get (driftKey k 4))
      else (x.dconf.getD 0 0 != 0, x.metrics, x.dconf.getD 2 1)
    if on then driftLoad ms (metrics.length / 16) (max 1 (d.get (slotKey k 9))) (max 1 stride) else (0, 1)
  let s := (slotNos.map load).foldl (fun (s x : Nat × Nat) => (s.1 * x.2 + x.1 * s.2, s.2 * x.2)) (0, 1)
  s.1 > 2048 * s.2

/-- The MODELS allocation of a slot's drift state is made (R508). -/
def Dev.allocDrift (d : Dev) (n : Nat) : Dev :=
  if !d.on (driftKey n 1) || (d.strag n).models.isSome then d
  else match d.poolAlloc 4 0 1 (d.get (slotKey n 4)) with
  | (.ok r, d) => d.modStrag n fun x => { x with models := some r.handle }
  | (.error _, d) => d

/-- APPLY: the write of `Apply` (R509, R513). -/
def Dev.applyAns (d : Dev) (n w : Nat) : Ans :=
  if d.slotState n != 2 || d.groupTime n w < d.now + d.get 0x3201_02 then fail d .state
  else if d.driftOver n || (d.on (stragKey n 1) && ((d.latenessTopk n).isNone || (d.latenessHist n).isNone)) then fail d .range
  else
    let ms := (d.slot n).members.filter (·.until_.isNone)
    let d := ms.foldl (fun (d : Dev) (m : Member) => d.readJoined n m.port) d
    ok ((d.allocDrift n).modStrag n fun x => { x with pending := some w })

/-- APPLY (R513). -/
def execApply (e : Env) (slot window : Nat) (s : State) : Host.Outcome State Fault Refusal :=
  s.onTrunk fun d => if slot < 64 then d.serveWrite e (0x4180 + slot) 0x11 window fun d v _ => d.applyAns slot v else d

/-- The engines of a slot start anew with Base at `InitialBase`. -/
def Dev.restartSteps (d : Dev) (n : Nat) : Dev :=
  let d := d.modStrag n fun x => { x with open_ := none, bases := [] }
  (d.set (stragKey n 0xE) (d.scon n 7)).set (stragKey n 0xF) 0

/-- APPLY_SETTINGS (R513): at the latch of the window named, the staged settings apply together. -/
def execApplySettings (slot : Nat) (s : State) : Host.Outcome State Fault Refusal :=
  s.onTrunk fun d =>
    match (d.strag slot).pending with
    | some w =>
      if slot < 64 && d.groupTime slot w ≤ d.now then
        let conf := (List.range 13).map fun k => d.get (stragKey slot (k + 1))
        let dconf := [1, 3, 4].map fun k => d.get (driftKey slot k)
        let metrics := d.blob (driftKey slot 2)
        let d := d.modStrag slot fun x =>
          { x with conf := conf, dconf := dconf, metrics := metrics, pending := none
                   members := x.members.map fun m => { m with drift := [] } }
        ((d.restartSteps slot).set (stragKey slot 0x10) 0).set (stragKey slot 0x12) w
      else d
    | none => d

/-! ### HOST mode (R512) -/

/-- Entries of one kind go out as datagrams of at most 8,192 bytes. -/
def Dev.exportKind (d : Dev) (n w kind size : Nat) (entries : List Bytes) : Dev :=
  let per := 8176 / size
  let parts := (entries.length + per - 1) / per
  (List.range parts).foldl (fun (d : Dev) i =>
    let l := (entries.drop (i * per)).take per
    d.emit (.udp (d.get 0x4101_02) (d.get 0x3201_0A) (d.get 0x3201_0B)
      (leBytes 1 kind ++ leBytes 1 i ++ leBytes 2 (d.get (slotKey n 2)) ++ leBytes 1 (d.get (slotKey n 3)) ++
       leBytes 1 (b2n (i + 1 = parts)) ++ zeros 2 ++ leBytes 4 w ++ leBytes 2 l.length ++ zeros 2 ++ l.flatten))) d

/-- Unresolved arrivals of a window that has gone out, or in HW mode closed, are forgotten. -/
def Dev.dropLost (d : Dev) (n : Nat) : Dev :=
  d.modStrag n fun x => { x with members := x.members.map fun m => { m with lost := [] } }

/-- The window's raw data go out at D₀. -/
def Dev.exportWindow (d : Dev) (n w : Nat) (found : List (Nat × Lateness)) (values : List (Nat × Nat × Int × Bool)) : Dev :=
  if !d.stragHost then d.dropLost n
  else
    let own := d.get 0x3100_01 * 256
    let lost := (d.strag n).members.flatMap fun m => m.lost.map fun x =>
      leBytes 4 (own + m.port) ++ leBytes 4 x.step ++ leBytes 8 x.stamp ++ zeros 8
    let got := found.map fun (p, x) => leBytes 4 (own + p) ++ leBytes 4 x.step ++ leBytes 8 x.stamp ++ leBytes 8 x.release
    let vals := values.map fun (p, f, v, _) => leBytes 4 (own + p) ++ leBytes 1 f ++ zeros 3 ++ leInt 8 v
    ((d.exportKind n w 1 24 (got ++ lost)).exportKind n w 2 16 vals).dropLost n

end Sys2Proof.Machine
end

