-- ==== Sys2Proof/Machine/Fold.lean ====
section
/-! DEFINITION. Ingest, Align and the exchange (R303, R304, R425 to R436, R447, R474, R275): leaf frames, trunk partials,
stages, fleet results and the trunk's ladders. -/

namespace Sys2Proof.Machine

open Sys2Proof

/-! ### Ingest (R303, R304, R308) -/

/-- Ingest changed. -/
def Dev.modIng (d : Dev) (f : IngestSt → IngestSt) : Dev := { d with tk := { d.tk with ing := f d.tk.ing } }

/-- A leaf frame fails to decode (R304): counted, and a resynchronisation written where none is outstanding. -/
def Dev.frameError (d : Dev) (port sched : Nat) (s : CodecStatus) : Dev :=
  let stream := 4 * port + sched
  let d := d.inc (key 0x2811 s.code)
  let d := ((d.set 0x2810_04 (d.leafAddress port)).set 0x2810_05 s.code).set 0x2810_06 d.now
  if d.get 0x2810_02 = 0 || d.tk.ing.resync.contains stream then d
  else
    let d := (d.writeLeaf port 0x2801 3 1 (2 ^ sched)).inc 0x2810_03
    d.modIng fun x => { x with resync := stream :: x.resync }

/-- What a leaf frame decodes to in its stream's context (R303 to R306). -/
def Dev.leafCall (d : Dev) (m : Mem) (stream : Nat) (coded : Bytes) : DecResult :=
  if d.tk.ing.stale.contains stream then decodeFrame { phase := 3 } coded 16777216
  else match d.readCtx m (d.contextAt stream) 2 with
    | some c => decodeFrame c coded 16777216
    | none => failCall {} .contextInvalid

/-- A leaf frame is decoded in its stream's context, which is written back (R303, R306): the raw frame, none where it
fails. -/
def Dev.decodeLeaf (d : Dev) (m : Mem) (port sched : Nat) (coded : Bytes) : Dev × Mem × Option Bytes :=
  let stream := 4 * port + sched
  let d := if coded.length ≥ 16 && !(codedHead coded).flags.testBit 1 then
      d.modIng fun x => { x with resync := x.resync.erase stream } else d
  let r := d.leafCall m stream coded
  let m := m.writeCtx (d.contextAt stream) { r.ctx with role := 2 } r.out
  let d := d.modIng fun x => { x with stale := x.stale.filter (· != stream) }
  if r.status = .ok then (d.inc 0x2810_01, m, some r.out) else (d.frameError port sched r.status, m, none)

/-! ### Align (R474) -/

/-- A frame's bytes are placed in the HISTORY pages of a window file: in the newest run where they fit, else in a new
one. -/
def Dev.placeFrame (d : Dev) (m : Mem) (f : FileSt) (part leaf colour : Nat) (raw : Bytes) : Dev × Mem × FileSt :=
  let put (d : Dev) (f : FileSt) : Dev × Mem × FileSt :=
    let a := f.base + f.used
    (d.useMem 0 a raw.length, m.write a raw,
     { f with used := f.used + (raw.length + 7) / 8 * 8, entries := f.entries ++ [(leaf, colour, a)] })
  let open_ := f.handles.getLast?.any fun h => d.tk.ana.runs.any (·.handle = h)
  if open_ && f.used + raw.length ≤ pageBytes then put d f
  else match d.poolAlloc 1 2 ((raw.length + pageBytes - 1) / pageBytes) part with
  | (.ok r, d) => put d { f with handles := f.handles ++ [r.handle], base := r.base, used := 0 }
  | (.error _, d) => (d, m, f)

/-- A frame is filed in a slot's window file. -/
def Dev.fileFrame (d : Dev) (m : Mem) (n w leaf colour : Nat) (raw : Bytes) : Dev × Mem :=
  let f := ((d.slot n).files.find? (·.window = w)).getD { window := w }
  let (d, m, f) := d.placeFrame m f (frPart raw) leaf colour raw
  (d.modSlot n fun x => { x with files := x.files.filter (·.window != w) ++ [f] }, m)

/-- A frame of no group is filed for the trunk's own engines (R447), with its colour (R339): the file keeps the run it fills
and the entries of the frames in that run. -/
def Dev.fileLoose (d : Dev) (m : Mem) (part leaf colour : Nat) (raw : Bytes) : Dev × Mem :=
  let (d, m, f) := d.placeFrame m d.tk.ing.loose part leaf colour raw
  let f := { f with entries := f.entries.filter fun (x : Nat × Nat × Nat) => f.base ≤ x.2.2 && x.2.2 < f.base + f.used
                    handles := f.handles.drop (f.handles.length - 1) }
  (d.modIng fun x => { x with loose := f }, m)

/-- The highest section type that the trunk processes (R275). -/
def Dev.mostSection (d : Dev) : Nat := if d.trunkStep ≥ 3 then 4 else 255

/-- Is a frame stale (R447)? -/
def Dev.staleFrame (d : Dev) (group gen : Nat) : Bool :=
  slotNos.any (fun n => d.holds n group [4] && d.get (slotKey n 3) = gen) ||
  slotNos.any fun n => d.holds n group [2, 3] && genOlder gen (d.get (slotKey n 3))

/-- A window at work changed. -/
def Dev.modWin (d : Dev) (n w : Nat) (f : WinSt → WinSt) : Dev :=
  d.modSlot n fun x =>
    let y := f ((x.wins.find? (·.window = w)).getD { window := w })
    { x with wins := x.wins.filter (·.window != w) ++ [y] }

/-- A window at work. -/
def Dev.win (d : Dev) (n w : Nat) : WinSt := ((d.slot n).wins.find? (·.window = w)).getD { window := w }

/-- A frame of a slot's group is kept for the fold, or counted late (R434, R447). -/
def Dev.takeForFold (d : Dev) (n port at_ : Nat) (raw prev : Bytes) : Dev :=
  let w := frWindow raw
  let x := d.win n w
  let late := d.groupTime n w + d.get 0x3201_01 < at_ || x.formed || (d.slot n).through.any (w ≤ ·)
  if !(d.membersAt n w).contains port || d.get (slotKey n 4) != frPart raw then d
  else if late then (d.inc 0x3209_01).flag 0x3207 0
  else if x.frames.any (·.1 = port) then d
  else d.modWin n w fun x => { x with frames := x.frames ++ [(port, raw, prev)] }

/-- What a filed frame tells of its leaf: its lead schedule (R257) and the end of a transition (R452). -/
def Dev.noteFrame (d : Dev) (port sched : Nat) (raw : Bytes) : Dev :=
  let events := (frSection raw 255 3).isSome || (frSection raw 255 7).isSome
  let d := d.modIng fun x =>
    { x with last := insertKey (4 * port + sched) raw x.last
             lead := if events then insertKey port sched x.lead else x.lead }
  d.modRed fun r => { r with trans := r.trans.map fun (t : Trans) =>
    if t.port = port && t.group = frGroup raw && t.gen = frGen raw then { t with filed := true } else t }

/-- A decoded frame is checked (R412, R447), filed and kept for its group. `at_` is when its last byte arrived. -/
def Dev.alignFrame (d : Dev) (m : Mem) (port sched colour at_ : Nat) (raw : Bytes) : Dev × Mem :=
  let leaf := d.leafAddress port
  let p := frPart raw
  if p != d.stemPartition port then
    let d := d.fenceLog .stemFrame leaf (fenceTarget 7 0 0 port p)
    (d.owe (d.get 0x3100_01) ((d.srv.vlog.getLast?).getD []), m)
  else if frGroup raw != 0 && d.staleFrame (frGroup raw) (frGen raw) then ((d.inc 0x3209_02).flag 0x3207 2, m)
  else
    let prev := (lookupKey (4 * port + sched) d.tk.ing.last).getD []
    let d := d.noteFrame port sched raw
    match (d.slotOf (frGroup raw) [2, 3]).filter fun n => d.get (slotKey n 3) = frGen raw with
    | some n =>
      let (d, m) := d.fileFrame m n (frWindow raw) leaf colour raw
      if sched = d.leadOf port then
        let d := d.stragFile n port raw d.mostSection
        (d.takeForFold n port at_ raw prev, m)
      else (d, m)
    | none => d.fileLoose m p leaf colour raw

/-- LEAF_FRAME (R303, R304, R308, R434, R447, R474). -/
def execLeafFrame (port schedule : Nat) (coded : Bytes) (colour : Nat) (s : State) : Host.Outcome State Fault Refusal :=
  s.onMem fun d m =>
    if port > 255 || d.noAnalysis then (d, m)
    else
      let sched := schedule % 4
      let at_ := ((d.tk.ing.arrived.find? (·.1 = port)).map (·.2)).getD d.now
      let d := d.modIng fun x => { x with arrived := x.arrived.erase (port, at_) }
      if d.get 0x2800_00 = 1 then d.fileLoose m (d.stemPartition port) (d.leafAddress port) colour coded
      else match d.decodeLeaf m port sched coded with
      | (d, m, none) => (d, m)
      | (d, m, some raw) => d.alignFrame m port sched colour at_ raw

/-! ### The trunk partial (R429, R430) -/

/-- A member's differences for a field: none where its frame, or the previous one, does not give them (R429). -/
def differences (f : FieldD) (most : Nat) (raw prev : Bytes) : Option (List Int) :=
  let n := if f.op = 1 || f.op = 6 then f.count else 1
  if prev.isEmpty || frPrev raw != frLatch prev then none
  else (List.range n).mapM fun i =>
    match latched raw most f.source f.sel i, latched prev 255 f.source f.sel i with
    | some a, some b => some (((a + 2 ^ 64 - b) % 2 ^ 64 : Nat) : Int)
    | _, _ => none

/-- A member's contributions to a field (R429, R495), and whether the frame lacks what the field reads. -/
def Dev.contributions (d : Dev) (n w port i : Nat) (f : FieldD) (raw prev : Bytes) (found : List Lateness) :
    List (List Int × Nat) × Bool :=
  let most := d.mostSection
  let gap := (frFlags raw).testBit 9 || (frFlags raw).testBit 6
  let aux := (Config.entryAux i (d.leafAddress port) w).toNat
  let one (v : Option (List Int)) : List (List Int × Nat) × Bool :=
    match v with
    | some l => ([(l, aux)], false)
    | none => ([], true)
  match f.source with
  | 3 => one (((frSection raw most 4).bind voltMin).map fun (v : Nat) => [(v : Int)])
  | 4 => one (((frSection raw most 4).bind tempMax).map fun v => [v])
  | 6 => (d.engineOut n port f.sel found, false)
  | 7 => ([([1], aux)], false)
  | _ => if gap then ([], false) else one (differences f most raw prev)

/-- What one frame adds to a trunk partial: its part, and the values of HIST fields. -/
def Dev.framePart (d : Dev) (n w : Nat) (fs : List FieldD) (x : Nat × Bytes × Bytes) (found : List Lateness) :
    Part × List (Nat × Nat × Int × Bool) :=
  let (port, raw, prev) := x
  let fl := frFlags raw
  let cs := fs.zipIdx.map fun (f, i) => (f, i, d.contributions n w port i f raw prev found)
  let lacks := cs.any fun c => c.2.2.2
  let gap := fl.testBit 9 || fl.testBit 6
  let flags := b2n (fl.testBit 0) + 2 * b2n (fl.testBit 1) + 4 * b2n (fl.testBit 3 || fl.testBit 2 || lacks) +
    8 * b2n (fl.testBit 8) + 32 * b2n gap + 64 * b2n (fl.testBit 7)
  let bodies := cs.flatMap fun (f, _, c) => f.contribute (d.leafAddress port) c.1
  let vals := cs.flatMap fun (f, i, c) =>
    if f.op = 5 then c.1.map fun y => (port, i, y.1.getD 0 0, fl.testBit 0 || fl.testBit 1) else []
  ({ present := 1, gapLeaves := b2n gap, flags := flags, bodies := bodies }, vals)

/-- The frames that are folded: none in odd windows of the lowest-priority groups from step 2 of the trunk's ladder on
(R275). -/
def Dev.foldable (d : Dev) (n w : Nat) : List (Nat × Bytes × Bytes) :=
  if d.trunkStep ≥ 2 && w % 2 = 1 && Config.lowPriority (d.get (slotKey n 2)) then []
  else sortBy (fun (a b : Nat × Bytes × Bytes) => a.1 ≤ b.1) (d.win n w).frames

/-- The trunk partial of a window (R430), the values of HIST fields, and the arrivals resolved at this fold (R493). -/
def Dev.formPartial (d : Dev) (n w : Nat) :
    Dev × Part × List (Nat × Nat × Int × Bool) × List (Nat × Lateness) :=
  let fs := d.slotFields n
  let ms := d.membersAt n w
  let frames := (d.foldable n w).filter fun x => ms.contains x.1
  let start : Part := { Part.empty fs with members := ms.length, trunks := 1
                                           flags := if frames.length < ms.length then 16 else 0 }
  frames.foldl (fun (acc : Dev × Part × List (Nat × Nat × Int × Bool) × List (Nat × Lateness)) x =>
    let (d, p, vals, found) := acc
    let (d, mine) := d.resolveMember n x.1
    let (q, vs) := d.framePart n w fs x mine
    (d, p.merge fs q, vals ++ vs, found ++ mine.map fun y => (x.1, y))) (d, start, [], [])

/-! ### The close of a window -/

/-- The number of the window of a slot's group in which a time lies (R425). -/
def Dev.windowOf (d : Dev) (n t : Nat) : Nat := (t - d.get (slotKey n 8)) / (8 * max 1 (d.get (slotKey n 9))) + 1

/-- The HISTORY frames of a window file move to TRIGGER_WINDOWS (R478). -/
def Dev.retagFile (d : Dev) (f : FileSt) : Dev :=
  f.handles.foldl (fun (d : Dev) h =>
    match d.tk.ana.runs.find? fun r => r.handle = h && r.cls = 1 with
    | some r => (d.poolRetag r 2).2
    | none => d) d

/-- Align closes a window (R474, R478): its AlignCounter, and the windows around fleet triggers. -/
def Dev.closeFile (d : Dev) (n w : Nat) : Dev :=
  let d := d.syncAdd ((d.get 0x4001_06 + n) % 16384) 1
  let span := d.get 0x4020_07
  let keeps := d.tk.red.keeps.filter (·.1 = n)
  let near (f : FileSt) (t : Nat) : Bool := f.window ≤ d.windowOf n t + span && d.windowOf n t ≤ f.window + span
  let d := if d.fabricHost then d else
    ((d.slot n).files.filter fun f => f.window ≤ w && keeps.any fun k => near f k.2).foldl Dev.retagFile d
  let d := d.modRed fun r => { r with keeps := r.keeps.filter fun k => !(k.1 = n && d.windowOf n k.2 + span ≤ w) }
  d.modSlot n fun x => { x with files := x.files.filter fun f =>
    w ≤ f.window || f.handles.any fun h => d.tk.ana.runs.any (·.handle = h) }

/-- Members that have left (R448, R508) are forgotten. -/
def Dev.dropLeft (d : Dev) (n w : Nat) : Dev :=
  d.modSlot n fun x =>
    let gone := (x.members.filter fun m => m.until_.any (· ≤ w)).map (·.port)
    let ms := x.members.filter fun m => !m.until_.any (· ≤ w)
    let left (p : Nat) : Bool := gone.contains p && !ms.any (·.port = p)
    { x with members := ms
             strag := { x.strag with members := x.strag.members.filter fun m => !left m.port } }

/-! ### Stages and results (R431 to R436) -/

/-- Is reduction in HOST mode (R454)? -/
def Dev.redHost (d : Dev) : Bool := d.get 0x3200_00 = 1

/-- Reduction reads or writes a partial or a fleet result of a slot (R323: the source REDUCTION). -/
def Dev.usePartial (d : Dev) (n : Nat) : Dev :=
  d.queueMem (Config.reductionStack d.now).toNat 1 (partialSize (d.slotFields n))

/-- A stage input goes out along the stage's line (R432). -/
def Dev.sendInput (d : Dev) (n w s : Nat) (p : Part) : Dev :=
  let own := d.get 0x3100_01
  let r := d.reaches (d.get (slotKey n 6)) (d.get (slotKey n 7)) own (s - 1)
  let msg (minus : Bool) : PMsg :=
    { kind := 3, cls := 3, dest := own, source := own, partition := d.get (slotKey n 4)
      payload := partialBytes (d.get (slotKey n 2)) (d.get (slotKey n 3)) s w own minus (d.blob (slotKey n 0x10)) p }
  let d := d.usePartial n
  let d := if r.1 = 0 then d else d.originateDirect (2 * (s - 1)) (msg false)
  if r.2 = 0 then d else d.originateDirect (2 * (s - 1) + 1) (msg true)

/-- The fleet view of a window is complete (R435, R436). -/
def Dev.finishResult (d : Dev) (n w : Nat) (p : Part) : Dev :=
  let group := d.get (slotKey n 2)
  let gen := d.get (slotKey n 3)
  let own := d.get 0x3100_01
  let box := (d.boxTrunks (d.get (slotKey n 6)) (d.get (slotKey n 7))).length
  let vals := (d.win n w).values
  let d := d.completeWith (0x3250 + n) [(0xD, p.bodies)]
    [(4, group), (5, gen), (6, w), (7, p.members), (8, p.present), (9, p.gapLeaves), (0xA, p.trunks), (0xB, box - p.trunks),
     (0xC, p.flags)]
  let d := (d.flagIf (p.flags.testBit 4) 0x3207 5).usePartial n
  let v : ViewSt := { window := w, part := p, values := vals }
  let d := d.modSlot n fun x =>
    { x with wins := x.wins.filter (·.window != w)
             through := some (max w (x.through.getD 0))
             views := if d.stragHost then x.views else insertBy (fun a b => a.window ≤ b.window) v x.views }
  if d.get (slotKey n 5) != own then d
  else (d.slot n).observers.foldl (fun (d : Dev) o => d.originate
    { kind := 4, cls := 3, dest := o, source := own, partition := d.get (slotKey n 4)
      payload := partialBytes group gen 3 w own false (d.blob (slotKey n 0x10)) p }) d

/-- A stage begins with its input: one of extent 1 is skipped (R431), and after stage 3 the result is complete. -/
def Dev.beginStage (n w : Nat) : (left : Nat) → Dev → Part → Dev
  | 0, d, p => d.finishResult n w p
  | left + 1, d, p =>
    let s := 3 - left
    if extentOf (d.get (slotKey n 7)) (s - 1) = 1 then
      Dev.beginStage n w left (d.modWin n w fun x => { x with closed := s }) p
    else
      (d.modWin n w fun x => { x with inputs := x.inputs ++ [(s, d.get 0x3100_01, p)] }).sendInput n w s p

/-- COLLECT_DEADLINE (R433, R434, R454, R474): at D₀ the trunk partial is formed and the exchange begins. -/
def execCollectDeadline (slot window : Nat) (s : State) : Host.Outcome State Fault Refusal :=
  s.onTrunk fun d =>
    let st := d.slotState slot
    let x := d.win slot window
    if slot ≥ 64 || !(st = 2 || st = 3) || window < d.get (slotKey slot 0xA) || d.get (slotKey slot 0xB) < window || x.formed
      || (d.slot slot).through.any (window ≤ ·) || d.now < d.deadline slot window 0 || d.tk.tripped then d
    else
      let (d, p, vals, found) := d.formPartial slot window
      let d := d.modWin slot window fun x => { x with formed := true, values := vals }
      let d := (d.exportWindow slot window found vals).closeFile slot window
      let d := if d.redHost then
          let d := d.emit (.udp (d.get 0x3201_0C) (d.get 0x3201_0A) (d.get 0x3201_0B)
            (partialBytes (d.get (slotKey slot 2)) (d.get (slotKey slot 3)) 0 window (d.get 0x3100_01) false
              (d.blob (slotKey slot 0x10)) p))
          (d.inc 0x3209_08).modSlot slot fun x =>
            { x with wins := x.wins.filter (·.window != window), through := some (max window (x.through.getD 0)) }
        else Dev.beginStage slot window 3 d p
      d.dropLeft slot window

/-- PARTIAL (R432, R433): a stage input is relayed as far as its Origin's reach asks, and kept or, once its stage has closed,
discarded and counted. -/
def execPartialMsg (m : PartialMsg) (s : State) : Host.Outcome State Fault Refusal :=
  s.onTrunk fun d =>
    match (d.slotOf m.group [2, 3]).filter fun n => d.get (slotKey n 3) = m.generation with
    | none => d
    | some n =>
      if d.redHost || m.stage = 0 || m.stage > 3 || d.tk.tripped then d
      else
        let k := m.stage - 1
        let own := d.get 0x3100_01
        let size := d.torusSize k
        let at_ (id : Nat) : Nat := d.position (d.get (slotKey n 6)) id k
        let hops := if m.minus then (at_ m.origin + size - at_ own) % size else (at_ own + size - at_ m.origin) % size
        let d := d.relay n k hops m.minus { kind := 3, cls := 3, dest := own, source := m.origin, hops := hops
                                            partition := d.get (slotKey n 4), payload := partialMsgBytes m }
        let x := d.win n m.window
        if (d.slot n).through.any (m.window ≤ ·) || m.stage ≤ x.closed then (d.inc 0x3209_03).flag 0x3207 1
        else if x.inputs.any fun y => y.1 = m.stage && y.2.1 = m.origin then d
        else (d.modWin n m.window fun x => { x with inputs := x.inputs ++ [(m.stage, m.origin, msgPart m)] }).usePartial n

/-- The trunks of this trunk's line in a stage, by position (R431). -/
def Dev.lineOf (d : Dev) (n s : Nat) : List Nat :=
  let l := extentOf (d.get (slotKey n 7)) (s - 1)
  (List.range l).map (d.atPosition (d.get (slotKey n 6)) (d.get 0x3100_01) (s - 1))

/-- STAGE_CLOSE (R430, R433, R435): a stage closes once every input of its line is held, or at its deadline. -/
def execStageClose (slot window stage : Nat) (s : State) : Host.Outcome State Fault Refusal :=
  s.onTrunk fun d =>
    let x := d.win slot window
    let line := d.lineOf slot stage
    let input (o : Nat) : Option Part := (x.inputs.find? fun y => y.1 = stage && y.2.1 = o).map (·.2.2)
    let have_ := line.filterMap input
    let all := have_.length = line.length
    if slot ≥ 64 || stage = 0 || stage > 3 || !x.formed || x.closed + 1 != stage || (input (d.get 0x3100_01)).isNone
      || d.tk.tripped || !(all || d.deadline slot window stage ≤ d.now) then d
    else
      let fs := d.slotFields slot
      let p := have_.foldl (Part.merge fs) (Part.empty fs)
      let p := if all then p else { p with flags := p.flags ||| 16 }
      Dev.beginStage slot window (3 - stage) (d.modWin slot window fun x => { x with closed := stage }) p

/-- The slot in which an observer shows a group's results (R436): that of its last result, else the lowest slot that serves no
group and has shown none. -/
def Dev.observerSlot (d : Dev) (group : Nat) : Option Nat :=
  let free := slotNos.filter (d.slotState · = 0)
  let shown (n : Nat) : Bool := d.get (key (0x3250 + n) 2) != 0
  ((free.find? fun n => shown n && d.get (key (0x3250 + n) 4) = group).orElse fun _ => free.find? (!shown ·)).orElse
    fun _ => free.head?

/-- RESULT (R436): at an observer. -/
def execResult (m : PartialMsg) (s : State) : Host.Outcome State Fault Refusal :=
  s.onTrunk fun d =>
    match d.observerSlot m.group with
    | none => d
    | some n =>
      if m.stage != 3 || (d.slotOf m.group [1, 2, 3]).isSome || d.tk.tripped then d
      else
        let d := d.completeWith (0x3250 + n) [(0xD, m.bodies)]
          [(4, m.group), (5, m.generation), (6, m.window), (7, m.members), (8, m.present), (9, m.gapLeaves), (0xA, m.trunks),
           (0xB, (Config.unstated (key (0x3250 + n) 0xB) d.now).toNat), (0xC, m.flags % 128)]
        d.flagIf (m.flags.testBit 4) 0x3207 5

/-! ### The trunk's ladders (R275) -/

/-- The bytes that a Pleach port carries in a window of `ticks` ticks (R396: at least 207 bytes per ns). -/
def carries (ticks : Nat) : Nat := 207 * 8 * ticks

/-- Is TRUNK_INGEST saturated at the close of the next window: has a frame that arrived in a window not been filed? -/
def Dev.ingestLate (d : Dev) (open_ : Nat) : Bool := d.tk.ing.arrived.any (·.2 < open_)

/-- Is TRUNK_FABRIC saturated: do the FRAMES and ARCHIVE queues of a Pleach port hold more than a window's bytes? -/
def Dev.fabricFull (d : Dev) (ticks : Nat) : Bool :=
  (List.range 6).any fun p =>
    let g := d.egress (.pleach p)
    let bytes (c : Nat) : Nat := (((g.queues[c]?).getD []).map (·.len)).sum
    carries ticks < bytes 4 + bytes 7

/-- One ladder of the trunk after a window (R270, R273, R274, R275). -/
def Dev.stepLadder (d : Dev) (i : Nat) (sat : Bool) (window : Nat) : Dev :=
  let k (sub : Nat) : Nat := key (0x2710 + i) sub
  let x := (d.tk.red.ladders[i]?).getD {}
  let step := d.get (k 1)
  let host := d.get 0x2700_01 = 1
  let x : TrunkLadder := if sat then { sat := x.sat + 1 } else { clear := x.clear + 1 }
  let causes := if sat then 2 ^ (3 + i) else 0
  let d := if sat then d.inc (k 2) else d
  let put (d : Dev) (x : TrunkLadder) : Dev := d.modRed fun r => { r with ladders := r.ladders.set i x }
  let tell (d : Dev) (step dir : Nat) : Dev :=
    d.record .levelSat d.stamp (levelPayload (2 + i) step dir causes window 0 (d.get 0x2700_01))
  if d.get 0x2700_04 ≤ x.sat then
    let d := put d { x with sat := 0 }
    if host then tell d step 3
    else if step < 3 then tell ((d.set (k 1) (step + 1)).inc (k 3)) (step + 1) 1
    else d
  else if d.get 0x2700_05 ≤ x.clear then
    let d := put d { x with clear := 0 }
    if !host && 0 < step then tell ((d.set (k 1) (step - 1)).inc (k 4)) (step - 1) 2 else d
  else put d x

/-- TRUNK_LADDER (R275): at the close of a reference window. -/
def execTrunkLadder (s : State) : Host.Outcome State Fault Refusal :=
  s.onTrunk fun d =>
    match d.reference, d.referenceWindow with
    | some n, some w =>
      if w = 0 || d.tk.red.lastJudge = some w then d
      else
        let d := d.modRed fun r => { r with lastJudge := some w }
        let period := d.get (slotKey n 9)
        let d := d.stepLadder 0 (d.ingestLate (d.groupTime n (w - 1))) (w - 1)
        d.stepLadder 1 (d.fabricFull period) w
    | _, _ => d

end Sys2Proof.Machine
end

