-- ==== Sys2Proof/Machine/Thicket.lean ====
section
/-! DEFINITION. The Thicket (chapter 15): loading and compiling models, scoring vectors, damage, and the HOST export. -/

namespace Sys2Proof.Machine

open Sys2Proof

/-! ### Models and resources -/

/-- State of a model slot: 0 EMPTY, 1 LOADING, 2 READY, 3 DAMAGED. -/
def Dev.modelState (d : Dev) (m : Nat) : Nat := d.get (modelKey m 1)

/-- A loaded model. -/
def Dev.model (d : Dev) (m : Nat) : Option ThModel := d.tk.thk.find? (·.id = m)

/-! ### The image (R516 to R518) -/

/-- A node of an image. -/
structure RawNode where
  feature  : Nat
  leftLeaf : Bool
  rightLeaf : Bool
  thresh   : Nat
  left     : Nat
  right    : Nat
  reserved : Bool

/-- A tree of an image's directory. -/
structure RawTree where
  output   : Nat
  nodes    : Nat
  first    : Nat
  reserved : Bool

/-- The fields of an image. -/
structure Image where
  bytes    : Bytes
  outputs  : Nat
  features : Nat
  trees    : List RawTree
  count    : Nat
  nodes    : Nat → RawNode

/-- The image that bytes hold. -/
def imageOf (b : Bytes) : Image :=
  let trees := natAt b 10 2
  let node (i : Nat) : RawNode :=
    let o := 96 + 8 * trees + 16 * i
    let f := natAt b (o + 2) 1
    { feature := natAt b o 2, leftLeaf := f.testBit 0, rightLeaf := f.testBit 1, thresh := natAt b (o + 4) 4
      left := natAt b (o + 8) 4, right := natAt b (o + 12) 4, reserved := f > 3 || natAt b (o + 3) 1 != 0 }
  { bytes := b, outputs := natAt b 5 1, features := natAt b 8 2, count := natAt b 12 4, nodes := node
    trees := (List.range trees).map fun j =>
      let o := 96 + 8 * j
      { output := natAt b o 1, nodes := natAt b (o + 2) 2, first := natAt b (o + 4) 4, reserved := natAt b (o + 1) 1 != 0 } }

/-- The nodes of a tree. -/
def Image.treeNodes (g : Image) (t : RawTree) : List RawNode := (List.range t.nodes).map fun n => g.nodes (t.first + n)

/-- Does an image keep the form of R516 (first check of R518)? -/
def Image.formOk (g : Image) : Bool :=
  let b := g.bytes
  96 ≤ b.length && natAt b 0 4 = 0x544B4854 && natAt b 4 1 = 1 && 1 ≤ g.outputs && g.outputs ≤ 16 &&
  1 ≤ g.features && g.features ≤ 1024 && 1 ≤ g.trees.length && g.trees.length ≤ 16384 &&
  natAt b 16 4 = g.count + g.trees.length && b.length = 96 + 8 * g.trees.length + 16 * g.count &&
  natAt b 20 4 = crc32c (b.drop 96) && natAt b 6 2 = 0 && natAt b 24 8 = 0 &&
  (g.trees.map (·.nodes)).sum = g.count && !g.trees.any (·.reserved) &&
  (List.range g.count).all fun i => !(g.nodes i).reserved

/-- The children of a node that are nodes. -/
def RawNode.children (x : RawNode) : List Nat :=
  (if x.leftLeaf then [] else [x.left]) ++ (if x.rightLeaf then [] else [x.right])

/-- Does a tree keep R517 (second check): `start` is where its nodes must begin. -/
def Image.treeOk (g : Image) (t : RawTree) (start : Nat) : Bool :=
  let ns := g.treeNodes t
  let kids := ns.flatMap RawNode.children
  t.output < g.outputs && 1 ≤ t.nodes && t.nodes ≤ 256 && t.first = start &&
  ns.zipIdx.all (fun (x, i) => x.children.all fun c => i < c && c < t.nodes) &&
  (List.range t.nodes).all fun i => i = 0 || (kids.filter (· = i)).length = 1

/-- Is a word a binary32 NaN? -/
def isNan32 (w : Nat) : Bool := f32.decode w = .nan

/-- Does a tree keep the value rules (third check)? -/
def Image.valuesOk (g : Image) (t : RawTree) : Bool :=
  (g.treeNodes t).all fun x => x.feature < g.features && !isNan32 x.thresh &&
    !(x.leftLeaf && isNan32 x.left) && !(x.rightLeaf && isNan32 x.right)

/-- The first tree that fails the second check. -/
def Image.badTree (g : Image) : (start j : Nat) → List RawTree → Option Nat
  | _, _, [] => none
  | start, j, t :: ts => if g.treeOk t start then g.badTree (start + t.nodes) (j + 1) ts else some j

/-! ### Compiling (R519 to R521, R534) -/

/-- The comparators of a model and the comparator of each node, in node order (R519). -/
def compileComps : List RawNode → List (Nat × Nat) → List Nat → List (Nat × Nat) × List Nat
  | [], cs, is => (cs, is.reverse)
  | x :: xs, cs, is =>
    match cs.findIdx? (· = (x.feature, x.thresh)) with
    | some i => compileComps xs cs (i :: is)
    | none => compileComps xs (cs ++ [(x.feature, x.thresh)]) (cs.length :: is)

/-- The lowest run of free tree slots long enough (R534). -/
def freeTreeRun (ms : List ThModel) (n : Nat) : Option Nat :=
  let ends := 0 :: ms.map fun m => m.first + m.trees.length
  (sortBy Nat.ble ends).find? fun s =>
    s + n ≤ 16384 && ms.all fun m => s + n ≤ m.first || m.first + m.trees.length ≤ s

/-- The bank with the most free entries, the lower number on a tie (R521). -/
def emptiest (used : Nat → Nat) : Nat := (List.range 32).foldl (fun b i => if used i < used b then i else b) 0

/-- `n` free entries of a bank (log 23). -/
def pickEntries (taken : List Nat) (bank n : Nat) : List Nat :=
  let free := ((List.range 32768).map (bank * 32768 + ·)).filter fun a => !taken.contains a
  let k := Config.entryPick bank taken.length % max 1 free.length
  (free.drop k ++ free.take k).take n

/-- Trees placed in banks in tree order (R521); the index of the first that fits no bank. -/
def placeTrees (ms : List ThModel) (j : Nat) : List (Nat × List ThNode) → List ThTree → Except Nat (List ThTree)
  | [], done => .ok done
  | (output, nodes) :: rest, done =>
    let mine (b : Nat) : List ThTree := (ms.flatMap (·.trees) ++ done).filter (·.bank = b)
    let used (b : Nat) : Nat := ((mine b).map (·.addrs.length)).sum
    let b := emptiest used
    if used b + nodes.length + 1 > 32768 then .error j
    else
      let addrs := pickEntries ((mine b).flatMap (·.addrs)) b (nodes.length + 1)
      placeTrees ms (j + 1) rest (done ++ [{ output := output, bank := b, addrs := addrs, nodes := nodes }])

/-- A tree's nodes with their comparators. -/
def compileNodes (ns : List RawNode) (comps : List Nat) : List ThNode :=
  List.zipWith (fun (x : RawNode) c => ⟨c, x.left, x.leftLeaf, x.right, x.rightLeaf⟩) ns comps

/-- Lists cut in pieces of given lengths. -/
def cutBy {α : Type} : List Nat → List α → List (List α)
  | [], _ => []
  | n :: ns, l => l.take n :: cutBy ns (l.drop n)

/-- A model compiled from an image (R518 to R521), or the status and Detail of the first check that fails. -/
def compileModel (ms : List ThModel) (id : Nat) (g : Image) : Except (Nat × Nat) ThModel :=
  if !g.formOk then .error (0x10, 0)
  else match g.badTree 0 0 g.trees with
  | some j => .error (0x11, j)
  | none =>
    match (g.trees.findIdx? fun t => !g.valuesOk t) with
    | some j => .error (0x12, j)
    | none =>
      let all := g.trees.map g.treeNodes
      let (cs, is) := compileComps all.flatten [] []
      if (ms.map (·.comps.length)).sum + cs.length > 16384 then .error (0x13, 0)
      else match freeTreeRun ms g.trees.length with
      | none => .error (0x14, 0)
      | some first =>
        let nodes := List.zipWith compileNodes all (cutBy (g.trees.map (·.nodes)) is)
        match placeTrees ms 0 ((g.trees.map (·.output)).zip nodes) [] with
        | .error j => .error (0x15, j)
        | .ok ts => .ok { id := id, first := first, comps := cs, trees := ts
                          base := (List.range 16).map fun o => natAt g.bytes (32 + 4 * o) 4 }

/-- The largest number of a model's trees in a bank (R521). -/
def ThModel.maxBank (m : ThModel) : Nat :=
  ((List.range 32).map fun b => (m.trees.filter (·.bank = b)).length).foldl max 0

/-! ### LOAD, UNLOAD (R518, R522, R528, R529) -/

/-- The ModelId byte of a Thicket descriptor. -/
def modelByte (x : DescSt) : Nat := natAt x.bytes 17 1

/-- May a Thicket descriptor start under R528? An UNLOAD also waits for a LOAD at work on its slot. -/
def Dev.modelFree (d : Dev) (r : Nat) (x : DescSt) : Bool :=
  let op (y : DescSt) : Nat := natAt y.bytes 16 1
  let same (y : DescSt) : Bool := modelByte y % 8 = modelByte x % 8
  let before := (beforeIn x.idx (d.ring r).taken).filter same
  let loads := op x != 3
  let busy := (List.range 64).any fun q => d.get (ringKey q 1) = 8 &&
    (d.ring q).taken.any fun y => same y && (op y = 3 || (op x = 2 && op y = 1)) && y.begun && y.result.isNone
  before.all (fun y => y.finished || (!loads && op y = 3)) && !(loads && busy)

/-- A Thicket operation: malformed where its ModelId has other bits set, and in order under R528. -/
def State.thicket (s : State) (r i op : Nat) (f : Dev → Mem → DescSt → OpOut) : Host.Outcome State Fault Refusal :=
  let waits := (s.trunk.desc r i).any fun x => !x.begun && !s.trunk.modelFree r x
  s.onMem fun d m =>
    if waits then (d, m)
    else match s.runOp r i 8 op fun d m x =>
        if modelByte x > 7 then (some (statusOnly 0xF0), d, m) else f d m x with
    | .next t => (t.trunk, t.mem)
    | _ => (d, m)

/-- The bytes from `lo` up to 48 of an operation block, which no field names, are zero. -/
def reservedFrom (x : DescSt) (l : List (Nat × Nat)) : Bool := l.all fun (o, n) => natAt x.bytes (16 + o) n = 0

/-- LOAD (R518, R522): the model is checked and compiled; the descriptor completes when the model is READY. -/
def execLoad (r i : Nat) (s : State) : Host.Outcome State Fault Refusal :=
  s.thicket r i 1 fun d m x =>
    let id := modelByte x
    let len := natAt x.bytes 20 4
    let src := natAt x.bytes 24 8
    if x.begun then (none, d, m)
    else if !reservedFrom x [(2, 2), (16, 32)] then (some (statusOnly 0xF0), d, m)
    else guardRanges d m x [(src, len)] <|
      if d.modelState id != 0 then (some (statusOnly 0x05), d, m)
      else
        let g := imageOf (d.load_ m src len)
        let d := d.useMem 3 src len
        match compileModel d.tk.thk id g with
        | .error (st, detail) => (some (resultBlock st 0 0 detail), d.flag 0x4203 3, m)
        | .ok c =>
          let d := d.setModels (d.tk.thk ++ [{ c with load := some (r, i) }])
          let d := [(1, 1), (2, g.features), (3, g.outputs), (4, c.trees.length), (5, c.comps.length),
            (6, g.count + c.trees.length), (7, c.maxBank), (8, c.first), (9, natAt g.bytes 20 4), (0xA, 0), (0xB, 0)].foldl
              (fun (d : Dev) (y : Nat × Nat) => d.set (modelKey id y.1) y.2) d
          (none, d, m)

/-- MODEL_READY (R522): the last entry has been written, and the LOAD completes. -/
def execModelReady (model : Nat) (s : State) : Host.Outcome State Fault Refusal :=
  s.onTrunk fun d =>
    match d.model model with
    | some c =>
      match c.load with
      | some (r, i) =>
        if d.noAnalysis then d
        else
          let d := d.setModels (d.tk.thk.map fun y => if y.id = model then { y with load := none } else y)
          let d := if d.modelState model = 1 then d.set (modelKey model 1) 2 else d
          (d.set (modelKey model 0xA) d.now).modDesc r i fun y =>
            if y.begun && y.result.isNone then { y with result := some (statusOnly 0) } else y
      | none => d
    | none => d

/-- UNLOAD (R529). -/
def execUnload (r i : Nat) (s : State) : Host.Outcome State Fault Refusal :=
  s.thicket r i 2 fun d m x =>
    let id := modelByte x
    if !reservedFrom x [(2, 46)] then (some (statusOnly 0xF0), d, m)
    else if d.modelState id = 0 then (some (statusOnly 0x01), d, m)
    else
      let d := d.setModels (d.tk.thk.filter (·.id != id))
      (some (statusOnly 0), (List.range 0xB).foldl (fun (d : Dev) k => d.clear (modelKey id (k + 1))) d, m)

/-! ### Scoring (R523 to R527, R530) -/

/-- The fields of an INFER. -/
structure InferOp where
  model    : Nat
  features : Nat
  count    : Nat
  inA      : Nat
  outA     : Nat
  stride   : Nat
  tag      : Nat
  flagsA   : Nat

/-- The fields of an INFER's operation block. -/
def inferOp (x : DescSt) : InferOp :=
  let b := opBlock x
  { model := natAt b 1 1 % 8, features := natAt b 2 2, count := natAt b 4 4, inA := natAt b 8 8, outA := natAt b 16 8
    stride := natAt b 24 4, tag := natAt b 28 4, flagsA := natAt b 32 8 }

/-- An INFER whose Count or Stride breaks its rule. -/
def InferOp.bad (o : InferOp) : Bool := o.count = 0 || o.count > 16777216 || o.stride % 4 != 0 || o.stride < 4 * o.features

/-- A binary32 sum as the engine writes it (R526). -/
def add32 (a b : Nat) : Nat := f32.encode 0x7FC00000 (f32.addR .rne (f32.decode a) (f32.decode b))

/-- A scored vector: its outputs, whether a feature that is read is a NaN, and the tree slot of the first miss. -/
structure Score where
  outs : List Nat
  nan  : Bool
  miss : Option Nat

/-- A model applied to a vector's features (R523 to R526). -/
def ThModel.score (c : ThModel) (outputs : Nat) (x : Nat → Nat) : Score :=
  let bits (i : Nat) : Bool := match c.comps[i]? with
    | some (f, t) => (f32.decode (x f)).lt (f32.decode t)
    | none => false
  let found := c.trees.map fun t => (t.output, t.search bits)
  let miss := (found.findIdx? (·.2.isNone)).map (c.first + ·)
  let sum (o : Nat) : Nat := (found.filter (·.1 = o)).foldl (fun s y => add32 s (y.2.getD 0)) (c.base.getD o 0)
  { outs := if miss.isSome then List.replicate outputs 0x7FC00000 else (List.range outputs).map sum
    nan := c.comps.any fun y => isNan32 (x y.1), miss := miss }

/-- One vector of an INFER is scored and written (R525, R527, R532). -/
def Dev.scoreOne (d : Dev) (m : Mem) (o : InferOp) (c : ThModel) (x : DescSt) (v : Nat) : Dev × Mem × DescSt :=
  let outputs := d.get (modelKey o.model 3)
  let s := c.score outputs fun f => natAt (d.load_ m (o.inA + o.stride * v + 4 * f) 4) 0 4
  let hurt := x.hurt.any (·.contains v)
  let outs := if hurt then List.replicate outputs 0x7FC00000 else s.outs
  let m := m.write (o.outA + 4 * outputs * v) (outs.flatMap (leBytes 4))
  let m := if o.flagsA = 0 then m
    else m.put (o.flagsA + v) (BitVec.ofNat 8 (b2n s.nan + 2 * b2n s.miss.isSome + 4 * b2n hurt))
  let d := if s.nan then (d.inc 0x4202_03).flag 0x4203 0 else d
  let d := if s.miss.isSome then (d.inc 0x4202_04).flag 0x4203 1 else d
  let d := ((d.inc 0x4202_01).add 0x4202_02 c.trees.length).inc (modelKey o.model 0xB)
  (d, m, { x with done := x.done + 1, nans := x.nans + b2n s.nan, miss := x.miss.orElse fun _ => s.miss })

/-- An INFER in HOST mode: its vectors go out, whole, in datagrams (R533). -/
def Dev.exportVectors (d : Dev) (m : Mem) (o : InferOp) : Dev :=
  let per := 8176 / max 1 (4 * o.features)
  (List.range ((o.count + per - 1) / max 1 per)).foldl (fun (d : Dev) k =>
    let n := min per (o.count - k * per)
    let data := (List.range n).flatMap fun j => d.load_ m (o.inA + o.stride * (k * per + j)) (4 * o.features)
    d.emit (.udp (d.get 0x4201_06) (d.get 0x3201_0A) (d.get 0x3201_0B)
      (leBytes 1 o.model ++ zeros 1 ++ leBytes 2 n ++ leBytes 2 o.features ++ zeros 2 ++ leBytes 4 o.tag ++
       leBytes 4 (k * per) ++ data))) d

/-- INFER (R523, R532, R533): the descriptor is checked; its vectors are scored in batches. -/
def execInfer (r i : Nat) (s : State) : Host.Outcome State Fault Refusal :=
  s.thicket r i 3 fun d m x =>
    let o := inferOp x
    if x.begun then (none, d, m)
    else if o.bad || !reservedFrom x [(40, 8)] then (some (statusOnly 0xF0), d, m)
    else if d.modelState o.model < 2 then (some (statusOnly 0x01), d, m)
    else if d.get (modelKey o.model 2) != o.features then (some (statusOnly 0x02), d, m)
    else if d.modelState o.model = 3 then (some (statusOnly 0x04), d, m)
    else
      let host := d.get 0x4200_00 = 1
      let inLen := o.stride * (o.count - 1) + 4 * o.features
      let outs := if host then [] else
        [(o.outA, 4 * d.get (modelKey o.model 3) * o.count)] ++ (if o.flagsA = 0 then [] else [(o.flagsA, o.count)])
      guardRanges d m x ((o.inA, inLen) :: outs) <|
        if host then (some (resultBlock 0x20 o.count 0 0), (d.exportVectors m o).add 0x4202_07 o.count, m)
        else (none, d, m)

/-- How an INFER ends (R532). -/
def DescSt.inferResult (x : DescSt) : Bytes :=
  let st := if x.hurt.isSome then 0x04 else if x.miss.isSome then 0x03 else 0
  resultBlock st x.done x.nans (x.miss.getD 0)

/-- BATCH (R530): the next vectors of an INFER that has started, while class 4 is not held. -/
def execBatch (r i : Nat) (s : State) : Host.Outcome State Fault Refusal :=
  s.onMem fun d m =>
    match d.desc r i with
    | none => (d, m)
    | some x =>
      let o := inferOp x
      if d.get (ringKey r 1) != 8 || natAt x.bytes 16 1 != 3 || !x.begun || x.result.isSome || d.noAnalysis then (d, m)
      else match d.model o.model with
      | none => (d, m)
      | some c =>
        if d.classHeld 4 then
          (if x.held then d else (d.inc 0x4202_06).modDesc r i fun y => { y with held := true }, m)
        else
          let n := min (max 1 (d.get 0x4010_0D)) (o.count - x.done)
          let d := (d.useMem 3 (o.inA + o.stride * x.done) (o.stride * n)).useMem 3
            (o.outA + 4 * d.get (modelKey o.model 3) * x.done) (4 * d.get (modelKey o.model 3) * n)
          let (d, m, x) := (List.range n).foldl (fun (acc : Dev × Mem × DescSt) _ =>
            acc.1.scoreOne acc.2.1 o c acc.2.2 acc.2.2.done) (d, m, { x with held := false })
          let x := if x.done = o.count then { x with result := some x.inferResult } else x
          (d.modDesc r i fun _ => x, m)

/-! ### Damage (R532) -/

/-- UNCORRECTABLE_ECC (R532): the model is DAMAGED; vectors of the INFER that it falls into are written so. -/
def execUncorrectableEcc (h : EccHit) (s : State) : Host.Outcome State Fault Refusal :=
  s.onMem fun d m =>
    if h.model > 7 || d.modelState h.model = 0 then (d, m)
    else
      let d := (d.set (modelKey h.model 1) 3).flag 0x4203 2
      match (d.desc h.ring h.index).filter fun x => h.inferring && x.begun && x.result.isNone &&
          natAt x.bytes 16 1 = 3 && (inferOp x).model = h.model with
      | none => (d, m)
      | some x =>
        let o := inferOp x
        let n := d.get (modelKey h.model 3)
        let m := (h.vectors.filter (· < x.done)).foldl (fun (m : Mem) v =>
          let m := m.write (o.outA + 4 * n * v) ((List.replicate n 0x7FC00000).flatMap (leBytes 4))
          if o.flagsA = 0 then m
          else m.put (o.flagsA + v) (BitVec.ofNat 8 (setBit (m.byte (o.flagsA + v)).toNat 2))) m
        (d.modDesc h.ring h.index fun y => { y with hurt := some (y.hurt.getD [] ++ h.vectors) }, m)

/-- ECC_CORRECTED (R532): a corrected error of the Thicket's SRAM. -/
def execEccCorrected (s : State) : Host.Outcome State Fault Refusal := s.onTrunk (·.inc 0x4202_05)

end Sys2Proof.Machine
end

