-- ==== Sys2Proof/Machine/Signature.lean ====
section
/-! DEFINITION. The Varmel Signature Format (R590 to R593): its binary and text forms, the signature log and the Signature
engine, and what a trunk names of a leaf in a signature (R591). -/

namespace Sys2Proof.Machine

open Sys2Proof

/-! ### The binary form (R590) -/

/-- A VSF record, Magic, Version and Crc apart. -/
structure Vsf where
  kind   : Nat
  cls    : Nat := 7
  flags  : Nat := 0
  time   : Nat
  leaf   : Nat
  die    : Nat
  tap    : Nat
  ty     : Nat
  test   : Nat
  exp    : Nat
  obs    : Nat
  occ    : Nat
  temp   : Int := -32768
  minV   : Nat := 0xFFFFFFFF
  detail : Bytes
  deriving DecidableEq, Repr

/-- Bytes 4 to 59 of a record. -/
def Vsf.body (v : Vsf) : Bytes :=
  leBytes 1 1 ++ leBytes 1 v.kind ++ leBytes 1 v.cls ++ leBytes 1 v.flags ++ leBytes 8 v.time ++ leBytes 4 v.leaf ++
  leBytes 8 v.die ++ leBytes 1 v.tap ++ leBytes 1 v.ty ++ leBytes 2 v.test ++ leBytes 4 v.exp ++ leBytes 4 v.obs ++
  leBytes 2 v.occ ++ leInt 2 v.temp ++ leBytes 4 v.minV ++ bytesAt v.detail 0 12

/-- A record from its bytes 4 to 59: with Magic and Crc (R590). -/
def sealVsf (body : Bytes) : Bytes :=
  let b := leBytes 4 0x31465356 ++ bytesAt body 0 56
  b ++ leBytes 4 (crc32c b)

/-- The 64 bytes of a record. -/
def Vsf.bytes (v : Vsf) : Bytes := sealVsf v.body

/-- The fields of a record's 64 bytes; reserved flags are ignored (R16). -/
def vsfOf (b : Bytes) : Vsf :=
  { kind := natAt b 5 1, cls := natAt b 6 1, flags := natAt b 7 1 % 4, time := natAt b 8 8, leaf := natAt b 16 4
    die := natAt b 20 8, tap := natAt b 28 1, ty := natAt b 29 1, test := natAt b 30 2, exp := natAt b 32 4
    obs := natAt b 36 4, occ := natAt b 40 2, temp := intAt b 42 2, minV := natAt b 44 4, detail := bytesAt b 48 12 }

/-- The names of the kinds (R590). -/
def vsfKinds : List (Nat × String) := [(1, "FIELD_TEST"), (2, "RECOMPUTE"), (3, "SHADOW"), (4, "WEIGHT")]

/-- The names of the defect classes (R575). -/
def defectClasses : List (Nat × String) :=
  [(0, "UNCLASSIFIED"), (1, "STUCK"), (2, "DELAY"), (3, "SRAM"), (4, "DATAPATH"), (5, "INTERCONNECT"), (6, "MARGINAL"),
   (7, "SILENT_DATA")]

/-- The names of the engine types (R119). -/
def engineTypes : List (Nat × String) :=
  [(0, "MATRIX"), (1, "VECTOR"), (2, "DMA"), (3, "WEIGHT_RX"), (4, "GRAD_REDUCE"), (5, "ROUTER"), (6, "MEMORY_PORT"),
   (7, "CONTROL"), (8, "WEIGHT_SERVE"), (9, "IO"), (0xF, "OTHER")]

/-- Has an encoding a name? -/
def named (n : Nat) (l : List (Nat × String)) : Bool := l.any (·.1 = n)

/-- Is every field of a record within its encodings? -/
def Vsf.ok (v : Vsf) : Bool :=
  named v.kind vsfKinds && named v.cls defectClasses && named v.ty engineTypes

/-- Is a record good (R593): its Magic, Version, Crc and fields? -/
def vsfGood (b : Bytes) : Bool :=
  b.length = 64 && natAt b 0 4 = 0x31465356 && natAt b 4 1 = 1 && natAt b 60 4 = crc32c (b.take 60) && (vsfOf b).ok

/-! ### The text form (R592) -/

/-- The decimal digits of a number, ASCII. -/
def decDigits : (fuel n : Nat) → Bytes → Bytes
  | 0, _, acc => acc
  | fuel + 1, n, acc =>
    let acc := BitVec.ofNat 8 (48 + n % 10) :: acc
    if n / 10 = 0 then acc else decDigits fuel (n / 10) acc

/-- A number in decimal. -/
def dec (n : Nat) : Bytes := decDigits 20 n []

/-- An uppercase hexadecimal digit. -/
def hexDigit (n : Nat) : Byte := BitVec.ofNat 8 (if n < 10 then 48 + n else 55 + n)

/-- The low `w` hexadecimal digits of a number, an underscore every four where `w` exceeds four. -/
def hexDigits (n : Nat) : (w : Nat) → (all : Nat) → Bytes
  | 0, _ => []
  | w + 1, all =>
    hexDigit (n / 16 ^ w % 16) :: (if 4 < all && 0 < w && w % 4 = 0 then 0x5F#8 :: hexDigits n w all else hexDigits n w all)

/-- A hexadecimal value of `w` digits. -/
def hex (w n : Nat) : Bytes := ascii "0x" ++ hexDigits n w w

/-- The name of an encoding. -/
def nameOf (n : Nat) (l : List (Nat × String)) : Bytes := ((l.find? (·.1 = n)).map (ascii ·.2)).getD []

/-- The keys and values of a record's text, in order (R592). -/
def Vsf.pairs (v : Vsf) : List (String × Bytes) :=
  [("kind", nameOf v.kind vsfKinds), ("class", nameOf v.cls defectClasses), ("flags", hex 2 v.flags), ("time", dec v.time),
   ("leaf", hex 8 v.leaf), ("die", hex 16 v.die), ("tap", dec v.tap), ("type", nameOf v.ty engineTypes), ("test", hex 4 v.test),
   ("exp", hex 8 v.exp), ("obs", hex 8 v.obs), ("occ", dec v.occ),
   ("temp", (if v.temp < 0 then ascii "-" else []) ++ dec v.temp.natAbs), ("minv", dec v.minV),
   ("detail", v.detail.flatMap fun b => hexDigits b.toNat 2 2)]

/-- The text form of a record (R592). -/
def Vsf.text (v : Vsf) : Bytes :=
  ascii "VSF1" ++ (v.pairs.flatMap fun (k, x) => ascii " " ++ ascii k ++ ascii "=" ++ x) ++ [0x0A#8]

/-- A string cut at each byte `c`. -/
def splitAtByte (c : Byte) : Bytes → List Bytes
  | [] => [[]]
  | b :: bs =>
    let r := splitAtByte c bs
    if b = c then [] :: r else (b :: r.headD []) :: r.tail

/-- The digit that an ASCII byte spells, underscores apart. -/
def digitOf (b : Byte) : Nat := let n := b.toNat; if n < 58 then n - 48 else n - 55

/-- The number that digits of a base spell. -/
def numOf (base : Nat) (bs : Bytes) : Nat := (bs.filter (· != 0x5F#8)).foldl (fun n b => base * n + digitOf b) 0

/-- The encoding that a name stands for; 0xFF for none. -/
def codeOf (bs : Bytes) (l : List (Nat × String)) : Nat := ((l.find? fun x => ascii x.2 = bs).map (·.1)).getD 0xFF

/-- The bytes that pairs of hexadecimal digits spell. -/
def bytesOfHex : Bytes → Bytes
  | a :: b :: bs => BitVec.ofNat 8 (16 * digitOf a + digitOf b) :: bytesOfHex bs
  | _ => []

/-- The record that a line spells; none where the line breaks R592. What a line spells is a record whose text is the line. -/
def vsfFromText (line : Bytes) : Option Vsf :=
  let toks := (splitAtByte 0x20#8 (line.take (line.length - 1))).drop 1
  let val (i : Nat) : Bytes := (splitAtByte 0x3D#8 (toks.getD i [])).getD 1 []
  let hexOf (i : Nat) : Nat := numOf 16 ((val i).drop 2)
  let t := val 12
  let v : Vsf :=
    { kind := codeOf (val 0) vsfKinds, cls := codeOf (val 1) defectClasses, flags := hexOf 2, time := numOf 10 (val 3)
      leaf := hexOf 4, die := hexOf 5, tap := numOf 10 (val 6), ty := codeOf (val 7) engineTypes, test := hexOf 8
      exp := hexOf 9, obs := hexOf 10, occ := numOf 10 (val 11)
      temp := if t.head? = some 0x2D#8 then -(numOf 10 t.tail : Int) else numOf 10 t
      minV := numOf 10 (val 13), detail := bytesOfHex (val 14) }
  let u : Vsf := { v with flags := v.flags % 4 }
  if v.text = line && vsfOf v.bytes = u then some u else none

/-! ### The signature log -/

/-- A good record joins the log (R593), which holds the newest 1,024, and `LastSignature` completes. -/
def Dev.appendSignature (d : Dev) (b : Bytes) : Dev :=
  let log := d.blob 0x4430_05 ++ b
  let spilt := log.length > 65536
  let d := (d.setBlob 0x4430_05 (log.drop (log.length - 65536))).inc 0x4430_02
  (d.flagIf spilt 0x4432 1).completeWith 0x4431 [(6, b)] [(4, natAt b 5 1), (5, natAt b 16 4)]

/-- VSF_RECORD (R593): a record of the leaf on Stem port `port`. -/
def execVsfRecord (port : Nat) (data : Bytes) (s : State) : Host.Outcome State Fault Refusal :=
  s.onTrunk fun d =>
    if port > 255 then d
    else if vsfGood data then d.appendSignature data
    else (d.inc 0x4430_03).flag 0x4432 2

/-! ### The Signature engine -/

/-- A Signature operation: malformed where a reserved byte of its block is not 0. -/
def State.signature (s : State) (r i op : Nat) (zero : List (Nat × Nat)) (f : Dev → Mem → DescSt → OpOut) :
    Host.Outcome State Fault Refusal :=
  s.runOp r i 9 op fun d m x => if reservedFrom x ((1, 3) :: zero) then f d m x else (some (statusOnly 0xF0), d, m)

/-- SEAL (R590). -/
def execSeal (r i : Nat) (s : State) : Host.Outcome State Fault Refusal :=
  s.signature r i 1 [(4, 4), (16, 32)] fun d m x =>
    let src := natAt x.bytes 24 8
    guardRanges d m x [(src, 56)] <|
      let b := sealVsf (d.load_ m src 56)
      let d := d.useMem 2 src 56
      if vsfGood b then (some (statusOnly 0), d.appendSignature b, m) else (some (statusOnly 1), d, m)

/-- TO_TEXT (R592). -/
def execToText (r i : Nat) (s : State) : Host.Outcome State Fault Refusal :=
  s.signature r i 2 [(24, 24)] fun d m x =>
    let src := natAt x.bytes 24 8
    let dst := natAt x.bytes 32 8
    guardRanges d m x [(src, 64), (dst, natAt x.bytes 20 4)] <|
      let b := d.load_ m src 64
      let t := (vsfOf b).text
      let d := d.useMem 2 src 64
      if !vsfGood b then (some (statusOnly 1), d, m)
      else if natAt x.bytes 20 4 < t.length then (some (statusOnly 3), d, m)
      else (some (resultBlock 0 t.length 0 0), d.useMem 2 dst t.length, m.write dst t)

/-- FROM_TEXT (R592). -/
def execFromText (r i : Nat) (s : State) : Host.Outcome State Fault Refusal :=
  s.signature r i 3 [(24, 24)] fun d m x =>
    let n := natAt x.bytes 20 4
    let src := natAt x.bytes 24 8
    let dst := natAt x.bytes 32 8
    guardRanges d m x [(src, n), (dst, 64)] <|
      let d := d.useMem 2 src n
      match (if n > 255 then none else vsfFromText (d.load_ m src n)) with
      | none => (some (statusOnly 2), d, m)
      | some v =>
        if v.ok then (some (statusOnly 0), d.useMem 2 dst 64, m.write dst v.bytes) else (some (statusOnly 1), d, m)

/-! ### What a trunk names of a leaf (R591, R568) -/

/-- A fact of a leaf: what it has answered, else a free value (log 24). -/
def Dev.leafFact (d : Dev) (port index sub : Nat) : Nat :=
  (d.knownNat port index sub).getD (Config.leafFact (key index sub) (d.leafAddress port)).toNat

/-- The tap of a leaf's trace source. -/
def Dev.sourceTap (d : Dev) (port src : Nat) : Nat := d.leafFact port (0x2510 + src) 2 % 256

/-- The EngineType of a leaf's tap, from its tap table (R71). -/
def Dev.tapType (d : Dev) (port tap : Nat) : Nat :=
  let o := 5 + 8 * tap
  match d.knownOf port 0xF0FF (o / 1024) with
  | some b => natAt b (o % 1024) 1
  | none => (Config.leafFact (key 0xF0FF tap) (d.leafAddress port)).toNat % 256

/-- The trunk reads what its signatures name of a leaf: `HostDieId`, the source's tap, and the tap table. -/
def Dev.readFacts (d : Dev) (port src : Nat) : Dev :=
  (((d.readLeaf port 1 0x1000 7 8).readLeaf port 1 (0x2510 + src) 2 1).readLeaf port 1 0xF0FF 0 1024).readSecond port 0xF0FF

/-- The latest frame filed of a leaf, by LatchStamp. -/
def Dev.latestFrame (d : Dev) (port : Nat) : Option Bytes :=
  ((List.range 4).filterMap fun k => lookupKey (4 * port + k) d.tk.ing.last).foldl (fun best f => match best with
    | some b => if 0 < seqDiff 32 (frLatch f) (frLatch b) then some f else some b
    | none => some f) none

/-- One more failure counted under a key (R590), saturating. -/
def countOcc {α : Type} [DecidableEq α] (k : α) (l : List (α × Nat)) : Nat × List (α × Nat) :=
  let n := min 65535 (((l.find? (·.1 = k)).map (·.2)).getD 0 + 1)
  (n, l.filter (·.1 != k) ++ [(k, n)])

/-- The trunk emits a VSF record of a leaf (R591): the log takes it as SEAL would. -/
def Dev.emitSignature (d : Dev) (kind port src time test exp obs : Nat) (detail : Bytes) : Dev :=
  let leaf := d.leafAddress port
  let tap := d.sourceTap port src
  let (occ, l) := countOcc (kind, leaf, tap, test) d.tk.sig.occ
  let d := { d with tk := { d.tk with sig := { d.tk.sig with occ := l } } }
  let f := d.latestFrame port
  let sensors := (f.bind fun x => frSection x 255 4).getD []
  let v : Vsf :=
    { kind := kind, flags := b2n (f.any fun x => (frFlags x).testBit 0), time := time, leaf := leaf
      die := d.leafFact port 0x1000 7, tap := tap, ty := d.tapType port tap, test := test, exp := exp, obs := obs, occ := occ
      temp := (tempMax sensors).getD (-32768), minV := (voltMin sensors).getD 0xFFFFFFFF, detail := detail }
  d.appendSignature v.bytes

/-- The trunk originates a trigger for a failure at a leaf (R568): for the group that its latest frame names, or for the leaf
alone; at most one per group per `TriggerHoldoff`. The TriggerId, and the unit. -/
def Dev.failureTrigger (d : Dev) (port stamp : Nat) : Nat × Dev :=
  let group := ((d.latestFrame port).map frGroup).getD 0
  let id := d.get 0x3100_01 * 2 ^ 20 + d.tk.red.trigNo % 2 ^ 20
  if group = 0 then
    let d := d.modRed fun r => { r with trigNo := r.trigNo + 1 }
    (id, d.toLeaf port 0x04 (leBytes 4 id ++ zeros 4 ++ leBytes 8 stamp))
  else if (lookupKey group d.tk.rec_.holds).any (fun t => d.now < t + d.get 0x4301_04) then (0, d.flag 0x4302 5)
  else match d.slotOf group [2, 3] with
  | none => (0, d)
  | some n =>
    let d := d.fleetTrigger n stamp
    (id, { d with tk := { d.tk with rec_ := { d.tk.rec_ with holds := insertKey group d.now d.tk.rec_.holds } } })

end Sys2Proof.Machine
end

