-- ==== Sys2Proof/Machine/FieldTest.lean ====
section
/-! DEFINITION. Field test on a leaf (R572 to R585), and shadow pairing at a trunk (R586 to R589). -/

namespace Sys2Proof.Machine

open Sys2Proof

/-! ### Test packs (R575, R576) -/

/-- Field of `n` bytes at an offset of an entry of a pack. -/
def packAt (b : Bytes) (i off n : Nat) : Nat := natAt b (32 + 48 * i + off) n

/-- Does an entry keep R575? -/
def entryOk (b : Bytes) (i : Nat) : Bool :=
  named (packAt b i 2 1) engineTypes && named (packAt b i 3 1) defectClasses && 1 ≤ packAt b i 6 1 && packAt b i 6 1 ≤ 4 &&
  packAt b i 7 1 = 0 && 1000 ≤ packAt b i 8 4 && packAt b i 8 4 ≤ 19000 && packAt b i 12 4 = 0

/-- Is a pack one that R576 accepts? -/
def packOk (b : Bytes) : Bool :=
  let n := natAt b 6 2
  b.length = 32 + 48 * n && 1 ≤ n && n ≤ 1024 && natAt b 0 4 = 0x4B505446 && natAt b 4 1 = 1 && natAt b 5 1 = 0 &&
  natAt b 16 4 = crc32c (b.drop 32) && natAt b 20 12 = 0 && (List.range n).all (entryOk b) &&
  ((List.range n).map fun i => packAt b i 0 2).Nodup

/-- A write to `TestPack` (R576). -/
def Dev.packAns (d : Dev) (b : Bytes) : Ans :=
  if d.on 0x4401_01 || d.ftest.run.isSome then fail d .state
  else if !packOk b then fail d .range
  else
    let d := [(1, natAt b 8 4), (2, natAt b 12 4), (3, natAt b 6 2), (4, natAt b 16 4)].foldl
      (fun (d : Dev) (x : Nat × Nat) => d.set (key 0x4403 x.1) x.2) (d.setBlob 0x4402_00 b)
    ok { d with ftest := { d.ftest with taps := [] } }

/-- TEST_PACK_WRITE (R576). -/
def execTestPackWrite (l : LeafId) (e : Env) (data : Bytes) (s : State) : Host.Outcome State Fault Refusal :=
  s.onLeaf l fun d => d.serveDomain e 0x4402 0 data fun d b => d.packAns b

/-! ### Starting a test (R577, R584) -/

/-- The entries that target a tap's engine, in pack order. -/
def Dev.testsOf (d : Dev) (t : Nat) : List Nat :=
  let b := d.blob 0x4402_00
  (List.range (d.get 0x4403_03)).filter fun i => packAt b i 2 1 = (d.tapDesc t).engineType

/-- What the sequencer keeps of a tap. -/
def Dev.tapTest (d : Dev) (t : Nat) : TapTest := (lookupKey t d.ftest.taps).getD {}

/-- A tap's matching entry at its cursor. -/
def Dev.entryAtCursor (d : Dev) (t : Nat) : Nat :=
  let l := d.testsOf t
  (l.find? ((d.tapTest t).cursor ≤ ·)).getD (l.headD 0)

/-- Is field test in HOST mode (R584)? -/
def Dev.testHost (d : Dev) : Bool := d.get 0x4400_00 = 1

/-- The conditions of R577 on the leaf as a whole. -/
def Dev.testsMay (d : Dev) : Bool :=
  d.cfg.fieldTest && !d.isTrunk && d.on 0x4401_01 && !d.on 0x4401_04 && d.on 0x2406_04 && d.ftest.run.isNone &&
  d.ftest.lastEnd.all (· + d.get 0x4401_03 ≤ d.stamp)

/-- The tap that R577 chooses. -/
def Dev.dueTap (d : Dev) : Option Nat :=
  let l := (List.range d.cfg.taps.length).filter fun t =>
    d.ftest.offers.contains t && (d.tapTest t).nextDue ≤ d.stamp && !(d.testsOf t).isEmpty
  firstBest Nat.blt (fun t => (d.tapTest t).nextDue) l

/-- A test starts: ft_kernel, ft_seed and ft_take are driven (R574, R577). -/
def Dev.startTest (d : Dev) (t i v : Nat) (host : Bool) : Dev :=
  let b := d.blob 0x4402_00
  let temps := ((List.range d.cfg.tempRegions.length).map fun n => d.getI (key (0x24A0 + n) 1)).filter (· != -32768)
  let volts := (List.range d.cfg.voltRegions.length).map fun n => d.get (key (0x2410 + n) 1)
  let run : TestRun :=
    { tap := t, entry := i, variant := v, start := d.stamp, host := host, temp := temps.max?.getD (-32768)
      minV := volts.min?.getD 0xFFFFFFFF, uncertain := d.uncertain }
  let d := { d with ftest := { d.ftest with run := some run, asked := if host then none else d.ftest.asked } }
  let d := (((d.set 0x4401_06 1).inc 0x4404_01).pendRes 0x4405).emit (.pin .ftKernel t (packAt b i 4 2))
  (d.emit (.pin .ftSeed t (packAt b i (16 + 8 * v) 4))).emit (.pin .ftTake t 1)

/-- TEST_START (R577): in HW mode the due test; in HOST mode the test that `RunTest` has named (R584). -/
def execTestStart (l : LeafId) (s : State) : Host.Outcome State Fault Refusal :=
  s.onLeaf l fun d =>
    if !d.testsMay then d
    else if d.testHost then
      match d.ftest.asked with
      | some (t, i, v, _) => if d.ftest.offers.contains t then d.startTest t i v true else d
      | none => d
    else match d.dueTap with
    | some t =>
      let i := d.entryAtCursor t
      d.startTest t i ((d.tapTest t).rounds % max 1 (packAt (d.blob 0x4402_00) i 6 1)) false
    | none => d

/-! ### Outcomes (R578 to R582) -/

/-- The outcomes of a test. -/
inductive TestEnd where
  | pass | fail | timeout | reclaimed | preempted | abandoned
  deriving DecidableEq, Repr

/-- The code of an outcome (R578). -/
def TestEnd.code : TestEnd → Nat
  | .pass => 0 | .fail => 1 | .timeout => 2 | .reclaimed => 3 | .preempted => 4 | .abandoned => 5

/-- The statistic of an outcome. -/
def TestEnd.counter : TestEnd → Nat
  | .pass => 0x4404_02 | .fail => 0x4404_03 | .timeout => 0x4404_04 | .reclaimed => 0x4404_05 | .preempted => 0x4404_06
  | .abandoned => 0x4404_07

/-- Did the test run to a verdict: PASS, FAIL or TIMEOUT (R579)? -/
def TestEnd.verdict : TestEnd → Bool
  | .pass | .fail | .timeout => true
  | _ => false

/-- Is the outcome a failure (R580)? -/
def TestEnd.failure : TestEnd → Bool
  | .fail | .timeout => true
  | _ => false

/-- The 24-byte payload of R580. -/
def testPayload (b : Bytes) (x : TestRun) (o : TestEnd) (observed duration : Nat) : Bytes :=
  leBytes 1 x.tap ++ leBytes 1 o.code ++ leBytes 2 (packAt b x.entry 0 2) ++ leBytes 4 (packAt b x.entry (20 + 8 * x.variant) 4) ++
  leBytes 4 observed ++ leBytes 1 x.variant ++ leBytes 1 (packAt b x.entry 3 1) ++ zeros 2 ++
  leBytes 4 (packAt b x.entry (16 + 8 * x.variant) 4) ++ leBytes 4 duration

/-- A message joins the FIELD_TEST source, or is lost (R581, R582). -/
def Dev.testReport (d : Dev) (kind : Nat) (data : Bytes) : Dev :=
  if (d.queue 5).length ≥ 16 then (d.inc 0x4404_08).flag 0x4406 2
  else d.queueUp .fieldTest { cls := 0x08, bytes := leBytes 4 (4 + data.length) ++ leBytes 1 kind ++ zeros 3 ++ data }

/-- The VSF record of a failure (R590). -/
def Dev.testVsf (d : Dev) (b : Bytes) (x : TestRun) (o : TestEnd) (observed duration occ : Nat) : Vsf :=
  { kind := 1, cls := packAt b x.entry 3 1, flags := b2n x.uncertain + 2 * b2n (o = .timeout), time := x.start, leaf := d.address
    die := d.get 0x1000_07, tap := x.tap, ty := (d.tapDesc x.tap).engineType, test := packAt b x.entry 0 2
    exp := packAt b x.entry (20 + 8 * x.variant) 4, obs := observed, occ := occ, temp := x.temp, minV := x.minV
    detail := leBytes 1 x.variant ++ leBytes 1 o.code ++ zeros 2 ++ leBytes 4 (packAt b x.entry (16 + 8 * x.variant) 4) ++
      leBytes 4 duration }

/-- What a failure does, in the order of R580. -/
def Dev.testFailure (d : Dev) (b : Bytes) (x : TestRun) (o : TestEnd) (observed duration : Nat) : Dev :=
  let d := d.record .fieldTestFail x.start (testPayload b x o observed duration)
  let d := ((d.always 0x2D 1).inc o.counter).flag 0x4406 (if o = .timeout then 1 else 0)
  let (occ, l) := countOcc (x.tap, packAt b x.entry 0 2) d.ftest.occ
  let d := { d with ftest := { d.ftest with occ := l } }
  d.testReport 2 (d.testVsf b x o observed duration occ).bytes

/-- The tap's cursor, NextDue and rounds after a verdict (R579); a test of `RunTest` moves no cursor (R584). -/
def Dev.moveCursor (d : Dev) (x : TestRun) : Dev :=
  let t := d.tapTest x.tap
  let l := d.testsOf x.tap
  let due := d.stamp + d.get 0x4401_02
  let t := if x.host then { t with nextDue := due }
    else match l.find? (x.entry < ·) with
    | some i => { t with cursor := i, nextDue := due }
    | none => { cursor := l.headD 0, nextDue := due, rounds := (t.rounds + 1) % 2 ^ 32 }
  { d with ftest := { d.ftest with taps := insertKey x.tap t d.ftest.taps } }

/-- The test that runs ends (R578, R579). -/
def Dev.endTest (d : Dev) (o : TestEnd) (observed : Nat) : Dev :=
  match d.ftest.run with
  | none => d
  | some x =>
    let b := d.blob 0x4402_00
    let duration := d.stamp - x.start
    let d := (Dev.set { d with ftest := { d.ftest with run := none, lastEnd := some d.stamp } } 0x4401_06 0).emit (.pin .ftTake x.tap 0)
    let d := if o = .pass || o = .fail then d else d.emit (.pin .ftAbort x.tap 1)
    let d := if o.failure then d.testFailure b x o observed duration else d.inc o.counter
    let d := if o = .pass && d.on 0x4401_05 then d.testReport 1 (testPayload b x o observed duration) else d
    let d := if o.verdict then d.moveCursor x else d
    d.complete 0x4405
      [(4, x.tap), (5, packAt b x.entry 0 2), (6, x.variant), (7, o.code), (8, packAt b x.entry (20 + 8 * x.variant) 4),
       (9, observed), (0xA, x.start), (0xB, duration)]

/-- A running test's expected signature. -/
def Dev.expectedSig (d : Dev) : Option Nat :=
  d.ftest.run.map fun x => packAt (d.blob 0x4402_00) x.entry (20 + 8 * x.variant) 4

/-- FT_DONE (R578): PASS or FAIL. -/
def execFtDone (l : LeafId) (sig : BitVec 32) (s : State) : Host.Outcome State Fault Refusal :=
  s.onLeaf l fun d => d.endTest (if d.expectedSig = some sig.toNat then .pass else .fail) sig.toNat

/-- The deadline tick of a test (R577). -/
def Dev.testDeadline (d : Dev) (x : TestRun) : Nat := x.start + alignUp (packAt (d.blob 0x4402_00) x.entry 8 4) 8

/-- What ft_sig would have held of a test that gave none: the spec states 0 for TIMEOUT alone; else a free value (log 18). -/
def Dev.noSig (d : Dev) : Nat := (Config.unstated 0x4405_09 d.now).toNat % 2 ^ 32

/-- FT_RECLAIM (R578): ft_reclaim, or the tap drops ft_offer. -/
def execFtReclaim (l : LeafId) (s : State) : Host.Outcome State Fault Refusal :=
  s.onLeaf l fun d => d.endTest .reclaimed d.noSig

/-- TEST_PREEMPTED (R578): `TestAllowed` is 0. -/
def execTestPreempted (l : LeafId) (s : State) : Host.Outcome State Fault Refusal :=
  s.onLeaf l fun d => if d.on 0x2406_04 then d else d.endTest .preempted d.noSig

/-- TEST_TIMEOUT (R578): the deadline tick has come. -/
def execTestTimeout (l : LeafId) (s : State) : Host.Outcome State Fault Refusal :=
  s.onLeaf l fun d => if d.ftest.run.any fun x => d.testDeadline x ≤ d.stamp then d.endTest .timeout 0 else d

/-- A power-fail warning or a fatal fault ends a test (R578). -/
def Dev.abandonTest (d : Dev) : Dev := d.endTest .abandoned d.noSig

/-- FATAL (R216, R578). -/
def execFatal (u : UnitId) (code detail : Nat) (s : State) : Host.Outcome State Fault Refusal :=
  s.on u fun d => (d.fatalFault (code % 65536) (detail % 2 ^ 32)).abandonTest

/-! ### RunTest (R584, R585) -/

/-- A write to `RunTest`. -/
def Dev.runTestAns (d : Dev) (v : Nat) : Ans :=
  let i := v % 65536
  let w := field v 23 16
  let t := field v 31 24
  if !d.testHost then fail d .state
  else if i ≥ d.get 0x4403_03 || w ≥ packAt (d.blob 0x4402_00) i 6 1 || t ≥ d.cfg.taps.length || !(d.testsOf t).contains i then
    fail d .range
  else if d.ftest.asked.isSome || d.ftest.run.any (·.host) then fail d .busy
  else ok { d with ftest := { d.ftest with asked := some (t, i, w, d.now) } }

/-- RUN_TEST (R584). -/
def execRunTest (l : LeafId) (e : Env) (value : BitVec 32) (s : State) : Host.Outcome State Fault Refusal :=
  s.onLeaf l fun d => d.serveWrite e 0x4401 7 value.toNat fun d v _ => d.runTestAns v

/-- HOST_WAIT_TIMEOUT (R585): the test asked for has not started within `HostWait`. -/
def execHostWaitTimeout (l : LeafId) (s : State) : Host.Outcome State Fault Refusal :=
  s.onLeaf l fun d =>
    match d.ftest.asked with
    | some (t, i, v, since) =>
      if since + d.get 0x4401_08 ≤ d.now then
        let b := d.blob 0x4402_00
        let open_ (k : Nat) : Nat := (Config.unstated (0x4405_00 + k) d.now).toNat
        Dev.complete { d with ftest := { d.ftest with asked := none } } 0x4405
          [(4, t), (5, packAt b i 0 2), (6, v), (7, 6), (8, packAt b i (20 + 8 * v) 4), (9, d.noSig), (0xA, open_ 0xA),
           (0xB, open_ 0xB)]
      else d
    | none => d

/-! ### Shadow pairing (R586 to R589) -/

/-- An object of `ShadowPair` n. -/
def pairKey (n sub : Nat) : Nat := key (0x4420 + n) sub

/-- The Stem port of a leaf address at this trunk. -/
def Dev.portOf (d : Dev) (a : Nat) : Option Nat := if a / 256 = d.get 0x3100_01 then some (a % 256) else none

/-- Is a leaf a member of a group at this trunk? -/
def Dev.memberOf (d : Dev) (group port : Nat) : Bool :=
  (d.slotOf (group % 4096) [1, 2, 3]).any fun n => (d.slot n).members.any fun m => m.port = port && m.until_.isNone

/-- Is a leaf's trace source in use by another enabled pair, by a `WeightDigest` or by a policy with `WeightFrom` SERVER (R586)? -/
def Dev.sourceUsed (d : Dev) (n port src : Nat) : Bool :=
  let a := d.leafAddress port
  ((List.range 16).any fun k => k != n && d.on (pairKey k 1) &&
    ((d.get (pairKey k 2) = a && d.get (pairKey k 3) = src) || (d.get (pairKey k 4) = a && d.get (pairKey k 5) = src))) ||
  ((List.range 4).any fun k => d.on (key (0x4340 + k) 1) && d.get (key (0x4340 + k) 3) = src &&
    d.memberOf (d.get (key (0x4340 + k) 2)) port) ||
  ((List.range 16).any fun k => d.on (key (0x4320 + k) 1) && d.get (key (0x4320 + k) 0xF) = 1 &&
    d.get (key (0x4320 + k) 3) = src && d.memberOf (d.get (key (0x4320 + k) 2)) port)

/-- A write to a pair's `Enable` (R586, R587). -/
def Dev.pairAns (d : Dev) (n v : Nat) : Ans :=
  let d' := d.set (pairKey n 1) v
  if v = 0 then ok { d' with tk := { d'.tk with sig := { d'.tk.sig with pairs := d'.tk.sig.pairs.filter (·.1 != n) } } }
  else match d.portOf (d.get (pairKey n 2)), d.portOf (d.get (pairKey n 4)) with
  | some p, some q =>
    let s := d.get (pairKey n 3)
    let r := d.get (pairKey n 5)
    if p = q then fail d .range
    else if d.sourceUsed n p s || d.sourceUsed n q r then fail d .state
    else
      let set (d : Dev) (port src : Nat) : Dev :=
        ((d.writeLeaf port (0x2510 + src) 6 1 3).writeLeaf port (0x2510 + src) 8 2 (d.get (pairKey n 6))).writeLeaf
          port (0x2510 + src) 9 2 (d.get (pairKey n 7))
      ok ((set (set d' p s) q r).readFacts p s)
  | _, _ => fail d .range

/-- SHADOW_PAIR_ENABLE (R587). -/
def execShadowPairEnable (e : Env) (n : Nat) (s : State) : Host.Outcome State Fault Refusal :=
  s.onTrunk fun d => if n < 16 then d.serveWrite e (0x4420 + n) 1 1 fun d v _ => d.pairAns n v else d

/-- A pair of digests is compared (R588, R589). -/
def Dev.comparePair (d : Dev) (n : Nat) (sub ref : DigestMsg) : Dev :=
  let d := d.inc (pairKey n 9)
  if sub.digest = ref.digest && sub.bytes = ref.bytes then d
  else match d.portOf (d.get (pairKey n 2)) with
  | none => d
  | some port =>
    let d := (d.inc (pairKey n 0xA)).flag 0x4432 0
    let d := d.emitSignature 3 port (d.get (pairKey n 3)) sub.begin sub.tag ref.digest sub.digest
      (leBytes 4 (d.get (pairKey n 4)) ++ leBytes 4 sub.bytes ++ leBytes 4 ref.bytes)
    if d.on 0x4430_01 then (d.failureTrigger port sub.begin).2 else d

/-- Do two digests belong together (R588)? -/
def pairUp (skew : Nat) (a b : DigestMsg) : Bool := a.tag = b.tag && a.begin ≤ b.begin + skew && b.begin ≤ a.begin + skew

/-- SHADOW_DIGEST (R588): it is compared with the oldest unpaired digest of the other side that belongs to it, or waits. -/
def execShadowDigest (n : Nat) (subject : Bool) (m : DigestMsg) (s : State) : Host.Outcome State Fault Refusal :=
  s.onTrunk fun d =>
    if n ≥ 16 || !d.on (pairKey n 1) then d
    else
      let put (d : Dev) (l : List (Nat × ShadowSt)) : Dev := { d with tk := { d.tk with sig := { d.tk.sig with pairs := l } } }
      let l := d.tk.sig.pairs
      match l.find? fun x => x.1 = n && x.2.subject != subject && pairUp (d.get (pairKey n 8)) x.2.msg m with
      | some x =>
        let d := put d (l.erase x)
        if subject then d.comparePair n m x.2.msg else d.comparePair n x.2.msg m
      | none => put d (l ++ [(n, { subject := subject, msg := m, arrived := d.now })])

/-- PAIR_SKEW_TIMEOUT (R588): digests left unpaired for `PairSkew` are discarded and counted. -/
def execPairSkewTimeout (n : Nat) (s : State) : Host.Outcome State Fault Refusal :=
  s.onTrunk fun d =>
    let late (x : Nat × ShadowSt) : Bool := x.1 = n && x.2.arrived + d.get (pairKey n 8) ≤ d.now
    let gone := (d.tk.sig.pairs.filter late).length
    if n ≥ 16 || gone = 0 then d
    else
      let sig := { d.tk.sig with pairs := d.tk.sig.pairs.filter fun x => !late x }
      Dev.add { d with tk := { d.tk with sig := sig } } (pairKey n 0xB) gone

end Sys2Proof.Machine
end

