-- ==== Sys2Proof/Machine/Crypto.lean ====
section
/-! DEFINITION. The two published algorithms by which an image is checked (R597): SHA-384, and the verification of ECDSA
signatures on curve P-384 (FIPS 186-5). Octet strings are big-endian here (R596). -/

namespace Sys2Proof.Machine

open Sys2Proof

/-- The number that an octet string spells, most significant octet first. -/
def beNat (bs : Bytes) : Nat := bs.foldl (fun n b => 256 * n + b.toNat) 0

/-! ### SHA-384 -/

/-- A 64-bit word rotated right. -/
def rotr64 (x n : Nat) : Nat := x / 2 ^ n + x % 2 ^ n * 2 ^ (64 - n)

/-- Round constants 0 to 39 of SHA-384. -/
def sha384K0 : List Nat :=
  [0x428A2F98D728AE22, 0x7137449123EF65CD, 0xB5C0FBCFEC4D3B2F, 0xE9B5DBA58189DBBC, 0x3956C25BF348B538,
   0x59F111F1B605D019, 0x923F82A4AF194F9B, 0xAB1C5ED5DA6D8118, 0xD807AA98A3030242, 0x12835B0145706FBE,
   0x243185BE4EE4B28C, 0x550C7DC3D5FFB4E2, 0x72BE5D74F27B896F, 0x80DEB1FE3B1696B1, 0x9BDC06A725C71235,
   0xC19BF174CF692694, 0xE49B69C19EF14AD2, 0xEFBE4786384F25E3, 0x0FC19DC68B8CD5B5, 0x240CA1CC77AC9C65,
   0x2DE92C6F592B0275, 0x4A7484AA6EA6E483, 0x5CB0A9DCBD41FBD4, 0x76F988DA831153B5, 0x983E5152EE66DFAB,
   0xA831C66D2DB43210, 0xB00327C898FB213F, 0xBF597FC7BEEF0EE4, 0xC6E00BF33DA88FC2, 0xD5A79147930AA725,
   0x06CA6351E003826F, 0x142929670A0E6E70, 0x27B70A8546D22FFC, 0x2E1B21385C26C926, 0x4D2C6DFC5AC42AED,
   0x53380D139D95B3DF, 0x650A73548BAF63DE, 0x766A0ABB3C77B2A8, 0x81C2C92E47EDAEE6, 0x92722C851482353B]

/-- Round constants 40 to 79 of SHA-384. -/
def sha384K1 : List Nat :=
  [0xA2BFE8A14CF10364, 0xA81A664BBC423001, 0xC24B8B70D0F89791, 0xC76C51A30654BE30, 0xD192E819D6EF5218,
   0xD69906245565A910, 0xF40E35855771202A, 0x106AA07032BBD1B8, 0x19A4C116B8D2D0C8, 0x1E376C085141AB53,
   0x2748774CDF8EEB99, 0x34B0BCB5E19B48A8, 0x391C0CB3C5C95A63, 0x4ED8AA4AE3418ACB, 0x5B9CCA4F7763E373,
   0x682E6FF3D6B2B8A3, 0x748F82EE5DEFB2FC, 0x78A5636F43172F60, 0x84C87814A1F0AB72, 0x8CC702081A6439EC,
   0x90BEFFFA23631E28, 0xA4506CEBDE82BDE9, 0xBEF9A3F7B2C67915, 0xC67178F2E372532B, 0xCA273ECEEA26619C,
   0xD186B8C721C0C207, 0xEADA7DD6CDE0EB1E, 0xF57D4F7FEE6ED178, 0x06F067AA72176FBA, 0x0A637DC5A2C898A6,
   0x113F9804BEF90DAE, 0x1B710B35131C471B, 0x28DB77F523047D84, 0x32CAAB7B40C72493, 0x3C9EBE0A15C9BEBC,
   0x431D67C49C100D4C, 0x4CC5D4BECB3E42B6, 0x597F299CFC657E2A, 0x5FCB6FAB3AD6FAEC, 0x6C44198C4A475817]

/-- The initial hash value of SHA-384. -/
def sha384Init : List Nat :=
  [0xCBBB9D5DC1059ED8, 0x629A292A367CD507, 0x9159015A3070DD17, 0x152FECD8F70E5939, 0x67332667FFC00B31,
   0x8EB44A8768581511, 0xDB0C2E0D64F98FA7, 0x47B5481DBEFA4FA4]


/-- The word of the message schedule that follows 16 others, newest first. -/
def shaNext (w : List Nat) : Nat :=
  let a := w.getD 1 0
  let b := w.getD 14 0
  let s1 := (rotr64 a 19 ^^^ rotr64 a 61) ^^^ a / 64
  let s0 := (rotr64 b 1 ^^^ rotr64 b 8) ^^^ b / 128
  (s1 + w.getD 6 0 + s0 + w.getD 15 0) % 2 ^ 64

/-- A message schedule of `16 + n` words, newest first. -/
def shaWords : (n : Nat) → List Nat → List Nat
  | 0, w => w
  | n + 1, w => shaWords n (shaNext w :: w)

/-- One round of the compression function on its eight working variables. -/
def shaRound (h : List Nat) (kw : Nat × Nat) : List Nat :=
  match h with
  | [a, b, c, d, e, f, g, i] =>
    let s1 := (rotr64 e 14 ^^^ rotr64 e 18) ^^^ rotr64 e 41
    let ch := (e &&& f) ^^^ ((2 ^ 64 - 1 - e) &&& g)
    let t1 := i + s1 + ch + kw.1 + kw.2
    let s0 := (rotr64 a 28 ^^^ rotr64 a 34) ^^^ rotr64 a 39
    let maj := ((a &&& b) ^^^ (a &&& c)) ^^^ (b &&& c)
    [(t1 + s0 + maj) % 2 ^ 64, a, b, c, (d + t1) % 2 ^ 64, e, f, g]
  | l => l

/-- The hash value after one block of 128 octets. -/
def shaBlock (h : List Nat) (block : Bytes) : List Nat :=
  let w := (List.range 16).map fun i => beNat (bytesAt block (8 * i) 8)
  let r := ((sha384K0 ++ sha384K1).zip (shaWords 64 w.reverse).reverse).foldl shaRound h
  List.zipWith (fun a b => (a + b) % 2 ^ 64) h r

/-- The hash value after `n` blocks of a message. -/
def shaBlocks : (n : Nat) → Bytes → List Nat → List Nat
  | 0, _, h => h
  | n + 1, m, h => shaBlocks n (m.drop 128) (shaBlock h (m.take 128))

/-- SHA-384 of an octet string: 48 octets. -/
def sha384 (m : Bytes) : Bytes :=
  let pad := (239 - m.length % 128) % 128
  let p := m ++ [0x80#8] ++ zeros pad ++ beBytes 16 (8 * m.length)
  ((shaBlocks (p.length / 128) p sha384Init).take 6).flatMap (beBytes 8)

/-! ### P-384 -/

/-- The prime of the field of P-384. -/
def p384P : Nat := 2 ^ 384 - 2 ^ 128 - 2 ^ 96 + 2 ^ 32 - 1

/-- The order of the group of P-384. -/
def p384N : Nat :=
  0xFFFFFFFFFFFFFFFFFFFFFFFFFFFFFFFFFFFFFFFFFFFFFFFFC7634D81F4372DDF581A0DB248B0A77AECEC196ACCC52973

/-- The coefficient b of the curve y² = x³ − 3x + b. -/
def p384B : Nat :=
  0xB3312FA7E23EE7E4988E056BE3F82D19181D9C6EFE8141120314088F5013875AC656398D8A2ED19D2A85C8EDD3EC2AEF

/-- The base point. -/
def p384G : Nat × Nat :=
  (0xAA87CA22BE8B05378EB1C71EF320AD746E1D3B628BA79B9859F741E082542A385502F25DBF55296C3A545E3872760AB7,
   0x3617DE4A96262C6F5D9E98BF9292DC29F8F41DBD289A147CE9DA3113B5F0B8C00A60B1CE1D7E819D7A431D7C90EA0E5F)

/-- A power modulo `m`, with the exponent's bits from bit `k` − 1 down. -/
def powMod (m b e : Nat) : (k : Nat) → Nat
  | 0 => 1 % m
  | k + 1 =>
    let h := powMod m b (e / 2) k
    if e % 2 = 1 then h * h % m * b % m else h * h % m

/-- The inverse of `a` modulo a prime below 2^384. -/
def invMod (m a : Nat) : Nat := powMod m (a % m) (m - 2) 384

/-- A point in Jacobian coordinates: (X, Y, Z) stands for (X / Z², Y / Z³); Z = 0 is the point at infinity. -/
abbrev JPoint := Nat × Nat × Nat

/-- The double of a point. -/
def jDouble (a : JPoint) : JPoint :=
  let (x, y, z) := a
  let p := p384P
  let y2 := y * y % p
  let s := 4 * x * y2 % p
  let z2 := z * z % p
  let m := 3 * (x + p - z2) * (x + z2) % p
  let x' := (m * m + 2 * (p - s)) % p
  (x', (m * (s + p - x') + 8 * (p - y2 * y2 % p)) % p, 2 * y * z % p)

/-- The sum of two points. -/
def jAdd (a b : JPoint) : JPoint :=
  let (x1, y1, z1) := a
  let (x2, y2, z2) := b
  let p := p384P
  if z1 = 0 then b
  else if z2 = 0 then a
  else
    let z1s := z1 * z1 % p
    let z2s := z2 * z2 % p
    let u1 := x1 * z2s % p
    let u2 := x2 * z1s % p
    let s1 := y1 * z2 * z2s % p
    let s2 := y2 * z1 * z1s % p
    if u1 = u2 then (if s1 = s2 then jDouble a else (1, 1, 0))
    else
      let h := (u2 + p - u1) % p
      let r := (s2 + p - s1) % p
      let h2 := h * h % p
      let h3 := h * h2 % p
      let v := u1 * h2 % p
      let x3 := (r * r + (p - h3) + 2 * (p - v)) % p
      (x3, (r * (v + p - x3) + s1 * (p - h3)) % p, h * z1 * z2 % p)

/-- A multiple of a point, over the `k` low bits of the factor. -/
def jMul (a : JPoint) (n : Nat) : (k : Nat) → JPoint
  | 0 => (1, 1, 0)
  | k + 1 =>
    let h := jDouble (jMul a (n / 2) k)
    if n % 2 = 1 then jAdd h a else h

/-- Is a pair of coordinates a point of the curve? -/
def onCurve (x y : Nat) : Bool := x < p384P && y < p384P && y * y % p384P = (x * x * x + p384P * 3 - 3 * x + p384B) % p384P

/-- Is `sig` (r, then s) an ECDSA signature over a message with SHA-384 and P-384 under the public key `pub` (X, then Y)
(R597)? -/
def ecdsaVerify (pub msg sig : Bytes) : Bool :=
  let x := beNat (bytesAt pub 0 48)
  let y := beNat (bytesAt pub 48 48)
  let r := beNat (bytesAt sig 0 48)
  let s := beNat (bytesAt sig 48 48)
  onCurve x y && 1 ≤ r && r < p384N && 1 ≤ s && s < p384N &&
  (let e := beNat (sha384 msg)
   let w := invMod p384N s
   let q := jAdd (jMul (p384G.1, p384G.2, 1) (e * w % p384N) 384) (jMul (x, y, 1) (r * w % p384N) 384)
   q.2.2 != 0 && (q.1 * invMod p384P (q.2.2 * q.2.2 % p384P) % p384P) % p384N = r)

end Sys2Proof.Machine
end

