-- ==== Sys2Proof/Machine/Governor.lean ====
section
/-! DEFINITION. The energy governor (R483 to R490) and the PMBus (R641). -/

namespace Sys2Proof.Machine

open Sys2Proof

/-- The governor changed. -/
def Dev.modGov (d : Dev) (f : GovSt → GovSt) : Dev := d.modAna fun a => { a with gov := f a.gov }

/-- Objects of governor class `c`. -/
def govKey (c sub : Nat) : Nat := key (0x4010 + c) sub

/-- The highest temperature reading of the self-leaf (R154, R488), none where no reading is valid. -/
def Dev.hottest (d : Dev) : Option Int :=
  (((List.range d.cfg.tempRegions.length).map fun n => d.getI (key (0x24A0 + n) 1)).filter (· != -32768)).max?

/-- Does a rail that `PmbusRails` names report a warning (R488)? -/
def Dev.railWarning (d : Dev) : Bool := d.tk.ana.gov.warnRails.any (d.get 0x4010_07).testBit

/-- ThermalPower at a window opening (R488). -/
def Dev.thermalPower (d : Dev) (tmax : Option Int) : Nat :=
  let p := d.get 0x4010_08
  let step := d.get 0x4010_03
  let limit := d.getI 0x4010_02
  let p := match tmax with
    | some t => if t ≥ limit then min p (max (d.get 0x4010_04) (p - step))
                else if t < limit - 32 then min (d.get 0x4010_01) (p + step) else p
    | none => p
  if d.railWarning then min p (d.get 0x4010_05) else p

/-- The settings that software has written for the next window take effect (R490). -/
def Dev.applyGov (d : Dev) : Dev :=
  let w := d.tk.ana.gov.waiting
  (w.foldl (fun (d : Dev) (x : Nat × Nat) => d.set x.1 x.2) d).modGov fun g => { g with waiting := [] }

/-- `floor(n * a / b)`; the spec states no value where `b` is 0 (log 18). -/
def Dev.ratio (d : Dev) (k n a b : Nat) : Nat := if b = 0 then (Config.unstated k d.now).toNat else n * a / b

/-- A class's demand (R485). -/
def demandOf (budget used : Nat) (exhausted : Bool) : Nat :=
  if exhausted then min (2 * used) budget else used + used / 8 + 1000

/-- The allowances in priority order (R485): classes 1 and 2 are never cut. What remains comes back too. -/
def allowancesOf : (c : Nat) → (remaining : Int) → List Nat → List Nat × Int
  | _, rem, [] => ([], rem)
  | c, rem, dem :: l =>
    let a := if c ≤ 2 then dem else min dem (max rem 0).toNat
    let r := allowancesOf (c + 1) (rem - a) l
    (a :: r.1, r.2)

/-- The memory-port Quotas at a window opening in HW mode (R487). -/
def Dev.governQuotas (d : Dev) : Dev :=
  [2, 3, 4, 5].foldl (fun (d : Dev) s =>
    let k := key (0x2909 + s) 1
    d.set k (d.ratio k (memQuota.getD s 0) (d.get (govKey (s + 1) 1)) (d.get (govKey (s + 1) 2)))) d

/-- What the scales follow (R485): RecomputeScale and ThicketBatch. -/
def Dev.governScales (d : Dev) : Dev :=
  let d := d.set 0x4010_0C (min 65536 (d.ratio 0x4010_0C 65536 (d.get (govKey 5 1)) (d.get (govKey 5 2))))
  d.set 0x4010_0D (max 1 (d.ratio 0x4010_0D (d.get 0x4010_0E) (d.get (govKey 4 1)) (d.get (govKey 4 2))))

/-- The allowances of classes 3 to 6 are 0 in the window that opens (R489); those that software has set hold again after
it. -/
def Dev.overLimit (d : Dev) : Dev :=
  let kept := if d.get 0x4000_00 = 1 then [3, 4, 5, 6].map fun c => (govKey c 1, d.get (govKey c 1)) else []
  let d := [3, 4, 5, 6].foldl (fun (d : Dev) c => d.set (govKey c 1) 0) d
  (d.modGov fun g => { g with waiting := kept }).flag 0x4002 1

/-- Threads of classes that are no longer held are READY again (R457, R486). -/
def Dev.ungate (d : Dev) : Dev :=
  d.modAna fun a =>
    { a with threads := a.threads.map fun x =>
        if x.2.state = .gated && !d.classHeld x.2.kclass then (x.1, { x.2 with state := .ready }) else x }

/-- Threads of held classes are GATED from the tick of a power-fail warning on (R644). -/
def Dev.gateThreads (d : Dev) : Dev :=
  d.modAna fun a =>
    { a with threads := a.threads.map fun x =>
        if x.2.state = .ready && d.classHeld x.2.kclass then (x.1, { x.2 with state := .gated }) else x }

/-- The window that has closed is published (R484): Used, Exhausted, Measured, Base and Demand. -/
def Dev.publishEnergy (d : Dev) (m : EnergyMeas) (budget : Nat) : Dev :=
  let used (c : Nat) : Nat := m.used.getD (c - 1) 0
  let gone (c : Nat) : Bool :=
    d.tk.ana.gov.exhausted.contains c || (0 < used c && 0 < d.get (govKey c 1) && d.get (govKey c 1) ≤ used c)
  let d := [1, 2, 3, 4, 5, 6].foldl (fun (d : Dev) c =>
    ((d.set (govKey c 3) (used c)).setB (govKey c 5) (gone c)).set (govKey c 2) (demandOf budget (used c) (gone c))) d
  let sum := (([1, 2, 3, 4, 5, 6].map used)).sum
  (d.set 0x4010_0A m.measured).set 0x4010_0B (m.measured - sum)

/-- An energy window opens (R483 to R490), once at a tick that is a multiple of 12,500. -/
def Dev.energyWindow (d : Dev) (tmax : Option Int) (m : EnergyMeas) : Dev :=
  if d.time.tick % 12500 != 0 || d.tk.ana.gov.lastWin = some d.time.tick || d.time.dead || d.tk.tripped then d
  else
    let d := d.set 0x4010_08 (d.thermalPower tmax)
    let budget := d.get 0x4010_08 * 100
    let d := d.set 0x4010_09 budget
    let d := d.publishEnergy m budget
    let host := d.get 0x4000_00 = 1
    let d := if host then d.applyGov else
      let dem := [1, 2, 3, 4, 5, 6].map fun c => d.get (govKey c 2)
      let (as, rem) := allowancesOf 1 ((budget : Int) - (d.get 0x4010_0B : Int)) dem
      let d := as.zipIdx.foldl (fun (d : Dev) (x : Nat × Nat) => d.set (govKey (x.2 + 1) 1) x.1) d
      (d.modGov fun g => { g with waiting := [] }).flagIf (rem < 0) 0x4002 0
    let d := if m.measured > 180000 then d.overLimit else d
    let d := if host then d else d.governScales.governQuotas
    let d := [1, 2, 3, 4, 5, 6].foldl (fun (d : Dev) c => d.set (govKey c 4) (d.get (govKey c 1))) d
    (d.modGov fun g => { g with lastWin := some d.time.tick, exhausted := [] }).ungate

/-- ENERGY_WINDOW (R485). -/
def execEnergyWindow (m : EnergyMeas) (s : State) : Host.Outcome State Fault Refusal :=
  s.onTrunk (·.energyWindow s.self.hottest m)

/-- ACCOUNT_EXHAUSTED (R484, R486): the class spends and its account reaches 0 or below; threads of a held class are
GATED at their next instruction. -/
def execAccountExhausted (c spent : Nat) (s : State) : Host.Outcome State Fault Refusal :=
  s.onTrunk fun d =>
    let a := d.getI (govKey c 4)
    if c < 1 || 6 < c || a ≤ 0 || 0 < a - spent then d
    else (d.setI (govKey c 4) (satI32 (a - spent))).modGov fun g => { g with exhausted := c :: g.exhausted.erase c }

/-! ### PMBus -/

/-- The rails that the trunk reads (R641): named in `PmbusRails`, with an address. -/
def Dev.readsRail (d : Dev) (n : Nat) : Bool := n < 32 && (d.get 0x4010_07).testBit n && d.on (key 0x4018 (n + 1))

/-- PMBUS_READ (R484): READ_POUT of the named rails, once per `PmbusPeriod`. -/
def execPmbusRead (rails : List (Nat × Nat)) (s : State) : Host.Outcome State Fault Refusal :=
  s.onTrunk fun d =>
    if d.now < d.tk.ana.gov.lastRead + d.get 0x4010_06 then d
    else d.modGov fun g =>
      { g with lastRead := d.now
               readPout := (rails.filter (d.readsRail ·.1)).foldl (fun l x => insertKey x.1 x.2 l) g.readPout }

/-- PMB_ALERT (R488, R641): STATUS_WORD of every named rail is read. -/
def execPmbAlert (rails : List (Nat × BitVec 16)) (s : State) : Host.Outcome State Fault Refusal :=
  s.onTrunk fun d =>
    (rails.filter (d.readsRail ·.1)).foldl (fun (d : Dev) x =>
      d.modGov fun g =>
        let rest := g.warnRails.erase x.1
        { g with warnRails := if Config.pmbusWarning x.2 then x.1 :: rest else rest }) d

end Sys2Proof.Machine
end

