-- ==== Sys2Proof/Machine/Conform.lean ====
section
/-! DEFINITION. The arithmetic of a conformance profile (R538 to R549): the elements of a row, the dot product of one element
of D, and the comparison of two results (R563, R564). A profile is the list of the values of its subindices from 0. -/

namespace Sys2Proof.Machine

open Sys2Proof

/-! ### Formats (R538 to R541) -/

/-- The bits of an element of a format. -/
def fmtBits : Nat → Nat
  | 1 | 2 => 4
  | 3 | 4 => 6
  | 5 | 6 | 7 => 8
  | 8 => 16
  | _ => 32

/-- A floating-point format by its code. -/
def fmtOf : Nat → FFmt
  | 2 => e2m1
  | 3 => e2m3
  | 4 => e3m2
  | 5 => e4m3
  | 6 => e5m2
  | 8 => bf16
  | _ => f32

/-- Is a format an input format of integers (INT4, INT8)? -/
def intFmt (c : Nat) : Bool := c = 1 || c = 7

/-- Is a format a floating format of at most 8 bits? -/
def smallFmt (c : Nat) : Bool := 2 ≤ c && c ≤ 6

/-- Is a format an input format? -/
def inFmt (c : Nat) : Bool := 1 ≤ c && c ≤ 9

/-- The canonical NaN of an output format (R542). -/
def outNan : Nat → Nat
  | 5 => 0x7F
  | 6 => 0x7E
  | 8 => 0x7FC0
  | _ => 0x7FC00000

/-- The bytes of a row of `n` elements of `bits` bits (R540). -/
def rowBytes (n bits : Nat) : Nat := (n * bits + 7) / 8

/-- Element `i` of row `r` of packed rows (R540). -/
def elemAt (bs : Bytes) (width bits r i : Nat) : Nat :=
  natAt bs (width * r + i * bits / 8) 5 / 2 ^ (i * bits % 8) % 2 ^ bits

/-! ### Profiles (R549) -/

/-- A value of a profile. -/
def pv (prof : List Nat) (k : Nat) : Nat := prof.getD k 0

/-- Is a profile consistent (R549)? -/
def consistent (p : List Nat) : Bool :=
  let a := pv p 1
  let b := pv p 2
  let ints := intFmt a && intFmt b
  let floats := inFmt a && inFmt b && !intFmt a && !intFmt b
  let small := smallFmt a && smallFmt b
  let chunk := pv p 6
  (ints || floats) && (pv p 3 != 1 || (small && chunk = 32)) && (pv p 7 != 0 || small) && ((pv p 7 = 2) = ints) &&
  (if ints then pv p 0x10 = 0x10 || pv p 0x10 = 9 else [5, 6, 8, 9].contains (pv p 0x10)) &&
  (if ints then pv p 0xF = 0x10 else pv p 0xF = 8 || pv p 0xF = 9) &&
  1 ≤ chunk && chunk ≤ 4096 && 2 ^ Nat.log2 chunk = chunk

/-- A rounding by its code (R547). -/
def rndOf : Nat → Rnd
  | 0 => .rne
  | 1 => .rtz
  | 2 => .rup
  | _ => .rdn

/-! ### The dot product (R543 to R548) -/

/-- An input element (R543). -/
def inElem (f : FFmt) (flush : Bool) (w : Nat) : FVal :=
  if flush && f.subnormal w then .fin (f.decode w).neg 0 f.emin else f.decode w

/-- Is a value infinite? -/
def FVal.isInf : FVal → Bool
  | .inf _ => true
  | _ => false

/-- A product, none where `ZeroSkip` leaves it out (R543). -/
def productOf (omit_ : Bool) (a b : FVal) : Option FVal :=
  if omit_ && (b.isZero || (b.isInf && a.isZero)) then none else some (a.mul b)

/-- Values summed in order (R544): `rd` rounds. -/
def sumSeq (rd : FVal → FVal) (down : Bool) : List FVal → Option FVal
  | [] => none
  | x :: xs => some (xs.foldl (fun s p => rd (s.add down p)) (rd x))

/-- Values summed pairwise (R544). -/
def sumPair (rd : FVal → FVal) (down : Bool) : (fuel : Nat) → List FVal → Option FVal
  | 0, _ => none
  | _ + 1, [] => none
  | _ + 1, [x] => some (rd x)
  | fuel + 1, xs =>
    let h := 2 ^ Nat.log2 (xs.length - 1)
    match sumPair rd down fuel (xs.take h), sumPair rd down fuel (xs.drop h) with
    | some a, some b => some (rd (a.add down b))
    | a, b => a.orElse fun _ => b

/-- Values summed in FP32 in an order with a rounding (R544, R546). -/
def sumF32 (pairwise flush : Bool) (r : Rnd) (xs : List FVal) : Option FVal :=
  let rd (x : FVal) : FVal := f32.flushed flush (f32.fit r x)
  if pairwise then sumPair rd (r = .rdn) (xs.length + 1) xs else sumSeq rd (r = .rdn) xs

/-- The exact sum of the products of a chunk (R544). -/
def sumExact : List FVal → Option FVal
  | [] => none
  | x :: xs => some (xs.foldl (fun s p => s.add false p) x)

/-- A value rounded to FP32 with an overflow to ±Inf (R545). -/
def fitInf (r : Rnd) (x : FVal) : FVal :=
  let y := f32.round r x
  if f32.overflows y then .inf y.neg else y

/-- The value of a chunk of products (R544, R545); `scale` is the pair of its scale bytes under MX32. -/
def chunkValue (p : List Nat) (scale : Option (Nat × Nat)) (ps : List FVal) : Option FVal :=
  let r := rndOf (pv p 9)
  let flush := pv p 0xC = 1
  let raw := if pv p 7 = 0 then sumExact ps else sumF32 (pv p 8 = 1) flush r ps
  raw.map fun x => match scale with
    | none => if pv p 7 = 0 then f32.flushed flush (f32.fit r x) else x
    | some (ea, eb) =>
      if ea = 0xFF || eb = 0xFF then .nan
      else f32.flushed flush (fitInf r (x.scale ((ea : Int) - 127 + ((eb : Int) - 127))))

/-- A list cut into pieces of `n`. -/
def chunksOf' {α : Type} (n : Nat) : (fuel : Nat) → List α → List (List α)
  | 0, _ => []
  | fuel + 1, xs => if xs.isEmpty then [] else xs.take n :: chunksOf' n fuel (xs.drop n)

/-- An element of D, a floating one, from the outer sum (R547). -/
def outElem (p : List Nat) (x : FVal) : Nat :=
  let c := pv p 0x10
  let f := fmtOf c
  let r := rndOf (pv p 0x11)
  let top (s : Bool) : Nat := f.encode 0 (.fin s f.largest.1 f.largest.2)
  let inf (s : Bool) : Nat := if c = 5 then outNan 5 else f.encode 0 (.inf s)
  match x with
  | .nan => outNan c
  | .inf s => if pv p 0x13 = 0 then top s else inf s
  | x =>
    let y := f.round r x
    if f.overflows y then (if pv p 0x13 = 0 || r = .rtz || r = .rdn then top y.neg else inf y.neg)
    else f.encode 0 (f.flushed (pv p 0x12 = 1) y)

/-- The dot product of floating inputs (R543 to R547): the raw elements of a row of A and a column of B, the scale pairs of
their blocks under MX32, and C's element. -/
def dotFloat (p : List Nat) (as bs : List Nat) (scales : List (Nat × Nat)) (c : Nat) : Nat :=
  let flushIn := pv p 4 = 1
  let elem (k : Nat) (w : Nat) : FVal := inElem (fmtOf (pv p k)) flushIn w
  let prods := List.zipWith (fun a b => productOf (pv p 5 = 1) (elem 1 a) (elem 2 b)) as bs
  let chunks := (chunksOf' (max 1 (pv p 6)) prods.length prods).map (·.filterMap id)
  let vals := (chunks.zipIdx.map fun (ps, j) =>
    chunkValue p (if pv p 3 = 1 then some (scales.getD j (0, 0)) else none) ps).filterMap id
  let cv := (fmtOf (pv p 0xF)).decode c
  let r := rndOf (pv p 0xB)
  let flush := pv p 0xC = 1
  let sum := (sumF32 (pv p 0xA = 1) flush r (if pv p 0xE = 1 then cv :: vals else vals)).getD (.fin false 0 f32.emin)
  outElem p (if pv p 0xE = 2 then f32.flushed flush (f32.addR r sum cv) else sum)

/-- An addition of R548. -/
def addInt (sat : Bool) (a b : Int) : Int := if sat then satI32 (a + b) else toSigned 32 (ofSigned 32 (a + b))

/-- The dot product of integer inputs (R548). -/
def dotInt (p : List Nat) (as bs : List Nat) (c : Nat) : Nat :=
  let sat := pv p 0xD = 1
  let prods := List.zipWith (fun a b => toSigned (fmtBits (pv p 1)) a * toSigned (fmtBits (pv p 2)) b) as bs
  let cv := toSigned 32 c
  let terms := (if pv p 0xE = 1 then [cv] else []) ++ prods ++ (if pv p 0xE = 2 then [cv] else [])
  let sum := terms.foldl (addInt sat) 0
  if pv p 0x10 = 0x10 then ofSigned 32 sum
  else f32.encode 0 (f32.fit (rndOf (pv p 0x11)) (FVal.ofInt sum))

/-- The operands of a recompute: packed rows of A, A scales, B (by column), B scales and C. -/
structure Operands where
  m  : Nat
  n  : Nat
  k  : Nat
  a  : Bytes
  sa : Bytes
  b  : Bytes
  sb : Bytes
  c  : Bytes

/-- Element D[m][n] (R543 to R548). -/
def Operands.elem (o : Operands) (p : List Nat) (i j : Nat) : Nat :=
  let ba := fmtBits (pv p 1)
  let bb := fmtBits (pv p 2)
  let bc := fmtBits (pv p 0xF)
  let as := (List.range o.k).map (elemAt o.a (rowBytes o.k ba) ba i)
  let bs := (List.range o.k).map (elemAt o.b (rowBytes o.k bb) bb j)
  let c := if pv p 0xE = 0 then 0 else elemAt o.c (rowBytes o.n bc) bc i j
  if pv p 7 = 2 then dotInt p as bs c
  else
    let w := o.k / 32
    dotFloat p as bs ((List.range w).map fun x => (natAt o.sa (w * i + x) 1, natAt o.sb (w * j + x) 1)) c

/-- D in row-major order. -/
def Operands.result (o : Operands) (p : List Nat) : List Nat :=
  (List.range (o.m * o.n)).map fun x => o.elem p (x / max 1 o.n) (x % max 1 o.n)

/-! ### Comparison (R563, R564) -/

/-- The key of R564. -/
def ulpKey (w x : Nat) : Int :=
  let mag : Int := (x % 2 ^ (w - 1) : Nat)
  if x.testBit (w - 1) then -mag else mag

/-- The distance of two elements (R564): of INT32 elements their difference. -/
def ulpDistance (c host trunk : Nat) : Nat :=
  if c = 0x10 then (toSigned 32 host - toSigned 32 trunk).natAbs
  else (ulpKey (fmtBits c) host - ulpKey (fmtBits c) trunk).natAbs

/-- An element's value; an integer's for INT32. -/
def outVal (c w : Nat) : FVal := if c = 0x10 then FVal.ofInt (toSigned 32 w) else (fmtOf c).decode w

/-- Is a value a NaN? -/
def FVal.isNan : FVal → Bool
  | .nan => true
  | _ => false

/-- |a − b| ≤ t for finite values. -/
def withinAbs (a b t : FVal) : Bool :=
  match a.add false (b.mul (.fin true 1 0)) with
  | .fin _ m e => !(t.lt (.fin false m e))
  | _ => false

/-- Do two elements match (R563, R564)? -/
def elemMatch (p : List Nat) (host trunk : Nat) : Bool :=
  let c := pv p 0x10
  let a := outVal c host
  let b := outVal c trunk
  if host = trunk then true
  else if a.isNan && b.isNan then pv p 0x15 = 0
  else if pv p 0x14 = 0 then false
  else if c = 0x10 then ulpDistance c host trunk ≤ pv p 0x16
  else if a.isNan || b.isNan || a.isInf || b.isInf then false
  else ulpDistance c host trunk ≤ pv p 0x16 || withinAbs a b (f32.decode (pv p 0x17))

/-- What a mismatching pair counts as in MaxUlps (R569). -/
def ulpsOf (c host trunk : Nat) : Nat :=
  let bad (w : Nat) : Bool := (outVal c w).isNan || (outVal c w).isInf
  if bad host || bad trunk then 0xFFFFFFFF else satNat 32 (ulpDistance c host trunk)

/-- The positions and elements (host, trunk) that fail to match, in row-major order. -/
def mismatches (p : List Nat) (host trunk : List Nat) : List (Nat × Nat × Nat) :=
  ((List.zip host trunk).zipIdx.filter fun ((h, t), _) => !elemMatch p h t).map fun ((h, t), i) => (i, h, t)

end Sys2Proof.Machine
end

