-- ==== Sys2Proof/Machine/Recompute.lean ====
section
/-! DEFINITION. Sampled recompute (chapter 16): policies and arms, the assembly of captures, weight tiles, the comparison, the
verdicts, weight digests across dies and the HOST export. -/

namespace Sys2Proof.Machine

open Sys2Proof

/-! ### State -/

/-- An object of policy `n`. -/
def polKey (n sub : Nat) : Nat := key (0x4320 + n) sub

/-- Is recompute in HOST mode (R570)? -/
def Dev.recHost (d : Dev) : Bool := d.get 0x4300_00 = 1

/-- The recompute state changed. -/
def Dev.modRec' (d : Dev) (f : RecompSt → RecompSt) : Dev := { d with tk := { d.tk with rec_ := f d.tk.rec_ } }

/-- A policy's internal state. -/
def Dev.pol (d : Dev) (n : Nat) : PolicySt := (d.tk.rec_.pols[n]?).getD {}

/-- A policy's internal state changed. -/
def Dev.modPol (d : Dev) (n : Nat) (f : PolicySt → PolicySt) : Dev := d.modRec' fun r => { r with pols := r.pols.modify n f }

/-- The copies that an arm takes (R554). -/
def Dev.copyPolicy (d : Dev) (n : Nat) : PolCopy :=
  let p := d.get (polKey n 4)
  { n := n, vals := (List.range 0x15).map fun k => d.get (polKey n k), maps := d.blobValue (0x4320 + n) 0xC
    wmap := d.blobValue (0x4320 + n) 0x15, prof := (List.range 0x18).map fun k => d.get (key (0x4310 + p) k) }

/-- A value of the policy in a copy. -/
def PolCopy.v (x : PolCopy) (k : Nat) : Nat := x.vals.getD k 0

/-- A staged capture by its number. -/
def Dev.capture (d : Dev) (id : Nat) : Option StagedSt := d.tk.rec_.caps.find? (·.id = id)

/-- A staged capture changed. -/
def Dev.modCapture (d : Dev) (id : Nat) (f : StagedSt → StagedSt) : Dev :=
  d.modRec' fun r => { r with caps := r.caps.map fun x => if x.id = id then f x else x }

/-- A staged capture is done with; its pages are freed where `free` says so. -/
def Dev.dropCapture (d : Dev) (x : StagedSt) (free : Bool) : Dev :=
  let d := d.modRec' fun r => { r with caps := r.caps.filter (·.id != x.id) }
  if free then d.freeRun x.handle else d

/-! ### Maps (R555) -/

/-- The Base of map `i` of a copy, A, A scales, B, B scales, C, D in order, for a command's tag. -/
def PolCopy.base (x : PolCopy) (i tag : Nat) : Nat :=
  natAt x.maps (16 * i) 8 + (if x.v 0xD < 16 && tag.testBit (x.v 0xD) then x.v 0xE else 0)

/-- The row pitch of map `i`. -/
def PolCopy.pitch (x : PolCopy) (i : Nat) : Nat := natAt x.maps (16 * i + 8) 4

/-- The rows of map `i` and the bytes of each. -/
def PolCopy.shape (x : PolCopy) (i : Nat) : Nat × Nat :=
  let m := x.v 9
  let n := x.v 0xA
  let k := x.v 0xB
  let row (count f : Nat) : Nat := rowBytes count (fmtBits (pv x.prof f))
  match i with
  | 0 => (m, row k 1)
  | 1 => (m, k / 32)
  | 2 => (n, row k 2)
  | 3 => (n, k / 32)
  | 4 => (m, row n 0xF)
  | _ => (m, row n 0x10)

/-- Does the trunk obtain the weights from the weight server? -/
def PolCopy.served (x : PolCopy) : Bool := x.v 0xF = 1

/-- Does a policy use map `i`: the scale maps under MX32, C unless `AddC` is NONE? -/
def PolCopy.uses (x : PolCopy) (i : Nat) : Bool :=
  match i with
  | 1 | 3 => pv x.prof 3 = 1
  | 4 => pv x.prof 0xE != 0
  | _ => true

/-- Is map `i` captured at the die (R555, R558): B and its scales come from the server where `WeightFrom` is SERVER? -/
def PolCopy.captured (x : PolCopy) (i : Nat) : Bool := x.uses i && !(x.served && (i = 2 || i = 3))

/-- The bytes of map `i`. -/
def PolCopy.bytes (x : PolCopy) (i : Nat) : Nat := (x.shape i).1 * (x.shape i).2

/-- The bytes of a policy's leaf-side maps (R558). -/
def PolCopy.leafBytes (x : PolCopy) : Nat := (((List.range 6).filter x.captured).map x.bytes).sum

/-- Are the maps present as R555 asks? Where `WeightFrom` is SERVER, B may name the die's B map for its digest (log 26). -/
def PolCopy.mapsOk (x : PolCopy) : Bool :=
  (List.range 6).all fun i => (x.served && i = 2) || ((natAt x.maps (16 * i) 8 != 0) = x.uses i)

/-- Is K one that its formats and scale mode allow (R540, 0x4320 + n sub 0B)? -/
def PolCopy.kOk (x : PolCopy) : Bool :=
  let k := x.v 0xB
  let fits (f : Nat) : Bool := match fmtBits f with
    | 4 => k % 2 = 0
    | 6 => k % 4 = 0
    | _ => true
  fits (pv x.prof 1) && fits (pv x.prof 2) && (pv x.prof 3 != 1 || k % 32 = 0)

/-! ### Policies (R550, R554, R558) -/

/-- A write to a policy's `Enable`. -/
def Dev.policyAns (d : Dev) (n v : Nat) : Ans :=
  let d' := d.set (polKey n 1) v
  if v = 0 then
    let mine := d'.tk.rec_.caps.filter (·.pol.n = n)
    ok (mine.foldl (fun (d : Dev) x => d.freeRun x.handle) (d'.skipCaps (·.pol.n = n)))
  else
    let x := d.copyPolicy n
    if x.v 2 % 4096 = 0 || !consistent x.prof || !x.mapsOk || !x.kOk || 80 * ((x.leafBytes + 63) / 64) + 24 > 65536 then
      fail d .range
    else if d.on (polKey n 1) then ok d'
    else ok (d'.modPol n fun y => { y with epoch := d.now, period := 0, last := [] })

/-- POLICY_ENABLE (R550). -/
def execPolicyEnable (e : Env) (n : Nat) (s : State) : Host.Outcome State Fault Refusal :=
  s.onTrunk fun d => if n < 16 then d.serveWrite e (0x4320 + n) 1 1 fun d v _ => d.policyAns n v else d

/-- POLICY_DISABLE (R554). -/
def execPolicyDisable (e : Env) (n : Nat) (s : State) : Host.Outcome State Fault Refusal :=
  s.onTrunk fun d => if n < 16 then d.serveWrite e (0x4320 + n) 1 0 fun d v _ => d.policyAns n v else d

/-! ### Arms (R551 to R553, R559) -/

/-- PeriodEff of a policy (R551): while `RecomputeScale` is 0, the one last computed. -/
def Dev.periodEff (d : Dev) (n : Nat) : Nat :=
  let scale := d.get 0x4010_0C
  if scale != 0 then d.get (polKey n 8) * 65536 / scale
  else if (d.pol n).period != 0 then (d.pol n).period else d.get (polKey n 8)

/-- spread(v) (R552): the low bits of `v`, in ascending order, at the bits set in a mask. -/
def spread (mask v : Nat) : Nat :=
  ((List.range 16).foldl (fun (x : Nat × Nat) b =>
    if mask.testBit b then (if v.testBit x.2 then setBit x.1 b else x.1, x.2 + 1) else x) (0, 0)).1

/-- Bits of a 16-bit value that a mask leaves. -/
def without (x mask : Nat) : Nat := x &&& (0xFFFF - mask % 65536)

/-- The Tag and TagMask of a policy's arm (R552). -/
def armTag (x : PolCopy) (v : Nat) : Nat × Nat :=
  (without (x.v 5 &&& x.v 6) (x.v 7) ||| spread (x.v 7) v, x.v 6 ||| x.v 7)

/-- When a member's next arm is due (R551): from its last, or `i` of `n` parts of a period after Epoch. -/
def Dev.armDue (d : Dev) (pol port i n : Nat) : Nat :=
  let p := d.periodEff pol
  match lookupKey port (d.pol pol).last with
  | some t => t + p
  | none => (d.pol pol).epoch + i * p / max 1 n

/-- The first window boundary of a slot's group at or after a time. -/
def Dev.boundaryAt (d : Dev) (slot t : Nat) : Nat :=
  let start := d.get (slotKey slot 8)
  let period := max 1 (d.get (slotKey slot 9))
  start + 8 * period * firstWindow start period t

/-- The pages that a policy's staged captures hold. -/
def Dev.stagedPages (d : Dev) (n : Nat) : Nat := ((d.tk.rec_.caps.filter (·.pol.n = n)).map (·.pages)).sum

/-- Is an arm skipped (R553) before it is written? -/
def Dev.armSkipped (d : Dev) (pol port : Nat) : Bool :=
  d.inTransition port || d.get 0x4010_0C = 0 || d.classHeld 5 || d.noAnalysis || d.stagedPages pol ≥ d.get 0x4301_07

/-- The trunk sets the die's source to digest B over the command (R559): COMMAND digests, filter 7, and the arm's tag. -/
def Dev.armDigest (d : Dev) (port : Nat) (x : PolCopy) (tag mask : Nat) : Dev :=
  let src := 0x2510 + x.v 3
  let f := 0x2520 + 8 * x.v 3 + 7
  let base := x.base 2 (tag &&& mask)
  let (rows, width) := x.shape 2
  let d := ((d.writeLeaf port f 1 8 base).writeLeaf port f 2 8 (base + (rows - 1) * x.pitch 2 + width - 1)).writeLeaf port f 3 4 0x23
  ((d.writeLeaf port src 6 1 3).writeLeaf port src 8 2 tag).writeLeaf port src 9 2 mask

/-- ARM (R552): the trunk arms the member on Stem port `port`; `busy` is the leaf's answer BUSY. -/
def execArm (policy port : Nat) (busy : Bool) (s : State) : Host.Outcome State Fault Refusal :=
  s.onTrunk fun d =>
    if policy ≥ 16 || !d.on 0x4301_01 || !d.on (polKey policy 1) then d
    else match d.slotOf (d.get (polKey policy 2) % 4096) [2, 3] with
    | none => d
    | some slot =>
      let ms := sortBy Nat.ble (d.membersAt slot (d.windowsClosed slot))
      match ms.findIdx? (· = port) with
      | none => d
      | some i =>
        let due := d.armDue policy port i ms.length
        if d.now < d.boundaryAt slot due then d
        else
          let p := d.periodEff policy
          let d := d.modPol policy fun y => { y with period := p, last := insertKey port due y.last }
          if d.armSkipped policy port then d.inc 0x4304_02
          else
            let x := d.copyPolicy policy
            let (tag, mask) := armTag x (d.pol policy).arms
            let d := if (d.knownOf port 0x1000 7).isSome then d else d.readFacts port (x.v 3)
            let d := if x.served then d.armDigest port x tag mask else d
            let d := d.writeLeaf port 0x25A0 0 8 (x.v 3 * 2 ^ 32 + mask * 2 ^ 16 + tag)
            if busy then d.inc 0x4304_02
            else
              let d := (d.inc 0x4304_01).inc (polKey policy 0x16)
              let d := d.modPol policy fun y => { y with arms := y.arms + 1 }
              d.modRec' fun r => { r with
                shots := r.shots.filter (fun y => y.port != port || y.pol.v 3 != x.v 3) ++ [⟨port, x, tag, mask⟩] }

/-! ### Assembly (R556, R557) -/

/-- The byte that the first of some accesses in a direction gives an address. -/
def coverOf (write : Bool) (pk : List PortAccess) (a : Nat) : Option Byte :=
  (pk.find? fun x => x.write = write && x.addr ≤ a && a < x.addr + x.size).bind fun x => x.value[a - x.addr]?

/-- Every element of a list that has one; none where some element has none. -/
def allSome {α : Type} : List (Option α) → Option (List α)
  | [] => some []
  | none :: _ => none
  | some x :: l => (allSome l).map (x :: ·)

/-- The packed rows of a map, none where a byte of it was never captured (R556): of reads the first, of writes the last. -/
def gather (write : Bool) (pk : List PortAccess) (base pitch rows width : Nat) : Option Bytes :=
  let l := if write then pk.reverse else pk
  allSome ((List.range (rows * width)).map fun i => coverOf write l (base + i / max 1 width * pitch + i % max 1 width))

/-- The packed rows of every map of a capture: nothing for one that the die's capture does not hold. -/
def PolCopy.assemble (x : PolCopy) (tag : Nat) (pk : List PortAccess) : Option (List Bytes) :=
  allSome ((List.range 6).map fun i =>
    if x.captured i then gather (i = 5) pk (x.base i tag) (x.pitch i) (x.shape i).1 (x.shape i).2 else some [])

/-- A capture is INCOMPLETE (R557). -/
def Dev.incomplete (d : Dev) : Dev := (d.inc 0x4304_04).flag 0x4302 3

/-- Do the packets of a capture agree with its CAPTURE_END digest (R557)? -/
def captureWhole (pk : List PortAccess) (done : DigestMsg) : Bool := crc32c (pk.flatMap (·.value)) = done.digest

/-! ### Weight tiles (R560, R561) -/

/-- The server key of a die command's tag (R560). -/
def PolCopy.key (x : PolCopy) (tag : Nat) : Nat := without (x.v 0x12) (x.v 0x14) ||| (tag &&& x.v 0x14)

/-- The head of a RECOMPUTE message (R561). -/
def headBytes (kind : Nat) (h : RecomputeHead) : Bytes :=
  leBytes 1 kind ++ leBytes 1 h.format ++ leBytes 1 h.scaleMode ++ leBytes 1 h.source ++ leBytes 4 h.weightLeaf ++
  leBytes 2 h.tag ++ leBytes 2 h.tagMask ++ leBytes 2 h.k ++ leBytes 2 h.n

/-- A RECOMPUTE message goes to a trunk, this one included, in the partition of the server leaf's port (R561). -/
def Dev.sendRecompute (d : Dev) (dest leaf : Nat) (payload : Bytes) : Dev :=
  let own := d.get 0x3100_01
  let part := if addrTrunk leaf = own then natAt (d.blobValue 0x3127 0) (leaf % 256) 1 else (Config.remotePartition leaf).toNat
  let m : PMsg := { kind := 0x09, cls := 6, dest := dest, source := own, partition := part, payload := payload }
  if dest = own then d.emit (.delivered m) else d.originate m

/-- A WEIGHT_REQUEST for a capture, which waits for its tile (R560). -/
def Dev.requestTile (d : Dev) (c : StagedSt) : Dev :=
  let x := c.pol
  let leaf := x.v 0x10
  let h : RecomputeHead :=
    { format := pv x.prof 2, scaleMode := pv x.prof 3, source := x.v 0x11, weightLeaf := leaf, tag := x.key c.tag
      tagMask := x.v 0x13, k := x.v 0xB, n := x.v 0xA, sender := d.get 0x3100_01 }
  let d := d.modCapture c.id fun y => { y with wait := some d.now }
  d.sendRecompute (addrTrunk leaf) leaf (headBytes 1 h ++ bytesAt x.wmap 0 32)

/-- The bytes of B in a tile. -/
def StagedSt.tileB (c : StagedSt) (tile : Bytes) : Bytes := bytesAt tile 0 (c.pol.bytes 2)

/-- Did the die read the bytes of a tile (R560)? -/
def StagedSt.agrees (c : StagedSt) (tile : Bytes) : Bool := crc32c (c.tileB tile) = c.digest

/-- A capture takes B and its scales from a tile. -/
def StagedSt.take (c : StagedSt) (tile : Bytes) : StagedSt :=
  { c with wait := none, ops := (c.ops.set 2 (c.tileB tile)).set 3 (bytesAt tile (c.pol.bytes 2) (c.pol.bytes 3)) }

/-- A new capture of a policy with `WeightFrom` SERVER: a cached tile that passes the check, or a request (R560). -/
def Dev.startWeights (d : Dev) (c : StagedSt) : Dev :=
  let x := c.pol
  let held := d.tk.rec_.tiles.find? fun t =>
    t.leaf = x.v 0x10 && t.src = x.v 0x11 && t.key = x.key c.tag && d.now < t.time + d.get 0x4301_06
  match held with
  | some t => if c.agrees t.bytes then d.modCapture c.id fun y => y.take t.bytes else d.requestTile c
  | none => d.requestTile c

/-! ### Captures -/

/-- A capture of a policy comes whole (R556, R557, R560): it is staged in pages of class RECOMPUTE (R323). -/
def Dev.takeCapture (d : Dev) (x : ShotSt) (pk : List PortAccess) (done : DigestMsg) (weights : Option DigestMsg) : Dev :=
  let d := d.modRec' fun r => { r with shots := r.shots.erase x }
  let p := x.pol
  let b := weights.filter fun w => w.begin = done.begin
  match p.assemble done.tag pk with
  | none => d.incomplete
  | some ops =>
    if !captureWhole pk done || (p.served && b.isNone) then d.incomplete
    else
      let d := d.inc 0x4304_03
      let size := (((List.range 6).filter p.uses).map p.bytes).sum
      let pages := max 1 ((size + pageBytes - 1) / pageBytes)
      let part := ((d.slotOf (p.v 2 % 4096) [2, 3]).map fun n => d.get (slotKey n 4)).getD 0
      match d.poolAlloc 5 0 pages part with
      | (.error _, d) => (d.inc 0x4304_0B).flag 0x4302 4
      | (.ok run, d) =>
        let d := d.useMem 4 run.base size
        let id := d.tk.rec_.nextId
        let c : StagedSt :=
          { id := id, port := x.port, pol := p, tag := done.tag, begin := done.begin, ended := done.stamp, handle := run.handle
            pages := pages, ops := ops, digest := (b.map (·.digest)).getD 0 }
        let d := d.modRec' fun r => { r with nextId := id + 1, caps := r.caps ++ [c] }
        if p.served then d.startWeights c else d

/-- The rows and row bytes of B and of its scales that a request names. -/
def tileShape (h : RecomputeHead) : (Nat × Nat) × (Nat × Nat) :=
  ((h.n, rowBytes h.k (fmtBits h.format)), if h.scaleMode = 1 then (h.n, h.k / 32) else (0, 0))

/-- The tile that a request asks for, from a server leaf's capture (R560, R561). -/
def tileOf (q : RecomputeHead × Bytes) (pk : List PortAccess) : Option Bytes :=
  let (b, sc) := tileShape q.1
  match gather false pk (natAt q.2 0 8) (natAt q.2 8 4) b.1 b.2, gather false pk (natAt q.2 16 8) (natAt q.2 24 4) sc.1 sc.2 with
  | some x, some y => some (x ++ y)
  | _, _ => none

/-- A WEIGHT_TILE answers a request (R561): with a tile, or LOST (1) or BUSY (2), whose Crc and Begin the spec leaves open. -/
def Dev.answerTile (d : Dev) (q : RecomputeHead × Bytes) (status begin : Nat) (tile : Option Bytes) : Dev :=
  let tail := match tile with
    | some t => leBytes 4 (crc32c t) ++ leBytes 8 begin ++ t
    | none => leBytes 4 (Config.unstated 0x4300_01 d.now).toNat ++ leBytes 8 (Config.unstated 0x4300_02 d.now).toNat
  d.sendRecompute q.1.sender q.1.weightLeaf (headBytes 2 q.1 ++ leBytes 1 status ++ zeros 3 ++ tail)

/-- A server leaf's capture comes whole: every request is answered (R560). -/
def Dev.serveTile (d : Dev) (x : ServeSt) (pk : List PortAccess) (done : DigestMsg) : Dev :=
  let d := d.modRec' fun r => { r with serves := r.serves.erase x }
  let good := captureWhole pk done && x.reqs.all fun q => (tileOf q pk).isSome
  let d := if good then d.inc 0x4304_03 else d.incomplete
  x.reqs.foldl (fun (d : Dev) q =>
    match (if captureWhole pk done then tileOf q pk else none) with
    | some t => d.answerTile q 0 done.begin (some t)
    | none => d.answerTile q 1 0 none) d

/-- CAPTURE_ASSEMBLY (R556): of an arm at a server leaf, or of a policy's arm; of no arm it is nothing. -/
def execCaptureAssembly (port src : Nat) (packets : List PortAccess) (done : DigestMsg) (weights : Option DigestMsg) (s : State) :
    Host.Outcome State Fault Refusal :=
  s.onTrunk fun d =>
    match d.tk.rec_.serves.find? fun x => x.port = port && x.src = src && done.tag &&& x.mask = x.tag with
    | some x => d.serveTile x packets done
    | none =>
      match d.tk.rec_.shots.find? fun x => x.port = port && x.pol.v 3 = src && done.tag &&& x.mask = x.tag with
      | some x => d.takeCapture x packets done weights
      | none => d

/-- WEIGHT_REQUEST (R560): the trunk of the server leaf arms its source, once for every request of a key. -/
def execWeightRequest (h : RecomputeHead) (map : Bytes) (busy : Bool) (s : State) : Host.Outcome State Fault Refusal :=
  s.onTrunk fun d =>
    let port := h.weightLeaf % 256
    if addrTrunk h.weightLeaf != d.get 0x3100_01 || h.weightLeaf.testBit 20 || h.source > 15 then d
    else
      let same (x : ServeSt) : Bool := x.port = port && x.src = h.source && x.tag = h.tag && x.mask = h.tagMask
      if d.tk.rec_.serves.any same then
        d.modRec' fun r => { r with serves := r.serves.map fun x => if same x then { x with reqs := x.reqs ++ [(h, map)] } else x }
      else
        let d := d.writeLeaf port 0x25A0 0 8 (h.source * 2 ^ 32 + h.tagMask * 2 ^ 16 + h.tag)
        if busy then d.answerTile (h, map) 2 0 none
        else d.modRec' fun r => { r with
          serves := r.serves.filter (fun x => x.port != port || x.src != h.source) ++ [⟨port, h.source, h.tag, h.tagMask, [(h, map)]⟩] }

/-! ### Mismatches (R567 to R569) -/

/-- A verdict and what its record holds: DIE (1), TRUNK (2) or WEIGHT (3). -/
structure Finding where
  verdict  : Nat
  port     : Nat
  src      : Nat
  tag      : Nat
  policy   : Nat
  profile  : Nat
  begin    : Nat
  row      : Nat := 0
  col      : Nat := 0
  host     : Nat
  trunk    : Nat
  elements : Nat
  ulps     : Nat
  cmp      : Nat
  stamp    : Nat
  handle   : Nat := 0

/-- The payload of a RECOMPUTE_MISMATCH record (R569). -/
def Finding.payload (x : Finding) (leaf trig : Nat) : Bytes :=
  leBytes 4 leaf ++ leBytes 2 x.tag ++ leBytes 1 x.policy ++ leBytes 1 x.profile ++ leBytes 8 x.begin ++ leBytes 2 x.row ++
  leBytes 2 x.col ++ leBytes 4 x.host ++ leBytes 4 x.trunk ++ leBytes 4 x.elements ++ leBytes 4 x.ulps ++ leBytes 1 x.verdict ++
  leBytes 1 x.cmp ++ zeros 2 ++ leBytes 4 trig ++ leBytes 4 x.handle

/-- The counter and the flag of a verdict. -/
def Finding.count (x : Finding) : Nat × Nat :=
  match x.verdict with
  | 1 => (0x4304_08, 0)
  | 2 => (0x4304_09, 1)
  | _ => (0x4304_0A, 2)

/-- What a verdict does, in the order of R567. -/
def Dev.mismatch (d : Dev) (x : Finding) : Dev :=
  let blame := x.verdict != 2
  let fire := blame && d.on 0x4301_03
  let trig := if fire then (d.failureTrigger x.port x.stamp).1 else 0
  let leaf := d.leafAddress x.port
  let d := d.record .recomputeMismatch d.stamp (x.payload leaf trig)
  let d := d.complete 0x4305
    [(4, leaf), (5, x.tag), (6, x.policy), (7, x.profile), (8, x.begin), (9, x.row), (0xA, x.col), (0xB, x.host), (0xC, x.trunk),
     (0xD, x.elements), (0xE, x.ulps), (0xF, x.verdict), (0x10, x.cmp), (0x11, trig), (0x12, x.handle)]
  let d := (d.inc x.count.1).flag 0x4302 x.count.2
  let d := if blame && x.policy < 16 then d.inc (polKey x.policy 0x18) else d
  let d := match d.tk.ana.runs.find? (fun r => blame && x.handle != 0 && r.handle = x.handle) with
    | some r => (d.poolRetag r 2).2
    | none => d
  let d := if fire then (d.failureTrigger x.port x.stamp).2 else d
  if !blame then d
  else if x.verdict = 1 then
    d.emitSignature 2 x.port x.src x.begin x.tag x.trunk x.host
      (leBytes 2 x.row ++ leBytes 2 x.col ++ leBytes 4 x.elements ++ leBytes 4 x.ulps)
  else d.emitSignature 4 x.port x.src x.stamp x.tag x.trunk x.host (leBytes 4 x.elements ++ leBytes 1 x.policy ++ zeros 7)

/-- The finding of a verdict on a capture; a DIE or WEIGHT verdict keeps its pages. -/
def StagedSt.finding (c : StagedSt) (verdict : Nat) : Finding :=
  { verdict := verdict, port := c.port, src := c.pol.v 3, tag := c.tag, policy := c.pol.n, profile := c.pol.v 4, begin := c.begin
    host := 0, trunk := 0, elements := 0, ulps := 0, cmp := pv c.pol.prof 0x14, stamp := c.ended
    handle := if verdict = 2 then 0 else c.handle }

/-- A fresh tile fails its check (R560): the verdict WEIGHT, in HOST mode none. -/
def Dev.weightFails (d : Dev) (c : StagedSt) (crc : Nat) : Dev :=
  if d.recHost then d.dropCapture c true
  else
    let ulps := (Config.unstated 0x4305_0E d.now).toNat % 2 ^ 32
    (d.dropCapture c false).mismatch { c.finding 3 with host := c.digest, trunk := crc, ulps := ulps }

/-- WEIGHT_TILE (R561): a tile is cached, and each capture that waits for it checks it. -/
def execWeightTile (h : RecomputeHead) (status crc begin : Nat) (tile : Bytes) (s : State) : Host.Outcome State Fault Refusal :=
  s.onTrunk fun d =>
    if status != 0 then d
    else
      let is (t : TileSt) : Bool := t.leaf = h.weightLeaf && t.src = h.source && t.key = h.tag
      let d := d.modRec' fun r => { r with
        tiles := r.tiles.filter (fun t => !is t) ++ [⟨h.weightLeaf, h.source, h.tag, crc, begin, d.now, tile⟩] }
      let mine := d.tk.rec_.caps.filter fun c =>
        c.wait.isSome && c.pol.v 0x10 = h.weightLeaf && c.pol.v 0x11 = h.source && c.pol.key c.tag = h.tag
      mine.foldl (fun (d : Dev) c => if c.agrees tile then d.modCapture c.id fun y => y.take tile else d.weightFails c crc) d

/-- WEIGHT_WAIT_TIMEOUT (R560). -/
def execWeightWaitTimeout (capture : Nat) (s : State) : Host.Outcome State Fault Refusal :=
  s.onTrunk fun d =>
    match d.capture capture with
    | some c =>
      if c.wait.any (· + d.get 0x4301_05 ≤ d.now) then (d.skipCaps (·.id = capture)).freeRun c.handle else d
    | none => d

/-! ### Comparison (R563 to R566) -/

/-- A capture's operands. -/
def StagedSt.operands (c : StagedSt) : Operands :=
  let o (i : Nat) : Bytes := c.ops.getD i []
  { m := c.pol.v 9, n := c.pol.v 0xA, k := c.pol.v 0xB, a := o 0, sa := o 1, b := o 2, sb := o 3, c := o 4 }

/-- The captured D in row-major order. -/
def StagedSt.host (c : StagedSt) : List Nat :=
  let bits := fmtBits (pv c.pol.prof 0x10)
  let n := c.pol.v 0xA
  (List.range (c.pol.v 9 * n)).map fun x => elemAt (c.ops.getD 5 []) (rowBytes n bits) bits (x / max 1 n) (x % max 1 n)

/-- A result with the bits that a defect of the arrays inverts. -/
def upset (w : Nat) (l : List (Nat × Nat)) (r : List Nat) : List Nat :=
  l.foldl (fun r (i, x) => r.modify i fun v => v ^^^ (x % 2 ^ w)) r

/-- Both results go out in datagrams of at most 8,192 bytes (R570). -/
def Dev.exportResult (d : Dev) (c : StagedSt) (kind : Nat) (r : List Nat) : Dev :=
  let f := pv c.pol.prof 0x10
  let bs := r.flatMap (leBytes (fmtBits f / 8))
  (List.range ((bs.length + 8167) / 8168)).foldl (fun (d : Dev) i =>
    d.emit (.udp (d.get 0x4301_08) (d.get 0x3201_0A) (d.get 0x3201_0B)
      (leBytes 1 kind ++ leBytes 1 f ++ leBytes 1 c.pol.n ++ leBytes 1 (c.pol.v 4) ++ leBytes 4 (d.leafAddress c.port) ++
       leBytes 2 c.tag ++ leBytes 2 (c.pol.v 9) ++ leBytes 2 (c.pol.v 0xA) ++ zeros 2 ++ leBytes 4 (8168 * i) ++
       leBytes 4 (ft32 c.begin) ++ (bs.drop (8168 * i)).take 8168))) d

/-- The comparison of a capture with the trunk's results (R563 to R565); `second` is the second result. -/
def Dev.judge (d : Dev) (c : StagedSt) (host trunk second : List Nat) : Dev :=
  let p := c.pol.prof
  let d := (d.inc 0x4304_05).inc (polKey c.pol.n 0x17)
  match mismatches p host trunk with
  | [] => (d.inc (if host = trunk then 0x4304_06 else 0x4304_07)).dropCapture c true
  | (i, h, t) :: l =>
    let verdict := if d.on 0x4301_02 && second != trunk then 2 else 1
    let n := max 1 (c.pol.v 0xA)
    let ulps := (((i, h, t) :: l).map fun (_, h, t) => ulpsOf (pv p 0x10) h t).foldl max 0
    (d.dropCapture c (verdict = 2)).mismatch
      { c.finding verdict with row := i / n, col := i % n, host := h, trunk := t, elements := l.length + 1, ulps := ulps }

/-- COMPARE (R563): class 5 is not held (R566). -/
def execCompare (capture : Nat) (upset1 upset2 : List (Nat × Nat)) (s : State) : Host.Outcome State Fault Refusal :=
  s.onTrunk fun d =>
    match d.capture capture with
    | none => d
    | some c =>
      if c.wait.isSome || d.classHeld 5 || d.noAnalysis then d
      else
        let d := match d.tk.ana.runs.find? (·.handle = c.handle) with
          | some run => d.useMem 4 run.base (c.ops.map List.length).sum
          | none => d
        let w := fmtBits (pv c.pol.prof 0x10)
        let r := c.operands.result c.pol.prof
        let trunk := upset w upset1 r
        if d.recHost then
          (((d.exportResult c 1 c.host).exportResult c 2 trunk).inc 0x4304_0C).dropCapture c true
        else d.judge c c.host trunk (upset w upset2 r)

/-! ### Weight digests across dies (R562) -/

/-- A write to the `Enable` of a `WeightDigest`. -/
def Dev.weightDigestAns (d : Dev) (n v : Nat) : Ans :=
  let d' := d.set (key (0x4340 + n) 1) v
  if v = 0 then ok d'
  else match d.slotOf (d.get (key (0x4340 + n) 2) % 4096) [2, 3] with
  | none => fail d .state
  | some slot =>
    if d.scon slot 1 = 0 then fail d .state
    else
      let src := d.get (key (0x4340 + n) 3)
      ok (((d.slot slot).members.filter (·.until_.isNone)).foldl (fun (d : Dev) m =>
        (d.writeLeaf m.port (0x2510 + src) 6 1 1).readFacts m.port src) d')

/-- WEIGHT_DIGEST_ENABLE (R562). -/
def execWeightDigestEnable (e : Env) (n : Nat) (s : State) : Host.Outcome State Fault Refusal :=
  s.onTrunk fun d => if n < 4 then d.serveWrite e (0x4340 + n) 1 1 fun d v _ => d.weightDigestAns n v else d

/-- The number of members that hold a sequence. -/
def holders (q : List Nat) (l : List (Nat × Nat × List Nat)) : Nat := (l.filter (·.2.2 = q)).length

/-- The sequence held by the most members: of a tie, that of the member with the lowest port (R562). -/
def reference (l : List (Nat × Nat × List Nat)) : List Nat :=
  let s := sortBy (fun (a b : Nat × Nat × List Nat) => a.1 ≤ b.1) l
  ((s.foldl (fun (best : Nat × List Nat) x => let h := holders x.2.2 l; if best.1 < h then (h, x.2.2) else best) (0, [])).2)

/-- The position of the first block in which two sequences differ. -/
def firstDiff : List Nat → List Nat → Nat
  | a :: as, b :: bs => if a = b then firstDiff as bs + 1 else 0
  | _, _ => 0

/-- WEIGHT_DIGEST_COMPARE (R562): of the members whose arrival at the step is resolved. -/
def execWeightDigestCompare (n step : Nat) (seqs : List (Nat × Nat × List Nat)) (s : State) : Host.Outcome State Fault Refusal :=
  s.onTrunk fun d =>
    let k (sub : Nat) : Nat := key (0x4340 + n) sub
    match d.slotOf (d.get (k 2) % 4096) [2, 3] with
    | none => d
    | some slot =>
      let ports := (d.slot slot).members.map (·.port)
      let l := seqs.filter fun x => ports.contains x.1
      if n ≥ 4 || !d.on (k 1) || l.isEmpty then d
      else
        let d := d.add (k 4) l.length
        let ref := reference l
        if 2 * holders ref l ≤ l.length then d.inc (k 6)
        else if d.recHost then d
        else
          let open_ (i : Nat) : Nat := (Config.unstated (k i) (d.now * 2 ^ 32 + step)).toNat
          let bad := (sortBy (fun (a b : Nat × Nat × List Nat) => a.1 ≤ b.1) l).filter (·.2.2 != ref)
          bad.foldl (fun (d : Dev) x =>
            let i := firstDiff x.2.2 ref
            (d.inc (k 5)).mismatch
              { verdict := 3, port := x.1, src := d.get (k 3), tag := open_ 0x10 % 65536, policy := 0xFF, profile := open_ 0x11 % 256
                begin := open_ 0x12, host := x.2.2.getD i (open_ 0x13 % 2 ^ 32), trunk := ref.getD i (open_ 0x14 % 2 ^ 32)
                elements := i, ulps := open_ 0x15 % 2 ^ 32, cmp := open_ 0x16 % 256, stamp := x.2.1 }) d

end Sys2Proof.Machine
end

