-- ==== Sys2Proof/Machine/Modes.lean ====
section
/-! DEFINITION. What takes effect at a window boundary (R9): mode objects (R8), `UdpPort` and `Cluster` (R658); and the
power-fail warning (R174, R232, R320, R607). -/

namespace Sys2Proof.Machine

open Sys2Proof

/-! ### Window boundaries -/

/-- Is this tick a window boundary of a leaf (R9): T_k of the lead schedule, whether or not a latch is taken; every tick while
that schedule is not enabled? -/
def Dev.leafBoundary (d : Dev) : Bool :=
  let l := d.get 0x2700_03
  !d.on (schedKey l 1) || d.latchTick (d.get (schedKey l 3)) (8 * max 1 (d.get (schedKey l 2)))

/-- Is this tick a window boundary of the unit? -/
def Dev.boundary (d : Dev) : Bool := if d.isTrunk then d.trunkBoundary else d.leafBoundary

/-- Does a write wait for a window boundary: is there a lead schedule, or on a trunk a group (R9)? -/
def Dev.hasWindows (d : Dev) : Bool := if d.isTrunk then d.reference.isSome else d.on (schedKey (d.get 0x2700_03) 1)

/-! ### Mode objects -/

/-- A trunk's `CodecMode` becomes HOST: it keeps no leaf contexts and sends no resynchronisation (R308). -/
def Dev.dropContexts (d : Dev) : Dev := d.modIng fun x => { x with stale := List.range 1024, resync := [] }

/-- An object that a window boundary changes takes its value, with what the change of a mode does besides (R114, R308, R454,
R512, R570). -/
def Dev.applyMode (d : Dev) (k v : Nat) : Dev :=
  let d := d.set k v
  match k with
  | 0x2000_00 =>
    Dev.refreshUncertain (if v = 1 then { d with time := { d.time with newInc := none } } else d)
  | 0x2800_00 => if !d.isTrunk then d.restartStreams else if v = 1 then d.dropContexts else d
  | 0x3200_00 => if v = 1 then slotNos.foldl (fun (d : Dev) n => d.staleRes (0x3250 + n)) d else d
  | 0x4100_00 =>
    if v = 1 then (slotNos.foldl (fun (d : Dev) n => d.staleRes (0x4140 + n)) d).staleRes 0x4105
    else slotNos.foldl (fun (d : Dev) n => d.restartSteps n) d
  | 0x4300_00 => if v = 1 then d.staleRes 0x4305 else d
  | _ => d

/-- A write of an object that takes effect at the next window boundary: a later write replaces an earlier one. -/
def Dev.modeAns (d : Dev) (k v : Nat) : Ans :=
  let rest := d.time.modePending.filter (·.1 != k)
  if d.hasWindows then ok { d with time := { d.time with modePending := rest ++ [(k, v)] } }
  else ok (Dev.applyMode { d with time := { d.time with modePending := rest } } k v)

/-- MODE_CHANGE (R9): what was written to the objects of an index takes effect at a window boundary. -/
def execModeChange (u : UnitId) (index : Nat) (s : State) : Host.Outcome State Fault Refusal :=
  s.on u fun d =>
    if !d.boundary then d
    else
      let (now, later) := d.time.modePending.partition (fun x => x.1 / 256 = index)
      now.foldl (fun (d : Dev) x => d.applyMode x.1 x.2) { d with time := { d.time with modePending := later } }

/-! ### Clusters (R658) -/

/-- May a region move to a cluster now: no stage request of it waits, and neither cluster is DEGRADED? -/
def Dev.mayMove (d : Dev) (r c : Nat) : Bool :=
  !d.pow.pend.any (·.region = r) && !d.degraded (d.clusterOf r) && !d.degraded c

/-- A write of `Cluster` waits for its boundary; a later one replaces it. -/
def Dev.clusterAns (d : Dev) (i v : Nat) : Ans :=
  let r := i - 0x2450
  let rest := d.pow.cluster.filter (·.1 != r)
  let put (d : Dev) (l : List (Nat × Nat)) : Dev := { d with pow := { d.pow with cluster := l } }
  if v ≥ d.cfg.clusters then fail d .range
  else if d.hasWindows || !d.mayMove r v then ok (put d (rest ++ [(r, v)]))
  else ok ((put d rest).set (key i 2) v)

/-- CLUSTER_CHANGE (R658). -/
def execClusterChange (l : LeafId) (r : Nat) (s : State) : Host.Outcome State Fault Refusal :=
  s.onLeaf l fun d =>
    match d.pow.cluster.find? (·.1 = r) with
    | some (_, c) =>
      if d.boundary && d.mayMove r c then
        Dev.set { d with pow := { d.pow with cluster := d.pow.cluster.filter (·.1 != r) } } (key (0x2450 + r) 2) c
      else d
    | none => d

/-! ### The power-fail warning -/

/-- The POWER_FAIL record and snapshot (R216, R220, R232). -/
def Dev.powerFailRecords (d : Dev) : Dev :=
  (d.record .powerFail d.stamp (leBytes 4 d.newest.1 ++ zeros 4)).snapshot .powerFail d.stamp

/-- A leaf's part of the warning (R174, R203, R232, R320, R578). -/
def Dev.leafPowerFail (d : Dev) (l : LeafId) : Dev :=
  let d := (d.flag 0x2401 0).always 0x1E 1
  let d := (d.abortFrame l).cutLine d.arb.off
  let d := (d.set 0x2407_02 d.stamp).set 0x2407_01 1
  let d := (d.denyAll fun _ => true).freezeOnPowerFail
  d.powerFailRecords.powerFailFlush.abandonTest.refreshTest

/-- A trunk's part of the warning (R240, R607, R644): work of classes 3 to 6 is gated, an update at work is abandoned, and the commit is due. -/
def Dev.trunkPowerFail (d : Dev) : Dev :=
  let d := (d.set 0x2407_01 1).gateThreads.powerFailRecords
  let t := d.get 0x1802_01
  let k := d.get 0x1802_06 / 65536
  let d := if d.get 0x1802_05 = 2 then
      ((d.putSector t k (Config.tornSector t k d.now)).set 0x1802_05 5).flag 0x1804 2 else d
  { d with rcd := { d.rcd with commitDue := some d.now } }

/-- POWER_FAIL_WARNING (R174): an assertion while the warning is active changes nothing (R176). -/
def execPowerFailWarning (u : UnitId) (s : State) : Host.Outcome State Fault Refusal :=
  s.on u fun d =>
    if d.pfActive then d
    else
      let d := { d with pow := { d.pow with pfLowSince := none } }
      match u with
      | .leaf l => d.leafPowerFail l
      | .trunk => d.trunkPowerFail

end Sys2Proof.Machine
end

