-- ==== Sys2Proof/Machine/Writes.lean ====
section
/-! DEFINITION. What a write changes, object by object, in the words of each chapter's object table: the object's own checks
and its effect, after the checks that every object shares (R24, R25, R14). The objects of chapter 18 follow in Firmware.lean. -/

namespace Sys2Proof.Machine

open Sys2Proof

/-- An object takes the value if a condition holds; else RANGE. -/
def Dev.storeIf (d : Dev) (c : Bool) (i s v : Nat) : Ans := guardAns c d .range (d.store i s v)

/-- A DOMAIN object takes its bytes. -/
def Dev.storeBlob (d : Dev) (i s : Nat) (bs : Bytes) : Ans := ok (d.setBlob (key i s) bs)

/-- A write of a DOMAIN of 16-byte entries: the reserved bytes of each entry, from `first` to before `stop`, stay 0 (R14). -/
def Dev.storeEntries (d : Dev) (i s first stop : Nat) (bs : Bytes) : Ans :=
  d.storeBlob i s (bs.zipIdx.map fun (x : Byte × Nat) => if first ≤ x.2 % 16 && x.2 % 16 < stop then 0 else x.1)

/-- The leaf that a unit of the leaf build is. -/
def Dev.leafId (d : Dev) : LeafId := if d.cfg.selfLeaf then .self else .host

/-- The event codes of R120. -/
def eventCode (v : Nat) : Bool := v ≤ 9 || (0x10 ≤ v && v ≤ 0x18) || (0x40 ≤ v && v ≤ 0x4F)

/-- Is a number a power of two? -/
def powerOfTwo (v : Nat) : Bool := v != 0 && 2 ^ Nat.log2 v = v

/-! ### Chapters 01 and 02 -/

/-- Writes of 0x1100 to 0x11FF: the local pairs (R64), export SDP, service segments. -/
def Dev.apply11 (d : Dev) (i s v : Nat) : Ans :=
  if i = 0x1102 && s = 1 then d.modeAns 0x1102_01 v
  else if 0x1180 ≤ i && i ≤ 0x1183 && s = 1 then d.pairSelectAns (i - 0x1180) v
  else if 0x1180 ≤ i && i ≤ 0x1183 && s = 2 then d.pairDataAns (i - 0x1180) v
  else d.store i s v

/-- A write of `Increment` (R75, R115): it takes effect at once, and bits [63:33] are ignored (R14). -/
def Dev.incrementAns (d : Dev) (v : Nat) : Ans :=
  let v := v % 2 ^ 33
  if v < 0xFFBE76C9 || 0x100418937 < v then fail d .range
  else if !d.timeHost then fail d .state
  else ok (d.set 0x2001_03 v)

/-- A write of `SourcePriority` (R97, R99): a SOURCE that is no longer eligible, or better than every fresh advertisement,
leaves that state. -/
def Dev.priorityAns (d : Dev) (v : Nat) : Ans :=
  let d := d.set 0x2004_01 v
  let d := if d.servo = .source || d.bestAdvert.isSome then d.chooseSource else d
  ok (if v = 255 && d.servo = .source then d.setServo .freeRun else d)

/-- Writes of 0x2000 to 0x20FF. -/
def Dev.apply20 (d : Dev) (i s v : Nat) : Ans :=
  match key i s with
  | 0x2000_00 => d.modeAns 0x2000_00 v
  | 0x2001_03 => d.incrementAns v
  | 0x2001_04 => d.stepCmdAns v
  | 0x2002_07 => d.storeIf (d.get 0x2002_06 ≤ v) i s v
  | 0x2002_10 => ok (d.set 0x2002_10 v).refreshUncertain
  | 0x2004_01 => d.priorityAns v
  | 0x2004_06 => d.storeIf (!d.isTrunk || 32 * d.get 0x2005_01 ≤ v) i s v
  | 0x2005_01 => d.storeIf (!d.isTrunk || 32 * v ≤ d.get 0x2004_06) i s v
  | 0x2008_04 => d.popAns v
  | 0x2011_06 => d.utcRestepAns v
  | _ => d.store i s v

/-! ### Chapters 03 and 04 -/

/-- Writes of 0x2100 to 0x23FF. -/
def Dev.applyTaps (d : Dev) (i s v : Nat) : Ans :=
  if i = 0x2103 && s = 5 then d.storeIf (v < d.cfg.taps.length || v = 0xFF) i s v
  else if i = 0x2103 && s = 9 then d.arrivalAns v
  else if i = 0x2110 then d.storeIf (v = 0 || (100 ≤ v && v ≤ 2400)) i s v
  else if i / 256 = 0x22 then d.storeIf (eventCode (v % 256)) i s (v % 1024)
  else d.store i s v

/-- Writes of 0x2400 to 0x24FF. -/
def Dev.apply24 (d : Dev) (i s v : Nat) : Ans :=
  if i = 0x2400 then d.modeAns 0x2400_00 v
  else if i = 0x2405 && s = 3 then d.storeIf (50 ≤ v && v ≤ d.get 0x2405_01) i s v
  else if i = 0x2408 then d.stageGrantAns v
  else if i = 0x2409 then d.shedAns v
  else if 0x2450 ≤ i && i ≤ 0x248F && s = 2 then d.clusterAns i v
  else d.store i s v

/-! ### Chapters 05 and 06 -/

/-- A write to a range filter (R184). -/
def Dev.filterAns (d : Dev) (i s v : Nat) : Ans :=
  let v := if s = 3 then v &&& 0xFF3F else v
  let d' := d.set (key i s) v
  let c := d'.get (key i 3)
  let bad := field c 15 8 > 64 || field c 5 4 = 3
  guardAns (!(s = 3 && bad) && !(c.testBit 0 && d'.get (key i 2) < d'.get (key i 1))) d .range (ok d')

/-- Writes of 0x2500 to 0x25FF. -/
def Dev.apply25 (d : Dev) (i s v : Nat) : Ans :=
  if i = 0x2500 then match s with
    | 1 => d.traceEnableAns v
    | 2 => guardAns (d.traceState = 0) d .state (d.store i s v)
    | 6 => d.rearmAns v
    | 7 => cmdOne d v (ok (d.trigger .software d.stamp))
    | 8 => d.drainAns v
    | _ => d.store i s v
  else if 0x2508 ≤ i && i ≤ 0x250B && s = 2 then d.storeIf (v < d.cfg.taps.length) i s v
  else if 0x2508 ≤ i && i ≤ 0x250B && s = 3 then d.storeIf (v != 0 && eventCode v) i s v
  else if 0x2510 ≤ i && i ≤ 0x251F && s = 6 then d.digestModeAns i v
  else if 0x2510 ≤ i && i ≤ 0x251F && s = 7 then d.storeIf (v % 64 = 0) i s v
  else if 0x2520 ≤ i && i ≤ 0x259F then d.filterAns i s v
  else if i = 0x25A0 then d.captureArmAns v
  else d.store i s v

/-- A write of an entry of `SnapList` (R219). -/
def Dev.snapListAns (d : Dev) (s v : Nat) : Ans :=
  let v := v % 2 ^ 24
  let i := v % 65536
  if v = 0 then d.store 0x2602 s 0
  else if !d.serves i then fail d .noObject
  else match d.cfg.rowOf i (v / 65536) with
  | none => fail d .noSubindex
  | some r => if r.ty.isBlob || r.acc = .wo || r.acc = .cmd then fail d .range else d.store 0x2602 s v

/-- Writes of 0x2600 to 0x26FF. -/
def Dev.apply26 (d : Dev) (i s v : Nat) (bs : Bytes) : Ans :=
  if i = 0x2602 then d.snapListAns s v
  else match key i s with
  | 0x2601_05 => d.snapNowAns v
  | 0x2603_02 => d.flushCmd v
  | 0x2604_01 => d.storeIf (v % 8 = 0 && v < d.get 0x2600_01) i s v
  | 0x2604_03 => d.storeIf (v = 0 || d.isTrunk) i s v
  | 0x2605_00 => d.writeRecordAns bs
  | 0x2610_01 => d.storeIf (v % 65536 = 0) i s v
  | _ => d.store i s v

/-! ### Chapters 07 and 08 -/

/-- Is a schedule enabled (R245)? -/
def Dev.schedOn (d : Dev) (n : Nat) : Bool := d.on (schedKey n 1)

/-- A schedule's `SlotTaps` or `CounterList` (0x2701 + s, sub 08 and 09). -/
def Dev.schedBlobAns (d : Dev) (i s : Nat) (bs : Bytes) : Ans :=
  let n := d.cfg.taps.length
  let taps : List Nat := if s = 8 then (List.range 256).filter fun t => (natAt bs (t / 8) 1).testBit (t % 8)
    else (List.range (bs.length / 2)).map fun k => field (natAt bs (2 * k) 2) 12 5
  if (if s = 8 then bs.length != 0 && bs.length != 32 else bs.length % 2 != 0) then fail d .typeLength
  else if taps.any (n ≤ ·) then fail d .range
  else if d.schedOn (i - 0x2701) then fail d .state
  else d.storeBlob i s (if s = 8 then bs else (List.range (bs.length / 2)).flatMap fun k =>
    leBytes 2 (natAt bs (2 * k) 2 % 8192))

/-- A schedule's scalar settings (R245, R246, R267). -/
def Dev.schedAns (d : Dev) (i s v : Nat) : Ans :=
  let range := match s with
    | 3 => v % 8 = 0
    | 4 => v % 8 = 0 && 2560 ≤ v && v ≤ 1048576
    | _ => true
  if !range then fail d .range else if d.schedOn (i - 0x2701) then fail d .state else d.store i s v

/-- Writes of 0x2700 to 0x27FF. -/
def Dev.apply27 (d : Dev) (i s v : Nat) (bs : Bytes) : Ans :=
  if i = 0x2700 then match s with
    | 1 => d.modeAns 0x2700_01 v
    | 2 => guardAns (d.frameRate none ≤ v) d .state (d.store i s v)
    | 3 => guardAns (!d.schedOn v && !d.schedOn (d.get 0x2700_03)) d .state (d.store i s v)
    | 7 => d.degradeAns v
    | _ => d.store i s v
  else if i = 0x2708 then d.snapshotAtAns v
  else if 0x2701 ≤ i && i ≤ 0x2704 then match s with
    | 1 => d.enableAns (i - 0x2701) v
    | 8 | 9 => d.schedBlobAns i s bs
    | 0xD => d.rebindAns (i - 0x2701) v
    | _ => d.schedAns i s v
  else d.store i s v

/-- Writes of 0x2800 to 0x28FF. -/
def Dev.apply28 (d : Dev) (i s v : Nat) : Ans :=
  match key i s with
  | 0x2800_00 => d.modeAns 0x2800_00 v
  | 0x2801_03 => d.streamResetAns v
  | _ => d.store i s v

/-! ### Chapter 09 -/

/-- The value that an object has, or will have once the writes that wait for a window have taken effect. -/
def Dev.written (d : Dev) (k : Nat) : Nat :=
  match (d.arb.waiting ++ d.tk.ana.gov.waiting).find? (·.1 = k) with
  | some x => x.2
  | none => d.get k

/-- A setting that takes effect at the next window opening of its arbiter (R313). -/
def Dev.windowAns (d : Dev) (k v : Nat) : Ans :=
  ok { d with arb := { d.arb with waiting := d.arb.waiting.filter (·.1 != k) ++ [(k, v)] } }

/-- A setting that takes effect at the next energy window (R490). -/
def Dev.govAns (d : Dev) (k v : Nat) : Ans :=
  ok (d.modGov fun g => { g with waiting := g.waiting.filter (·.1 != k) ++ [(k, v)] })

/-- The sum of the Quotas from index `first` on, `n` of them, with one replaced. -/
def Dev.quotaSum (d : Dev) (first n k v : Nat) : Nat :=
  ((List.range n).map fun x => let q := key (first + x) 1; if q = k then v else d.written q).sum

/-- Is a memory-port source one whose Quota the governor writes (R309, R487)? -/
def governed (s : Nat) : Bool := 2 ≤ s && s ≤ 5

/-- Settings of an arbiter: its window, and its sources' Quota, CarryMax, WaitLimit (R309, R312, R313, R324, R490). -/
def Dev.arbiterAns (d : Dev) (first n window rate i s v : Nat) : Ans :=
  let k := key i s
  let mem := first = 0x2909
  if k = window then guardAns (d.quotaSum first n 0 0 ≤ rate * v) d .range (d.windowAns k v)
  else match s with
    | 1 =>
      if rate * d.written window < d.quotaSum first n k v then fail d .range
      else if mem && d.fabricHost then d.govAns k v
      else if mem && governed (i - first) then fail d .state
      else d.windowAns k v
    | 2 => d.windowAns k v
    | 3 => d.storeIf (v = 0 || (100 ≤ v && v ≤ 1000000)) i s v
    | _ => d.store i s v

/-- Writes of 0x2900 to 0x29FF. -/
def Dev.apply29 (d : Dev) (i s v : Nat) : Ans :=
  if i ≤ 0x2906 then d.arbiterAns 0x2901 6 0x2900_01 60 i s v
  else if 0x2908 ≤ i && i ≤ 0x2910 then d.arbiterAns 0x2909 8 0x2908_01 12800 i s v
  else if 0x2920 ≤ i && i ≤ 0x2926 && s = 1 then d.schedModeAns (i - 0x2920) v
  else if i = 0x2930 || i = 0x2931 then d.weightAns i s v
  else if 0x2940 ≤ i && i ≤ 0x2977 then d.shaperAns (i - 0x2940) s v
  else if 0x2981 ≤ i && i ≤ 0x2984 then d.profileAns i s v
  else d.store i s v

/-! ### Chapters 10 and 11 -/

/-- Writes of a Stem end's object (R348, R370). -/
def Dev.stemAns (d : Dev) (e : StemId) (i s v : Nat) : Ans :=
  match s with
  | 1 => d.stemEnableAns e v
  | 4 => d.stemResetAns e v
  | _ => d.store i s v

/-- A write of the torus's size (0x3100, subs 02 to 04; R375). -/
def Dev.sizeAns (d : Dev) (s v : Nat) : Ans :=
  if (List.range 6).all fun p => d.portState p = 0 then ok (d.set (key 0x3100 s) v).checkTorus else fail d .state

/-- A write of a fence object waits for a boundary of the reference window (R415). -/
def Dev.fenceAns (d : Dev) (i s v : Nat) : Ans :=
  let k := key i s
  if s = 1 && !v.testBit 0 then fail d .range
  else if d.hasWindows then ok (d.modFab fun f => { f with fences := f.fences.filter (·.1 != k) ++ [(k, v)] })
  else ok (Dev.set (d.modFab fun f => { f with fences := f.fences.filter (·.1 != k) }) k v)

/-- A write of `StemPartitions` (R415). -/
def Dev.stemPartitionsAns (d : Dev) (bs : Bytes) : Ans :=
  if bs.length != 256 then fail d .typeLength
  else if d.hasWindows then ok (d.modFab fun f => { f with fenceBlob := some bs })
  else (d.modFab fun f => { f with fenceBlob := none }).storeBlob 0x3127 0 bs

/-- A write of `LaserEnable` (R386, R639). -/
def Dev.laserAns (d : Dev) (p v : Nat) : Ans :=
  (d.emit (.pin .laserEn p (b2n (v = 1 && !d.tk.tripped)))).portEnableAns p (key (0x3110 + p) 1) v

/-- Writes of 0x3000 to 0x31FF and of 0x6500 to 0x65FF. -/
def Dev.applyLinks (d : Dev) (i s v : Nat) (bs : Bytes) : Ans :=
  if i = 0x3001 then d.stemAns (.leaf d.leafId) i s v
  else if 0x6500 ≤ i then d.stemAns (.trunk (i - 0x6500)) i s v
  else if i = 0x3100 && 2 ≤ s && s ≤ 4 then d.sizeAns s v
  else if 0x3101 ≤ i && i ≤ 0x3106 && s = 1 then d.portEnableAns (i - 0x3101) (portKey (i - 0x3101) 1) v
  else if 0x3101 ≤ i && i ≤ 0x3106 && s = 5 then d.portResetAns (i - 0x3101) v
  else if 0x3110 ≤ i && i ≤ 0x3115 then d.laserAns (i - 0x3110) v
  else if 0x3120 ≤ i && i ≤ 0x3126 then d.fenceAns i s v
  else if i = 0x3127 then d.stemPartitionsAns bs
  else d.store i s v

/-! ### Chapters 12 and 13 -/

/-- Writes of 0x3200 to 0x32FF. -/
def Dev.apply32 (d : Dev) (i s v : Nat) (bs : Bytes) : Ans :=
  match key i s with
  | 0x3200_00 => d.modeAns 0x3200_00 v
  | 0x3202_00 => d.groupSetupAns bs
  | 0x3203_00 => d.groupTeardownAns (v % 4096)
  | 0x3204_00 => d.memberAns v
  | 0x3205_00 => d.fleetTriggerAns (v % 4096)
  | _ => d.store i s v

/-- A write of a class's ReservePct or QuotaPct (R476): RECORDER's are RO. -/
def Dev.pctAns (d : Dev) (i s v : Nat) : Ans :=
  let d' := d.set (key i s) v
  let reserves := ((List.range 6).map fun c => d'.get (key (0x4021 + c) 1)).sum
  if i = 0x4023 then fail d .readOnly
  else guardAns (reserves ≤ 100 && d'.get (key i 1) ≤ d'.get (key i 2)) d .range (ok d')

/-- A setting of the governor that software writes in HOST mode only (R490). -/
def Dev.hostAns (d : Dev) (c : Bool) (i s v : Nat) : Ans :=
  if !c then fail d .range else if !d.fabricHost then fail d .state else d.govAns (key i s) v

/-- A write of a ring's settings (R467). -/
def Dev.ringAns (d : Dev) (i s v : Nat) : Ans :=
  let r := i - 0x4040
  let inRuntime := sharedBase + 0x1000000 ≤ v && v < sharedBase + 0x1800000
  let range := match s with
    | 1 => v ≤ 0xA
    | 2 => v = 0 || (v % 64 = 0 && inRuntime)
    | 3 => powerOfTwo v && 16 ≤ v && v ≤ 65536
    | 4 | 5 => v < 16384
    | _ => true
  let anew (d : Dev) : Dev :=
    if (s = 4 || s = 5) && (d.ring r).taken.isEmpty then d.modRing r fun g => { g with next := none } else d
  if !range then fail d .range
  else if s = 1 && (d.get (ringKey r 7) != 0 || d.ringP r != d.ringD r) then fail d .state
  else ok (anew (d.set (key i s) v))

/-- Writes of 0x4000 to 0x40FF. A ring's `Reset` is served by RING_RESET. -/
def Dev.apply40 (d : Dev) (i s v : Nat) : Ans :=
  if 0x4011 ≤ i && i ≤ 0x4016 then d.hostAns true i s v
  else if i = 0x4018 then d.storeIf (v = 0 || (8 ≤ v && v ≤ 0x77)) i s v
  else if 0x4021 ≤ i && i ≤ 0x4026 then d.pctAns i s v
  else if 0x4040 ≤ i && i ≤ 0x407F then
    if s = 0xA then cmdOne d v (ok (d.resetRing [] (i - 0x4040)).1) else d.ringAns i s v
  else match key i s with
  | 0x4000_00 => d.modeAns 0x4000_00 v
  | 0x4001_06 => d.storeIf (v ≤ 16320) i s v
  | 0x4004_03 => d.syncAddAns v
  | 0x4010_04 => d.storeIf (100 ≤ v && v ≤ d.get 0x4010_01) i s v
  | 0x4010_0C => d.hostAns true i s v
  | 0x4010_0D => d.hostAns (1 ≤ v && v ≤ d.get 0x4010_0E) i s v
  | 0x4020_04 => d.storeIf (v < 16384) i s v
  | 0x4030_0A => d.leaseRecallAns v
  | _ => d.store i s v

/-! ### Chapters 14 to 17 -/

/-- Are the entries of `Metrics` of a slot in range (0x41C0 + n, sub 02)? -/
def Dev.metricsOk (d : Dev) (n : Nat) (bs : Bytes) : Bool :=
  (metricsOf bs).all fun m =>
    1 ≤ m.alpha && m.alpha ≤ 16 && m.target ≤ 65536 && ((d.slotFields n)[m.field]?).any (·.op = 5)

/-- Writes of 0x4100 to 0x42FF. -/
def Dev.apply41 (d : Dev) (i s v : Nat) (bs : Bytes) : Ans :=
  if i = 0x4100 then d.modeAns 0x4100_00 v
  else if i = 0x4200 then d.modeAns 0x4200_00 v
  else if 0x4180 ≤ i && i ≤ 0x41BF then match s with
    | 3 => d.storeIf (!(pacingTaps v).isEmpty) i s v
    | 5 => d.storeIf (powerOfTwo v) i s v
    | 0x11 => d.applyAns (i - 0x4180) v
    | _ => d.store i s v
  else if 0x41C0 ≤ i && i ≤ 0x41FF && s = 2 then
    if bs.length % 16 != 0 then fail d .typeLength
    else guardAns (d.metricsOk (i - 0x41C0) bs) d .range (d.storeEntries i s 3 4 bs)
  else d.store i s v

/-- The number formats of R538. -/
def formatCode (v : Nat) : Bool := inFmt v || v = 0x10

/-- A write of a profile (R538, R554). -/
def Dev.recompProfileAns (d : Dev) (i s v : Nat) : Ans :=
  let range := match s with
    | 1 | 2 => inFmt v
    | 0xF | 0x10 => formatCode v
    | 0x17 => field v 30 23 != 255 && (!v.testBit 31 || v = 2 ^ 31)
    | _ => true
  let named := (List.range 16).any fun n => d.on (polKey n 1) && d.get (polKey n 4) = i - 0x4310
  if !range then fail d .range else if named then fail d .state else d.store i s v

/-- A write of a policy (R550, R555, R561). -/
def Dev.policySetAns (d : Dev) (i s v : Nat) (bs : Bytes) : Ans :=
  let on := d.on (key i 1)
  match s with
  | 1 => d.policyAns (i - 0x4320) v
  | 0xC =>
    if bs.length != 96 then fail d .typeLength else if on then fail d .state else d.storeEntries i s 12 16 bs
  | 0x15 =>
    if bs.length != 32 then fail d .typeLength else if on then fail d .state else d.storeEntries i s 12 16 bs
  | 0xD => if v > 15 && v != 0xFF then fail d .range else if on then fail d .state else d.store i s v
  | _ => if on then fail d .state else d.store i s v

/-- Writes of 0x4300 to 0x43FF. -/
def Dev.apply43 (d : Dev) (i s v : Nat) (bs : Bytes) : Ans :=
  if i = 0x4300 then d.modeAns 0x4300_00 v
  else if 0x4310 ≤ i && i ≤ 0x431F then d.recompProfileAns i s v
  else if 0x4320 ≤ i && i ≤ 0x432F then d.policySetAns i s v bs
  else if 0x4340 ≤ i && i ≤ 0x4343 then
    if s = 1 then d.weightDigestAns (i - 0x4340) v
    else guardAns (!d.on (key i 1)) d .state (d.store i s v)
  else d.store i s v

/-- Writes of 0x4400 to 0x44FF. -/
def Dev.apply44 (d : Dev) (i s v : Nat) (bs : Bytes) : Ans :=
  if i = 0x4400 then d.modeAns 0x4400_00 v
  else if i = 0x4401 && s = 7 then d.runTestAns v
  else if i = 0x4402 then d.packAns bs
  else if i = 0x4408 then d.storeIf (v < d.cfg.taps.length) i s v
  else if 0x4420 ≤ i && i ≤ 0x442F then
    if s = 1 then d.pairAns (i - 0x4420) v else guardAns (!d.on (key i 1)) d .state (d.store i s v)
  else d.store i s v

/-! ### All of them -/

/-- What a write of a value that fits its object's type and range does: to an RWC object (R26), to a result's Ack (R39), or as
the object's chapter says. -/
def Dev.applyObject (d : Dev) (i s v : Nat) (bs : Bytes) : Ans :=
  match d.cfg.rowOf i s with
  | none => fail d .noSubindex
  | some r =>
    if r.acc = .rwc then ok (d.clearFlags (key i s) v)
    else if r.acc = .wo then d.ackAns i v
    else match i / 256 with
    | 0x11 => d.apply11 i s v
    | 0x20 => d.apply20 i s v
    | 0x21 | 0x22 | 0x23 => d.applyTaps i s v
    | 0x24 => d.apply24 i s v
    | 0x25 => d.apply25 i s v
    | 0x26 => d.apply26 i s v bs
    | 0x27 => d.apply27 i s v bs
    | 0x28 => d.apply28 i s v
    | 0x29 => d.apply29 i s v
    | 0x64 => d.profileAns i s v
    | 0x30 | 0x31 | 0x65 => d.applyLinks i s v bs
    | 0x32 => d.apply32 i s v bs
    | 0x40 => d.apply40 i s v
    | 0x41 | 0x42 => d.apply41 i s v bs
    | 0x43 => d.apply43 i s v bs
    | 0x44 => d.apply44 i s v bs
    | _ => d.store i s v

end Sys2Proof.Machine
end

