-- ==== Sys2Proof/Machine/Firmware.lean ====
section
/-! DEFINITION. Images and their checks (R595 to R598), what a reset restores and what survives it (R29, R633 to R636), running
an image, and the loader of a trunk (R604 to R607). -/

namespace Sys2Proof.Machine

open Sys2Proof

/-! ### Checks of an image -/

/-- Are the reserved fields of a header 0 (R596)? -/
def reservedOk (b : Bytes) : Bool :=
  natAt b 15 1 = 0 && natAt b 18 2 = 0 && natAt b 28 4 = 0 && (bytesAt b 272 240).all (· = 0)

/-- The message that an image's Digest and Signature cover (R596, R597). -/
def signedPart (b : Bytes) : Bytes := bytesAt b 0 128 ++ bytesAt b 512 (natAt b 20 4)

/-- Is a PublicKey one whose digest is fused and not revoked (R597)? -/
def Cfg.knownKey (c : Cfg) (pub : Bytes) : Bool :=
  let h := sha384 pub
  (c.keyDigests.zipIdx).any fun (x : Bytes × Nat) =>
    x.2 < 2 && !c.keyRevoked.testBit x.2 && x.1 != zeros 48 && x.1 = h

/-- The first check that an image for a slot of type `t` fails, by its code of R598; 0 for none. -/
def Cfg.imageFault (c : Cfg) (t : Nat) (b : Bytes) : Nat :=
  if !magicOk b || natAt b 4 1 != 1 || natAt b 5 1 != t || natAt b 20 4 > bodyMax t || !reservedOk b then 1
  else if natAt b 16 2 > c.designRevision then 2
  else if !c.knownKey (bytesAt b 32 96) then 3
  else if sha384 (signedPart b) != bytesAt b 128 48 then 4
  else if !ecdsaVerify (bytesAt b 32 96) (signedPart b) (bytesAt b 176 96) then 5
  else 0

/-- The reason why a unit does not start its management image, in the order of R598; 0 for none. -/
def Dev.bootFault (d : Dev) (t : Nat) (b : Bytes) : Nat :=
  let r := d.cfg.imageFault t b
  if r != 0 then r else if d.get 0x1801_03 ≥ 3 then 6 else if d.boot.strap then 7 else 0

/-- The type of a unit's own management image. -/
def Dev.mgmtType (d : Dev) : Nat := if d.isTrunk then 2 else 1

/-- The objects of an image that runs (R649). -/
def Dev.reportImage (d : Dev) (t : Nat) (b : Bytes) : Dev :=
  ((d.set (key (0x1810 + t) 1) (imageVersion b)).set (key (0x1810 + t) 2) (imageLevels b)).set (key (0x1810 + t) 4) 0

/-- A unit starts its management image (R600, R601): it serves the image's dictionary (R648) at the image's levels (R613). -/
def Dev.runImage (d : Dev) (b : Bytes) : Dev :=
  let d := { d with boot := { d.boot with rom := false, fetch := [] } }
  let d := (d.set 0x1801_01 0).set 0x1801_04 d.now
  let d := ((d.set 0x1001_01 (natAt b 13 1)).set 0x1001_02 (natAt b 14 1)).set 0x3000_01 (natAt b 10 1)
  let d := if d.isTrunk then d.set 0x3100_05 (natAt b 11 1) else d
  d.reportImage d.mgmtType b

/-- A unit enters Quickset mode (R608). -/
def Dev.enterQuickset (d : Dev) (reason : Nat) : Dev :=
  let d := { d with boot := { d.boot with rom := false, fetch := [] } }
  (d.set 0x1801_01 1).set 0x1801_02 reason

/-- Does firmware run: the unit has booted, and not into Quickset mode? -/
def Dev.running (d : Dev) : Bool := !d.boot.rom && !d.quickset

/-! ### Resets -/

/-- The leaf ROM's READ of its image at an Offset (R601). -/
def Dev.fetchAt (d : Dev) (offset : Nat) : Dev :=
  let (txn, d) := d.nextTxn
  let r : Resp := { opcode := 1, txn := txn, dest := 0x400000, source := 0x200000 + d.get 0x1100_01, index := 0x1821
                    offset := offset, length := 1024 }
  ((d.noteAsked r none).emit (.request .service 0 r)).sendEther .service 0 segmentMac r

/-- The outputs of a unit in reset and right after it (R635, R636, R639, R643): low, but for region_off, which follows the
regulator faults, and THERMTRIP, which holds until RESET_N. -/
def Dev.resetOutputs (d : Dev) (faults : Nat → Bool) : Dev :=
  let low (p : Pin) (n : Nat) (d : Dev) : Dev := d.emit (.pin p n 0)
  if d.isTrunk then
    ((List.range 6).foldl (fun (d : Dev) p => low .laserEn p d) d).emit (.pin .thermtrip 0 (b2n d.tk.tripped))
  else
    let taps := if d.cfg.fieldTest then d.cfg.taps.length else 0
    let d := (List.range taps).foldl (fun (d : Dev) t =>
      low .ftAbort t (low .ftSeed t (low .ftKernel t (low .ftTake t d)))) d
    let d := low .shedCluster 0 (low .shedReq 0 d)
    (List.range d.cfg.powerRegions).foldl (fun (d : Dev) r =>
      (low .stageDeny r (low .stageGrant r d)).emit (.pin .regionOff r (b2n (faults r)))) d

/-- An image update at work ends where it stands: the sector being programmed holds nothing that can be relied on (R607,
R635). -/
def Dev.tornUpdate (d : Dev) : Dev :=
  let t := d.get 0x1802_01
  let k := d.get 0x1802_06 / 65536
  if d.isTrunk && d.get 0x1802_05 = 2 then d.putSector t k (Config.tornSector t k d.now) else d

/-- What an object that survives resets holds after one of a cause (R608, R633): nothing survives POWER_ON. -/
def Dev.survives (d : Dev) (cause k : Nat) (more : Bool) : Nat :=
  if cause = 0 then 0 else (if more then d.inc k else d).get k

/-- A unit reset (R29, R634, R635): the unit is fresh but for what survives: board flash with the commit area, the image
slots and the configuration image, the reset counts of 0x1002 and 0x1801, a thermal trip until RESET_N, and the levels of
inputs. A leaf's ROM begins its fetch; a trunk that Layering resets enters TRUNK_REBOOT (R617). -/
def Dev.resetUnit (d : Dev) (cause : Nat) : Dev :=
  let d := d.tornUpdate
  let trip := d.tk.tripped
  let pin := cause ≤ 1
  let regions := (List.range d.cfg.regionCount).map fun r => ({ powered := (d.regionAt r).powered } : Region)
  let n := Dev.fresh d.cfg
  let n := { n with
    rcd := { n.rcd with halves := d.rcd.halves }
    tap := { n.tap with regions := regions }
    tk := { n.tk with flash := d.tk.flash, tripped := trip && !pin }
    boot := { strap := d.boot.strap }
    out := d.out }
  let n := n.set 0x1002_01 (if cause = 1 && trip then 5 else cause)
  let n := n.set 0x1002_02 (d.survives cause 0x1002_02 true)
  let n := n.set 0x1002_03 (d.survives cause 0x1002_03 false)
  let n := n.set 0x1801_02 (d.survives cause 0x1801_02 false)
  let n := n.set 0x1801_03 (d.survives cause 0x1801_03 (cause = 3 || cause = 4))
  let n := n.resetOutputs d.faulted
  if !n.isTrunk then n.fetchAt 0 else if n.tk.flash.layer then n.set 0x1803_02 1 else n

/-- A write that resets the unit: no response follows it. -/
def Dev.resetAns (d : Dev) (cause : Nat) : Ans := { dev := d.resetUnit cause, wait := true }

/-- A write to `UnitReset` (0x1801.06). -/
def Dev.unitResetAns (d : Dev) (v : Nat) : Ans := guardAns (v = 0x746F6F62) d .range (d.resetAns 2)

/-! ### The loader -/

/-- The loader's state changed. -/
def Dev.modLoad (d : Dev) (f : LoadSt → LoadSt) : Dev := { d with tk := { d.tk with load := f d.tk.load } }

/-- Is `UpdateMode` HOST? -/
def Dev.updateHost (d : Dev) : Bool := d.get 0x1800_00 = 1

/-- Is the loader programming (R606)? -/
def Dev.writing (d : Dev) : Bool := d.get 0x1802_05 = 2

/-- The stage is discarded and its pages are freed. -/
def Dev.freeStage (d : Dev) : Dev :=
  let d := match d.tk.load.handle with
    | some h => d.freeRun h
    | none => d
  (d.modLoad fun x => { x with handle := none }).setBlob 0x1802_02 []

/-- A write of `Target` (R604, R607). -/
def Dev.targetAns (d : Dev) (v : Nat) : Ans :=
  if d.writing then fail d .state
  else
    let d := d.freeStage
    let parts := d.srv.partials.filter fun p => !(p.index = 0x1802 && p.sub = 2)
    let d := { d with srv := { d.srv with partials := parts } }
    ok (((d.set 0x1802_01 v).set 0x1802_05 1).set 0x1802_06 0)

/-- A write of `Stage` that has come whole (R604, R605, R607). -/
def Dev.stageAns (d : Dev) (bs : Bytes) : Ans :=
  if d.updateHost || d.writing then fail d .state else ok (d.setBlob 0x1802_02 bs)

/-- The first segment of a stage allocates its pages in class MODELS (R604): none if that fails. -/
def Dev.stageAlloc (d : Dev) (count : Nat) : Option Dev :=
  let d := d.freeStage
  match d.poolAlloc 4 0 (max 1 ((count + pageBytes - 1) / pageBytes)) 0 with
  | (.ok r, d) => some (d.modLoad fun x => { x with handle := some r.handle })
  | (.error _, _) => none

/-- A write of `Commit` (R604, R605, R607): WRITING begins. -/
def Dev.commitAns (d : Dev) (v : Nat) : Ans :=
  let b := d.blob 0x1802_02
  let t := d.get 0x1802_01
  if v != 1 then fail d .range
  else if d.updateHost || d.writing then fail d .state
  else if t = 0 || natAt b 5 1 != t || b.length != 512 + natAt b 20 4 then fail d .range
  else
    let d := d.modLoad fun x =>
      { x with image := b, differs := false, written := x.written.filter (· != t), open_ := t :: x.open_.filter (· != t) }
    ok ((d.set 0x1802_05 2).set 0x1802_06 0)

/-- An update ends: WRITTEN, or FAILED (R604, R605). -/
def Dev.endUpdate (d : Dev) (failed : Bool) : Dev :=
  let t := d.get 0x1802_01
  if failed then d.set 0x1802_05 4
  else (d.modLoad fun x => { x with written := t :: x.written.filter (· != t), open_ := x.open_.filter (· != t) }).set 0x1802_05 3

/-- The next sector of an update is programmed and read back; after the last the stage is freed (R604). -/
def Dev.programSector (d : Dev) (same : Bool) : Dev :=
  let t := d.get 0x1802_01
  let n := d.get 0x1802_06
  let b := (d.tk.load.image.drop n).take 65536
  let d := d.putSector t (n / 65536) (if same then b else Config.tornSector t (n / 65536) d.now)
  let d := (d.modLoad fun x => { x with differs := x.differs || !same }).set 0x1802_06 (n + b.length)
  if n + b.length < d.tk.load.image.length then d
  else (d.freeStage.modLoad fun x => { x with image := [] }).endUpdate d.tk.load.differs

/-- SECTOR_WRITTEN (R604). -/
def execSectorWritten (same : Bool) (s : State) : Host.Outcome State Fault Refusal :=
  s.onTrunk fun d => if d.writing then d.programSector same else d

/-- A write of `Block` in HOST mode (R605): `same` tells whether the read-back agrees. -/
def Dev.blockAns (d : Dev) (bs : Bytes) (same : Bool) : Ans :=
  let t := d.get 0x1802_01
  let off := natAt bs 0 4
  let data := bs.drop 8
  if !d.updateHost || d.writing then fail d .state
  else if t = 0 then fail d .range
  else if bs.length ≤ 8 && bs.all (· = 0) then ok (d.endUpdate false)
  else if bs.length < 16 || data.length > 65536 || data.length % 8 != 0 then fail d .typeLength
  else if off % 65536 != 0 || off + data.length > slotSize t || crc32c data != natAt bs 4 4 then fail d .range
  else
    let d := d.modLoad fun x => { x with written := x.written.filter (· != t), open_ := t :: x.open_.filter (· != t) }
    if same then ok ((d.putSector t (off / 65536) data).add 0x1802_06 data.length)
    else fail ((d.putSector t (off / 65536) (Config.tornSector t (off / 65536) d.now)).endUpdate true) .internal

/-! ### Layering's start, and the push of an image -/

/-- The layering state changed. -/
def Dev.modLayer (d : Dev) (f : LayerSt → LayerSt) : Dev := { d with tk := { d.tk with layer := f d.tk.layer } }

/-- The groups of a leaf at this trunk: those of ACTIVE slots that have it as a member. -/
def Dev.groupsOf (d : Dev) (port : Nat) : List Nat :=
  (slotNos.filter fun n => d.slotState n = 2 && (d.slot n).members.any fun m => m.port = port && m.until_.isNone).map
    fun n => d.get (slotKey n 2)

/-- The trunk writes `MemberChange` for the groups of the current leaf (R448, R617): JOIN 1, LEAVE 2. -/
def Dev.layerChange (d : Dev) (op port : Nat) (groups : List Nat) : Dev :=
  groups.foldl (fun (d : Dev) g => (d.memberAns (op * 2 ^ 36 + g * 2 ^ 24 + d.leafAddress port)).dev) d

/-- Layering turns to the next leaf, or is done (R617). -/
def Dev.layerNext (d : Dev) : Dev :=
  match d.tk.layer.todo with
  | [] => (d.set 0x1803_02 4).set 0x1803_03 0xFF
  | p :: rest =>
    let groups := d.groupsOf p
    let d := (d.modLayer fun x => { x with todo := rest, phase := .leaving, groups := groups }).set 0x1803_03 p
    d.layerChange 2 p groups

/-- A write of `LayerStart` (R607, R617): the first phase records TRUNK_REBOOT and resets the trunk. -/
def Dev.layerStartAns (d : Dev) (v : Nat) : Ans :=
  let x := d.tk.load
  if v != 1 && v != 2 then fail d .range
  else if d.updateHost || d.writing then fail d .state
  else if d.get 0x1803_02 = 3 then fail d .busy
  else if v = 1 then
    if !x.written.contains 2 || [2, 3, 4, 5].any x.open_.contains then fail d .state
    else Dev.resetAns { d with tk := { d.tk with flash := { d.tk.flash with layer := true } } } 2
  else if d.get 0x1803_02 != 2 || !x.written.contains 1 then fail d .state
  else
    let todo := (List.range 256).filter d.stemUp
    ok (((d.modLayer fun x => { x with todo := todo }).set 0x1803_02 3).set 0x1803_04 0).layerNext

/-- The WRITE messages that carry a DOMAIN's value bytes in segments (R46): offset, bytes, LAST. -/
def writeSegments (bs : Bytes) : List (Nat × Bytes × Bool) :=
  (chunksOf (bs.length / 1024 + 1) 0 bs).map fun c => (c.1, c.2.1, !c.2.2)

/-- The trunk writes its stored LEAF_MGMT image to `QuicksetImage` of a drop (R612). -/
def Dev.pushImage (d : Dev) (segment drop : Nat) : Dev :=
  let b := d.storedImage 1
  (writeSegments (leBytes 4 b.length ++ b)).foldl (fun (d : Dev) c =>
    let (txn, d) := d.nextTxn
    let r : Resp := { opcode := 2, txn := txn, dest := 0x400000, source := d.address, index := 0x1830
                      flags := if c.2.2 then 2 else 0, offset := c.1, length := c.2.1.length, data := c.2.1 }
    (d.noteAsked r (some (segment, drop))).sendDrop segment drop r) d

/-- A write of `QuicksetPush` (0x1803.07). -/
def Dev.pushAns (d : Dev) (v : Nat) : Ans :=
  let drop := v % 32
  if drop = 0 || drop > 16 then fail d .range else ok (d.pushImage (field v 11 8) drop)

/-! ### Writes of chapter 18 -/

/-- Writes of 0x1800 to 0x18FF. -/
def Dev.apply18 (d : Dev) (i s v : Nat) (bs : Bytes) : Ans :=
  match key i s with
  | 0x1800_00 => d.modeAns 0x1800_00 v
  | 0x1801_06 => d.unitResetAns v
  | 0x1802_01 => d.targetAns v
  | 0x1802_02 => d.stageAns bs
  | 0x1802_03 => d.commitAns v
  | 0x1802_04 => d.blockAns bs true
  | 0x1803_01 => d.layerStartAns v
  | 0x1803_07 => d.pushAns v
  | 0x1804_00 => ok (d.clearFlags 0x1804_00 v)
  | _ => d.store i s v

/-- What a write of any object does. -/
def Dev.applyAny (d : Dev) (i s v : Nat) (bs : Bytes) : Ans :=
  if i / 256 = 0x18 then d.apply18 i s v bs else d.applyObject i s v bs

/-- TARGET_WRITE (R604). -/
def execTargetWrite (e : Env) (value : Nat) (s : State) : Host.Outcome State Fault Refusal :=
  s.onTrunk fun d => d.serveWrite e 0x1802 1 value fun d v _ => d.targetAns v

/-- COMMIT (R604). -/
def execCommit (e : Env) (value : Nat) (s : State) : Host.Outcome State Fault Refusal :=
  s.onTrunk fun d => d.serveWrite e 0x1802 3 value fun d v _ => d.commitAns v

/-- BLOCK (R605). -/
def execBlock (e : Env) (data : Bytes) (same : Bool) (s : State) : Host.Outcome State Fault Refusal :=
  s.onTrunk fun d => d.serveDomain e 0x1802 4 data fun d bs => d.blockAns bs same

/-- BLOCK_FINISH (R605): a write of 0 with no data bytes. -/
def execBlockFinish (e : Env) (s : State) : Host.Outcome State Fault Refusal :=
  s.onTrunk fun d => d.serveDomain e 0x1802 4 (zeros 8) fun d bs => d.blockAns bs true

/-! ### The configuration image (R29, R31, R615) -/

/-- A SAVED value is loaded (R29): as a write of it is applied, and in any case into the object. -/
def Dev.loadValue (d : Dev) (x : Nat × Bytes) : Dev :=
  let k := x.1
  match d.cfg.rowOf (k / 256) (k % 256) with
  | none => d
  | some r =>
    let a := d.applyAny (k / 256) (k % 256) (leNat x.2) (if r.ty.isBlob then x.2 else [])
    if a.abort = 0 then a.dev else if r.ty.isBlob then d.setBlob k x.2 else d.set k (leNat x.2)

/-- Is an object of a unit SAVED? -/
def Cfg.isSaved (c : Cfg) (k : Nat) : Bool := (c.rowOf (k / 256) (k % 256)).any (·.saved)

/-- The SAVED values of a unit that it holds other than by default, as transferred. -/
def Dev.savedVals (d : Dev) : List (Nat × Bytes) :=
  let width (k : Nat) : Nat := d.cfg.width k / 8
  ((d.objs.filter fun (x : Nat × Word) => d.cfg.isSaved x.1).map fun x => (x.1, leBytes (width x.1) x.2.toNat)) ++
  (d.blobs.filter fun (x : Nat × Bytes) => d.cfg.isSaved x.1)

/-- A trunk commits the SAVED values of a unit to its configuration image, all of them or none (R31, R615). -/
def Dev.commitConf (d : Dev) (c : ConfEnt) : Dev :=
  let conf := d.tk.flash.conf.filter (·.unit != c.unit) ++ [c]
  { d with tk := { d.tk with flash := { d.tk.flash with conf := conf } } }

/-- The values in the configuration image for a unit of a DictMajor; other units run on defaults, and the trunk sets
DICT_MAJOR_MISMATCH (R615). -/
def Dev.restoreWith (d : Dev) (unit major : Nat) (f : Dev → Nat × Bytes → Dev) : Dev :=
  match d.tk.flash.conf.find? (·.unit = unit) with
  | none => d
  | some c => if c.major = major then c.vals.foldl f d else d.flag 0x1804 4

/-- The trunk writes a DOMAIN of the leaf on a Stem port, in segments (R46). -/
def Dev.writeLeafDomain (d : Dev) (port i s : Nat) (b : Bytes) : Dev :=
  (writeSegments (leBytes 4 b.length ++ b)).foldl (fun (d : Dev) c =>
    let (txn, d) := d.nextTxn
    d.toLeaf port 0x03 (sdpBytes
      { opcode := 2, txn := txn, dest := d.leafAddress port, source := d.address, index := i, sub := s
        flags := if c.2.2 then 2 else 0, offset := c.1, length := c.2.1.length, data := c.2.1 })) d

/-- The trunk writes a stored value to the leaf on a Stem port (R33). -/
def Dev.restoreToLeaf (port : Nat) (d : Dev) (x : Nat × Bytes) : Dev :=
  let i := x.1 / 256
  let s := x.1 % 256
  if (leafCfg.rowOf i s).any (·.ty.isBlob) then d.writeLeafDomain port i s x.2
  else d.writeLeaf port i s x.2.length (leNat x.2)

/-- The trunk writes the test pack that it has loaded, if any, to a leaf that has booted (R575, R595, R600). -/
def Dev.packToLeaf (d : Dev) (port : Nat) : Dev :=
  if d.get 0x1815_04 != 0 then d
  else
    let b := d.storedImage 5
    d.writeLeafDomain port 0x4402 0 (bytesAt b 512 (natAt b 20 4))

end Sys2Proof.Machine
end

