-- ==== Sys2Proof/Machine/Layering.lean ====
section
/-! DEFINITION. Boot and fetch (R600 to R602), Quickset mode (R608 to R612), the watchdog, Layering (R616 to R618), and the
resets and faults of chapter 19. -/

namespace Sys2Proof.Machine

open Sys2Proof

/-! ### Boot -/

/-- The runtime region of shared memory (R459). -/
def runtimeBase : Nat := sharedBase + 0x1000000

/-- The firmware of a trunk loads a companion image (R600, R613, R649). -/
def Dev.loadCompanion (level : Nat) (d : Dev) (t : Nat) : Dev :=
  let b := d.storedImage t
  let fits := t = 5 || natAt b 12 1 = level || natAt b 12 1 + 1 = level
  if b.isEmpty then d
  else if d.cfg.imageFault t b != 0 || !fits then (d.set (key (0x1810 + t) 4) 2).flag 0x1804 1
  else d.reportImage t b

/-- Firmware of a trunk starts: companions, its own SAVED values, and the end of TRUNK_REBOOT (R600, R615, R617). -/
def Dev.trunkRuns (d : Dev) (b : Bytes) : Dev :=
  let d := [3, 4, 5].foldl (Dev.loadCompanion (natAt b 12 1)) (d.runImage b)
  let d := (d.restoreWith d.address (d.get 0x1001_01) Dev.loadValue).holdPorts
  if d.tk.flash.layer then
    Dev.set { d with tk := { d.tk with flash := { d.tk.flash with layer := false } } } 0x1803_02 2
  else d

/-- BOOT (R600): the ROM of the trunk boots TRUNK_MGMT from its slot, or enters Quickset mode. -/
def execBoot (s : State) : Host.Outcome State Fault Refusal :=
  s.onMem fun d m =>
    if !d.boot.rom then (d, m)
    else
      let d := d.bootCommit
      let b := d.storedImage 2
      let reason := d.bootFault 2 b
      if reason != 0 then (d.enterQuickset reason, m)
      else
        let d := d.trunkRuns b
        let c := d.storedImage 3
        (d, if d.get 0x1813_04 = 0 then Mem.write m runtimeBase (bytesAt c 512 (natAt c 20 4)) else m)

/-! ### The leaf's fetch -/

/-- The leaf ROM checks what it has fetched, and starts it or enters Quickset mode (R598, R601). -/
def Dev.leafFetched (d : Dev) (b : Bytes) : Dev :=
  let reason := d.bootFault 1 b
  if reason = 0 then d.runImage b else d.enterQuickset reason

/-- IMAGE_FETCH (R601): a response to the leaf's READ at the next Offset; `more` is its MORE. -/
def execImageFetch (l : LeafId) (offset : Nat) (data : Bytes) (more : Bool) (s : State) :
    Host.Outcome State Fault Refusal :=
  s.onLeaf l fun d =>
    if !d.boot.rom || offset != d.boot.fetch.length then d
    else
      let got := d.boot.fetch ++ data
      let d := { d with boot := { d.boot with fetch := got } }
      if more then d.fetchAt got.length else d.leafFetched (got.drop 4)

/-- FETCH_RETRY (R601): after BUSY or no response, the leaf starts again from Offset 0. -/
def execFetchRetry (l : LeafId) (s : State) : Host.Outcome State Fault Refusal :=
  s.onLeaf l fun d => if d.boot.rom then Dev.fetchAt { d with boot := { d.boot with fetch := [] } } 0 else d

/-- FETCH_TIMEOUT (R601): no whole image 10 s after reset. -/
def execFetchTimeout (l : LeafId) (s : State) : Host.Outcome State Fault Refusal :=
  s.onLeaf l fun d => if d.boot.rom && d.now ≥ 10000000000 then d.enterQuickset 8 else d

/-- BOOT_ATTEMPTS_CLEAR (R608): firmware has run for 10 s. -/
def execBootAttemptsClear (u : UnitId) (s : State) : Host.Outcome State Fault Refusal :=
  s.on u fun d => if d.running && d.now ≥ d.get 0x1801_04 + 10000000000 then d.set 0x1801_03 0 else d

/-! ### The watchdog -/

/-- WATCHDOG (R609): the FATAL record, its flag, and the reset: of a trunk at once, of a leaf when its flush ends. -/
def execWatchdog (u : UnitId) (sram : Bool) (s : State) : Host.Outcome State Fault Refusal :=
  s.on u fun d =>
    if d.boot.dying.isSome || !(sram || d.running) then d
    else
      let detail := (Config.unstated 0x1801_05 d.now).toNat % 2 ^ 32
      let d := ((d.fatalFault (if sram then 1 else 2) detail).flag 0x1804 0).abandonTest
      if d.isTrunk then d.resetUnit (if sram then 4 else 3)
      else { d with boot := { d.boot with dying := some (d.now, sram) } }

/-- FLUSH_END (R229, R231, R609): a running flush that has sent all ends; so does the life of a leaf whose watchdog has
expired. -/
def execFlushEnd (l : LeafId) (s : State) : Host.Outcome State Fault Refusal :=
  s.onLeaf l fun d =>
    let d := d.offerRecord
    let d := if d.flushDone then d.endFlush else d
    match d.boot.dying with
    | some x => if d.rcd.flush.isNone then d.resetUnit (if x.2 then 4 else 3) else d
    | none => d

/-- WATCHDOG_FLUSH_LIMIT (R609): 2 ms after the record. -/
def execWatchdogFlushLimit (l : LeafId) (s : State) : Host.Outcome State Fault Refusal :=
  s.onLeaf l fun d =>
    match d.boot.dying with
    | some x => if x.1 + 2000000 ≤ d.now then d.resetUnit (if x.2 then 4 else 3) else d
    | none => d

/-! ### Quickset downloads -/

/-- An image is programmed into its slot whole. -/
def Dev.programSlot (d : Dev) (t : Nat) (b : Bytes) : Dev :=
  (List.range ((b.length + 65535) / 65536)).foldl (fun (d : Dev) k => d.putSector t k ((b.drop (65536 * k)).take 65536)) d

/-- The LAST segment of a download has come (R611): a leaf takes it on its service drop, a trunk on its service port. -/
def Dev.quicksetAns (d : Dev) (e : Env) (b : Bytes) : Ans :=
  let t := d.mgmtType
  let reason := d.cfg.imageFault t b
  if e.via != (if d.isTrunk then Via.servicePort else Via.service) then fail d .state
  else if reason != 0 then fail (d.set 0x1801_02 reason) .range
  else if d.isTrunk then (d.programSlot t b).resetAns 6
  else ok (d.runImage b)

/-- QUICKSET_IMAGE (R611). -/
def execQuicksetImage (u : UnitId) (e : Env) (image : Bytes) (s : State) : Host.Outcome State Fault Refusal :=
  s.on u fun d => d.serveDomain e 0x1830 0 image fun d bs => d.quicksetAns e bs

/-- A drop's `BootState` has been read (R612, R618): it is pushed to once per Quickset entry, and Layering halts at the leaf
it waits for. -/
def Dev.polled (d : Dev) (segment drop address state : Nat) : Dev :=
  if !(d.get (key (0x1110 + segment) 4)).testBit drop then d
  else
    let who := (segment, drop)
    let txn := d.nextTxn
    let r : Resp := { opcode := 1, txn := txn.1, dest := 0x400000, source := d.address, index := 0x1801, sub := 1, length := 1 }
    let d := (txn.2.noteAsked r (some who)).sendDrop segment drop r
    let setPushed (d : Dev) (l : List (Nat × Nat)) : Dev := { d with boot := { d.boot with pushed := l } }
    if state != 1 then setPushed d (d.boot.pushed.filter (· != who))
    else
      let port := d.get 0x1803_03
      let d := if d.layerAwaits port && address = d.leafAddress port then d.haltLayer 2 else d
      if d.boot.pushed.contains who then d else (setPushed d (d.boot.pushed ++ [who])).pushImage segment drop

/-- BOOT_STATE_POLL (R612): once per second, in HW mode. -/
def execBootStatePoll (drops : List (Nat × Nat × Nat × Nat)) (s : State) : Host.Outcome State Fault Refusal :=
  s.onTrunk fun d =>
    if !d.running || d.updateHost then d
    else (drops.filter fun (x : Nat × Nat × Nat × Nat) => x.1 < 16 && 1 ≤ x.2.1 && x.2.1 ≤ 16).foldl
      (fun (d : Dev) (x : Nat × Nat × Nat × Nat) => d.polled x.1 x.2.1 x.2.2.1 x.2.2.2) d

/-- QUICKSET_PUSH (R612). -/
def execQuicksetPush (e : Env) (value : Nat) (s : State) : Host.Outcome State Fault Refusal :=
  s.onTrunk fun d => d.serveWrite e 0x1803 7 value fun d v _ => d.pushAns v

/-! ### Layering -/

/-- LAYER_START_TRUNK (R617). -/
def execLayerStartTrunk (e : Env) (s : State) : Host.Outcome State Fault Refusal :=
  s.onTrunk fun d => d.serveWrite e 0x1803 1 1 fun d v _ => d.layerStartAns v

/-- LAYER_START_LEAVES (R617). -/
def execLayerStartLeaves (e : Env) (s : State) : Host.Outcome State Fault Refusal :=
  s.onTrunk fun d => d.serveWrite e 0x1803 1 2 fun d v _ => d.layerStartAns v

/-- Layering's leaf runs (R617, R618): with the stored version it rejoins its groups; another version halts the pod. -/
def Dev.layerRunning (d : Dev) (port version : Nat) : Dev :=
  if !d.layerAwaits port then d
  else if version != d.storedVersion 1 then d.haltLayer 3
  else (d.modLayer fun x => { x with phase := .joining }).layerChange 1 port d.tk.layer.groups

/-- LEAF_RUNNING (R33, R575, R615, R617): the trunk writes the test pack and the leaf's stored SAVED values to it. -/
def execLeafRunning (port version dictMajor : Nat) (s : State) : Host.Outcome State Fault Refusal :=
  s.onTrunk fun d =>
    if port > 255 || !d.running then d
    else ((d.packToLeaf port).restoreWith (d.leafAddress port) dictMajor (Dev.restoreToLeaf port)).layerRunning port version

/-- LEAF_BOOT_TIMEOUT (R618). -/
def execLeafBootTimeout (s : State) : Host.Outcome State Fault Refusal :=
  s.onTrunk fun d =>
    if d.get 0x1803_02 = 3 && d.tk.layer.phase = .booting && d.tk.layer.since + d.get 0x1803_05 ≤ d.now then d.haltLayer 1
    else d

/-- Have the group changes of a leaf applied: none is waiting, and the windows at which they apply have come (R448)? -/
def Dev.changesApplied (d : Dev) (port : Nat) : Bool :=
  !d.tk.red.changes.any (·.port = port) &&
  slotNos.all fun n => (d.slot n).members.all fun m => m.port != port ||
    (((m.from_).toList ++ (m.until_).toList).all fun w => d.groupTime n w ≤ d.now)

/-- Layering goes on at a tick (R617): a leaf that has left is reset; one that has rejoined is followed by the next. -/
def Dev.tickLayer (d : Dev) : Dev :=
  let p := d.get 0x1803_03
  if d.get 0x1803_02 != 3 || !d.changesApplied p then d
  else match d.tk.layer.phase with
    | .leaving => (d.modLayer fun x => { x with phase := .booting, since := d.now }).writeLeaf p 0x1801 6 4 0x746F6F62
    | .booting => d
    | .joining => (d.inc 0x1803_04).layerNext

/-! ### Resets and integration (chapter 19) -/

/-- UNIT_RESET (R633). -/
def execUnitReset (u : UnitId) (e : Env) (value : Nat) (s : State) : Host.Outcome State Fault Refusal :=
  s.on u fun d => d.serveWrite e 0x1801 6 value fun d v _ => d.unitResetAns v

/-- The level of a unit's Quickset strap is sampled (R598). -/
def Dev.strapped (d : Dev) (b : Bool) : Dev := { d with boot := { d.boot with strap := b } }

/-- POWER_ON (R633, R634): the supply comes up. A trunk's memory comes up with it, and so does the self-leaf. -/
def execPowerOn (u : UnitId) (strap : Bool) (s : State) : Host.Outcome State Fault Refusal :=
  match s.onHeld u fun d => (d.strapped strap).resetUnit 0 with
  | .next t =>
    if u = .trunk then
      match State.onHeld { t with mem := [] } (.leaf .self) fun d => d.resetUnit 0 with
      | .next t => .next t
      | o => o
    else .next t
  | o => o

/-- A unit's reset input falls or rises (R634, R635). -/
def Dev.pinReset (d : Dev) (release : Bool) : Dev :=
  if release then (if d.boot.held then d.resetUnit 1 else d)
  else if d.boot.held then d
  else Dev.resetOutputs { d with boot := { d.boot with held := true } } d.faulted

/-- PIN_RESET (R633 to R636): rst_n or RESET_N, of a trunk with its self-leaf. -/
def execPinReset (u : UnitId) (release strap : Bool) (s : State) : Host.Outcome State Fault Refusal :=
  match s.onHeld u fun d => ((if release then d.strapped strap else d).pinReset release) with
  | .next t => if u = .trunk then State.onHeld t (.leaf .self) fun d => d.pinReset release else .next t
  | o => o

/-- Has a temperature reading of a leaf reached 115 °C (R643)? -/
def Dev.tooHot (d : Dev) : Bool :=
  (List.range d.cfg.tempRegions.length).any fun n => d.getI (key (0x24A0 + n) 1) ≥ 1840

/-- A thermal trip (R643): THERMTRIP, the FATAL record, the lasers, and the links, whose clocks stop. -/
def Dev.trip (d : Dev) : Dev :=
  let open_ (k : Nat) : Nat := (Config.unstated k d.now).toNat
  let d := (d.emit (.pin .thermtrip 0 1)).fatalFault (open_ 0x1002_01 % 65536) (open_ 0x1002_03 % 2 ^ 32)
  let d := Dev.inc { d with tk := { d.tk with tripped := true } } 0x1002_03
  let d := (List.range 6).foldl (fun (d : Dev) p => (d.emit (.pin .laserEn p 0)).portDrop p 0) d
  (List.range 256).foldl (fun (d : Dev) n => d.stemDrop (.trunk n) 0) d

/-- THERMAL_TRIP (R643). -/
def execThermalTrip (s : State) : Host.Outcome State Fault Refusal :=
  s.onTrunk fun d => if d.tk.tripped || !s.self.tooHot then d else d.trip

/-- HOST_ERROR (R149): a rising edge of host error input n. -/
def execHostError (l : LeafId) (n : Nat) (s : State) : Host.Outcome State Fault Refusal :=
  s.onLeaf l fun d => if n < 16 then d.always (0x31 + n) 1 else d

/-- SERVICE_FRAME_FCS_FAIL (R149). -/
def execServiceFrameFcsFail (l : LeafId) (s : State) : Host.Outcome State Fault Refusal :=
  s.onLeaf l fun d => d.always 0x15 1

end Sys2Proof.Machine
end

