-- ==== Sys2Proof/Machine/Tick.lean ====
section
/-! DEFINITION. The sample tick (R76): what it closes of the tick before, FleetTime's advance, and what every tick does in a
leaf and in a trunk. -/

namespace Sys2Proof.Machine

open Sys2Proof

/-! ### The close of a tick -/

/-- The hub sees the cycles that powered taps have run since the tick before (R116, R124, R205). -/
def Dev.tickTaps (d : Dev) (i : TickIn) : Dev :=
  i.tapCycles.foldl (fun (d : Dev) (x : Nat × List Cycle) => if d.tapPowered x.1 then d.runCycles x.1 x.2 else d) d

/-- The gate's first deferral of a cluster's oldest request (R163). -/
def Dev.firstDeferral (d : Dev) (c : Nat) : Dev :=
  match d.deferredReq c with
  | some q =>
    if q.deferred then d
    else (d.modReq q.region fun q => { q with deferred := true }).always 0x1B 1
  | none => d

/-- The gate's evaluation of the tick is over (R163). -/
def Dev.closeGate (d : Dev) : Dev :=
  if !d.cfg.inrushGate then d
  else
    let d := (List.range d.cfg.clusters).foldl Dev.firstDeferral d
    if d.pow.pend.isEmpty then d else d.always 0x1C 1

/-- The tick's voltage readings enter the minima of the schedules' intervals (R244, R262). -/
def Dev.mergeVolts (d : Dev) : Dev :=
  let low (l : List Nat) : List Nat := (List.range d.cfg.voltRegions.length).map fun v =>
    match d.pow.volts[v]? with
    | some (some x) => min (l.getD v 0xFFFFFFFF) x
    | _ => l.getD v 0xFFFFFFFF
  { d with frm := { d.frm with scheds := d.frm.scheds.map fun (c : Sched) => { c with vmin := low c.vmin } } }

/-- The always-on counters are kept as they stand before the events of the tick, for its latches (R80, R244). -/
def Dev.keepBefore (d : Dev) : Dev :=
  { d with frm := { d.frm with aoPre := (List.range 64).map fun n => (n + 1, d.value 0x2108 (n + 1)) } }

/-! ### Clock regions -/

/-- The lost cycles of a region in a tick in which it ran `n` (R126, R127, R654). -/
def Dev.stretch (d : Dev) (r n : Nat) : Dev :=
  let x := d.regionAt r
  let mhz := d.get (key 0x2110 (r + 1))
  let acc := x.acc + mhz * 8
  let expected := if mhz = 0 then 0 else acc / 1000
  let d := d.modRegion r fun x => { x with acc := if mhz = 0 then x.acc else acc % 1000 }
  if !x.powered || x.stopped && n = 0 then d
  else if n = 0 then d.modRegion r fun x => { x with heldBack := x.heldBack + expected }
  else
    let lost := x.heldBack + (expected - n)
    let d := d.modRegion r fun x => { x with heldBack := 0 }
    if lost = 0 then d else (d.addMod (key 0x2111 (r + 1)) lost).always 0x16 lost

/-- The clock-activity monitor of a region reports the cycles of a tick (R113, R149). -/
def Dev.tickRegion (cycles : List (Nat × Nat)) (d : Dev) (r : Nat) : Dev :=
  let n := ((cycles.find? (·.1 = r)).map (·.2)).getD 0
  let x := d.regionAt r
  let d := (d.stretch r n).modRegion r fun x => { x with active := n != 0 }
  if !x.powered then d
  else if n = 0 then
    let d := d.modRegion r fun x => { x with idle := x.idle + 1, idleFrom := if x.idle = 0 then d.stamp else x.idleFrom }
    if x.stopped then d.always 0x1A 1 else d
  else d.modRegion r fun x => { x with idle := 0 }

/-! ### The inputs of a leaf -/

/-- The voltage sensors' readings (R154 to R156): none in a tick whose number a backward step repeats. -/
def Dev.tickVolts (d : Dev) (i : TickIn) : Dev :=
  let reading (v : Nat) : Option Nat := if d.time.dead then none else (i.volts.find? (·.1 = v)).bind (·.2)
  let vs := List.range d.cfg.voltRegions.length
  let d := { d with pow := { d.pow with volts := vs.map reading } }
  vs.foldl (fun (d : Dev) v => match reading v with
    | some x => d.voltReading v x
    | none => d) d

/-- At the first tick after reset region_off follows the Dark objects, and a fault still asserted starts an episode (R636). -/
def Dev.firstTick (d : Dev) (faults : BitVec 64) : Dev :=
  if !d.boot.first then d
  else
    let rs := List.range d.cfg.powerRegions
    let d := rs.foldl (fun (d : Dev) r => d.emit (.pin .regionOff r 0)) d
    rs.foldl (fun (d : Dev) r => if faults.getLsbD r then d.assertFault r else d) d

/-- The levels of the inputs of a leaf (R149, R161, R173, R572, R624). -/
def Dev.tickInputs (d : Dev) (i : TickIn) : Dev :=
  let d := ((d.always 0x17 (b2n i.throttle)).always 0x11 i.eccCorrected).always 0x12 i.eccUncorrected
  let d := d.setB 0x2406_01 i.headroom
  let head := if i.headroom then some (d.pow.headSince.getD d.stamp) else none
  let await := d.pow.awaitLow.filter i.stageReq.getLsbD
  { d with pow := { d.pow with headSince := head, awaitLow := await }, ftest := { d.ftest with offers := i.offers } }

/-- The power-fail input of a unit (R176). -/
def Dev.tickPowerFail (d : Dev) (high : Bool) : Dev :=
  { d with pow := { d.pow with pfLowSince := if high then none else some (d.pow.pfLowSince.getD d.stamp) } }

/-- The reset of the taps' tick counts, and the time since their last scan (R133, R145). -/
def Dev.tickCounts (d : Dev) : Dev :=
  let step (x : Tap × Nat) : Tap :=
    let r := d.regionAt (d.tapDesc x.2).region
    { x.1 with tickAdd := List.replicate 32 0, scanGap := x.1.scanGap + (if r.powered && !r.stopped then 8 else 0) }
  { d with tap := { d.tap with taps := d.tap.taps.zipIdx.map step } }

/-- What a tick does in a leaf once FleetTime stands at it. -/
def Dev.leafTick (d : Dev) (l : LeafId) (i : TickIn) : Dev :=
  let d := d.tickCounts
  let d := (List.range d.tap.regions.length).foldl (Dev.tickRegion i.regionCycles) d
  let d := ((d.tickVolts i).firstTick i.regFault).tickEpisodes i.regFault
  let d := (d.tickInputs i).always 0x29 (b2n d.uncertain)
  let d := d.rotateShed.tickStem (.leaf l)
  d.setB 0x2406_04 d.testAllowed

/-! ### The trunk -/

/-- The number of threads in a state: a thread that has not run is HALTED (R457). -/
def Dev.threadsIn (d : Dev) (st : ThreadState) : Nat :=
  (d.tk.ana.threads.filter fun (x : Nat × Thread) => x.2.state = st).length +
    (if st = .halted then 65536 - d.tk.ana.threads.length else 0)

/-- The thread counts and the governor's HeldTicks (0x4001, 0x4010 + c). -/
def Dev.tickFabric (d : Dev) : Dev :=
  let d := [(2, ThreadState.ready), (3, .waiting), (4, .gated), (5, .halted)].foldl
    (fun (d : Dev) (x : Nat × ThreadState) => d.set (key 0x4001 x.1) (d.threadsIn x.2)) d
  ((List.range 6).filter fun c => d.getI (govKey (c + 1) 4) ≤ 0).foldl (fun (d : Dev) c => d.inc (govKey (c + 1) 6)) d

/-- From the first tick after reset LASER_EN follows `LaserEnable` (R639). -/
def Dev.firstLasers (d : Dev) : Dev :=
  if !d.boot.first then d
  else (List.range 6).foldl (fun (d : Dev) p =>
    d.emit (.pin .laserEn p (b2n (d.on (key (0x3110 + p) 1) && !d.tk.tripped)))) d

/-- What a tick does in a trunk once FleetTime stands at it. -/
def Dev.trunkTick (d : Dev) : Dev :=
  let d := d.firstLasers.ungate.countSource.tickScheds.tickPolicers
  let d := (List.range 256).foldl (fun (d : Dev) n => d.tickStem (.trunk n)) d
  let d := (List.range 6).foldl (fun (d : Dev) p => d.tickPort p) d
  d.tickNotices.tickFabric.tickLayer.recallLow.sendKept

/-! ### SAMPLE_TICK -/

/-- The tick-count bus of the hub: a strobe and the low 8 bits of the tick number (R77). -/
def Dev.driveBus (d : Dev) : Dev := d.emit (.tickBus (d.time.tick % 256))

/-- A unit reaches its next sample tick (R73, R76). The uplink's producers have offered their transfers by the close of
the tick before, so that a head's wait counts from the tick in which it became the head (R314). -/
def Dev.tick (d : Dev) (u : UnitId) (i : TickIn) : Dev :=
  let d := (d.tickTaps i).closeGate.mergeVolts.keepBefore
  let d := match u with
    | .leaf _ => d.offer
    | .trunk => d
  let d := d.advance.tickPowerFail i.pfWarn
  let d := match u with
    | .leaf l => d.driveBus.leafTick l i
    | .trunk => d.trunkTick
  { d with boot := { d.boot with first := false } }

/-- SAMPLE_TICK (R76). In reset only region_off follows its input (R636). -/
def execSampleTick (u : UnitId) (i : TickIn) (s : State) : Host.Outcome State Fault Refusal :=
  s.onHeld u fun d =>
    if d.boot.held then
      if d.isTrunk then d
      else (List.range d.cfg.powerRegions).foldl
        (fun (d : Dev) r => d.emit (.pin .regionOff r (b2n (i.regFault.getLsbD r)))) d
    else d.tick u i

end Sys2Proof.Machine
end

