-- ==== Sys2Proof/Machine/Service.lean ====
section
/-! DEFINITION. The WRITE command (R28), and the commands that act on a whole configuration: StoreConfig (R31), RestoreDefaults
(R32) and the commit of an indirection pair (R64). -/

namespace Sys2Proof.Machine

open Sys2Proof

/-! ### StoreConfig (R31) -/

/-- What a unit stores (R31, R615). -/
def Dev.confEnt (d : Dev) : ConfEnt := { unit := d.address, major := d.get 0x1001_01, vals := d.savedVals }

/-- A write to `StoreConfig` (R31, R607): a leaf sends its values and its response waits for its trunk. One that repeats the TxnId of
a `StoreConfig` that still waits has no remembered response and fails with BUSY (log 96). -/
def Dev.storeConfigAns (d : Dev) (e : Env) (v : Nat) : Ans :=
  if v != 0x65766173 then fail d .range
  else if d.isTrunk then (if d.writing then fail d .busy else ok (d.commitConf d.confEnt))
  else if d.stemState (.leaf d.leafId) != 4 || d.unassigned then fail d .state
  else if d.srv.storing.isSome then fail d .busy
  else
    let d := { d with srv := { d.srv with storing := some { env := e, opcode := 0x02, index := 0x1010, sub := 0, time := d.now } } }
    { dev := d.emit (.config d.confEnt), wait := true }

/-- What the trunk has made of the values that a leaf has sent it (R31). -/
def Dev.storeResult (d : Dev) (abort : Nat) : Dev :=
  { d with srv := { d.srv with storing := d.srv.storing.map fun w => { w with result := some abort } } }

/-- A leaf's values reach its trunk (R31): the trunk of the model commits them, or refuses with BUSY while it is programming an
image (R607). -/
def State.stored (s : State) (u : UnitId) (o : Host.Outcome State Fault Refusal) : Host.Outcome State Fault Refusal :=
  match u, o with
  | .leaf l, .next t =>
    let d := t.dev (.leaf l)
    if (s.dev (.leaf l)).srv.storing.isSome || d.srv.storing.isNone || d.address / 256 != t.trunk.get 0x3100_01 ||
        t.trunk.boot.held then o
    else if t.trunk.writing then .next (t.setDev (d.storeResult Abort.busy.code) (.leaf l))
    else .next { t.setDev (d.storeResult 0) (.leaf l) with trunk := t.trunk.commitConf d.confEnt }
  | _, _ => o

/-- STORE_CONFIG (R31). -/
def execStoreConfig (u : UnitId) (e : Env) (value : Nat) (s : State) : Host.Outcome State Fault Refusal :=
  s.stored u (s.on u fun d => d.serveWrite e 0x1010 0 value fun d v _ => d.storeConfigAns e v)

/-- The response to a `StoreConfig` that waits (R31). -/
def Dev.confirm (d : Dev) (w : Waiting) (abort : Nat) : Dev :=
  let d := { d with srv := { d.srv with storing := none } }
  d.finish w.env w.opcode w.index w.sub 0 { dev := d, abort := abort }

/-- COMMIT_CONFIRMATION (R31): the model's trunk confirms what it has made of the values, another trunk what the confirmation
says. -/
def execCommitConfirmation (l : LeafId) (abort : Nat) (s : State) : Host.Outcome State Fault Refusal :=
  s.onLeaf l fun d =>
    match d.srv.storing with
    | some w => d.confirm w (w.result.getD abort)
    | none => d

/-- STORE_CONFIG_TIMEOUT (R31): the link has left UP, or 50 ms have passed. -/
def execStoreConfigTimeout (l : LeafId) (s : State) : Host.Outcome State Fault Refusal :=
  s.onLeaf l fun d =>
    match d.srv.storing with
    | some w =>
      if d.stemState (.leaf d.leafId) != 4 || w.time + 50000000 ≤ d.now then d.confirm w Abort.internal.code else d
    | none => d

/-! ### RestoreDefaults (R32) -/

/-- A SAVED object returns to its default: as a write of it is applied, and in any case. -/
def Dev.loadDefault (d : Dev) (k : Nat) : Dev :=
  match d.cfg.rowOf (k / 256) (k % 256) with
  | none => d
  | some r =>
    let bs := defaultBlob (k / 256) (k % 256)
    let a := d.applyAny (k / 256) (k % 256) (d.cfg.default k) bs
    if a.abort = 0 then a.dev else if r.ty.isBlob then d.setBlob k bs else d.set k (d.cfg.default k)

/-- The objects that wait for a window to take the value written to them (R9, R313, R415, R490, R658). -/
def Dev.waitingKeys (d : Dev) : List Nat :=
  d.time.modePending.map (·.1) ++ d.arb.waiting.map (·.1) ++ d.tk.ana.gov.waiting.map (·.1) ++
  d.pow.cluster.map (fun x => key (0x2450 + x.1) 2) ++ d.tk.fab.fences.map (·.1) ++
  (if d.tk.fab.fenceBlob.isSome then [0x3127_00] else [])

/-- The SAVED objects that hold, or wait to take, a value of their own. -/
def Dev.savedKeys (d : Dev) : List Nat :=
  (d.objs.map (·.1) ++ d.blobs.map (·.1) ++ d.waitingKeys).filter d.cfg.isSaved

/-- A write to `RestoreDefaults` (R32). -/
def Dev.restoreDefaultsAns (d : Dev) (v : Nat) : Ans :=
  guardAns (v = 0x64616F6C) d .range (ok (d.savedKeys.foldl Dev.loadDefault d))

/-- RESTORE_DEFAULTS (R32). -/
def execRestoreDefaults (u : UnitId) (e : Env) (value : Nat) (s : State) : Host.Outcome State Fault Refusal :=
  s.on u fun d => d.serveWrite e 0x1011 0 value fun d v _ => d.restoreDefaultsAns v

/-! ### Writes -/

/-- What a write does, with the request that carries it. -/
def Dev.applyWith (d : Dev) (e : Env) (i s v : Nat) (bs : Bytes) : Ans :=
  match i with
  | 0x1010 => d.storeConfigAns e v
  | 0x1011 => d.restoreDefaultsAns v
  | 0x1830 => d.quicksetAns e bs
  | _ => d.applyAny i s v bs

/-- A write has succeeded; of a CMD object, its action has begun (R25). -/
def Ans.begun (a : Ans) (k : Nat) : Ans := if a.abort = 0 then { a with dev := a.dev.beginCmd k } else a

/-- A write to a pair's Commit (R64): the first Length bytes of the staging buffer become the value of the object that Select
names, checked as in R24. -/
def Dev.pairCommitAns (d : Dev) (e : Env) (pair v : Nat) : Ans :=
  let sel := selectOf (d.get (key (0x1180 + pair) 1))
  let i := sel.2.2
  let s := sel.2.1
  let n := d.get (key (0x1180 + pair) 4)
  if v != 1 then fail d .range
  else if !d.serves i then fail d .noObject
  else match d.cfg.rowOf i s with
  | none => fail d .noSubindex
  | some r =>
    if r.acc = .ro || r.acc = .res then fail d .readOnly
    else if r.ty.isBlob then
      if n < 4 || n > r.size + 4 then fail d .typeLength
      else
        let bs := bytesAt (d.pair pair).staging 0 n
        if natAt bs 0 4 != n - 4 then fail d .typeLength
        else if d.cmdRuns r i s then fail d .busy
        else (d.applyWith e i s 0 (bs.drop 4)).begun (key i s)
    else if n != r.ty.size then fail d .typeLength
    else
      let x := natAt (d.pair pair).staging 0 n
      if !r.admits x then fail d .range
      else if d.cmdRuns r i s then fail d .busy
      else (d.applyWith e i s (r.masked x) []).begun (key i s)

/-- LOCAL_INDIRECT_COMMIT (R64). -/
def execLocalIndirectCommit (l : LeafId) (e : Env) (pair : Nat) (value : Nat) (s : State) :
    Host.Outcome State Fault Refusal :=
  s.stored (.leaf l) (s.onLeaf l fun d =>
    if pair < 4 then d.serveWrite (pairEnv e) (0x1180 + pair) 3 value fun d v _ => d.pairCommitAns (pairEnv e) pair v
    else d)

/-- A write that has passed the checks of every object. -/
def Dev.applyWrite (d : Dev) (e : Env) (i s v : Nat) (bs : Bytes) : Ans :=
  if 0x1180 ≤ i && i ≤ 0x1183 && s = 3 then d.pairCommitAns e (i - 0x1180) v else d.applyWith e i s v bs

/-- A segment of `Stage` (R604, R605, R607): the first one allocates the stage's pages. -/
def Dev.stageWrite (d : Dev) (e : Env) (offset length : Nat) (last : Bool) (data : Bytes) : Ans :=
  let go (d : Dev) : Ans := d.writeAns e 0x1802 2 offset length last data fun d _ bs => d.stageAns bs
  if !d.isTrunk || !d.serves 0x1802 || length > 1024 || data.length < length then go d
  else if d.updateHost || d.writing then fail d .state
  else if offset != 0 then go d
  else match d.stageAlloc (natAt data 0 4) with
    | some d => go d
    | none => fail d .busy

/-- A WRITE over any transport. -/
def Dev.writeTop (d : Dev) (e : Env) (i s offset length : Nat) (last : Bool) (data : Bytes) : Ans :=
  if i = 0x1802 && s = 2 then d.stageWrite e offset length last data
  else d.writeAns e i s offset length last data fun d v bs => d.applyWrite e i s v bs

/-- WRITE (R28). A ring's `Reset` acts on memory too (R473). -/
def execWrite (u : UnitId) (e : Env) (index sub offset length : Nat) (last : Bool) (data : Bytes) (s : State) :
    Host.Outcome State Fault Refusal :=
  if u = .trunk && 0x4040 ≤ index && index ≤ 0x407F && sub = 0xA && offset = 0 && length = 1 && 1 ≤ data.length then
    execRingReset e (index - 0x4040) (leNat (data.take 1)) s
  else
    s.stored u (s.on u fun d =>
      d.serve e 0x02 index sub offset fun d => d.writeTop e index sub offset length last data)

end Sys2Proof.Machine
end

