-- ==== Sys2Proof/Machine/Dispatch.lean ====
section
/-! DEFINITION. The meaning of each command: one arm per constructor of `Instr`, each a direct call of its meaning. -/

namespace Sys2Proof.Machine

open Sys2Proof

def exec (i : Instr) (s : State) : Host.Outcome State Fault Refusal :=
  match i with
  -- FleetTime's tick and the dictionary server (chapters 01, 02)
  | .sampleTick u idx => Sys2Proof.Machine.execSampleTick u idx s
  | .read u e index sub offset length => Sys2Proof.Machine.execRead u e index sub offset length s
  | .write u e index sub offset length last data => Sys2Proof.Machine.execWrite u e index sub offset length last data s
  | .readRecord u e index offset length => Sys2Proof.Machine.execReadRecord u e index offset length s
  | .subscribe u e index sub => Sys2Proof.Machine.execSubscribe u e index sub s
  | .unsubscribe u e index sub => Sys2Proof.Machine.execUnsubscribe u e index sub s
  | .identify u e => Sys2Proof.Machine.execIdentify u e s
  | .ack u e index seq => Sys2Proof.Machine.execAck u e index seq s
  | .shortMessageDiscard u data => Sys2Proof.Machine.execShortMessageDiscard u data s
  | .misaddressed u e => Sys2Proof.Machine.execMisaddressed u e s
  | .sdpResponse u opcode txn source index length abort data drop => Sys2Proof.Machine.execSdpResponse u opcode txn source index length abort data drop s
  | .latchRelease u => Sys2Proof.Machine.execLatchRelease u s
  | .replayEntryFree u => Sys2Proof.Machine.execReplayEntryFree u s
  | .proxyRequest e origin opcode index sub offset length m => Sys2Proof.Machine.execProxyRequest e origin opcode index sub offset length m s
  | .proxyResponse slot txn opcode abort m => Sys2Proof.Machine.execProxyResponse slot txn opcode abort m s
  | .proxySlotTimeout slot => Sys2Proof.Machine.execProxySlotTimeout slot s
  | .storeConfig u e value => Sys2Proof.Machine.execStoreConfig u e value s
  | .storeConfigTimeout l => Sys2Proof.Machine.execStoreConfigTimeout l s
  | .restoreDefaults u e value => Sys2Proof.Machine.execRestoreDefaults u e value s
  | .resLatchRead l e index => Sys2Proof.Machine.execResLatchRead l e index s
  | .localIndirectSelect l e pair value => Sys2Proof.Machine.execLocalIndirectSelect l e pair value s
  | .localIndirectDataRead l e pair => Sys2Proof.Machine.execLocalIndirectDataRead l e pair s
  | .localIndirectDataWrite l e pair value => Sys2Proof.Machine.execLocalIndirectDataWrite l e pair value s
  | .localIndirectCommit l e pair value => Sys2Proof.Machine.execLocalIndirectCommit l e pair value s
  | .flagClear u e index sub value => Sys2Proof.Machine.execFlagClear u e index sub value s
  | .modeChange u index => Sys2Proof.Machine.execModeChange u index s
  -- FleetTime (chapter 02)
  | .timeMessageSend p tx => Sys2Proof.Machine.execTimeMessageSend p tx s
  | .timeMessage p m rx => Sys2Proof.Machine.execTimeMessage p m rx s
  | .incrementApply u => Sys2Proof.Machine.execIncrementApply u s
  | .exchangeTimeout u => Sys2Proof.Machine.execExchangeTimeout u s
  | .holdoverExpired u => Sys2Proof.Machine.execHoldoverExpired u s
  | .sourceTimeout => Sys2Proof.Machine.execSourceTimeout s
  | .stepCmd u e value => Sys2Proof.Machine.execStepCmd u e value s
  | .pop u e k => Sys2Proof.Machine.execPop u e k s
  | .ptpMessage m => Sys2Proof.Machine.execPtpMessage m s
  | .utcRestep e value => Sys2Proof.Machine.execUtcRestep e value s
  | .regionStop l r => Sys2Proof.Machine.execRegionStop l r s
  | .regionResume l r => Sys2Proof.Machine.execRegionResume l r s
  | .regionPowerDown l r => Sys2Proof.Machine.execRegionPowerDown l r s
  | .regionPowerUp l r => Sys2Proof.Machine.execRegionPowerUp l r s
  -- Taps (chapter 03)
  | .cmdBegin l tap tag pre c pair => Sys2Proof.Machine.execCmdBegin l tap tag pre c pair s
  | .cmdEnd l tap tag pre c pair => Sys2Proof.Machine.execCmdEnd l tap tag pre c pair s
  | .arrivalMark l e step => Sys2Proof.Machine.execArrivalMark l e step s
  | .counterScan l => Sys2Proof.Machine.execCounterScan l s
  | .regionRst l r => Sys2Proof.Machine.execRegionRst l r s
  | .lostRecord l => Sys2Proof.Machine.execLostRecord l s
  -- Power and health (chapter 04)
  | .currentSample l vals => Sys2Proof.Machine.execCurrentSample l vals s
  | .temperatureReading l vals => Sys2Proof.Machine.execTemperatureReading l vals s
  | .minVRead l e sensor => Sys2Proof.Machine.execMinVRead l e sensor s
  | .clusterChange l r => Sys2Proof.Machine.execClusterChange l r s
  | .stageRequest l r stage => Sys2Proof.Machine.execStageRequest l r stage s
  | .grant l c => Sys2Proof.Machine.execGrant l c s
  | .deny l c => Sys2Proof.Machine.execDeny l c s
  | .inrushDeferTimeout l c => Sys2Proof.Machine.execInrushDeferTimeout l c s
  | .stageGrant l e r stage => Sys2Proof.Machine.execStageGrant l e r stage s
  | .stageDeny l e r stage => Sys2Proof.Machine.execStageDeny l e r stage s
  | .shedAssert l e c => Sys2Proof.Machine.execShedAssert l e c s
  | .shedRelease l e c => Sys2Proof.Machine.execShedRelease l e c s
  | .regFault l r => Sys2Proof.Machine.execRegFault l r s
  | .carryTimeExpired l c => Sys2Proof.Machine.execCarryTimeExpired l c s
  | .regClear l c => Sys2Proof.Machine.execRegClear l c s
  | .powerFailWarning u => Sys2Proof.Machine.execPowerFailWarning u s
  | .powerFailRecover u => Sys2Proof.Machine.execPowerFailRecover u s
  -- Data-access trace (chapter 05)
  | .traceAccess l src a => Sys2Proof.Machine.execTraceAccess l src a s
  | .periodicSync l src => Sys2Proof.Machine.execPeriodicSync l src s
  | .funnelTransfer l => Sys2Proof.Machine.execFunnelTransfer l s
  | .overflowPacket l src => Sys2Proof.Machine.execOverflowPacket l src s
  | .softTrigger l e value => Sys2Proof.Machine.execSoftTrigger l e value s
  | .fatal u code detail => Sys2Proof.Machine.execFatal u code detail s
  | .freeze l => Sys2Proof.Machine.execFreeze l s
  | .traceEnable l e value => Sys2Proof.Machine.execTraceEnable l e value s
  | .rearm l e value => Sys2Proof.Machine.execRearm l e value s
  | .drainCmd l e value => Sys2Proof.Machine.execDrainCmd l e value s
  | .drainDone l => Sys2Proof.Machine.execDrainDone l s
  | .captureArm l e value => Sys2Proof.Machine.execCaptureArm l e value s
  | .digestBlockClose l src => Sys2Proof.Machine.execDigestBlockClose l src s
  | .digestModeWrite l e src value => Sys2Proof.Machine.execDigestModeWrite l e src value s
  -- Event recorder (chapter 06)
  | .writeRecord u e data => Sys2Proof.Machine.execWriteRecord u e data s
  | .snapNow u e value => Sys2Proof.Machine.execSnapNow u e value s
  | .recorderPortRead u e => Sys2Proof.Machine.execRecorderPortRead u e s
  | .flushSoftware l e => Sys2Proof.Machine.execFlushSoftware l e s
  | .flushTeardown l e => Sys2Proof.Machine.execFlushTeardown l e s
  | .flushEnd l => Sys2Proof.Machine.execFlushEnd l s
  | .recorderAck l ranges => Sys2Proof.Machine.execRecorderAck l ranges s
  | .ackTimeout l => Sys2Proof.Machine.execAckTimeout l s
  | .leafRecord port r => Sys2Proof.Machine.execLeafRecord port r s
  | .recorderCommit => Sys2Proof.Machine.execRecorderCommit s
  -- Snapshots and frames (chapter 07)
  | .latch l sc => Sys2Proof.Machine.execLatch l sc s
  | .frameBuild l sc => Sys2Proof.Machine.execFrameBuild l sc s
  | .scheduleEnable l e sc => Sys2Proof.Machine.execScheduleEnable l e sc s
  | .scheduleDisable l e sc => Sys2Proof.Machine.execScheduleDisable l e sc s
  | .snapshotAt l e t => Sys2Proof.Machine.execSnapshotAt l e t s
  | .oneShotLatch l => Sys2Proof.Machine.execOneShotLatch l s
  | .rebind l e sc value => Sys2Proof.Machine.execRebind l e sc value s
  | .degradeCmd l e value => Sys2Proof.Machine.execDegradeCmd l e value s
  | .trunkLadder => Sys2Proof.Machine.execTrunkLadder s
  -- Frame codec (chapter 08)
  | .frameEncode l sc => Sys2Proof.Machine.execFrameEncode l sc s
  | .streamReset l e value => Sys2Proof.Machine.execStreamReset l e value s
  | .compress r idx => Sys2Proof.Machine.execCompress r idx s
  | .decompress r idx => Sys2Proof.Machine.execDecompress r idx s
  | .decompressResume r idx => Sys2Proof.Machine.execDecompressResume r idx s
  | .leafFrame port schedule coded colour => Sys2Proof.Machine.execLeafFrame port schedule coded colour s
  -- Sharing (chapter 09)
  | .arbiterWindow a => Sys2Proof.Machine.execArbiterWindow a s
  | .decision a => Sys2Proof.Machine.execDecision a s
  | .preemption l sent => Sys2Proof.Machine.execPreemption l sent s
  | .wfqTag g cls => Sys2Proof.Machine.execWfqTag g cls s
  | .wfqSend g => Sys2Proof.Machine.execWfqSend g s
  | .drrForce e p => Sys2Proof.Machine.execDrrForce e p s
  | .wfqRestore e p => Sys2Proof.Machine.execWfqRestore e p s
  | .wfqReturn g => Sys2Proof.Machine.execWfqReturn g s
  | .shaperWrite e k sub value => Sys2Proof.Machine.execShaperWrite e k sub value s
  | .profileWrite e index sub value => Sys2Proof.Machine.execProfileWrite e index sub value s
  -- The Stem link (chapter 10)
  | .blockLock p => Sys2Proof.Machine.execBlockLock p s
  | .align e count0 count1 => Sys2Proof.Machine.execAlign e count0 count1 s
  | .bringUpTimeout p => Sys2Proof.Machine.execBringUpTimeout p s
  | .helloSend p => Sys2Proof.Machine.execHelloSend p s
  | .hello e role level accept leafId => Sys2Proof.Machine.execHello e role level accept leafId s
  | .linkFrameStart e => Sys2Proof.Machine.execLinkFrameStart e s
  | .linkFrame e h data x => Sys2Proof.Machine.execLinkFrame e h data x s
  | .abort e => Sys2Proof.Machine.execAbort e s
  | .linkAck e ackSeq => Sys2Proof.Machine.execLinkAck e ackSeq s
  | .linkNak e ackSeq => Sys2Proof.Machine.execLinkNak e ackSeq s
  | .credit e assured bulk => Sys2Proof.Machine.execCredit e assured bulk s
  | .retryTimeout e => Sys2Proof.Machine.execRetryTimeout e s
  | .trigger l triggerId originStamp => Sys2Proof.Machine.execTrigger l triggerId originStamp s
  | .resetLink e => Sys2Proof.Machine.execResetLink e s
  | .resetLane e => Sys2Proof.Machine.execResetLane e s
  | .blockLockLost e => Sys2Proof.Machine.execBlockLockLost e s
  | .resetCmdLink p e => Sys2Proof.Machine.execResetCmdLink p e s
  | .resetCmdLane p e => Sys2Proof.Machine.execResetCmdLane p e s
  -- The Pleach fabric (chapter 11)
  | .alignCodeword p fec m => Sys2Proof.Machine.execAlignCodeword p fec m s
  | .pleachHello p f => Sys2Proof.Machine.execPleachHello p f s
  | .wiringTimeout p => Sys2Proof.Machine.execWiringTimeout p s
  | .flit p fec data => Sys2Proof.Machine.execFlit p fec data s
  | .abortFlit p fec data => Sys2Proof.Machine.execAbortFlit p fec data s
  | .resetFlit p fec data => Sys2Proof.Machine.execResetFlit p fec data s
  | .flitRetryTimeout p => Sys2Proof.Machine.execFlitRetryTimeout p s
  | .flitSend p => Sys2Proof.Machine.execFlitSend p s
  | .messageHeader idx vc m => Sys2Proof.Machine.execMessageHeader idx vc m s
  | .messageDeliver m => Sys2Proof.Machine.execMessageDeliver m s
  | .fenceNotice source count entry => Sys2Proof.Machine.execFenceNotice source count entry s
  | .fenceApply => Sys2Proof.Machine.execFenceApply s
  | .opticsFault p status => Sys2Proof.Machine.execOpticsFault p status s
  -- Reduction (chapter 12)
  | .collectDeadline slot w => Sys2Proof.Machine.execCollectDeadline slot w s
  | .partialMsg m => Sys2Proof.Machine.execPartialMsg m s
  | .stageClose slot w stage => Sys2Proof.Machine.execStageClose slot w stage s
  | .result m => Sys2Proof.Machine.execResult m s
  | .fleetTrigger e group => Sys2Proof.Machine.execFleetTrigger e group s
  | .pleachTrigger t => Sys2Proof.Machine.execPleachTrigger t s
  | .groupSetup e data => Sys2Proof.Machine.execGroupSetup e data s
  | .setup m => Sys2Proof.Machine.execSetup m s
  | .setupAck m => Sys2Proof.Machine.execSetupAck m s
  | .setupNak m => Sys2Proof.Machine.execSetupNak m s
  | .setupTimeout => Sys2Proof.Machine.execSetupTimeout s
  | .groupCommit m => Sys2Proof.Machine.execGroupCommit m s
  | .groupControlAbort m => Sys2Proof.Machine.execGroupControlAbort m s
  | .groupTeardown e group => Sys2Proof.Machine.execGroupTeardown e group s
  | .teardown m => Sys2Proof.Machine.execTeardown m s
  | .quarantineStart slot => Sys2Proof.Machine.execQuarantineStart slot s
  | .quarantineEnd slot => Sys2Proof.Machine.execQuarantineEnd slot s
  | .join e group leafId => Sys2Proof.Machine.execJoin e group leafId s
  | .leave e group leafId => Sys2Proof.Machine.execLeave e group leafId s
  | .changeBatch => Sys2Proof.Machine.execChangeBatch s
  | .transitionEnd port => Sys2Proof.Machine.execTransitionEnd port s
  -- The analysis fabric (chapter 13)
  | .syncWait t rd rs1 rs2 => Sys2Proof.Machine.execSyncWait t rd rs1 rs2 s
  | .syncWaitEnd t => Sys2Proof.Machine.execSyncWaitEnd t s
  | .syncAdd t rd rs1 rs2 => Sys2Proof.Machine.execSyncAdd t rd rs1 rs2 s
  | .ftRead t rd => Sys2Proof.Machine.execFtRead t rd s
  | .ftReadF t rd => Sys2Proof.Machine.execFtReadF t rd s
  | .frameLoc t rd rs1 rs2 => Sys2Proof.Machine.execFrameLoc t rd rs1 rs2 s
  | .illegalInstruction t word => Sys2Proof.Machine.execIllegalInstruction t word s
  | .sprigLoadStore t a => Sys2Proof.Machine.execSprigLoadStore t a s
  | .kclassWrite t rd value => Sys2Proof.Machine.execKclassWrite t rd value s
  | .syncAddCmd e value => Sys2Proof.Machine.execSyncAddCmd e value s
  | .descriptorSubmit r => Sys2Proof.Machine.execDescriptorSubmit r s
  | .descriptorComplete r idx => Sys2Proof.Machine.execDescriptorComplete r idx s
  | .ringReset e r value => Sys2Proof.Machine.execRingReset e r value s
  | .copy r idx => Sys2Proof.Machine.execCopy r idx s
  | .gather r idx => Sys2Proof.Machine.execGather r idx s
  | .scatter r idx => Sys2Proof.Machine.execScatter r idx s
  | .fill r idx => Sys2Proof.Machine.execFill r idx s
  | .poolAlloc r idx => Sys2Proof.Machine.execPoolAlloc r idx s
  | .poolFree r idx => Sys2Proof.Machine.execPoolFree r idx s
  | .poolRetag r idx => Sys2Proof.Machine.execPoolRetag r idx s
  | .leaseWrite r idx => Sys2Proof.Machine.execLeaseWrite r idx s
  | .leaseRead r idx => Sys2Proof.Machine.execLeaseRead r idx s
  | .leaseRequest m => Sys2Proof.Machine.execLeaseRequest m s
  | .leaseGrant m => Sys2Proof.Machine.execLeaseGrant m s
  | .leaseDeny m => Sys2Proof.Machine.execLeaseDeny m s
  | .leaseRenew m => Sys2Proof.Machine.execLeaseRenew m s
  | .leaseRecall m => Sys2Proof.Machine.execLeaseRecall m s
  | .leaseRelease m => Sys2Proof.Machine.execLeaseRelease m s
  | .leaseReleased m => Sys2Proof.Machine.execLeaseReleased m s
  | .leaseDataWrite m => Sys2Proof.Machine.execLeaseDataWrite m s
  | .leaseDataReadReq m => Sys2Proof.Machine.execLeaseDataReadReq m s
  | .leaseDataReadData m => Sys2Proof.Machine.execLeaseDataReadData m s
  | .leaseDataError m => Sys2Proof.Machine.execLeaseDataError m s
  | .renewLead leaseId => Sys2Proof.Machine.execRenewLead leaseId s
  | .leaseResend leaseId => Sys2Proof.Machine.execLeaseResend leaseId s
  | .recallAt leaseId => Sys2Proof.Machine.execRecallAt leaseId s
  | .leaseExpires leaseId => Sys2Proof.Machine.execLeaseExpires leaseId s
  | .renewUnanswered leaseId => Sys2Proof.Machine.execRenewUnanswered leaseId s
  | .leaseRecallCmd e leaseId => Sys2Proof.Machine.execLeaseRecallCmd e leaseId s
  | .energyWindow m => Sys2Proof.Machine.execEnergyWindow m s
  | .accountExhausted c spent => Sys2Proof.Machine.execAccountExhausted c spent s
  | .pmbusRead rails => Sys2Proof.Machine.execPmbusRead rails s
  | .pmbAlert rails => Sys2Proof.Machine.execPmbAlert rails s
  -- Stragglers and drift (chapter 14)
  | .arrivalUnresolved slot leafPort step => Sys2Proof.Machine.execArrivalUnresolved slot leafPort step s
  | .stepClose slot => Sys2Proof.Machine.execStepClose slot s
  | .driftUpdate slot => Sys2Proof.Machine.execDriftUpdate slot s
  | .bucket r idx => Sys2Proof.Machine.execBucket r idx s
  | .merge r idx => Sys2Proof.Machine.execMerge r idx s
  | .rank r idx => Sys2Proof.Machine.execRank r idx s
  | .quantile r idx => Sys2Proof.Machine.execQuantile r idx s
  | .apply e slot window => Sys2Proof.Machine.execApply e slot window s
  | .applySettings slot => Sys2Proof.Machine.execApplySettings slot s
  -- Thicket (chapter 15)
  | .load r idx => Sys2Proof.Machine.execLoad r idx s
  | .modelReady model => Sys2Proof.Machine.execModelReady model s
  | .unload r idx => Sys2Proof.Machine.execUnload r idx s
  | .infer r idx => Sys2Proof.Machine.execInfer r idx s
  | .batch r idx => Sys2Proof.Machine.execBatch r idx s
  | .uncorrectableEcc h => Sys2Proof.Machine.execUncorrectableEcc h s
  -- Sampled recompute (chapter 16)
  | .arm policy port busy => Sys2Proof.Machine.execArm policy port busy s
  | .policyEnable e n => Sys2Proof.Machine.execPolicyEnable e n s
  | .policyDisable e n => Sys2Proof.Machine.execPolicyDisable e n s
  | .captureAssembly port src packets done weights => Sys2Proof.Machine.execCaptureAssembly port src packets done weights s
  | .weightRequest h map busy => Sys2Proof.Machine.execWeightRequest h map busy s
  | .weightTile h status crc begin tile => Sys2Proof.Machine.execWeightTile h status crc begin tile s
  | .weightWaitTimeout capture => Sys2Proof.Machine.execWeightWaitTimeout capture s
  | .compare capture upset1 upset2 => Sys2Proof.Machine.execCompare capture upset1 upset2 s
  | .weightDigestCompare n step seqs => Sys2Proof.Machine.execWeightDigestCompare n step seqs s
  | .weightDigestEnable e n => Sys2Proof.Machine.execWeightDigestEnable e n s
  -- Field test and signatures (chapter 17)
  | .testStart l => Sys2Proof.Machine.execTestStart l s
  | .ftDone l sig => Sys2Proof.Machine.execFtDone l sig s
  | .ftReclaim l => Sys2Proof.Machine.execFtReclaim l s
  | .testPreempted l => Sys2Proof.Machine.execTestPreempted l s
  | .testTimeout l => Sys2Proof.Machine.execTestTimeout l s
  | .testPackWrite l e data => Sys2Proof.Machine.execTestPackWrite l e data s
  | .runTest l e value => Sys2Proof.Machine.execRunTest l e value s
  | .hostWaitTimeout l => Sys2Proof.Machine.execHostWaitTimeout l s
  | .shadowPairEnable e n => Sys2Proof.Machine.execShadowPairEnable e n s
  | .shadowDigest n subject m => Sys2Proof.Machine.execShadowDigest n subject m s
  | .pairSkewTimeout n => Sys2Proof.Machine.execPairSkewTimeout n s
  | .vsfRecord port data => Sys2Proof.Machine.execVsfRecord port data s
  | .seal r idx => Sys2Proof.Machine.execSeal r idx s
  | .toText r idx => Sys2Proof.Machine.execToText r idx s
  | .fromText r idx => Sys2Proof.Machine.execFromText r idx s
  -- Firmware and Layering (chapter 18)
  | .boot => Sys2Proof.Machine.execBoot s
  | .imageFetch l offset data more => Sys2Proof.Machine.execImageFetch l offset data more s
  | .fetchRetry l => Sys2Proof.Machine.execFetchRetry l s
  | .fetchTimeout l => Sys2Proof.Machine.execFetchTimeout l s
  | .targetWrite e value => Sys2Proof.Machine.execTargetWrite e value s
  | .commit e value => Sys2Proof.Machine.execCommit e value s
  | .sectorWritten same => Sys2Proof.Machine.execSectorWritten same s
  | .block e data same => Sys2Proof.Machine.execBlock e data same s
  | .blockFinish e => Sys2Proof.Machine.execBlockFinish e s
  | .watchdog u sram => Sys2Proof.Machine.execWatchdog u sram s
  | .bootAttemptsClear u => Sys2Proof.Machine.execBootAttemptsClear u s
  | .quicksetImage u e image => Sys2Proof.Machine.execQuicksetImage u e image s
  | .bootStatePoll drops => Sys2Proof.Machine.execBootStatePoll drops s
  | .quicksetPush e value => Sys2Proof.Machine.execQuicksetPush e value s
  | .unitReset u e value => Sys2Proof.Machine.execUnitReset u e value s
  | .layerStartTrunk e => Sys2Proof.Machine.execLayerStartTrunk e s
  | .layerStartLeaves e => Sys2Proof.Machine.execLayerStartLeaves e s
  | .leafRunning port version dictMajor => Sys2Proof.Machine.execLeafRunning port version dictMajor s
  | .leafBootTimeout => Sys2Proof.Machine.execLeafBootTimeout s
  -- Resets and integration (chapter 19)
  | .powerOn u strap => Sys2Proof.Machine.execPowerOn u strap s
  | .pinReset u release strap => Sys2Proof.Machine.execPinReset u release strap s
  | .thermalTrip => Sys2Proof.Machine.execThermalTrip s
  | .hostError l n => Sys2Proof.Machine.execHostError l n s
  | .unlistedOpcode u e opcode index sub => Sys2Proof.Machine.execUnlistedOpcode u e opcode index sub s
  | .opticsReady p => Sys2Proof.Machine.execOpticsReady p s
  | .watchdogFlushLimit l => Sys2Proof.Machine.execWatchdogFlushLimit l s
  | .commitConfirmation l abort => Sys2Proof.Machine.execCommitConfirmation l abort s
  | .serviceFrameFcsFail l => Sys2Proof.Machine.execServiceFrameFcsFail l s
  | .ptpEventMessageSend port kind seqId tx => Sys2Proof.Machine.execPtpEventMessageSend port kind seqId tx s
  | .progressWordProgrammed => Sys2Proof.Machine.execProgressWordProgrammed s
  | .eccCorrected => Sys2Proof.Machine.execEccCorrected s

end Sys2Proof.Machine
end

