-- ==== Sys2Proof/Machine/Precedence.lean ====
section
/-! DEFINITION. The precedence of events that fall in one sample tick (R80) and of the dictionary accesses among them (R27),
as a condition on a queue of commands: the sender keeps it (log 5). -/

namespace Sys2Proof.Machine

open Sys2Proof

/-- The unit that a command acts on. -/
def commandUnit : Instr → UnitId
  | .sampleTick x .. | .read x .. | .write x .. | .readRecord x .. | .subscribe x .. | .unsubscribe x ..
  | .identify x .. | .ack x .. | .shortMessageDiscard x .. | .misaddressed x .. | .sdpResponse x ..
  | .latchRelease x .. | .replayEntryFree x .. | .storeConfig x .. | .restoreDefaults x .. | .flagClear x ..
  | .modeChange x .. | .incrementApply x .. | .exchangeTimeout x .. | .holdoverExpired x .. | .stepCmd x ..
  | .pop x .. | .powerFailWarning x .. | .powerFailRecover x .. | .fatal x .. | .writeRecord x .. | .snapNow x ..
  | .recorderPortRead x .. | .watchdog x .. | .bootAttemptsClear x .. | .quicksetImage x .. | .unitReset x ..
  | .powerOn x .. | .pinReset x .. | .unlistedOpcode x .. => x
  | .storeConfigTimeout x .. | .resLatchRead x .. | .localIndirectSelect x .. | .localIndirectDataRead x ..
  | .localIndirectDataWrite x .. | .localIndirectCommit x .. | .regionStop x .. | .regionResume x ..
  | .regionPowerDown x .. | .regionPowerUp x .. | .cmdBegin x .. | .cmdEnd x .. | .arrivalMark x ..
  | .counterScan x .. | .regionRst x .. | .lostRecord x .. | .currentSample x .. | .temperatureReading x ..
  | .minVRead x .. | .clusterChange x .. | .stageRequest x .. | .grant x .. | .deny x .. | .inrushDeferTimeout x ..
  | .stageGrant x .. | .stageDeny x .. | .shedAssert x .. | .shedRelease x .. | .regFault x ..
  | .carryTimeExpired x .. | .regClear x .. | .traceAccess x .. | .periodicSync x .. | .funnelTransfer x ..
  | .overflowPacket x .. | .softTrigger x .. | .freeze x .. | .traceEnable x .. | .rearm x .. | .drainCmd x ..
  | .drainDone x .. | .captureArm x .. | .digestBlockClose x .. | .digestModeWrite x .. | .flushSoftware x ..
  | .flushTeardown x .. | .flushEnd x .. | .recorderAck x .. | .ackTimeout x .. | .latch x .. | .frameBuild x ..
  | .scheduleEnable x .. | .scheduleDisable x .. | .snapshotAt x .. | .oneShotLatch x .. | .rebind x ..
  | .degradeCmd x .. | .frameEncode x .. | .streamReset x .. | .preemption x .. | .trigger x .. | .testStart x ..
  | .ftDone x .. | .ftReclaim x .. | .testPreempted x .. | .testTimeout x .. | .testPackWrite x .. | .runTest x ..
  | .hostWaitTimeout x .. | .imageFetch x .. | .fetchRetry x .. | .fetchTimeout x .. | .hostError x ..
  | .watchdogFlushLimit x .. | .commitConfirmation x .. | .serviceFrameFcsFail x .. => .leaf x
  | .align x .. | .hello x .. | .linkFrameStart x .. | .linkFrame x .. | .abort x .. | .linkAck x .. | .linkNak x ..
  | .credit x .. | .retryTimeout x .. | .resetLink x .. | .resetLane x .. | .blockLockLost x .. => stemUnit x
  | .timeMessageSend x .. | .timeMessage x .. | .blockLock x .. | .bringUpTimeout x .. | .helloSend x ..
  | .resetCmdLink x .. | .resetCmdLane x .. => timeUnit x
  | .arbiterWindow (.uplink l) | .decision (.uplink l) => .leaf l
  | _ => .trunk

/-- The request that a command carries, where it is a dictionary access. -/
def commandEnv : Instr → Option Env
  | .read _ x .. | .write _ x .. | .readRecord _ x .. | .subscribe _ x .. | .unsubscribe _ x .. | .identify _ x ..
  | .ack _ x .. | .misaddressed _ x .. | .proxyRequest x .. | .storeConfig _ x .. | .restoreDefaults _ x ..
  | .resLatchRead _ x .. | .localIndirectSelect _ x .. | .localIndirectDataRead _ x ..
  | .localIndirectDataWrite _ x .. | .localIndirectCommit _ x .. | .flagClear _ x .. | .stepCmd _ x .. | .pop _ x ..
  | .utcRestep x .. | .arrivalMark _ x .. | .minVRead _ x .. | .stageGrant _ x .. | .stageDeny _ x ..
  | .shedAssert _ x .. | .shedRelease _ x .. | .softTrigger _ x .. | .traceEnable _ x .. | .rearm _ x ..
  | .drainCmd _ x .. | .captureArm _ x .. | .digestModeWrite _ x .. | .writeRecord _ x .. | .snapNow _ x ..
  | .recorderPortRead _ x .. | .flushSoftware _ x .. | .flushTeardown _ x .. | .scheduleEnable _ x ..
  | .scheduleDisable _ x .. | .snapshotAt _ x .. | .rebind _ x .. | .degradeCmd _ x .. | .streamReset _ x ..
  | .drrForce x .. | .wfqRestore x .. | .shaperWrite x .. | .profileWrite x .. | .resetCmdLink _ x ..
  | .resetCmdLane _ x .. | .fleetTrigger x .. | .groupSetup x .. | .groupTeardown x .. | .join x .. | .leave x ..
  | .syncAddCmd x .. | .ringReset x .. | .leaseRecallCmd x .. | .apply x .. | .policyEnable x ..
  | .policyDisable x .. | .weightDigestEnable x .. | .testPackWrite _ x .. | .runTest _ x .. | .shadowPairEnable x ..
  | .targetWrite x .. | .commit x .. | .block x .. | .blockFinish x .. | .quicksetImage _ x .. | .quicksetPush x ..
  | .unitReset _ x .. | .layerStartTrunk x .. | .layerStartLeaves x .. | .unlistedOpcode _ x .. => some x
  | _ => none

/-- The rank of a command in its tick (R80): a dictionary access is rank 7. A command whose effect has parts of several ranks
stands at the first of them. -/
def commandRank (c : Instr) : Nat :=
  match c with
  | .powerFailWarning .. => 1
  | .fatal .. | .watchdog .. => 2
  | .timeMessage .. | .incrementApply .. | .exchangeTimeout .. | .holdoverExpired .. | .sourceTimeout ..
  | .regionStop .. | .regionResume .. | .regionPowerDown .. | .regionPowerUp .. | .regFault .. | .carryTimeExpired ..
  | .regClear .. => 3
  | .latch .. | .oneShotLatch .. => 4
  | .cmdBegin .. => 5
  | .freeze .. | .trigger .. => 6
  | _ => if (commandEnv c).isSome then 7 else 8

/-- The place of a transport among the accesses of one tick (R27). -/
def viaPlace : Via → Nat
  | .lp => 1 | .service => 2 | .servicePort => 3 | .exportNet => 4 | .inband => 5

/-- May a command stand before another of the same unit and tick: R80's rank, then R27's order of accesses? -/
def mayPrecede (a b : Instr) : Bool :=
  commandUnit a != commandUnit b || commandRank a < commandRank b ||
  (commandRank a = commandRank b && match commandEnv a, commandEnv b with
    | some x, some y => viaPlace x.via ≤ viaPlace y.via
    | _, _ => true)

/-- The commands of a unit before its next SAMPLE_TICK: those that fall in the tick of a command that stands before them. -/
def sameTick (u : UnitId) (l : List Instr) : List Instr :=
  l.takeWhile fun c => match c with
    | .sampleTick v _ => u != v
    | _ => true

/-- Does a queue keep the order of R80 and R27 within every tick of every unit? -/
def keepsPrecedence : List Instr → Bool
  | [] => true
  | c :: rest =>
    (match c with
     | .sampleTick _ _ => true
     | _ => (sameTick (commandUnit c) rest).all (mayPrecede c)) && keepsPrecedence rest

end Sys2Proof.Machine
end

