-- ==== Sys2Proof/Safety.lean ====
section
/-! DEFINITION. The terms in which claims about the block are stated: a command that completes on one unit, a request
that a unit hears, accepts and answers, and the units and the memory that a command may touch. -/

namespace Sys2Proof.Machine

open Sys2Proof

/-! ### Completion -/

/-- A unit as a command finds it: its records of what it sends start empty. -/
def State.unit (s : State) (u : UnitId) : Dev := { s.dev u with out := [], lines := [] }

/-- The state in which one unit is `d` and nothing else has changed; what the unit's build fixes stays. -/
def State.withUnit (s : State) (u : UnitId) (d : Dev) : State := s.setDev { d with cfg := (s.dev u).cfg } u

/-- The outcome is the next state in which unit `u` is a `d` that satisfies `P`; the other units, the memory and the queue
are as before. -/
def Yields (o : Host.Outcome State Fault Refusal) (s : State) (u : UnitId) (P : Dev → Prop) : Prop :=
  ∃ d, o = .next (s.withUnit u d) ∧ P d

/-- The outcome is a next state in which the trunk is a `d` and its memory an `m` that satisfy `P`; the leaf, the
self-leaf and the queue are as before. -/
def YieldsMem (o : Host.Outcome State Fault Refusal) (s : State) (P : Dev → Mem → Prop) : Prop :=
  ∃ d m, o = .next { s.withUnit .trunk d with mem := m } ∧ P d m

/-- The scalar objects other than those of the keys listed keep their values. -/
def Dev.objectsKept (d d' : Dev) (ks : List Nat) : Prop := ∀ k, k ∉ ks → d'.get k = d.get k

/-- Only objects, what the unit sends and the notes of flags set in this tick have changed, and of the objects only those
listed. -/
def Dev.onlyObjects (d d' : Dev) (ks : List Nat) : Prop :=
  d' = { d with objs := d'.objs, out := d'.out, lines := d'.lines, sets := d'.sets } ∧ d.objectsKept d' ks

/-! ### Requests -/

/-- A request's frame is for the unit, which takes it as its own; its version is 1, no response to it is remembered, and there is room to remember
one (R22, R40, R47, R54). -/
def Dev.hears (d : Dev) (e : Env) : Prop :=
  d.hearsFrame e = true ∧ d.takes e = true ∧
  (e.via ≠ .lp → e.version = 1 ∧
    match d.purgeReplay.srv.replay.find? (fun x => sameSource x.who e) with
    | some x => x.txns.all (·.txn != e.txn) = true
    | none => d.purgeReplay.srv.replay.length < d.replayCap)

/-- A unit as the execution of a request finds it: expired responses are forgotten, the local port aside (R47). -/
def Dev.heard (d : Dev) (e : Env) : Dev := if e.via = .lp then d else d.purgeReplay

/-- A unit as a READ of object `i` finds it: the cycles of this tick that come before the read have run, expired responses are
forgotten, and the counters that the object presents are scanned (R47, R132). -/
def Dev.atRead (d : Dev) (e : Env) (i : Nat) : Dev := ((d.runBefore e).heard e).scanFor i

/-- A unit hears a write of a value to a scalar object, and the checks that every object shares pass, with no action of the
object running (R20, R23, R25, R63). -/
def Dev.accepts (d : Dev) (e : Env) (i s v : Nat) : Prop :=
  d.hears e ∧ d.serves i = true ∧ (e.via = .lp → e.user = false) ∧
  ∃ r, d.cfg.rowOf i s = some r ∧ r.acc ≠ .ro ∧ r.acc ≠ .res ∧ r.ty.isBlob = false ∧ r.admits v = true ∧
    v < 2 ^ (8 * r.ty.size) ∧ d.cmdRuns r i s = false

/-- A unit hears a write of a DOMAIN whole, and the checks that every DOMAIN shares pass, with no part of
the value held and no action of the object running (R20, R24, R25, R46, R63). -/
def Dev.acceptsDomain (d : Dev) (e : Env) (i s : Nat) (bs : Bytes) : Prop :=
  d.hears e ∧ e.via ≠ .lp ∧ d.serves i = true ∧ d.nextSegment e i s 0 = true ∧
  ∃ r, d.cfg.rowOf i s = some r ∧ bs.length ≤ r.size ∧ d.cmdRuns r i s = false

/-- The outcome is the next state in which unit `u` has executed a request with an answer that satisfies `P` and has sent
that answer (R40, R61); nothing else has changed. -/
def Answers (o : Host.Outcome State Fault Refusal) (s : State) (u : UnitId) (e : Env) (opcode i sub off : Nat)
    (P : Ans → Prop) : Prop :=
  ∃ a, o = .next (s.withUnit u (((s.unit u).heard e).finish e opcode i sub off a)) ∧ P a

/-- A unit does not stand held in reset (R635). -/
abbrev State.runs (s : State) (u : UnitId) : Prop := (s.dev u).boot.held = false

/-- The leaf and the self-leaf are of the leaf build and the trunk of the trunk build (R1, R4, R5). -/
abbrev State.built (s : State) : Prop := s.leaf.cfg.build = .leaf ∧ s.self.cfg.build = .leaf ∧ s.trunk.cfg.build = .trunk

/-- The indices of TapHub's, the inrush gate's and power-fail's settings, to which their chapters give a write no rule of
its own. -/
def plainIndices : List Nat := [0x2100, 0x2404, 0x2407]

/-- FleetTime, `Increment` and the servo of a unit are as R74 leaves them. -/
abbrev Dev.timeFresh (d : Dev) : Prop :=
  d.time.ns = 0 ∧ d.time.frac = 0 ∧ d.get 0x2001_03 = 2 ^ 32 ∧ d.servo = .freeRun

/-- From `d` to `d'` a unit has written a record of its own: it stands among those of this tick, as the newest where it is the
tick's first (R214, R216). -/
def Dev.wrote (d d' : Dev) (kind time : Nat) (payload : Bytes) : Prop :=
  ∃ r ∈ d'.rcd.hist.take (d.rcd.fresh + 1), r.kind = kind ∧ r.time = time ∧ r.payload = payload ∧
    (d.rcd.fresh = 0 → d'.rcd.hist.head? = some r)

/-- From `d` to `d'` a unit has sent its time message on a port with the stamp of a time after its newest tick (R83, R87 to R89):
with the next Seq, the stamps last exchanged and the unit's flags, in a UNSEQ link frame of class 0 or a TIME flit.
Where it was `due`, the period begins anew. -/
def Dev.sendsTime (d d' : Dev) (p : TimePort) (tx : Stamp) (due : Bool) : Prop :=
  let old := d.timeLink p
  let st := d.linkStamp false tx
  (∃ m, .time p m st ∈ d'.out ∧ m.seq = old.txSeq ∧ m.prevValid = old.prevTx.isSome ∧ m.peerValid = old.peerRx.isSome ∧
    (∀ x, old.prevTx = some x → m.prevTxSeq = x.1 ∧ m.prevTx = x.2) ∧
    (∀ x, old.peerRx = some x → m.peerRxSeq = x.1 ∧ m.peerRx = x.2) ∧ m.uncertain = d.uncertain ∧ m.host = d.timeHost ∧
    (match p with
     | .stem e => ∃ f c, .linkFrame e f c ∈ d'.out ∧ f.data = m.bytes ∧ f.head.cls = 0 ∧ f.head.unseq = true ∧ f.head.length = 36
     | .pleach n => ∃ f, .flit n f ∈ d'.out ∧ f.kind = 3 ∧ f.fill = 36 ∧ f.body = m.bytes)) ∧
  (timeSlot p < d.time.links.length →
    (d'.timeLink p).txSeq = (old.txSeq + 1) % 65536 ∧ (d'.timeLink p).prevTx = some (old.txSeq, st) ∧
    (d'.timeLink p).peerRx = old.peerRx ∧ (d'.timeLink p).lastTx = if due then some d.time.ran else old.lastTx)

/-! ### Descriptors -/

/-- Descriptor `x` of a ring has been taken by an engine and asks it for an operation that may start (R470). -/
abbrev Dev.mayRun (d : Dev) (r i engine op : Nat) (x : DescSt) : Prop :=
  d.desc r i = some x ∧ d.get (ringKey r 1) = engine ∧ natAt x.bytes 16 1 = op ∧ x.result = none ∧ d.mayStart r x = true

/-- The ranges that a descriptor names may be accessed under its partition (R472). -/
abbrev Dev.mayAccess (d : Dev) (x : DescSt) (l : List (Nat × Nat)) : Prop := d.accessStatus (natAt x.bytes 3 1) l = none

/-- The result block of a descriptor (R470). -/
def Dev.resultOf (d : Dev) (r i : Nat) : Option Bytes := (d.desc r i).bind (·.result)

/-- Memory holds the bytes `bs` from an address on and is otherwise as before. -/
def Mem.holds (m m' : Mem) (a : Nat) (bs : Bytes) : Prop :=
  ∀ x, m'.byte x = if a ≤ x ∧ x < a + bs.length then bs.getD (x - a) 0 else m.byte x

/-! ### Sprig threads -/

/-- A thread may issue its next instruction (R457, R486): it exists, the fabric runs, it neither waits nor stalls, and its
class is not held. -/
abbrev Dev.mayIssue (d : Dev) (t : ThreadId) : Prop :=
  threadOk t = true ∧ d.noAnalysis = false ∧ (d.thread t).state ≠ .waiting ∧ (d.thread t).state ≠ .stalled ∧
  d.classHeld (d.thread t).kclass = false

/-- Of all threads, only one has changed, to `x`; the rest of the fabric is as before. -/
def Dev.onlyThread (d d' : Dev) (t : ThreadId) (x : Thread) : Prop :=
  d' = { d with tk := { d.tk with ana := { d.tk.ana with threads := d'.tk.ana.threads } } } ∧
  d'.thread t = x ∧ ∀ u, threadNo u ≠ threadNo t → d'.thread u = d.thread u

/-! ### The invariant -/

/-- What every state of the block keeps: its memory is in canonical form, and its units are of their builds. -/
abbrev State.Inv (s : State) : Prop := Mem.wf s.mem = true ∧ s.built ∧ s.leaf.cfg.selfLeaf = false ∧ s.self.cfg.selfLeaf = true

end Sys2Proof.Machine
end

