-- ==== Sys2Proof/Certificates/Slice0/Obligations.lean ====
section
/-! DEFINITION. The statements about the block that wait for a proof. -/

open Sys2Proof Sys2Proof.Machine

/-- For every state s and command c whose queue is c followed by rest, step s is exec c on s with the queue rest. For
every state with an empty queue, step answers the same state. The queue and the idle step are the model's own (log
1). (R27) -/
def Obligations.StepTakesTheFrontCommand : Prop :=
  (∀ (s : State) (c : Instr) (rest : List Instr), s.pending = c :: rest →
    step s = exec c { s with pending := rest }) ∧
  (∀ s : State, s.pending = [] → step s = .next s)

/-- READ completes for every unit that runs and hears it, with the counters scanned at the read's own tick: it is
executed and answered. Over SDP, a scalar that may be read, with no latch held: the answer succeeds, its data are
the first Length bytes of the value, MORE (bit 0 of Flags) is 1 exactly where bytes remain, and the unit changes by
the read's own side effect only. Over SDP, a STR or DOMAIN at Offset 0 with a latch free: the data are the first
Length bytes of the value, MORE likewise, and the requester holds a latch with the copy. Over SDP from a latch that
the requester holds, at an Offset within the latched value (of more than 8 bytes): the bytes of the copy from
Offset. On the local port, an aligned access of 1, 2, 4 or 8 bytes by an agent that is not user level to a scalar
outside result objects: the bytes of the 8-byte slot. (R652, R40, R44, R45, R61, R62, R23, R132) -/
def Obligations.ReadReturnsTheBytesAsked : Prop :=
  (∀ (s : State) (u : UnitId) (e : Env) (i sub len : Nat) (r : Row), s.runs u → ((s.unit u).runBefore e).hears e →
    e.via ≠ .lp → ((s.unit u).atRead e i).serves i = true → len ≤ 1024 →
    ((s.unit u).atRead e i).cfg.rowOf i sub = some r → r.acc ≠ .wo → r.acc ≠ .cmd → r.ty.isBlob = false →
    ((s.unit u).atRead e i).readRefused i = false → ((s.unit u).atRead e i).slotBusy i = false → ((s.unit u).atRead e i).latchOf e i = none →
    Answers (exec (.read u e i sub 0 len) s) s u e 0x01 i sub 0 fun a =>
      a.abort = 0 ∧ a.wait = false ∧ a.data = (leBytes r.ty.size (((s.unit u).atRead e i).value i sub)).take len ∧
      (a.flags = if a.data.length < r.ty.size then 1 else 0) ∧ a.dev = ((s.unit u).atRead e i).readEffect i sub) ∧
  (∀ (s : State) (u : UnitId) (e : Env) (i sub len : Nat) (r : Row), s.runs u → ((s.unit u).runBefore e).hears e →
    e.via ≠ .lp → ((s.unit u).atRead e i).serves i = true → len ≤ 1024 →
    ((s.unit u).atRead e i).cfg.rowOf i sub = some r → r.acc ≠ .wo → r.acc ≠ .cmd → r.ty.isBlob = true →
    ((s.unit u).atRead e i).readRefused i = false → ((s.unit u).atRead e i).slotBusy i = false →
    (((s.unit u).atRead e i).purgeLatches.srv.latches.filter (fun x => !sameSource x.who e)).length <
      ((s.unit u).atRead e i).get 0x1101_02 →
    Answers (exec (.read u e i sub 0 len) s) s u e 0x01 i sub 0 fun a =>
      a.abort = 0 ∧ a.wait = false ∧
      (let bs := (inCopy (((s.unit u).atRead e i).copyOf i) sub).getD []
       a.data = bs.take len ∧ a.flags = if a.data.length < bs.length then 5 else 4) ∧
      (∃ x ∈ a.dev.srv.latches, x.who = requesterOf e ∧ x.index = i ∧ x.copy = ((s.unit u).atRead e i).copyOf i) ∧
      a.dev = { (s.unit u).atRead e i with srv := a.dev.srv }) ∧
  (∀ (s : State) (u : UnitId) (e : Env) (i sub off len : Nat) (r : Row) (x : LatchEnt), s.runs u →
    ((s.unit u).runBefore e).hears e → e.via ≠ .lp → ((s.unit u).atRead e i).serves i = true → len ≤ 1024 →
    ((s.unit u).atRead e i).cfg.rowOf i sub = some r → r.acc ≠ .wo → r.acc ≠ .cmd → off ≠ 0 →
    ((s.unit u).atRead e i).readRefused i = false → ((s.unit u).atRead e i).latchOf e i = some x →
    off ≤ ((inCopy x.copy sub).getD []).length → 8 < ((inCopy x.copy sub).getD []).length →
    Answers (exec (.read u e i sub off len) s) s u e 0x01 i sub off fun a =>
      a.abort = 0 ∧ a.wait = false ∧
      (let bs := (inCopy x.copy sub).getD []
       a.data = (bs.drop off).take len ∧ a.flags = if off + a.data.length < bs.length then 5 else 4) ∧
      a.dev = { (s.unit u).atRead e i with srv := a.dev.srv }) ∧
  (∀ (s : State) (l : LeafId) (e : Env) (i sub off len : Nat) (r : Row), s.runs (.leaf l) → e.via = .lp →
    ((s.unit (.leaf l)).runBefore e).hears e → e.user = false → ((s.unit (.leaf l)).atRead e i).serves i = true →
    ((s.unit (.leaf l)).atRead e i).cfg.rowOf i sub = some r → r.acc ≠ .wo → r.acc ≠ .cmd → r.ty.isBlob = false →
    isRes ((s.unit (.leaf l)).atRead e i).cfg i = false → len ∈ [1, 2, 4, 8] → off % len = 0 → off + len ≤ 8 →
    Answers (exec (.read (.leaf l) e i sub off len) s) s (.leaf l) e 0x01 i sub off fun a =>
      a.abort = 0 ∧ a.wait = false ∧
      a.data = bytesAt (leBytes r.ty.size (((s.unit (.leaf l)).atRead e i).value i sub)) off len ∧
      a.dev = ((s.unit (.leaf l)).atRead e i).readEffect i sub)

/-- For every unit that runs and every whole write, over any transport, that the unit accepts, to a read-write scalar
among the settings of TapHub, the inrush gate and power-fail handling (objects to which their chapters give a write
no rule of its own): the command executes and succeeds, the object holds the value written with its reserved bits 0,
every other object keeps its value, and nothing but objects changes before the answer is sent. The units are of
their own builds. (R28, R25, R23, R14, R61) -/
def Obligations.WriteStoresTheValue : Prop :=
  ∀ (s : State) (u : UnitId) (e : Env) (i sub v : Nat) (r : Row), s.built → s.runs u → (s.unit u).accepts e i sub v →
    (s.dev u).cfg.rowOf i sub = some r → r.acc = .rw → i ∈ plainIndices → sub < 256 →
    Answers (exec (.write u e i sub 0 r.ty.size true (leBytes r.ty.size v)) s) s u e 0x02 i sub 0 fun a =>
      a.abort = 0 ∧ a.wait = false ∧ a.dev.get (key i sub) = r.masked v ∧
      ((s.unit u).heard e).onlyObjects a.dev [key i sub]

/-- READ_RECORD from Offset 0, with the counters scanned at its own tick, of an object that is served, may be read and
for which a latch is free, completes: its data are the first Length bytes of the record data of a copy of the
object, MORE says whether bytes remain, and the requester holds a latch with that copy. A later READ_RECORD at an
Offset inside latched record data of more than 8 bytes answers from the copy. IDENTIFY completes with the 15 bytes
of Build, DesignRevision, SerialNumber and UnitAddress and changes no object. A local-port read of State of a result
object latches a copy of it. (R42, R43, R44, R45, R62, R652, R132) -/
def Obligations.RecordsLatchesAndIdentity : Prop :=
  (∀ (s : State) (u : UnitId) (e : Env) (i len : Nat), s.runs u → ((s.unit u).runBefore e).hears e → ((s.unit u).atRead e i).serves i = true →
    len ≤ 1024 → ((s.unit u).atRead e i).readRefused i = false → ((s.unit u).atRead e i).slotBusy i = false → isVolt i = false →
    ((s.unit u).atRead e i).cfg.subsOf i ≠ [0] →
    (((s.unit u).atRead e i).purgeLatches.srv.latches.filter (fun x => !sameSource x.who e)).length < ((s.unit u).atRead e i).get 0x1101_02 →
    Answers (exec (.readRecord u e i 0 len) s) s u e 0x03 i 0 0 fun a =>
      a.abort = 0 ∧ a.data = (recordData (((s.unit u).atRead e i).copyOf i)).take len ∧
      (a.flags = if a.data.length < (recordData (((s.unit u).atRead e i).copyOf i)).length then 5 else 4) ∧
      (∃ x ∈ a.dev.srv.latches, x.who = requesterOf e ∧ x.index = i ∧ x.copy = ((s.unit u).atRead e i).copyOf i) ∧
      ((s.unit u).atRead e i).objectsKept a.dev []) ∧
  (∀ (s : State) (u : UnitId) (e : Env) (i off len : Nat) (x : LatchEnt), s.runs u → ((s.unit u).runBefore e).hears e →
    ((s.unit u).atRead e i).serves i = true → len ≤ 1024 → ((s.unit u).atRead e i).readRefused i = false → off ≠ 0 →
    ((s.unit u).atRead e i).cfg.subsOf i ≠ [0] → ((s.unit u).atRead e i).latchOf e i = some x → off ≤ (recordData x.copy).length →
    8 < (recordData x.copy).length →
    Answers (exec (.readRecord u e i off len) s) s u e 0x03 i 0 off fun a =>
      a.abort = 0 ∧ a.data = ((recordData x.copy).drop off).take len ∧
      (a.flags = if off + a.data.length < (recordData x.copy).length then 5 else 4)) ∧
  (∀ (s : State) (u : UnitId) (e : Env), s.runs u → (s.unit u).hears e →
    Answers (exec (.identify u e) s) s u e 0x06 0 0 0 fun a =>
      a.abort = 0 ∧ a.data.length = 15 ∧
      a.data = leBytes 1 ((s.unit u).value 0x1000 3) ++ leBytes 2 ((s.unit u).value 0x1000 4) ++
        leBytes 8 ((s.unit u).value 0x1000 5) ++ leBytes 4 ((s.unit u).value 0x1000 6) ∧
      a.dev = (s.unit u).heard e) ∧
  (∀ (s : State) (l : LeafId) (e : Env) (i : Nat) (r : Row), s.runs (.leaf l) → e.user = false →
    (s.dev (.leaf l)).cfg.build = .leaf → (s.dev (.leaf l)).serves i = true →
    (s.dev (.leaf l)).cfg.rowOf i 1 = some r → r.acc = .res → r.ty.isBlob = false →
    Answers (exec (.resLatchRead l e i) s) s (.leaf l) { e with via := .lp } 0x01 i 1 0 fun a =>
      a.abort = 0 ∧ a.dev.srv.resLatch = some (i, (s.unit (.leaf l)).copyOf i) ∧
      (s.unit (.leaf l)).onlyObjects { a.dev with srv := (s.unit (.leaf l)).srv } [])

/-- Each completion of a result object of a unit, with a payload of subindices from 0x04 to 0xFE: Seq is the Seq before
plus 1, modulo 2^32, and 1 where that is 0; so for the completions of FT_RECLAIM and of a good VSF_RECORD. SUBSCRIBE
of a result object that the requester does not hold, with room left, completes with success and adds one entry for
the requester and the object; by a requester that holds it, it keeps the number of entries; with no room it fails
with BUSY and changes nothing. UNSUBSCRIBE of a result object completes with success and leaves no entry of the
requester for it, whatever other entries stand. ACK with the result's current Seq completes with success and stores
the Seq in Ack; with another Seq it fails with STATE and changes nothing. (R38, R39) -/
def Obligations.SubscriptionsCompletionsAndAcks : Prop :=
  (∀ (s : State) (u : UnitId) (e : Env) (i : Nat), s.runs u → (s.unit u).hears e → (s.dev u).serves i = true →
    isRes (s.dev u).cfg i = true →
    Answers (exec (.subscribe u e i 0) s) s u e 0x04 i 0 0 fun a =>
      if (s.dev u).srv.subs.any (holdsSub e i) = true then
        a.abort = 0 ∧ a.dev.srv.subs.length = (s.dev u).srv.subs.length
      else if (s.dev u).srv.subs.length < (s.dev u).get 0x1101_03 then
        a.abort = 0 ∧ a.dev.srv.subs = (s.dev u).srv.subs ++ [⟨requesterOf e, e.segment, i, e.txn, e.mac⟩] ∧
        a.dev = { (s.unit u).heard e with srv := a.dev.srv }
      else a.abort = 0x09 ∧ a.dev = (s.unit u).heard e) ∧
  (∀ (s : State) (u : UnitId) (e : Env) (i : Nat), s.runs u → (s.unit u).hears e → (s.dev u).serves i = true →
    isRes (s.dev u).cfg i = true →
    Answers (exec (.unsubscribe u e i 0) s) s u e 0x05 i 0 0 fun a =>
      a.abort = 0 ∧ (∀ x ∈ a.dev.srv.subs, holdsSub e i x = false) ∧
      (∀ x ∈ (s.dev u).srv.subs, holdsSub e i x = false → x ∈ a.dev.srv.subs) ∧
      a.dev = { (s.unit u).heard e with srv := a.dev.srv }) ∧
  (∀ (s : State) (u : UnitId) (e : Env) (i seq : Nat), s.runs u → i < 0x10000 → (s.unit u).accepts e i 0xFF seq →
    (∀ r, (s.dev u).cfg.rowOf i 0xFF = some r → r.rng = .any ∧ r.ty = .u32) →
    Answers (exec (.ack u e i seq) s) s u e 0x02 i 0xFF 0 fun a =>
      if seq = (s.dev u).get (key i 2) then
        a.abort = 0 ∧ a.dev.get (key i 0xFF) = seq ∧ ((s.unit u).heard e).onlyObjects a.dev [key i 0xFF]
      else a.abort = 0x07 ∧ a.dev = (s.unit u).heard e) ∧
  (∀ (d : Dev) (i : Nat) (payload : List (Nat × Nat)) (blobs : List (Nat × Bytes)), i < 0x10000 → isRes d.cfg i = true →
    (∀ x ∈ payload, 4 ≤ x.1 ∧ x.1 < 0xFF) →
    let next := if (d.get (key i 2) + 1) % 2 ^ 32 = 0 then 1 else (d.get (key i 2) + 1) % 2 ^ 32
    (d.complete i payload).get (key i 2) = next ∧ (d.completeWith i blobs payload).get (key i 2) = next) ∧
  (∀ (s : State) (l : LeafId), s.built → s.runs (.leaf l) → (s.dev (.leaf l)).ftest.run.isSome = true →
    Yields (exec (.ftReclaim l) s) s (.leaf l) fun d =>
      let q := ((s.dev (.leaf l)).get 0x4405_02 + 1) % 2 ^ 32
      d.get 0x4405_02 = if q = 0 then 1 else q) ∧
  (∀ (s : State) (p : Nat) (b : Bytes), s.built → s.runs .trunk → p ≤ 255 → vsfGood b = true →
    Yields (exec (.vsfRecord p b) s) s .trunk fun d =>
      let q := (s.trunk.get 0x4431_02 + 1) % 2 ^ 32
      d.get 0x4431_02 = if q = 0 then 1 else q)

/-- A message of fewer than 24 bytes raises the violation count by one (modulo 2^32) and appends to the log, and is not
answered; a request in a frame for the unit that is neither its own nor one that a trunk routes or proxies is
counted in the misaddressed count, off the local port, nothing else changes and nothing is sent, and any other
MISADDRESSED changes nothing; an opcode below 0x80 that the list of opcodes lacks is answered with RANGE and changes
nothing else; a response whose data are as long as its Length and that answers a request the unit has outstanding is
taken, that request is outstanding no more, and the value that it read is known; a drop's answer to IDENTIFY sets
its bit of DropsSeen (log 93); any other changes nothing; latches unused for 1 s, and remembered Sources silent for
2 s, are the ones that LATCH_RELEASE and REPLAY_ENTRY_FREE drop. (R41, R45, R47, R65, R66, R650, R651) -/
def Obligations.MessagesThatAreNotExecuted : Prop :=
  (∀ (s : State) (u : UnitId) (bs : Bytes), s.runs u → bs.length < 24 →
    Yields (exec (.shortMessageDiscard u bs) s) s u fun d =>
      d.get 0x1F80_01 = ((s.dev u).get 0x1F80_01 + 1) % 2 ^ 32 ∧ d.out = [] ∧
      (s.unit u).objectsKept d [0x1F80_01, 0x1F80_02, 0x1F80_03, 0x2108_21] ∧
      d = { s.unit u with objs := d.objs, srv := d.srv }) ∧
  (∀ (s : State) (u : UnitId) (e : Env), s.runs u → (s.dev u).get 0x1101_07 + 1 < 2 ^ 32 →
    Yields (exec (.misaddressed u e) s) s u fun d =>
      if e.via ≠ .lp ∧ (s.unit u).hearsFrame e = true ∧ (s.unit u).takes e = false ∧ (s.unit u).passesOn e = false then
        d.get 0x1101_07 = (s.dev u).get 0x1101_07 + 1 ∧ d.out = [] ∧ d.lines = [] ∧ (s.unit u).onlyObjects d [0x1101_07]
      else d = s.unit u) ∧
  (∀ (s : State) (u : UnitId) (e : Env) (op i sub : Nat), s.runs u → (s.unit u).hears e → op < 0x80 →
    op ∉ [1, 2, 3, 4, 5, 6] →
    Answers (exec (.unlistedOpcode u e op i sub) s) s u e op i sub 0 fun a =>
      a.abort = 0x06 ∧ a.data = [] ∧ a.dev = (s.unit u).heard e) ∧
  (∀ (s : State) (u : UnitId) (op txn src i len ab : Nat) (bs : Bytes) (drop : Option (Nat × Nat)), s.runs u →
    Yields (exec (.sdpResponse u op txn src i len ab bs drop) s) s u fun d =>
      if bs.length < len ∨ op < 0x80 then d = s.unit u
      else match (s.dev u).srv.asked.find? (·.answeredBy op txn src drop) with
      | some x =>
        (∃ r, d.srv.received = [r] ∧ r.opcode = op ∧ r.txn = txn ∧ r.source = src ∧ r.abort = ab ∧ r.data = bs.take len) ∧
        d.srv.asked = (s.dev u).srv.asked.erase x ∧
        (ab = 0 → x.opcode ≠ 2 → ((x.dest, x.index, x.sub), bs.take len) ∈ d.srv.known) ∧
        d = { s.unit u with srv := { (s.dev u).srv with received := d.srv.received, asked := d.srv.asked, known := d.srv.known } }
      | none =>
        if (s.unit u).identified op i len ab drop = true then
          (∃ r, d.srv.received = [r] ∧ r.opcode = op ∧ r.txn = txn ∧ r.data = bs.take len) ∧
          ∀ g n, drop = some (g, n) → g < 16 → 1 ≤ n → n ≤ 16 → (d.get (key (0x1110 + g) 4)).testBit n = true ∧
            (s.unit u).onlyObjects { d with srv := (s.unit u).srv } [key (0x1110 + g) 4]
        else d = s.unit u) ∧
  (∀ (s : State) (u : UnitId), s.runs u →
    Yields (exec (.latchRelease u) s) s u fun d =>
      (∀ x, x ∈ d.srv.latches ↔ x ∈ (s.dev u).srv.latches ∧ (s.dev u).time.ns < x.lastUse + 1000000000) ∧
      d = { s.unit u with srv := d.srv }) ∧
  (∀ (s : State) (u : UnitId), s.runs u →
    Yields (exec (.replayEntryFree u) s) s u fun d =>
      (∀ x ∈ d.srv.replay, (s.dev u).time.ns < x.last + 2000000000) ∧
      (∀ x ∈ (s.dev u).srv.replay, (s.dev u).time.ns < x.last + 2000000000 →
        ∃ y ∈ d.srv.replay, y.who = x.who ∧ y.last = x.last) ∧
      d = { s.unit u with srv := d.srv })

/-- PROXY_REQUEST, in a frame or datagram for the trunk, from an export port with export SDP enabled or from the service
port, for another unit, with a slot free and the trunk not in Quickset mode, to a leaf of the trunk's own Stem ports
that the export partition may reach: the trunk sends the request on in-band with Source the trunk's address plus the
slot and the requester's TxnId, Index, Sub, Flags, Offset and data, and the slot is held with the requester's TxnId
and Source; where the partition may not reach the leaf, the requester is answered FENCED and the slot is free again.
With no slot free the requester is told BUSY, in Quickset mode STATE, and no slot is taken. From a service segment,
to such a leaf, the request goes on as it is and takes no slot. PROXY_RESPONSE to a slot and TxnId in use goes to
that requester under its own address, with the responder's Source, Index, Sub, Flags, Offset and data, on the
service port in a frame to its MAC address, and frees the slot alone; PROXY_SLOT_TIMEOUT drops a slot 100 ms after
its request, and no other. (R56, R57, R58, R59, R66, R412) -/
def Obligations.ProxySlotsCarryRequests : Prop :=
  (∀ (s : State) (e : Env) (o : Origin) (op i sub fl off len : Nat) (bs : Bytes), s.runs .trunk →
    (s.unit .trunk).hearsFrame e = true → (s.unit .trunk).takes e = false → (s.unit .trunk).passesOn e = true →
    e.via = .servicePort ∨ e.via = .exportNet → op < 0x80 → e.txn < 2 ^ 16 →
    Yields (exec (.proxyRequest e o op i sub off len ⟨fl, bs⟩) s) s .trunk fun d =>
      if (s.unit .trunk).quickset = true then
        (∃ r, .proxied o r ∈ d.out ∧ r.abort = 0x07 ∧ r.txn = e.txn ∧ r.dest = e.source) ∧ d.srv.slots = s.trunk.srv.slots
      else match (s.unit .trunk).freeSlot with
      | none => (∃ r, .proxied o r ∈ d.out ∧ r.abort = 0x09 ∧ r.txn = e.txn ∧ r.dest = e.source) ∧
          d.srv.slots = s.trunk.srv.slots
      | some n =>
        addrTrunk e.dest = s.trunk.get 0x3100_01 → e.dest.testBit 20 = false →
        if s.trunk.get 0x3100_08 = 0 ∨ s.trunk.stemPartition (e.dest % 256) = s.trunk.get 0x3100_08 then
          d.out = [.request .inband 0
            { opcode := op, txn := e.txn, dest := e.dest, source := 0x100000 + s.trunk.get 0x3100_01 * 256 + n, index := i,
              sub := sub, flags := fl % 8, offset := off, length := len, data := bs }] ∧
          d.srv.slots = s.trunk.srv.slots ++ [⟨n, e.txn, op, e.via, o, e.source, s.trunk.time.ns⟩] ∧ d.objs = s.trunk.objs
        else (∃ r, .proxied o r ∈ d.out ∧ r.abort = 0x08 ∧ r.txn = e.txn ∧ r.dest = e.source) ∧
          d.srv.slots = s.trunk.srv.slots) ∧
  (∀ (s : State) (e : Env) (o : Origin) (op i sub fl off len : Nat) (bs : Bytes), s.runs .trunk →
    (s.unit .trunk).hearsFrame e = true → (s.unit .trunk).takes e = false → (s.unit .trunk).passesOn e = true →
    e.via = .service → addrTrunk e.dest = s.trunk.get 0x3100_01 → e.dest.testBit 20 = false →
    (s.trunk.dropPartition e.source = 0 ∨ s.trunk.stemPartition (e.dest % 256) = s.trunk.dropPartition e.source) →
    Yields (exec (.proxyRequest e o op i sub off len ⟨fl, bs⟩) s) s .trunk fun d =>
      d.out = [.request .inband 0
        { opcode := op, txn := e.txn, dest := e.dest, source := e.source, index := i, sub := sub, flags := fl % 8,
          offset := off, length := len, data := bs }] ∧ d.srv = s.trunk.srv ∧ d.objs = s.trunk.objs) ∧
  (∀ (s : State) (slot txn op src i sub fl off ab : Nat) (bs : Bytes) (x : ProxySlot), s.runs .trunk →
    s.trunk.srv.slots.find? (fun x => x.slot = slot && x.txn = txn) = some x →
    Yields (exec (.proxyResponse slot txn op ab ⟨src, i, sub, fl, off, bs⟩) s) s .trunk fun d =>
      (∃ r, d.out = [.proxied x.origin r] ∧ r.opcode = op ∧ r.txn = txn ∧ r.dest = x.source ∧ r.source = src ∧ r.index = i ∧
        r.sub = sub ∧ r.flags = fl % 8 ∧ r.offset = off ∧ r.abort = ab ∧ r.data = bs ∧
        (∀ a, x.origin = .mac a →
          d.lines = [.ether .servicePort 0 (etherFrame a ((s.unit .trunk).mac .servicePort) (sdpBytes r))])) ∧
      (∀ y, y ∈ d.srv.slots ↔ y ∈ s.trunk.srv.slots ∧ y.slot ≠ slot) ∧
      d = { s.trunk with srv := d.srv, out := d.out, lines := d.lines }) ∧
  (∀ (s : State) (slot : Nat), s.runs .trunk →
    Yields (exec (.proxySlotTimeout slot) s) s .trunk fun d =>
      (∀ y, y ∈ d.srv.slots ↔ y ∈ s.trunk.srv.slots ∧ ¬ (y.slot = slot ∧ y.time + 100000000 ≤ s.trunk.time.ns)) ∧
      d = { s.unit .trunk with srv := d.srv })

/-- STORE_CONFIG on a trunk that accepts it with the value "save" and is not writing an image succeeds and puts the
trunk's SAVED values into the configuration image, in place of earlier ones of that address; with another value it
fails with RANGE. On a leaf whose link is UP, with an address and no StoreConfig waiting, it gives no answer yet,
sends its values and waits; the trunk of the model, where the leaf's address is one of its own, commits them, or
refuses with BUSY while it is writing an image. STORE_CONFIG_TIMEOUT, once the link is not UP or 50 ms have passed,
and COMMIT_CONFIRMATION end the wait with INTERNAL and with what the model's trunk has made of the values, or, of
another trunk, the confirmation's own result. RESTORE_DEFAULTS with the value "load" succeeds, and where the SAVED
objects that hold values are settings of the plain kind they all read as their defaults and every other object keeps
its value; with another value it fails with RANGE. (R31, R32, R607, R615) -/
def Obligations.ConfigurationIsStoredAndRestored : Prop :=
  (∀ (s : State) (e : Env) (v : Nat), s.built → s.runs .trunk → (s.unit .trunk).accepts e 0x1010 0 v →
    Answers (exec (.storeConfig .trunk e v) s) s .trunk e 0x02 0x1010 0 0 fun a =>
      if v ≠ 0x65766173 then a.abort = 0x06 ∧ a.dev = (s.unit .trunk).heard e
      else if (s.unit .trunk).writing = true then a.abort = 0x09 ∧ a.dev = (s.unit .trunk).heard e
      else a.abort = 0 ∧
        (∃ c ∈ a.dev.tk.flash.conf, c.unit = s.trunk.get 0x1000_06 ∧ c.major = s.trunk.get 0x1001_01 ∧
          c.vals = s.trunk.savedVals) ∧
        (∀ c, c.unit ≠ s.trunk.get 0x1000_06 → (c ∈ a.dev.tk.flash.conf ↔ c ∈ s.trunk.tk.flash.conf)) ∧
        a.dev.objs = s.trunk.objs) ∧
  (∀ (s : State) (l : LeafId) (e : Env), s.built → s.runs (.leaf l) → (s.unit (.leaf l)).accepts e 0x1010 0 0x65766173 →
    (s.unit (.leaf l)).stemState (.leaf (s.unit (.leaf l)).leafId) = 4 → (s.unit (.leaf l)).unassigned = false →
    (s.dev (.leaf l)).srv.storing = none →
    let mine : Bool := (s.dev (.leaf l)).get 0x1000_06 / 256 = s.trunk.get 0x3100_01 && !s.trunk.boot.held
    ∃ t, exec (.storeConfig (.leaf l) e 0x65766173) s = .next t ∧
      (t.dev (.leaf l)).srv.storing = some ⟨e, 0x02, 0x1010, 0, (s.dev (.leaf l)).time.ns,
        if mine then some (if s.trunk.writing then 0x09 else 0) else none⟩ ∧
      (t.dev (.leaf l)).out = [.config (s.dev (.leaf l)).confEnt] ∧ (t.dev (.leaf l)).objs = (s.dev (.leaf l)).objs ∧
      t.trunk = (if mine && !s.trunk.writing then s.trunk.commitConf (s.dev (.leaf l)).confEnt else s.trunk) ∧
      t.mem = s.mem ∧ t.pending = s.pending) ∧
  (∀ (s : State) (l : LeafId) (w : Waiting), s.runs (.leaf l) → (s.dev (.leaf l)).srv.storing = some w →
    ((s.unit (.leaf l)).stemState (.leaf (s.unit (.leaf l)).leafId) ≠ 4 ∨ w.time + 50000000 ≤ (s.dev (.leaf l)).time.ns) →
    Yields (exec (.storeConfigTimeout l) s) s (.leaf l) fun d => ∃ a : Ans,
      d = a.dev.finish w.env w.opcode w.index w.sub 0 a ∧ a.abort = 0x0B ∧ a.dev.srv.storing = none ∧
      a.dev = { s.unit (.leaf l) with srv := a.dev.srv }) ∧
  (∀ (s : State) (l : LeafId) (w : Waiting) (ab : Nat), s.runs (.leaf l) → (s.dev (.leaf l)).srv.storing = some w →
    Yields (exec (.commitConfirmation l ab) s) s (.leaf l) fun d => ∃ a : Ans,
      d = a.dev.finish w.env w.opcode w.index w.sub 0 a ∧ a.abort = w.result.getD ab ∧ a.dev.srv.storing = none ∧
      a.dev = { s.unit (.leaf l) with srv := a.dev.srv }) ∧
  (∀ (s : State) (u : UnitId) (e : Env) (v : Nat), s.runs u → (s.unit u).accepts e 0x1011 0 v →
    Answers (exec (.restoreDefaults u e v) s) s u e 0x02 0x1011 0 0 fun a =>
      if v = 0x64616F6C then a.abort = 0 ∧
        ((∀ k ∈ (s.unit u).savedKeys, k / 256 ∈ plainIndices) →
          (∀ k ∈ (s.unit u).savedKeys, a.dev.get k = (s.dev u).cfg.default k) ∧
          ((s.unit u).heard e).onlyObjects a.dev (s.unit u).savedKeys)
      else a.abort = 0x06 ∧ a.dev = (s.unit u).heard e)

/-- On each of a leaf's four pairs. LOCAL_INDIRECT_SELECT of a value with Offset 0 that names a served object with a row
that may be read, not held by the result latch: with the counters it presents scanned: it succeeds, Length is the
number of the object's bytes, the pair's copy is those bytes and its staging buffer is empty (log 95), and of a
sensor's MinV the minimum is re-armed; with another Offset it only stores Select. LOCAL_INDIRECT_DATA_READ answers
the 8 bytes of the copy at Offset and LOCAL_INDIRECT_DATA_WRITE puts 8 bytes into the staging buffer at Offset;
either moves Offset on by 8 and keeps the rest of Select. LOCAL_INDIRECT_COMMIT of 1, with Select naming a read-
write scalar of the plain kind, Length its size and a value in its range staged: the object holds that value with
its reserved bits 0. Other objects keep their values. (R63, R64, R132, R157) -/
def Obligations.IndirectionPairsReachAnyObject : Prop :=
  (∀ (s : State) (l : LeafId) (e : Env) (p : Nat) (v : Word) (r : Row), s.built → s.runs (.leaf l) → p < 4 →
    let d0 := (s.unit (.leaf l)).runBefore e
    let sel := selectOf (v.toNat % 2 ^ 56)
    let d1 := (d0.set (key (0x1180 + p) 1) (v.toNat % 2 ^ 56)).scanFor sel.2.2
    let bs := d1.wire sel.2.2 sel.2.1 r.ty
    d0.accepts (pairEnv e) (0x1180 + p) 1 v.toNat →
    (sel.1 = 0 → d0.serves sel.2.2 = true ∧ d0.cfg.rowOf sel.2.2 sel.2.1 = some r ∧
      d0.readRefused sel.2.2 = false ∧ r.acc ≠ .wo ∧ r.acc ≠ .cmd ∧ (∀ x, d0.srv.resLatch = some x → x.1 ≠ sel.2.2) ∧
      sel.2.2 ∉ [0x1180, 0x1181, 0x1182, 0x1183] ∧ bs.length < 2 ^ 32) →
    Answers (exec (.localIndirectSelect l e p v) s) s (.leaf l) (pairEnv e) 0x02 (0x1180 + p) 1 0 fun a =>
      a.abort = 0 ∧ a.dev.get (key (0x1180 + p) 1) = v.toNat % 2 ^ 56 ∧
      (sel.1 = 0 → a.dev.get (key (0x1180 + p) 4) = bs.length ∧
        (p < d0.srv.pairs.length → a.dev.pair p = { copy := bs, staging := [] }) ∧
        d1.objectsKept a.dev ([key (0x1180 + p) 1, key (0x1180 + p) 4] ++
          if isVolt sel.2.2 && sel.2.1 = 2 then [key sel.2.2 2, key sel.2.2 3] else [])) ∧
      (sel.1 ≠ 0 → a.dev.srv = d0.srv ∧ d0.objectsKept a.dev [key (0x1180 + p) 1])) ∧
  (∀ (s : State) (l : LeafId) (e : Env) (p : Nat), s.built → s.runs (.leaf l) → p < 4 → e.user = false →
    (s.unit (.leaf l)).quickset = false → (s.dev (.leaf l)).get (key (0x1180 + p) 1) < 2 ^ 56 →
    Answers (exec (.localIndirectDataRead l e p) s) s (.leaf l) (pairEnv e) 0x01 (0x1180 + p) 2 0 fun a =>
      let sel := selectOf ((s.dev (.leaf l)).get (key (0x1180 + p) 1))
      a.abort = 0 ∧ a.data = leBytes 8 ((s.unit (.leaf l)).pairData p) ∧
      selectOf (a.dev.get (key (0x1180 + p) 1)) = ((sel.1 + 8) % 2 ^ 32, sel.2.1, sel.2.2) ∧
      (s.unit (.leaf l)).onlyObjects a.dev [key (0x1180 + p) 1]) ∧
  (∀ (s : State) (l : LeafId) (e : Env) (p : Nat) (v : Word), s.built → s.runs (.leaf l) → p < 4 →
    (s.unit (.leaf l)).accepts (pairEnv e) (0x1180 + p) 2 v.toNat →
    (s.dev (.leaf l)).get (key (0x1180 + p) 1) < 2 ^ 56 → p < (s.dev (.leaf l)).srv.pairs.length →
    Answers (exec (.localIndirectDataWrite l e p v) s) s (.leaf l) (pairEnv e) 0x02 (0x1180 + p) 2 0 fun a =>
      let sel := selectOf ((s.dev (.leaf l)).get (key (0x1180 + p) 1))
      a.abort = 0 ∧ (a.dev.pair p).staging = patch ((s.dev (.leaf l)).pair p).staging sel.1 (leBytes 8 v.toNat) ∧
      (a.dev.pair p).copy = ((s.dev (.leaf l)).pair p).copy ∧
      selectOf (a.dev.get (key (0x1180 + p) 1)) = ((sel.1 + 8) % 2 ^ 32, sel.2.1, sel.2.2) ∧
      (s.unit (.leaf l)).objectsKept a.dev [key (0x1180 + p) 1]) ∧
  (∀ (s : State) (l : LeafId) (e : Env) (p : Nat) (r : Row), s.built → s.runs (.leaf l) → p < 4 →
    (s.unit (.leaf l)).accepts (pairEnv e) (0x1180 + p) 3 1 →
    let sel := selectOf ((s.dev (.leaf l)).get (key (0x1180 + p) 1))
    let x := natAt ((s.dev (.leaf l)).pair p).staging 0 r.ty.size
    sel.2.2 ∈ plainIndices → (s.dev (.leaf l)).serves sel.2.2 = true →
    (s.dev (.leaf l)).cfg.rowOf sel.2.2 sel.2.1 = some r → r.acc = .rw → r.ty.isBlob = false → r.admits x = true →
    (s.dev (.leaf l)).get (key (0x1180 + p) 4) = r.ty.size →
    Answers (exec (.localIndirectCommit l e p 1) s) s (.leaf l) (pairEnv e) 0x02 (0x1180 + p) 3 0 fun a =>
      a.abort = 0 ∧ a.dev.get (key sel.2.2 sel.2.1) = r.masked x ∧
      (s.unit (.leaf l)).onlyObjects a.dev [key sel.2.2 sel.2.1])

/-- FLAG_CLEAR of a 32-bit RWC object that the unit accepts succeeds: a bit written as 1 becomes 0 unless hardware has
set it in this tick, when it is 1; a bit written as 0 keeps its value; objects other than the register and its set-
counts keep their values. MODE_CHANGE at a window boundary removes from what waits every entry of its index and no
other; where one entry waits for a mode object whose change does nothing besides (those of Power, AnalysisFabric,
Thicket and FieldTest), the object holds its value and no other object changes; off a boundary nothing changes. (R8,
R9, R25, R26, R81, R148) -/
def Obligations.FlagsClearAndModesChange : Prop :=
  (∀ (s : State) (u : UnitId) (e : Env) (i : Nat) (v : BitVec 32) (r : Row), s.runs u → i < 0x10000 →
    (s.unit u).accepts e i 0 v.toNat → (s.dev u).cfg.rowOf i 0 = some r → r.acc = .rwc → r.ty = .bits32 →
    (s.dev u).get (key i 0) < 2 ^ 32 →
    Answers (exec (.flagClear u e i 0 v) s) s u e 0x02 i 0 0 fun a =>
      a.abort = 0 ∧
      (∀ b < 32, (a.dev.get (key i 0)).testBit b =
        if (r.masked v.toNat).testBit b = true then (s.dev u).sets.contains (i, b)
        else ((s.dev u).get (key i 0)).testBit b) ∧
      (∀ k, k ≠ key i 0 → k / 256 ≠ i + 1 → a.dev.get k = (s.dev u).get k) ∧
      a.dev = { (s.unit u).heard e with objs := a.dev.objs }) ∧
  (∀ (s : State) (u : UnitId) (i : Nat), s.runs u →
    Yields (exec (.modeChange u i) s) s u fun d =>
      if (s.unit u).boundary = true then
        (∀ x, x ∈ d.time.modePending ↔ x ∈ (s.dev u).time.modePending ∧ x.1 / 256 ≠ i) ∧
        (∀ v, v < 256 → i ∈ [0x2400, 0x4000, 0x4200, 0x4400] →
          (s.dev u).time.modePending.filter (fun x => x.1 / 256 = i) = [(key i 0, v)] →
          d.get (key i 0) = v ∧ (s.unit u).objectsKept d [key i 0])
      else d = s.unit u)

/-- For every unit that runs and every set of inputs, SAMPLE_TICK completes: FleetTime, as a count of 2^-32 ns, has
grown by a positive number of Increments, the least that reaches the next multiple of 8 ns after the newest tick
(one Increment if it stands past it), modulo 2^96; the tick's number is the nanoseconds divided by 8, and a leaf's
hub drives its low 8 bits on the tick-count bus; the unit's build, its reset input, its memory and the other units
are unchanged. In a leaf held in reset only the region_off pins follow their fault inputs, region by region. (An
Increment of 0, which no write can give, counts as 1.) (R72, R73, R76, R77, R636) -/
def Obligations.SampleTicksAdvanceFleetTime : Prop :=
  (∀ (s : State) (u : UnitId) (i : TickIn), s.runs u →
    Yields (exec (.sampleTick u i) s) s u fun d =>
      let inc := max 1 ((s.dev u).get 0x2001_03)
      let goal := 8 * ((s.dev u).time.tick + 1) * 2 ^ 32
      let old := (s.dev u).time.ns * 2 ^ 32 + (s.dev u).time.frac
      (∃ n, 1 ≤ n ∧ goal ≤ old + n * inc ∧ (n = 1 ∨ old + n * inc < goal + inc) ∧
        d.time.ns = (old + n * inc) / 2 ^ 32 % 2 ^ 64 ∧ d.time.frac = (old + n * inc) % 2 ^ 32) ∧
      d.time.tick = d.time.ns / 8 ∧ (u ≠ .trunk → .tickBus (d.time.tick % 256) ∈ d.out) ∧ d.boot.first = false ∧ d.boot.held = false) ∧
  (∀ (s : State) (l : LeafId) (i : TickIn), (s.dev (.leaf l)).boot.held = true → (s.dev (.leaf l)).cfg.build = .leaf →
    Yields (exec (.sampleTick (.leaf l) i) s) s (.leaf l) fun d =>
      d = { s.unit (.leaf l) with out := d.out } ∧
      ∀ r < (s.dev (.leaf l)).cfg.powerRegions, .pin .regionOff r (b2n (i.regFault.getLsbD r)) ∈ d.out)

/-- TIME_MESSAGE_SEND on a link that is UP and whose ExchangePeriod has elapsed, in ticks run: a leaf sends one message,
in a UNSEQ link frame of class 0, with the link's next Seq, the stamp of its previous message and the newest stamp
received where there are such, TIME_UNCERTAIN and HOST as they hold, and a transmit stamp of its own FleetTime at
the send, in units of 2^-6 ns; the link's Seq counts on modulo 65,536 and its period begins anew. At a trunk the
message joins class 0 of its port, and is sent so, on a Pleach port in a TIME flit, where class 0's shaper lets it;
else it waits there. Before the period has elapsed and with none waiting, or on a link that is not UP, nothing
changes. TIME_MESSAGE on a link that is UP that passes its CRC: the newest Seq, the receive stamp of the unit's own
FleetTime and UNCERTAIN are kept; on a Stem port of a trunk, which follows no one, the messages missing between are
added to the loss count and nothing else changes. One that fails its CRC, or on a link that is not UP, changes
nothing. (R83, R84, R87, R88, R89, R90, R326, R334, R369, R384) -/
def Obligations.TimeMessagesCarryStamps : Prop :=
  (∀ (s : State) (l : LeafId) (tx : Stamp), s.runs (.leaf l) →
    Yields (exec (.timeMessageSend (.stem (.leaf l)) tx) s) s (.leaf l) fun d =>
      let p : TimePort := .stem (.leaf l)
      if (s.unit (.leaf l)).linkUp p = true ∧ (s.unit (.leaf l)).timeDue p = true then (s.unit (.leaf l)).sendsTime d p tx true
      else d = s.unit (.leaf l)) ∧
  (∀ (s : State) (p : TimePort) (g : EgressId) (n : Nat) (tx : Stamp), s.runs .trunk →
    p = .stem (.trunk n) ∧ g = .stem n ∨ p = .pleach n ∧ g = .pleach n →
    Yields (exec (.timeMessageSend p tx) s) s .trunk fun d =>
      if (s.unit .trunk).linkUp p = false then d = s.unit .trunk
      else if ((s.unit .trunk).queueTime p g).timeWaits g = true then (s.unit .trunk).sendsTime d p tx ((s.unit .trunk).timeDue p)
      else d = (s.unit .trunk).queueTime p g) ∧
  (∀ (s : State) (p : TimePort) (data : Bytes) (ok : Bool) (rx : Stamp), s.runs (timeUnit p) →
    Yields (exec (.timeMessage p ⟨data, ok⟩ rx) s) s (timeUnit p) fun d =>
      if (s.dev (timeUnit p)).linkUp p = true ∧ ok = true then
        timeSlot p < (s.dev (timeUnit p)).time.links.length →
        (d.timeLink p).peerRx = some ((readTime data).seq, (s.dev (timeUnit p)).linkStamp true rx) ∧
        (d.timeLink p).uncertain = (readTime data).uncertain ∧
        (d.timeLink p).txSeq = ((s.dev (timeUnit p)).timeLink p).txSeq
      else d = s.unit (timeUnit p)) ∧
  (∀ (s : State) (n : Nat) (data : Bytes) (rx : Stamp) (last : Nat) (t : Stamp), s.runs .trunk →
    s.trunk.linkUp (.stem (.trunk n)) = true → (s.trunk.timeLink (.stem (.trunk n))).peerRx = some (last, t) →
    s.trunk.get 0x2005_02 + 65536 < 2 ^ 32 →
    Yields (exec (.timeMessage (.stem (.trunk n)) ⟨data, true⟩ rx) s) s .trunk fun d =>
      d.get 0x2005_02 = s.trunk.get 0x2005_02 + (seqDiff 16 (readTime data).seq ((last + 1) % 65536)).toNat ∧
      d = { s.unit .trunk with objs := d.objs, time := { s.trunk.time with links := d.time.links } } ∧
      (s.unit .trunk).objectsKept d [0x2005_02])

/-- INCREMENT_APPLY in HW mode at or after its tick: Increment takes the value computed and nothing waits.
EXCHANGE_TIMEOUT, 16 exchange periods after the last accepted exchange in HW mode: ACQUIRE becomes FREE_RUN, LOCKED
becomes HOLDOVER, and in other states nothing changes. HOLDOVER_EXPIRED in HOLDOVER after its limit: FREE_RUN, its
flag bit 2 set and a TIME_EVENT record of event 3 at the current stamp written. (Times are counted in ticks run,
which a step does not move.) SOURCE_TIMEOUT at a trunk that may be a source and knows no fresh advertisement, once
its limit has passed: it enters SOURCE under its own ID with 0 hops. Objects outside those of FleetTime, its flags,
the always-on and the recorder's objects keep their values. (R92, R93, R94, R99, R101, R217) -/
def Obligations.ServoStatesTimeOut : Prop :=
  (∀ (s : State) (u : UnitId) (v due : Nat), s.runs u → (s.dev u).time.newInc = some (v, due) →
    due ≤ (s.dev u).time.tick → (s.dev u).timeHost = false → v < 2 ^ 64 →
    Yields (exec (.incrementApply u) s) s u fun d =>
      d.get 0x2001_03 = v ∧ d.time = { (s.dev u).time with newInc := none } ∧
      (s.unit u).objectsKept d [0x2001_03] ∧ d = { s.unit u with objs := d.objs, time := d.time }) ∧
  (∀ (s : State) (u : UnitId), s.runs u → (s.dev u).timeHost = false →
    (s.dev u).time.lastAccept + 128 * (s.dev u).get 0x2005_01 ≤ (s.dev u).elapsed →
    Yields (exec (.exchangeTimeout u) s) s u fun d =>
      ((s.dev u).servo = .acquire → d.get 0x2002_01 = 0 ∧ d.get 0x2002_02 = 0xFF) ∧
      ((s.dev u).servo = .locked → d.get 0x2002_01 = 3) ∧
      ((s.dev u).servo ≠ .acquire → (s.dev u).servo ≠ .locked → d = s.unit u) ∧
      (s.unit u).objectsKept d [0x2002_01, 0x2002_02, 0x2001_03, 0x2002_0F] ∧
      d = { s.unit u with objs := d.objs, time := d.time } ∧ d.time.ns = (s.dev u).time.ns) ∧
  (∀ (s : State) (u : UnitId), s.runs u → (s.dev u).servo = .holdover →
    (s.dev u).time.holdSince + (s.dev u).get 0x2002_09 ≤ (s.dev u).elapsed →
    Yields (exec (.holdoverExpired u) s) s u fun d =>
      d.get 0x2002_01 = 0 ∧ d.get 0x2002_02 = 0xFF ∧ (d.get 0x2006_00).testBit 2 = true ∧
      (s.dev u).wrote d 0x08 (s.dev u).stamp (leBytes 1 3 ++ zeros 3 ++ leInt 8 0) ∧
      (∀ k, k / 256 ∉ [0x2001, 0x2002, 0x2006, 0x2007, 0x2108, 0x2600, 0x2606, 0x2607] → d.get k = (s.dev u).get k)) ∧
  (∀ (s : State), s.runs .trunk → s.trunk.servo ≠ .source → s.trunk.bestAdvert = none → s.trunk.get 0x2004_01 < 255 →
    s.trunk.get 0x3100_01 < 4096 → s.trunk.time.upPort = none → s.trunk.get 0x2004_06 ≤ s.trunk.elapsed →
    Yields (exec .sourceTimeout s) s .trunk fun d =>
      d.get 0x2002_01 = 4 ∧ d.get 0x2002_02 = 0xFF ∧ d.get 0x2004_02 = s.trunk.get 0x3100_01 ∧ d.get 0x2004_03 = 0 ∧
      d.time.upPort = none ∧
      (∀ k, k / 256 ∉ [0x2001, 0x2002, 0x2004, 0x2006, 0x2007, 0x2108, 0x2600, 0x2606, 0x2607] →
        d.get k = s.trunk.get k))

/-- STEP_CMD that the unit accepts: in HW mode it fails with STATE; in HOST mode, of a value that is no multiple of 8,
with RANGE; else FleetTime has moved by the value modulo 2^64, the tick's number with it, the STEPPED flag stands,
and a TIME_EVENT record of event 2 with the value is written. POP of at most the entries held removes that many from
the front of the queue; of more it fails with RANGE. PTP_EVENT_MESSAGE_SEND on export port 0 or 1 with the clock
enabled, of a message of its delay mechanism, with room queues a 16-byte entry of its port, kind, sequence number
and stamp; with no room it sets flag 4 and queues nothing; any other changes nothing. PTP_MESSAGE with the clock
enabled and locked, from messages of the subset and the settings in use, before the mapping has begun: UtcMap
becomes READY with the PTP time, the FleetTime of the measurement and MAPPED. UTC_RESTEP of 1 makes the next
measurement a first one. (R95, R96, R104, R105, R106, R108, R109, R115) -/
def Obligations.TimeIsSteppedAndStampsQueued : Prop :=
  (∀ (s : State) (u : UnitId) (e : Env) (v : Int), s.runs u → -2 ^ 63 ≤ v → v < 2 ^ 63 →
    (s.unit u).accepts e 0x2001 4 (ofSigned 64 v) →
    Answers (exec (.stepCmd u e v) s) s u e 0x02 0x2001 4 0 fun a =>
      if (s.dev u).timeHost = false then a.abort = 0x07 ∧ a.dev = (s.unit u).heard e
      else if v % 8 ≠ 0 then a.abort = 0x06 ∧ a.dev = (s.unit u).heard e
      else a.abort = 0 ∧ (a.dev.time.ns : Int) = ((s.dev u).time.ns + v) % 2 ^ 64 ∧
        a.dev.time.tick = a.dev.time.ns / 8 ∧ (a.dev.get 0x2006_00).testBit 1 = true ∧
        (s.dev u).wrote a.dev 0x08 (s.dev u).stamp (leBytes 1 2 ++ zeros 3 ++ leInt 8 v)) ∧
  (∀ (s : State) (u : UnitId) (e : Env) (k : Nat), s.runs u → (s.unit u).accepts e 0x2008 4 k →
    Answers (exec (.pop u e k) s) s u e 0x02 0x2008 4 0 fun a =>
      if k ≤ (s.dev u).time.txq.length then
        a.abort = 0 ∧ a.dev.time.txq = (s.dev u).time.txq.drop k ∧ a.dev = { (s.unit u).heard e with time := a.dev.time }
      else a.abort = 0x06 ∧ a.dev = (s.unit u).heard e) ∧
  (∀ (s : State) (port seq : Nat) (k : PtpKind) (tx : Stamp), s.runs .trunk →
    Yields (exec (.ptpEventMessageSend port k seq tx) s) s .trunk fun d =>
      let st := s.trunk.linkStamp false tx
      if ¬ (port ≤ 1 ∧ s.trunk.on 0x2011_01 = true ∧ (k = .delayReq ↔ s.trunk.on 0x2011_02 = false)) then d = s.unit .trunk
      else if s.trunk.time.txq.length < s.trunk.get 0x2008_01 then
        d.time.txq = s.trunk.time.txq ++ [leBytes 1 (0x40 + port) ++ leBytes 1 (ptpKindCode k) ++ leBytes 2 seq ++
          leBytes 2 st.frac ++ zeros 2 ++ leBytes 8 st.ns] ∧ d = { s.unit .trunk with time := d.time }
      else d.time = s.trunk.time ∧ (d.get 0x2006_00).testBit 4 = true ∧
        (s.unit .trunk).onlyObjects d [0x2008_03, 0x2006_00, 0x2007_05, 0x2108_22]) ∧
  (∀ (s : State) (m : PtpMeas), s.runs .trunk → s.trunk.on 0x2011_01 = true → s.trunk.ptpFits m = true → m.locked = true →
    s.trunk.get 0x2010_08 < 2 → m.ptpTime < 2 ^ 64 → s.trunk.time.ns < 2 ^ 64 →
    Yields (exec (.ptpMessage m) s) s .trunk fun d =>
      d.get 0x2010_01 = 2 ∧ d.get 0x2010_04 = m.ptpTime ∧ d.get 0x2010_05 = s.trunk.time.ns ∧ d.get 0x2010_08 = 2 ∧
      d.get 0x2010_02 = nextSeq (s.trunk.get 0x2010_02) ∧ d.time.ns = s.trunk.time.ns) ∧
  (∀ (s : State) (e : Env), s.runs .trunk → (s.unit .trunk).accepts e 0x2011 6 1 →
    Answers (exec (.utcRestep e 1) s) s .trunk e 0x02 0x2011 6 0 fun a =>
      a.abort = 0 ∧ a.dev.time = { s.trunk.time with restep := true } ∧
      a.dev = { (s.unit .trunk).heard e with time := a.dev.time })

/-- REGION_STOP of a powered region idle for four ticks: the region is STOPPED, a REGION_STOP record of the region is
written with the time at which activity ceased, and every trace source of the region sleeps. REGION_RESUME at
activity of a STOPPED region: it is not stopped, a REGION_RESUME record is written with the ticks stopped, and every
source of the region is awake. REGION_POWER_DOWN of a powered region and REGION_POWER_UP of an unpowered one leave
it unpowered and powered; a stop ends at power-down; at power-up the EDGE history of the region's taps is false and
their counters hold what they held. REGION_RST zeroes the raw counters of the region's taps and marks the epoch, and
leaves other taps, the hub's own copies and all objects alone. (R113, R122, R129, R197, R216, R626, R654) -/
def Obligations.ClockRegionsStopResumeAndPower : Prop :=
  (∀ (s : State) (l : LeafId) (r : Nat), s.runs (.leaf l) → r < (s.dev (.leaf l)).tap.regions.length →
    ((s.dev (.leaf l)).regionAt r).powered = true → ((s.dev (.leaf l)).regionAt r).stopped = false →
    4 ≤ ((s.dev (.leaf l)).regionAt r).idle →
    Yields (exec (.regionStop l r) s) s (.leaf l) fun d =>
      (d.regionAt r).stopped = true ∧
      (s.dev (.leaf l)).wrote d 0x05 ((s.dev (.leaf l)).regionAt r).idleFrom (leBytes 1 r ++ zeros 3) ∧
      (∀ n ∈ (s.dev (.leaf l)).srcsOf r, n < (s.dev (.leaf l)).trc.srcs.length → (d.srcAt n).asleep.isSome = true)) ∧
  (∀ (s : State) (l : LeafId) (r : Nat), s.runs (.leaf l) → r < (s.dev (.leaf l)).tap.regions.length →
    ((s.dev (.leaf l)).regionAt r).stopped = true → ((s.dev (.leaf l)).regionAt r).idle = 0 →
    Yields (exec (.regionResume l r) s) s (.leaf l) fun d =>
      (d.regionAt r).stopped = false ∧
      (s.dev (.leaf l)).wrote d 0x06 (s.dev (.leaf l)).stamp (leBytes 1 r ++ zeros 3 ++
        leBytes 4 (satNat 32 (((s.dev (.leaf l)).stamp - ((s.dev (.leaf l)).regionAt r).idleFrom) / 8))) ∧
      (∀ n ∈ (s.dev (.leaf l)).srcsOf r, (d.srcAt n).asleep = none)) ∧
  (∀ (s : State) (l : LeafId) (r : Nat), s.runs (.leaf l) → r < (s.dev (.leaf l)).tap.regions.length →
    ((s.dev (.leaf l)).regionAt r).powered = true →
    Yields (exec (.regionPowerDown l r) s) s (.leaf l) fun d =>
      (d.regionAt r).powered = false ∧ (d.regionAt r).stopped = false ∧ d.tap.taps = (s.dev (.leaf l)).tap.taps ∧
      (∀ q, q ≠ r → d.regionAt q = (s.dev (.leaf l)).regionAt q)) ∧
  (∀ (s : State) (l : LeafId) (r : Nat), s.runs (.leaf l) → r < (s.dev (.leaf l)).tap.regions.length →
    ((s.dev (.leaf l)).regionAt r).powered = false →
    Yields (exec (.regionPowerUp l r) s) s (.leaf l) fun d =>
      (d.regionAt r).powered = true ∧ d.tap.taps.length = (s.dev (.leaf l)).tap.taps.length ∧
      (∀ n < d.tap.taps.length, d.tapAt n =
        if ((s.dev (.leaf l)).tapDesc n).region = r then
          { (s.dev (.leaf l)).tapAt n with prev := [] } else (s.dev (.leaf l)).tapAt n)) ∧
  (∀ (s : State) (l : LeafId) (r : Nat), s.runs (.leaf l) →
    Yields (exec (.regionRst l r) s) s (.leaf l) fun d =>
      d = { s.unit (.leaf l) with tap := { (s.dev (.leaf l)).tap with taps := d.tap.taps } } ∧
      d.tap.taps.length = (s.dev (.leaf l)).tap.taps.length ∧
      (∀ n < d.tap.taps.length, let old := (s.dev (.leaf l)).tapAt n
        if ((s.dev (.leaf l)).tapDesc n).region = r then
          (d.tapAt n).raw = List.replicate 32 0 ∧ (d.tapAt n).epoch = true ∧ (d.tapAt n).ext = old.ext ∧
          (d.tapAt n).last = old.last ∧ (d.tapAt n).held = old.held
        else d.tapAt n = old))

/-- CMD_BEGIN on a tap of a powered region: the tap holds the command with its tag and the stamp of this tick; with the
log enabled, nothing lost, room for 16 bytes, no command held before and the tap not the BarrierTap, the log ends in
its BEGIN record and was otherwise as before. CMD_END: no command is held; where one was held, with the log enabled,
nothing lost and room for 32 bytes, the log ends in an END record of its tap and tag with the duration in ticks;
where none was held, flag 2 of TapFlags is set. A tap of an unpowered region does nothing. LOST_RECORD with losses
to report, the log enabled and 16 bytes free: the log ends in a LOST record with their count and none are left to
report. (R123, R135, R137, R138, R139, R140) -/
def Obligations.CommandsOnATapAreLogged : Prop :=
  (∀ (s : State) (l : LeafId) (t tag : Nat) (pre : List Cycle) (c : Cycle) (p : Bool), s.runs (.leaf l) →
    (s.dev (.leaf l)).tapPowered t = true →
    Yields (exec (.cmdBegin l t tag pre c p) s) s (.leaf l) fun d =>
      (∃ h, (d.tapAt t).held = some h ∧ h.tag = tag % 65536 ∧ h.begin = (s.dev (.leaf l)).stamp) ∧
      ((s.dev (.leaf l)).on 0x2103_01 = true → (s.dev (.leaf l)).tap.lost = 0 →
        logFill (s.dev (.leaf l)).tap.log + 16 ≤ (s.dev (.leaf l)).get 0x2103_02 →
        ((s.dev (.leaf l)).tapAt t).held = none → (s.dev (.leaf l)).get 0x2103_05 ≠ t →
        ∃ r, d.tap.log = (s.dev (.leaf l)).tap.log ++ [r] ∧ r.stamp = (s.dev (.leaf l)).stamp ∧ r.tag = tag % 65536 ∧
          r.tap = t ∧ r.kind % 16 = 1 ∧ r.slots = none)) ∧
  (∀ (s : State) (l : LeafId) (t tag : Nat) (pre : List Cycle) (c : Cycle), s.runs (.leaf l) →
    (s.dev (.leaf l)).tapPowered t = true →
    Yields (exec (.cmdEnd l t tag pre c false) s) s (.leaf l) fun d =>
      (d.tapAt t).held = none ∧
      (((s.dev (.leaf l)).tapAt t).held = none → (d.get 0x2101_00).testBit 2 = true) ∧
      (∀ h, ((s.dev (.leaf l)).tapAt t).held = some h → (s.dev (.leaf l)).on 0x2103_01 = true →
        (s.dev (.leaf l)).tap.lost = 0 →
        logFill (s.dev (.leaf l)).tap.log + 32 ≤ (s.dev (.leaf l)).get 0x2103_02 →
        ∃ r, d.tap.log = (s.dev (.leaf l)).tap.log ++ [r] ∧ r.stamp = (s.dev (.leaf l)).stamp ∧ r.tag = tag % 65536 ∧
          r.tap = t ∧ r.kind % 16 = 2 ∧ r.value = ((s.dev (.leaf l)).stamp - h.begin) / 8 % 2 ^ 32 ∧
          r.slots.isSome = true)) ∧
  (∀ (s : State) (l : LeafId) (t tag : Nat) (pre : List Cycle) (c : Cycle) (p : Bool), s.runs (.leaf l) →
    (s.dev (.leaf l)).tapPowered t = false →
    Yields (exec (.cmdBegin l t tag pre c p) s) s (.leaf l) (fun d => d = s.unit (.leaf l)) ∧
    Yields (exec (.cmdEnd l t tag pre c p) s) s (.leaf l) (fun d => d = s.unit (.leaf l))) ∧
  (∀ (s : State) (l : LeafId), s.runs (.leaf l) → (s.dev (.leaf l)).tap.lost ≠ 0 →
    (s.dev (.leaf l)).on 0x2103_01 = true →
    logFill (s.dev (.leaf l)).tap.log + 16 ≤ (s.dev (.leaf l)).get 0x2103_02 →
    Yields (exec (.lostRecord l) s) s (.leaf l) fun d =>
      (∃ r, d.tap.log = (s.dev (.leaf l)).tap.log ++ [r] ∧ r.stamp = (s.dev (.leaf l)).stamp ∧ r.kind % 16 = 4 ∧
        r.value = (s.dev (.leaf l)).tap.lost % 2 ^ 32) ∧ d.tap.lost = 0 ∧
      d = { s.unit (.leaf l) with tap := { (s.dev (.leaf l)).tap with log := d.tap.log, lost := 0 } })

/-- COUNTER_SCAN once ScanPeriod has passed: for every tap of a powered region the extended value of each of its 32
counters is what a scan made then gives, the last scanned value is the raw one, and its epoch mark is clear; a tap
of an unpowered region is unchanged; the time of the scan is now. Before that nothing changes. ARRIVAL_MARK that the
leaf accepts, with no arrival at this stamp yet: StepCounter is the value and LastArrival is READY with the step,
the stamp and source 1; with one at this stamp it sets flag 6 of TapFlags and StepCounter keeps its value. (R130,
R131, R133, R134, R142, R144) -/
def Obligations.CountersAreScannedAndArrivalsMade : Prop :=
  (∀ (s : State) (l : LeafId), s.runs (.leaf l) →
    (s.dev (.leaf l)).tap.lastScan + (s.dev (.leaf l)).get 0x2100_01 ≤ (s.dev (.leaf l)).time.ns →
    Yields (exec (.counterScan l) s) s (.leaf l) fun d =>
      d.tap.lastScan = (s.dev (.leaf l)).time.ns ∧ d.tap.taps.length = (s.dev (.leaf l)).tap.taps.length ∧
      (∀ t < d.tap.taps.length, let old := (s.dev (.leaf l)).tapAt t
        if (s.dev (.leaf l)).tapPowered t = true then
          (d.tapAt t).ext = (List.range 32).map old.counter ∧ (d.tapAt t).last = old.raw ∧ (d.tapAt t).raw = old.raw ∧
          (d.tapAt t).epoch = false ∧ (d.tapAt t).scanGap = 0
        else d.tapAt t = old)) ∧
  (∀ (s : State) (l : LeafId), s.runs (.leaf l) →
    (s.dev (.leaf l)).time.ns < (s.dev (.leaf l)).tap.lastScan + (s.dev (.leaf l)).get 0x2100_01 →
    Yields (exec (.counterScan l) s) s (.leaf l) fun d => d = s.unit (.leaf l)) ∧
  (∀ (s : State) (l : LeafId) (e : Env) (step : Nat), s.runs (.leaf l) → (s.unit (.leaf l)).accepts e 0x2103 9 step →
    step < 2 ^ 32 → 8 * (s.dev (.leaf l)).time.tick < 2 ^ 64 →
    Answers (exec (.arrivalMark l e step) s) s (.leaf l) e 0x02 0x2103 9 0 fun a =>
      a.abort = 0 ∧
      if (s.dev (.leaf l)).tap.lastArr = some (s.dev (.leaf l)).stamp then
        (a.dev.get 0x2101_00).testBit 6 = true ∧ a.dev.get 0x2103_08 = (s.dev (.leaf l)).get 0x2103_08
      else a.dev.get 0x2103_08 = step ∧ a.dev.get 0x2104_01 = 2 ∧ a.dev.get 0x2104_04 = step ∧
        a.dev.get 0x2104_05 = (s.dev (.leaf l)).stamp ∧ a.dev.get 0x2104_06 = 1 ∧
        a.dev.tap.lastArr = some (s.dev (.leaf l)).stamp)

/-- CURRENT_SAMPLE that is due, with one reading per region: each valid reading of a power region becomes its Current, a
region with none keeps it, and the next sample is due 16 ticks on. TEMPERATURE_READING that is due: each valid
reading of a sensor becomes its value. MIN_V_READ of a sensor that the leaf has, by a requester it hears, on the
local port at host level or over SDP with no latch held: the answer is the 4 bytes of MinV, and then MinStamp holds
the stamp of that minimum and MinV its re-armed value 0xFFFFFFFF. CLUSTER_CHANGE at a window boundary, with a write
of Cluster waiting for a region that may move: the region is in the new cluster and no write of it waits; nothing
else changes. (R154, R155, R157, R658) -/
def Obligations.SensorsAreRead : Prop :=
  (∀ (s : State) (l : LeafId) (vals : List (Nat × Option Nat)), s.runs (.leaf l) →
    (s.dev (.leaf l)).pow.lastCur < (s.dev (.leaf l)).time.tick / 16 → (vals.map (·.1)).Nodup →
    (s.dev (.leaf l)).cfg.powerRegions ≤ 64 → (∀ x ∈ vals, ∀ v, x.2 = some v → v < 2 ^ 32) →
    Yields (exec (.currentSample l vals) s) s (.leaf l) fun d =>
      (∀ r v, (r, some v) ∈ vals → r < (s.dev (.leaf l)).cfg.powerRegions → d.get (key (0x2450 + r) 1) = v) ∧
      (∀ r < 64, (∀ v, (r, some v) ∉ vals) →
        d.get (key (0x2450 + r) 1) = (s.dev (.leaf l)).get (key (0x2450 + r) 1)) ∧
      d.pow.lastCur = (s.dev (.leaf l)).time.tick / 16) ∧
  (∀ (s : State) (l : LeafId) (vals : List (Nat × Option Int)), s.runs (.leaf l) →
    (s.dev (.leaf l)).pow.lastTemp < (s.dev (.leaf l)).time.tick / 12500 → (vals.map (·.1)).Nodup →
    (s.dev (.leaf l)).cfg.build = .leaf → (s.dev (.leaf l)).cfg.tempRegions.length ≤ 32 →
    Yields (exec (.temperatureReading l vals) s) s (.leaf l) fun d =>
      (∀ n v, (n, some v) ∈ vals → n < (s.dev (.leaf l)).cfg.tempRegions.length → -32768 ≤ v → v < 32768 →
        d.getI (key (0x24A0 + n) 1) = v) ∧
      (∀ n < 32, (∀ v, (n, some v) ∉ vals) → d.getI (key (0x24A0 + n) 1) = (s.dev (.leaf l)).getI (key (0x24A0 + n) 1)) ∧
      d.pow.lastTemp = (s.dev (.leaf l)).time.tick / 12500) ∧
  (∀ (s : State) (l : LeafId) (e : Env) (n : Nat), s.built → s.runs (.leaf l) → (s.unit (.leaf l)).hears e →
    (s.unit (.leaf l)).quickset = false → n < (s.dev (.leaf l)).cfg.voltRegions.length → n < 64 →
    (if e.via = .lp then e.user = false else (s.unit (.leaf l)).latchOf e (0x2410 + n) = none) →
    (s.dev (.leaf l)).pow.runStamp.getD n 0 < 2 ^ 64 →
    Answers (exec (.minVRead l e n) s) s (.leaf l) e 0x01 (0x2410 + n) 2 0 fun a =>
      a.abort = 0 ∧ a.data = leBytes 4 ((s.dev (.leaf l)).get (key (0x2410 + n) 2)) ∧
      a.dev.get (key (0x2410 + n) 2) = 0xFFFFFFFF ∧
      a.dev.get (key (0x2410 + n) 3) = (s.dev (.leaf l)).pow.runStamp.getD n 0 ∧
      ((s.unit (.leaf l)).heard e).objectsKept a.dev [key (0x2410 + n) 2, key (0x2410 + n) 3]) ∧
  (∀ (s : State) (l : LeafId) (r c : Nat), s.runs (.leaf l) → (s.dev (.leaf l)).pow.cluster.find? (·.1 = r) = some (r, c) →
    (s.unit (.leaf l)).boundary = true → (s.unit (.leaf l)).mayMove r c = true → c < 256 →
    Yields (exec (.clusterChange l r) s) s (.leaf l) fun d =>
      d.get (key (0x2450 + r) 2) = c ∧ (∀ x, x ∈ d.pow.cluster ↔ x ∈ (s.dev (.leaf l)).pow.cluster ∧ x.1 ≠ r) ∧
      (s.unit (.leaf l)).objectsKept d [key (0x2450 + r) 2] ∧ d = { s.unit (.leaf l) with objs := d.objs, pow := d.pow })

/-- STAGE_REQUEST of a region that has none pending and has seen its line low: with a gate it joins the pending requests
with its stage and this stamp (TestAllowed may fall), without one it is granted at once. GRANT in HW mode where the
oldest request of a cluster fits, the gate does not deny and no grant of the cluster was made at this time: its
grant pin pulses, it is no longer pending, its inrush is in flight, and Granted counts one. DENY while the gate
denies: the deny pin of the oldest request pulses and Denied counts one. INRUSH_DEFER_TIMEOUT of the deferred
request of a cluster past its limit: it is marked, Timeouts counts one, flag 3 stands, and without a snapshot for
the cause an INRUSH_TIMEOUT record is written. STAGE_GRANT and STAGE_DENY in HOST mode of a request that is pending,
not denied and (for a grant) fits: the same pulses by command. (R161, R162, R163, R165, R172, R177) -/
def Obligations.TheInrushGateAnswersRequests : Prop :=
  (∀ (s : State) (l : LeafId) (r st : Nat), s.runs (.leaf l) → r < (s.dev (.leaf l)).cfg.powerRegions →
    r ∉ (s.dev (.leaf l)).pow.awaitLow → (∀ q ∈ (s.dev (.leaf l)).pow.pend, q.region ≠ r) →
    Yields (exec (.stageRequest l r st) s) s (.leaf l) fun d =>
      if (s.dev (.leaf l)).cfg.inrushGate = true then
        (∀ q, q ∈ d.pow.pend ↔ q ∈ (s.dev (.leaf l)).pow.pend ∨
          q = { region := r, stage := st % 8, since := (s.dev (.leaf l)).stamp }) ∧
        d = { s.unit (.leaf l) with pow := d.pow, objs := d.objs } ∧ (s.unit (.leaf l)).objectsKept d [0x2406_04]
      else d.out = [.pin .stageGrant r 1] ∧ r ∈ d.pow.awaitLow ∧
        d = { s.unit (.leaf l) with pow := d.pow, out := d.out }) ∧
  (∀ (s : State) (l : LeafId) (c : Nat) (q : StageReq), s.runs (.leaf l) →
    ((s.dev (.leaf l)).pendOf c).head? = some q → (s.dev (.leaf l)).denying c = false →
    (s.dev (.leaf l)).on 0x2400_00 = false → (s.dev (.leaf l)).fits c q = true →
    (∀ x ∈ (s.dev (.leaf l)).pow.granted, ¬ (x.1 = c ∧ x.2.2 = (s.dev (.leaf l)).time.ns)) →
    (s.dev (.leaf l)).get 0x2404_03 + 1 < 2 ^ 32 →
    Yields (exec (.grant l c) s) s (.leaf l) fun d =>
      d.out = [.pin .stageGrant q.region 1] ∧ (∀ x ∈ d.pow.pend, x.region ≠ q.region) ∧
      (c, (s.dev (.leaf l)).inrush q, (s.dev (.leaf l)).time.ns) ∈ d.pow.granted ∧
      d.get 0x2404_03 = (s.dev (.leaf l)).get 0x2404_03 + 1 ∧ (s.unit (.leaf l)).objectsKept d [0x2404_03]) ∧
  (∀ (s : State) (l : LeafId) (c : Nat) (q : StageReq), s.runs (.leaf l) →
    ((s.dev (.leaf l)).pendOf c).head? = some q → (s.dev (.leaf l)).denying c = true →
    (s.dev (.leaf l)).get 0x2404_04 + 1 < 2 ^ 32 →
    Yields (exec (.deny l c) s) s (.leaf l) fun d =>
      d.out = [.pin .stageDeny q.region 1] ∧ (∀ x ∈ d.pow.pend, x.region ≠ q.region) ∧
      d.pow.granted = (s.dev (.leaf l)).pow.granted ∧
      d.get 0x2404_04 = (s.dev (.leaf l)).get 0x2404_04 + 1 ∧ (s.unit (.leaf l)).objectsKept d [0x2404_04]) ∧
  (∀ (s : State) (l : LeafId) (c : Nat) (q : StageReq), s.runs (.leaf l) →
    (s.dev (.leaf l)).deferredReq c = some q → q.timedOut = false →
    (s.dev (.leaf l)).get 0x2404_01 ≤ (s.dev (.leaf l)).stamp - q.since → (s.dev (.leaf l)).get 0x2404_05 + 1 < 2 ^ 32 →
    Yields (exec (.inrushDeferTimeout l c) s) s (.leaf l) fun d =>
      d.get 0x2404_05 = (s.dev (.leaf l)).get 0x2404_05 + 1 ∧ (d.get 0x2401_00).testBit 3 = true ∧
      (∀ x ∈ d.pow.pend, x.region = q.region → x.timedOut = true) ∧
      (((s.dev (.leaf l)).get 0x2601_01).testBit 6 = false → ∃ p, (s.dev (.leaf l)).wrote d 0x07 (s.dev (.leaf l)).stamp p)) ∧
  (∀ (s : State) (l : LeafId) (e : Env) (r st : Nat) (q : StageReq), s.runs (.leaf l) → r < 64 → st < 8 →
    (s.unit (.leaf l)).accepts e 0x2408 0 (st * 64 + r) → r < (s.dev (.leaf l)).cfg.powerRegions →
    (s.dev (.leaf l)).on 0x2400_00 = true → (s.dev (.leaf l)).denying ((s.dev (.leaf l)).clusterOf r) = false →
    (s.dev (.leaf l)).pow.pend.find? (fun q => q.region = r && q.stage = st) = some q →
    (s.dev (.leaf l)).fits ((s.dev (.leaf l)).clusterOf r) q = true →
    Answers (exec (.stageGrant l e r st) s) s (.leaf l) e 0x02 0x2408 0 0 fun a =>
      a.abort = 0 ∧ a.dev.out = [.pin .stageGrant r 1] ∧ (∀ x ∈ a.dev.pow.pend, x.region ≠ r) ∧
      ((s.unit (.leaf l)).heard e).objectsKept a.dev [0x2404_03]) ∧
  (∀ (s : State) (l : LeafId) (e : Env) (r st : Nat) (q : StageReq), s.runs (.leaf l) → r < 64 → st < 8 →
    (s.unit (.leaf l)).accepts e 0x2408 0 (32768 + st * 64 + r) → r < (s.dev (.leaf l)).cfg.powerRegions →
    (s.dev (.leaf l)).on 0x2400_00 = true → (s.dev (.leaf l)).denying ((s.dev (.leaf l)).clusterOf r) = false →
    (s.dev (.leaf l)).pow.pend.find? (fun q => q.region = r && q.stage = st) = some q →
    Answers (exec (.stageDeny l e r st) s) s (.leaf l) e 0x02 0x2408 0 0 fun a =>
      a.abort = 0 ∧ a.dev.out = [.pin .stageDeny r 1] ∧ (∀ x ∈ a.dev.pow.pend, x.region ≠ r) ∧
      ((s.unit (.leaf l)).heard e).objectsKept a.dev [0x2404_04])

/-- SHED_ASSERT in HOST mode of a cluster that the leaf has and that is not shedding: the cluster is among those
shedding, those before it stay, and shed_req is driven high. SHED_RELEASE of one that is: it no longer is, the
others stay, and shed_req shows whether any are left. In HW mode both fail with STATE and change nothing, of a
cluster that the leaf lacks with RANGE. (R171, R177, R659) -/
def Obligations.ShedRequestsFollowTheirCommands : Prop :=
  (∀ (s : State) (l : LeafId) (e : Env) (c : Nat), s.runs (.leaf l) → c < 16 → (s.unit (.leaf l)).accepts e 0x2409 0 (128 + c) →
    Answers (exec (.shedAssert l e c) s) s (.leaf l) e 0x02 0x2409 0 0 fun a =>
      if (s.dev (.leaf l)).cfg.clusters ≤ c then a.abort = 0x06 ∧ a.dev = (s.unit (.leaf l)).heard e
      else if (s.dev (.leaf l)).on 0x2400_00 = false then a.abort = 0x07 ∧ a.dev = (s.unit (.leaf l)).heard e
      else a.abort = 0 ∧ (∀ x, x ∈ a.dev.pow.shedding ↔ x = c ∨ x ∈ (s.dev (.leaf l)).pow.shedding) ∧
        (c ∉ (s.dev (.leaf l)).pow.shedding → .pin .shedReq 0 1 ∈ a.dev.out) ∧
        a.dev = { (s.unit (.leaf l)).heard e with pow := a.dev.pow, out := a.dev.out }) ∧
  (∀ (s : State) (l : LeafId) (e : Env) (c : Nat), s.runs (.leaf l) → c < 16 → (s.unit (.leaf l)).accepts e 0x2409 0 c →
    Answers (exec (.shedRelease l e c) s) s (.leaf l) e 0x02 0x2409 0 0 fun a =>
      if (s.dev (.leaf l)).cfg.clusters ≤ c then a.abort = 0x06 ∧ a.dev = (s.unit (.leaf l)).heard e
      else if (s.dev (.leaf l)).on 0x2400_00 = false then a.abort = 0x07 ∧ a.dev = (s.unit (.leaf l)).heard e
      else a.abort = 0 ∧ (∀ x, x ∈ a.dev.pow.shedding ↔ x ≠ c ∧ x ∈ (s.dev (.leaf l)).pow.shedding) ∧
        (c ∈ (s.dev (.leaf l)).pow.shedding → .pin .shedReq 0 (b2n (!a.dev.pow.shedding.isEmpty)) ∈ a.dev.out) ∧
        a.dev = { (s.unit (.leaf l)).heard e with pow := a.dev.pow, out := a.dev.out })

/-- REG_FAULT of a region whose input was low, on a leaf that runs past its first tick: the region's Fault bit stands
and, without a snapshot for the cause, a REG_FAULT record of this stamp is written; with a gate the region's cluster
is DEGRADED and none of its stage requests is pending; in reset or before the first tick the region_off pin is
driven instead. CARRY_TIME_EXPIRED of a cluster whose episode has lasted the carry time, with a gate: the episode is
marked; where the load calls for it, every region of the cluster whose input is asserted is dark. REG_CLEAR with a
gate, at a current sample once the inputs have been low for RegClearTime: no episode of the cluster is left, it is
not DEGRADED, and a REG_CLEAR record is written; without a gate, after 1 ms, likewise for a region. (R166, R167,
R168, R169, R170, R172, R216, R636) -/
def Obligations.RegulatorFaultsOpenAndCloseEpisodes : Prop :=
  (∀ (s : State) (l : LeafId) (r : Nat), s.runs (.leaf l) → (s.dev (.leaf l)).boot.first = false →
    r < (s.dev (.leaf l)).cfg.powerRegions → r < 64 → (s.dev (.leaf l)).faulted r = false →
    (s.dev (.leaf l)).clusterOf r < 16 →
    Yields (exec (.regFault l r) s) s (.leaf l) fun d =>
      d.faulted r = true ∧ (d.get 0x2401_00).testBit 1 = true ∧
      (((s.dev (.leaf l)).get 0x2601_01).testBit 5 = false → ∃ p, (s.dev (.leaf l)).wrote d 0x03 (s.dev (.leaf l)).stamp p) ∧
      ((s.dev (.leaf l)).cfg.inrushGate = true → d.degraded ((s.dev (.leaf l)).clusterOf r) = true ∧
        ∀ q ∈ d.pow.pend, (s.dev (.leaf l)).clusterOf q.region ≠ (s.dev (.leaf l)).clusterOf r)) ∧
  (∀ (s : State) (l : LeafId) (r : Nat), (s.dev (.leaf l)).boot.held = true ∨ (s.dev (.leaf l)).boot.first = true →
    r < (s.dev (.leaf l)).cfg.powerRegions →
    Yields (exec (.regFault l r) s) s (.leaf l) fun d =>
      d = { s.unit (.leaf l) with out := [.pin .regionOff r 1] }) ∧
  (∀ (s : State) (l : LeafId) (c : Nat) (x : Episode), s.runs (.leaf l) →
    (s.dev (.leaf l)).pow.episodes.find? (·.unit = c) = some x → (s.dev (.leaf l)).cfg.inrushGate = true →
    x.carried = false → x.first + (s.dev (.leaf l)).get 0x2405_02 ≤ (s.dev (.leaf l)).stamp →
    (s.dev (.leaf l)).cfg.powerRegions ≤ 64 →
    Yields (exec (.carryTimeExpired l c) s) s (.leaf l) fun d =>
      (∀ y ∈ d.pow.episodes, y.unit = c → y.carried = true) ∧
      ((s.dev (.leaf l)).get 0x2405_03 * (s.dev (.leaf l)).capacity c ≤ (s.dev (.leaf l)).load c * 100 →
        ∀ r ∈ (s.dev (.leaf l)).regionsOf c, (s.dev (.leaf l)).faulted r = true → d.dark r = true) ∧
      ((s.dev (.leaf l)).load c * 100 < (s.dev (.leaf l)).get 0x2405_03 * (s.dev (.leaf l)).capacity c →
        d = { s.unit (.leaf l) with pow := d.pow })) ∧
  (∀ (s : State) (l : LeafId) (c t : Nat) (x : Episode), s.runs (.leaf l) →
    (s.dev (.leaf l)).pow.episodes.find? (·.unit = c) = some x → x.clearAt = some t → c < 16 →
    (if (s.dev (.leaf l)).cfg.inrushGate = true then t + (s.dev (.leaf l)).get 0x2405_04 ≤ (s.dev (.leaf l)).stamp ∧
        (s.dev (.leaf l)).pow.curTick = some (s.dev (.leaf l)).time.tick ∧ (s.dev (.leaf l)).cfg.powerRegions ≤ 64
      else t + 1000000 ≤ (s.dev (.leaf l)).stamp) →
    Yields (exec (.regClear l c) s) s (.leaf l) fun d =>
      (∀ y ∈ d.pow.episodes, y.unit ≠ c) ∧
      (∃ p, (s.dev (.leaf l)).wrote d 0x04 (s.dev (.leaf l)).stamp p) ∧
      ((s.dev (.leaf l)).cfg.inrushGate = true → d.degraded c = false))

/-- POWER_FAIL_WARNING on a unit with none active: the warning is active. On a leaf it holds the time of the warning,
its power flag 0 stands and no stage request is left pending; on a trunk the commit of its recorder is due from this
time and an image being written is abandoned (FAILED with flag 2). With one active nothing changes.
POWER_FAIL_RECOVER once the input has been low for PfRecoverTime: the warning is not active and no other object
changes; before that nothing changes. (R174, R176, R232, R240, R607) -/
def Obligations.PowerFailWarningsBeginAndEnd : Prop :=
  (∀ (s : State) (l : LeafId), s.built → s.runs (.leaf l) → (s.dev (.leaf l)).pfActive = false →
    8 * (s.dev (.leaf l)).time.tick < 2 ^ 64 →
    Yields (exec (.powerFailWarning (.leaf l)) s) s (.leaf l) fun d =>
      d.pfActive = true ∧ d.get 0x2407_02 = (s.dev (.leaf l)).stamp ∧ (d.get 0x2401_00).testBit 0 = true ∧
      d.pow.pend = []) ∧
  (∀ (s : State), s.runs .trunk → s.trunk.pfActive = false →
    Yields (exec (.powerFailWarning .trunk) s) s .trunk fun d =>
      d.pfActive = true ∧ d.rcd.commitDue = some s.trunk.time.ns ∧
      (s.trunk.get 0x1802_05 = 2 → d.get 0x1802_05 = 5 ∧ (d.get 0x1804_00).testBit 2 = true)) ∧
  (∀ (s : State) (u : UnitId), s.runs u → (s.dev u).pfActive = true →
    Yields (exec (.powerFailWarning u) s) s u fun d => d = s.unit u) ∧
  (∀ (s : State) (u : UnitId), s.runs u → (s.dev u).pfActive = true →
    Yields (exec (.powerFailRecover u) s) s u fun d =>
      if (∃ t, (s.dev u).pow.pfLowSince = some t ∧ t + (s.dev u).get 0x2407_03 ≤ (s.dev u).stamp) then
        d.pfActive = false ∧ (s.unit u).onlyObjects d [0x2407_01]
      else d = s.unit u)

/-- TRACE_ACCESS of 1 to 64 bytes at an awake source. With an enabled matching TRACE filter, the source tracing, no
capture, no digest and room in its FIFO: the FIFO ends in the DATA packet of the lowest matching filter with this
stamp, the held command's tag and the bytes that the filter allows. With a capture at work, no CAPTURE filter, no
matching TRACE filter, no digest and room: the capture's CRC-32C and byte count go on over the access. With a
matching DIGEST filter alone, in a mode that does not close a block: the digest's CRC and byte count go on.
PERIODIC_SYNC once TraceSync ticks have passed, with room: the FIFO ends in a SYNC packet of reason 2 and the period
begins anew. OVERFLOW_PACKET at an awake recording source with losses of the trace to report and 32 bytes of room:
the FIFO ends in an OVERFLOW packet with their count and a SYNC packet, no loss is left, and flag 0 of TraceFlags
stands. (R182, R183, R187, R193, R196, R209, R211, R212) -/
def Obligations.AccessesBecomeTracePackets : Prop :=
  (∀ (s : State) (l : LeafId) (n f : Nat) (fs : List Nat) (a : PortAccess), s.runs (.leaf l) →
    n < (s.dev (.leaf l)).cfg.traceSources → n < (s.dev (.leaf l)).trc.srcs.length → 0 < a.size → a.size ≤ 64 →
    a.value.length = a.size → a.addr < 2 ^ 64 → (s.dev (.leaf l)).tracing n = true →
    (s.dev (.leaf l)).matching n 0 a = f :: fs → ((s.dev (.leaf l)).srcAt n).capture = none →
    (s.dev (.leaf l)).get (key (0x2510 + n) 6) = 0 → n < 16 →
    let c := (s.dev (.leaf l)).get (key (0x2520 + 8 * n + f) 3)
    let taken := if a.size ≤ field c 15 8 then a.value else if c.testBit 3 = true then a.value.take (field c 15 8) else []
    let bs := dataPacket n (s.dev (.leaf l)).stamp f ((s.dev (.leaf l)).heldTag n) a taken false (field c 15 8 < a.size)
    bs.length ≤ ((s.dev (.leaf l)).srcAt n).room →
    Yields (exec (.traceAccess l n a) s) s (.leaf l) fun d =>
      (∃ p, (d.srcAt n).fifo = ((s.dev (.leaf l)).srcAt n).fifo ++ [p] ∧ p.bytes = bs ∧
        p.stamp = (s.dev (.leaf l)).stamp ∧ p.source = n ∧ p.toCap = false) ∧
      (s.unit (.leaf l)).onlyObjects { d with trc := (s.dev (.leaf l)).trc } [key (0x2510 + n) 4]) ∧
  (∀ (s : State) (l : LeafId) (n : Nat) (a : PortAccess) (c : Capture), s.runs (.leaf l) →
    n < (s.dev (.leaf l)).cfg.traceSources → n < (s.dev (.leaf l)).trc.srcs.length → 0 < a.size → a.size ≤ 64 →
    a.value.length = a.size → a.addr < 2 ^ 64 → ((s.dev (.leaf l)).srcAt n).asleep = none →
    ((s.dev (.leaf l)).srcAt n).capture = some c → (s.dev (.leaf l)).hasFilter n 1 = false →
    (s.dev (.leaf l)).matching n 0 a = [] → (s.dev (.leaf l)).get (key (0x2510 + n) 6) = 0 → n < 16 →
    80 ≤ ((s.dev (.leaf l)).srcAt n).room →
    Yields (exec (.traceAccess l n a) s) s (.leaf l) fun d =>
      (d.srcAt n).capture = some { c with crc := crc32cStep c.crc a.value, bytes := c.bytes + a.size } ∧
      (∃ p, (d.srcAt n).fifo = ((s.dev (.leaf l)).srcAt n).fifo ++ [p] ∧ p.toCap = true ∧ p.cap = some (n, c.begin)) ∧
      (s.unit (.leaf l)).onlyObjects { d with trc := (s.dev (.leaf l)).trc } [key (0x2510 + n) 4]) ∧
  (∀ (s : State) (l : LeafId) (n : Nat) (a : PortAccess), s.runs (.leaf l) →
    n < (s.dev (.leaf l)).cfg.traceSources → n < (s.dev (.leaf l)).trc.srcs.length → 0 < a.size → a.size ≤ 64 →
    a.value.length = a.size → a.addr < 2 ^ 64 → ((s.dev (.leaf l)).srcAt n).asleep = none →
    ((s.dev (.leaf l)).srcAt n).capture = none → (s.dev (.leaf l)).matching n 0 a = [] →
    (s.dev (.leaf l)).matching n 2 a ≠ [] → (s.dev (.leaf l)).get (key (0x2510 + n) 6) = 1 →
    Yields (exec (.traceAccess l n a) s) s (.leaf l) fun d =>
      (d.srcAt n).digest = crc32cStep ((s.dev (.leaf l)).srcAt n).digest a.value ∧
      (d.srcAt n).digBytes = ((s.dev (.leaf l)).srcAt n).digBytes + a.size ∧
      d = { s.unit (.leaf l) with trc := d.trc }) ∧
  (∀ (s : State) (l : LeafId) (n : Nat), s.runs (.leaf l) → n < (s.dev (.leaf l)).cfg.traceSources →
    n < (s.dev (.leaf l)).trc.srcs.length → (s.dev (.leaf l)).tracing n = true →
    ((s.dev (.leaf l)).srcAt n).lastSync + (s.dev (.leaf l)).get 0x2500_04 ≤ (s.dev (.leaf l)).time.tick →
    16 ≤ ((s.dev (.leaf l)).srcAt n).room →
    Yields (exec (.periodicSync l n) s) s (.leaf l) fun d =>
      (∃ p, (d.srcAt n).fifo = ((s.dev (.leaf l)).srcAt n).fifo ++ [p] ∧
        p.bytes = (s.dev (.leaf l)).syncBytes n (s.dev (.leaf l)).stamp .periodic) ∧
      (d.srcAt n).lastSync = (s.dev (.leaf l)).time.tick) ∧
  (∀ (s : State) (l : LeafId) (n : Nat), s.runs (.leaf l) → n < (s.dev (.leaf l)).cfg.traceSources →
    n < (s.dev (.leaf l)).trc.srcs.length → ((s.dev (.leaf l)).srcAt n).asleep = none →
    32 ≤ ((s.dev (.leaf l)).srcAt n).room → ((s.dev (.leaf l)).srcAt n).capLost = [] →
    ((s.dev (.leaf l)).srcAt n).digLost = 0 → ((s.dev (.leaf l)).srcAt n).lost ≠ 0 →
    (s.dev (.leaf l)).recording = true →
    Yields (exec (.overflowPacket l n) s) s (.leaf l) fun d =>
      (∃ p q, (d.srcAt n).fifo = ((s.dev (.leaf l)).srcAt n).fifo ++ [p, q] ∧
        natAt p.bytes 4 4 = satNat 32 ((s.dev (.leaf l)).srcAt n).lost ∧
        q.bytes = (s.dev (.leaf l)).syncBytes n (s.dev (.leaf l)).stamp .overflow) ∧
      (d.srcAt n).lost = 0 ∧ (d.get 0x2503_00).testBit 0 = true)

/-- SOFT_TRIGGER of 1 that the leaf accepts: an ARMED trace is TRIGGERED with this stamp, cause 2 and a freeze no
earlier than now, and flag 2 of TraceFlags stands, unless a backward step repeats the tick's number; a TRIGGERED or
FROZEN trace keeps its state. FREEZE of a TRIGGERED trace at or past its freeze, with nothing left that is stamped
before it, or 512 ns past it: FROZEN, and no packet bound for the ring is left in a FIFO. FUNNEL_TRANSFER where the
packet that goes next is one of the source whose turn it is, bound for the ring, with room: the ring holds it, the
source's FIFO is without it, and the count of packets grows. FATAL: a FATAL record of the code and detail at this
stamp stands among those of this tick and of the flush that it starts (where no snapshot or test result joins them),
and on a leaf a flush runs. (R194, R195, R199, R200, R201, R202, R204, R216, R220, R228) -/
def Obligations.TriggersFreezeTheTrace : Prop :=
  (∀ (s : State) (l : LeafId) (e : Env), s.built → s.runs (.leaf l) → (s.unit (.leaf l)).accepts e 0x2500 7 1 →
    8 * (s.dev (.leaf l)).time.tick + 2 ^ 33 < 2 ^ 64 → (s.dev (.leaf l)).get 0x2500_03 < 2 ^ 32 →
    Answers (exec (.softTrigger l e 1) s) s (.leaf l) e 0x02 0x2500 7 0 fun a =>
      a.abort = 0 ∧
      ((s.dev (.leaf l)).traceState = 1 → (s.dev (.leaf l)).time.dead = false → a.dev.traceState = 2 ∧ a.dev.get 0x2501_02 = (s.dev (.leaf l)).stamp ∧
        a.dev.get 0x2501_04 = 2 ∧ (s.dev (.leaf l)).stamp ≤ a.dev.get 0x2501_03 ∧
        (a.dev.get 0x2503_00).testBit 2 = true) ∧
      ((s.dev (.leaf l)).traceState ≠ 1 → a.dev.traceState = (s.dev (.leaf l)).traceState)) ∧
  (∀ (s : State) (l : LeafId), s.runs (.leaf l) → (s.dev (.leaf l)).traceState = 2 →
    (s.dev (.leaf l)).get 0x2501_03 ≤ (s.dev (.leaf l)).stamp →
    ((∀ p ∈ (s.dev (.leaf l)).trc.hubq ++ (s.dev (.leaf l)).trc.srcs.flatMap (·.fifo),
        p.toCap = true ∨ (s.dev (.leaf l)).get 0x2501_03 ≤ p.stamp) ∨
      (s.dev (.leaf l)).get 0x2501_03 + 512 ≤ (s.dev (.leaf l)).stamp) →
    Yields (exec (.freeze l) s) s (.leaf l) fun d =>
      d.traceState = 3 ∧ d.trc.hubq = [] ∧ d.trc.ring = (s.dev (.leaf l)).trc.ring ∧
      (∀ x ∈ d.trc.srcs, ∀ p ∈ x.fifo, p.toCap = true) ∧ (s.unit (.leaf l)).objectsKept d [0x2501_01]) ∧
  (∀ (s : State) (l : LeafId) (n : Nat) (p : TPkt), s.runs (.leaf l) →
    (s.dev (.leaf l)).funnelNext = some (some n, p) → p.toCap = false →
    (s.dev (.leaf l)).ringFill + p.bytes.length ≤ 2097152 → (s.dev (.leaf l)).get 0x2501_08 + 1 < 2 ^ 32 →
    Yields (exec (.funnelTransfer l) s) s (.leaf l) fun d =>
      (∀ q, q ∈ d.trc.ring ↔ q = p ∨ q ∈ (s.dev (.leaf l)).trc.ring) ∧
      (d.srcAt n).fifo = ((s.dev (.leaf l)).srcAt n).fifo.erase p ∧
      d.get 0x2501_08 = (s.dev (.leaf l)).get 0x2501_08 + 1 ∧ (s.unit (.leaf l)).objectsKept d [0x2501_08]) ∧
  (∀ (s : State) (u : UnitId) (code detail : Nat), s.built → s.runs u →
    Yields (exec (.fatal u code detail) s) s u fun d =>
      (((s.dev u).get 0x2601_01).testBit 3 = false → (s.dev u).ftest.run = none →
        ∃ x ∈ d.rcd.hist.take ((s.dev u).rcd.fresh + 2), x.kind = 0x02 ∧ x.time = (s.dev u).stamp ∧
          x.payload = leBytes 2 (code % 65536) ++ zeros 2 ++ leBytes 4 (detail % 2 ^ 32)) ∧
      (∀ l, u = .leaf l → d.rcd.flush.isSome = true))

/-- TRACE_ENABLE that the leaf accepts: 0 turns the trace OFF, 1 arms an OFF trace with an empty ring and leaves another
state alone. REARM of 1: with the trace OFF or a drain at work it fails with STATE; else the trace is ARMED with an
empty ring and no selector has fired. DRAIN_CMD of 1: with a drain at work BUSY, while the trace records STATE, else
the drain holds the ring's packets. DRAIN_DONE once the last packet has left: no drain is at work. CAPTURE_ARM: of a
source the leaf lacks RANGE, of one armed or capturing BUSY, else the source is armed with the tag and mask.
DIGEST_MODE_WRITE: the source has the mode and a fresh digest with block 0, open on the command that its tap holds
where the mode is COMMAND and the tag matches. DIGEST_BLOCK_CLOSE at an awake source in mode EVENT: a fresh digest
and the next block number. (R206, R207, R209, R211, R212, R213) -/
def Obligations.TheTraceIsControlledByCommands : Prop :=
  (∀ (s : State) (l : LeafId) (e : Env) (v : Nat), s.runs (.leaf l) → v ≤ 1 → (s.unit (.leaf l)).accepts e 0x2500 1 v →
    Answers (exec (.traceEnable l e v) s) s (.leaf l) e 0x02 0x2500 1 0 fun a =>
      a.abort = 0 ∧ a.dev.get 0x2500_01 = v ∧
      (v = 0 → a.dev.traceState = 0) ∧
      (v = 1 → (s.dev (.leaf l)).traceState = 0 → a.dev.traceState = 1 ∧ a.dev.trc.ring = []) ∧
      (v = 1 → (s.dev (.leaf l)).traceState ≠ 0 → a.dev.traceState = (s.dev (.leaf l)).traceState ∧
        a.dev.trc = (s.dev (.leaf l)).trc)) ∧
  (∀ (s : State) (l : LeafId) (e : Env), s.runs (.leaf l) → (s.unit (.leaf l)).accepts e 0x2500 6 1 →
    Answers (exec (.rearm l e 1) s) s (.leaf l) e 0x02 0x2500 6 0 fun a =>
      if (s.dev (.leaf l)).traceState = 0 ∨ (s.dev (.leaf l)).trc.drain.isSome = true then
        a.abort = 0x07 ∧ a.dev = (s.unit (.leaf l)).heard e
      else a.abort = 0 ∧ a.dev.traceState = 1 ∧ a.dev.trc.ring = [] ∧ a.dev.trc.fired = List.replicate 4 false ∧
        a.dev.get 0x2501_07 = 0) ∧
  (∀ (s : State) (l : LeafId) (e : Env), s.runs (.leaf l) → (s.unit (.leaf l)).accepts e 0x2500 8 1 →
    Answers (exec (.drainCmd l e 1) s) s (.leaf l) e 0x02 0x2500 8 0 fun a =>
      if (s.dev (.leaf l)).trc.drain.isSome = true then a.abort = 0x09 ∧ a.dev = (s.unit (.leaf l)).heard e
      else if (s.dev (.leaf l)).recording = true then a.abort = 0x07 ∧ a.dev = (s.unit (.leaf l)).heard e
      else a.abort = 0 ∧ a.dev.trc.drain = some (s.dev (.leaf l)).trc.ring ∧
        a.dev = { (s.unit (.leaf l)).heard e with trc := a.dev.trc }) ∧
  (∀ (s : State) (l : LeafId), s.runs (.leaf l) → (s.dev (.leaf l)).trc.drain = some [] →
    (s.dev (.leaf l)).queue 3 = [] → (s.dev (.leaf l)).arb.current ≠ 3 →
    Yields (exec (.drainDone l) s) s (.leaf l) fun d =>
      d = { s.unit (.leaf l) with trc := { (s.dev (.leaf l)).trc with drain := none } }) ∧
  (∀ (s : State) (l : LeafId) (e : Env) (v : Word), s.runs (.leaf l) →
    (s.unit (.leaf l)).accepts e 0x25A0 0 v.toNat → v.toNat < 2 ^ 36 →
    Answers (exec (.captureArm l e v) s) s (.leaf l) e 0x02 0x25A0 0 0 fun a =>
      let n := v.toNat / 2 ^ 32 % 16
      if (s.dev (.leaf l)).cfg.traceSources ≤ n then a.abort = 0x06 ∧ a.dev = (s.unit (.leaf l)).heard e
      else if ((s.dev (.leaf l)).srcAt n).arm.isSome = true ∨ ((s.dev (.leaf l)).srcAt n).capture.isSome = true then
        a.abort = 0x09 ∧ a.dev = (s.unit (.leaf l)).heard e
      else a.abort = 0 ∧ (n < (s.dev (.leaf l)).trc.srcs.length →
          (a.dev.srcAt n).arm = some (v.toNat % 65536, v.toNat / 65536 % 65536)) ∧
        a.dev = { (s.unit (.leaf l)).heard e with trc := a.dev.trc }) ∧
  (∀ (s : State) (l : LeafId) (e : Env) (n v : Nat), s.runs (.leaf l) → n < 16 → v < 256 →
    (s.unit (.leaf l)).accepts e (0x2510 + n) 6 v → n < (s.dev (.leaf l)).trc.srcs.length →
    Answers (exec (.digestModeWrite l e n v) s) s (.leaf l) e 0x02 (0x2510 + n) 6 0 fun a =>
      a.abort = 0 ∧ a.dev.get (key (0x2510 + n) 6) = v ∧
      a.dev.srcAt n = { (s.dev (.leaf l)).srcAt n with
        digest := 0xFFFFFFFF#32, digBytes := 0, blockNo := 0,
        digCmd := (((s.unit (.leaf l)).heard e).set (key (0x2510 + n) 6) v).digestHeld n } ∧
      ((s.unit (.leaf l)).heard e).objectsKept a.dev [key (0x2510 + n) 6]) ∧
  (∀ (s : State) (l : LeafId) (n : Nat), s.runs (.leaf l) → n < (s.dev (.leaf l)).cfg.traceSources →
    n < (s.dev (.leaf l)).trc.srcs.length → (s.dev (.leaf l)).get (key (0x2510 + n) 6) = 1 →
    ((s.dev (.leaf l)).srcAt n).asleep = none →
    Yields (exec (.digestBlockClose l n) s) s (.leaf l) fun d =>
      (d.srcAt n).digest = 0xFFFFFFFF#32 ∧ (d.srcAt n).digBytes = 0 ∧
      (d.srcAt n).blockNo = ((s.dev (.leaf l)).srcAt n).blockNo + 1)

/-- WRITE_RECORD that the unit accepts, of 4 to 1,024 bytes and a multiple of 4: a SOFTWARE record with those bytes and
this stamp is written and the newest Seq is the next one; of another length it fails with TYPE_LENGTH. SNAP_NOW of 1
with its cause enabled, none considered in this tick and none within SnapGap: a SNAPSHOT record of cause 8 is
written. LEAF_RECORD of a payload the spec allows, not stored already: the trunk's newest record is that record with
the leaf's address, Seq and time and with the trunk's next Seq; stored already, the history is unchanged.
RECORDER_PORT_READ, over SDP with no latch held or on the local port at host level: the answer is the 8 bytes at
Offset, and Offset is 8 further, modulo the ring's size. (R214, R216, R218, R220, R221, R223, R226, R236, R237) -/
def Obligations.RecordsAreWrittenAndRead : Prop :=
  (∀ (s : State) (u : UnitId) (e : Env) (bs : Bytes), s.runs u → (s.unit u).acceptsDomain e 0x2605 0 bs →
    Answers (exec (.writeRecord u e bs) s) s u e 0x02 0x2605 0 0 fun a =>
      if bs.length % 4 = 0 ∧ 4 ≤ bs.length ∧ bs.length ≤ 1024 then
        a.abort = 0 ∧ (s.dev u).wrote a.dev 0x0B (s.dev u).stamp bs ∧
        a.dev.get 0x2600_02 % 2 ^ 32 = ((s.dev u).get 0x2600_02 + 1) % 2 ^ 32
      else a.abort = 0x05 ∧ a.dev = (s.unit u).heard e) ∧
  (∀ (s : State) (u : UnitId) (e : Env), s.runs u → (s.unit u).accepts e 0x2601 5 1 →
    ((s.dev u).get 0x2601_01).testBit 7 = true → (s.dev u).rcd.snapTick ≠ some (s.dev u).time.tick →
    (∀ t, (s.dev u).rcd.lastSnap = some t → t + (s.dev u).get 0x2601_02 ≤ (s.dev u).stamp) →
    Answers (exec (.snapNow u e 1) s) s u e 0x02 0x2601 5 0 fun a =>
      a.abort = 0 ∧ (∃ p, (s.dev u).wrote a.dev 0x09 (s.dev u).stamp p ∧ natAt p 0 1 = 8) ∧ a.dev.rcd.lastSnap = some (s.dev u).stamp) ∧
  (∀ (s : State) (port : Nat) (r : LeafRec), s.runs .trunk → port ≤ 255 → r.payload.length % 4 = 0 →
    4 ≤ r.payload.length → r.payload.length ≤ 1024 →
    Yields (exec (.leafRecord port r) s) s .trunk fun d =>
      if (s.trunk.heldRecs.any fun x =>
          x.origin = s.trunk.leafAddress port && x.originSeq = r.seq && x.time = r.time) = true then
        d.rcd = s.trunk.rcd
      else ∃ x xs, d.rcd.hist = x :: xs ∧ x.kind = r.kind ∧ x.flags = r.flags ∧ x.time = r.time ∧ x.payload = r.payload ∧
        x.origin = s.trunk.leafAddress port ∧ x.originSeq = r.seq ∧ x.seq = (s.trunk.get 0x2600_02 + 1) % 2 ^ 32) ∧
  (∀ (s : State) (u : UnitId) (e : Env), s.built → s.runs u → (s.unit u).hears e → (s.unit u).quickset = false →
    (if e.via = .lp then e.user = false else (s.unit u).latchOf e 0x2604 = none) →
    (s.dev u).get 0x2600_01 < 2 ^ 32 → 0 < (s.dev u).get 0x2600_01 →
    Answers (exec (.recorderPortRead u e) s) s u e 0x01 0x2604 2 0 fun a =>
      a.abort = 0 ∧ a.data = leBytes 8 ((s.unit u).value 0x2604 2) ∧
      a.dev.get 0x2604_01 = ((s.dev u).get 0x2604_01 + 8) % (s.dev u).get 0x2600_01 ∧
      ((s.unit u).heard e).onlyObjects a.dev [0x2604_01])

/-- FLUSH_SOFTWARE and FLUSH_TEARDOWN that the leaf accepts: with a flush running BUSY; else the newest record is a
FLUSH_START of reason 3 or 4, and the flush covers the records up to it. RECORDER_ACK marks exactly the records in
its ranges and no other, and changes no other field of a record. ACK_TIMEOUT after a flush: records sent 1 ms ago
and not acknowledged are unsent, the others as they were. FLUSH_END with the flush run out, nothing to send and no
record after its set: no flush runs, its state object reads 0, and the wait for acknowledgements starts unless it
was a power-fail flush. RECORDER_COMMIT once the delay has passed: the half without the newest valid commit holds
the newest records up to CommitLimit with the time of its start, and nothing is due. PROGRESS_WORD_PROGRAMMED of a
half at work: 65,536 more bytes are written with their progress word, or what is left with the final word, which
ends the commit. (R228, R229, R230, R231, R234, R239, R240) -/
def Obligations.FlushesSendRecordsUntilAcknowledged : Prop :=
  (∀ (s : State) (l : LeafId) (e : Env), s.runs (.leaf l) →
    ((s.unit (.leaf l)).accepts e 0x2603 2 3 →
      Answers (exec (.flushSoftware l e) s) s (.leaf l) e 0x02 0x2603 2 0 fun a =>
        if (s.dev (.leaf l)).rcd.flush.isSome = true then a.abort = 0x09 ∧ a.dev = (s.unit (.leaf l)).heard e
        else a.abort = 0 ∧ (∃ x xs, a.dev.rcd.hist = x :: xs ∧ x.kind = 0x0A ∧ natAt x.payload 0 1 = 3 ∧
          ∃ f, a.dev.rcd.flush = some f ∧ f.reason = 3 ∧ f.from_ = x.seq)) ∧
    ((s.unit (.leaf l)).accepts e 0x2603 2 4 →
      Answers (exec (.flushTeardown l e) s) s (.leaf l) e 0x02 0x2603 2 0 fun a =>
        if (s.dev (.leaf l)).rcd.flush.isSome = true then a.abort = 0x09 ∧ a.dev = (s.unit (.leaf l)).heard e
        else a.abort = 0 ∧ (∃ x xs, a.dev.rcd.hist = x :: xs ∧ x.kind = 0x0A ∧ natAt x.payload 0 1 = 4 ∧
          ∃ f, a.dev.rcd.flush = some f ∧ f.reason = 4 ∧ f.from_ = x.seq))) ∧
  (∀ (s : State) (l : LeafId) (rs : List (Nat × Nat)), s.runs (.leaf l) →
    Yields (exec (.recorderAck l rs) s) s (.leaf l) fun d =>
      d.rcd.hist = (s.dev (.leaf l)).rcd.hist.map (fun r =>
        if rs.any (inRange · r.seq) = true then { r with acked := true } else r) ∧
      d = { s.unit (.leaf l) with objs := d.objs, rcd := { (s.dev (.leaf l)).rcd with hist := d.rcd.hist } } ∧
      (s.unit (.leaf l)).objectsKept d [0x2603_05]) ∧
  (∀ (s : State) (l : LeafId), s.runs (.leaf l) → (s.dev (.leaf l)).rcd.flush = none →
    (s.dev (.leaf l)).rcd.flushEnd.isSome = true →
    Yields (exec (.ackTimeout l) s) s (.leaf l) fun d =>
      d.rcd.hist = (s.dev (.leaf l)).rcd.hist.map (fun r =>
        if r.acked = false ∧ (∃ t, r.sentAt = some t ∧ t + 1000000 ≤ (s.dev (.leaf l)).time.ns) then
          { r with sentAt := none } else r) ∧
      d = { s.unit (.leaf l) with rcd := { (s.dev (.leaf l)).rcd with hist := d.rcd.hist } }) ∧
  (∀ (s : State) (l : LeafId) (f : Flush), s.runs (.leaf l) → (s.dev (.leaf l)).rcd.flush = some f →
    (s.dev (.leaf l)).flushNext = none → (s.dev (.leaf l)).queue 1 = [] → (s.dev (.leaf l)).arb.current ≠ 1 →
    (∀ r ∈ (s.dev (.leaf l)).heldRecs, seqDiff 32 r.seq f.from_ ≤ 0) → (s.dev (.leaf l)).boot.dying = none →
    Yields (exec (.flushEnd l) s) s (.leaf l) fun d =>
      d.rcd.flush = none ∧ (d.rcd.flushEnd = if f.reason = 1 then none else some (s.dev (.leaf l)).stamp) ∧
      d.get 0x2603_01 = 0 ∧
      d.rcd.hist = (s.dev (.leaf l)).rcd.hist) ∧
  (∀ (s : State) (t : Nat), s.runs .trunk → s.trunk.rcd.commitDue = some t →
    t + s.trunk.get 0x2610_02 ≤ s.trunk.time.ns → s.trunk.rcd.halves.length = 2 →
    Yields (exec .recorderCommit s) s .trunk fun d =>
      d.rcd.commitDue = none ∧
      (∃ h, d.rcd.halves[s.trunk.commitHalf]? = some h ∧ h.start = s.trunk.time.ns ∧
        h.records = recsWithin true (s.trunk.get 0x2610_01) s.trunk.heldRecs ∧ h.written = 0 ∧
        ∀ g ∈ s.trunk.rcd.halves, g.order < h.order) ∧
      d = { s.unit .trunk with rcd := d.rcd }) ∧
  (∀ (s : State) (n : Nat) (h : CommitHalf), s.runs .trunk → s.trunk.rcd.committing = some n →
    s.trunk.rcd.halves[n]? = some h →
    Yields (exec .progressWordProgrammed s) s .trunk fun d =>
      (if h.written + 65536 ≤ h.total then
        d.rcd.halves[n]? = some { h with
          written := h.written + 65536, progress := h.progress ++ [h.written + 65536]
          final := decide (h.written + 65536 = h.total) } ∧
        (d.rcd.committing = if h.written + 65536 = h.total then none else some n)
      else d.rcd.halves[n]? = some { h with written := h.total, final := true } ∧ d.rcd.committing = none) ∧
      d = { s.unit .trunk with rcd := d.rcd })

/-- SCHEDULE_ENABLE of an idle schedule: STATE where the frame rates would pass FrameRateLimit, else the schedule is
active from this stamp and Enable reads 1; of an active one a stop is called off. SCHEDULE_DISABLE of an active
schedule lets it stop at its next latch. SNAPSHOT_AT: RANGE off the tick grid, BUSY with one pending, STATE for the
past, else pending. REBIND: STATE when disabled or for a window already latched, BUSY with one pending, else
pending. DEGRADE_CMD: STATE in mode HW, RANGE past step 3, else waiting. STREAM_RESET marks exactly the streams
named. Nothing else changes. (R245, R246, R249, R250, R265, R266, R267, R274, R297) -/
def Obligations.SchedulesRunAndStop : Prop :=
  (∀ (s : State) (l : LeafId) (e : Env) (sc : Nat), s.built → s.runs (.leaf l) → sc < 4 →
    (s.unit (.leaf l)).accepts e (0x2701 + sc) 1 1 → (s.dev (.leaf l)).frm.scheds.length = 4 →
    Answers (exec (.scheduleEnable l e sc) s) s (.leaf l) e 0x02 (0x2701 + sc) 1 0 fun a =>
      if ((s.dev (.leaf l)).sched sc).active = true then
        a.abort = 0 ∧ (a.dev.sched sc).stopping = false ∧ a.dev = { (s.unit (.leaf l)).heard e with frm := a.dev.frm }
      else if (s.dev (.leaf l)).get 0x2700_02 < (s.dev (.leaf l)).frameRate (some sc) then a.abort = 0x07 ∧ a.dev = (s.unit (.leaf l)).heard e
      else a.abort = 0 ∧ a.dev.get (schedKey sc 1) = 1 ∧ (a.dev.sched sc).active = true ∧
        (a.dev.sched sc).from_ = (s.dev (.leaf l)).stamp ∧ (∀ k, k ≠ sc → a.dev.sched k = (s.dev (.leaf l)).sched k) ∧
        ((s.unit (.leaf l)).heard e).objectsKept a.dev [schedKey sc 1]) ∧
  (∀ (s : State) (l : LeafId) (e : Env) (sc : Nat), s.built → s.runs (.leaf l) → sc < 4 →
    (s.unit (.leaf l)).accepts e (0x2701 + sc) 1 0 → (s.dev (.leaf l)).frm.scheds.length = 4 →
    Answers (exec (.scheduleDisable l e sc) s) s (.leaf l) e 0x02 (0x2701 + sc) 1 0 fun a =>
      a.abort = 0 ∧ (((s.dev (.leaf l)).sched sc).active = true → a.dev.sched sc = { (s.dev (.leaf l)).sched sc with stopping := true }) ∧
      (((s.dev (.leaf l)).sched sc).active = false → a.dev = (s.unit (.leaf l)).heard e) ∧ a.dev = { (s.unit (.leaf l)).heard e with frm := a.dev.frm }) ∧
  (∀ (s : State) (l : LeafId) (e : Env) (t : Nat), s.built → s.runs (.leaf l) → (s.unit (.leaf l)).accepts e 0x2708 1 t →
    Answers (exec (.snapshotAt l e t) s) s (.leaf l) e 0x02 0x2708 1 0 fun a =>
      if t % 8 ≠ 0 then a.abort = 0x06 ∧ a.dev = (s.unit (.leaf l)).heard e
      else if (s.dev (.leaf l)).frm.oneShot.isSome = true then a.abort = 0x09 ∧ a.dev = (s.unit (.leaf l)).heard e
      else if t ≤ (s.dev (.leaf l)).stamp then a.abort = 0x07 ∧ a.dev = (s.unit (.leaf l)).heard e
      else a.abort = 0 ∧ a.dev = { (s.unit (.leaf l)).heard e with frm := { (s.dev (.leaf l)).frm with oneShot := some t } }) ∧
  (∀ (s : State) (l : LeafId) (e : Env) (sc : Nat) (v : Word), s.built → s.runs (.leaf l) → sc < 4 →
    (s.unit (.leaf l)).accepts e (0x2701 + sc) 0x0D v.toNat → (s.dev (.leaf l)).frm.scheds.length = 4 →
    Answers (exec (.rebind l e sc v) s) s (.leaf l) e 0x02 (0x2701 + sc) 0x0D 0 fun a =>
      let w := v.toNat / 2 ^ 32
      if (s.dev (.leaf l)).get (schedKey sc 1) = 0 then a.abort = 0x07 ∧ a.dev = (s.unit (.leaf l)).heard e
      else if ((s.dev (.leaf l)).sched sc).rebind.isSome = true then a.abort = 0x09 ∧ a.dev = (s.unit (.leaf l)).heard e
      else if (s.dev (.leaf l)).get (schedKey sc 3) + 8 * (s.dev (.leaf l)).get (schedKey sc 2) * w ≤ (s.dev (.leaf l)).stamp then a.abort = 0x07 ∧ a.dev = (s.unit (.leaf l)).heard e
      else a.abort = 0 ∧ a.dev.sched sc = { (s.dev (.leaf l)).sched sc with
          rebind := some (w, v.toNat / 2 ^ 24 % 256, v.toNat / 2 ^ 16 % 256, v.toNat % 4096) } ∧
        a.dev = { (s.unit (.leaf l)).heard e with frm := a.dev.frm }) ∧
  (∀ (s : State) (l : LeafId) (e : Env) (v : Nat), s.built → s.runs (.leaf l) → (s.unit (.leaf l)).accepts e 0x2700 7 v →
    Answers (exec (.degradeCmd l e v) s) s (.leaf l) e 0x02 0x2700 7 0 fun a =>
      if (s.dev (.leaf l)).get 0x2700_01 ≠ 1 then a.abort = 0x07 ∧ a.dev = (s.unit (.leaf l)).heard e
      else if 3 < v then a.abort = 0x06 ∧ a.dev = (s.unit (.leaf l)).heard e
      else a.abort = 0 ∧ a.dev = { (s.unit (.leaf l)).heard e with
        frm := { (s.dev (.leaf l)).frm with ladder := { (s.dev (.leaf l)).frm.ladder with cmd := some v } } }) ∧
  (∀ (s : State) (l : LeafId) (e : Env) (v : Nat), s.built → s.runs (.leaf l) → (s.unit (.leaf l)).accepts e 0x2801 3 v →
    (s.dev (.leaf l)).frm.scheds.length = 4 →
    Answers (exec (.streamReset l e v) s) s (.leaf l) e 0x02 0x2801 3 0 fun a =>
      a.abort = 0 ∧ a.dev = { (s.unit (.leaf l)).heard e with frm := a.dev.frm } ∧
      ∀ k < 4, a.dev.sched k =
        if v.testBit k = true then { (s.dev (.leaf l)).sched k with resetAt := ((s.dev (.leaf l)).sched k).resetAt ++ [(s.dev (.leaf l)).time.tick] } else (s.dev (.leaf l)).sched k)

/-- LATCH of an active schedule with a window due, once in a tick: a stopping schedule becomes idle and disabled; one
whose frame still waits counts the skip and sets flag 1; else Window reads the window and the schedule holds its
latch with this stamp, and with LatchBank set the shadow bank holds every tap's counters. FRAME_BUILD a tick after a
latch, for an even window of a schedule that is not ARCHIVE, or with the ladder at step 0: the latch is used up and
one frame is added to those waiting, with format 1, the schedule, the next Seq, the window and the latch's stamp in
its header. ONE_SHOT_LATCH at its instant: none is pending, and the bank holds the counters with this stamp and
cause 1. (R132, R244, R246, R250, R254, R257, R258, R259, R268, R271) -/
def Obligations.LatchesFillTheShadowBankAndBuildFrames : Prop :=
  (∀ (s : State) (l : LeafId) (sc k : Nat) (m : Bool), s.built → s.runs (.leaf l) → sc < 4 → (s.dev (.leaf l)).frm.scheds.length = 4 →
    ((s.dev (.leaf l)).sched sc).active = true → ((s.dev (.leaf l)).sched sc).lastTick ≠ some (s.dev (.leaf l)).time.tick → (s.dev (.leaf l)).dueWindow sc = some (k, m) → k < 2 ^ 32 →
    Yields (exec (.latch l sc) s) s (.leaf l) fun d =>
      (d.sched sc).lastTick = some (s.dev (.leaf l)).time.tick ∧
      (((s.dev (.leaf l)).sched sc).stopping = true →
        d.get (schedKey sc 1) = 0 ∧ (d.sched sc).active = false ∧ (d.sched sc).latch = ((s.dev (.leaf l)).sched sc).latch ∧
        (s.unit (.leaf l)).objectsKept d [schedKey sc 1]) ∧
      (((s.dev (.leaf l)).sched sc).stopping = false → (s.dev (.leaf l)).get (schedKey sc 6) ≠ 1 → (s.dev (.leaf l)).holdsWaiting sc = true →
        (s.dev (.leaf l)).get (schedKey sc 0x12) + 1 < 2 ^ 32 →
        d.get (schedKey sc 0x12) = (s.dev (.leaf l)).get (schedKey sc 0x12) + 1 ∧ (d.get 0x2709_00).testBit 1 = true ∧
        (d.sched sc).latch = ((s.dev (.leaf l)).sched sc).latch) ∧
      (((s.dev (.leaf l)).sched sc).stopping = false → (s.dev (.leaf l)).get (schedKey sc 6) ≠ 1 → (s.dev (.leaf l)).holdsWaiting sc = false →
        d.get (schedKey sc 0x0F) = k ∧ (∃ x, (d.sched sc).latch = some x ∧ x.window = k ∧ x.stamp = (s.dev (.leaf l)).stamp ∧ x.merged = m) ∧
        (((s.dev (.leaf l)).sched sc).rebind = none → (s.dev (.leaf l)).get (schedKey sc 0x0E) = 1 → (s.dev (.leaf l)).frm.bankTick ≠ some (s.dev (.leaf l)).time.tick →
          d.frm.shadow = (s.dev (.leaf l)).tap.taps.map fun t => (List.range 32).map t.counter))) ∧
  (∀ (s : State) (l : LeafId) (sc : Nat) (x : FrameLatch), s.built → s.runs (.leaf l) → sc < 4 → (s.dev (.leaf l)).frm.scheds.length = 4 →
    ((s.dev (.leaf l)).sched sc).latch = some x → x.stamp + 8 ≤ (s.dev (.leaf l)).stamp → (s.dev (.leaf l)).pfActive = false → (s.dev (.leaf l)).quickset = false → x.window % 2 = 0 →
    ((s.dev (.leaf l)).get (schedKey sc 6) ≠ 1 ∨ ((s.dev (.leaf l)).frm.ladder.step = 0 ∧ (s.dev (.leaf l)).get 0x2700_03 ≠ sc)) →
    Yields (exec (.frameBuild l sc) s) s (.leaf l) fun d =>
      (d.sched sc).latch = none ∧ d.get (schedKey sc 0x10) = nextSeq ((s.dev (.leaf l)).get (schedKey sc 0x10)) ∧
      ∃ f, (d.sched sc).waiting = ((s.dev (.leaf l)).sched sc).waiting ++ [f] ∧ f.built = (s.dev (.leaf l)).time.tick ∧ natAt f.raw 0 1 = 1 ∧
        natAt f.raw 1 1 = sc ∧ natAt f.raw 12 4 = nextSeq ((s.dev (.leaf l)).get (schedKey sc 0x10)) ∧
        natAt f.raw 16 4 = x.window % 2 ^ 32 ∧ natAt f.raw 20 4 = x.stamp % 2 ^ 32) ∧
  (∀ (s : State) (l : LeafId) (t : Nat), s.built → s.runs (.leaf l) → (s.dev (.leaf l)).frm.oneShot = some t → t ≤ (s.dev (.leaf l)).stamp →
    (s.dev (.leaf l)).time.dead = false → (s.dev (.leaf l)).stamp < 2 ^ 64 →
    Yields (exec (.oneShotLatch l) s) s (.leaf l) fun d =>
      d.frm.oneShot = none ∧ d.get 0x2708_04 = 1 ∧ d.frm.scheds = (s.dev (.leaf l)).frm.scheds ∧
      ((s.dev (.leaf l)).frm.bankTick ≠ some (s.dev (.leaf l)).time.tick → d.get 0x2708_03 = (s.dev (.leaf l)).stamp ∧ d.frm.bankTick = some (s.dev (.leaf l)).time.tick ∧
        d.frm.shadow = (s.dev (.leaf l)).tap.taps.map fun t => (List.range 32).map t.counter) ∧
      ((s.dev (.leaf l)).frm.bankTick = some (s.dev (.leaf l)).time.tick → (s.unit (.leaf l)).objectsKept d [0x2708_04]))

/-- For every context and every original of 1 to 16,777,216 bytes and each choice of HIST_CONT (only in a context
between frames), LAST, field deltas and tokens: the coded frame, decoded in that context with room for the original,
gives status OK, the original bytes and the CRC-32C of the original. This holds whatever tokens the encoder chooses.
(R278, R279, R283, R291, R295, R298) -/
def Obligations.CodedFramesDecodeToTheirOriginals : Prop :=
  ∀ (c : Ctx) (orig : Bytes) (cont last delta tokens : Bool), 0 < orig.length → orig.length ≤ 16777216 →
    (cont = true → c.phase = 1) →
    let r := encodeFrame c orig cont last delta tokens
    let x := decodeFrame { (if cont then c else c.restart) with phase := 1 } r.bytes orig.length
    x.status = .ok ∧ x.out = orig ∧ x.crc = crc32c orig

/-- FRAME_ENCODE of a schedule with a frame waiting, no power-fail warning: that frame no longer waits, the FRAMES queue
is one longer and holds the frame coded in the encoder's context, and the raw bytes are counted. LEAF_FRAME in mode
ENGINE with analysis running decodes in the context that memory holds for the stream: where it fails, the error of
its status is counted; where it succeeds, FramesDecoded counts one. Memory then holds the context that the decoding
leaves, and nothing else new where the decoding fails, the frame is of another partition than its port's, or is
stale; any other frame becomes the stream's last one. TRUNK_LADDER once per closed reference window in mode HW: each
ladder goes one step up (to 3) after SatWindows saturated windows and one step down (to 0) after RecoverWindows
clear ones. (R270, R275, R296, R298, R303, R304, R412, R447) -/
def Obligations.FramesAreCodedAndTheirDecodingIsJudged : Prop :=
  (∀ (s : State) (l : LeafId) (sc : Nat) (f : BuiltFrame) (rest : List BuiltFrame), s.built → s.runs (.leaf l) → sc < 4 →
    (s.dev (.leaf l)).frm.scheds.length = 4 → (s.dev (.leaf l)).arb.queues.length = 6 → (s.dev (.leaf l)).pfActive = false →
    ((s.dev (.leaf l)).sched sc).waiting = f :: rest → (s.dev (.leaf l)).get 0x2802_03 + f.raw.length < 2 ^ 64 →
    Yields (exec (.frameEncode l sc) s) s (.leaf l) fun d =>
      (d.sched sc).waiting = rest ∧ (d.queue 0).length = ((s.dev (.leaf l)).queue 0).length + 1 ∧
      d.get 0x2802_03 = (s.dev (.leaf l)).get 0x2802_03 + f.raw.length ∧
      ∃ x ∈ d.queue 0, x.sched = sc ∧ x.built = f.built ∧ ∃ cont last,
        x.bytes = (encodeFrame ((s.dev (.leaf l)).encoder sc) f.raw cont last ((s.dev (.leaf l)).on 0x2801_02) ((s.dev (.leaf l)).get 0x2800_00 != 1)).bytes ∧
        (f.restart = true → cont = false)) ∧
  (∀ (s : State) (port sc : Nat) (coded : Bytes) (colour : Nat), s.built → s.runs .trunk → port ≤ 255 → sc < 4 →
    s.trunk.noAnalysis = false → s.trunk.get 0x2800_00 ≠ 1 →
    let r := s.trunk.leafCall s.mem (4 * port + sc) coded
    let after := Mem.writeCtx s.mem (s.trunk.contextAt (4 * port + sc)) { r.ctx with role := 2 } r.out
    YieldsMem (exec (.leafFrame port sc coded colour) s) s fun d m =>
      d.tk.ing.stale.contains (4 * port + sc) = false ∧
      (r.status ≠ .ok → s.trunk.get (key 0x2811 r.status.code) + 1 < 2 ^ 32 →
        m = after ∧ d.get (key 0x2811 r.status.code) = s.trunk.get (key 0x2811 r.status.code) + 1) ∧
      (r.status = .ok → s.trunk.get 0x2810_01 + 1 < 2 ^ 32 → d.get 0x2810_01 = s.trunk.get 0x2810_01 + 1) ∧
      (r.status = .ok → frPart r.out ≠ s.trunk.stemPartition port → m = after) ∧
      (r.status = .ok → frPart r.out = s.trunk.stemPartition port → frGroup r.out ≠ 0 →
        s.trunk.staleFrame (frGroup r.out) (frGen r.out) = true → m = after ∧ (d.get 0x3207_00).testBit 2 = true) ∧
      (r.status = .ok → frPart r.out = s.trunk.stemPartition port →
        (frGroup r.out = 0 ∨ s.trunk.staleFrame (frGroup r.out) (frGen r.out) = false) →
        lookupKey (4 * port + sc) d.tk.ing.last = some r.out)) ∧
  (∀ (s : State) (n w : Nat), s.built → s.runs .trunk → (s.unit .trunk).reference = some n → (s.unit .trunk).referenceWindow = some w → 0 < w →
    s.trunk.tk.red.lastJudge ≠ some w → s.trunk.tk.red.ladders.length = 2 → s.trunk.get 0x2700_01 = 0 → 0 < s.trunk.get 0x2700_04 →
    0 < s.trunk.get 0x2700_05 → s.trunk.get 0x2710_01 ≤ 3 → s.trunk.get 0x2711_01 ≤ 3 →
    Yields (exec .trunkLadder s) s .trunk fun d =>
      d.tk.red.lastJudge = some w ∧
      ∀ i < 2, ∀ x, s.trunk.tk.red.ladders[i]? = some x →
        let sat := if i = 0 then s.trunk.ingestLate (s.trunk.groupTime n (w - 1)) else s.trunk.fabricFull (s.trunk.get (slotKey n 9))
        let step := s.trunk.get (key (0x2710 + i) 1)
        d.get (key (0x2710 + i) 1) =
          if sat = true then (if s.trunk.get 0x2700_04 ≤ x.sat + 1 then min 3 (step + 1) else step)
          else if s.trunk.get 0x2700_05 ≤ x.clear + 1 then step - 1 else step)

/-- A COMPRESS descriptor that may run, well formed, its ranges accessible: a context that fails R306, RESUME, or a
continued stream that is not between frames gives CONTEXT_INVALID, a length of 0 or beyond 16,777,216
LENGTH_OVERRUN, and the context is written back INVALID; otherwise the result block holds RAW or not, the original's
length, the coded length and the CRC-32C, and the output range holds the coded bytes. A DECOMPRESS descriptor
likewise, with or without RESUME: the result block holds the status, the bytes consumed and produced and the CRC,
and the output range holds the bytes produced; a context that fails R306 gives CONTEXT_INVALID and is written back
INVALID. Memory outside the output and the context is unchanged. (R298, R300, R301, R302, R305, R306, R472) -/
def Obligations.CodecEnginesRunTheirDescriptors : Prop :=
  (∀ (s : State) (r i : Nat) (x : DescSt), Mem.wf s.mem = true → s.runs .trunk → (s.unit .trunk).mayRun r i 4 1 x →
    let b := opBlock x
    let n := natAt b 4 4
    let src := natAt b 8 8
    let dst := natAt b 16 8
    let ctx := natAt b 32 8
    let cont := !(natAt b 1 1).testBit 1
    natAt b 1 1 < 16 → natAt b 2 2 = 0 → natAt b 28 4 = 0 → natAt b 40 8 = 0 → n + 16 ≤ natAt b 24 4 →
    (s.unit .trunk).mayAccess x [(src, n), (dst, natAt b 24 4), (ctx, 65600)] →
    YieldsMem (exec (.compress r i) s) s fun d m =>
      let fails (st : Nat) : Prop := d.resultOf r i = some (resultBlock st 0 0 0) ∧ m.byte (ctx + 65538) = 3 ∧
        ∀ a, ¬ (ctx ≤ a ∧ a < ctx + 65600) → m.byte a = Mem.byte s.mem a
      match (s.unit .trunk).readCtx s.mem ctx 1 with
      | none => fails 8
      | some c =>
        if (natAt b 1 1).testBit 0 = true ∨ cont = true ∧ c.phase ≠ 1 then fails 8
        else if n = 0 ∨ 16777216 < n then fails 5
        else
          let orig := (s.unit .trunk).load_ s.mem src n
          let y := encodeFrame c orig cont ((natAt b 1 1).testBit 3) (!(natAt b 1 1).testBit 2) true
          d.resultOf r i = some (resultBlock (b2n y.raw) n y.bytes.length (crc32c orig)) ∧
          (∀ k < y.bytes.length, m.byte (dst + k) = y.bytes.getD k 0) ∧
          ∀ a, ¬ (dst ≤ a ∧ a < dst + y.bytes.length) → ¬ (ctx ≤ a ∧ a < ctx + 65600) → m.byte a = Mem.byte s.mem a) ∧
  (∀ (s : State) (r i : Nat) (x : DescSt) (resume : Bool), Mem.wf s.mem = true → s.runs .trunk → (s.unit .trunk).mayRun r i 3 2 x →
    let b := opBlock x
    let n := natAt b 4 4
    let src := natAt b 8 8
    let dst := natAt b 16 8
    let out := natAt b 24 4
    let ctx := natAt b 32 8
    natAt b 1 1 < 16 → (natAt b 1 1).testBit 0 = resume → natAt b 2 2 = 0 → natAt b 28 4 = 0 → natAt b 40 8 = 0 →
    64 ≤ out → out % 8 = 0 → (s.unit .trunk).mayAccess x [(src, n), (dst, out), (ctx, 65600)] →
    let done (d : Dev) (m : Mem) : Prop :=
      match (s.unit .trunk).readCtx s.mem ctx 2 with
      | none => d.resultOf r i = some (resultBlock 8 0 0 0) ∧ m.byte (ctx + 65538) = 3 ∧
          ∀ a, ¬ (ctx ≤ a ∧ a < ctx + 65600) → m.byte a = Mem.byte s.mem a
      | some c =>
        let inp := (s.unit .trunk).load_ s.mem src n
        let y := if resume then resumeFrame c inp out else decodeFrame c inp out
        d.resultOf r i = some (resultBlock y.status.code y.consumed y.out.length y.crc) ∧
        (∀ k < y.out.length, m.byte (dst + k) = y.out.getD k 0) ∧
        ∀ a, ¬ (dst ≤ a ∧ a < dst + y.out.length) → ¬ (ctx ≤ a ∧ a < ctx + 65600) → m.byte a = Mem.byte s.mem a
    (resume = false → YieldsMem (exec (.decompress r i) s) s done) ∧
    (resume = true → YieldsMem (exec (.decompressResume r i) s) s done))

/-- DESCRIPTOR_SUBMIT on a ring with an engine that is not in ERROR: a produce counter further ahead than the ring is
long puts it in ERROR with flag 2; otherwise the descriptors up to it are taken in order, each with the 64 bytes at
its place, and the ring is RUNNING. DESCRIPTOR_COMPLETE of the only descriptor taken that has a result, its block
accessible: the 16 bytes of the result stand at its address, memory elsewhere is unchanged, Completed counts one,
the complete counter is one further, and no descriptor is left. RING_RESET that the trunk accepts, of a ring with
nothing outstanding and no model at load: the ring is IDLE with fresh state, and memory is unchanged. (R467, R469,
R470, R472, R473) -/
def Obligations.RingsTakeAndCompleteDescriptors : Prop :=
  (∀ (s : State) (r : Nat), s.built → s.runs .trunk → r < 64 → s.trunk.get (ringKey r 1) ≠ 0 → s.trunk.get (ringKey r 7) ≠ 2 →
    r < s.trunk.tk.ana.rings.length → (s.trunk.ring r).next.getD 0 < 2 ^ 64 →
    Yields (exec (.descriptorSubmit r) s) s .trunk fun d =>
      let from_ := (s.trunk.ring r).next.getD (s.trunk.ringD r)
      let n := (s.trunk.ringP r + 2 ^ 64 - from_) % 2 ^ 64
      let size := s.trunk.get (ringKey r 3)
      (toSigned 64 (s.trunk.ringP r + 2 ^ 64 - s.trunk.ringD r) > size →
        d.get (ringKey r 7) = 2 ∧ (d.get 0x4002_00).testBit 2 = true ∧ d.ring r = s.trunk.ring r) ∧
      (toSigned 64 (s.trunk.ringP r + 2 ^ 64 - s.trunk.ringD r) ≤ size → 0 < n → n ≤ size →
        d.get (ringKey r 7) = 1 ∧ (d.ring r).taken.map (·.idx) =
          (s.trunk.ring r).taken.map (·.idx) ++ (List.range n).map (fun k => (from_ + k) % 2 ^ 64) ∧
        (∀ x ∈ (d.ring r).taken.drop (s.trunk.ring r).taken.length,
          x.bytes = s.trunk.load_ s.mem (s.trunk.get (ringKey r 2) + 64 * (x.idx % max 1 size)) 64) ∧
        (s.unit .trunk).objectsKept d [ringKey r 7])) ∧
  (∀ (s : State) (r i : Nat) (x : DescSt) (res : Bytes), Mem.wf s.mem = true → s.built → s.runs .trunk → r < 64 → (s.trunk.ring r).taken = [x] →
    x.idx = i → x.result = some res → x.finished = false → res.length = 16 →
    (s.unit .trunk).mayAccess x [(natAt x.bytes 8 8, 16)] → natAt x.bytes 8 8 ≠ 0 → s.trunk.get (ringKey r 8) + 1 < 2 ^ 32 →
    YieldsMem (exec (.descriptorComplete r i) s) s fun d m =>
      (∀ a, m.byte a = if natAt x.bytes 8 8 ≤ a ∧ a < natAt x.bytes 8 8 + 16 then res.getD (a - natAt x.bytes 8 8) 0
        else Mem.byte s.mem a) ∧
      d.get (ringKey r 8) = s.trunk.get (ringKey r 8) + 1 ∧ (d.ring r).taken = [] ∧
      d.syncAt (s.trunk.get (ringKey r 5)) = s.trunk.syncAt (s.trunk.get (ringKey r 5)) + 1) ∧
  (∀ (s : State) (e : Env) (r : Nat), s.built → s.runs .trunk → r < 64 → (s.unit .trunk).accepts e (0x4040 + r) 0xA 1 →
    (s.trunk.ring r).taken = [] → (s.trunk.ring r).next = none → s.trunk.ringP r = s.trunk.ringD r →
    (∀ c ∈ s.trunk.tk.thk, ∀ x, c.load = some x → x.1 ≠ r) →
    Answers (exec (.ringReset e r 1) s) s .trunk e 0x02 (0x4040 + r) 0xA 0 fun a =>
      a.abort = 0 ∧ a.dev.get (ringKey r 7) = 0 ∧ a.dev.ring r = {} ∧
      (∀ q ∈ a.dev.tk.ana.reads, q.ring ≠ r) ∧ ((s.unit .trunk).heard e).objectsKept a.dev [ringKey r 7])

/-- For each of the four Movers operations whose descriptor may run, is well formed and names ranges it may access, the
result block is OK. COPY: each destination byte is what a load of the source byte found before. GATHER: element k of
the destination is the element at the k-th index address. SCATTER: each element goes to its index address, the later
of two that meet standing. FILL: the destination repeats the 8-byte pattern. Every byte outside the destination is
unchanged, and so is every scalar object. (R470, R472, R475) -/
def Obligations.MoversMoveTheBytesTheyName : Prop :=
  ∀ (s : State) (r i : Nat) (x : DescSt), Mem.wf s.mem = true → s.runs .trunk → (moverOp x).bad = false →
    let o := moverOp x
    ((s.unit .trunk).mayRun r i 10 1 x → (s.unit .trunk).mayAccess x [(o.src, o.len), (o.dst, o.len)] →
      YieldsMem (exec (.copy r i) s) s fun d m =>
        d.resultOf r i = some (statusOnly 0) ∧ d.objs = s.trunk.objs ∧
        ∀ a, m.byte a = if o.dst ≤ a ∧ a < o.dst + o.len then (s.trunk.load_ s.mem o.src o.len).getD (a - o.dst) 0 else Mem.byte s.mem a) ∧
    ((s.unit .trunk).mayRun r i 10 2 x → elemOk o.elem = true →
      (s.unit .trunk).mayAccess x [(o.index, 8 * o.len), (o.dst, o.len * o.elem)] →
      (s.unit .trunk).mayAccess x ((s.trunk.indexList s.mem o).map (·, o.elem)) →
      YieldsMem (exec (.gather r i) s) s fun d m =>
        d.resultOf r i = some (statusOnly 0) ∧ d.objs = s.trunk.objs ∧
        (∀ k < o.len, ∀ j < o.elem, m.byte (o.dst + k * o.elem + j) =
          (s.trunk.load_ s.mem (s.trunk.word s.mem (o.index + 8 * k)) o.elem).getD j 0) ∧
        ∀ a, ¬ (o.dst ≤ a ∧ a < o.dst + o.len * o.elem) → m.byte a = Mem.byte s.mem a) ∧
    ((s.unit .trunk).mayRun r i 10 3 x → elemOk o.elem = true →
      (s.unit .trunk).mayAccess x [(o.index, 8 * o.len), (o.src, o.len * o.elem)] →
      (s.unit .trunk).mayAccess x ((s.trunk.indexList s.mem o).map (·, o.elem)) →
      YieldsMem (exec (.scatter r i) s) s fun d m =>
        let at_ (k : Nat) : Nat := s.trunk.word s.mem (o.index + 8 * k)
        d.resultOf r i = some (statusOnly 0) ∧ d.objs = s.trunk.objs ∧
        (∀ k < o.len, ∀ j < o.elem,
          (∀ q < o.len, k < q → ¬ (at_ q ≤ at_ k + j ∧ at_ k + j < at_ q + o.elem)) →
          m.byte (at_ k + j) = (s.trunk.load_ s.mem (o.src + k * o.elem) o.elem).getD j 0) ∧
        ∀ a, (∀ k < o.len, ¬ (at_ k ≤ a ∧ a < at_ k + o.elem)) → m.byte a = Mem.byte s.mem a) ∧
    ((s.unit .trunk).mayRun r i 10 4 x → (s.unit .trunk).mayAccess x [(o.dst, o.len)] →
      YieldsMem (exec (.fill r i) s) s fun d m =>
        d.resultOf r i = some (statusOnly 0) ∧ d.objs = s.trunk.objs ∧
        ∀ a, m.byte a = if o.dst ≤ a ∧ a < o.dst + o.len then (leBytes 8 o.aux).getD ((a - o.dst) % 8) 0 else Mem.byte s.mem a)

/-- For each Sketch operation whose descriptor may run, is well formed and may access its ranges: BUCKET leaves at the
destination the histogram that was there with each value of the source put in; MERGE leaves the bucketwise sum of
its two sources; RANK answers the rank of its value and status 1 for an empty histogram; QUANTILE answers the
quantile, and status 1 where there is none. Every byte outside a destination is unchanged, and RANK and QUANTILE
change no memory at all. (R470, R472, R499) -/
def Obligations.SketchEnginesComputeHistograms : Prop :=
  ∀ (s : State) (r i : Nat) (x : DescSt), Mem.wf s.mem = true → s.runs .trunk → (sketchOp x).bad = false →
    let o := sketchOp x
    ((s.unit .trunk).mayRun r i 5 1 x → o.ty = 1 ∨ o.ty = 2 → (s.unit .trunk).mayAccess x [(o.src, 8 * o.count), (o.dst, 4 * o.n)] →
      YieldsMem (exec (.bucket r i) s) s fun d m =>
        let val (k : Nat) : Int := if o.ty = 2 then toSigned 64 (s.trunk.word s.mem (o.src + 8 * k)) else s.trunk.word s.mem (o.src + 8 * k)
        let h := (List.range o.count).foldl (fun h k => histPut h (val k)) (s.trunk.histAt s.mem o.dst o.n)
        d.resultOf r i = some (statusOnly 0) ∧ Mem.holds s.mem m o.dst (histBytes h)) ∧
    ((s.unit .trunk).mayRun r i 5 2 x → (s.unit .trunk).mayAccess x [(o.src, 4 * o.n), (o.src2, 4 * o.n), (o.dst, 4 * o.n)] →
      YieldsMem (exec (.merge r i) s) s fun d m =>
        d.resultOf r i = some (statusOnly 0) ∧
        Mem.holds s.mem m o.dst (histBytes (histAdd (s.trunk.histAt s.mem o.src o.n) (s.trunk.histAt s.mem o.src2 o.n)))) ∧
    ((s.unit .trunk).mayRun r i 5 3 x → (s.unit .trunk).mayAccess x [(o.src, 4 * o.n)] →
      YieldsMem (exec (.rank r i) s) s fun d m =>
        let h := s.trunk.histAt s.mem o.src o.n
        m = s.mem ∧ d.resultOf r i = some (valueBlock (b2n (histTotal h = 0))
          (rank16 h (if o.ty = 1 then (o.value : Int) else toSigned 64 o.value)) 0)) ∧
    ((s.unit .trunk).mayRun r i 5 4 x → 0 < o.p16 → o.p16 ≤ 65536 → (s.unit .trunk).mayAccess x [(o.src, 4 * o.n)] →
      YieldsMem (exec (.quantile r i) s) s fun d m =>
        m = s.mem ∧ d.resultOf r i = some (match quantileOf (s.trunk.histAt s.mem o.src o.n) o.p16 with
          | none => statusOnly 1
          | some q => valueBlock 0 0 q))

/-- POOL_ALLOC whose descriptor may run: with fields that R475 does not allow it is MALFORMED and changes no run;
otherwise the result is that of the allocation, a handle with its base or the status, and a run given stands in the
pool. POOL_FREE of a handle the descriptor may name: OK, and no run has that handle; of another, its status, and the
runs are unchanged. POOL_RETAG of a handle to its own class: OK, and its age is now. LEASE_WRITE and LEASE_READ: of
no lease held LEASE_LOST, past the lease's end MALFORMED; else the write is OK at once, and the read has no result
until its bytes come, one outstanding piece per 1,048,576 bytes. (R475, R476, R477, R479, R482) -/
def Obligations.PoolDescriptorsAllocateFreeAndRetag : Prop :=
  ∀ (s : State) (r i : Nat) (x : DescSt), s.built → s.runs .trunk → (moverOp x).bad = false →
    let o := moverOp x
    let c := o.aux % 256
    let d0 := (s.unit .trunk).startDesc r i
    ((s.unit .trunk).mayRun r i 10 5 x →
      YieldsMem (exec (.poolAlloc r i) s) s fun d m => m = s.mem ∧
        if c = 0 ∨ 6 < c ∨ 3 < o.aux / 256 % 256 ∨ o.aux / 2 ^ 16 % 2 ^ 32 = 0 ∨ o.aux / 2 ^ 48 % 2 ^ 16 ≠ 0 then
          d.resultOf r i = some (statusOnly 0xF0) ∧ d.tk.ana.runs = s.trunk.tk.ana.runs
        else match (d0.poolAlloc c (o.aux / 256 % 256) (o.aux / 2 ^ 16 % 2 ^ 32) o.part).1 with
          | .ok q => q ∈ d.tk.ana.runs ∧ q.cls = c ∧ q.part = o.part ∧
              (q.lease = none → d.resultOf r i = some (valueBlock 0 q.handle q.base))
          | .error st => d.resultOf r i = some (statusOnly st)) ∧
    ((s.unit .trunk).mayRun r i 10 6 x →
      YieldsMem (exec (.poolFree r i) s) s fun d m => m = s.mem ∧
        match s.trunk.runOf o.handle o.part with
        | .ok _ => d.resultOf r i = some (statusOnly 0) ∧
            d.tk.ana.runs = s.trunk.tk.ana.runs.filter (·.handle != o.handle)
        | .error st => d.resultOf r i = some (statusOnly st) ∧ d.tk.ana.runs = s.trunk.tk.ana.runs) ∧
    (∀ q, (s.unit .trunk).mayRun r i 10 7 x → s.trunk.runOf o.handle o.part = .ok q → q.cls = c → 0 < c → c ≤ 6 →
      (q.lease.isSome = true → c = 1) →
      YieldsMem (exec (.poolRetag r i) s) s fun d m =>
        m = s.mem ∧ d.resultOf r i = some (statusOnly 0) ∧ d.tk.ana.runs = s.trunk.tk.ana.runs.map fun y =>
          if y.handle = o.handle then { y with cls := c, age := s.trunk.time.ns } else y) ∧
    ((s.unit .trunk).mayRun r i 10 8 x →
      YieldsMem (exec (.leaseWrite r i) s) s fun d m => m = s.mem ∧
        match s.trunk.lease o.handle false with
        | none => d.resultOf r i = some (statusOnly 4)
        | some l =>
          if l.units * 2 ^ 30 < o.aux + o.len then d.resultOf r i = some (statusOnly 0xF0)
          else ((s.unit .trunk).mayAccess x [(o.src, o.len)] → d.resultOf r i = some (statusOnly 0))) ∧
    ((s.unit .trunk).mayRun r i 10 9 x → x.begun = false →
      YieldsMem (exec (.leaseRead r i) s) s fun d m => m = s.mem ∧
        match s.trunk.lease o.handle false with
        | none => d.resultOf r i = some (statusOnly 4)
        | some l =>
          if l.units * 2 ^ 30 < o.aux + o.len then d.resultOf r i = some (statusOnly 0xF0)
          else ((s.unit .trunk).mayAccess x [(o.dst, o.len)] → 0 < o.len →
            d.resultOf r i = none ∧ (d.tk.ana.reads.length = s.trunk.tk.ana.reads.length + (o.len + 1048575) / 1048576) ∧
            ∀ q ∈ s.trunk.tk.ana.reads, q ∈ d.tk.ana.reads))

/-- LEASE_REQUEST of a request not granted before: denied (again, if denied before), no lease and no run changes;
granted, the lender holds the lease with its units, borrower and expiry. LEASE_GRANT of an own lease ID: the
borrower holds it, a renewed one with the new expiry and no request open. LEASE_DENY and LEASE_RECALL close the
request, the latter with the recall time. LEASE_RENEW at the lender: a lease that may go on has a new expiry, one
under recall or short of pages is recalled 10 ms on. LEASE_RELEASE ends the lender's lease and frees its pages,
LEASE_RELEASED the borrower's with every run in it. RENEW_LEAD, LEASE_RESEND: the request is sent now.
RENEW_UNANSWERED, LEASE_EXPIRES, LEASE_DATA_ERROR: the borrower's lease is lost and counted. RECALL_AT,
LEASE_EXPIRES end the lender's. LEASE_RECALL_CMD recalls, or fails with STATE. (R478, R479, R480, R481, R482) -/
def Obligations.LeasesAreGrantedRenewedAndEnded : Prop :=
  (∀ (s : State) (m : LeaseMsg), s.runs .trunk → (s.unit .trunk).repeatAnswer m = none →
    Yields (exec (.leaseRequest m) s) s .trunk fun d =>
      match (s.trunk.denied m).orElse fun _ => s.trunk.denyReason m with
      | some _ => d.tk.ana.leases = s.trunk.tk.ana.leases ∧ d.tk.ana.runs = s.trunk.tk.ana.runs
      | none => ∃ l, d.lease m.leaseId true = some l ∧ l.units = m.units ∧ l.peer = m.borrower ∧
          l.expires = s.trunk.time.ns + min m.duration (s.trunk.get 0x4030_04) ∧ ∀ x ∈ s.trunk.tk.ana.runs, x ∈ d.tk.ana.runs) ∧
  (∀ (s : State) (m : LeaseMsg), s.runs .trunk → m.leaseId / 2 ^ 20 = s.trunk.get 0x3100_01 → 0 < m.units → m.units ≤ 64 →
    Yields (exec (.leaseGrant m) s) s .trunk fun d =>
      d.lease m.leaseId false = some (match s.trunk.lease m.leaseId false with
        | some l => { l with expires := m.expires, sentAt := none, askedAt := none }
        | none => { id := m.leaseId, lending := false, units := m.units, peer := m.lender
                    expires := m.expires, duration := m.duration }) ∧
      (∀ id, id ≠ m.leaseId → d.lease id false = s.trunk.lease id false) ∧ ∀ id, d.lease id true = s.trunk.lease id true) ∧
  (∀ (s : State) (m : LeaseMsg), s.runs .trunk →
    Yields (exec (.leaseDeny m) s) s .trunk fun d =>
      d.lease m.leaseId false = (s.trunk.lease m.leaseId false).map fun l => { l with sentAt := none, askedAt := none }) ∧
  (∀ (s : State) (m : LeaseMsg), s.runs .trunk →
    Yields (exec (.leaseRecall m) s) s .trunk fun d =>
      d.lease m.leaseId false = (s.trunk.lease m.leaseId false).map fun l =>
        { l with recallAt := m.recallAt, sentAt := none, askedAt := none }) ∧
  (∀ (s : State) (m : LeaseMsg) (l : Lease), s.runs .trunk → (s.unit .trunk).repeatAnswer m = none → s.trunk.lease m.leaseId true = some l →
    Yields (exec (.leaseRenew m) s) s .trunk fun d =>
      ∃ x, d.lease m.leaseId true = some x ∧ x.units = l.units ∧ x.peer = l.peer ∧
        if l.recallAt ≠ 0 ∨ (s.trunk.fabricHost = false ∧ s.trunk.get 0x4020_02 < s.trunk.get 0x4030_02) then
          x.recallAt = s.trunk.time.ns + 10000000 ∧ x.expires = l.expires
        else x.expires = s.trunk.time.ns + min m.duration (s.trunk.get 0x4030_04) ∧ x.recallAt = 0) ∧
  (∀ (s : State) (m : LeaseMsg), s.runs .trunk →
    Yields (exec (.leaseRelease m) s) s .trunk fun d =>
      d.lease m.leaseId true = none ∧
      ∀ l, s.trunk.lease m.leaseId true = some l → ∀ q ∈ d.tk.ana.runs, q.cls = 6 → (q.base, q.pages) ∉ l.pages) ∧
  (∀ (s : State) (m : LeaseMsg), s.runs .trunk → (s.trunk.lease m.leaseId false).isSome = true →
    Yields (exec (.leaseReleased m) s) s .trunk fun d =>
      d.lease m.leaseId false = none ∧ (∀ q ∈ d.tk.ana.runs, q.lease ≠ some m.leaseId) ∧
      ∀ q ∈ d.tk.ana.reads, q.lease ≠ m.leaseId) ∧
  (∀ (s : State) (id : Nat) (l : Lease), s.runs .trunk → s.trunk.lease id false = some l → l.sentAt = none → l.recallAt = 0 →
    l.expires ≤ s.trunk.time.ns + s.trunk.get 0x4030_05 →
    Yields (exec (.renewLead id) s) s .trunk fun d =>
      d.lease id false = some { l with sentAt := some s.trunk.time.ns, askedAt := some s.trunk.time.ns }) ∧
  (∀ (s : State) (id t : Nat) (l : Lease), s.runs .trunk → s.trunk.lease id false = some l → l.sentAt = some t →
    t + 100000 ≤ s.trunk.time.ns →
    Yields (exec (.leaseResend id) s) s .trunk fun d => d.lease id false = some { l with sentAt := some s.trunk.time.ns }) ∧
  (∀ (s : State) (id t : Nat) (l : Lease), s.built → s.runs .trunk → s.trunk.lease id false = some l → l.askedAt = some t →
    t + 1000000 ≤ s.trunk.time.ns → s.trunk.get 0x4030_09 + 1 < 2 ^ 32 →
    Yields (exec (.renewUnanswered id) s) s .trunk fun d =>
      d.lease id false = none ∧ d.get 0x4030_09 = s.trunk.get 0x4030_09 + 1 ∧ (d.get 0x4002_00).testBit 4 = true) ∧
  (∀ (s : State) (id : Nat) (l : Lease), s.runs .trunk → s.trunk.lease id true = some l → 0 < l.recallAt → l.recallAt ≤ s.trunk.time.ns →
    Yields (exec (.recallAt id) s) s .trunk fun d => d.lease id true = none ∧ ∀ k, d.lease k false = s.trunk.lease k false) ∧
  (∀ (s : State) (id : Nat), s.built → s.runs .trunk →
    Yields (exec (.leaseExpires id) s) s .trunk fun d =>
      (∀ l, s.trunk.lease id true = some l → if l.expires ≤ s.trunk.time.ns then d.lease id true = none else d.lease id true = some l) ∧
      ∀ l, s.trunk.lease id false = some l → if l.expires ≤ s.trunk.time.ns then d.lease id false = none ∧ (d.get 0x4002_00).testBit 4 = true
        else d.lease id false = some l) ∧
  (∀ (s : State) (m : LeaseData) (l : Lease), s.built → s.runs .trunk → s.trunk.lease m.leaseId false = some l →
    s.trunk.get 0x4030_09 + 1 < 2 ^ 32 →
    Yields (exec (.leaseDataError m) s) s .trunk fun d =>
      d.lease m.leaseId false = none ∧ d.get 0x4030_09 = s.trunk.get 0x4030_09 + 1 ∧ (d.get 0x4002_00).testBit 4 = true) ∧
  (∀ (s : State) (e : Env) (id : Nat), s.built → s.runs .trunk → (s.unit .trunk).accepts e 0x4030 0xA id →
    Answers (exec (.leaseRecallCmd e id) s) s .trunk e 0x02 0x4030 0xA 0 fun a =>
      match s.trunk.lease id true with
      | none => a.abort = 0x07 ∧ a.dev = (s.unit .trunk).heard e
      | some l => a.abort = 0 ∧ a.dev.lease id true = some { l with recallAt := s.trunk.time.ns + 10000000 })

/-- LEASE_DATA_WRITE within a lease: each byte stands at the lender's address of its place in the lease, every other
byte of memory is unchanged, and so is the trunk. Outside a lease, or of none, memory is unchanged.
LEASE_DATA_READ_REQ changes no memory, no run and no lease, and within a lease sends READ_DATA with exactly the
bytes that loads find at the addresses of the range (at step 1 of a ladder it is kept, R275). LEASE_DATA_READ_DATA
with a tag that is outstanding: the bytes stand at the destination of the read, memory elsewhere is unchanged, the
piece is no longer outstanding, and the descriptor has its result once no piece of it is left. (R275, R479, R482) -/
def Obligations.LeaseDataReachesItsAddresses : Prop :=
  (∀ (s : State) (m : LeaseData), Mem.wf s.mem = true → s.runs .trunk →
    YieldsMem (exec (.leaseDataWrite m) s) s fun d mem =>
      match s.trunk.lease m.leaseId true with
      | none => mem = s.mem
      | some l =>
        if l.covers m.offset m.data.length = true then
          d = (s.unit .trunk) ∧ let at_ (k : Nat) : Nat := leaseAddr l.pages (m.offset + k)
          (∀ k < m.data.length, (∀ q < m.data.length, k < q → at_ q ≠ at_ k) → mem.byte (at_ k) = m.data.getD k 0) ∧
          ∀ a, (∀ k < m.data.length, at_ k ≠ a) → mem.byte a = Mem.byte s.mem a
        else mem = s.mem) ∧
  (∀ (s : State) (m : LeaseData), s.runs .trunk →
    Yields (exec (.leaseDataReadReq m) s) s .trunk fun d =>
      d.tk.ana.leases = s.trunk.tk.ana.leases ∧ d.tk.ana.runs = s.trunk.tk.ana.runs ∧ ∀ l, s.trunk.lease m.leaseId true = some l → l.covers m.offset m.length = true →
        d = (s.unit .trunk).sendLeaseData m.sender 3 m.partition m.leaseId m.offset m.length m.tag
          ((List.range m.length).map fun k => s.trunk.loadByte s.mem (leaseAddr l.pages (m.offset + k)))) ∧
  (∀ (s : State) (m : LeaseData) (q : LeaseRead), Mem.wf s.mem = true → s.runs .trunk →
    s.trunk.tk.ana.reads.find? (fun x => x.tag = m.tag && x.lease = m.leaseId) = some q → q.len ≤ m.data.length →
    YieldsMem (exec (.leaseDataReadData m) s) s fun d mem =>
      Mem.holds s.mem mem q.dst (m.data.take q.len) ∧ d.tk.ana.reads = s.trunk.tk.ana.reads.erase q ∧
      (∀ x, s.trunk.desc q.ring q.idx = some x → x.result = none →
        d.resultOf q.ring q.idx = if (s.trunk.tk.ana.reads.erase q).any (fun y => y.ring = q.ring && y.idx = q.idx) = true
          then none else some (zeros 16)) ∧
      d.objs = s.trunk.objs)

/-- On a thread that may issue, with the counter address or frame address in x[rs1] and the target, addend or type in
x[rs2]: SYNC_WAIT puts the counter's value in rd where the target is reached, else the thread waits; FT_READ and
FT_READF put FleetTime in rd; FRAME_LOC its answer; KCLASS_WRITE puts the old class in rd and takes a class of 1 to
6, and in user mode raises cause 2; ILLEGAL_INSTRUCTION of a word that is no Kioft instruction raises cause 2; no
other thread and nothing else changes. The pc goes on by 4. SYNC_ADD puts the old value in rd and adds. A misaligned
counter raises an access fault. A load fills its register from memory and a store writes exactly its register's
bytes; an address that may not be accessed, or a memory error, raises cause 5 or 7 and changes no memory. An
exception saves the pc in mepc and goes on at mtvec in machine mode (the model's reading of the RISC-V standard, log
65). SYNC_WAIT_END returns the value that satisfied the wait, or the counter's after kwaitlim. A thread of a held
class is GATED instead. (R456, R457, R458, R459, R460, R461, R462, R463, R464, R466, R486) -/
def Obligations.SprigInstructionsActOnTheirThread : Prop :=
  (∀ (s : State) (t : ThreadId) (rd rs1 rs2 : BitVec 5) (v : Word), s.runs .trunk → s.trunk.mayIssue t →
    let x : Thread := { s.trunk.thread t with state := .ready }
    let addr := (x.xreg rs1).toNat
    let done (w : Word) : Thread := (x.setX rd w).next 4
    (∀ c, syncCounter addr = some c →
      Yields (exec (.syncWait t rd rs1 rs2) s) s .trunk fun d => (s.unit .trunk).onlyThread d t
        (if syncReached (s.trunk.syncAt c) (x.xreg rs2) = true then done (s.trunk.syncAt c)
         else { x with state := .waiting, wait := some (c, x.xreg rs2, s.trunk.time.ns, none), waitRd := rd })) ∧
    Yields (exec (.ftRead t rd) s) s .trunk (fun d => (s.unit .trunk).onlyThread d t (done (BitVec.ofNat 64 s.trunk.time.ns))) ∧
    Yields (exec (.ftReadF t rd) s) s .trunk (fun d => (s.unit .trunk).onlyThread d t
      (done (BitVec.ofNat 64 (s.trunk.time.ns % 2 ^ 32 * 2 ^ 32 + s.trunk.time.frac % 2 ^ 32)))) ∧
    (∀ w, s.trunk.frameLoc s.mem t addr (x.xreg rs2).toNat = .ok w →
      Yields (exec (.frameLoc t rd rs1 rs2) s) s .trunk fun d => (s.unit .trunk).onlyThread d t (done w)) ∧
    Yields (exec (.kclassWrite t rd v) s) s .trunk (fun d => (s.unit .trunk).onlyThread d t
      (if x.priv = .user then x.takeTrap 2 0x7C1
       else if 1 ≤ v.toNat ∧ v.toNat ≤ 6 then { done (BitVec.ofNat 64 x.kclass) with kclass := v.toNat }
       else done (BitVec.ofNat 64 x.kclass))) ∧
    (∀ word : BitVec 32, isKioft word.toNat = false →
      Yields (exec (.illegalInstruction t word) s) s .trunk fun d => (s.unit .trunk).onlyThread d t (x.takeTrap 2 word.toNat)) ∧
    (∀ c, syncCounter addr = some c →
      Yields (exec (.syncAdd t rd rs1 rs2) s) s .trunk fun d =>
        (d.thread t).x = (done (s.trunk.syncAt c)).x ∧ (d.thread t).pc = (done (s.trunk.syncAt c)).pc ∧ (d.thread t).state = .ready ∧
        d.syncAt c = s.trunk.syncAt c + x.xreg rs2 ∧ d.objs = s.trunk.objs) ∧
    (syncCounter addr = none →
      Yields (exec (.syncAdd t rd rs1 rs2) s) s .trunk (fun d =>
        d.thread t = x.takeTrap 7 addr ∧ d.tk.ana.sync = s.trunk.tk.ana.sync) ∧
      Yields (exec (.syncWait t rd rs1 rs2) s) s .trunk (fun d =>
        d.thread t = x.takeTrap 5 addr ∧ d.tk.ana.sync = s.trunk.tk.ana.sync))) ∧
  (∀ (s : State) (t : ThreadId) (ac : SprigAccess), Mem.wf s.mem = true → s.runs .trunk → s.trunk.mayIssue t →
    let x : Thread := { s.trunk.thread t with state := .ready }
    let addr := x.addrOf ac
    let a := ownTile t.tile addr
    YieldsMem (exec (.sprigLoadStore t ac) s) s (fun d m =>
      if s.trunk.checkSprig t addr ac.size ≠ none ∨ (ac.store = true ∧ s.trunk.zone a = 3) ∨ ac.ecc = true then
        m = s.mem ∧ d.thread t = x.takeTrap (if ac.store then 7 else 5) addr
      else if ac.store = true then
        Mem.holds s.mem m a (x.stored ac) ∧ d.thread t = x.next ac.advance ∧ d.objs = s.trunk.objs
      else m = s.mem ∧ d.thread t = (x.loaded ac (s.trunk.load_ s.mem a ac.size)).next ac.advance ∧ d.objs = s.trunk.objs)) ∧
  (∀ (s : State) (t : ThreadId) (c since : Nat) (target : Word) (hit : Option Word), s.runs .trunk →
    threadOk t = true → s.trunk.noAnalysis = false → (s.trunk.thread t).state = .waiting →
    (s.trunk.thread t).wait = some (c, target, since, hit) →
    Yields (exec (.syncWaitEnd t) s) s .trunk fun d =>
      let x : Thread := { s.trunk.thread t with state := .ready, wait := none }
      let done (v : Word) : Prop := (s.unit .trunk).onlyThread d t ((x.setX x.waitRd v).next 4)
      match hit with
      | some v => done v
      | none => if (s.trunk.thread t).kwaitlim ≠ 0 ∧ since + (s.trunk.thread t).kwaitlim.toNat ≤ s.trunk.time.ns then done (s.trunk.syncAt c) else d = (s.unit .trunk)) ∧
  (∀ (s : State) (t : ThreadId) (rd rs1 rs2 : BitVec 5) (v : Word), s.runs .trunk → threadOk t = true → s.trunk.noAnalysis = false →
    (s.trunk.thread t).state ≠ .waiting → (s.trunk.thread t).state ≠ .stalled → s.trunk.classHeld (s.trunk.thread t).kclass = true →
    ∀ c ∈ ([.syncAdd t rd rs1 rs2, .syncWait t rd rs1 rs2, .ftRead t rd, .ftReadF t rd, .frameLoc t rd rs1 rs2,
            .kclassWrite t rd v] : List Instr),
      Yields (exec c s) s .trunk fun d => (s.unit .trunk).onlyThread d t { s.trunk.thread t with state := .gated })

/-- ENERGY_WINDOW at a multiple of 12,500 ticks, once, in mode HW, with no thermal trip and FleetTime running: Budget is
100 times ThermalPower; Measured and each class's Used are as measured; each account holds its class's allowance;
without an overload classes 1 and 2 are allowed their demand, and above 180,000 classes 3 to 6 are allowed 0 and
flag 1 stands. At or above ThermalLimit, with no rail warning, ThermalPower falls by ThermalStep, not below
FloorPower. ACCOUNT_EXHAUSTED: the account holds what is left and the class is exhausted. PMBUS_READ once in
PmbusPeriod: every named rail's reading is held. PMB_ALERT: each named rail with a warning is among those warning.
SYNC_ADD_CMD adds to the selected counter. (R465, R484, R485, R486, R488, R489, R641) -/
def Obligations.TheEnergyGovernorRunsItsWindows : Prop :=
  (∀ (s : State) (x : EnergyMeas), s.built → s.runs .trunk → s.trunk.time.tick % 12500 = 0 →
    s.trunk.tk.ana.gov.lastWin ≠ some s.trunk.time.tick → s.trunk.time.dead = false → s.trunk.tk.tripped = false → s.trunk.get 0x4000_00 = 0 →
    x.measured < 2 ^ 32 → (∀ u ∈ x.used, u < 2 ^ 31) →
    Yields (exec (.energyWindow x) s) s .trunk fun d =>
      d.get 0x4010_09 = 100 * d.get 0x4010_08 ∧ d.get 0x4010_0A = x.measured ∧
      (∀ c, 1 ≤ c → c ≤ 6 → d.get (govKey c 3) = x.used.getD (c - 1) 0 ∧ d.get (govKey c 4) = d.get (govKey c 1)) ∧
      (∀ c, 1 ≤ c → c ≤ 2 → d.get (govKey c 1) = d.get (govKey c 2)) ∧
      (180000 < x.measured → (d.get 0x4002_00).testBit 1 = true ∧ ∀ c, 3 ≤ c → c ≤ 6 → d.get (govKey c 1) = 0) ∧
      d.tk.ana.gov.lastWin = some s.trunk.time.tick ∧ d.tk.ana.gov.exhausted = [] ∧
      (∀ t, s.self.hottest = some t → s.trunk.getI 0x4010_02 ≤ t → s.trunk.railWarning = false → s.trunk.get 0x4010_08 < 2 ^ 16 →
        s.trunk.get 0x4010_04 < 2 ^ 16 →
        d.get 0x4010_08 = min (s.trunk.get 0x4010_08) (max (s.trunk.get 0x4010_04) (s.trunk.get 0x4010_08 - s.trunk.get 0x4010_03)))) ∧
  (∀ (s : State) (c n : Nat), s.built → s.runs .trunk → 1 ≤ c → c ≤ 6 → 0 < s.trunk.getI (govKey c 4) → s.trunk.getI (govKey c 4) ≤ n →
    Yields (exec (.accountExhausted c n) s) s .trunk fun d =>
      d.getI (govKey c 4) = satI32 (s.trunk.getI (govKey c 4) - n) ∧ c ∈ d.tk.ana.gov.exhausted ∧
      (s.unit .trunk).objectsKept d [govKey c 4]) ∧
  (∀ (s : State) (rails : List (Nat × Nat)), s.runs .trunk → (rails.map (·.1)).Nodup →
    s.trunk.tk.ana.gov.lastRead + s.trunk.get 0x4010_06 ≤ s.trunk.time.ns →
    Yields (exec (.pmbusRead rails) s) s .trunk fun d =>
      d.tk.ana.gov.lastRead = s.trunk.time.ns ∧
      (∀ n v, (n, v) ∈ rails → s.trunk.readsRail n = true → lookupKey n d.tk.ana.gov.readPout = some v) ∧
      (∀ n, (n ∉ rails.map (·.1) ∨ s.trunk.readsRail n = false) →
        lookupKey n d.tk.ana.gov.readPout = lookupKey n s.trunk.tk.ana.gov.readPout) ∧ d.objs = s.trunk.objs) ∧
  (∀ (s : State) (rails : List (Nat × BitVec 16)), s.runs .trunk → (rails.map (·.1)).Nodup →
    Yields (exec (.pmbAlert rails) s) s .trunk fun d =>
      (∀ n w, (n, w) ∈ rails → s.trunk.readsRail n = true → Config.pmbusWarning w = true → n ∈ d.tk.ana.gov.warnRails) ∧
      (∀ n w, (n, w) ∈ rails → s.trunk.readsRail n = true → Config.pmbusWarning w = false →
        d.tk.ana.gov.warnRails.count n = s.trunk.tk.ana.gov.warnRails.count n - 1) ∧
      (∀ n, (n ∉ rails.map (·.1) ∨ s.trunk.readsRail n = false) →
        (n ∈ d.tk.ana.gov.warnRails ↔ n ∈ s.trunk.tk.ana.gov.warnRails)) ∧ d.objs = s.trunk.objs) ∧
  (∀ (s : State) (e : Env) (v : Word), s.built → s.runs .trunk → (s.unit .trunk).accepts e 0x4004 3 v.toNat →
    Answers (exec (.syncAddCmd e v) s) s .trunk e 0x02 0x4004 3 0 fun a =>
      a.abort = 0 ∧ a.dev.syncAt (s.trunk.get 0x4004_01) = s.trunk.syncAt (s.trunk.get 0x4004_01) + v ∧ a.dev.objs = s.trunk.objs)

/-- ARBITER_WINDOW at its boundary, once in a tick, FleetTime running: settings that waited have taken effect, and each
credit is the carried part, at most CarryMax, plus Quota, for the uplink and for a memory port. DECISION of a free
uplink with a winner: the winner's head is on the line, its credit is charged its length and its queue is one
shorter; unforced, it has credit if any candidate has. DECISION of a memory port with an access waiting: one
source's head access is made, charged and counted. PREEMPTION where the transfer being sent may be cut, between link
frames: every transfer of it is in its queue again with one more cut, and a source that preempts is sent. (R312,
R313, R314, R318, R319, R320, R323, R324) -/
def Obligations.ArbitersShareByCreditAndWait : Prop :=
  (∀ (s : State) (l : LeafId), s.built → s.runs (.leaf l) → (s.dev (.leaf l)).time.tick % max 1 ((s.dev (.leaf l)).get 0x2900_01) = 0 →
    (s.dev (.leaf l)).arb.lastWin ≠ some (s.dev (.leaf l)).time.tick → (s.dev (.leaf l)).time.dead = false → (s.dev (.leaf l)).arb.credit.length = 6 →
    Yields (exec (.arbiterWindow (.uplink l)) s) s (.leaf l) fun d =>
      d.arb.lastWin = some (s.dev (.leaf l)).time.tick ∧ (∀ x ∈ d.arb.waiting, isUplink x.1 = false) ∧
      (∀ k < 6, d.credit k = max (-2147483648)
        (min ((s.dev (.leaf l)).credit k) (d.get (key (0x2901 + k) 2) : Int) + (d.get (key (0x2901 + k) 1) : Int))) ∧
      d.arb.queues = (s.dev (.leaf l)).arb.queues ∧ ∀ k, k ∉ (s.dev (.leaf l)).arb.waiting.map (·.1) → d.get k = (s.dev (.leaf l)).get k) ∧
  (∀ (s : State) (l : LeafId) (v : Verdict) (x : Xfer) (rest : List Xfer), s.built → s.runs (.leaf l) →
    (s.dev (.leaf l)).arb.sending = none → (s.dev (.leaf l)).pfActive = false → (s.dev (.leaf l)).arb.queues.length = 6 → (s.dev (.leaf l)).arb.credit.length = 6 →
    (s.unit (.leaf l)).offer.winner false = some v → (s.unit (.leaf l)).offer.queue v.src = x :: rest →
    Yields (exec (.decision (.uplink l)) s) s (.leaf l) fun d =>
      (∃ y, d.arb.sending = some (v.src, y) ∧ (y = true ↔ (s.dev (.leaf l)).credit v.src ≤ 0)) ∧ d.arb.line = (s.dev (.leaf l)).arb.line ++ [x] ∧
      (d.queue v.src).length = rest.length ∧ d.credit v.src = max (-2147483648) ((s.dev (.leaf l)).credit v.src - x.bytes.length) ∧
      (∀ k, k ≠ v.src → d.credit k = (s.dev (.leaf l)).credit k) ∧
      (v.forced = false → (∃ k < 6, (s.unit (.leaf l)).offer.queue k ≠ [] ∧ 0 < (s.dev (.leaf l)).credit k) → 0 < (s.dev (.leaf l)).credit v.src)) ∧
  (∀ (s : State) (l : LeafId) (sent src : Nat) (y : Bool), s.built → s.runs (.leaf l) → (s.dev (.leaf l)).stem.sending = none →
    (s.dev (.leaf l)).pfActive = false → (s.dev (.leaf l)).arb.queues.length = 6 → src < 6 → (s.dev (.leaf l)).arb.sending = some (src, y) → (s.unit (.leaf l)).offer.preemptible = true →
    Yields (exec (.preemption l sent) s) s (.leaf l) fun d =>
      (∃ p z, d.arb.sending = some (p, z) ∧ p ≠ src ∧ (s.dev (.leaf l)).on (key (0x2901 + p) 4) = true) ∧
      ∀ x ∈ (s.dev (.leaf l)).arb.line, ∃ z ∈ d.queue src, z.bytes = x.bytes ∧ z.cuts = x.cuts + 1) ∧
  (∀ (s : State) (n : Nat), s.built → s.runs .trunk → n < 4 → n < s.trunk.tk.fab.memArb.length →
    s.trunk.time.tick % max 1 (s.trunk.get 0x2908_01) = 0 → (s.trunk.memAt n).lastWin ≠ some s.trunk.time.tick → s.trunk.time.dead = false →
    Yields (exec (.arbiterWindow (.mem n)) s) s .trunk fun d =>
      (d.memAt n).lastWin = some s.trunk.time.tick ∧ (d.memAt n).queues = (s.trunk.memAt n).queues ∧
      (∀ k c, (s.trunk.memAt n).credit[k]? = some c → (d.memAt n).credit[k]? =
        some (min c (d.get (key (0x2909 + k) 2) : Int) + (d.get (key (0x2909 + k) 1) : Int))) ∧
      ∀ m, m ≠ n → d.memAt m = s.trunk.memAt m) ∧
  (∀ (s : State) (n : Nat), s.built → s.runs .trunk → n < 4 → n < s.trunk.tk.fab.memArb.length →
    (∃ k < 8, ((s.trunk.memAt n).queues[k]?).getD [] ≠ []) → (s.trunk.memAt n).credit.length = 8 →
    Yields (exec (.decision (.mem n)) s) s .trunk fun d =>
      ∃ k < 8, ∃ x rest, (s.trunk.memAt n).queues[k]? = some (x :: rest) ∧
        (∃ q, (d.memAt n).queues[k]? = some q ∧ q.length = rest.length) ∧
        (d.memAt n).credit[k]? = some (max (-2147483648) ((s.trunk.memAt n).credit.getD k 0 - x.len)) ∧
        (∀ j, j ≠ k → (d.memAt n).queues[j]? = (s.trunk.memAt n).queues[j]? ∧ (d.memAt n).credit[j]? = (s.trunk.memAt n).credit[j]?) ∧
        (s.trunk.get (key (0x2909 + k) 4) + x.len < 2 ^ 64 → d.get (key (0x2909 + k) 4) = s.trunk.get (key (0x2909 + k) 4) + x.len))

/-- WFQ_TAG of the next untagged message of a class 1 to 7 at a port in WFQ: its tag is its start plus its length over
its weight, or the port falls back to DRR where that lies 2^30 or more ahead. WFQ_SEND of a free Stem port: where a
time message waits that class 0's shaper lets out, it leaves with the unit's fields and the shaper has paid; else
the head of the class that the scheduler chooses goes on the line. At a Pleach port with an eligible time message,
class 0 is chosen. DRR_FORCE: SchedMode reads 1 and every port it governs is forced. WFQ_RESTORE: SchedMode reads 0,
drained forced ports are in WFQ with V 0, others stay. WFQ_RETURN of a fallen-back port: WFQ once drained, else
nothing changes. SHAPER_WRITE: RANGE for too high a Rate, else the setting reads so and the buckets of the class are
0. PROFILE_WRITE: RANGE for Cir above Pir, else the setting reads so and every policer that uses the profile is
full. (R326, R327, R330, R332, R333, R334, R335, R340, R369) -/
def Obligations.SchedulersTagSendAndChangeModes : Prop :=
  (∀ (s : State) (g : EgressId) (c i : Nat) (m : EMsg), s.built → s.runs .trunk → EgressId.ok g = true → 1 ≤ c → c < 8 →
    s.trunk.tk.fab.egress.length = 262 → (s.trunk.egress g).state = .wfq → s.trunk.untagged g c = some i →
    ((s.trunk.egress g).queue c)[i]? = some m → m.tag = none →
    Yields (exec (.wfqTag g c) s) s .trunk fun d =>
      let e := s.trunk.egress g
      let last := e.lastF.getD c 0
      let start := if m.newly = true then later32 e.v last else last
      let inc := ((m.len + s.trunk.schedOverhead g) * 65536 + s.trunk.weight g c - 1) / s.trunk.weight g c
      if 2 ^ 30 < inc ∨ 2 ^ 30 < seqDiff 32 (start + inc) e.v then
        (d.egress g).state = .drrFallback ∧ (d.egress g).queues = e.queues
      else ((d.egress g).queue c)[i]? = some { m with tag := some ((start + inc) % 2 ^ 32) } ∧
        (d.egress g).state = .wfq ∧ d.objs = s.trunk.objs) ∧
  (∀ (s : State) (n : Nat) (m : EMsg) (rest : List EMsg), s.built → s.runs .trunk → n < 256 → s.trunk.tk.fab.egress.length = 262 →
    (s.trunk.egress (.stem n)).line = [] → (s.trunk.egress (.stem n)).queues[0]? = some (m :: rest) →
    s.trunk.eligible (.stem n) 0 = true →
    Yields (exec (.wfqSend (.stem n)) s) s .trunk fun d =>
      (s.unit .trunk).sendsTime d (.stem (.trunk n)) {} false ∧ (d.egress (.stem n)).line = [] ∧
      (d.egress (.stem n)).queues[0]? = some rest ∧
      (s.trunk.get (key 0x2970 1) ≠ 0 → (s.trunk.egress (.stem n)).buckets.length = 8 → (d.egress (.stem n)).buckets.getD 0 0 =
        (s.trunk.egress (.stem n)).buckets.getD 0 0 - 1000 * (36 + (s.trunk.get (key 0x2970 3) : Int)))) ∧
  (∀ (s : State) (n c : Nat) (m : EMsg) (rest : List EMsg), s.built → s.runs .trunk → n < 256 → s.trunk.tk.fab.egress.length = 262 →
    (s.trunk.egress (.stem n)).line = [] → (s.trunk.chooseStem n).1 = some c → 1 ≤ c →
    ((s.trunk.chooseStem n).2.egress (.stem n)).queues[c]? = some (m :: rest) →
    Yields (exec (.wfqSend (.stem n)) s) s .trunk fun d =>
      (d.egress (.stem n)).line = [m] ∧ (d.egress (.stem n)).queues[c]? = some rest ∧ d.out = [] ∧
      ∀ k, k ≠ c → (d.egress (.stem n)).queues[k]? = ((s.trunk.chooseStem n).2.egress (.stem n)).queues[k]?) ∧
  (∀ (s : State) (p : Nat), s.built → s.runs .trunk → p < 6 → s.trunk.tk.fab.egress.length = 262 →
    (s.trunk.egress (.pleach p)).chosen = none → (s.trunk.pleachHead p 0).isSome = true →
    Yields (exec (.wfqSend (.pleach p)) s) s .trunk fun d => (d.egress (.pleach p)).chosen = some 0) ∧
  (∀ (s : State) (e : Env) (p : Nat), s.built → s.runs .trunk → p ≤ 6 → (s.unit .trunk).accepts e (0x2920 + p) 1 1 →
    s.trunk.tk.fab.egress.length = 262 →
    Answers (exec (.drrForce e p) s) s .trunk e 0x02 (0x2920 + p) 1 0 fun a =>
      a.abort = 0 ∧ a.dev.get (key (0x2920 + p) 1) = 1 ∧
      (∀ g ∈ portsOf p, (a.dev.egress g).state = .drrForced ∧ (a.dev.egress g).queues = (s.trunk.egress g).queues) ∧
      ∀ g, EgressId.ok g = true → g ∉ portsOf p → a.dev.egress g = s.trunk.egress g) ∧
  (∀ (s : State) (e : Env) (p : Nat), s.built → s.runs .trunk → p ≤ 6 → (s.unit .trunk).accepts e (0x2920 + p) 1 0 →
    s.trunk.tk.fab.egress.length = 262 →
    Answers (exec (.wfqRestore e p) s) s .trunk e 0x02 (0x2920 + p) 1 0 fun a =>
      a.abort = 0 ∧ a.dev.get (key (0x2920 + p) 1) = 0 ∧
      ∀ g ∈ portsOf p, (s.trunk.egress g).state = .drrForced →
        if s.trunk.drained g = true then (a.dev.egress g).state = .wfq ∧ (a.dev.egress g).v = 0
        else a.dev.egress g = s.trunk.egress g) ∧
  (∀ (s : State) (g : EgressId), s.built → s.runs .trunk → EgressId.ok g = true → s.trunk.tk.fab.egress.length = 262 →
    (s.trunk.egress g).state = .drrFallback →
    Yields (exec (.wfqReturn g) s) s .trunk fun d =>
      if s.trunk.drained g = true then (d.egress g).state = .wfq ∧ (d.egress g).v = 0 ∧
        (d.egress g).lastF = List.replicate 8 0 ∧ (d.egress g).deficit = List.replicate 8 0
      else d = (s.unit .trunk)) ∧
  (∀ (s : State) (e : Env) (k sub v : Nat), s.built → s.runs .trunk → k ≤ 55 → 1 ≤ sub → sub ≤ 3 →
    (s.unit .trunk).accepts e (0x2940 + k) sub v → s.trunk.tk.fab.egress.length = 262 →
    Answers (exec (.shaperWrite e k sub v) s) s .trunk e 0x02 (0x2940 + k) sub 0 fun a =>
      if sub = 1 ∧ (if k < 48 then 200000 else 7500) < v then a.abort = 0x06 ∧ a.dev = (s.unit .trunk).heard e
      else a.abort = 0 ∧ a.dev.get (key (0x2940 + k) sub) = v ∧
        (∀ g ∈ shaperPorts k, (a.dev.egress g).buckets.getD (k % 8) 0 = 0) ∧
        ((s.unit .trunk).heard e).objectsKept a.dev [key (0x2940 + k) sub]) ∧
  (∀ (s : State) (e : Env) (i sub v : Nat), s.built → s.runs .trunk →
    (0x2981 ≤ i ∧ i ≤ 0x2984 ∧ 1 ≤ sub ∧ sub ≤ 4) ∨ (0x6400 ≤ i ∧ i ≤ 0x64FE ∧ sub = 1) →
    (s.unit .trunk).accepts e i sub v →
    Answers (exec (.profileWrite e i sub v) s) s .trunk e 0x02 i sub 0 fun a =>
      let cir := if sub = 1 then v else s.trunk.get (key i 1)
      let pir := if sub = 3 then v else s.trunk.get (key i 3)
      if i < 0x6400 ∧ pir < cir then a.abort = 0x06 ∧ a.dev = (s.unit .trunk).heard e
      else a.abort = 0 ∧ a.dev.get (key i sub) = v ∧ ((s.unit .trunk).heard e).objectsKept a.dev [key i sub] ∧
        ∀ n b, s.trunk.tk.fab.policed[n]? = some b →
          a.dev.tk.fab.policed[n]? = some (if a.dev.profile n = (if i < 0x6400 then i else a.dev.profile (i - 0x6400))
            then (1000 * (a.dev.get (key (a.dev.profile n) 2) : Int), 1000 * (a.dev.get (key (a.dev.profile n) 4) : Int))
            else b))

/-- At an end that exists. BLOCK_LOCK of an end in LOCK: DESKEW. ALIGN: the fourth pair in succession that agrees in
DESKEW makes it TRAIN; the second that disagrees, from DESKEW on, resets the lanes with reason 2. BRING_UP_TIMEOUT 2
ms after bring-up began: DOWN. HELLO_SEND in TRAIN, not within 1 µs of the last: one HELLO block is sent. HELLO in
TRAIN: a leaf that a trunk accepts takes the leaf ID's 20 bits as its address and is UP; a trunk enters UP on an
accepting leaf of its level or one below, answers a leaf that does not accept yet, and sets flag 0x3002 bit 1 for a
level that misfits. RESET_LINK and RESET_LANE: TRAIN at most, and DOWN, with reason 6 and flag bit 0, and the end
starts anew, but for what its lanes send. BLOCK_LOCK_LOST from DESKEW on: DOWN with reason 1. The writes of ResetCmd
do the same with reason 5. (R22, R345, R348, R349, R350, R351, R370, R371) -/
def Obligations.StemLinksComeUpAndReset : Prop :=
  (∀ (s : State) (e : StemId), s.built → s.runs (stemUnit e) → StemId.ok e = true → s.trunk.tk.fab.stems.length = 256 →
    (s.dev (stemUnit e)).stemState e = 1 →
    Yields (exec (.blockLock (.stem e)) s) s (stemUnit e) fun d =>
      d.stemState e = 2 ∧ (s.dev (stemUnit e)).objectsKept d [stemKey e 2]) ∧
  (∀ (s : State) (e : StemId) (a b : Nat), s.built → s.runs (stemUnit e) → StemId.ok e = true → s.trunk.tk.fab.stems.length = 256 →
    selfPath e = false → a % 65536 = b % 65536 → (s.dev (stemUnit e)).stemState e = 2 → ((s.dev (stemUnit e)).stemAt e).aligned = 3 →
    Yields (exec (.align e a b) s) s (stemUnit e) fun d =>
      d.stemState e = 3 ∧ (s.dev (stemUnit e)).objectsKept d [stemKey e 2]) ∧
  (∀ (s : State) (e : StemId) (a b : Nat), s.built → s.runs (stemUnit e) → StemId.ok e = true → s.trunk.tk.fab.stems.length = 256 →
    selfPath e = false → a % 65536 ≠ b % 65536 → 2 ≤ (s.dev (stemUnit e)).stemState e → ((s.dev (stemUnit e)).stemAt e).disagree = 1 →
    Yields (exec (.align e a b) s) s (stemUnit e) fun d =>
      d.stemState e = 0 ∧ d.get (stemKey e 5) = 2 ∧ (d.get 0x3002_00).testBit 0 = true) ∧
  (∀ (s : State) (e : StemId), s.built → s.runs (stemUnit e) → StemId.ok e = true → s.trunk.tk.fab.stems.length = 256 →
    ((s.dev (stemUnit e)).stemState e = 1 ∨ (s.dev (stemUnit e)).stemState e = 2) → ((s.dev (stemUnit e)).stemAt e).since + 2000000 ≤ (s.dev (stemUnit e)).now →
    Yields (exec (.bringUpTimeout (.stem e)) s) s (stemUnit e) fun d =>
      d.stemState e = 0 ∧ (s.dev (stemUnit e)).objectsKept d [stemKey e 2]) ∧
  (∀ (s : State) (e : StemId), s.built → s.runs (stemUnit e) → StemId.ok e = true → s.trunk.tk.fab.stems.length = 256 →
    (s.dev (stemUnit e)).stemState e = 3 → (∀ t, ((s.dev (stemUnit e)).stemAt e).lastHello = some t → t + 1000 ≤ (s.dev (stemUnit e)).now) →
    Yields (exec (.helloSend (.stem e)) s) s (stemUnit e) fun d =>
      (∃ bs, d.out = [.block e 0x55 bs]) ∧ (d.stemAt e).lastHello = some (s.dev (stemUnit e)).now ∧ d.objs = (s.dev (stemUnit e)).objs) ∧
  (∀ (s : State) (l : LeafId) (level id : Nat), s.built → s.runs (.leaf l) → (s.dev (.leaf l)).stemState (.leaf l) = 3 →
    (s.dev (.leaf l)).get 0x3001_06 + 1 < 2 ^ 32 →
    Yields (exec (.hello (.leaf l) 1 level true id) s) s (.leaf l) fun d =>
      d.stemState (.leaf l) = 4 ∧ d.get 0x1000_06 = id % 2 ^ 20 ∧
      d.get 0x3001_06 = (s.dev (.leaf l)).get 0x3001_06 + 1 ∧ d.stem.retry = [] ∧ d.stem.txSeq = 0 ∧ d.stem.rxSeq = 0) ∧
  (∀ (s : State) (n level id : Nat) (accept : Bool), s.built → s.runs .trunk → n < 256 → level < 256 →
    s.trunk.tk.fab.stems.length = 256 → s.trunk.stemState (.trunk n) = 3 →
    Yields (exec (.hello (.trunk n) 0 level accept id) s) s .trunk fun d =>
      let own := s.trunk.get 0x3000_01
      d.get (key (0x6500 + n) 3) = level ∧
      if level = own ∨ level + 1 = own then
        if accept = true then d.stemState (.trunk n) = 4 ∧ (d.stemAt (.trunk n)).txSeq = 0 ∧ (d.stemAt (.trunk n)).rxSeq = 0
        else d.stemState (.trunk n) = 3 ∧ (d.stemAt (.trunk n)).peerOk = true ∧ ∃ bs, d.out = [.block (.trunk n) 0x55 bs]
      else d.stemState (.trunk n) = 3 ∧ (d.stemAt (.trunk n)).peerOk = false ∧ (d.get 0x3002_00).testBit 1 = true) ∧
  (∀ (s : State) (e : StemId), s.built → s.runs (stemUnit e) → StemId.ok e = true → s.trunk.tk.fab.stems.length = 256 →
    Yields (exec (.resetLink e) s) s (stemUnit e) fun d =>
      d.stemState e = (if selfPath e = true ∧ (s.dev (stemUnit e)).stemState e ≠ 0 then 3 else min 3 ((s.dev (stemUnit e)).stemState e)) ∧ d.get (stemKey e 5) = 6 ∧
      (d.get 0x3002_00).testBit 0 = true ∧ d.stemAt e = { since := (s.dev (stemUnit e)).now, line := (d.stemAt e).line }) ∧
  (∀ (s : State) (e : StemId), s.built → s.runs (stemUnit e) → StemId.ok e = true → s.trunk.tk.fab.stems.length = 256 →
    Yields (exec (.resetLane e) s) s (stemUnit e) fun d =>
      d.stemState e = (if selfPath e = true ∧ (s.dev (stemUnit e)).stemState e ≠ 0 then 3 else 0) ∧ d.get (stemKey e 5) = 6 ∧
      (d.get 0x3002_00).testBit 0 = true ∧ d.stemAt e = { since := (s.dev (stemUnit e)).now, line := (d.stemAt e).line }) ∧
  (∀ (s : State) (e : StemId), s.built → s.runs (stemUnit e) → StemId.ok e = true → s.trunk.tk.fab.stems.length = 256 →
    selfPath e = false → 2 ≤ (s.dev (stemUnit e)).stemState e →
    Yields (exec (.blockLockLost e) s) s (stemUnit e) fun d =>
      d.stemState e = 0 ∧ d.get (stemKey e 5) = 1 ∧ (d.get 0x3002_00).testBit 0 = true ∧ d.stemAt e = { since := (s.dev (stemUnit e)).now, line := (d.stemAt e).line }) ∧
  (∀ (s : State) (e : StemId) (v : Env), s.built → s.runs (stemUnit e) → StemId.ok e = true → s.trunk.tk.fab.stems.length = 256 →
    (s.unit (stemUnit e)).accepts v (stemIndex e) 4 1 →
    Answers (exec (.resetCmdLink (.stem e) v) s) s (stemUnit e) v 0x02 (stemIndex e) 4 0 fun a =>
      a.abort = 0 ∧ a.dev.stemState e = (if selfPath e = true ∧ (s.dev (stemUnit e)).stemState e ≠ 0 then 3 else min 3 ((s.dev (stemUnit e)).stemState e)) ∧
      a.dev.get (stemKey e 5) = 5 ∧ a.dev.stemAt e = { since := (s.dev (stemUnit e)).now, line := (a.dev.stemAt e).line }) ∧
  (∀ (s : State) (e : StemId) (v : Env), s.built → s.runs (stemUnit e) → StemId.ok e = true → s.trunk.tk.fab.stems.length = 256 →
    (s.unit (stemUnit e)).accepts v (stemIndex e) 4 2 →
    Answers (exec (.resetCmdLane (.stem e) v) s) s (stemUnit e) v 0x02 (stemIndex e) 4 0 fun a =>
      a.abort = 0 ∧ a.dev.stemState e = (if selfPath e = true ∧ (s.dev (stemUnit e)).stemState e ≠ 0 then 3 else 0) ∧
      a.dev.get (stemKey e 5) = 5 ∧ a.dev.stemAt e = { since := (s.dev (stemUnit e)).now, line := (a.dev.stemAt e).line })

/-- At an end that exists, UP and with no frame in flight. LINK_FRAME_START: a time message that waits at a trunk goes
first; the first frame of a replay goes out again, unchanged; at a leaf with a transfer awarded that its peer's
credit and the retry buffer cover, a new frame goes out with the Seq of the sender and the class and first bytes of
the transfer, and is in flight. LINK_FRAME at a leaf: the frame of the expected Seq with a whole message of a class
that leaves receive is accepted and counted and the message delivered; a frame whose CRC fails is counted and
answered by nothing but acknowledgement blocks, and the expected Seq stays; an unlisted control block in it ends it
so and counts as a block error. ABORT changes nothing more. LINK_ACK of an outstanding Seq frees the frames up to
it. LINK_NAK of one: those after it are to be sent again, and a replay is counted. CREDIT: the Limits are those of
the block. RETRY_TIMEOUT: every outstanding frame is to be sent again, or at RetryLimit the link resets with reason
3. TRIGGER at an ARMED trace of a leaf with sources and FleetTriggerEnable, FleetTime running: TRIGGERED with cause
3; without one of these nothing changes. (R199, R204, R352, R354, R355, R358, R359, R360, R361, R362, R363, R367) -/
def Obligations.StemLinksCarryAcknowledgedFrames : Prop :=
  (∀ (s : State) (e : StemId) (f : LFrame) (rest : List LFrame), s.built → s.runs (stemUnit e) → StemId.ok e = true → s.trunk.tk.fab.stems.length = 256 →
    (s.dev (stemUnit e)).stemState e = 4 → ((s.dev (stemUnit e)).stemAt e).sending = none → ((s.dev (stemUnit e)).stemAt e).replay = f :: rest →
    Yields (exec (.linkFrameStart e) s) s (stemUnit e) fun d =>
      d.out = ((s.unit (stemUnit e)).timeFirst e).out ++ [.linkFrame e f (linkCrc f.head f.data)] ∧ (d.stemAt e).replay = rest ∧
      (d.stemAt e).sending = some (f, false) ∧ (d.stemAt e).retry = ((s.dev (stemUnit e)).stemAt e).retry ∧ d.objs = (s.dev (stemUnit e)).objs) ∧
  (∀ (s : State) (l : LeafId) (src : Nat) (y : Bool) (x : Xfer) (more : List Xfer), s.built → s.runs (.leaf l) →
    (s.dev (.leaf l)).stemState (.leaf l) = 4 → (s.dev (.leaf l)).stem.sending = none → (s.dev (.leaf l)).stem.replay = [] → (s.dev (.leaf l)).arb.sending = some (src, y) →
    (s.dev (.leaf l)).arb.line = x :: more → (s.dev (.leaf l)).arb.off = 0 → 1 ≤ x.bytes.length →
    (s.dev (.leaf l)).stem.mayStart x.cls (min 1024 (s.dev (.leaf l)).arb.rest) = true →
    Yields (exec (.linkFrameStart (.leaf l)) s) s (.leaf l) fun d =>
      ∃ f, d.stem.sending = some (f, true) ∧ .linkFrame (.leaf l) f (linkCrc f.head f.data) ∈ d.out ∧
        f.head.seq = (s.dev (.leaf l)).stem.txSeq ∧ f.head.cls = x.cls ∧ f.head.first = true ∧ f.head.unseq = false ∧
        f.head.length = f.data.length ∧ 1 ≤ f.data.length ∧ f.data.length ≤ 1024 ∧
        f.data.take x.bytes.length = x.bytes.take 1024) ∧
  (∀ (s : State) (l : LeafId) (h : LinkStart) (data : Bytes) (crc : BitVec 32) (between : List RxBlock), s.built → s.runs (.leaf l) →
    (s.dev (.leaf l)).stemState (.leaf l) = 4 → data.length = h.length → 1 ≤ h.length → h.length ≤ 1024 → linkCrc h data = crc.toNat →
    (∀ b ∈ between, b.control = true ∧ natAt b.bytes 0 1 = 0x1E) → h.unseq = false → h.seq = (s.dev (.leaf l)).stem.rxSeq → h.first = true → (s.dev (.leaf l)).openOf (.leaf l) h.cls = none →
    receives (.leaf l) h.cls = true → msgLen h.cls data = .bytes data.length → (s.dev (.leaf l)).get 0x3001_09 + 1 < 2 ^ 64 →
    Yields (exec (.linkFrame (.leaf l) h data ⟨crc, between⟩) s) s (.leaf l) fun d =>
      .fromStem 0 h.cls 0 data ∈ d.out ∧ d.stem.rxSeq = ((s.dev (.leaf l)).stem.rxSeq + 1) % 256 ∧
      d.get 0x3001_09 = (s.dev (.leaf l)).get 0x3001_09 + 1 ∧ d.openOf (.leaf l) h.cls = none) ∧
  (∀ (s : State) (e : StemId) (h : LinkStart) (data : Bytes) (crc : BitVec 32) (between : List RxBlock), s.built → s.runs (stemUnit e) → StemId.ok e = true → s.trunk.tk.fab.stems.length = 256 →
    (s.dev (stemUnit e)).stemState e = 4 → linkCrc h data ≠ crc.toNat → (∀ b ∈ between, b.control = true ∧ natAt b.bytes 0 1 = 0x1E) →
    (s.dev (stemUnit e)).get (stemKey e 0x0A) + 1 < 2 ^ 32 →
    Yields (exec (.linkFrame e h data ⟨crc, between⟩) s) s (stemUnit e) fun d =>
      d.get (stemKey e 0x0A) = (s.dev (stemUnit e)).get (stemKey e 0x0A) + 1 ∧ (d.stemAt e).rxSeq = ((s.dev (stemUnit e)).stemAt e).rxSeq ∧
      (d.stemAt e).opens = ((s.dev (stemUnit e)).stemAt e).opens ∧ ∀ o ∈ d.out, ∃ bs, o = .block e 0x2D bs) ∧
  (∀ (s : State) (e : StemId) (h : LinkStart) (data : Bytes) (crc : BitVec 32) (b : RxBlock), s.built → s.runs (stemUnit e) → StemId.ok e = true → s.trunk.tk.fab.stems.length = 256 →
    (s.dev (stemUnit e)).stemState e = 4 → b.control = true → b.outside = false → natAt b.bytes 0 1 ∉ [0x1E, 0x2D, 0x33, 0x4B, 0x55, 0x66, 0x78, 0x87, 0x99] →
    (s.dev (stemUnit e)).get (stemKey e 0x0A) + 1 < 2 ^ 32 → (s.dev (stemUnit e)).get (stemKey e 0x0D) + 1 < 2 ^ 32 →
    Yields (exec (.linkFrame e h data ⟨crc, [b]⟩) s) s (stemUnit e) fun d =>
      d.get (stemKey e 0x0A) = (s.dev (stemUnit e)).get (stemKey e 0x0A) + 1 ∧ d.get (stemKey e 0x0D) = (s.dev (stemUnit e)).get (stemKey e 0x0D) + 1 ∧
      (d.stemAt e).rxSeq = ((s.dev (stemUnit e)).stemAt e).rxSeq ∧ (d.stemAt e).opens = ((s.dev (stemUnit e)).stemAt e).opens) ∧
  (∀ (s : State) (e : StemId), s.runs (stemUnit e) → Yields (exec (.abort e) s) s (stemUnit e) fun d => d = (s.unit (stemUnit e))) ∧
  (∀ (s : State) (e : StemId) (q i : Nat), s.built → s.runs (stemUnit e) → StemId.ok e = true → s.trunk.tk.fab.stems.length = 256 →
    (s.dev (stemUnit e)).stemState e = 4 → ((s.dev (stemUnit e)).stemAt e).sending = none → ((s.dev (stemUnit e)).stemAt e).retry.findIdx? (·.head.seq = q) = some i →
    Yields (exec (.linkAck e q) s) s (stemUnit e) fun d =>
      (d.stemAt e).retry = ((s.dev (stemUnit e)).stemAt e).retry.drop (i + 1) ∧ (d.stemAt e).replays = 0 ∧ (d.stemAt e).lastAdv = (s.dev (stemUnit e)).now ∧
      d.objs = (s.dev (stemUnit e)).objs ∧ d.out = []) ∧
  (∀ (s : State) (e : StemId) (q i : Nat), s.built → s.runs (stemUnit e) → StemId.ok e = true → s.trunk.tk.fab.stems.length = 256 →
    (s.dev (stemUnit e)).stemState e = 4 → ((s.dev (stemUnit e)).stemAt e).sending = none → ((s.dev (stemUnit e)).stemAt e).retry.findIdx? (·.head.seq = q) = some i →
    ((s.dev (stemUnit e)).stemAt e).retry.drop (i + 1) ≠ [] → 1 ≤ (s.dev (stemUnit e)).get 0x3000_03 → (s.dev (stemUnit e)).get (stemKey e 0x0B) + 1 < 2 ^ 32 →
    Yields (exec (.linkNak e q) s) s (stemUnit e) fun d =>
      (d.stemAt e).retry = ((s.dev (stemUnit e)).stemAt e).retry.drop (i + 1) ∧ (d.stemAt e).replay = ((s.dev (stemUnit e)).stemAt e).retry.drop (i + 1) ∧
      (d.stemAt e).replays = 1 ∧ d.get (stemKey e 0x0B) = (s.dev (stemUnit e)).get (stemKey e 0x0B) + 1) ∧
  (∀ (s : State) (e : StemId) (a b : Nat), s.built → s.runs (stemUnit e) → StemId.ok e = true → s.trunk.tk.fab.stems.length = 256 →
    (s.dev (stemUnit e)).stemState e = 4 →
    Yields (exec (.credit e a b) s) s (stemUnit e) fun d =>
      (d.stemAt e).limit = [some (a % 2 ^ 24), some (b % 2 ^ 24)] ∧ d.objs = (s.dev (stemUnit e)).objs ∧ d.out = []) ∧
  (∀ (s : State) (e : StemId), s.built → s.runs (stemUnit e) → StemId.ok e = true → s.trunk.tk.fab.stems.length = 256 →
    (s.dev (stemUnit e)).stemState e = 4 → ((s.dev (stemUnit e)).stemAt e).retry ≠ [] → ((s.dev (stemUnit e)).stemAt e).lastAdv + (s.dev (stemUnit e)).get 0x3000_02 ≤ (s.dev (stemUnit e)).now →
    (s.dev (stemUnit e)).get (stemKey e 0x0B) + 1 < 2 ^ 32 →
    Yields (exec (.retryTimeout e) s) s (stemUnit e) fun d =>
      if ((s.dev (stemUnit e)).stemAt e).replays < (s.dev (stemUnit e)).get 0x3000_03 then (d.stemAt e).replay = ((s.dev (stemUnit e)).stemAt e).retry ∧
        (d.stemAt e).replays = ((s.dev (stemUnit e)).stemAt e).replays + 1 ∧ d.get (stemKey e 0x0B) = (s.dev (stemUnit e)).get (stemKey e 0x0B) + 1
      else d.stemState e = 3 ∧ d.get (stemKey e 5) = 3 ∧ (d.get 0x3002_00).testBit 2 = true ∧ (d.stemAt e).retry = []) ∧
  (∀ (s : State) (l : LeafId) (id t : Nat), s.built → s.runs (.leaf l) → (s.dev (.leaf l)).traceState = 1 →
    (s.dev (.leaf l)).time.dead = false → (s.dev (.leaf l)).cfg.traceSources ≠ 0 → (s.dev (.leaf l)).on 0x2500_05 = true →
    Yields (exec (.trigger l id t) s) s (.leaf l) fun d =>
      d.traceState = 2 ∧ d.get 0x2501_04 = 3 ∧ (d.get 0x2503_00).testBit 2 = true) ∧
  (∀ (s : State) (l : LeafId) (id t : Nat), s.runs (.leaf l) →
    (s.dev (.leaf l)).cfg.traceSources = 0 ∨ (s.dev (.leaf l)).on 0x2500_05 = false ∨ (s.dev (.leaf l)).time.dead = true →
    Yields (exec (.trigger l id t) s) s (.leaf l) fun d => d = s.unit (.leaf l))

/-- At a port of the trunk. ALIGN_CODEWORD: in LOCK, three ALIGN symbols in succession on every lane make it DESKEW; in
DESKEW the fourth whose counts agree makes it TRAIN; from DESKEW on, a second miss on a locked lane resets the lanes
with reason 1. BLOCK_LOCK of a port in LOCK: DESKEW. BRING_UP_TIMEOUT 2 ms after bring-up began: DOWN. HELLO_SEND in
TRAIN, not within 1 µs of the last: a HELLO flit with this trunk's ID and port is sent. PLEACH_HELLO that fits: the
port accepts, and is UP once ACCEPT is sent and received, at the lower of the levels; one of a level that misfits
sets flag 1. WIRING_TIMEOUT: reason 8. RESET_FLIT: TRAIN at most, or DOWN, with reason 6 and flag 0. OPTICS_FAULT:
the status, flag 7, DOWN and held with reason 7. OPTICS_READY: status 1 and not held. FLIT_RETRY_TIMEOUT: every
outstanding flit is to be sent again, or at RetryLimit a reset with reason 3 and flag 2. The writes of ResetCmd:
reason 5. (R381, R386, R387, R390, R391, R418, R419, R420, R8) -/
def Obligations.PleachPortsComeUpAndReset : Prop :=
  (∀ (s : State) (p : Nat) (fec : Fec) (lanes : BitVec 8) (agree : Bool), s.built → s.runs .trunk → p < 6 → s.trunk.tk.fab.ports.length = 6 →
    s.trunk.portState p = 1 → (∀ k < 8, lanes.getLsbD k = true ∧ 2 ≤ (s.trunk.port p).laneHits.getD k 0) →
    Yields (exec (.alignCodeword p fec ⟨lanes, agree⟩) s) s .trunk fun d =>
      d.portState p = 2 ∧ (d.port p).locked = true ∧ s.trunk.objectsKept d [portKey p 2, portKey p 0x0C, portKey p 0x0D]) ∧
  (∀ (s : State) (p : Nat) (fec : Fec) (lanes : BitVec 8), s.built → s.runs .trunk → p < 6 → s.trunk.tk.fab.ports.length = 6 →
    s.trunk.portState p = 2 → (∀ k < 8, lanes.getLsbD k = true) → (s.trunk.port p).locked = true →
    (s.trunk.port p).laneHits.length = 8 → (s.trunk.port p).agree = 3 →
    Yields (exec (.alignCodeword p fec ⟨lanes, true⟩) s) s .trunk fun d =>
      d.portState p = 3 ∧ s.trunk.objectsKept d [portKey p 2, portKey p 0x0C, portKey p 0x0D]) ∧
  (∀ (s : State) (p k : Nat) (fec : Fec) (lanes : BitVec 8) (agree : Bool), s.built → s.runs .trunk → p < 6 → s.trunk.tk.fab.ports.length = 6 →
    2 ≤ s.trunk.portState p → k < 8 → lanes.getLsbD k = false → 3 ≤ (s.trunk.port p).laneHits.getD k 0 →
    1 ≤ (s.trunk.port p).laneMiss.getD k 0 →
    Yields (exec (.alignCodeword p fec ⟨lanes, agree⟩) s) s .trunk fun d =>
      d.portState p = 0 ∧ d.get (portKey p 6) = 1 ∧ (d.get 0x3108_00).testBit 0 = true) ∧
  (∀ (s : State) (p : Nat), s.built → s.runs .trunk → p < 6 → s.trunk.tk.fab.ports.length = 6 →
    s.trunk.portState p = 1 →
    Yields (exec (.blockLock (.pleach p)) s) s .trunk fun d =>
      d.portState p = 2 ∧ (d.port p).locked = true ∧ s.trunk.objectsKept d [portKey p 2]) ∧
  (∀ (s : State) (p : Nat), s.built → s.runs .trunk → p < 6 → s.trunk.tk.fab.ports.length = 6 →
    (s.trunk.portState p = 1 ∨ s.trunk.portState p = 2) → (s.trunk.port p).since + 2000000 ≤ s.trunk.now →
    Yields (exec (.bringUpTimeout (.pleach p)) s) s .trunk fun d =>
      d.portState p = 0 ∧ s.trunk.objectsKept d [portKey p 2]) ∧
  (∀ (s : State) (p : Nat), s.built → s.runs .trunk → p < 6 → s.trunk.tk.fab.ports.length = 6 →
    s.trunk.portState p = 3 → (∀ t, (s.trunk.port p).lastHello = some t → t + 1000 ≤ s.trunk.now) →
    Yields (exec (.helloSend (.pleach p)) s) s .trunk fun d =>
      (∃ f, .flit p f ∈ d.out ∧ f.kind = 4 ∧ f.fill = 8 ∧ ∃ h : PleachHello, f.body = h.bytes ∧ h.trunkId = s.trunk.get 0x3100_01 ∧ h.port = p ∧ h.level = s.trunk.get 0x3100_05 ∧
        h.accept = (s.trunk.port p).helloOk) ∧
      d.portState p = (if ((s.trunk.port p).sentAccept || (s.trunk.port p).helloOk) && (s.trunk.port p).gotAccept then 4 else 3)) ∧
  (∀ (s : State) (p : Nat) (fec : Fec) (data : Bytes), s.built → s.runs .trunk → p < 6 → s.trunk.tk.fab.ports.length = 6 →
    s.trunk.portState p = 3 → (readFlit data).kind = 4 → (readFlit data).crcOk = true → (readFlit data).fill ≤ 624 → fec ≠ .uncorrectable →
    let h := readHello (readFlit data).body
    h.level ≤ s.trunk.get 0x3100_05 + 1 → s.trunk.get 0x3100_05 ≤ h.level + 1 →
    h.sizeX = s.trunk.torusSize 0 → h.sizeY = s.trunk.torusSize 1 → h.sizeZ = s.trunk.torusSize 2 → h.trunkId = s.trunk.neighbour p →
    h.port = opposite p →
    Yields (exec (.pleachHello p ⟨fec, data⟩) s) s .trunk fun d =>
      d.get (portKey p 3) = h.trunkId ∧
      if (s.trunk.port p).sentAccept && h.accept then d.portState p = 4 ∧ (d.port p).txSeq = 0 ∧ (d.port p).rxSeq = 0 ∧
        (d.port p).level = min (s.trunk.get 0x3100_05) h.level
      else d.portState p = 3 ∧ (d.port p).helloOk = true ∧ (d.port p).gotAccept = h.accept) ∧
  (∀ (s : State) (p : Nat) (fec : Fec) (data : Bytes), s.built → s.runs .trunk → p < 6 → s.trunk.tk.fab.ports.length = 6 →
    s.trunk.portState p = 3 → (readFlit data).kind = 4 → (readFlit data).crcOk = true → (readFlit data).fill ≤ 624 → fec ≠ .uncorrectable →
    let h := readHello (readFlit data).body
    (s.trunk.get 0x3100_05 + 1 < h.level ∨ h.level + 1 < s.trunk.get 0x3100_05) →
    Yields (exec (.pleachHello p ⟨fec, data⟩) s) s .trunk fun d =>
      d.portState p = 3 ∧ (d.port p).helloOk = false ∧ (d.get 0x3108_00).testBit 1 = true) ∧
  (∀ (s : State) (p t : Nat), s.built → s.runs .trunk → p < 6 → s.trunk.tk.fab.ports.length = 6 →
    s.trunk.portState p = 3 → (s.trunk.port p).badSince = some t → t + 2000000 ≤ s.trunk.now →
    Yields (exec (.wiringTimeout p) s) s .trunk fun d =>
      d.portState p = 0 ∧ d.get (portKey p 6) = 8 ∧ (d.get 0x3108_00).testBit 0 = true) ∧
  (∀ (s : State) (p : Nat) (fec : Fec) (data : Bytes), s.built → s.runs .trunk → p < 6 → s.trunk.tk.fab.ports.length = 6 →
    (readFlit data).kind = 5 → (readFlit data).crcOk = true → (readFlit data).fill ≤ 624 → fec ≠ .uncorrectable →
    Yields (exec (.resetFlit p fec data) s) s .trunk fun d =>
      d.portState p = (if natAt (readFlit data).body 0 1 = 2 then 0 else min 3 (s.trunk.portState p)) ∧ d.get (portKey p 6) = 6 ∧
      (d.get 0x3108_00).testBit 0 = true ∧ (d.port p).replay = [] ∧ (d.port p).since = s.trunk.now) ∧
  (∀ (s : State) (p : Nat) (st : BitVec 32), s.built → s.runs .trunk → p < 6 → s.trunk.tk.fab.ports.length = 6 →
    st.toNat &&& 0xFF06 ≠ 0 → Yields (exec (.opticsFault p st) s) s .trunk fun d =>
      d.portState p = 0 ∧ d.get (portKey p 6) = 7 ∧ d.get (key (0x3110 + p) 2) = st.toNat &&& 0xFF07 ∧
      (d.port p).opticsHold = true ∧ (d.get 0x3108_00).testBit 7 = true) ∧
  (∀ (s : State) (p : Nat), s.built → s.runs .trunk → p < 6 → s.trunk.tk.fab.ports.length = 6 →
    Yields (exec (.opticsReady p) s) s .trunk fun d =>
      d.get (key (0x3110 + p) 2) = 1 ∧ (d.port p).opticsHold = false ∧ s.trunk.objectsKept d [key (0x3110 + p) 2]) ∧
  (∀ (s : State) (p : Nat), s.built → s.runs .trunk → p < 6 → s.trunk.tk.fab.ports.length = 6 →
    s.trunk.portState p = 4 → (s.trunk.port p).replay ≠ [] → (s.trunk.port p).lastAdv + s.trunk.get 0x3100_06 ≤ s.trunk.now →
    s.trunk.get (portKey p 0x0E) + 1 < 2 ^ 32 →
    Yields (exec (.flitRetryTimeout p) s) s .trunk fun d =>
      if (s.trunk.port p).replays < s.trunk.get 0x3100_07 then (d.port p).resend = (s.trunk.port p).replay ∧
        (d.port p).replays = (s.trunk.port p).replays + 1 ∧ d.get (portKey p 0x0E) = s.trunk.get (portKey p 0x0E) + 1
      else d.portState p = 3 ∧ d.get (portKey p 6) = 3 ∧ (d.get 0x3108_00).testBit 2 = true ∧ (d.port p).replay = []) ∧
  (∀ (s : State) (p : Nat) (v : Env), s.built → s.runs .trunk → p < 6 → s.trunk.tk.fab.ports.length = 6 →
    (s.unit .trunk).accepts v (0x3101 + p) 5 1 →
    Answers (exec (.resetCmdLink (.pleach p) v) s) s .trunk v 0x02 (0x3101 + p) 5 0 fun a =>
      a.abort = 0 ∧ a.dev.portState p = min 3 (s.trunk.portState p) ∧ a.dev.get (portKey p 6) = 5) ∧
  (∀ (s : State) (p : Nat) (v : Env), s.built → s.runs .trunk → p < 6 → s.trunk.tk.fab.ports.length = 6 →
    (s.unit .trunk).accepts v (0x3101 + p) 5 2 →
    Answers (exec (.resetCmdLane (.pleach p) v) s) s .trunk v 0x02 (0x3101 + p) 5 0 fun a =>
      a.abort = 0 ∧ a.dev.portState p = 0 ∧ a.dev.get (portKey p 6) = 5)

/-- At an UP port. FLIT: an idle flit is counted and its credit update taken; a DATA flit of the expected Seq in the
middle of a message lengthens it and moves the Seq on; an uncorrectable codeword or a failed Crc is counted, asks
for a NAK and moves nothing. ABORT_FLIT of the expected Seq abandons the open message of its channel. FLIT_SEND: a
time message that class 0's shaper lets out goes ahead of a replay, a replay ahead of messages; a chosen class with
a ready channel sends a DATA flit with the next Seq; in the 4,096th slot an ALIGN codeword goes out, in every state
of the port. MESSAGE_HEADER of a message injected here, Partition 0: for this trunk it awaits delivery, for a
reachable one it joins the egress queue of its class, outside the torus it is counted unroutable; from a port whose
fence bars its partition it is logged as a violation. MESSAGE_DELIVER: a message of an unknown kind or with a bad
trailer is counted and dropped, another is counted and handed on. FENCE_NOTICE is kept and handed on. FENCE_APPLY at
a boundary: the fence settings that waited have taken effect. (R381, R382, R389, R394, R395, R399, R407, R408, R411,
R413, R414, R415) -/
def Obligations.PleachCarriesFlitsAndRoutesMessages : Prop :=
  (∀ (s : State) (p n : Nat) (data : Bytes), s.built → s.runs .trunk → p < 6 → s.trunk.tk.fab.ports.length = 6 →
    let f := readFlit data
    s.trunk.portState p = 4 → f.kind = 2 → f.crcOk = true → f.fill ≤ 624 → f.ackValid = false →
    (s.trunk.port p).chans.length = 16 → s.trunk.get (portKey p 0x0A) + 1 < 2 ^ 64 → s.trunk.get (portKey p 0x0C) + n < 2 ^ 64 →
    Yields (exec (.flit p (.corrected n) data) s) s .trunk fun d =>
      d.get (portKey p 0x0A) = s.trunk.get (portKey p 0x0A) + 1 ∧ d.get (portKey p 0x0C) = s.trunk.get (portKey p 0x0C) + n ∧
      (d.port p).rxSeq = (s.trunk.port p).rxSeq ∧
      (f.creditValid = true → (d.pchan p (f.creditChannel % 16)).limit = some (f.creditLimit % 2 ^ 24))) ∧
  (∀ (s : State) (p n : Nat) (data : Bytes) (r : PRx), s.built → s.runs .trunk → p < 6 → s.trunk.tk.fab.ports.length = 6 →
    let f := readFlit data
    s.trunk.portState p = 4 → f.kind = 1 → f.crcOk = true → 1 ≤ f.fill → f.fill ≤ 624 → f.ackValid = false →
    (s.trunk.port p).chans.length = 16 → f.seq = (s.trunk.port p).rxSeq → (s.trunk.pchan p (f.channel % 16)).rx = some r →
    r.head.length = 16 → r.got + f.fill < natAt r.head 12 4 + 20 →
    Yields (exec (.flit p (.corrected n) data) s) s .trunk fun d =>
      (d.port p).rxSeq = ((s.trunk.port p).rxSeq + 1) % 4096 ∧
      (d.pchan p (f.channel % 16)).rx = some { r with got := r.got + f.fill }) ∧
  (∀ (s : State) (p : Nat) (data : Bytes), s.built → s.runs .trunk → p < 6 → s.trunk.tk.fab.ports.length = 6 →
    s.trunk.portState p = 4 → s.trunk.get (portKey p 0x0D) + 1 < 2 ^ 32 →
    Yields (exec (.flit p .uncorrectable data) s) s .trunk fun d =>
      d.get (portKey p 0x0D) = s.trunk.get (portKey p 0x0D) + 1 ∧ (d.port p).naked = true ∧
      (d.port p).rxSeq = (s.trunk.port p).rxSeq ∧ (d.port p).chans = (s.trunk.port p).chans ∧ s.trunk.objectsKept d [portKey p 0x0D]) ∧
  (∀ (s : State) (p n : Nat) (data : Bytes), s.built → s.runs .trunk → p < 6 → s.trunk.tk.fab.ports.length = 6 →
    s.trunk.portState p = 4 → (readFlit data).crcOk = false → s.trunk.get (portKey p 0x0B) + 1 < 2 ^ 32 →
    Yields (exec (.flit p (.corrected n) data) s) s .trunk fun d =>
      d.get (portKey p 0x0B) = s.trunk.get (portKey p 0x0B) + 1 ∧ (d.port p).naked = true ∧
      (d.port p).rxSeq = (s.trunk.port p).rxSeq ∧ (d.port p).chans = (s.trunk.port p).chans) ∧
  (∀ (s : State) (p n : Nat) (data : Bytes) (r : PRx), s.built → s.runs .trunk → p < 6 → s.trunk.tk.fab.ports.length = 6 →
    let f := readFlit data
    s.trunk.portState p = 4 → f.kind = 6 → f.crcOk = true → f.fill ≤ 624 → f.ackValid = false → (s.trunk.port p).chans.length = 16 →
    f.seq = (s.trunk.port p).rxSeq → (s.trunk.pchan p (f.channel % 16)).rx = some r → s.trunk.get 0x310A_07 + 1 < 2 ^ 32 →
    Yields (exec (.abortFlit p (.corrected n) data) s) s .trunk fun d =>
      (d.pchan p (f.channel % 16)).rx = none ∧ d.get 0x310A_07 = s.trunk.get 0x310A_07 + 1 ∧
      (d.port p).rxSeq = ((s.trunk.port p).rxSeq + 1) % 4096) ∧
  (∀ (s : State) (p : Nat), s.built → s.runs .trunk → p < 6 → s.trunk.tk.fab.ports.length = 6 →
    s.trunk.portState p = 4 → ((s.trunk.port p).words + 1) % 4096 ≠ 0 → s.trunk.timeWaits (.pleach p) = true →
    Yields (exec (.flitSend p) s) s .trunk fun d =>
      (s.unit .trunk).sendsTime d (.pleach p) {} false ∧ (d.port p).resend = (s.trunk.port p).resend) ∧
  (∀ (s : State) (p : Nat) (f : Flit) (rest : List Flit), s.built → s.runs .trunk → p < 6 → s.trunk.tk.fab.ports.length = 6 →
    s.trunk.portState p = 4 → ((s.trunk.port p).words + 1) % 4096 ≠ 0 → s.trunk.timeWaits (.pleach p) = false → (s.trunk.port p).resend = f :: rest →
    Yields (exec (.flitSend p) s) s .trunk fun d =>
      d.out = [.flit p f] ∧ (d.port p).resend = rest ∧ d.objs = s.trunk.objs) ∧
  (∀ (s : State) (p c ch : Nat), s.built → s.runs .trunk → p < 6 → s.trunk.tk.fab.ports.length = 6 →
    s.trunk.portState p = 4 → ((s.trunk.port p).words + 1) % 4096 ≠ 0 → s.trunk.timeWaits (.pleach p) = false → (s.trunk.port p).resend = [] →
    (s.trunk.port p).replay.length < 1024 → (s.trunk.port p).aborts = [] → (s.trunk.port p).intro = 0 → s.trunk.tk.fab.egress.length = 262 →
    (s.trunk.egress (.pleach p)).chosen = some c → s.trunk.chanOf p c = some ch →
    Yields (exec (.flitSend p) s) s .trunk fun d =>
      (∃ f, .flit p f ∈ d.out ∧ f.kind = 1 ∧ f.channel = ch ∧ f.seq = (s.trunk.port p).txSeq ∧ f.fill = s.trunk.nextFill p ch) ∧
      (d.port p).txSeq = ((s.trunk.port p).txSeq + 1) % 4096 ∧ (d.port p).replay.length = (s.trunk.port p).replay.length + 1) ∧
  (∀ (s : State) (p : Nat), s.built → s.runs .trunk → p < 6 → s.trunk.tk.fab.ports.length = 6 →
    ((s.trunk.port p).words + 1) % 4096 = 0 →
    Yields (exec (.flitSend p) s) s .trunk fun d =>
      d.out = [.alignWord p (((s.trunk.port p).words + 1) / 4096 % 4096)] ∧ d.objs = s.trunk.objs) ∧
  (∀ (s : State) (vc : Nat) (m : PMsg), s.built → s.runs .trunk → m.payload ≠ [] → m.payload.length ≤ 16777216 →
    m.partition = 0 → s.trunk.tk.fab.egress.length = 262 → s.trunk.get 0x310A_03 + 1 < 2 ^ 64 → s.trunk.get 0x310A_04 + 1 < 2 ^ 32 →
    Yields (exec (.messageHeader .inject vc m) s) s .trunk fun d =>
      if m.dest = s.trunk.get 0x3100_01 then
        d.tk.fab.local_ = s.trunk.tk.fab.local_ ++ [({ m with cls := m.cls % 8 }, none)] ∧ d.objs = s.trunk.objs
      else d.get 0x310A_03 = s.trunk.get 0x310A_03 + 1 ∧
        (s.trunk.inTorus m.dest = false → d.get 0x310A_04 = s.trunk.get 0x310A_04 + 1 ∧ (d.get 0x3108_00).testBit 6 = true) ∧
        (∀ q, s.trunk.inTorus m.dest = true → s.trunk.routePort m.dest = some q → s.trunk.portUp q = true →
          (s.trunk.egress (.pleach q)).queues.length = 8 →
          ∃ y, (d.egress (.pleach q)).queue (m.cls % 8) = (s.trunk.egress (.pleach q)).queue (m.cls % 8) ++ [y] ∧
            y.len = linkLen m ∧ y.vc = if m.direct then 0 else s.trunk.routeVc none 0 q)) ∧
  (∀ (s : State) (p vc : Nat) (m : PMsg), s.built → s.runs .trunk → p < 6 → s.trunk.tk.fab.ports.length = 6 →
    m.payload ≠ [] → m.payload.length ≤ 16777216 → s.trunk.admits (0x3120 + p) m.partition = false →
    s.trunk.get 0x3128_01 + 1 < 2 ^ 32 →
    Yields (exec (.messageHeader (.port p) vc m) s) s .trunk fun d =>
      d.get 0x3128_01 = s.trunk.get 0x3128_01 + 1 ∧ (d.get 0x3108_00).testBit 5 = true ∧ d.tk.fab.local_ = s.trunk.tk.fab.local_) ∧
  (∀ (s : State) (m : PMsg), s.built → s.runs .trunk → s.trunk.get 0x310A_01 + 1 < 2 ^ 64 → s.trunk.get 0x310A_05 + 1 < 2 ^ 32 →
    s.trunk.get 0x310A_06 + 1 < 2 ^ 32 →
    Yields (exec (.messageDeliver m) s) s .trunk fun d =>
      if m.kind = 0 ∨ 0x0C < m.kind then d.get 0x310A_06 = s.trunk.get 0x310A_06 + 1 ∧ d.out = []
      else if m.trailerOk = false then d.get 0x310A_05 = s.trunk.get 0x310A_05 + 1 ∧ d.out = []
      else d.get 0x310A_01 = s.trunk.get 0x310A_01 + 1 ∧ (m.kind ≠ 1 → d.out = [.delivered m])) ∧
  (∀ (s : State) (n c : Nat) (b : Bytes), s.runs .trunk →
    Yields (exec (.fenceNotice n c b) s) s .trunk fun d =>
      d.out = [.notice c (bytesAt b 0 32)] ∧ d.tk.fab.noticed = [(n, c, bytesAt b 0 32)] ∧ d.objs = s.trunk.objs) ∧
  (∀ (s : State), s.runs .trunk → s.trunk.trunkBoundary = true →
    Yields (exec .fenceApply s) s .trunk fun d =>
      d.tk.fab.fences = [] ∧ d.tk.fab.fenceBlob = none ∧
      (∀ k v, s.trunk.tk.fab.fences = [(k, v)] → v < 2 ^ s.trunk.cfg.width k → v < 2 ^ 64 → d.get k = v) ∧
      (∀ b, s.trunk.tk.fab.fenceBlob = some b → d.blob 0x3127_00 = b) ∧
      ∀ k, k ∉ s.trunk.tk.fab.fences.map (·.1) → d.get k = s.trunk.get k)

/-- GROUP_SETUP: RANGE for a definition that breaks the rules, STATE for a group held, BUSY with a setup at work; else
it succeeds, and where the box has other trunks the setup is at work. SETUP: the lowest FREE slot is RESERVED with
the group and generation, or a refusal changes no slot. SETUP_ACK and SETUP_NAK: the answer is noted while others
miss; the last acknowledgement ends the setup with Status 0, the last refusal with Status 1 and its reason.
SETUP_TIMEOUT: Status 1 and flag 3. GROUP_CONTROL_ABORT: the reserved slot is FREE. GROUP_COMMIT: ACTIVE with
FirstWindow, and a change per member is queued. GROUP_TEARDOWN: STATE unless ACTIVE here as home. TEARDOWN:
TEARING_DOWN, LastWindow the one before, every member unbound. QUARANTINE_START and QUARANTINE_END: QUARANTINED with
a STALE result, then FREE. JOIN and LEAVE: STATE for another trunk's leaf, else the leaf is a member, or none
without an end. CHANGE_BATCH: a waiting unbinding is issued and its leaf in transition. TRANSITION_END: that
transition is over. (R424, R441, R442, R444, R446, R448, R449, R450, R451, R452) -/
def Obligations.GroupsAreSetUpCommittedAndTornDown : Prop :=
  (∀ (s : State) (e : Env) (bs : Bytes), s.built → s.runs .trunk → s.trunk.tk.red.slots.length = 64 →
    (s.unit .trunk).acceptsDomain e 0x3202 0 bs →
    Answers (exec (.groupSetup e bs) s) s .trunk e 0x02 0x3202 0 0 fun a =>
      let g := groupDef bs
      if s.trunk.defOk g = false then a.abort = 0x06 ∧ a.dev = (s.unit .trunk).heard e
      else if (s.trunk.slotOf g.group [1, 2]).isSome = true then a.abort = 0x07 ∧ a.dev = (s.unit .trunk).heard e
      else if s.trunk.tk.red.setup.isSome = true then a.abort = 0x09 ∧ a.dev = (s.unit .trunk).heard e
      else a.abort = 0 ∧ ((∃ t ∈ s.trunk.boxTrunks g.origin g.extent, t ≠ s.trunk.get 0x3100_01) →
        ∃ x, a.dev.tk.red.setup = some x ∧ x.bytes = bs ∧ x.second = false ∧ x.began = s.trunk.now ∧
          x.gen = ((lookupKey g.group s.trunk.tk.red.lastGen).getD 0 + 1) % 256)) ∧
  (∀ (s : State) (m : GroupCtl), s.built → s.runs .trunk → s.trunk.tk.red.slots.length = 64 →
    m.generation < 256 →
    Yields (exec (.setup m) s) s .trunk fun d =>
      match s.trunk.refusal (groupDef m.setup) m.generation m.sender, slotNos.find? (s.trunk.slotState · = 0) with
      | none, some n => d.slotState n = 1 ∧ d.get (slotKey n 2) = (groupDef m.setup).group ∧
          d.get (slotKey n 3) = m.generation ∧ ∀ k < 64, k ≠ n → d.slotState k = s.trunk.slotState k ∧ d.slot k = s.trunk.slot k
      | _, _ => d.tk.red = s.trunk.tk.red ∧ ∀ k < 64, d.slotState k = s.trunk.slotState k) ∧
  (∀ (s : State) (m : GroupCtl) (x : HomeSetup), s.built → s.runs .trunk → s.trunk.tk.red.slots.length = 64 →
    s.trunk.tk.red.setup = some x → s.trunk.answersSetup m = true → x.naks = [] →
    Yields (exec (.setupAck m) s) s .trunk fun d =>
      let y : HomeSetup := { x with acks := x.acks ++ [m.sender], quarantine := max x.quarantine m.quarantine }
      if s.trunk.allAnswered y = true then d.tk.red.setup = none ∧ d.get 0x3206_01 = 2 ∧ d.get 0x3206_04 = 0
      else d.tk.red.setup = some y ∧ d.objs = s.trunk.objs) ∧
  (∀ (s : State) (m : GroupCtl) (x : HomeSetup), s.built → s.runs .trunk → s.trunk.tk.red.slots.length = 64 →
    s.trunk.tk.red.setup = some x → s.trunk.answersSetup m = true → x.naks = [] → x.second = true ∨ m.reason ≠ 5 →
    m.reason < 256 →
    Yields (exec (.setupNak m) s) s .trunk fun d =>
      let y : HomeSetup := { x with naks := [(m.sender, m.reason, m.nakGen)] }
      if s.trunk.allAnswered y = true then d.tk.red.setup = none ∧ d.get 0x3206_01 = 2 ∧ d.get 0x3206_04 = 1 ∧
        d.get 0x3206_08 = m.reason ∧ (d.get 0x3207_00).testBit 3 = true
      else d.tk.red.setup = some y ∧ d.objs = s.trunk.objs) ∧
  (∀ (s : State) (x : HomeSetup), s.built → s.runs .trunk → s.trunk.tk.red.slots.length = 64 →
    s.trunk.tk.red.setup = some x → x.began + s.trunk.get 0x3201_03 ≤ s.trunk.now →
    Yields (exec .setupTimeout s) s .trunk fun d =>
      d.tk.red.setup = none ∧ d.get 0x3206_01 = 2 ∧ d.get 0x3206_04 = 1 ∧ (d.get 0x3207_00).testBit 3 = true) ∧
  (∀ (s : State) (m : GroupCtl) (n : Nat), s.built → s.runs .trunk → s.trunk.tk.red.slots.length = 64 →
    s.trunk.slotOf m.group [1] = some n → s.trunk.get (slotKey n 3) = m.generation →
    Yields (exec (.groupControlAbort m) s) s .trunk fun d => d.slotState n = 0 ∧ d.slot n = {}) ∧
  (∀ (s : State) (m : GroupCtl) (n : Nat), s.built → s.runs .trunk → s.trunk.tk.red.slots.length = 64 →
    s.trunk.slotOf m.group [1] = some n → s.trunk.get (slotKey n 3) = m.generation → m.atWindow < 2 ^ 32 →
    Yields (exec (.groupCommit m) s) s .trunk fun d =>
      d.slotState n = 2 ∧ d.get (slotKey n 0xA) = m.atWindow ∧ (d.slot n).members = (s.trunk.slot n).members ∧
      d.tk.red.changes.length = s.trunk.tk.red.changes.length + (s.trunk.slot n).members.length) ∧
  (∀ (s : State) (e : Env) (v : Nat), s.built → s.runs .trunk → s.trunk.tk.red.slots.length = 64 →
    (s.unit .trunk).accepts e 0x3203 0 v →
    Answers (exec (.groupTeardown e v) s) s .trunk e 0x02 0x3203 0 0 fun a =>
      match s.trunk.slotOf (v % 4096) [2] with
      | none => a.abort = 0x07 ∧ a.dev = (s.unit .trunk).heard e
      | some n =>
        if s.trunk.get (slotKey n 5) ≠ s.trunk.get 0x3100_01 then a.abort = 0x07 ∧ a.dev = (s.unit .trunk).heard e
        else a.abort = 0 ∧ (s.trunk.get 0x3100_01 ∈ s.trunk.boxTrunks (s.trunk.get (slotKey n 6)) (s.trunk.get (slotKey n 7)) →
          a.dev.slotState n = 3)) ∧
  (∀ (s : State) (m : GroupCtl) (n : Nat), s.built → s.runs .trunk → s.trunk.tk.red.slots.length = 64 →
    s.trunk.slotOf m.group [2] = some n → s.trunk.get (slotKey n 3) = m.generation → 1 ≤ m.atWindow →
    m.atWindow ≤ 2 ^ 32 →
    Yields (exec (.teardown m) s) s .trunk fun d =>
      d.slotState n = 3 ∧ d.get (slotKey n 0xB) = m.atWindow - 1 ∧ (∀ x ∈ (d.slot n).members, x.until_.isSome = true) ∧
      (d.slot n).members.length = (s.trunk.slot n).members.length) ∧
  (∀ (s : State) (n : Nat), s.built → s.runs .trunk → s.trunk.tk.red.slots.length = 64 →
    n < 64 → s.trunk.slotState n = 3 → s.trunk.lastDone n = true →
    Yields (exec (.quarantineStart n) s) s .trunk fun d =>
      d.slotState n = 4 ∧ d.get (key (0x3250 + n) 1) = (if s.trunk.get (key (0x3250 + n) 2) = 0 then 0 else 3)) ∧
  (∀ (s : State) (n : Nat), s.built → s.runs .trunk → s.trunk.tk.red.slots.length = 64 →
    n < 64 → s.trunk.slotState n = 4 → s.trunk.get (slotKey n 0xC) ≤ s.trunk.now →
    Yields (exec (.quarantineEnd n) s) s .trunk fun d => d.slotState n = 0 ∧ d.slot n = {}) ∧
  (∀ (s : State) (e : Env) (g id : Nat), s.built → s.runs .trunk → s.trunk.tk.red.slots.length = 64 →
    g < 4096 → id < 2 ^ 20 →
    (s.unit .trunk).accepts e 0x3204 0 (2 ^ 36 + g * 2 ^ 24 + id) →
    Answers (exec (.join e g id) s) s .trunk e 0x02 0x3204 0 0 fun a =>
      match s.trunk.slotOf g [2] with
      | none => a.abort = 0x07 ∧ a.dev = (s.unit .trunk).heard e
      | some n =>
        if id / 256 ≠ s.trunk.get 0x3100_01 then a.abort = 0x07 ∧ a.dev = (s.unit .trunk).heard e
        else a.abort = 0 ∧ (∃ x ∈ (a.dev.slot n).members, x.port = id % 256 ∧ x.until_ = none) ∧
          a.dev.tk.red.changes.length = s.trunk.tk.red.changes.length + 1) ∧
  (∀ (s : State) (e : Env) (g id : Nat), s.built → s.runs .trunk → s.trunk.tk.red.slots.length = 64 →
    g < 4096 → id < 2 ^ 20 →
    (s.unit .trunk).accepts e 0x3204 0 (2 ^ 37 + g * 2 ^ 24 + id) →
    Answers (exec (.leave e g id) s) s .trunk e 0x02 0x3204 0 0 fun a =>
      match s.trunk.slotOf g [2] with
      | none => a.abort = 0x07 ∧ a.dev = (s.unit .trunk).heard e
      | some n =>
        if id / 256 ≠ s.trunk.get 0x3100_01 then a.abort = 0x07 ∧ a.dev = (s.unit .trunk).heard e
        else a.abort = 0 ∧ (∀ x ∈ (a.dev.slot n).members, x.port = id % 256 → x.until_.isSome = true) ∧
          a.dev.tk.red.changes.length = s.trunk.tk.red.changes.length + 1) ∧
  (∀ (s : State) (c : Change), s.built → s.runs .trunk → s.trunk.tk.red.slots.length = 64 →
    (s.trunk.referenceWindow = none ∨ s.trunk.referenceWindow ≠ s.trunk.tk.red.lastBatch) → s.trunk.tk.red.changes = [c] → c.bind = false →
    c.second = false → s.trunk.get 0x3209_04 + 1 < 2 ^ 64 →
    Yields (exec .changeBatch s) s .trunk fun d =>
      d.tk.red.changes = [] ∧ d.inTransition c.port = true ∧ d.get 0x3209_04 = s.trunk.get 0x3209_04 + 1 ∧
      d.get 0x3201_09 = 0 ∧ d.tk.red.lastBatch = s.trunk.referenceWindow) ∧
  (∀ (s : State) (t : Trans), s.built → s.runs .trunk → s.trunk.tk.red.slots.length = 64 →
    t ∈ s.trunk.tk.red.trans → (t.filed = true ∨ t.end_ ≤ s.trunk.now) →
    Yields (exec (.transitionEnd t.port) s) s .trunk fun d =>
      t ∉ d.tk.red.trans ∧ ∀ x ∈ s.trunk.tk.red.trans, x.port ≠ t.port → x ∈ d.tk.red.trans)

/-- For a slot of a group served and a window between FirstWindow and LastWindow that is not formed. COLLECT_DEADLINE at
or after D₀: in mode HOST a datagram goes to the collector and is counted; in mode TRUNK, for a box of one trunk,
the group result is READY and names the window; either way the window has been reduced. PARTIAL in mode TRUNK: of an
open stage it is kept as an input of its stage and Origin; of a window already reduced it is counted late with flag
1. STAGE_CLOSE of the next stage of a formed window whose own input is held, with every input held or at the
deadline: after stage 3 the result is READY and the window reduced; before a stage of extent above 1 the stage is
closed and this trunk's input of the next is kept. RESULT at an observer: the slot's result is READY with the
message's group, window and Present. FLEET_TRIGGER: STATE for a group not held, else it is counted and kept with
this tick. PLEACH_TRIGGER: one seen before changes nothing; a new one is remembered and the windows around it are
kept. (R426, R432, R433, R434, R435, R436, R439, R440, R454, R35) -/
def Obligations.WindowsAreReducedAndTriggersSpread : Prop :=
  (∀ (s : State) (n w : Nat), s.built → s.runs .trunk → s.trunk.tk.red.slots.length = 64 →
    n < 64 → (s.trunk.slotState n = 2 ∨ s.trunk.slotState n = 3) → s.trunk.get (slotKey n 0xA) ≤ w → w ≤ s.trunk.get (slotKey n 0xB) →
    (s.trunk.win n w).formed = false → (s.trunk.slot n).through.any (w ≤ ·) = false → s.trunk.deadline n w 0 ≤ s.trunk.now → s.trunk.tk.tripped = false →
    w < 2 ^ 32 → (s.trunk.get 0x3200_00 = 1 ∨ s.trunk.get (slotKey n 7) = 0) → s.trunk.get 0x3209_08 + 1 < 2 ^ 64 →
    Yields (exec (.collectDeadline n w) s) s .trunk fun d =>
      (d.slot n).through.any (w ≤ ·) = true ∧
      if s.trunk.get 0x3200_00 = 1 then
        (∃ bs, .udp (s.trunk.get 0x3201_0C) (s.trunk.get 0x3201_0A) (s.trunk.get 0x3201_0B) bs ∈ d.out) ∧
        d.get 0x3209_08 = s.trunk.get 0x3209_08 + 1
      else d.get (key (0x3250 + n) 1) = 2 ∧ d.get (key (0x3250 + n) 6) = w) ∧
  (∀ (s : State) (m : PartialMsg) (n : Nat), s.built → s.runs .trunk → s.trunk.tk.red.slots.length = 64 →
    s.trunk.slotOf m.group [2, 3] = some n → s.trunk.get (slotKey n 3) = m.generation → s.trunk.get 0x3200_00 ≠ 1 →
    1 ≤ m.stage → m.stage ≤ 3 → s.trunk.tk.tripped = false → s.trunk.get 0x3209_03 + 1 < 2 ^ 32 →
    Yields (exec (.partialMsg m) s) s .trunk fun d =>
      if (s.trunk.slot n).through.any (m.window ≤ ·) = true ∨ m.stage ≤ (s.trunk.win n m.window).closed then
        d.get 0x3209_03 = s.trunk.get 0x3209_03 + 1 ∧ (d.get 0x3207_00).testBit 1 = true ∧ d.tk.red = s.trunk.tk.red
      else (∃ x ∈ (d.win n m.window).inputs, x.1 = m.stage ∧ x.2.1 = m.origin) ∧
        ((∀ x ∈ (s.trunk.win n m.window).inputs, x.1 = m.stage → x.2.1 ≠ m.origin) →
          (m.stage, m.origin, msgPart m) ∈ (d.win n m.window).inputs)) ∧
  (∀ (s : State) (n w st : Nat) (p : Part), s.built → s.runs .trunk → s.trunk.tk.red.slots.length = 64 →
    n < 64 → 1 ≤ st → st ≤ 3 → (s.trunk.win n w).formed = true → (s.trunk.win n w).closed + 1 = st →
    (st, s.trunk.get 0x3100_01, p) ∈ (s.trunk.win n w).inputs → s.trunk.tk.tripped = false → w < 2 ^ 32 →
    (s.trunk.deadline n w st ≤ s.trunk.now ∨ ∀ o ∈ s.trunk.lineOf n st, ∃ q, (st, o, q) ∈ (s.trunk.win n w).inputs) →
    Yields (exec (.stageClose n w st) s) s .trunk fun d =>
      (st = 3 → (d.slot n).through.any (w ≤ ·) = true ∧ d.get (key (0x3250 + n) 1) = 2 ∧
        d.get (key (0x3250 + n) 6) = w) ∧
      (st < 3 → extentOf (s.trunk.get (slotKey n 7)) st ≠ 1 → (d.win n w).closed = st ∧
        ∃ q, (st + 1, s.trunk.get 0x3100_01, q) ∈ (d.win n w).inputs)) ∧
  (∀ (s : State) (m : PartialMsg) (n : Nat), s.built → s.runs .trunk → s.trunk.tk.red.slots.length = 64 →
    s.trunk.observerSlot m.group = some n → m.stage = 3 → s.trunk.slotOf m.group [1, 2, 3] = none →
    s.trunk.tk.tripped = false → m.group < 65536 → m.window < 2 ^ 32 → m.present < 2 ^ 32 →
    Yields (exec (.result m) s) s .trunk fun d =>
      d.get (key (0x3250 + n) 1) = 2 ∧ d.get (key (0x3250 + n) 4) = m.group ∧ d.get (key (0x3250 + n) 6) = m.window ∧
      d.get (key (0x3250 + n) 8) = m.present ∧ d.blob (key (0x3250 + n) 0xD) = m.bodies) ∧
  (∀ (s : State) (e : Env) (v : Nat), s.built → s.runs .trunk → s.trunk.tk.red.slots.length = 64 →
    (s.unit .trunk).accepts e 0x3205 0 v → s.trunk.get 0x3209_06 + 1 < 2 ^ 32 →
    Answers (exec (.fleetTrigger e v) s) s .trunk e 0x02 0x3205 0 0 fun a =>
      match s.trunk.slotOf (v % 4096) [2, 3] with
      | none => a.abort = 0x07 ∧ a.dev = (s.unit .trunk).heard e
      | some n => a.abort = 0 ∧ a.dev.get 0x3209_06 = s.trunk.get 0x3209_06 + 1 ∧
          a.dev.tk.red.keeps = s.trunk.tk.red.keeps ++ [(n, s.trunk.stamp)] ∧ a.dev.tk.red.trigNo = s.trunk.tk.red.trigNo + 1) ∧
  (∀ (s : State) (t : FleetTrig) (n : Nat), s.built → s.runs .trunk → s.trunk.tk.red.slots.length = 64 →
    s.trunk.slotOf t.group [2, 3] = some n → s.trunk.get (slotKey n 3) = t.generation → 1 ≤ t.stage → t.stage ≤ 3 →
    Yields (exec (.pleachTrigger t) s) s .trunk fun d =>
      if (t.group, t.triggerId) ∈ s.trunk.tk.red.triggers then d = (s.unit .trunk)
      else (t.group, t.triggerId) ∈ d.tk.red.triggers ∧ d.tk.red.keeps = s.trunk.tk.red.keeps ++ [(n, t.originStamp)])

/-- For a slot of the trunk. ARRIVAL_UNRESOLVED of a member's only waiting arrival, that many windows old: it waits no
longer, is kept for the export, counted, and flag 0 is set. STEP_CLOSE in mode TRUNK, analysis running and class 3
not held: the oldest result not yet used is used; with the engine enabled and LATENESS fields, a result whose
arrivals bring the open step to Expected, none of a later step in TopK, closes it: the step record is READY with
that step and Outcome COMPLETE, StepsComplete counts it, and the next step is open. DRIFT_UPDATE: a result more than
64 windows old is skipped and counted with flag 4; another one's single update leaves the member's metric in the
state of the update rule. APPLY: STATE unless ACTIVE and ChangeLead ahead, RANGE for drift work beyond the limit or
missing LATENESS fields, else the window is named. APPLY_SETTINGS at that window: the staged settings are in force,
no step is open, Base is InitialBase. (R493, R496, R500, R503, R508, R509, R513) -/
def Obligations.StragglerAndDriftEnginesFollowResults : Prop :=
  (∀ (s : State) (n port : Nat) (x : ArrSt), s.built → s.runs .trunk → n < 64 → s.trunk.tk.red.slots.length = 64 →
    (s.trunk.stragMember n port).waiting = [x] → x.filed + s.trunk.scon n 8 ≤ s.trunk.windowsClosed n → s.trunk.get 0x4104_02 + 1 < 2 ^ 32 →
    Yields (exec (.arrivalUnresolved n port x.step) s) s .trunk fun d =>
      (d.stragMember n port).waiting = [] ∧ (d.stragMember n port).lost = (s.trunk.stragMember n port).lost ++ [x] ∧
      d.get 0x4104_02 = s.trunk.get 0x4104_02 + 1 ∧ (d.get 0x4102_00).testBit 0 = true) ∧
  (∀ (s : State) (n : Nat) (v : ViewSt), s.built → s.runs .trunk → n < 64 → s.trunk.tk.red.slots.length = 64 →
    (s.trunk.slot n).views.find? (·.steps) = some v → s.trunk.stragHost = false → s.trunk.classHeld 3 = false →
    s.trunk.noAnalysis = false →
    Yields (exec (.stepClose n) s) s .trunk fun d =>
      (∀ y ∈ (d.slot n).views, y.window = v.window → y.steps = false) ∧
      (s.trunk.scon n 1 = 0 → d.objs = s.trunk.objs) ∧
      (∀ (x : StepSt) (tf hf : FieldD) (toff hoff : Nat), s.trunk.scon n 1 ≠ 0 → s.trunk.latenessTopk n = some (tf, toff) →
        s.trunk.latenessHist n = some (hf, hoff) → (s.trunk.strag n).open_ = some x → x.step < 2 ^ 32 →
        x.arrived + histTotal (histOf (bytesAt v.part.bodies hoff hf.size)) = x.expected →
        (∀ y ∈ topkOf (bytesAt v.part.bodies toff tf.size), y.aux ≤ x.step) → s.trunk.get 0x4104_03 + 1 < 2 ^ 64 →
        d.get (key (0x4140 + n) 1) = 2 ∧ d.get (key (0x4140 + n) 6) = x.step ∧ d.get (key (0x4140 + n) 7) = 0 ∧
        d.get 0x4104_03 = s.trunk.get 0x4104_03 + 1 ∧ d.get (stragKey n 0xF) = (x.step + 1) % 2 ^ 32)) ∧
  (∀ (s : State) (n : Nat) (v : ViewSt), s.built → s.runs .trunk → n < 64 → s.trunk.tk.red.slots.length = 64 →
    (s.trunk.slot n).views.find? (·.drift) = some v → s.trunk.stragHost = false → s.trunk.noAnalysis = false →
    s.trunk.classHeld 3 = false → s.trunk.get 0x4104_08 + (s.trunk.driftWork n v).length < 2 ^ 32 →
    Yields (exec (.driftUpdate n) s) s .trunk fun d =>
      (∀ y ∈ (d.slot n).views, y.window = v.window → y.drift = false) ∧
      (v.window + 64 < s.trunk.windowsClosed n → s.trunk.driftWork n v ≠ [] →
        d.get 0x4104_08 = s.trunk.get 0x4104_08 + (s.trunk.driftWork n v).length ∧ (d.get 0x4102_00).testBit 4 = true) ∧
      (∀ (i port : Nat) (x : MetricD) (z : Int), ¬ v.window + 64 < s.trunk.windowsClosed n → s.trunk.driftWork n v = [(i, x, port, z)] →
        (d.stragMember n port).drift.find? (·.field = i) = some (driftUpdate x ((s.trunk.strag n).dconf.getD 1 64)
          (rank16 (histOf (bytesAt v.part.bodies (fieldOff (s.trunk.slotFields n) x.field)
            (((s.trunk.slotFields n)[x.field]?.map FieldD.size).getD 0))) z)
          (((s.trunk.stragMember n port).drift.find? (·.field = i)).getD { field := i })).1)) ∧
  (∀ (s : State) (e : Env) (n w : Nat), s.built → s.runs .trunk → n < 64 → s.trunk.tk.red.slots.length = 64 →
    (s.unit .trunk).accepts e (0x4180 + n) 0x11 w →
    Answers (exec (.apply e n w) s) s .trunk e 0x02 (0x4180 + n) 0x11 0 fun a =>
      if s.trunk.slotState n ≠ 2 ∨ s.trunk.groupTime n w < s.trunk.now + s.trunk.get 0x3201_02 then a.abort = 0x07 ∧ a.dev = (s.unit .trunk).heard e
      else if s.trunk.driftOver n = true ∨ (s.trunk.on (stragKey n 1) = true ∧
          ((s.trunk.latenessTopk n).isNone = true ∨ (s.trunk.latenessHist n).isNone = true)) then a.abort = 0x06 ∧ a.dev = (s.unit .trunk).heard e
      else a.abort = 0 ∧ (a.dev.strag n).pending = some w ∧ (a.dev.strag n).conf = (s.trunk.strag n).conf) ∧
  (∀ (s : State) (n w : Nat), s.built → s.runs .trunk → n < 64 → s.trunk.tk.red.slots.length = 64 →
    (s.trunk.strag n).pending = some w → s.trunk.groupTime n w ≤ s.trunk.now → w < 2 ^ 32 →
    Yields (exec (.applySettings n) s) s .trunk fun d =>
      (d.strag n).pending = none ∧ (d.strag n).conf = (List.range 13).map (fun k => s.trunk.get (stragKey n (k + 1))) ∧
      (d.strag n).metrics = s.trunk.blob (driftKey n 2) ∧ (d.strag n).open_ = none ∧
      d.get (stragKey n 0xE) = s.trunk.get (stragKey n 7) ∧ d.get (stragKey n 0x10) = 0 ∧ d.get (stragKey n 0x12) = w)

/-- For a Thicket descriptor that may run and whose turn it is under R528, with ModelId up to 7 and its ranges
accessible. LOAD into an EMPTY slot: an image that fails a check answers its status and detail, sets flag 3 and
loads nothing; one that passes is the slot's model, LOADING, with no result yet. MODEL_READY: the slot is READY and
the LOAD has result OK. UNLOAD: status 1 of an EMPTY slot, else OK and the slot is EMPTY. INFER: status 1 of a slot
not READY or DAMAGED; of a READY model with its feature count it has begun and has no result in mode TRUNK, and in
mode HOST it answers 0x20 with its vectors counted as exported. BATCH of an INFER that has begun, class 4 not held:
it has scored the next vectors, at most ThicketBatch, and has its result once all are done; a batch of one vector
has written the sums of its trees, and nothing else, at its place. UNCORRECTABLE_ECC outside inference: DAMAGED,
flag 2, memory unchanged. ECC_CORRECTED is counted. (R518, R522, R523, R525, R527, R528, R529, R530, R532, R533) -/
def Obligations.TheThicketLoadsScoresAndUnloadsModels : Prop :=
  (∀ (s : State) (r i : Nat) (x : DescSt), s.built → s.runs .trunk → (x.begun = true ∨ s.trunk.modelFree r x = true) →
    (s.unit .trunk).mayRun r i 8 1 x → x.begun = false → modelByte x ≤ 7 → reservedFrom x [(2, 2), (16, 32)] = true →
    (s.unit .trunk).mayAccess x [(natAt x.bytes 24 8, natAt x.bytes 20 4)] → s.trunk.modelState (modelByte x) = 0 → s.trunk.model (modelByte x) = none →
    YieldsMem (exec (.load r i) s) s fun d m => m = s.mem ∧
      match compileModel s.trunk.tk.thk (modelByte x) (imageOf (s.trunk.load_ s.mem (natAt x.bytes 24 8) (natAt x.bytes 20 4))) with
      | .error (st, detail) => d.resultOf r i = some (resultBlock st 0 0 detail) ∧ d.tk.thk = s.trunk.tk.thk ∧
          (d.get 0x4203_00).testBit 3 = true ∧ d.modelState (modelByte x) = 0
      | .ok c => d.modelState (modelByte x) = 1 ∧ d.tk.thk = s.trunk.tk.thk ++ [{ c with load := some (r, i) }] ∧
          d.resultOf r i = none) ∧
  (∀ (s : State) (k r i : Nat) (c : ThModel) (x : DescSt), s.built → s.runs .trunk → k < 8 → s.trunk.model k = some c → c.load = some (r, i) →
    s.trunk.noAnalysis = false → s.trunk.modelState k = 1 → s.trunk.desc r i = some x → x.begun = true → x.result = none →
    Yields (exec (.modelReady k) s) s .trunk fun d =>
      d.modelState k = 2 ∧ d.resultOf r i = some (statusOnly 0) ∧ d.model k = some { c with load := none }) ∧
  (∀ (s : State) (r i : Nat) (x : DescSt), s.built → s.runs .trunk → (x.begun = true ∨ s.trunk.modelFree r x = true) →
    (s.unit .trunk).mayRun r i 8 2 x → modelByte x ≤ 7 → reservedFrom x [(2, 46)] = true →
    YieldsMem (exec (.unload r i) s) s fun d m => m = s.mem ∧
      if s.trunk.modelState (modelByte x) = 0 then d.resultOf r i = some (statusOnly 1) ∧ d.tk.thk = s.trunk.tk.thk
      else d.resultOf r i = some (statusOnly 0) ∧ d.modelState (modelByte x) = 0 ∧ d.model (modelByte x) = none) ∧
  (∀ (s : State) (r i : Nat) (x : DescSt), s.built → s.runs .trunk → (x.begun = true ∨ s.trunk.modelFree r x = true) →
    (s.unit .trunk).mayRun r i 8 3 x → x.begun = false → modelByte x ≤ 7 → (inferOp x).bad = false →
    reservedFrom x [(40, 8)] = true →
    YieldsMem (exec (.infer r i) s) s fun d m => m = s.mem ∧
      let o := inferOp x
      (s.trunk.modelState o.model < 2 → d.resultOf r i = some (statusOnly 1)) ∧
      (s.trunk.modelState o.model = 2 → s.trunk.get (modelKey o.model 2) = o.features →
        (s.trunk.get 0x4200_00 = 1 → (s.unit .trunk).mayAccess x [(o.inA, o.stride * (o.count - 1) + 4 * o.features)] →
          s.trunk.get 0x4202_07 + o.count < 2 ^ 64 →
          d.resultOf r i = some (resultBlock 0x20 o.count 0 0) ∧ d.get 0x4202_07 = s.trunk.get 0x4202_07 + o.count) ∧
        (s.trunk.get 0x4200_00 ≠ 1 → o.flagsA = 0 → (s.unit .trunk).mayAccess x [(o.inA, o.stride * (o.count - 1) + 4 * o.features),
          (o.outA, 4 * s.trunk.get (modelKey o.model 3) * o.count)] →
          ∃ y, d.desc r i = some y ∧ y.begun = true ∧ y.result = none))) ∧
  (∀ (s : State) (r i : Nat) (x : DescSt) (c : ThModel), Mem.wf s.mem = true → s.built → s.runs .trunk →
    s.trunk.desc r i = some x → s.trunk.get (ringKey r 1) = 8 → natAt x.bytes 16 1 = 3 → x.begun = true → x.result = none →
    s.trunk.noAnalysis = false → s.trunk.model (inferOp x).model = some c → s.trunk.classHeld 4 = false →
    YieldsMem (exec (.batch r i) s) s fun d m =>
      let o := inferOp x
      let n := min (max 1 (s.trunk.get 0x4010_0D)) (o.count - x.done)
      (∃ y, d.desc r i = some y ∧ y.done = x.done + n ∧ (y.result.isSome = true ↔ x.done + n = o.count)) ∧
      (n = 1 → o.flagsA = 0 → x.hurt = none →
        Mem.holds s.mem m (o.outA + 4 * s.trunk.get (modelKey o.model 3) * x.done)
          ((c.score (s.trunk.get (modelKey o.model 3)) fun f =>
            natAt (s.trunk.load_ s.mem (o.inA + o.stride * x.done + 4 * f) 4) 0 4).outs.flatMap (leBytes 4)))) ∧
  (∀ (s : State) (h : EccHit), s.built → s.runs .trunk → h.model ≤ 7 → s.trunk.modelState h.model ≠ 0 → h.inferring = false →
    YieldsMem (exec (.uncorrectableEcc h) s) s fun d m =>
      m = s.mem ∧ d.modelState h.model = 3 ∧ (d.get 0x4203_00).testBit 2 = true ∧ d.tk = s.trunk.tk) ∧
  (∀ (s : State), s.built → s.runs .trunk → s.trunk.get 0x4202_05 + 1 < 2 ^ 32 →
    Yields (exec .eccCorrected s) s .trunk fun d =>
      d.get 0x4202_05 = s.trunk.get 0x4202_05 + 1 ∧ (s.unit .trunk).objectsKept d [0x4202_05])

/-- POLICY_ENABLE: RANGE for settings that break its rules, else the policy is on, and if it was off its Epoch is now.
POLICY_DISABLE: off, with no staged capture left. ARM of a member when it is due: skipped or busy, ArmBusy counts
it; else Arms and the policy's count go up and the arm is outstanding with the copies, Tag and TagMask of the
policy. CAPTURE_ASSEMBLY of no arm changes nothing; of a policy's arm with bytes missing or a digest that disagrees
it is INCOMPLETE; of a whole one it is counted, and staged unless the pool has no page for it. WEIGHT_REQUEST for a
leaf of this trunk: joins an arm of its key, or arms the source unless it is busy. WEIGHT_TILE of status OK is
cached; the one capture that waits for it takes it if the digest agrees, else it is dropped, with the verdict WEIGHT
in mode TRUNK. WEIGHT_WAIT_TIMEOUT drops the capture with flag 4. COMPARE: in mode HOST exported, counted and
dropped; else counted, and EXACT, within tolerance, or a mismatch with verdict DIE, or TRUNK where a second result
differs. (R550, R551, R552, R553, R554, R556, R557, R560, R561, R563, R567, R570) -/
def Obligations.SampledRecomputeArmsAssemblesAndCompares : Prop :=
  (∀ (s : State) (e : Env) (n : Nat), s.built → s.runs .trunk → n < 16 → s.trunk.tk.rec_.pols.length = 16 →
    (s.unit .trunk).accepts e (0x4320 + n) 1 1 →
    Answers (exec (.policyEnable e n) s) s .trunk e 0x02 (0x4320 + n) 1 0 fun a =>
      let x := s.trunk.copyPolicy n
      if x.v 2 % 4096 = 0 ∨ consistent x.prof = false ∨ x.mapsOk = false ∨ x.kOk = false ∨
          65536 < 80 * ((x.leafBytes + 63) / 64) + 24 then a.abort = 0x06 ∧ a.dev = (s.unit .trunk).heard e
      else a.abort = 0 ∧ a.dev.get (polKey n 1) = 1 ∧
        (s.trunk.on (polKey n 1) = false → (a.dev.pol n).epoch = s.trunk.now ∧ (a.dev.pol n).last = []) ∧
        ((s.unit .trunk).heard e).objectsKept a.dev [polKey n 1]) ∧
  (∀ (s : State) (e : Env) (n : Nat), s.built → s.runs .trunk → n < 16 → s.trunk.tk.rec_.pols.length = 16 →
    (s.unit .trunk).accepts e (0x4320 + n) 1 0 →
    Answers (exec (.policyDisable e n) s) s .trunk e 0x02 (0x4320 + n) 1 0 fun a =>
      a.abort = 0 ∧ a.dev.get (polKey n 1) = 0 ∧ (∀ c ∈ a.dev.tk.rec_.caps, c.pol.n ≠ n) ∧
      ∀ c ∈ s.trunk.tk.rec_.caps, c.pol.n ≠ n → c ∈ a.dev.tk.rec_.caps) ∧
  (∀ (s : State) (n port slot i : Nat) (busy : Bool), s.built → s.runs .trunk → n < 16 → s.trunk.tk.rec_.pols.length = 16 →
    s.trunk.on 0x4301_01 = true → s.trunk.on (polKey n 1) = true → s.trunk.slotOf (s.trunk.get (polKey n 2) % 4096) [2, 3] = some slot →
    (sortBy Nat.ble (s.trunk.membersAt slot (s.trunk.windowsClosed slot))).findIdx? (· = port) = some i →
    s.trunk.boundaryAt slot (s.trunk.armDue n port i (sortBy Nat.ble (s.trunk.membersAt slot (s.trunk.windowsClosed slot))).length) ≤ s.trunk.now →
    s.trunk.get 0x4304_01 + 1 < 2 ^ 64 → s.trunk.get 0x4304_02 + 1 < 2 ^ 32 →
    Yields (exec (.arm n port busy) s) s .trunk fun d =>
      if s.trunk.armSkipped n port = true ∨ busy = true then
        d.get 0x4304_02 = s.trunk.get 0x4304_02 + 1 ∧ d.tk.rec_.shots = s.trunk.tk.rec_.shots ∧ (d.pol n).arms = (s.trunk.pol n).arms
      else d.get 0x4304_01 = s.trunk.get 0x4304_01 + 1 ∧ (d.pol n).arms = (s.trunk.pol n).arms + 1 ∧
        ⟨port, s.trunk.copyPolicy n, (armTag (s.trunk.copyPolicy n) (s.trunk.pol n).arms).1, (armTag (s.trunk.copyPolicy n) (s.trunk.pol n).arms).2⟩
          ∈ d.tk.rec_.shots) ∧
  (∀ (s : State) (port src : Nat) (pk : List PortAccess) (done : DigestMsg) (w : Option DigestMsg), s.built → s.runs .trunk →
    (s.trunk.tk.rec_.serves.find? fun x => x.port = port && x.src = src && done.tag &&& x.mask = x.tag) = none →
    s.trunk.get 0x4304_03 + 1 < 2 ^ 64 → s.trunk.get 0x4304_04 + 1 < 2 ^ 32 →
    Yields (exec (.captureAssembly port src pk done w) s) s .trunk fun d =>
      match s.trunk.tk.rec_.shots.find? fun x => x.port = port && x.pol.v 3 = src && done.tag &&& x.mask = x.tag with
      | none => d = (s.unit .trunk)
      | some x =>
        d.tk.rec_.shots = s.trunk.tk.rec_.shots.erase x ∧
        (x.pol.assemble done.tag pk = none ∨ captureWhole pk done = false →
          d.get 0x4304_04 = s.trunk.get 0x4304_04 + 1 ∧ (d.get 0x4302_00).testBit 3 = true ∧ d.tk.rec_.caps = s.trunk.tk.rec_.caps) ∧
        (∀ ops, x.pol.assemble done.tag pk = some ops → captureWhole pk done = true → x.pol.served = false →
          d.get 0x4304_03 = s.trunk.get 0x4304_03 + 1 ∧
          ((∃ c ∈ d.tk.rec_.caps, c.id = s.trunk.tk.rec_.nextId ∧ c.ops = ops ∧ c.tag = done.tag ∧ c.port = port ∧ c.wait = none) ∨
            (d.get 0x4302_00).testBit 4 = true))) ∧
  (∀ (s : State) (h : RecomputeHead) (b : Bytes) (busy : Bool), s.built → s.runs .trunk → addrTrunk h.weightLeaf = s.trunk.get 0x3100_01 →
    h.weightLeaf.testBit 20 = false → h.source ≤ 15 →
    Yields (exec (.weightRequest h b busy) s) s .trunk fun d =>
      let same (x : ServeSt) : Bool :=
        x.port = h.weightLeaf % 256 && x.src = h.source && x.tag = h.tag && x.mask = h.tagMask
      if s.trunk.tk.rec_.serves.any same = true then
        d.tk.rec_.serves = s.trunk.tk.rec_.serves.map fun x => if same x then { x with reqs := x.reqs ++ [(h, b)] } else x
      else if busy = true then d.tk.rec_.serves = s.trunk.tk.rec_.serves
      else ⟨h.weightLeaf % 256, h.source, h.tag, h.tagMask, [(h, b)]⟩ ∈ d.tk.rec_.serves) ∧
  (∀ (s : State) (h : RecomputeHead) (crc begin : Nat) (tile : Bytes) (c : StagedSt), s.built → s.runs .trunk →
    s.trunk.tk.rec_.caps = [c] → c.wait.isSome = true → c.pol.v 0x10 = h.weightLeaf → c.pol.v 0x11 = h.source →
    c.pol.key c.tag = h.tag →
    Yields (exec (.weightTile h 0 crc begin tile) s) s .trunk fun d =>
      ⟨h.weightLeaf, h.source, h.tag, crc, begin, s.trunk.now, tile⟩ ∈ d.tk.rec_.tiles ∧
      (c.agrees tile = true → d.tk.rec_.caps = [c.take tile]) ∧
      (c.agrees tile = false → d.tk.rec_.caps = [] ∧ (s.trunk.recHost = false → d.get 0x4305_0F = 3))) ∧
  (∀ (s : State) (id t : Nat) (c : StagedSt), s.built → s.runs .trunk → s.trunk.capture id = some c → c.wait = some t →
    t + s.trunk.get 0x4301_05 ≤ s.trunk.now →
    Yields (exec (.weightWaitTimeout id) s) s .trunk fun d =>
      d.tk.rec_.caps = s.trunk.tk.rec_.caps.filter (·.id != id) ∧ (d.get 0x4302_00).testBit 4 = true) ∧
  (∀ (s : State) (id : Nat) (c : StagedSt) (up1 up2 : List (Nat × Nat)), s.built → s.runs .trunk → s.trunk.capture id = some c →
    c.wait = none → s.trunk.classHeld 5 = false → s.trunk.noAnalysis = false → s.trunk.get 0x4304_05 + 1 < 2 ^ 64 →
    s.trunk.get 0x4304_06 + 1 < 2 ^ 64 → s.trunk.get 0x4304_07 + 1 < 2 ^ 64 → s.trunk.get 0x4304_0C + 1 < 2 ^ 64 →
    Yields (exec (.compare id up1 up2) s) s .trunk fun d =>
      let w := fmtBits (pv c.pol.prof 0x10)
      let r := c.operands.result c.pol.prof
      if s.trunk.recHost = true then d.get 0x4304_0C = s.trunk.get 0x4304_0C + 1 ∧ d.tk.rec_.caps = s.trunk.tk.rec_.caps.filter (·.id != c.id)
      else d.get 0x4304_05 = s.trunk.get 0x4304_05 + 1 ∧
        if mismatches c.pol.prof c.host (upset w up1 r) = [] then
          d.tk.rec_.caps = s.trunk.tk.rec_.caps.filter (·.id != c.id) ∧
          (c.host = upset w up1 r → d.get 0x4304_06 = s.trunk.get 0x4304_06 + 1) ∧
          (c.host ≠ upset w up1 r → d.get 0x4304_07 = s.trunk.get 0x4304_07 + 1)
        else d.get 0x4305_0F = (if s.trunk.on 0x4301_02 = true ∧ upset w up2 r ≠ upset w up1 r then 2 else 1))

/-- WEIGHT_DIGEST_ENABLE that the trunk accepts: STATE where no slot serves its group or the slot's Straggler engine is
off, else it is enabled and no slot changes. WEIGHT_DIGEST_COMPARE at an enabled WeightDigest, of members of the
group: where every member holds the same sequence only its step count changes, by the number of sequences; where no
sequence is held by more than half of them, NoQuorum counts it and nothing else changes. (R562) -/
def Obligations.WeightDigestsAreComparedAcrossDies : Prop :=
  (∀ (s : State) (e : Env) (n : Nat), s.built → s.runs .trunk → n < 4 → (s.unit .trunk).accepts e (0x4340 + n) 1 1 →
    Answers (exec (.weightDigestEnable e n) s) s .trunk e 0x02 (0x4340 + n) 1 0 fun a =>
      match s.trunk.slotOf (s.trunk.get (key (0x4340 + n) 2) % 4096) [2, 3] with
      | none => a.abort = 0x07 ∧ a.dev = (s.unit .trunk).heard e
      | some k => if s.trunk.scon k 1 = 0 then a.abort = 0x07 ∧ a.dev = (s.unit .trunk).heard e
          else a.abort = 0 ∧ a.dev.get (key (0x4340 + n) 1) = 1 ∧ a.dev.tk.red = s.trunk.tk.red) ∧
  (∀ (s : State) (n slot step : Nat) (l : List (Nat × Nat × List Nat)), s.built → s.runs .trunk → n < 4 →
    s.trunk.on (key (0x4340 + n) 1) = true → s.trunk.slotOf (s.trunk.get (key (0x4340 + n) 2) % 4096) [2, 3] = some slot → l ≠ [] →
    (∀ x ∈ l, ∃ m ∈ (s.trunk.slot slot).members, m.port = x.1) → s.trunk.get (key (0x4340 + n) 4) + l.length < 2 ^ 64 →
    s.trunk.get (key (0x4340 + n) 6) + 1 < 2 ^ 32 →
    Yields (exec (.weightDigestCompare n step l) s) s .trunk fun d =>
      d.get (key (0x4340 + n) 4) = s.trunk.get (key (0x4340 + n) 4) + l.length ∧
      ((∃ q, ∀ x ∈ l, x.2.2 = q) → (s.unit .trunk).objectsKept d [key (0x4340 + n) 4]) ∧
      (2 * holders (reference l) l ≤ l.length → d.get (key (0x4340 + n) 6) = s.trunk.get (key (0x4340 + n) 6) + 1 ∧
        (s.unit .trunk).objectsKept d [key (0x4340 + n) 4, key (0x4340 + n) 6]))

/-- TEST_PACK_WRITE: STATE while field test is enabled or a test runs, RANGE for a pack that breaks its rules, else the
pack and its count are held. TEST_START where tests may start: in mode HW the due tap's test at its cursor runs from
this tick, in mode HOST the test that RunTest named; ft_take is driven and the start counted. FT_DONE of a test:
PASS where ft_sig is the expected signature, else FAIL with flag 0. FT_RECLAIM: RECLAIMED. TEST_PREEMPTED with
TestAllowed 0: PREEMPTED. TEST_TIMEOUT at the deadline: TIMEOUT with flag 1. Each end is counted under its outcome,
no test runs, and the result is READY with tap and outcome; FT_DONE's holds ft_sig. RUN_TEST: STATE in mode HW,
RANGE for an entry, variant or tap that does not exist or match, BUSY while one is asked for or runs, else it is
asked for. HOST_WAIT_TIMEOUT: none is asked for, and the result has outcome 6. (R574, R575, R576, R577, R578, R579,
R580, R581, R584, R585) -/
def Obligations.FieldTestsStartEndAndReport : Prop :=
  (∀ (s : State) (l : LeafId) (e : Env) (b : Bytes), s.built → s.runs (.leaf l) →
    (s.unit (.leaf l)).acceptsDomain e 0x4402 0 b →
    Answers (exec (.testPackWrite l e b) s) s (.leaf l) e 0x02 0x4402 0 0 fun a =>
      if (s.dev (.leaf l)).on 0x4401_01 = true ∨ (s.dev (.leaf l)).ftest.run.isSome = true then a.abort = 0x07 ∧ a.dev = (s.unit (.leaf l)).heard e
      else if packOk b = false then a.abort = 0x06 ∧ a.dev = (s.unit (.leaf l)).heard e
      else a.abort = 0 ∧ a.dev.blob 0x4402_00 = b ∧ a.dev.get 0x4403_03 = natAt b 6 2 ∧ a.dev.ftest.taps = []) ∧
  (∀ (s : State) (l : LeafId) (t : Nat), s.built → s.runs (.leaf l) →
    (s.dev (.leaf l)).testsMay = true → (s.dev (.leaf l)).testHost = false → (s.dev (.leaf l)).dueTap = some t → (s.dev (.leaf l)).get 0x4404_01 + 1 < 2 ^ 64 →
    Yields (exec (.testStart l) s) s (.leaf l) fun d =>
      (∃ x, d.ftest.run = some x ∧ x.tap = t ∧ x.entry = (s.dev (.leaf l)).entryAtCursor t ∧ x.start = (s.dev (.leaf l)).stamp ∧ x.host = false) ∧
      .pin .ftTake t 1 ∈ d.out ∧ d.get 0x4401_06 = 1 ∧ d.get 0x4404_01 = (s.dev (.leaf l)).get 0x4404_01 + 1) ∧
  (∀ (s : State) (l : LeafId) (t i v z : Nat), s.built → s.runs (.leaf l) →
    (s.dev (.leaf l)).testsMay = true → (s.dev (.leaf l)).testHost = true → (s.dev (.leaf l)).ftest.asked = some (t, i, v, z) → t ∈ (s.dev (.leaf l)).ftest.offers →
    Yields (exec (.testStart l) s) s (.leaf l) fun d =>
      (∃ x, d.ftest.run = some x ∧ x.tap = t ∧ x.entry = i ∧ x.variant = v ∧ x.start = (s.dev (.leaf l)).stamp ∧ x.host = true) ∧
      d.ftest.asked = none ∧ .pin .ftTake t 1 ∈ d.out ∧ d.get 0x4401_06 = 1) ∧
  (∀ (s : State) (l : LeafId) (x : TestRun) (sig : BitVec 32), s.built → s.runs (.leaf l) →
    (s.dev (.leaf l)).ftest.run = some x → x.tap < 256 → (s.dev (.leaf l)).get 0x4404_02 + 1 < 2 ^ 64 → (s.dev (.leaf l)).get 0x4404_03 + 1 < 2 ^ 32 →
    Yields (exec (.ftDone l sig) s) s (.leaf l) fun d =>
      d.ftest.run = none ∧ d.ftest.lastEnd = some (s.dev (.leaf l)).stamp ∧ d.get 0x4405_01 = 2 ∧ d.get 0x4405_04 = x.tap ∧
      d.get 0x4405_09 = sig.toNat ∧ d.get 0x4401_06 = 0 ∧
      if (s.dev (.leaf l)).expectedSig = some sig.toNat then d.get 0x4405_07 = 0 ∧ d.get 0x4404_02 = (s.dev (.leaf l)).get 0x4404_02 + 1
      else d.get 0x4405_07 = 1 ∧ d.get 0x4404_03 = (s.dev (.leaf l)).get 0x4404_03 + 1 ∧ (d.get 0x4406_00).testBit 0 = true) ∧
  (∀ (s : State) (l : LeafId) (x : TestRun), s.built → s.runs (.leaf l) →
    (s.dev (.leaf l)).ftest.run = some x → x.tap < 256 → (s.dev (.leaf l)).get 0x4404_05 + 1 < 2 ^ 32 →
    Yields (exec (.ftReclaim l) s) s (.leaf l) fun d =>
      d.ftest.run = none ∧ d.get 0x4405_01 = 2 ∧ d.get 0x4405_04 = x.tap ∧ d.get 0x4405_07 = 3 ∧
      d.get 0x4404_05 = (s.dev (.leaf l)).get 0x4404_05 + 1 ∧ .pin .ftAbort x.tap 1 ∈ d.out) ∧
  (∀ (s : State) (l : LeafId) (x : TestRun), s.built → s.runs (.leaf l) →
    (s.dev (.leaf l)).ftest.run = some x → x.tap < 256 → (s.dev (.leaf l)).get 0x2406_04 = 0 → (s.dev (.leaf l)).get 0x4404_06 + 1 < 2 ^ 32 →
    Yields (exec (.testPreempted l) s) s (.leaf l) fun d =>
      d.ftest.run = none ∧ d.get 0x4405_01 = 2 ∧ d.get 0x4405_04 = x.tap ∧ d.get 0x4405_07 = 4 ∧
      d.get 0x4404_06 = (s.dev (.leaf l)).get 0x4404_06 + 1 ∧ .pin .ftAbort x.tap 1 ∈ d.out) ∧
  (∀ (s : State) (l : LeafId) (x : TestRun), s.built → s.runs (.leaf l) →
    (s.dev (.leaf l)).ftest.run = some x → x.tap < 256 → (s.dev (.leaf l)).testDeadline x ≤ (s.dev (.leaf l)).stamp → (s.dev (.leaf l)).get 0x4404_04 + 1 < 2 ^ 32 →
    Yields (exec (.testTimeout l) s) s (.leaf l) fun d =>
      d.ftest.run = none ∧ d.get 0x4405_01 = 2 ∧ d.get 0x4405_04 = x.tap ∧ d.get 0x4405_07 = 2 ∧ d.get 0x4405_09 = 0 ∧
      d.get 0x4404_04 = (s.dev (.leaf l)).get 0x4404_04 + 1 ∧ (d.get 0x4406_00).testBit 1 = true ∧ .pin .ftAbort x.tap 1 ∈ d.out) ∧
  (∀ (s : State) (l : LeafId) (e : Env) (v : BitVec 32), s.built → s.runs (.leaf l) →
    (s.unit (.leaf l)).accepts e 0x4401 7 v.toNat →
    Answers (exec (.runTest l e v) s) s (.leaf l) e 0x02 0x4401 7 0 fun a =>
      let i := v.toNat % 65536
      let w := v.toNat / 65536 % 256
      let t := v.toNat / 2 ^ 24
      if (s.dev (.leaf l)).testHost = false then a.abort = 0x07 ∧ a.dev = (s.unit (.leaf l)).heard e
      else if (s.dev (.leaf l)).get 0x4403_03 ≤ i ∨ packAt ((s.dev (.leaf l)).blob 0x4402_00) i 6 1 ≤ w ∨ (s.dev (.leaf l)).cfg.taps.length ≤ t ∨ i ∉ (s.dev (.leaf l)).testsOf t then
        a.abort = 0x06 ∧ a.dev = (s.unit (.leaf l)).heard e
      else if (s.dev (.leaf l)).ftest.asked.isSome = true ∨ (s.dev (.leaf l)).ftest.run.any (·.host) = true then a.abort = 0x09 ∧ a.dev = (s.unit (.leaf l)).heard e
      else a.abort = 0 ∧ a.dev = { (s.unit (.leaf l)).heard e with ftest := { (s.dev (.leaf l)).ftest with asked := some (t, i, w, (s.dev (.leaf l)).now) } }) ∧
  (∀ (s : State) (l : LeafId) (t i v z : Nat), s.built → s.runs (.leaf l) →
    (s.dev (.leaf l)).ftest.asked = some (t, i, v, z) → z + (s.dev (.leaf l)).get 0x4401_08 ≤ (s.dev (.leaf l)).now → t < 256 →
    Yields (exec (.hostWaitTimeout l) s) s (.leaf l) fun d =>
      d.ftest = { (s.dev (.leaf l)).ftest with asked := none } ∧ d.get 0x4405_01 = 2 ∧ d.get 0x4405_04 = t ∧ d.get 0x4405_07 = 6)

/-- SHADOW_PAIR_ENABLE: RANGE for leaves elsewhere or twice the same, STATE for a source in use, else enabled.
SHADOW_DIGEST at an enabled pair: with no partner it waits; with one, both are taken and the pair's comparisons
count; digests that differ count a mismatch and set flag 0. PAIR_SKEW_TIMEOUT: those too old are discarded and
counted. VSF_RECORD: a good record is counted and is LastSignature, another is counted as bad with flag 2. SEAL of a
descriptor that may run, reserved bytes zero, its range accessible: OK and one more record in the log, or status 1
and nothing logged; memory is unchanged. TO_TEXT of a good record that fits: OK with the length, and the text, and
nothing else, written at the destination. FROM_TEXT of a line that spells a good record: OK and its 64 bytes
written; of another line status 2, and memory unchanged. (R586, R587, R588, R589, R590, R592, R593) -/
def Obligations.ShadowsArePairedAndSignaturesLogged : Prop :=
  (∀ (s : State) (e : Env) (n : Nat), s.built → s.runs .trunk → n < 16 → (s.unit .trunk).accepts e (0x4420 + n) 1 1 →
    Answers (exec (.shadowPairEnable e n) s) s .trunk e 0x02 (0x4420 + n) 1 0 fun a =>
      match s.trunk.portOf (s.trunk.get (pairKey n 2)), s.trunk.portOf (s.trunk.get (pairKey n 4)) with
      | some p, some q =>
        if p = q then a.abort = 0x06 ∧ a.dev = (s.unit .trunk).heard e
        else if s.trunk.sourceUsed n p (s.trunk.get (pairKey n 3)) = true ∨ s.trunk.sourceUsed n q (s.trunk.get (pairKey n 5)) = true then
          a.abort = 0x07 ∧ a.dev = (s.unit .trunk).heard e
        else a.abort = 0 ∧ a.dev.get (pairKey n 1) = 1 ∧ ((s.unit .trunk).heard e).objectsKept a.dev [pairKey n 1]
      | _, _ => a.abort = 0x06 ∧ a.dev = (s.unit .trunk).heard e) ∧
  (∀ (s : State) (n : Nat) (sub : Bool) (m : DigestMsg), s.built → s.runs .trunk → n < 16 → s.trunk.on (pairKey n 1) = true →
    s.trunk.get (pairKey n 9) + 1 < 2 ^ 64 → s.trunk.get (pairKey n 0xA) + 1 < 2 ^ 32 →
    Yields (exec (.shadowDigest n sub m) s) s .trunk fun d =>
      match s.trunk.tk.sig.pairs.find? fun x => x.1 = n && x.2.subject != sub && pairUp (s.trunk.get (pairKey n 8)) x.2.msg m with
      | none => d.tk.sig.pairs = s.trunk.tk.sig.pairs ++ [(n, { subject := sub, msg := m, arrived := s.trunk.now })] ∧ d.objs = s.trunk.objs
      | some x => d.tk.sig.pairs = s.trunk.tk.sig.pairs.erase x ∧ d.get (pairKey n 9) = s.trunk.get (pairKey n 9) + 1 ∧
          (x.2.msg.digest = m.digest → x.2.msg.bytes = m.bytes → (s.unit .trunk).objectsKept d [pairKey n 9]) ∧
          (x.2.msg.digest ≠ m.digest → (s.trunk.portOf (s.trunk.get (pairKey n 2))).isSome = true →
            d.get (pairKey n 0xA) = s.trunk.get (pairKey n 0xA) + 1 ∧ (d.get 0x4432_00).testBit 0 = true)) ∧
  (∀ (s : State) (n : Nat), s.built → s.runs .trunk → n < 16 →
    Yields (exec (.pairSkewTimeout n) s) s .trunk fun d =>
      let late (x : Nat × ShadowSt) : Bool := x.1 = n && x.2.arrived + s.trunk.get (pairKey n 8) ≤ s.trunk.now
      d.tk.sig.pairs = s.trunk.tk.sig.pairs.filter (fun x => !late x) ∧
      (s.trunk.get (pairKey n 0xB) + (s.trunk.tk.sig.pairs.filter late).length < 2 ^ 32 →
        d.get (pairKey n 0xB) = s.trunk.get (pairKey n 0xB) + (s.trunk.tk.sig.pairs.filter late).length)) ∧
  (∀ (s : State) (p : Nat) (b : Bytes), s.built → s.runs .trunk → p ≤ 255 → s.trunk.get 0x4430_02 + 1 < 2 ^ 32 →
    s.trunk.get 0x4430_03 + 1 < 2 ^ 32 →
    Yields (exec (.vsfRecord p b) s) s .trunk fun d =>
      if vsfGood b = true then d.get 0x4430_02 = s.trunk.get 0x4430_02 + 1 ∧ d.get 0x4431_01 = 2 ∧
        d.get 0x4431_04 = natAt b 5 1 ∧ d.blob 0x4431_06 = b
      else d.get 0x4430_03 = s.trunk.get 0x4430_03 + 1 ∧ (d.get 0x4432_00).testBit 2 = true ∧
        d.blob 0x4430_05 = s.trunk.blob 0x4430_05) ∧
  (∀ (s : State) (r i : Nat) (x : DescSt), s.built → s.runs .trunk → (s.unit .trunk).mayRun r i 9 1 x →
    reservedFrom x [(1, 3), (4, 4), (16, 32)] = true → (s.unit .trunk).mayAccess x [(natAt x.bytes 24 8, 56)] →
    s.trunk.get 0x4430_02 + 1 < 2 ^ 32 →
    YieldsMem (exec (.seal r i) s) s fun d m => m = s.mem ∧
      let b := sealVsf (s.trunk.load_ s.mem (natAt x.bytes 24 8) 56)
      if vsfGood b = true then d.resultOf r i = some (statusOnly 0) ∧ d.get 0x4430_02 = s.trunk.get 0x4430_02 + 1 ∧
        d.blob 0x4431_06 = b
      else d.resultOf r i = some (statusOnly 1) ∧ d.objs = s.trunk.objs ∧ d.blobs = s.trunk.blobs) ∧
  (∀ (s : State) (r i : Nat) (x : DescSt), Mem.wf s.mem = true → s.runs .trunk → (s.unit .trunk).mayRun r i 9 2 x →
    reservedFrom x [(1, 3), (24, 24)] = true →
    (s.unit .trunk).mayAccess x [(natAt x.bytes 24 8, 64), (natAt x.bytes 32 8, natAt x.bytes 20 4)] →
    YieldsMem (exec (.toText r i) s) s fun d m =>
      let b := s.trunk.load_ s.mem (natAt x.bytes 24 8) 64
      let t := (vsfOf b).text
      if vsfGood b = false then d.resultOf r i = some (statusOnly 1) ∧ m = s.mem
      else if natAt x.bytes 20 4 < t.length then d.resultOf r i = some (statusOnly 3) ∧ m = s.mem
      else d.resultOf r i = some (resultBlock 0 t.length 0 0) ∧ Mem.holds s.mem m (natAt x.bytes 32 8) t) ∧
  (∀ (s : State) (r i : Nat) (x : DescSt), Mem.wf s.mem = true → s.runs .trunk → (s.unit .trunk).mayRun r i 9 3 x →
    reservedFrom x [(1, 3), (24, 24)] = true → natAt x.bytes 20 4 ≤ 255 →
    (s.unit .trunk).mayAccess x [(natAt x.bytes 24 8, natAt x.bytes 20 4), (natAt x.bytes 32 8, 64)] →
    YieldsMem (exec (.fromText r i) s) s fun d m =>
      match vsfFromText (s.trunk.load_ s.mem (natAt x.bytes 24 8) (natAt x.bytes 20 4)) with
      | none => d.resultOf r i = some (statusOnly 2) ∧ m = s.mem
      | some v => v.ok = true → d.resultOf r i = some (statusOnly 0) ∧ Mem.holds s.mem m (natAt x.bytes 32 8) v.bytes)

/-- BOOT of a trunk in ROM, with no configuration image: where a check of R598 fails, Quickset mode with that reason and
memory unchanged; else it runs and reports the version of its image, and SPRIG_RUNTIME, where it loads, is in memory
and nothing else of memory changes. IMAGE_FETCH at the next Offset: with MORE, the bytes are kept and the READ of
the next ones is sent; else the leaf runs the image, or enters Quickset mode with the reason; at another Offset
nothing changes. FETCH_RETRY: again from Offset 0. FETCH_TIMEOUT after 10 s in ROM: Quickset mode, reason 8.
BOOT_ATTEMPTS_CLEAR 10 s after firmware started: BootAttempts is 0 and nothing else changes. WATCHDOG of a trunk: it
is reset with the cause, and BootAttempts is one more; of a leaf: UpdateFlags bit 0, and the leaf waits for its
flush. WATCHDOG_FLUSH_LIMIT 2 ms later: the reset; before, nothing. (R598, R600, R601, R608, R609, R649) -/
def Obligations.UnitsFetchAndStartTheirImages : Prop :=
  (∀ (s : State), Mem.wf s.mem = true → s.built → s.runs .trunk → s.trunk.boot.rom = true → s.trunk.tk.flash.conf = [] →
    YieldsMem (exec .boot s) s fun d m =>
      let reason := s.trunk.bootFault 2 (s.trunk.storedImage 2)
      let c := s.trunk.storedImage 3
      d.boot.rom = false ∧
      if reason ≠ 0 then d.get 0x1801_01 = 1 ∧ d.get 0x1801_02 = reason ∧ m = s.mem
      else d.get 0x1801_01 = 0 ∧ d.get 0x1812_01 = imageVersion (s.trunk.storedImage 2) ∧
        if d.get 0x1813_04 = 0 then Mem.holds s.mem m runtimeBase (bytesAt c 512 (natAt c 20 4)) else m = s.mem) ∧
  (∀ (s : State) (l : LeafId) (off : Nat) (data : Bytes) (more : Bool), s.built → s.runs (.leaf l) → (s.dev (.leaf l)).boot.rom = true →
    Yields (exec (.imageFetch l off data more) s) s (.leaf l) fun d =>
      let got := (s.dev (.leaf l)).boot.fetch ++ data
      let reason := (s.dev (.leaf l)).bootFault 1 (got.drop 4)
      if off ≠ (s.dev (.leaf l)).boot.fetch.length then d = (s.unit (.leaf l))
      else if more = true then d.boot = { (s.dev (.leaf l)).boot with fetch := got } ∧ d.objs = (s.dev (.leaf l)).objs ∧
        ∃ r, d.out = [.request .service 0 r] ∧ r.opcode = 1 ∧ r.index = 0x1821 ∧ r.offset = got.length ∧ r.length = 1024
      else d.boot.rom = false ∧
        (reason = 0 → d.get 0x1801_01 = 0 ∧ d.get 0x1811_01 = imageVersion (got.drop 4)) ∧
        (reason ≠ 0 → d.get 0x1801_01 = 1 ∧ d.get 0x1801_02 = reason)) ∧
  (∀ (s : State) (l : LeafId), s.runs (.leaf l) → (s.dev (.leaf l)).boot.rom = true →
    Yields (exec (.fetchRetry l) s) s (.leaf l) fun d => d.boot = { (s.dev (.leaf l)).boot with fetch := [] } ∧ d.objs = (s.dev (.leaf l)).objs ∧
      ∃ r, d.out = [.request .service 0 r] ∧ r.opcode = 1 ∧ r.index = 0x1821 ∧ r.offset = 0 ∧ r.length = 1024) ∧
  (∀ (s : State) (l : LeafId), s.built → s.runs (.leaf l) → (s.dev (.leaf l)).boot.rom = true → 10000000000 ≤ (s.dev (.leaf l)).now →
    Yields (exec (.fetchTimeout l) s) s (.leaf l) fun d =>
      d.boot.rom = false ∧ d.get 0x1801_01 = 1 ∧ d.get 0x1801_02 = 8 ∧ (s.unit (.leaf l)).objectsKept d [0x1801_01, 0x1801_02]) ∧
  (∀ (s : State) (u : UnitId), s.runs u → (s.dev u).running = true → (s.dev u).get 0x1801_04 + 10000000000 ≤ (s.dev u).now →
    Yields (exec (.bootAttemptsClear u) s) s u fun d => d.get 0x1801_03 = 0 ∧ (s.unit u).onlyObjects d [0x1801_03]) ∧
  (∀ (s : State) (sram : Bool), s.built → s.runs .trunk → s.trunk.boot.dying = none → (sram = true ∨ s.trunk.running = true) →
    s.trunk.get 0x1801_03 + 1 < 2 ^ 8 →
    Yields (exec (.watchdog .trunk sram) s) s .trunk fun d =>
      d.boot.rom = true ∧ d.timeFresh ∧ d.get 0x1002_01 = (if sram = true then 4 else 3) ∧
      d.get 0x1801_03 = s.trunk.get 0x1801_03 + 1) ∧
  (∀ (s : State) (l : LeafId) (sram : Bool), s.built → s.runs (.leaf l) → (s.dev (.leaf l)).boot.dying = none →
    (sram = true ∨ (s.dev (.leaf l)).running = true) →
    Yields (exec (.watchdog (.leaf l) sram) s) s (.leaf l) fun d =>
      d.boot.dying = some ((s.dev (.leaf l)).now, sram) ∧ (d.get 0x1804_00).testBit 0 = true ∧ d.ftest.run = none) ∧
  (∀ (s : State) (l : LeafId) (t : Nat) (sram : Bool), s.built → s.runs (.leaf l) → (s.dev (.leaf l)).boot.dying = some (t, sram) →
    (s.dev (.leaf l)).get 0x1801_03 + 1 < 2 ^ 8 →
    Yields (exec (.watchdogFlushLimit l) s) s (.leaf l) fun d =>
      if t + 2000000 ≤ (s.dev (.leaf l)).now then d.boot.rom = true ∧ d.boot.dying = none ∧ d.timeFresh ∧
        d.get 0x1002_01 = (if sram = true then 4 else 3) ∧ d.get 0x1801_03 = (s.dev (.leaf l)).get 0x1801_03 + 1
      else d = (s.unit (.leaf l)))

/-- QUICKSET_IMAGE that a unit accepts: STATE over another port than the drop of a leaf or the service port of a trunk;
RANGE with the reason of a failed check as QuicksetReason; else a leaf runs the image, and a trunk holds it in its
slot and is reset with cause 6. BOOT_STATE_POLL in mode HW of one drop that has been seen: its BootState is asked
for; a drop that is in Quickset mode is marked pushed and, if it was not marked, gets the stored leaf image; one
that is not is no longer marked; a drop at the address of the leaf that Layering waits for, in Quickset mode, halts
Layering with reason 2. In mode HOST, or before firmware runs, nothing. QUICKSET_PUSH that the trunk accepts: RANGE
for a drop not from 1 to 16, else the stored leaf image is written to QuicksetImage of that drop, in the messages of
its segments. (R54, R611, R612, R618) -/
def Obligations.QuicksetDownloadsAreCheckedAndPushed : Prop :=
  (∀ (s : State) (l : LeafId) (e : Env) (b : Bytes), s.built → s.runs (.leaf l) → (s.unit (.leaf l)).acceptsDomain e 0x1830 0 b →
    Answers (exec (.quicksetImage (.leaf l) e b) s) s (.leaf l) e 0x02 0x1830 0 0 fun a =>
      if e.via ≠ .service then a.abort = 0x07 ∧ a.dev = (s.unit (.leaf l)).heard e
      else if (s.dev (.leaf l)).cfg.imageFault 1 b ≠ 0 then a.abort = 0x06 ∧ a.dev.get 0x1801_02 = (s.dev (.leaf l)).cfg.imageFault 1 b ∧
        ((s.unit (.leaf l)).heard e).onlyObjects a.dev [0x1801_02]
      else a.abort = 0 ∧ a.dev.boot.rom = false ∧ a.dev.get 0x1801_01 = 0 ∧ a.dev.get 0x1811_01 = imageVersion b) ∧
  (∀ (s : State) (e : Env) (b : Bytes), s.built → s.runs .trunk → (s.unit .trunk).acceptsDomain e 0x1830 0 b →
    s.trunk.tk.flash.slots.length = 5 → s.trunk.writing = false →
    Answers (exec (.quicksetImage .trunk e b) s) s .trunk e 0x02 0x1830 0 0 fun a =>
      if e.via ≠ .servicePort then a.abort = 0x07 ∧ a.dev = (s.unit .trunk).heard e
      else if s.trunk.cfg.imageFault 2 b ≠ 0 then a.abort = 0x06 ∧ a.dev.get 0x1801_02 = s.trunk.cfg.imageFault 2 b ∧
        ((s.unit .trunk).heard e).onlyObjects a.dev [0x1801_02]
      else a.wait = true ∧ a.dev.boot.rom = true ∧ a.dev.get 0x1002_01 = 6 ∧ slotBytes (a.dev.slotOfType 2) b.length = b) ∧
  (∀ (s : State) (g n address state : Nat), s.built → s.runs .trunk → g < 16 → 1 ≤ n → n ≤ 16 →
    (s.trunk.get (key (0x1110 + g) 4)).testBit n = true →
    Yields (exec (.bootStatePoll [(g, n, address, state)]) s) s .trunk fun d =>
      if s.trunk.running = false ∨ s.trunk.updateHost = true then d = (s.unit .trunk)
      else (∃ r, d.out.head? = some (.toDrop g n r) ∧ r.opcode = 1 ∧ r.index = 0x1801 ∧ r.sub = 1) ∧
        (state ≠ 1 → d.boot.pushed = s.trunk.boot.pushed.filter (· != (g, n)) ∧ d.out.length = 1) ∧
        (state = 1 → (g, n) ∈ d.boot.pushed ∧
          d.out.length = 1 + if s.trunk.boot.pushed.contains (g, n) = true then 0 else
            (writeSegments (leBytes 4 (s.trunk.storedImage 1).length ++ s.trunk.storedImage 1)).length) ∧
        (state = 1 → s.trunk.layerAwaits (s.trunk.get 0x1803_03) = true → address = s.trunk.leafAddress (s.trunk.get 0x1803_03) →
          d.get 0x1803_02 = 5 ∧ d.get 0x1803_06 = 2 ∧ (d.get 0x1804_00).testBit 3 = true)) ∧
  (∀ (s : State) (e : Env) (v : Nat), s.built → s.runs .trunk → (s.unit .trunk).accepts e 0x1803 7 v →
    Answers (exec (.quicksetPush e v) s) s .trunk e 0x02 0x1803 7 0 fun a =>
      let b := leBytes 4 (s.trunk.storedImage 1).length ++ s.trunk.storedImage 1
      if v % 32 = 0 ∨ 16 < v % 32 then a.abort = 0x06 ∧ a.dev = (s.unit .trunk).heard e
      else a.abort = 0 ∧ a.dev.objs = s.trunk.objs ∧ a.dev.out.length = (writeSegments b).length ∧
        ∀ o ∈ a.dev.out, ∃ r, o = .toDrop (v / 2 ^ 8 % 2 ^ 4) (v % 32) r ∧ r.opcode = 2 ∧ r.index = 0x1830 ∧
          ∃ c ∈ writeSegments b, r.offset = c.1 ∧ r.data = c.2.1 ∧ r.flags = if c.2.2 = true then 2 else 0)

/-- TARGET_WRITE: STATE while WRITING, else the target, STAGING, no stage. COMMIT: RANGE for a value but 1, STATE in
mode HOST or while WRITING, RANGE for a stage that does not fit the target, else WRITING of the stage.
SECTOR_WRITTEN while WRITING: the next sector holds the bytes if they read back; after the last, WRITTEN, or FAILED.
BLOCK in mode HOST of a target: RANGE for a wrong CRC; else the sector is written, or INTERNAL and FAILED where it
does not read back. BLOCK_FINISH: WRITTEN. LAYER_START_TRUNK and _LEAVES: STATE and BUSY as R607 has them; else the
trunk is reset into TRUNK_REBOOT, or turns to its first leaf, or is done. LEAF_RUNNING of the leaf that Layering
waits for: it joins again, or at another version Layering halts with reason 3; a stored configuration of another
DictMajor sets flag bit 4. LEAF_BOOT_TIMEOUT: halt with reason 1. THERMAL_TRIP at 115 °C: THERMTRIP high, lasers
off, counted. HOST_ERROR and SERVICE_FRAME_FCS_FAIL count by one. (R149, R604, R605, R606, R607, R617, R618, R643) -/
def Obligations.UpdatesProgramSlotsAndLayering : Prop :=
  (∀ (s : State) (e : Env) (v : Nat), s.built → s.runs .trunk → (s.unit .trunk).accepts e 0x1802 1 v →
    Answers (exec (.targetWrite e v) s) s .trunk e 0x02 0x1802 1 0 fun a =>
      if s.trunk.get 0x1802_05 = 2 then a.abort = 0x07 ∧ a.dev = (s.unit .trunk).heard e
      else a.abort = 0 ∧ a.dev.get 0x1802_01 = v ∧ a.dev.get 0x1802_05 = 1 ∧ a.dev.get 0x1802_06 = 0 ∧
        a.dev.blob 0x1802_02 = [] ∧ a.dev.tk.flash = s.trunk.tk.flash) ∧
  (∀ (s : State) (e : Env) (v : Nat), s.built → s.runs .trunk → (s.unit .trunk).accepts e 0x1802 3 v →
    Answers (exec (.commit e v) s) s .trunk e 0x02 0x1802 3 0 fun a =>
      let b := s.trunk.blob 0x1802_02
      let t := s.trunk.get 0x1802_01
      if v ≠ 1 then a.abort = 0x06 ∧ a.dev = (s.unit .trunk).heard e
      else if s.trunk.updateHost = true ∨ s.trunk.get 0x1802_05 = 2 then a.abort = 0x07 ∧ a.dev = (s.unit .trunk).heard e
      else if t = 0 ∨ natAt b 5 1 ≠ t ∨ b.length ≠ 512 + natAt b 20 4 then a.abort = 0x06 ∧ a.dev = (s.unit .trunk).heard e
      else a.abort = 0 ∧ a.dev.get 0x1802_05 = 2 ∧ a.dev.get 0x1802_06 = 0 ∧ a.dev.tk.load.image = b ∧
        a.dev.tk.flash = s.trunk.tk.flash) ∧
  (∀ (s : State) (same : Bool), s.built → s.runs .trunk → s.trunk.tk.flash.slots.length = 5 → 1 ≤ s.trunk.get 0x1802_01 →
    s.trunk.get 0x1802_01 ≤ 5 → s.trunk.get 0x1802_06 + 65536 < 2 ^ 32 →
    Yields (exec (.sectorWritten same) s) s .trunk fun d =>
      let n := s.trunk.get 0x1802_06
      let b := (s.trunk.tk.load.image.drop n).take 65536
      if s.trunk.get 0x1802_05 ≠ 2 then d = (s.unit .trunk)
      else d.get 0x1802_06 = n + b.length ∧
        (same = true → lookupKey (n / 65536) (d.slotOfType (s.trunk.get 0x1802_01)) = some b) ∧
        d.get 0x1802_05 = (if n + b.length < s.trunk.tk.load.image.length then 2
          else if s.trunk.tk.load.differs = true ∨ same = false then 4 else 3)) ∧
  (∀ (s : State) (e : Env) (bs : Bytes) (same : Bool), s.built → s.runs .trunk → (s.unit .trunk).acceptsDomain e 0x1802 4 bs →
    s.trunk.tk.flash.slots.length = 5 → 1 ≤ s.trunk.get 0x1802_01 → s.trunk.get 0x1802_01 ≤ 5 → s.trunk.updateHost = true → s.trunk.get 0x1802_05 ≠ 2 →
    16 ≤ bs.length → bs.length ≤ 65544 → bs.length % 8 = 0 → natAt bs 0 4 % 65536 = 0 →
    natAt bs 0 4 + (bs.length - 8) ≤ slotSize (s.trunk.get 0x1802_01) → s.trunk.get 0x1802_06 + bs.length < 2 ^ 32 →
    Answers (exec (.block e bs same) s) s .trunk e 0x02 0x1802 4 0 fun a =>
      if crc32c (bs.drop 8) ≠ natAt bs 4 4 then a.abort = 0x06 ∧ a.dev = (s.unit .trunk).heard e
      else if same = true then a.abort = 0 ∧ a.dev.get 0x1802_06 = s.trunk.get 0x1802_06 + (bs.length - 8) ∧
        lookupKey (natAt bs 0 4 / 65536) (a.dev.slotOfType (s.trunk.get 0x1802_01)) = some (bs.drop 8)
      else a.abort ≠ 0 ∧ a.dev.get 0x1802_05 = 4) ∧
  (∀ (s : State) (e : Env), s.built → s.runs .trunk → (s.unit .trunk).acceptsDomain e 0x1802 4 (zeros 8) →
    Answers (exec (.blockFinish e) s) s .trunk e 0x02 0x1802 4 0 fun a =>
      if s.trunk.updateHost = false ∨ s.trunk.get 0x1802_05 = 2 then a.abort = 0x07 ∧ a.dev = (s.unit .trunk).heard e
      else if s.trunk.get 0x1802_01 = 0 then a.abort = 0x06 ∧ a.dev = (s.unit .trunk).heard e
      else a.abort = 0 ∧ a.dev.get 0x1802_05 = 3 ∧ ((s.unit .trunk).heard e).objectsKept a.dev [0x1802_05]) ∧
  (∀ (s : State) (e : Env), s.built → s.runs .trunk → (s.unit .trunk).accepts e 0x1803 1 1 →
    Answers (exec (.layerStartTrunk e) s) s .trunk e 0x02 0x1803 1 0 fun a =>
      let x := s.trunk.tk.load
      if s.trunk.updateHost = true ∨ s.trunk.get 0x1802_05 = 2 then a.abort = 0x07 ∧ a.dev = (s.unit .trunk).heard e
      else if s.trunk.get 0x1803_02 = 3 then a.abort = 0x09 ∧ a.dev = (s.unit .trunk).heard e
      else if 2 ∉ x.written ∨ 2 ∈ x.open_ ∨ 3 ∈ x.open_ ∨ 4 ∈ x.open_ ∨ 5 ∈ x.open_ then a.abort = 0x07 ∧ a.dev = (s.unit .trunk).heard e
      else a.wait = true ∧ a.dev.boot.rom = true ∧ a.dev.get 0x1002_01 = 2 ∧ a.dev.get 0x1803_02 = 1 ∧
        a.dev.tk.flash = { s.trunk.tk.flash with layer := true }) ∧
  (∀ (s : State) (e : Env), s.built → s.runs .trunk → (s.unit .trunk).accepts e 0x1803 1 2 →
    Answers (exec (.layerStartLeaves e) s) s .trunk e 0x02 0x1803 1 0 fun a =>
      let up := (List.range 256).filter s.trunk.stemUp
      if s.trunk.updateHost = true ∨ s.trunk.get 0x1802_05 = 2 then a.abort = 0x07 ∧ a.dev = (s.unit .trunk).heard e
      else if s.trunk.get 0x1803_02 = 3 then a.abort = 0x09 ∧ a.dev = (s.unit .trunk).heard e
      else if s.trunk.get 0x1803_02 ≠ 2 ∨ 1 ∉ s.trunk.tk.load.written then a.abort = 0x07 ∧ a.dev = (s.unit .trunk).heard e
      else a.abort = 0 ∧ a.dev.get 0x1803_04 = 0 ∧
        match up with
        | [] => a.dev.get 0x1803_02 = 4 ∧ a.dev.get 0x1803_03 = 0xFF
        | p :: rest => a.dev.get 0x1803_02 = 3 ∧ a.dev.get 0x1803_03 = p ∧ a.dev.tk.layer.phase = .leaving ∧
            a.dev.tk.layer.todo = rest) ∧
  (∀ (s : State) (port version major : Nat), s.built → s.runs .trunk → port ≤ 255 → s.trunk.running = true →
    Yields (exec (.leafRunning port version major) s) s .trunk fun d =>
      let conf := s.trunk.tk.flash.conf.find? (·.unit = s.trunk.leafAddress port)
      (s.trunk.get 0x1815_04 ≠ 0 → conf = none → s.trunk.layerAwaits port = false → d = (s.unit .trunk)) ∧
      (∀ c, conf = some c → c.major ≠ major → (d.get 0x1804_00).testBit 4 = true) ∧
      (conf = none → s.trunk.layerAwaits port = true →
        if version = s.trunk.storedVersion 1 then d.tk.layer.phase = .joining ∧ d.get 0x1803_02 = 3
        else d.get 0x1803_02 = 5 ∧ d.get 0x1803_06 = 3 ∧ (d.get 0x1804_00).testBit 3 = true)) ∧
  (∀ (s : State), s.built → s.runs .trunk →
    Yields (exec .leafBootTimeout s) s .trunk fun d =>
      if s.trunk.get 0x1803_02 = 3 ∧ s.trunk.tk.layer.phase = .booting ∧ s.trunk.tk.layer.since + s.trunk.get 0x1803_05 ≤ s.trunk.now then
        d.get 0x1803_02 = 5 ∧ d.get 0x1803_06 = 1 ∧ (d.get 0x1804_00).testBit 3 = true
      else d = (s.unit .trunk)) ∧
  (∀ (s : State), s.built → s.runs .trunk → s.trunk.get 0x1002_03 + 1 < 2 ^ 32 →
    Yields (exec .thermalTrip s) s .trunk fun d =>
      if s.trunk.tk.tripped = true ∨ s.self.tooHot = false then d = (s.unit .trunk)
      else d.tk.tripped = true ∧ d.get 0x1002_03 = s.trunk.get 0x1002_03 + 1 ∧ .pin .thermtrip 0 1 ∈ d.out ∧
        ∀ p < 6, .pin .laserEn p 0 ∈ d.out) ∧
  (∀ (s : State) (l : LeafId) (n : Nat), s.built → s.runs (.leaf l) → n < 16 → (s.dev (.leaf l)).get (key 0x2108 (0x31 + n)) + 1 < 2 ^ 32 →
    Yields (exec (.hostError l n) s) s (.leaf l) fun d =>
      d.get (key 0x2108 (0x31 + n)) = (s.dev (.leaf l)).get (key 0x2108 (0x31 + n)) + 1 ∧ (s.unit (.leaf l)).onlyObjects d [key 0x2108 (0x31 + n)]) ∧
  (∀ (s : State) (l : LeafId), s.built → s.runs (.leaf l) → (s.dev (.leaf l)).get 0x2108_15 + 1 < 2 ^ 32 →
    Yields (exec (.serviceFrameFcsFail l) s) s (.leaf l) fun d =>
      d.get 0x2108_15 = (s.dev (.leaf l)).get 0x2108_15 + 1 ∧ (s.unit (.leaf l)).onlyObjects d [0x2108_15])

/-- Whatever a unit was and whatever the cause, the unit after a reset has FleetTime 0, with no fraction, Increment 1.0
ns (2^32 in units of 2^-32 ns) and a servo in FREE_RUN. This holds of every command that resets: UNIT_RESET with its
magic value (another value fails with RANGE and changes nothing), which no response follows; POWER_ON, of a trunk
with its self-leaf; the release of a unit's reset input, of a trunk with that of its self-leaf; and of the state
right after reset. What a unit held in reset and released does not name stays: the other units, and the queue. (R74) -/
def Obligations.EveryResetLeavesTimeFresh : Prop :=
  (∀ (d : Dev) (cause : Nat), (d.resetUnit cause).timeFresh) ∧
  (∀ (s : State) (u : UnitId) (e : Env) (v : Nat), s.built → s.runs u → (s.unit u).accepts e 0x1801 6 v →
    Answers (exec (.unitReset u e v) s) s u e 0x02 0x1801 6 0 fun a =>
      if v = 0x746F6F62 then a.abort = 0 ∧ a.wait = true ∧ a.dev.timeFresh else a.abort = 0x06 ∧ a.dev = (s.unit u).heard e) ∧
  (∀ (s : State) (u : UnitId) (strap : Bool), ∃ t, exec (.powerOn u strap) s = .next t ∧ (t.dev u).timeFresh ∧
    (u = .trunk → t.self.timeFresh ∧ t.mem = []) ∧ (u ≠ .trunk → t.mem = s.mem) ∧ t.pending = s.pending ∧
    ∀ w, w ≠ u → ¬ (u = .trunk ∧ w = .leaf .self) → t.dev w = s.dev w) ∧
  (∀ (s : State) (u : UnitId) (strap : Bool), (s.dev u).boot.held = true →
    ∃ t, exec (.pinReset u true strap) s = .next t ∧ (t.dev u).timeFresh ∧ t.runs u ∧
      (u = .trunk → s.self.boot.held = true → t.self.timeFresh ∧ t.runs (.leaf .self)) ∧ t.mem = s.mem ∧
      t.pending = s.pending ∧ ∀ w, w ≠ u → ¬ (u = .trunk ∧ w = .leaf .self) → t.dev w = s.dev w) ∧
  (∀ (s : State) (u : UnitId) (strap : Bool), s.runs u →
    ∃ t, exec (.pinReset u false strap) s = .next t ∧ (t.dev u).boot.held = true ∧ (t.dev u).objs = (s.dev u).objs) ∧
  State.reset.leaf.timeFresh ∧ State.reset.self.timeFresh ∧ State.reset.trunk.timeFresh

/-- From every state, reached by a run or not, whose memory is in canonical form (addresses strictly rising, no byte of
value 0 listed), whose leaf and self-leaf are of the leaf build and whose trunk is of the trunk build: step answers
a next state, never a fault or a refusal, that state is of the same kind, and its queue is the queue without its
front command (an empty queue stays empty); where the commands of each unit's tick stand in the order of R80, and
the accesses among them in that of R27, they do so after. The canonical form, the queue and that its sender keeps
that order are the model's own (logs 1, 2 and 5). It holds for every command with every operand. (R1, R4, R5, R27,
R80, R459) -/
def Obligations.EveryStepCompletesAndKeepsTheInvariant : Prop :=
  ∀ s : State, s.Inv → ∃ t, step s = .next t ∧ t.Inv ∧ t.pending = s.pending.tail ∧
    (keepsPrecedence s.pending = true → keepsPrecedence t.pending = true)

/-- State.reset satisfies the invariant that every step keeps. In it no unit holds an object other than at its default,
every unit runs its ROM, no unit stands in reset, no command waits, and memory lists nothing (log 2: a byte that
nothing has written reads as 0). (R29, R74, R634) -/
def Obligations.TheStateAfterResetMeetsTheInvariant : Prop :=
  State.reset.Inv ∧ State.reset.mem = [] ∧ State.reset.pending = [] ∧
  (∀ u, (State.reset.dev u).objs = [] ∧ (State.reset.dev u).blobs = [] ∧ (State.reset.dev u).boot.rom = true ∧
    State.reset.runs u)
end

