-- ==== Sys2Proof/Laws/Objects.lean ====
section
/-! SUPPORT. The laws of the dictionary's scalar objects: what an object reads as after a write of it or of another one,
and the widths of objects. -/

namespace Sys2Proof.Machine

/-! ### Lists with rising keys -/

theorem lookupKey_insertKey_self {α : Type} (k : Nat) (v : α) (l : List (Nat × α)) :
    lookupKey k (insertKey k v l) = some v := by
  induction l with
  | nil => simp [insertKey, lookupKey]
  | cons a l ih =>
    obtain ⟨j, w⟩ := a
    unfold insertKey
    split
    · simp [lookupKey]
    · split
      · simp [lookupKey]
      · next h1 h2 => simp [lookupKey, h1, h2, ih]

theorem lookupKey_insertKey_of_ne {α : Type} (j k : Nat) (v : α) (l : List (Nat × α)) (h : j ≠ k) :
    lookupKey j (insertKey k v l) = lookupKey j l := by
  induction l with
  | nil => simp [insertKey, lookupKey, Ne.symm h]
  | cons a l ih =>
    obtain ⟨i, w⟩ := a
    unfold insertKey
    split
    · next h1 => subst h1; simp [lookupKey, Ne.symm h]
    · split
      · next h1 h2 =>
        simp only [lookupKey, if_neg (Ne.symm h)]
        split
        · rw [if_neg (by omega), if_pos (by omega)]
        · rfl
      · simp only [lookupKey, ih]

theorem lookupKey_eraseKey_self {α : Type} (k : Nat) (l : List (Nat × α)) : lookupKey k (eraseKey k l) = none := by
  have : ∀ m : List (Nat × α), (∀ x ∈ m, x.1 ≠ k) → lookupKey k m = none := by
    intro m
    induction m with
    | nil => intro _; rfl
    | cons a m ih =>
      intro h
      have h1 : a.1 ≠ k := h a (by simp)
      simp only [lookupKey, if_neg h1]
      split
      · rfl
      · exact ih fun x hx => h x (by simp [hx])
  exact this _ (by intro x hx; simpa [eraseKey] using (List.mem_filter.mp hx).2)

/-- A list with rising keys goes on so after its head. -/
theorem rising_tail {a : Nat} {l : List Nat} (h : rising (a :: l) = true) : rising l = true := by
  cases l with
  | nil => rfl
  | cons b l => simp [rising] at h; exact h.2

/-- The head of a list with rising keys is below every other key. -/
theorem rising_head {a : Nat} {l : List Nat} (h : rising (a :: l) = true) : ∀ x ∈ l, a < x := by
  induction l generalizing a with
  | nil => simp
  | cons b l ih =>
    have hab : a < b := by simp [rising] at h; exact h.1
    intro x hx
    rcases List.mem_cons.mp hx with rfl | hx
    · exact hab
    · exact Nat.lt_trans hab (ih (rising_tail h) x hx)

theorem lookupKey_eraseKey_of_ne {α : Type} (j k : Nat) (l : List (Nat × α)) (hl : rising (l.map (·.1)) = true) (h : j ≠ k) :
    lookupKey j (eraseKey k l) = lookupKey j l := by
  induction l with
  | nil => rfl
  | cons a l ih =>
    obtain ⟨i, w⟩ := a
    have ih := ih (rising_tail hl)
    by_cases hi : i = k
    · subst hi
      have : eraseKey i ((i, w) :: l) = eraseKey i l := by simp [eraseKey]
      rw [this, ih]
      simp only [lookupKey, if_neg (Ne.symm h)]
      split
      · next hlt =>
        cases l with
        | nil => rfl
        | cons b l =>
          have hb : i < b.1 := rising_head hl _ (by simp)
          simp only [lookupKey]
          rw [if_neg (by omega), if_pos (by omega)]
      · rfl
    · have : eraseKey k ((i, w) :: l) = (i, w) :: eraseKey k l := by simp [eraseKey, hi]
      rw [this]
      simp only [lookupKey, ih]

/-! ### Widths -/

/-- A property of an object's row that every row of the table which names the object has. -/
theorem row_of_all (c : Cfg) (i s : Nat) (p : Row → Bool) (r : Row)
    (h : (rowsOf (i / 256)).all (fun r => !(r.first ≤ i && i ≤ r.last && r.sub ≤ s && s ≤ r.subEnd) || p r) = true)
    (hr : c.rowOf i s = some r) : p r = true := by
  unfold Cfg.rowOf at hr
  split at hr
  · have hm := List.mem_of_find?_eq_some hr
    have hp := List.find?_some hr
    have := List.all_eq_true.mp h r hm
    simp at this hp
    rcases this with h1 | h1
    · exact absurd hp.1.2 (by omega)
    · exact h1
  · cases hr

/-- The least width that the table gives an object. -/
def minWidth (k : Nat) : Nat :=
  ((rowsOf (k / 256 / 256)).filter fun r =>
    r.first ≤ k / 256 && k / 256 ≤ r.last && r.sub ≤ k % 256 && k % 256 ≤ r.subEnd).foldl (fun n r => min n (8 * r.ty.size)) 64

theorem minWidth_le (c : Cfg) (k : Nat) : minWidth k ≤ c.width k := by
  have key : ∀ (l : List Row) (n : Nat), l.foldl (fun n r => min n (8 * r.ty.size)) n ≤ n ∧
      ∀ r ∈ l, l.foldl (fun n r => min n (8 * r.ty.size)) n ≤ 8 * r.ty.size := by
    intro l
    induction l with
    | nil => intro n; simp
    | cons a l ih =>
      intro n
      have := ih (min n (8 * a.ty.size))
      refine ⟨by simp only [List.foldl_cons]; omega, ?_⟩
      intro r hr
      simp only [List.foldl_cons]
      rcases List.mem_cons.mp hr with h | h
      · subst h; omega
      · exact this.2 r h
  unfold Cfg.width minWidth
  split
  · next r hr =>
    unfold Cfg.rowOf at hr
    split at hr
    · refine (key _ 64).2 r (List.mem_filter.mpr ⟨List.mem_of_find?_eq_some hr, ?_⟩)
      have := List.find?_some hr
      simp at this ⊢
      exact this.1
    · cases hr
  · exact (key _ 64).1

theorem OType.size_pos (t : OType) : 1 ≤ t.size := by cases t <;> decide

theorem width_ge_8 (c : Cfg) (k : Nat) : 8 ≤ c.width k := by
  unfold Cfg.width
  split
  · have := OType.size_pos (‹Row›).ty; omega
  · omega

/-! ### Reads after writes -/

@[simp] theorem Dev.set_cfg (d : Dev) (k v : Nat) : (d.set k v).cfg = d.cfg := rfl

theorem Dev.get_set_self (d : Dev) (k v : Nat) : (d.set k v).get k = v % 2 ^ d.cfg.width k % 2 ^ 64 := by
  unfold Dev.get Dev.set
  simp [lookupKey_insertKey_self]

theorem Dev.get_set_of_ne (d : Dev) (j k v : Nat) (h : j ≠ k) : (d.set k v).get j = d.get j := by
  unfold Dev.get Dev.set
  simp [lookupKey_insertKey_of_ne _ _ _ _ h]

/-- A value below 256 fits every object. -/
theorem Dev.get_set_byte (d : Dev) (k v : Nat) (h : v < 256) : (d.set k v).get k = v := by
  have h1 : (2 : Nat) ^ 8 ≤ 2 ^ d.cfg.width k := Nat.pow_le_pow_right (by decide) (width_ge_8 _ _)
  have e : v % 2 ^ d.cfg.width k = v := Nat.mod_eq_of_lt (by omega)
  rw [Dev.get_set_self, e, Nat.mod_eq_of_lt (by omega)]

/-- A value that fits the least width the table gives an object. -/
theorem Dev.get_set_fits (d : Dev) (k v : Nat) (h : v < 2 ^ minWidth k) : (d.set k v).get k = v := by
  have h1 : (2 : Nat) ^ minWidth k ≤ 2 ^ d.cfg.width k := Nat.pow_le_pow_right (by decide) (minWidth_le _ _)
  have h2 : minWidth k ≤ 64 := by
    unfold minWidth
    generalize (List.filter _ (rowsOf (k / 256 / 256))) = l
    have : ∀ (l : List Row) n, l.foldl (fun n r => min n (8 * r.ty.size)) n ≤ n := by
      intro l
      induction l with
      | nil => intro n; simp
      | cons a l ih => intro n; have := ih (min n (8 * a.ty.size)); simp only [List.foldl_cons]; omega
    exact this l 64
  have h3 : (2 : Nat) ^ minWidth k ≤ 2 ^ 64 := Nat.pow_le_pow_right (by decide) h2
  have e : v % 2 ^ d.cfg.width k = v := Nat.mod_eq_of_lt (by omega)
  rw [Dev.get_set_self, e, Nat.mod_eq_of_lt (by omega)]

theorem Dev.get_setB (d : Dev) (k : Nat) (b : Bool) : (d.setB k b).get k = b2n b :=
  d.get_set_byte k (b2n b) (by cases b <;> decide)

theorem Dev.get_setB_of_ne (d : Dev) (j k : Nat) (b : Bool) (h : j ≠ k) : (d.setB k b).get j = d.get j :=
  d.get_set_of_ne j k (b2n b) h

theorem Dev.get_inc_of_ne (d : Dev) (j k : Nat) (h : j ≠ k) : (d.inc k).get j = d.get j := by
  unfold Dev.inc Dev.add
  dsimp only
  split <;> exact d.get_set_of_ne j k _ h

theorem Dev.get_add_of_ne (d : Dev) (j k n : Nat) (h : j ≠ k) : (d.add k n).get j = d.get j := by
  unfold Dev.add
  dsimp only
  split <;> exact d.get_set_of_ne j k _ h

/-- A counter below the largest value of its type counts one more. -/
theorem Dev.get_inc_self (d : Dev) (k : Nat) (h : d.get k + 1 < 2 ^ minWidth k) : (d.inc k).get k = d.get k + 1 := by
  have h1 : (2 : Nat) ^ minWidth k ≤ 2 ^ d.cfg.width k := Nat.pow_le_pow_right (by decide) (minWidth_le _ _)
  have h2 : d.get k + 1 < 2 ^ d.cfg.width k := Nat.lt_of_lt_of_le h h1
  unfold Dev.inc Dev.add
  rw [if_pos (by simp [h2])]
  exact d.get_set_fits k _ h

theorem Dev.get_always_of_ne (d : Dev) (j sub n : Nat) (h : j ≠ key 0x2108 sub) : (d.always sub n).get j = d.get j := by
  unfold Dev.always Dev.addMod
  split
  · rfl
  · exact d.get_set_of_ne j _ _ h

/-- A flag set changes its register, its set-count and the always-on count of flag sets only. -/
theorem Dev.get_flag_of_ne (d : Dev) (j i b : Nat) (h : j ≠ key i 0) (h2 : j ≠ key (i + 1) (b + 1))
    (h3 : j ≠ key 0x2108 0x22) : (d.flag i b).get j = d.get j := by
  unfold Dev.flag
  dsimp only
  split
  · exact Dev.get_set_of_ne _ _ _ _ h
  · show ((Dev.set _ _ _).always 0x22 1).get j = _
    rw [Dev.get_always_of_ne _ _ _ _ h3, Dev.get_set_of_ne _ _ _ _ h2, Dev.get_set_of_ne _ _ _ _ h]

end Sys2Proof.Machine
end

