-- ==== Sys2Proof/Laws/State.lean ====
section
/-! SUPPORT. Which fields of a unit the shared operations change: one lemma per operation and field that it keeps, so that no
later proof unfolds a record update. -/

namespace Sys2Proof.Machine

open Sys2Proof

/-! `Dev.set` -/

@[simp] theorem Dev.set_blobs (d : Dev) (k v : Nat) : (d.set k v).blobs = d.blobs := rfl

@[simp] theorem Dev.set_sets (d : Dev) (k v : Nat) : (d.set k v).sets = d.sets := rfl

@[simp] theorem Dev.set_srv (d : Dev) (k v : Nat) : (d.set k v).srv = d.srv := rfl

@[simp] theorem Dev.set_time (d : Dev) (k v : Nat) : (d.set k v).time = d.time := rfl

@[simp] theorem Dev.set_tap (d : Dev) (k v : Nat) : (d.set k v).tap = d.tap := rfl

@[simp] theorem Dev.set_pow (d : Dev) (k v : Nat) : (d.set k v).pow = d.pow := rfl

@[simp] theorem Dev.set_trc (d : Dev) (k v : Nat) : (d.set k v).trc = d.trc := rfl

@[simp] theorem Dev.set_rcd (d : Dev) (k v : Nat) : (d.set k v).rcd = d.rcd := rfl

@[simp] theorem Dev.set_frm (d : Dev) (k v : Nat) : (d.set k v).frm = d.frm := rfl

@[simp] theorem Dev.set_arb (d : Dev) (k v : Nat) : (d.set k v).arb = d.arb := rfl

@[simp] theorem Dev.set_stem (d : Dev) (k v : Nat) : (d.set k v).stem = d.stem := rfl

@[simp] theorem Dev.set_ftest (d : Dev) (k v : Nat) : (d.set k v).ftest = d.ftest := rfl

@[simp] theorem Dev.set_boot (d : Dev) (k v : Nat) : (d.set k v).boot = d.boot := rfl

@[simp] theorem Dev.set_tk (d : Dev) (k v : Nat) : (d.set k v).tk = d.tk := rfl

@[simp] theorem Dev.set_out (d : Dev) (k v : Nat) : (d.set k v).out = d.out := rfl

@[simp] theorem Dev.set_lines (d : Dev) (k v : Nat) : (d.set k v).lines = d.lines := rfl

/-! `Dev.setI` -/

@[simp] theorem Dev.setI_cfg (d : Dev) (k : Nat) (i : Int) : (d.setI k i).cfg = d.cfg := rfl

@[simp] theorem Dev.setI_blobs (d : Dev) (k : Nat) (i : Int) : (d.setI k i).blobs = d.blobs := rfl

@[simp] theorem Dev.setI_sets (d : Dev) (k : Nat) (i : Int) : (d.setI k i).sets = d.sets := rfl

@[simp] theorem Dev.setI_srv (d : Dev) (k : Nat) (i : Int) : (d.setI k i).srv = d.srv := rfl

@[simp] theorem Dev.setI_time (d : Dev) (k : Nat) (i : Int) : (d.setI k i).time = d.time := rfl

@[simp] theorem Dev.setI_tap (d : Dev) (k : Nat) (i : Int) : (d.setI k i).tap = d.tap := rfl

@[simp] theorem Dev.setI_pow (d : Dev) (k : Nat) (i : Int) : (d.setI k i).pow = d.pow := rfl

@[simp] theorem Dev.setI_trc (d : Dev) (k : Nat) (i : Int) : (d.setI k i).trc = d.trc := rfl

@[simp] theorem Dev.setI_rcd (d : Dev) (k : Nat) (i : Int) : (d.setI k i).rcd = d.rcd := rfl

@[simp] theorem Dev.setI_frm (d : Dev) (k : Nat) (i : Int) : (d.setI k i).frm = d.frm := rfl

@[simp] theorem Dev.setI_arb (d : Dev) (k : Nat) (i : Int) : (d.setI k i).arb = d.arb := rfl

@[simp] theorem Dev.setI_stem (d : Dev) (k : Nat) (i : Int) : (d.setI k i).stem = d.stem := rfl

@[simp] theorem Dev.setI_ftest (d : Dev) (k : Nat) (i : Int) : (d.setI k i).ftest = d.ftest := rfl

@[simp] theorem Dev.setI_boot (d : Dev) (k : Nat) (i : Int) : (d.setI k i).boot = d.boot := rfl

@[simp] theorem Dev.setI_tk (d : Dev) (k : Nat) (i : Int) : (d.setI k i).tk = d.tk := rfl

@[simp] theorem Dev.setI_out (d : Dev) (k : Nat) (i : Int) : (d.setI k i).out = d.out := rfl

@[simp] theorem Dev.setI_lines (d : Dev) (k : Nat) (i : Int) : (d.setI k i).lines = d.lines := rfl

/-! `Dev.setB` -/

@[simp] theorem Dev.setB_cfg (d : Dev) (k : Nat) (b : Bool) : (d.setB k b).cfg = d.cfg := rfl

@[simp] theorem Dev.setB_blobs (d : Dev) (k : Nat) (b : Bool) : (d.setB k b).blobs = d.blobs := rfl

@[simp] theorem Dev.setB_sets (d : Dev) (k : Nat) (b : Bool) : (d.setB k b).sets = d.sets := rfl

@[simp] theorem Dev.setB_srv (d : Dev) (k : Nat) (b : Bool) : (d.setB k b).srv = d.srv := rfl

@[simp] theorem Dev.setB_time (d : Dev) (k : Nat) (b : Bool) : (d.setB k b).time = d.time := rfl

@[simp] theorem Dev.setB_tap (d : Dev) (k : Nat) (b : Bool) : (d.setB k b).tap = d.tap := rfl

@[simp] theorem Dev.setB_pow (d : Dev) (k : Nat) (b : Bool) : (d.setB k b).pow = d.pow := rfl

@[simp] theorem Dev.setB_trc (d : Dev) (k : Nat) (b : Bool) : (d.setB k b).trc = d.trc := rfl

@[simp] theorem Dev.setB_rcd (d : Dev) (k : Nat) (b : Bool) : (d.setB k b).rcd = d.rcd := rfl

@[simp] theorem Dev.setB_frm (d : Dev) (k : Nat) (b : Bool) : (d.setB k b).frm = d.frm := rfl

@[simp] theorem Dev.setB_arb (d : Dev) (k : Nat) (b : Bool) : (d.setB k b).arb = d.arb := rfl

@[simp] theorem Dev.setB_stem (d : Dev) (k : Nat) (b : Bool) : (d.setB k b).stem = d.stem := rfl

@[simp] theorem Dev.setB_ftest (d : Dev) (k : Nat) (b : Bool) : (d.setB k b).ftest = d.ftest := rfl

@[simp] theorem Dev.setB_boot (d : Dev) (k : Nat) (b : Bool) : (d.setB k b).boot = d.boot := rfl

@[simp] theorem Dev.setB_tk (d : Dev) (k : Nat) (b : Bool) : (d.setB k b).tk = d.tk := rfl

@[simp] theorem Dev.setB_out (d : Dev) (k : Nat) (b : Bool) : (d.setB k b).out = d.out := rfl

@[simp] theorem Dev.setB_lines (d : Dev) (k : Nat) (b : Bool) : (d.setB k b).lines = d.lines := rfl

/-! `Dev.clear` -/

@[simp] theorem Dev.clear_cfg (d : Dev) (k : Nat) : (d.clear k).cfg = d.cfg := rfl

@[simp] theorem Dev.clear_blobs (d : Dev) (k : Nat) : (d.clear k).blobs = d.blobs := rfl

@[simp] theorem Dev.clear_sets (d : Dev) (k : Nat) : (d.clear k).sets = d.sets := rfl

@[simp] theorem Dev.clear_srv (d : Dev) (k : Nat) : (d.clear k).srv = d.srv := rfl

@[simp] theorem Dev.clear_time (d : Dev) (k : Nat) : (d.clear k).time = d.time := rfl

@[simp] theorem Dev.clear_tap (d : Dev) (k : Nat) : (d.clear k).tap = d.tap := rfl

@[simp] theorem Dev.clear_pow (d : Dev) (k : Nat) : (d.clear k).pow = d.pow := rfl

@[simp] theorem Dev.clear_trc (d : Dev) (k : Nat) : (d.clear k).trc = d.trc := rfl

@[simp] theorem Dev.clear_rcd (d : Dev) (k : Nat) : (d.clear k).rcd = d.rcd := rfl

@[simp] theorem Dev.clear_frm (d : Dev) (k : Nat) : (d.clear k).frm = d.frm := rfl

@[simp] theorem Dev.clear_arb (d : Dev) (k : Nat) : (d.clear k).arb = d.arb := rfl

@[simp] theorem Dev.clear_stem (d : Dev) (k : Nat) : (d.clear k).stem = d.stem := rfl

@[simp] theorem Dev.clear_ftest (d : Dev) (k : Nat) : (d.clear k).ftest = d.ftest := rfl

@[simp] theorem Dev.clear_boot (d : Dev) (k : Nat) : (d.clear k).boot = d.boot := rfl

@[simp] theorem Dev.clear_tk (d : Dev) (k : Nat) : (d.clear k).tk = d.tk := rfl

@[simp] theorem Dev.clear_out (d : Dev) (k : Nat) : (d.clear k).out = d.out := rfl

@[simp] theorem Dev.clear_lines (d : Dev) (k : Nat) : (d.clear k).lines = d.lines := rfl

/-! `Dev.addMod` -/

@[simp] theorem Dev.addMod_cfg (d : Dev) (k n : Nat) : (d.addMod k n).cfg = d.cfg := rfl

@[simp] theorem Dev.addMod_blobs (d : Dev) (k n : Nat) : (d.addMod k n).blobs = d.blobs := rfl

@[simp] theorem Dev.addMod_sets (d : Dev) (k n : Nat) : (d.addMod k n).sets = d.sets := rfl

@[simp] theorem Dev.addMod_srv (d : Dev) (k n : Nat) : (d.addMod k n).srv = d.srv := rfl

@[simp] theorem Dev.addMod_time (d : Dev) (k n : Nat) : (d.addMod k n).time = d.time := rfl

@[simp] theorem Dev.addMod_tap (d : Dev) (k n : Nat) : (d.addMod k n).tap = d.tap := rfl

@[simp] theorem Dev.addMod_pow (d : Dev) (k n : Nat) : (d.addMod k n).pow = d.pow := rfl

@[simp] theorem Dev.addMod_trc (d : Dev) (k n : Nat) : (d.addMod k n).trc = d.trc := rfl

@[simp] theorem Dev.addMod_rcd (d : Dev) (k n : Nat) : (d.addMod k n).rcd = d.rcd := rfl

@[simp] theorem Dev.addMod_frm (d : Dev) (k n : Nat) : (d.addMod k n).frm = d.frm := rfl

@[simp] theorem Dev.addMod_arb (d : Dev) (k n : Nat) : (d.addMod k n).arb = d.arb := rfl

@[simp] theorem Dev.addMod_stem (d : Dev) (k n : Nat) : (d.addMod k n).stem = d.stem := rfl

@[simp] theorem Dev.addMod_ftest (d : Dev) (k n : Nat) : (d.addMod k n).ftest = d.ftest := rfl

@[simp] theorem Dev.addMod_boot (d : Dev) (k n : Nat) : (d.addMod k n).boot = d.boot := rfl

@[simp] theorem Dev.addMod_tk (d : Dev) (k n : Nat) : (d.addMod k n).tk = d.tk := rfl

@[simp] theorem Dev.addMod_out (d : Dev) (k n : Nat) : (d.addMod k n).out = d.out := rfl

@[simp] theorem Dev.addMod_lines (d : Dev) (k n : Nat) : (d.addMod k n).lines = d.lines := rfl

/-! `Dev.dec` -/

@[simp] theorem Dev.dec_cfg (d : Dev) (k : Nat) : (d.dec k).cfg = d.cfg := rfl

@[simp] theorem Dev.dec_blobs (d : Dev) (k : Nat) : (d.dec k).blobs = d.blobs := rfl

@[simp] theorem Dev.dec_sets (d : Dev) (k : Nat) : (d.dec k).sets = d.sets := rfl

@[simp] theorem Dev.dec_srv (d : Dev) (k : Nat) : (d.dec k).srv = d.srv := rfl

@[simp] theorem Dev.dec_time (d : Dev) (k : Nat) : (d.dec k).time = d.time := rfl

@[simp] theorem Dev.dec_tap (d : Dev) (k : Nat) : (d.dec k).tap = d.tap := rfl

@[simp] theorem Dev.dec_pow (d : Dev) (k : Nat) : (d.dec k).pow = d.pow := rfl

@[simp] theorem Dev.dec_trc (d : Dev) (k : Nat) : (d.dec k).trc = d.trc := rfl

@[simp] theorem Dev.dec_rcd (d : Dev) (k : Nat) : (d.dec k).rcd = d.rcd := rfl

@[simp] theorem Dev.dec_frm (d : Dev) (k : Nat) : (d.dec k).frm = d.frm := rfl

@[simp] theorem Dev.dec_arb (d : Dev) (k : Nat) : (d.dec k).arb = d.arb := rfl

@[simp] theorem Dev.dec_stem (d : Dev) (k : Nat) : (d.dec k).stem = d.stem := rfl

@[simp] theorem Dev.dec_ftest (d : Dev) (k : Nat) : (d.dec k).ftest = d.ftest := rfl

@[simp] theorem Dev.dec_boot (d : Dev) (k : Nat) : (d.dec k).boot = d.boot := rfl

@[simp] theorem Dev.dec_tk (d : Dev) (k : Nat) : (d.dec k).tk = d.tk := rfl

@[simp] theorem Dev.dec_out (d : Dev) (k : Nat) : (d.dec k).out = d.out := rfl

@[simp] theorem Dev.dec_lines (d : Dev) (k : Nat) : (d.dec k).lines = d.lines := rfl

/-! `Dev.add` -/

@[simp] theorem Dev.add_cfg (d : Dev) (k n : Nat) : (d.add k n).cfg = d.cfg := by
  unfold Dev.add; dsimp only; split <;> rfl

@[simp] theorem Dev.add_blobs (d : Dev) (k n : Nat) : (d.add k n).blobs = d.blobs := by
  unfold Dev.add; dsimp only; split <;> rfl

@[simp] theorem Dev.add_sets (d : Dev) (k n : Nat) : (d.add k n).sets = d.sets := by
  unfold Dev.add; dsimp only; split <;> rfl

@[simp] theorem Dev.add_srv (d : Dev) (k n : Nat) : (d.add k n).srv = d.srv := by
  unfold Dev.add; dsimp only; split <;> rfl

@[simp] theorem Dev.add_time (d : Dev) (k n : Nat) : (d.add k n).time = d.time := by
  unfold Dev.add; dsimp only; split <;> rfl

@[simp] theorem Dev.add_tap (d : Dev) (k n : Nat) : (d.add k n).tap = d.tap := by
  unfold Dev.add; dsimp only; split <;> rfl

@[simp] theorem Dev.add_pow (d : Dev) (k n : Nat) : (d.add k n).pow = d.pow := by
  unfold Dev.add; dsimp only; split <;> rfl

@[simp] theorem Dev.add_trc (d : Dev) (k n : Nat) : (d.add k n).trc = d.trc := by
  unfold Dev.add; dsimp only; split <;> rfl

@[simp] theorem Dev.add_rcd (d : Dev) (k n : Nat) : (d.add k n).rcd = d.rcd := by
  unfold Dev.add; dsimp only; split <;> rfl

@[simp] theorem Dev.add_frm (d : Dev) (k n : Nat) : (d.add k n).frm = d.frm := by
  unfold Dev.add; dsimp only; split <;> rfl

@[simp] theorem Dev.add_arb (d : Dev) (k n : Nat) : (d.add k n).arb = d.arb := by
  unfold Dev.add; dsimp only; split <;> rfl

@[simp] theorem Dev.add_stem (d : Dev) (k n : Nat) : (d.add k n).stem = d.stem := by
  unfold Dev.add; dsimp only; split <;> rfl

@[simp] theorem Dev.add_ftest (d : Dev) (k n : Nat) : (d.add k n).ftest = d.ftest := by
  unfold Dev.add; dsimp only; split <;> rfl

@[simp] theorem Dev.add_boot (d : Dev) (k n : Nat) : (d.add k n).boot = d.boot := by
  unfold Dev.add; dsimp only; split <;> rfl

@[simp] theorem Dev.add_tk (d : Dev) (k n : Nat) : (d.add k n).tk = d.tk := by
  unfold Dev.add; dsimp only; split <;> rfl

@[simp] theorem Dev.add_out (d : Dev) (k n : Nat) : (d.add k n).out = d.out := by
  unfold Dev.add; dsimp only; split <;> rfl

@[simp] theorem Dev.add_lines (d : Dev) (k n : Nat) : (d.add k n).lines = d.lines := by
  unfold Dev.add; dsimp only; split <;> rfl

/-! `Dev.inc` -/

@[simp] theorem Dev.inc_cfg (d : Dev) (k : Nat) : (d.inc k).cfg = d.cfg := d.add_cfg k 1

@[simp] theorem Dev.inc_blobs (d : Dev) (k : Nat) : (d.inc k).blobs = d.blobs := d.add_blobs k 1

@[simp] theorem Dev.inc_sets (d : Dev) (k : Nat) : (d.inc k).sets = d.sets := d.add_sets k 1

@[simp] theorem Dev.inc_srv (d : Dev) (k : Nat) : (d.inc k).srv = d.srv := d.add_srv k 1

@[simp] theorem Dev.inc_time (d : Dev) (k : Nat) : (d.inc k).time = d.time := d.add_time k 1

@[simp] theorem Dev.inc_tap (d : Dev) (k : Nat) : (d.inc k).tap = d.tap := d.add_tap k 1

@[simp] theorem Dev.inc_pow (d : Dev) (k : Nat) : (d.inc k).pow = d.pow := d.add_pow k 1

@[simp] theorem Dev.inc_trc (d : Dev) (k : Nat) : (d.inc k).trc = d.trc := d.add_trc k 1

@[simp] theorem Dev.inc_rcd (d : Dev) (k : Nat) : (d.inc k).rcd = d.rcd := d.add_rcd k 1

@[simp] theorem Dev.inc_frm (d : Dev) (k : Nat) : (d.inc k).frm = d.frm := d.add_frm k 1

@[simp] theorem Dev.inc_arb (d : Dev) (k : Nat) : (d.inc k).arb = d.arb := d.add_arb k 1

@[simp] theorem Dev.inc_stem (d : Dev) (k : Nat) : (d.inc k).stem = d.stem := d.add_stem k 1

@[simp] theorem Dev.inc_ftest (d : Dev) (k : Nat) : (d.inc k).ftest = d.ftest := d.add_ftest k 1

@[simp] theorem Dev.inc_boot (d : Dev) (k : Nat) : (d.inc k).boot = d.boot := d.add_boot k 1

@[simp] theorem Dev.inc_tk (d : Dev) (k : Nat) : (d.inc k).tk = d.tk := d.add_tk k 1

@[simp] theorem Dev.inc_out (d : Dev) (k : Nat) : (d.inc k).out = d.out := d.add_out k 1

@[simp] theorem Dev.inc_lines (d : Dev) (k : Nat) : (d.inc k).lines = d.lines := d.add_lines k 1

/-! `Dev.setBlob` -/

@[simp] theorem Dev.setBlob_cfg (d : Dev) (k : Nat) (bs : Bytes) : (d.setBlob k bs).cfg = d.cfg := rfl

@[simp] theorem Dev.setBlob_sets (d : Dev) (k : Nat) (bs : Bytes) : (d.setBlob k bs).sets = d.sets := rfl

@[simp] theorem Dev.setBlob_srv (d : Dev) (k : Nat) (bs : Bytes) : (d.setBlob k bs).srv = d.srv := rfl

@[simp] theorem Dev.setBlob_time (d : Dev) (k : Nat) (bs : Bytes) : (d.setBlob k bs).time = d.time := rfl

@[simp] theorem Dev.setBlob_tap (d : Dev) (k : Nat) (bs : Bytes) : (d.setBlob k bs).tap = d.tap := rfl

@[simp] theorem Dev.setBlob_pow (d : Dev) (k : Nat) (bs : Bytes) : (d.setBlob k bs).pow = d.pow := rfl

@[simp] theorem Dev.setBlob_trc (d : Dev) (k : Nat) (bs : Bytes) : (d.setBlob k bs).trc = d.trc := rfl

@[simp] theorem Dev.setBlob_rcd (d : Dev) (k : Nat) (bs : Bytes) : (d.setBlob k bs).rcd = d.rcd := rfl

@[simp] theorem Dev.setBlob_frm (d : Dev) (k : Nat) (bs : Bytes) : (d.setBlob k bs).frm = d.frm := rfl

@[simp] theorem Dev.setBlob_arb (d : Dev) (k : Nat) (bs : Bytes) : (d.setBlob k bs).arb = d.arb := rfl

@[simp] theorem Dev.setBlob_stem (d : Dev) (k : Nat) (bs : Bytes) : (d.setBlob k bs).stem = d.stem := rfl

@[simp] theorem Dev.setBlob_ftest (d : Dev) (k : Nat) (bs : Bytes) : (d.setBlob k bs).ftest = d.ftest := rfl

@[simp] theorem Dev.setBlob_boot (d : Dev) (k : Nat) (bs : Bytes) : (d.setBlob k bs).boot = d.boot := rfl

@[simp] theorem Dev.setBlob_tk (d : Dev) (k : Nat) (bs : Bytes) : (d.setBlob k bs).tk = d.tk := rfl

@[simp] theorem Dev.setBlob_out (d : Dev) (k : Nat) (bs : Bytes) : (d.setBlob k bs).out = d.out := rfl

@[simp] theorem Dev.setBlob_lines (d : Dev) (k : Nat) (bs : Bytes) : (d.setBlob k bs).lines = d.lines := rfl

@[simp] theorem Dev.setBlob_objs (d : Dev) (k : Nat) (bs : Bytes) : (d.setBlob k bs).objs = d.objs := rfl

/-! `Dev.emit` -/

@[simp] theorem Dev.emit_cfg (d : Dev) (o : Out) : (d.emit o).cfg = d.cfg := rfl

@[simp] theorem Dev.emit_blobs (d : Dev) (o : Out) : (d.emit o).blobs = d.blobs := rfl

@[simp] theorem Dev.emit_sets (d : Dev) (o : Out) : (d.emit o).sets = d.sets := rfl

@[simp] theorem Dev.emit_srv (d : Dev) (o : Out) : (d.emit o).srv = d.srv := rfl

@[simp] theorem Dev.emit_time (d : Dev) (o : Out) : (d.emit o).time = d.time := rfl

@[simp] theorem Dev.emit_tap (d : Dev) (o : Out) : (d.emit o).tap = d.tap := rfl

@[simp] theorem Dev.emit_pow (d : Dev) (o : Out) : (d.emit o).pow = d.pow := rfl

@[simp] theorem Dev.emit_trc (d : Dev) (o : Out) : (d.emit o).trc = d.trc := rfl

@[simp] theorem Dev.emit_rcd (d : Dev) (o : Out) : (d.emit o).rcd = d.rcd := rfl

@[simp] theorem Dev.emit_frm (d : Dev) (o : Out) : (d.emit o).frm = d.frm := rfl

@[simp] theorem Dev.emit_arb (d : Dev) (o : Out) : (d.emit o).arb = d.arb := rfl

@[simp] theorem Dev.emit_stem (d : Dev) (o : Out) : (d.emit o).stem = d.stem := rfl

@[simp] theorem Dev.emit_ftest (d : Dev) (o : Out) : (d.emit o).ftest = d.ftest := rfl

@[simp] theorem Dev.emit_boot (d : Dev) (o : Out) : (d.emit o).boot = d.boot := rfl

@[simp] theorem Dev.emit_tk (d : Dev) (o : Out) : (d.emit o).tk = d.tk := rfl

@[simp] theorem Dev.emit_objs (d : Dev) (o : Out) : (d.emit o).objs = d.objs := rfl

/-! `Dev.always` -/

@[simp] theorem Dev.always_cfg (d : Dev) (b n : Nat) : (d.always b n).cfg = d.cfg := by
  unfold Dev.always; split <;> rfl

@[simp] theorem Dev.always_blobs (d : Dev) (b n : Nat) : (d.always b n).blobs = d.blobs := by
  unfold Dev.always; split <;> rfl

@[simp] theorem Dev.always_sets (d : Dev) (b n : Nat) : (d.always b n).sets = d.sets := by
  unfold Dev.always; split <;> rfl

@[simp] theorem Dev.always_srv (d : Dev) (b n : Nat) : (d.always b n).srv = d.srv := by
  unfold Dev.always; split <;> rfl

@[simp] theorem Dev.always_time (d : Dev) (b n : Nat) : (d.always b n).time = d.time := by
  unfold Dev.always; split <;> rfl

@[simp] theorem Dev.always_tap (d : Dev) (b n : Nat) : (d.always b n).tap = d.tap := by
  unfold Dev.always; split <;> rfl

@[simp] theorem Dev.always_pow (d : Dev) (b n : Nat) : (d.always b n).pow = d.pow := by
  unfold Dev.always; split <;> rfl

@[simp] theorem Dev.always_trc (d : Dev) (b n : Nat) : (d.always b n).trc = d.trc := by
  unfold Dev.always; split <;> rfl

@[simp] theorem Dev.always_rcd (d : Dev) (b n : Nat) : (d.always b n).rcd = d.rcd := by
  unfold Dev.always; split <;> rfl

@[simp] theorem Dev.always_frm (d : Dev) (b n : Nat) : (d.always b n).frm = d.frm := by
  unfold Dev.always; split <;> rfl

@[simp] theorem Dev.always_arb (d : Dev) (b n : Nat) : (d.always b n).arb = d.arb := by
  unfold Dev.always; split <;> rfl

@[simp] theorem Dev.always_stem (d : Dev) (b n : Nat) : (d.always b n).stem = d.stem := by
  unfold Dev.always; split <;> rfl

@[simp] theorem Dev.always_ftest (d : Dev) (b n : Nat) : (d.always b n).ftest = d.ftest := by
  unfold Dev.always; split <;> rfl

@[simp] theorem Dev.always_boot (d : Dev) (b n : Nat) : (d.always b n).boot = d.boot := by
  unfold Dev.always; split <;> rfl

@[simp] theorem Dev.always_tk (d : Dev) (b n : Nat) : (d.always b n).tk = d.tk := by
  unfold Dev.always; split <;> rfl

@[simp] theorem Dev.always_out (d : Dev) (b n : Nat) : (d.always b n).out = d.out := by
  unfold Dev.always; split <;> rfl

@[simp] theorem Dev.always_lines (d : Dev) (b n : Nat) : (d.always b n).lines = d.lines := by
  unfold Dev.always; split <;> rfl

/-! `Dev.flag` -/

@[simp] theorem Dev.flag_cfg (d : Dev) (i b : Nat) : (d.flag i b).cfg = d.cfg := by
  unfold Dev.flag; dsimp only; split <;> simp

@[simp] theorem Dev.flag_blobs (d : Dev) (i b : Nat) : (d.flag i b).blobs = d.blobs := by
  unfold Dev.flag; dsimp only; split <;> simp

@[simp] theorem Dev.flag_srv (d : Dev) (i b : Nat) : (d.flag i b).srv = d.srv := by
  unfold Dev.flag; dsimp only; split <;> simp

@[simp] theorem Dev.flag_time (d : Dev) (i b : Nat) : (d.flag i b).time = d.time := by
  unfold Dev.flag; dsimp only; split <;> simp

@[simp] theorem Dev.flag_tap (d : Dev) (i b : Nat) : (d.flag i b).tap = d.tap := by
  unfold Dev.flag; dsimp only; split <;> simp

@[simp] theorem Dev.flag_pow (d : Dev) (i b : Nat) : (d.flag i b).pow = d.pow := by
  unfold Dev.flag; dsimp only; split <;> simp

@[simp] theorem Dev.flag_trc (d : Dev) (i b : Nat) : (d.flag i b).trc = d.trc := by
  unfold Dev.flag; dsimp only; split <;> simp

@[simp] theorem Dev.flag_rcd (d : Dev) (i b : Nat) : (d.flag i b).rcd = d.rcd := by
  unfold Dev.flag; dsimp only; split <;> simp

@[simp] theorem Dev.flag_frm (d : Dev) (i b : Nat) : (d.flag i b).frm = d.frm := by
  unfold Dev.flag; dsimp only; split <;> simp

@[simp] theorem Dev.flag_arb (d : Dev) (i b : Nat) : (d.flag i b).arb = d.arb := by
  unfold Dev.flag; dsimp only; split <;> simp

@[simp] theorem Dev.flag_stem (d : Dev) (i b : Nat) : (d.flag i b).stem = d.stem := by
  unfold Dev.flag; dsimp only; split <;> simp

@[simp] theorem Dev.flag_ftest (d : Dev) (i b : Nat) : (d.flag i b).ftest = d.ftest := by
  unfold Dev.flag; dsimp only; split <;> simp

@[simp] theorem Dev.flag_boot (d : Dev) (i b : Nat) : (d.flag i b).boot = d.boot := by
  unfold Dev.flag; dsimp only; split <;> simp

@[simp] theorem Dev.flag_tk (d : Dev) (i b : Nat) : (d.flag i b).tk = d.tk := by
  unfold Dev.flag; dsimp only; split <;> simp

@[simp] theorem Dev.flag_out (d : Dev) (i b : Nat) : (d.flag i b).out = d.out := by
  unfold Dev.flag; dsimp only; split <;> simp

@[simp] theorem Dev.flag_lines (d : Dev) (i b : Nat) : (d.flag i b).lines = d.lines := by
  unfold Dev.flag; dsimp only; split <;> simp

/-! `Dev.flagIf` -/

@[simp] theorem Dev.flagIf_cfg (d : Dev) (c : Bool) (i b : Nat) : (d.flagIf c i b).cfg = d.cfg := by
  unfold Dev.flagIf; split <;> simp

@[simp] theorem Dev.flagIf_blobs (d : Dev) (c : Bool) (i b : Nat) : (d.flagIf c i b).blobs = d.blobs := by
  unfold Dev.flagIf; split <;> simp

@[simp] theorem Dev.flagIf_srv (d : Dev) (c : Bool) (i b : Nat) : (d.flagIf c i b).srv = d.srv := by
  unfold Dev.flagIf; split <;> simp

@[simp] theorem Dev.flagIf_time (d : Dev) (c : Bool) (i b : Nat) : (d.flagIf c i b).time = d.time := by
  unfold Dev.flagIf; split <;> simp

@[simp] theorem Dev.flagIf_tap (d : Dev) (c : Bool) (i b : Nat) : (d.flagIf c i b).tap = d.tap := by
  unfold Dev.flagIf; split <;> simp

@[simp] theorem Dev.flagIf_pow (d : Dev) (c : Bool) (i b : Nat) : (d.flagIf c i b).pow = d.pow := by
  unfold Dev.flagIf; split <;> simp

@[simp] theorem Dev.flagIf_trc (d : Dev) (c : Bool) (i b : Nat) : (d.flagIf c i b).trc = d.trc := by
  unfold Dev.flagIf; split <;> simp

@[simp] theorem Dev.flagIf_rcd (d : Dev) (c : Bool) (i b : Nat) : (d.flagIf c i b).rcd = d.rcd := by
  unfold Dev.flagIf; split <;> simp

@[simp] theorem Dev.flagIf_frm (d : Dev) (c : Bool) (i b : Nat) : (d.flagIf c i b).frm = d.frm := by
  unfold Dev.flagIf; split <;> simp

@[simp] theorem Dev.flagIf_arb (d : Dev) (c : Bool) (i b : Nat) : (d.flagIf c i b).arb = d.arb := by
  unfold Dev.flagIf; split <;> simp

@[simp] theorem Dev.flagIf_stem (d : Dev) (c : Bool) (i b : Nat) : (d.flagIf c i b).stem = d.stem := by
  unfold Dev.flagIf; split <;> simp

@[simp] theorem Dev.flagIf_ftest (d : Dev) (c : Bool) (i b : Nat) : (d.flagIf c i b).ftest = d.ftest := by
  unfold Dev.flagIf; split <;> simp

@[simp] theorem Dev.flagIf_boot (d : Dev) (c : Bool) (i b : Nat) : (d.flagIf c i b).boot = d.boot := by
  unfold Dev.flagIf; split <;> simp

@[simp] theorem Dev.flagIf_tk (d : Dev) (c : Bool) (i b : Nat) : (d.flagIf c i b).tk = d.tk := by
  unfold Dev.flagIf; split <;> simp

@[simp] theorem Dev.flagIf_out (d : Dev) (c : Bool) (i b : Nat) : (d.flagIf c i b).out = d.out := by
  unfold Dev.flagIf; split <;> simp

@[simp] theorem Dev.flagIf_lines (d : Dev) (c : Bool) (i b : Nat) : (d.flagIf c i b).lines = d.lines := by
  unfold Dev.flagIf; split <;> simp

/-! `Dev.violation` -/

@[simp] theorem Dev.violation_cfg (d : Dev) (a b c t : Nat) : (d.violation a b c t).cfg = d.cfg := by
  unfold Dev.violation; simp

@[simp] theorem Dev.violation_blobs (d : Dev) (a b c t : Nat) : (d.violation a b c t).blobs = d.blobs := by
  unfold Dev.violation; simp

@[simp] theorem Dev.violation_sets (d : Dev) (a b c t : Nat) : (d.violation a b c t).sets = d.sets := by
  unfold Dev.violation; simp

@[simp] theorem Dev.violation_time (d : Dev) (a b c t : Nat) : (d.violation a b c t).time = d.time := by
  unfold Dev.violation; simp

@[simp] theorem Dev.violation_tap (d : Dev) (a b c t : Nat) : (d.violation a b c t).tap = d.tap := by
  unfold Dev.violation; simp

@[simp] theorem Dev.violation_pow (d : Dev) (a b c t : Nat) : (d.violation a b c t).pow = d.pow := by
  unfold Dev.violation; simp

@[simp] theorem Dev.violation_trc (d : Dev) (a b c t : Nat) : (d.violation a b c t).trc = d.trc := by
  unfold Dev.violation; simp

@[simp] theorem Dev.violation_rcd (d : Dev) (a b c t : Nat) : (d.violation a b c t).rcd = d.rcd := by
  unfold Dev.violation; simp

@[simp] theorem Dev.violation_frm (d : Dev) (a b c t : Nat) : (d.violation a b c t).frm = d.frm := by
  unfold Dev.violation; simp

@[simp] theorem Dev.violation_arb (d : Dev) (a b c t : Nat) : (d.violation a b c t).arb = d.arb := by
  unfold Dev.violation; simp

@[simp] theorem Dev.violation_stem (d : Dev) (a b c t : Nat) : (d.violation a b c t).stem = d.stem := by
  unfold Dev.violation; simp

@[simp] theorem Dev.violation_ftest (d : Dev) (a b c t : Nat) : (d.violation a b c t).ftest = d.ftest := by
  unfold Dev.violation; simp

@[simp] theorem Dev.violation_boot (d : Dev) (a b c t : Nat) : (d.violation a b c t).boot = d.boot := by
  unfold Dev.violation; simp

@[simp] theorem Dev.violation_tk (d : Dev) (a b c t : Nat) : (d.violation a b c t).tk = d.tk := by
  unfold Dev.violation; simp

@[simp] theorem Dev.violation_out (d : Dev) (a b c t : Nat) : (d.violation a b c t).out = d.out := by
  unfold Dev.violation; simp

@[simp] theorem Dev.violation_lines (d : Dev) (a b c t : Nat) : (d.violation a b c t).lines = d.lines := by
  unfold Dev.violation; simp

/-! `Dev.logAbort` -/

@[simp] theorem Dev.logAbort_cfg (d : Dev) (e : Env) (a b c t : Nat) : (d.logAbort e a b c t).cfg = d.cfg := by
  unfold Dev.logAbort; split <;> simp

@[simp] theorem Dev.logAbort_blobs (d : Dev) (e : Env) (a b c t : Nat) : (d.logAbort e a b c t).blobs = d.blobs := by
  unfold Dev.logAbort; split <;> simp

@[simp] theorem Dev.logAbort_sets (d : Dev) (e : Env) (a b c t : Nat) : (d.logAbort e a b c t).sets = d.sets := by
  unfold Dev.logAbort; split <;> simp

@[simp] theorem Dev.logAbort_time (d : Dev) (e : Env) (a b c t : Nat) : (d.logAbort e a b c t).time = d.time := by
  unfold Dev.logAbort; split <;> simp

@[simp] theorem Dev.logAbort_tap (d : Dev) (e : Env) (a b c t : Nat) : (d.logAbort e a b c t).tap = d.tap := by
  unfold Dev.logAbort; split <;> simp

@[simp] theorem Dev.logAbort_pow (d : Dev) (e : Env) (a b c t : Nat) : (d.logAbort e a b c t).pow = d.pow := by
  unfold Dev.logAbort; split <;> simp

@[simp] theorem Dev.logAbort_trc (d : Dev) (e : Env) (a b c t : Nat) : (d.logAbort e a b c t).trc = d.trc := by
  unfold Dev.logAbort; split <;> simp

@[simp] theorem Dev.logAbort_rcd (d : Dev) (e : Env) (a b c t : Nat) : (d.logAbort e a b c t).rcd = d.rcd := by
  unfold Dev.logAbort; split <;> simp

@[simp] theorem Dev.logAbort_frm (d : Dev) (e : Env) (a b c t : Nat) : (d.logAbort e a b c t).frm = d.frm := by
  unfold Dev.logAbort; split <;> simp

@[simp] theorem Dev.logAbort_arb (d : Dev) (e : Env) (a b c t : Nat) : (d.logAbort e a b c t).arb = d.arb := by
  unfold Dev.logAbort; split <;> simp

@[simp] theorem Dev.logAbort_stem (d : Dev) (e : Env) (a b c t : Nat) : (d.logAbort e a b c t).stem = d.stem := by
  unfold Dev.logAbort; split <;> simp

@[simp] theorem Dev.logAbort_ftest (d : Dev) (e : Env) (a b c t : Nat) : (d.logAbort e a b c t).ftest = d.ftest := by
  unfold Dev.logAbort; split <;> simp

@[simp] theorem Dev.logAbort_boot (d : Dev) (e : Env) (a b c t : Nat) : (d.logAbort e a b c t).boot = d.boot := by
  unfold Dev.logAbort; split <;> simp

@[simp] theorem Dev.logAbort_tk (d : Dev) (e : Env) (a b c t : Nat) : (d.logAbort e a b c t).tk = d.tk := by
  unfold Dev.logAbort; split <;> simp

@[simp] theorem Dev.logAbort_out (d : Dev) (e : Env) (a b c t : Nat) : (d.logAbort e a b c t).out = d.out := by
  unfold Dev.logAbort; split <;> simp

@[simp] theorem Dev.logAbort_lines (d : Dev) (e : Env) (a b c t : Nat) : (d.logAbort e a b c t).lines = d.lines := by
  unfold Dev.logAbort; split <;> simp

/-! `Dev.purgeReplay` -/

@[simp] theorem Dev.purgeReplay_cfg (d : Dev) : (d.purgeReplay).cfg = d.cfg := rfl

@[simp] theorem Dev.purgeReplay_blobs (d : Dev) : (d.purgeReplay).blobs = d.blobs := rfl

@[simp] theorem Dev.purgeReplay_sets (d : Dev) : (d.purgeReplay).sets = d.sets := rfl

@[simp] theorem Dev.purgeReplay_time (d : Dev) : (d.purgeReplay).time = d.time := rfl

@[simp] theorem Dev.purgeReplay_tap (d : Dev) : (d.purgeReplay).tap = d.tap := rfl

@[simp] theorem Dev.purgeReplay_pow (d : Dev) : (d.purgeReplay).pow = d.pow := rfl

@[simp] theorem Dev.purgeReplay_trc (d : Dev) : (d.purgeReplay).trc = d.trc := rfl

@[simp] theorem Dev.purgeReplay_rcd (d : Dev) : (d.purgeReplay).rcd = d.rcd := rfl

@[simp] theorem Dev.purgeReplay_frm (d : Dev) : (d.purgeReplay).frm = d.frm := rfl

@[simp] theorem Dev.purgeReplay_arb (d : Dev) : (d.purgeReplay).arb = d.arb := rfl

@[simp] theorem Dev.purgeReplay_stem (d : Dev) : (d.purgeReplay).stem = d.stem := rfl

@[simp] theorem Dev.purgeReplay_ftest (d : Dev) : (d.purgeReplay).ftest = d.ftest := rfl

@[simp] theorem Dev.purgeReplay_boot (d : Dev) : (d.purgeReplay).boot = d.boot := rfl

@[simp] theorem Dev.purgeReplay_tk (d : Dev) : (d.purgeReplay).tk = d.tk := rfl

@[simp] theorem Dev.purgeReplay_out (d : Dev) : (d.purgeReplay).out = d.out := rfl

@[simp] theorem Dev.purgeReplay_lines (d : Dev) : (d.purgeReplay).lines = d.lines := rfl

@[simp] theorem Dev.purgeReplay_objs (d : Dev) : (d.purgeReplay).objs = d.objs := rfl

/-! `Dev.purgeLatches` -/

@[simp] theorem Dev.purgeLatches_cfg (d : Dev) : (d.purgeLatches).cfg = d.cfg := rfl

@[simp] theorem Dev.purgeLatches_blobs (d : Dev) : (d.purgeLatches).blobs = d.blobs := rfl

@[simp] theorem Dev.purgeLatches_sets (d : Dev) : (d.purgeLatches).sets = d.sets := rfl

@[simp] theorem Dev.purgeLatches_time (d : Dev) : (d.purgeLatches).time = d.time := rfl

@[simp] theorem Dev.purgeLatches_tap (d : Dev) : (d.purgeLatches).tap = d.tap := rfl

@[simp] theorem Dev.purgeLatches_pow (d : Dev) : (d.purgeLatches).pow = d.pow := rfl

@[simp] theorem Dev.purgeLatches_trc (d : Dev) : (d.purgeLatches).trc = d.trc := rfl

@[simp] theorem Dev.purgeLatches_rcd (d : Dev) : (d.purgeLatches).rcd = d.rcd := rfl

@[simp] theorem Dev.purgeLatches_frm (d : Dev) : (d.purgeLatches).frm = d.frm := rfl

@[simp] theorem Dev.purgeLatches_arb (d : Dev) : (d.purgeLatches).arb = d.arb := rfl

@[simp] theorem Dev.purgeLatches_stem (d : Dev) : (d.purgeLatches).stem = d.stem := rfl

@[simp] theorem Dev.purgeLatches_ftest (d : Dev) : (d.purgeLatches).ftest = d.ftest := rfl

@[simp] theorem Dev.purgeLatches_boot (d : Dev) : (d.purgeLatches).boot = d.boot := rfl

@[simp] theorem Dev.purgeLatches_tk (d : Dev) : (d.purgeLatches).tk = d.tk := rfl

@[simp] theorem Dev.purgeLatches_out (d : Dev) : (d.purgeLatches).out = d.out := rfl

@[simp] theorem Dev.purgeLatches_lines (d : Dev) : (d.purgeLatches).lines = d.lines := rfl

@[simp] theorem Dev.purgeLatches_objs (d : Dev) : (d.purgeLatches).objs = d.objs := rfl

/-! `Dev.heard` -/

@[simp] theorem Dev.heard_cfg (d : Dev) (e : Env) : (d.heard e).cfg = d.cfg := by
  unfold Dev.heard; split <;> rfl

@[simp] theorem Dev.heard_blobs (d : Dev) (e : Env) : (d.heard e).blobs = d.blobs := by
  unfold Dev.heard; split <;> rfl

@[simp] theorem Dev.heard_sets (d : Dev) (e : Env) : (d.heard e).sets = d.sets := by
  unfold Dev.heard; split <;> rfl

@[simp] theorem Dev.heard_time (d : Dev) (e : Env) : (d.heard e).time = d.time := by
  unfold Dev.heard; split <;> rfl

@[simp] theorem Dev.heard_tap (d : Dev) (e : Env) : (d.heard e).tap = d.tap := by
  unfold Dev.heard; split <;> rfl

@[simp] theorem Dev.heard_pow (d : Dev) (e : Env) : (d.heard e).pow = d.pow := by
  unfold Dev.heard; split <;> rfl

@[simp] theorem Dev.heard_trc (d : Dev) (e : Env) : (d.heard e).trc = d.trc := by
  unfold Dev.heard; split <;> rfl

@[simp] theorem Dev.heard_rcd (d : Dev) (e : Env) : (d.heard e).rcd = d.rcd := by
  unfold Dev.heard; split <;> rfl

@[simp] theorem Dev.heard_frm (d : Dev) (e : Env) : (d.heard e).frm = d.frm := by
  unfold Dev.heard; split <;> rfl

@[simp] theorem Dev.heard_arb (d : Dev) (e : Env) : (d.heard e).arb = d.arb := by
  unfold Dev.heard; split <;> rfl

@[simp] theorem Dev.heard_stem (d : Dev) (e : Env) : (d.heard e).stem = d.stem := by
  unfold Dev.heard; split <;> rfl

@[simp] theorem Dev.heard_ftest (d : Dev) (e : Env) : (d.heard e).ftest = d.ftest := by
  unfold Dev.heard; split <;> rfl

@[simp] theorem Dev.heard_boot (d : Dev) (e : Env) : (d.heard e).boot = d.boot := by
  unfold Dev.heard; split <;> rfl

@[simp] theorem Dev.heard_tk (d : Dev) (e : Env) : (d.heard e).tk = d.tk := by
  unfold Dev.heard; split <;> rfl

@[simp] theorem Dev.heard_out (d : Dev) (e : Env) : (d.heard e).out = d.out := by
  unfold Dev.heard; split <;> rfl

@[simp] theorem Dev.heard_lines (d : Dev) (e : Env) : (d.heard e).lines = d.lines := by
  unfold Dev.heard; split <;> rfl

@[simp] theorem Dev.heard_objs (d : Dev) (e : Env) : (d.heard e).objs = d.objs := by
  unfold Dev.heard; split <;> rfl

/-! `Dev.remember` -/

@[simp] theorem Dev.remember_cfg (d : Dev) (e : Env) (r : Resp) : (d.remember e r).cfg = d.cfg := rfl

@[simp] theorem Dev.remember_blobs (d : Dev) (e : Env) (r : Resp) : (d.remember e r).blobs = d.blobs := rfl

@[simp] theorem Dev.remember_sets (d : Dev) (e : Env) (r : Resp) : (d.remember e r).sets = d.sets := rfl

@[simp] theorem Dev.remember_time (d : Dev) (e : Env) (r : Resp) : (d.remember e r).time = d.time := rfl

@[simp] theorem Dev.remember_tap (d : Dev) (e : Env) (r : Resp) : (d.remember e r).tap = d.tap := rfl

@[simp] theorem Dev.remember_pow (d : Dev) (e : Env) (r : Resp) : (d.remember e r).pow = d.pow := rfl

@[simp] theorem Dev.remember_trc (d : Dev) (e : Env) (r : Resp) : (d.remember e r).trc = d.trc := rfl

@[simp] theorem Dev.remember_rcd (d : Dev) (e : Env) (r : Resp) : (d.remember e r).rcd = d.rcd := rfl

@[simp] theorem Dev.remember_frm (d : Dev) (e : Env) (r : Resp) : (d.remember e r).frm = d.frm := rfl

@[simp] theorem Dev.remember_arb (d : Dev) (e : Env) (r : Resp) : (d.remember e r).arb = d.arb := rfl

@[simp] theorem Dev.remember_stem (d : Dev) (e : Env) (r : Resp) : (d.remember e r).stem = d.stem := rfl

@[simp] theorem Dev.remember_ftest (d : Dev) (e : Env) (r : Resp) : (d.remember e r).ftest = d.ftest := rfl

@[simp] theorem Dev.remember_boot (d : Dev) (e : Env) (r : Resp) : (d.remember e r).boot = d.boot := rfl

@[simp] theorem Dev.remember_tk (d : Dev) (e : Env) (r : Resp) : (d.remember e r).tk = d.tk := rfl

@[simp] theorem Dev.remember_out (d : Dev) (e : Env) (r : Resp) : (d.remember e r).out = d.out := rfl

@[simp] theorem Dev.remember_lines (d : Dev) (e : Env) (r : Resp) : (d.remember e r).lines = d.lines := rfl

@[simp] theorem Dev.remember_objs (d : Dev) (e : Env) (r : Resp) : (d.remember e r).objs = d.objs := rfl

/-! `Dev.putRecord` -/

@[simp] theorem Dev.putRecord_cfg (d : Dev) (a b c : Nat) (p : Bytes) (o : Option (Nat × Nat)) : (d.putRecord a b c p o).cfg = d.cfg := by
  unfold Dev.putRecord; simp

@[simp] theorem Dev.putRecord_blobs (d : Dev) (a b c : Nat) (p : Bytes) (o : Option (Nat × Nat)) : (d.putRecord a b c p o).blobs = d.blobs := by
  unfold Dev.putRecord; simp

@[simp] theorem Dev.putRecord_srv (d : Dev) (a b c : Nat) (p : Bytes) (o : Option (Nat × Nat)) : (d.putRecord a b c p o).srv = d.srv := by
  unfold Dev.putRecord; simp

@[simp] theorem Dev.putRecord_time (d : Dev) (a b c : Nat) (p : Bytes) (o : Option (Nat × Nat)) : (d.putRecord a b c p o).time = d.time := by
  unfold Dev.putRecord; simp

@[simp] theorem Dev.putRecord_tap (d : Dev) (a b c : Nat) (p : Bytes) (o : Option (Nat × Nat)) : (d.putRecord a b c p o).tap = d.tap := by
  unfold Dev.putRecord; simp

@[simp] theorem Dev.putRecord_pow (d : Dev) (a b c : Nat) (p : Bytes) (o : Option (Nat × Nat)) : (d.putRecord a b c p o).pow = d.pow := by
  unfold Dev.putRecord; simp

@[simp] theorem Dev.putRecord_trc (d : Dev) (a b c : Nat) (p : Bytes) (o : Option (Nat × Nat)) : (d.putRecord a b c p o).trc = d.trc := by
  unfold Dev.putRecord; simp

@[simp] theorem Dev.putRecord_frm (d : Dev) (a b c : Nat) (p : Bytes) (o : Option (Nat × Nat)) : (d.putRecord a b c p o).frm = d.frm := by
  unfold Dev.putRecord; simp

@[simp] theorem Dev.putRecord_arb (d : Dev) (a b c : Nat) (p : Bytes) (o : Option (Nat × Nat)) : (d.putRecord a b c p o).arb = d.arb := by
  unfold Dev.putRecord; simp

@[simp] theorem Dev.putRecord_stem (d : Dev) (a b c : Nat) (p : Bytes) (o : Option (Nat × Nat)) : (d.putRecord a b c p o).stem = d.stem := by
  unfold Dev.putRecord; simp

@[simp] theorem Dev.putRecord_ftest (d : Dev) (a b c : Nat) (p : Bytes) (o : Option (Nat × Nat)) : (d.putRecord a b c p o).ftest = d.ftest := by
  unfold Dev.putRecord; simp

@[simp] theorem Dev.putRecord_boot (d : Dev) (a b c : Nat) (p : Bytes) (o : Option (Nat × Nat)) : (d.putRecord a b c p o).boot = d.boot := by
  unfold Dev.putRecord; simp

@[simp] theorem Dev.putRecord_tk (d : Dev) (a b c : Nat) (p : Bytes) (o : Option (Nat × Nat)) : (d.putRecord a b c p o).tk = d.tk := by
  unfold Dev.putRecord; simp

@[simp] theorem Dev.putRecord_out (d : Dev) (a b c : Nat) (p : Bytes) (o : Option (Nat × Nat)) : (d.putRecord a b c p o).out = d.out := by
  unfold Dev.putRecord; simp

@[simp] theorem Dev.putRecord_lines (d : Dev) (a b c : Nat) (p : Bytes) (o : Option (Nat × Nat)) : (d.putRecord a b c p o).lines = d.lines := by
  unfold Dev.putRecord; simp

/-! `Dev.record` -/

@[simp] theorem Dev.record_cfg (d : Dev) (k : RecKind) (t : Nat) (p : Bytes) : (d.record k t p).cfg = d.cfg := by
  unfold Dev.record; simp

@[simp] theorem Dev.record_blobs (d : Dev) (k : RecKind) (t : Nat) (p : Bytes) : (d.record k t p).blobs = d.blobs := by
  unfold Dev.record; simp

@[simp] theorem Dev.record_srv (d : Dev) (k : RecKind) (t : Nat) (p : Bytes) : (d.record k t p).srv = d.srv := by
  unfold Dev.record; simp

@[simp] theorem Dev.record_time (d : Dev) (k : RecKind) (t : Nat) (p : Bytes) : (d.record k t p).time = d.time := by
  unfold Dev.record; simp

@[simp] theorem Dev.record_tap (d : Dev) (k : RecKind) (t : Nat) (p : Bytes) : (d.record k t p).tap = d.tap := by
  unfold Dev.record; simp

@[simp] theorem Dev.record_pow (d : Dev) (k : RecKind) (t : Nat) (p : Bytes) : (d.record k t p).pow = d.pow := by
  unfold Dev.record; simp

@[simp] theorem Dev.record_trc (d : Dev) (k : RecKind) (t : Nat) (p : Bytes) : (d.record k t p).trc = d.trc := by
  unfold Dev.record; simp

@[simp] theorem Dev.record_frm (d : Dev) (k : RecKind) (t : Nat) (p : Bytes) : (d.record k t p).frm = d.frm := by
  unfold Dev.record; simp

@[simp] theorem Dev.record_arb (d : Dev) (k : RecKind) (t : Nat) (p : Bytes) : (d.record k t p).arb = d.arb := by
  unfold Dev.record; simp

@[simp] theorem Dev.record_stem (d : Dev) (k : RecKind) (t : Nat) (p : Bytes) : (d.record k t p).stem = d.stem := by
  unfold Dev.record; simp

@[simp] theorem Dev.record_ftest (d : Dev) (k : RecKind) (t : Nat) (p : Bytes) : (d.record k t p).ftest = d.ftest := by
  unfold Dev.record; simp

@[simp] theorem Dev.record_boot (d : Dev) (k : RecKind) (t : Nat) (p : Bytes) : (d.record k t p).boot = d.boot := by
  unfold Dev.record; simp

@[simp] theorem Dev.record_tk (d : Dev) (k : RecKind) (t : Nat) (p : Bytes) : (d.record k t p).tk = d.tk := by
  unfold Dev.record; simp

@[simp] theorem Dev.record_out (d : Dev) (k : RecKind) (t : Nat) (p : Bytes) : (d.record k t p).out = d.out := by
  unfold Dev.record; simp

@[simp] theorem Dev.record_lines (d : Dev) (k : RecKind) (t : Nat) (p : Bytes) : (d.record k t p).lines = d.lines := by
  unfold Dev.record; simp

/-! `Dev.timeEvent` -/

@[simp] theorem Dev.timeEvent_cfg (d : Dev) (ev : Nat) (i : Int) : (d.timeEvent ev i).cfg = d.cfg := by
  unfold Dev.timeEvent; simp

@[simp] theorem Dev.timeEvent_blobs (d : Dev) (ev : Nat) (i : Int) : (d.timeEvent ev i).blobs = d.blobs := by
  unfold Dev.timeEvent; simp

@[simp] theorem Dev.timeEvent_srv (d : Dev) (ev : Nat) (i : Int) : (d.timeEvent ev i).srv = d.srv := by
  unfold Dev.timeEvent; simp

@[simp] theorem Dev.timeEvent_time (d : Dev) (ev : Nat) (i : Int) : (d.timeEvent ev i).time = d.time := by
  unfold Dev.timeEvent; simp

@[simp] theorem Dev.timeEvent_tap (d : Dev) (ev : Nat) (i : Int) : (d.timeEvent ev i).tap = d.tap := by
  unfold Dev.timeEvent; simp

@[simp] theorem Dev.timeEvent_pow (d : Dev) (ev : Nat) (i : Int) : (d.timeEvent ev i).pow = d.pow := by
  unfold Dev.timeEvent; simp

@[simp] theorem Dev.timeEvent_trc (d : Dev) (ev : Nat) (i : Int) : (d.timeEvent ev i).trc = d.trc := by
  unfold Dev.timeEvent; simp

@[simp] theorem Dev.timeEvent_frm (d : Dev) (ev : Nat) (i : Int) : (d.timeEvent ev i).frm = d.frm := by
  unfold Dev.timeEvent; simp

@[simp] theorem Dev.timeEvent_arb (d : Dev) (ev : Nat) (i : Int) : (d.timeEvent ev i).arb = d.arb := by
  unfold Dev.timeEvent; simp

@[simp] theorem Dev.timeEvent_stem (d : Dev) (ev : Nat) (i : Int) : (d.timeEvent ev i).stem = d.stem := by
  unfold Dev.timeEvent; simp

@[simp] theorem Dev.timeEvent_ftest (d : Dev) (ev : Nat) (i : Int) : (d.timeEvent ev i).ftest = d.ftest := by
  unfold Dev.timeEvent; simp

@[simp] theorem Dev.timeEvent_boot (d : Dev) (ev : Nat) (i : Int) : (d.timeEvent ev i).boot = d.boot := by
  unfold Dev.timeEvent; simp

@[simp] theorem Dev.timeEvent_tk (d : Dev) (ev : Nat) (i : Int) : (d.timeEvent ev i).tk = d.tk := by
  unfold Dev.timeEvent; simp

@[simp] theorem Dev.timeEvent_out (d : Dev) (ev : Nat) (i : Int) : (d.timeEvent ev i).out = d.out := by
  unfold Dev.timeEvent; simp

@[simp] theorem Dev.timeEvent_lines (d : Dev) (ev : Nat) (i : Int) : (d.timeEvent ev i).lines = d.lines := by
  unfold Dev.timeEvent; simp

/-! `Dev.renameSnap` -/

@[simp] theorem Dev.renameSnap_cfg (d : Dev) (c : SnapCause) (o : Nat) : (d.renameSnap c o).cfg = d.cfg := rfl

@[simp] theorem Dev.renameSnap_blobs (d : Dev) (c : SnapCause) (o : Nat) : (d.renameSnap c o).blobs = d.blobs := rfl

@[simp] theorem Dev.renameSnap_srv (d : Dev) (c : SnapCause) (o : Nat) : (d.renameSnap c o).srv = d.srv := rfl

@[simp] theorem Dev.renameSnap_time (d : Dev) (c : SnapCause) (o : Nat) : (d.renameSnap c o).time = d.time := rfl

@[simp] theorem Dev.renameSnap_tap (d : Dev) (c : SnapCause) (o : Nat) : (d.renameSnap c o).tap = d.tap := rfl

@[simp] theorem Dev.renameSnap_pow (d : Dev) (c : SnapCause) (o : Nat) : (d.renameSnap c o).pow = d.pow := rfl

@[simp] theorem Dev.renameSnap_trc (d : Dev) (c : SnapCause) (o : Nat) : (d.renameSnap c o).trc = d.trc := rfl

@[simp] theorem Dev.renameSnap_frm (d : Dev) (c : SnapCause) (o : Nat) : (d.renameSnap c o).frm = d.frm := rfl

@[simp] theorem Dev.renameSnap_arb (d : Dev) (c : SnapCause) (o : Nat) : (d.renameSnap c o).arb = d.arb := rfl

@[simp] theorem Dev.renameSnap_stem (d : Dev) (c : SnapCause) (o : Nat) : (d.renameSnap c o).stem = d.stem := rfl

@[simp] theorem Dev.renameSnap_ftest (d : Dev) (c : SnapCause) (o : Nat) : (d.renameSnap c o).ftest = d.ftest := rfl

@[simp] theorem Dev.renameSnap_boot (d : Dev) (c : SnapCause) (o : Nat) : (d.renameSnap c o).boot = d.boot := rfl

@[simp] theorem Dev.renameSnap_tk (d : Dev) (c : SnapCause) (o : Nat) : (d.renameSnap c o).tk = d.tk := rfl

@[simp] theorem Dev.renameSnap_out (d : Dev) (c : SnapCause) (o : Nat) : (d.renameSnap c o).out = d.out := rfl

@[simp] theorem Dev.renameSnap_lines (d : Dev) (c : SnapCause) (o : Nat) : (d.renameSnap c o).lines = d.lines := rfl

/-! `Dev.snapshot` -/

@[simp] theorem Dev.snapshot_cfg (d : Dev) (c : SnapCause) (o : Nat) : (d.snapshot c o).cfg = d.cfg := by
  unfold Dev.snapshot; dsimp only; (repeat' split) <;> simp

@[simp] theorem Dev.snapshot_blobs (d : Dev) (c : SnapCause) (o : Nat) : (d.snapshot c o).blobs = d.blobs := by
  unfold Dev.snapshot; dsimp only; (repeat' split) <;> simp

@[simp] theorem Dev.snapshot_srv (d : Dev) (c : SnapCause) (o : Nat) : (d.snapshot c o).srv = d.srv := by
  unfold Dev.snapshot; dsimp only; (repeat' split) <;> simp

@[simp] theorem Dev.snapshot_time (d : Dev) (c : SnapCause) (o : Nat) : (d.snapshot c o).time = d.time := by
  unfold Dev.snapshot; dsimp only; (repeat' split) <;> simp

@[simp] theorem Dev.snapshot_tap (d : Dev) (c : SnapCause) (o : Nat) : (d.snapshot c o).tap = d.tap := by
  unfold Dev.snapshot; dsimp only; (repeat' split) <;> simp

@[simp] theorem Dev.snapshot_pow (d : Dev) (c : SnapCause) (o : Nat) : (d.snapshot c o).pow = d.pow := by
  unfold Dev.snapshot; dsimp only; (repeat' split) <;> simp

@[simp] theorem Dev.snapshot_trc (d : Dev) (c : SnapCause) (o : Nat) : (d.snapshot c o).trc = d.trc := by
  unfold Dev.snapshot; dsimp only; (repeat' split) <;> simp

@[simp] theorem Dev.snapshot_frm (d : Dev) (c : SnapCause) (o : Nat) : (d.snapshot c o).frm = d.frm := by
  unfold Dev.snapshot; dsimp only; (repeat' split) <;> simp

@[simp] theorem Dev.snapshot_arb (d : Dev) (c : SnapCause) (o : Nat) : (d.snapshot c o).arb = d.arb := by
  unfold Dev.snapshot; dsimp only; (repeat' split) <;> simp

@[simp] theorem Dev.snapshot_stem (d : Dev) (c : SnapCause) (o : Nat) : (d.snapshot c o).stem = d.stem := by
  unfold Dev.snapshot; dsimp only; (repeat' split) <;> simp

@[simp] theorem Dev.snapshot_ftest (d : Dev) (c : SnapCause) (o : Nat) : (d.snapshot c o).ftest = d.ftest := by
  unfold Dev.snapshot; dsimp only; (repeat' split) <;> simp

@[simp] theorem Dev.snapshot_boot (d : Dev) (c : SnapCause) (o : Nat) : (d.snapshot c o).boot = d.boot := by
  unfold Dev.snapshot; dsimp only; (repeat' split) <;> simp

@[simp] theorem Dev.snapshot_tk (d : Dev) (c : SnapCause) (o : Nat) : (d.snapshot c o).tk = d.tk := by
  unfold Dev.snapshot; dsimp only; (repeat' split) <;> simp

@[simp] theorem Dev.snapshot_out (d : Dev) (c : SnapCause) (o : Nat) : (d.snapshot c o).out = d.out := by
  unfold Dev.snapshot; dsimp only; (repeat' split) <;> simp

@[simp] theorem Dev.snapshot_lines (d : Dev) (c : SnapCause) (o : Nat) : (d.snapshot c o).lines = d.lines := by
  unfold Dev.snapshot; dsimp only; (repeat' split) <;> simp

/-! `Dev.setUncertain` -/

@[simp] theorem Dev.setUncertain_cfg (d : Dev) (b : Bool) : (d.setUncertain b).cfg = d.cfg := by
  unfold Dev.setUncertain; split <;> simp

@[simp] theorem Dev.setUncertain_blobs (d : Dev) (b : Bool) : (d.setUncertain b).blobs = d.blobs := by
  unfold Dev.setUncertain; split <;> simp

@[simp] theorem Dev.setUncertain_sets (d : Dev) (b : Bool) : (d.setUncertain b).sets = d.sets := by
  unfold Dev.setUncertain; split <;> simp

@[simp] theorem Dev.setUncertain_srv (d : Dev) (b : Bool) : (d.setUncertain b).srv = d.srv := by
  unfold Dev.setUncertain; split <;> simp

@[simp] theorem Dev.setUncertain_tap (d : Dev) (b : Bool) : (d.setUncertain b).tap = d.tap := by
  unfold Dev.setUncertain; split <;> simp

@[simp] theorem Dev.setUncertain_pow (d : Dev) (b : Bool) : (d.setUncertain b).pow = d.pow := by
  unfold Dev.setUncertain; split <;> simp

@[simp] theorem Dev.setUncertain_trc (d : Dev) (b : Bool) : (d.setUncertain b).trc = d.trc := by
  unfold Dev.setUncertain; split <;> simp

@[simp] theorem Dev.setUncertain_rcd (d : Dev) (b : Bool) : (d.setUncertain b).rcd = d.rcd := by
  unfold Dev.setUncertain; split <;> simp

@[simp] theorem Dev.setUncertain_frm (d : Dev) (b : Bool) : (d.setUncertain b).frm = d.frm := by
  unfold Dev.setUncertain; split <;> simp

@[simp] theorem Dev.setUncertain_arb (d : Dev) (b : Bool) : (d.setUncertain b).arb = d.arb := by
  unfold Dev.setUncertain; split <;> simp

@[simp] theorem Dev.setUncertain_stem (d : Dev) (b : Bool) : (d.setUncertain b).stem = d.stem := by
  unfold Dev.setUncertain; split <;> simp

@[simp] theorem Dev.setUncertain_ftest (d : Dev) (b : Bool) : (d.setUncertain b).ftest = d.ftest := by
  unfold Dev.setUncertain; split <;> simp

@[simp] theorem Dev.setUncertain_boot (d : Dev) (b : Bool) : (d.setUncertain b).boot = d.boot := by
  unfold Dev.setUncertain; split <;> simp

@[simp] theorem Dev.setUncertain_tk (d : Dev) (b : Bool) : (d.setUncertain b).tk = d.tk := by
  unfold Dev.setUncertain; split <;> simp

@[simp] theorem Dev.setUncertain_out (d : Dev) (b : Bool) : (d.setUncertain b).out = d.out := by
  unfold Dev.setUncertain; split <;> simp

@[simp] theorem Dev.setUncertain_lines (d : Dev) (b : Bool) : (d.setUncertain b).lines = d.lines := by
  unfold Dev.setUncertain; split <;> simp

/-! `Dev.startFlush` -/

@[simp] theorem Dev.startFlush_cfg (d : Dev) (r : Nat) : (d.startFlush r).cfg = d.cfg := by
  unfold Dev.startFlush; simp

@[simp] theorem Dev.startFlush_blobs (d : Dev) (r : Nat) : (d.startFlush r).blobs = d.blobs := by
  unfold Dev.startFlush; simp

@[simp] theorem Dev.startFlush_srv (d : Dev) (r : Nat) : (d.startFlush r).srv = d.srv := by
  unfold Dev.startFlush; simp

@[simp] theorem Dev.startFlush_time (d : Dev) (r : Nat) : (d.startFlush r).time = d.time := by
  unfold Dev.startFlush; simp

@[simp] theorem Dev.startFlush_tap (d : Dev) (r : Nat) : (d.startFlush r).tap = d.tap := by
  unfold Dev.startFlush; simp

@[simp] theorem Dev.startFlush_pow (d : Dev) (r : Nat) : (d.startFlush r).pow = d.pow := by
  unfold Dev.startFlush; simp

@[simp] theorem Dev.startFlush_trc (d : Dev) (r : Nat) : (d.startFlush r).trc = d.trc := by
  unfold Dev.startFlush; simp

@[simp] theorem Dev.startFlush_frm (d : Dev) (r : Nat) : (d.startFlush r).frm = d.frm := by
  unfold Dev.startFlush; simp

@[simp] theorem Dev.startFlush_arb (d : Dev) (r : Nat) : (d.startFlush r).arb = d.arb := by
  unfold Dev.startFlush; simp

@[simp] theorem Dev.startFlush_stem (d : Dev) (r : Nat) : (d.startFlush r).stem = d.stem := by
  unfold Dev.startFlush; simp

@[simp] theorem Dev.startFlush_ftest (d : Dev) (r : Nat) : (d.startFlush r).ftest = d.ftest := by
  unfold Dev.startFlush; simp

@[simp] theorem Dev.startFlush_boot (d : Dev) (r : Nat) : (d.startFlush r).boot = d.boot := by
  unfold Dev.startFlush; simp

@[simp] theorem Dev.startFlush_tk (d : Dev) (r : Nat) : (d.startFlush r).tk = d.tk := by
  unfold Dev.startFlush; simp

@[simp] theorem Dev.startFlush_out (d : Dev) (r : Nat) : (d.startFlush r).out = d.out := by
  unfold Dev.startFlush; simp

@[simp] theorem Dev.startFlush_lines (d : Dev) (r : Nat) : (d.startFlush r).lines = d.lines := by
  unfold Dev.startFlush; simp

/-! `Dev.staleRes` -/

@[simp] theorem Dev.staleRes_cfg (d : Dev) (i : Nat) : (d.staleRes i).cfg = d.cfg := rfl

@[simp] theorem Dev.staleRes_blobs (d : Dev) (i : Nat) : (d.staleRes i).blobs = d.blobs := rfl

@[simp] theorem Dev.staleRes_sets (d : Dev) (i : Nat) : (d.staleRes i).sets = d.sets := rfl

@[simp] theorem Dev.staleRes_srv (d : Dev) (i : Nat) : (d.staleRes i).srv = d.srv := rfl

@[simp] theorem Dev.staleRes_time (d : Dev) (i : Nat) : (d.staleRes i).time = d.time := rfl

@[simp] theorem Dev.staleRes_tap (d : Dev) (i : Nat) : (d.staleRes i).tap = d.tap := rfl

@[simp] theorem Dev.staleRes_pow (d : Dev) (i : Nat) : (d.staleRes i).pow = d.pow := rfl

@[simp] theorem Dev.staleRes_trc (d : Dev) (i : Nat) : (d.staleRes i).trc = d.trc := rfl

@[simp] theorem Dev.staleRes_rcd (d : Dev) (i : Nat) : (d.staleRes i).rcd = d.rcd := rfl

@[simp] theorem Dev.staleRes_frm (d : Dev) (i : Nat) : (d.staleRes i).frm = d.frm := rfl

@[simp] theorem Dev.staleRes_arb (d : Dev) (i : Nat) : (d.staleRes i).arb = d.arb := rfl

@[simp] theorem Dev.staleRes_stem (d : Dev) (i : Nat) : (d.staleRes i).stem = d.stem := rfl

@[simp] theorem Dev.staleRes_ftest (d : Dev) (i : Nat) : (d.staleRes i).ftest = d.ftest := rfl

@[simp] theorem Dev.staleRes_boot (d : Dev) (i : Nat) : (d.staleRes i).boot = d.boot := rfl

@[simp] theorem Dev.staleRes_tk (d : Dev) (i : Nat) : (d.staleRes i).tk = d.tk := rfl

@[simp] theorem Dev.staleRes_out (d : Dev) (i : Nat) : (d.staleRes i).out = d.out := rfl

@[simp] theorem Dev.staleRes_lines (d : Dev) (i : Nat) : (d.staleRes i).lines = d.lines := rfl

/-! `Dev.pendRes` -/

@[simp] theorem Dev.pendRes_cfg (d : Dev) (i : Nat) : (d.pendRes i).cfg = d.cfg := rfl

@[simp] theorem Dev.pendRes_blobs (d : Dev) (i : Nat) : (d.pendRes i).blobs = d.blobs := rfl

@[simp] theorem Dev.pendRes_sets (d : Dev) (i : Nat) : (d.pendRes i).sets = d.sets := rfl

@[simp] theorem Dev.pendRes_srv (d : Dev) (i : Nat) : (d.pendRes i).srv = d.srv := rfl

@[simp] theorem Dev.pendRes_time (d : Dev) (i : Nat) : (d.pendRes i).time = d.time := rfl

@[simp] theorem Dev.pendRes_tap (d : Dev) (i : Nat) : (d.pendRes i).tap = d.tap := rfl

@[simp] theorem Dev.pendRes_pow (d : Dev) (i : Nat) : (d.pendRes i).pow = d.pow := rfl

@[simp] theorem Dev.pendRes_trc (d : Dev) (i : Nat) : (d.pendRes i).trc = d.trc := rfl

@[simp] theorem Dev.pendRes_rcd (d : Dev) (i : Nat) : (d.pendRes i).rcd = d.rcd := rfl

@[simp] theorem Dev.pendRes_frm (d : Dev) (i : Nat) : (d.pendRes i).frm = d.frm := rfl

@[simp] theorem Dev.pendRes_arb (d : Dev) (i : Nat) : (d.pendRes i).arb = d.arb := rfl

@[simp] theorem Dev.pendRes_stem (d : Dev) (i : Nat) : (d.pendRes i).stem = d.stem := rfl

@[simp] theorem Dev.pendRes_ftest (d : Dev) (i : Nat) : (d.pendRes i).ftest = d.ftest := rfl

@[simp] theorem Dev.pendRes_boot (d : Dev) (i : Nat) : (d.pendRes i).boot = d.boot := rfl

@[simp] theorem Dev.pendRes_tk (d : Dev) (i : Nat) : (d.pendRes i).tk = d.tk := rfl

@[simp] theorem Dev.pendRes_out (d : Dev) (i : Nat) : (d.pendRes i).out = d.out := rfl

@[simp] theorem Dev.pendRes_lines (d : Dev) (i : Nat) : (d.pendRes i).lines = d.lines := rfl

/-! `Dev.completeRes` -/

theorem Dev.setAll_objs (p : List (Nat × Nat)) (i : Nat) (d : Dev) :
    p.foldl (fun (d : Dev) x => d.set (key i x.1) x.2) d =
      { d with objs := (p.foldl (fun (d : Dev) x => d.set (key i x.1) x.2) d).objs } := by
  induction p generalizing d with
  | nil => rfl
  | cons a p ih => simp only [List.foldl_cons]; rw [ih]; rfl

end Sys2Proof.Machine
end

