-- ==== Sys2Proof/Laws/Units.lean ====
section
/-! SUPPORT. What a command on one unit does: `State.on`, `State.onHeld`, `State.onMem`, and the path of a request through
the dictionary server. -/

namespace Sys2Proof.Machine

open Sys2Proof

/-! ### Units of the state -/

@[simp] theorem State.dev_setDev_self (s : State) (d : Dev) (u : UnitId) : (s.setDev d u).dev u = d := by
  cases u with
  | leaf l => cases l <;> rfl
  | trunk => rfl

theorem State.dev_setDev_of_ne (s : State) (d : Dev) (u v : UnitId) (h : v ≠ u) : (s.setDev d u).dev v = s.dev v := by
  cases u with
  | leaf l => cases l <;> cases v with
    | leaf m => cases m <;> first | rfl | exact absurd rfl h
    | trunk => rfl
  | trunk => cases v with
    | leaf m => cases m <;> rfl
    | trunk => exact absurd rfl h

@[simp] theorem State.setDev_pending (s : State) (d : Dev) (u : UnitId) : (s.setDev d u).pending = s.pending := by
  cases u with
  | leaf l => cases l <;> rfl
  | trunk => rfl

@[simp] theorem State.setDev_mem (s : State) (d : Dev) (u : UnitId) : (s.setDev d u).mem = s.mem := by
  cases u with
  | leaf l => cases l <;> rfl
  | trunk => rfl

@[simp] theorem State.withUnit_pending (s : State) (u : UnitId) (d : Dev) : (s.withUnit u d).pending = s.pending :=
  s.setDev_pending _ u

@[simp] theorem State.withUnit_mem (s : State) (u : UnitId) (d : Dev) : (s.withUnit u d).mem = s.mem :=
  s.setDev_mem _ u

@[simp] theorem State.unit_cfg (s : State) (u : UnitId) : (s.unit u).cfg = (s.dev u).cfg := rfl

/-! ### Commands on one unit -/

/-- `State.onHeld` always answers a next state. -/
theorem State.onHeld_eq (s : State) (u : UnitId) (f : Dev → Dev) : s.onHeld u f = .next (s.withUnit u (f (s.unit u))) := rfl

/-- A command on a unit that runs. -/
theorem State.on_runs (s : State) (u : UnitId) (f : Dev → Dev) (h : s.runs u) :
    s.on u f = .next (s.withUnit u (f (s.unit u))) := by
  have : (s.unit u).boot.held = false := h
  simp [State.on, State.onHeld_eq, this]

/-- A command on a unit held in reset changes nothing but its record of what it sends. -/
theorem State.on_held (s : State) (u : UnitId) (f : Dev → Dev) (h : (s.dev u).boot.held = true) :
    s.on u f = .next (s.withUnit u (s.unit u)) := by
  have : (s.unit u).boot.held = true := h
  simp [State.on, State.onHeld_eq, this]

/-- Everything that a command on one unit can do. -/
theorem State.on_yields (s : State) (u : UnitId) (f : Dev → Dev) (P : Dev → Prop) (h : s.runs u) (hp : P (f (s.unit u))) :
    Yields (s.on u f) s u P := ⟨_, s.on_runs u f h, hp⟩

/-- Everything that a command on the trunk and its memory can do. -/
theorem State.onMem_runs (s : State) (f : Dev → Mem → Dev × Mem) (h : s.runs .trunk) :
    s.onMem f = .next { s.withUnit .trunk (f (s.unit .trunk) s.mem).1 with mem := (f (s.unit .trunk) s.mem).2 } := by
  have : (s.unit .trunk).boot.held = false := h
  show (let x := if (s.unit .trunk).boot.held then (s.unit .trunk, s.mem) else f (s.unit .trunk) s.mem
    Host.Outcome.next { s with trunk := { x.1 with cfg := s.trunk.cfg }, mem := x.2 }) = _
  rw [this]
  rfl

theorem State.onMem_yields (s : State) (f : Dev → Mem → Dev × Mem) (P : Dev → Mem → Prop) (h : s.runs .trunk)
    (hp : P (f (s.unit .trunk) s.mem).1 (f (s.unit .trunk) s.mem).2) : YieldsMem (s.onMem f) s P :=
  ⟨_, _, s.onMem_runs f h, hp⟩

/-! ### Requests -/

/-- A request that a unit hears is executed and answered. -/
theorem Dev.serve_of_hears (d : Dev) (e : Env) (op i s off : Nat) (f : Dev → Ans) (h : d.hears e) :
    d.serve e op i s off f = (d.heard e).finish e op i s off (f (d.heard e)) := by
  obtain ⟨h0, h1, h2⟩ := h
  unfold Dev.serve Dev.heard
  by_cases hv : e.via = .lp
  · simp [h0, h1, hv]
  · obtain ⟨h3, h4⟩ := h2 hv
    simp only [h0, h1, hv, Bool.not_true, Bool.false_eq_true, if_false]
    split at h4
    · next x _ =>
      have : x.txns.find? (·.txn = e.txn) = none := by
        rw [List.find?_eq_none]
        intro t ht
        have := List.all_eq_true.mp h4 t ht
        simpa using this
      simp only [this, h3, if_true]
    · next hx =>
      have : ¬ (d.purgeReplay.srv.replay.length ≥ d.purgeReplay.replayCap) := by
        have : d.purgeReplay.replayCap = d.replayCap := rfl
        omega
      simp only [this, if_false, h3, if_true]

theorem leNat_leBytes (n v : Nat) (h : v < 256 ^ n) : leNat (leBytes n v) = v := by
  induction n generalizing v with
  | zero => simp at h; simp [leBytes, leNat, h]
  | succ n ih =>
    have : v / 256 < 256 ^ n := by rw [Nat.div_lt_iff_lt_mul (by decide)]; rw [Nat.pow_succ] at h; omega
    simp only [leBytes, leNat, ih _ this, BitVec.toNat_ofNat]
    omega

theorem length_leBytes (n v : Nat) : (leBytes n v).length = n := by
  induction n generalizing v with
  | zero => rfl
  | succ n ih => simp [leBytes, ih]

/-! What forgetting expired responses keeps. -/

@[simp] theorem Dev.heard_get (d : Dev) (e : Env) (k : Nat) : (d.heard e).get k = d.get k := by
  unfold Dev.heard; split <;> rfl
@[simp] theorem Dev.heard_serves (d : Dev) (e : Env) (i : Nat) : (d.heard e).serves i = d.serves i := by
  unfold Dev.heard; split <;> rfl

@[simp] theorem Dev.heard_cmdRuns (d : Dev) (e : Env) (r : Row) (i s : Nat) : (d.heard e).cmdRuns r i s = d.cmdRuns r i s := by
  unfold Dev.heard; split <;> rfl

theorem OType.size_le (t : OType) (h : t.isBlob = false) : t.size ≤ 8 := by cases t <;> first | decide | simp [OType.isBlob] at h
theorem OType.pow_size (t : OType) : 256 ^ t.size = 2 ^ (8 * t.size) := by rw [Nat.pow_mul]

/-- A write that passes the checks that every object shares reaches the object's own effect with the value written. -/
theorem Dev.writeAns_of_row (d : Dev) (e : Env) (i s v : Nat) (r : Row) (f : Dev → Nat → Bytes → Ans)
    (hs : d.serves i = true) (hu : e.via = .lp → e.user = false) (hr : d.cfg.rowOf i s = some r)
    (h1 : r.acc ≠ .ro) (h2 : r.acc ≠ .res) (h3 : r.ty.isBlob = false) (h4 : r.admits v = true)
    (h5 : v < 2 ^ (8 * r.ty.size)) (h6 : d.cmdRuns r i s = false) :
    d.writeAns e i s 0 r.ty.size true (leBytes r.ty.size v) f = f d (r.masked v) [] := by
  have hsz := OType.size_le r.ty h3
  have hl := length_leBytes r.ty.size v
  have hv : leNat ((leBytes r.ty.size v).take r.ty.size) = v := by
    rw [List.take_of_length_le (by omega), leNat_leBytes _ _ (by rw [OType.pow_size]; exact h5)]
  have hlp : ¬ (e.via = .lp ∧ e.user = true) := by rintro ⟨a, b⟩; rw [hu a] at b; cases b
  unfold Dev.writeAns
  simp only [hs, hr, Bool.not_true, Bool.false_eq_true, if_false]
  rw [if_neg (by simpa using hlp), if_neg (by simp [h3]), if_neg (by simp [hl]; omega), if_neg (by simp [h1, h2])]
  simp only [h3, Bool.false_eq_true, if_false]
  simp [hv, h4, h6]

/-- A write accepted: its own effect, then the response. -/
theorem Dev.serveWrite_of_accepts (d : Dev) (e : Env) (i s v : Nat) (f : Dev → Nat → Bytes → Ans) (hi : key i s / 256 = i)
    (hs : key i s % 256 = s) (h : d.accepts e i s v) :
    ∃ r, d.cfg.rowOf i s = some r ∧
      d.serveWrite e i s v f = (d.heard e).finish e 0x02 i s 0 (f (d.heard e) (r.masked v) []) := by
  obtain ⟨hh, hsv, hu, r, hr, h1, h2, h3, h4, h5, h6⟩ := h
  refine ⟨r, hr, ?_⟩
  have hw : d.cfg.width (key i s) / 8 = r.ty.size := by
    unfold Cfg.width
    rw [hi, hs, hr]
    simp
  unfold Dev.serveWrite
  simp only [hw]
  rw [Dev.serve_of_hears _ _ _ _ _ _ _ hh]
  rw [Dev.writeAns_of_row _ e i s v r f (by simpa using hsv) hu (by simpa using hr) h1 h2 h3 h4 h5 (by simpa using h6)]

end Sys2Proof.Machine
end

