-- ==== Sys2Proof/Laws/Link.lean ====
section
/-! SUPPORT. The laws of what goes over the links: byte strings laid end to end, and a flit that is read as it was sent. -/

namespace Sys2Proof.Machine

@[simp] theorem bytesAt_length (bs : Bytes) (off len : Nat) : (bytesAt bs off len).length = len := by
  simp only [bytesAt, List.length_append, List.length_replicate, List.length_take, List.length_drop]
  omega

/-- The bytes before an offset are those of a prefix of that length. -/
theorem bytesAt_append_left (a b : Bytes) (n : Nat) (h : a.length = n) : bytesAt (a ++ b) 0 n = a := by
  subst h
  simp [bytesAt]

/-- The bytes from an offset on are those that follow a prefix of that length. -/
theorem bytesAt_append_right (a b : Bytes) (n k : Nat) (h : a.length = n) (hb : b.length = k) : bytesAt (a ++ b) n k = b := by
  subst h hb
  simp [bytesAt]

@[simp] theorem Flit.front_length (f : Flit) : f.front.length = 636 := by
  simp only [Flit.front, List.length_append, length_leBytes, bytesAt_length]

/-- A CRC-32C is a number of 32 bits. -/
theorem crc32c_lt (bs : Bytes) : crc32c bs < 2 ^ 32 := (~~~ (crc32cStep 0xFFFFFFFF#32 bs)).isLt

/-- The Crc of 640 bytes whose first 636 are those of a flit holds where the last four spell it (R384). -/
theorem readFlit_crcOk (f : Flit) (v : Nat) (h : v < 2 ^ 32) :
    (readFlit (f.front ++ leBytes 4 v)).crcOk = decide (crc32c f.front = v) := by
  have e1 : bytesAt (f.front ++ leBytes 4 v) 0 636 = f.front := bytesAt_append_left _ _ _ f.front_length
  have e2 : bytesAt (f.front ++ leBytes 4 v) 636 4 = leBytes 4 v :=
    bytesAt_append_right _ _ _ _ f.front_length (length_leBytes _ _)
  have e3 : leNat (leBytes 4 v) = v := leNat_leBytes _ _ h
  show decide (crc32c (bytesAt _ 0 636) = natAt _ 636 4) = _
  rw [natAt, e1, e2, e3]

/-- A flit that is read as it was sent is good (R384). -/
theorem readFlit_bytes_crcOk (f : Flit) : (readFlit f.bytes).crcOk = true :=
  (readFlit_crcOk f _ (crc32c_lt _)).trans (decide_eq_true rfl)

/-- A flit whose Crc has one bit changed fails (R384). -/
theorem readFlit_crcOk_flipped (f : Flit) : (readFlit (f.front ++ leBytes 4 (crc32c f.front ^^^ 1))).crcOk = false := by
  have h := crc32c_lt f.front
  have hx : crc32c f.front ^^^ 1 < 2 ^ 32 := Nat.xor_lt_two_pow h (by decide)
  rw [readFlit_crcOk f _ hx]
  refine decide_eq_false fun e => ?_
  have := congrArg (crc32c f.front ^^^ ·) e
  simp at this

end Sys2Proof.Machine
end

