-- ==== Sys2Proof/Laws/Memory.lean ====
section
/-! SUPPORT. The trunk's memory: every operation on it keeps its canonical form, a read after a write gives what was written,
a write leaves every other byte, and memories of the same bytes are the same data. -/

namespace Sys2Proof.Machine

open Sys2Proof

theorem rising_iff (l : List Nat) : rising l = true ↔ l.Pairwise (· < ·) := by
  induction l with
  | nil => simp [rising]
  | cons a l ih =>
    cases l with
    | nil => simp [rising]
    | cons b l =>
      simp only [rising, Bool.and_eq_true, decide_eq_true_eq, ih, List.pairwise_cons, List.mem_cons, forall_eq_or_imp]
      constructor
      · rintro ⟨hab, hb, hl⟩
        exact ⟨⟨hab, fun x hx => hab.trans (hb x hx)⟩, hb, hl⟩
      · rintro ⟨⟨hab, -⟩, hb, hl⟩
        exact ⟨hab, hb, hl⟩

theorem Mem.wf_iff (m : Mem) :
    Mem.wf m = true ↔ m.Pairwise (fun c e => c.1 < e.1) ∧ ∀ c ∈ m, c.2 ≠ 0 := by
  simp [Mem.wf, rising_iff, List.pairwise_map]

theorem mem_insertKey {α : Type} {k : Nat} {v : α} {l : List (Nat × α)} {x : Nat × α} (h : x ∈ insertKey k v l) :
    x = (k, v) ∨ x ∈ l := by
  induction l with
  | nil => simpa [insertKey] using h
  | cons y l ih =>
    unfold insertKey at h
    split at h
    · rcases List.mem_cons.1 h with h | h
      · exact .inl h
      · exact .inr (List.mem_cons_of_mem _ h)
    · split at h
      · rcases List.mem_cons.1 h with h | h
        · exact .inl h
        · exact .inr h
      · rcases List.mem_cons.1 h with rfl | h
        · exact .inr (List.mem_cons_self ..)
        · rcases ih h with h | h
          · exact .inl h
          · exact .inr (List.mem_cons_of_mem _ h)

theorem insertKey_rising {α : Type} (k : Nat) (v : α) {l : List (Nat × α)} (h : l.Pairwise fun c e => c.1 < e.1) :
    (insertKey k v l).Pairwise fun c e => c.1 < e.1 := by
  induction l with
  | nil => simp [insertKey]
  | cons y l ih =>
    obtain ⟨hy, hl⟩ := List.pairwise_cons.1 h
    unfold insertKey
    split
    · rename_i hk
      exact List.pairwise_cons.2 ⟨fun x hx => hk ▸ hy x hx, hl⟩
    · split
      · rename_i hk
        refine List.pairwise_cons.2 ⟨fun x hx => ?_, h⟩
        rcases List.mem_cons.1 hx with rfl | hx
        · exact hk
        · exact lt_trans hk (hy x hx)
      · rename_i hne hnl
        refine List.pairwise_cons.2 ⟨fun x hx => ?_, ih hl⟩
        rcases mem_insertKey hx with rfl | hx
        · simp only at hne hnl ⊢; omega
        · exact hy x hx

theorem eraseKey_rising {α : Type} (k : Nat) {l : List (Nat × α)} (h : l.Pairwise fun c e => c.1 < e.1) :
    (eraseKey k l).Pairwise fun c e => c.1 < e.1 := h.sublist List.filter_sublist

theorem lookupKey_insertKey {α : Type} (k j : Nat) (v : α) (l : List (Nat × α)) :
    lookupKey j (insertKey k v l) = if j = k then some v else lookupKey j l := by
  induction l with
  | nil => simp only [insertKey, lookupKey, @eq_comm _ k j]; split <;> simp_all
  | cons y l ih =>
    unfold insertKey
    split
    · rename_i hk
      simp only [lookupKey, hk]
      by_cases hj : j = k
      · subst hj; simp
      · simp [hj, Ne.symm hj]
    · split
      · rename_i hne hlt
        by_cases hj : j = k
        · subst hj; simp [lookupKey]
        · by_cases hjk : j < k
          · simp only [lookupKey, Ne.symm hj, hj, hjk, if_false, if_true]
            rw [if_neg (by omega), if_pos (by omega)]
          · simp only [lookupKey, Ne.symm hj, hj, hjk, if_false]
      · simp only [lookupKey, ih]
        by_cases hj : j = k
        · subst hj; simp_all
        · simp [hj]

theorem lookupKey_eraseKey {α : Type} (k j : Nat) {l : List (Nat × α)} (h : l.Pairwise fun c e => c.1 < e.1) :
    lookupKey j (eraseKey k l) = if j = k then none else lookupKey j l := by
  have none_of (i : Nat) (l : List (Nat × α)) (hl : ∀ x ∈ l, i < x.1) : lookupKey i l = none := by
    cases l with
    | nil => rfl
    | cons y l =>
      have := hl y (List.mem_cons_self ..)
      simp only [lookupKey]
      rw [if_neg (by omega), if_pos this]
  induction l with
  | nil => simp [eraseKey, lookupKey]
  | cons y l ih =>
    obtain ⟨hy, hl⟩ := List.pairwise_cons.1 h
    have e := ih hl
    unfold eraseKey at e ⊢
    by_cases hk : y.1 = k
    · rw [List.filter_cons_of_neg (by simp [hk]), e]
      by_cases hj : j = k
      · simp [hj]
      · rw [if_neg hj, if_neg hj]
        simp only [lookupKey]
        rw [if_neg (by omega)]
        split
        · exact none_of j l fun x hx => lt_trans ‹_› (hy x hx)
        · rfl
    · rw [List.filter_cons_of_pos (by simpa using hk)]
      simp only [lookupKey, e]
      by_cases hj : j = k
      · subst hj; simp [hk]
      · simp [hj]

/-! ### One byte -/

theorem Mem.put_wf {m : Mem} (h : Mem.wf m = true) (a : Nat) (b : Byte) : Mem.wf (m.put a b) = true := by
  rw [Mem.wf_iff] at h ⊢
  unfold Mem.put
  split
  · exact ⟨eraseKey_rising a h.1, fun c hc => h.2 c (List.mem_filter.1 hc).1⟩
  · refine ⟨insertKey_rising a b h.1, fun c hc => ?_⟩
    rcases mem_insertKey hc with rfl | hc
    · assumption
    · exact h.2 c hc

theorem Mem.byte_put {m : Mem} (h : Mem.wf m = true) (a : Nat) (b : Byte) (x : Nat) :
    (m.put a b).byte x = if x = a then b else m.byte x := by
  unfold Mem.put Mem.byte
  split
  · rw [lookupKey_eraseKey a x ((Mem.wf_iff m).1 h).1]
    split <;> simp_all
  · rw [lookupKey_insertKey]
    split <;> simp_all

/-! ### Strings of bytes -/

theorem Mem.write_wf {m : Mem} (h : Mem.wf m = true) (a : Nat) (bs : Bytes) : Mem.wf (m.write a bs) = true := by
  induction bs generalizing m a with
  | nil => exact h
  | cons b bs ih => exact ih (Mem.put_wf h a b) (a + 1)

theorem Mem.write_holds {m : Mem} (h : Mem.wf m = true) (a : Nat) (bs : Bytes) : Mem.holds m (m.write a bs) a bs := by
  induction bs generalizing m a with
  | nil => intro x; rw [if_neg (by simp)]; rfl
  | cons b bs ih =>
    intro x
    have e := ih (Mem.put_wf h a b) (a + 1) x
    show ((m.put a b).write (a + 1) bs).byte x = _
    rw [e, Mem.byte_put h]
    simp only [List.length_cons]
    by_cases hx : x = a
    · subst hx
      rw [if_neg (by omega), if_pos rfl, if_pos (by omega)]
      simp
    · by_cases hr : a + 1 ≤ x ∧ x < a + 1 + bs.length
      · rw [if_pos hr, if_pos (by omega)]
        obtain ⟨n, rfl⟩ : ∃ n, x = a + 1 + n := ⟨x - (a + 1), by omega⟩
        rw [show a + 1 + n - (a + 1) = n by omega, show a + 1 + n - a = n + 1 by omega]
        simp
      · rw [if_neg hr, if_neg hx, if_neg (by omega)]

theorem Mem.foldl_wf {α : Type} (f : Mem → α → Mem) (hf : ∀ m x, Mem.wf m = true → Mem.wf (f m x) = true) (l : List α)
    {m : Mem} (h : Mem.wf m = true) : Mem.wf (l.foldl f m) = true := by
  induction l generalizing m with
  | nil => exact h
  | cons x l ih => exact ih (hf m x h)

theorem Mem.writeCtx_wf {m : Mem} (h : Mem.wf m = true) (a : Nat) (c : Ctx) (made : Bytes) :
    Mem.wf (m.writeCtx a c made) = true := by
  unfold Mem.writeCtx
  exact Mem.write_wf (Mem.foldl_wf _ (fun m x hm => Mem.put_wf hm _ _) _ h) _ _

theorem writeLease_wf {m : Mem} (h : Mem.wf m = true) (pages : List (Nat × Nat)) (o : Nat) (bs : Bytes) :
    Mem.wf (writeLease m pages o bs) = true := by
  induction bs generalizing m o with
  | nil => exact h
  | cons b bs ih => exact ih (Mem.put_wf h _ b) (o + 1)

theorem Dev.putResult_wf (d : Dev) {m : Mem} (h : Mem.wf m = true) (x : DescSt) (res : Bytes) :
    Mem.wf (d.putResult m x res) = true := by
  unfold Dev.putResult
  dsimp only
  split
  · exact h
  · exact Mem.write_wf h _ _

/-! ### Equal memories -/

/-- The canonical form is canonical: memories that hold the same bytes are the same list of cells. -/
theorem Mem.ext_byte {m n : Mem} (hm : Mem.wf m = true) (hn : Mem.wf n = true) (h : ∀ x, m.byte x = n.byte x) : m = n := by
  rw [Mem.wf_iff] at hm hn
  have byte_mem {m : Mem} (hm : m.Pairwise fun c e => c.1 < e.1) : ∀ c ∈ m, m.byte c.1 = c.2 := by
    induction m with
    | nil => simp
    | cons y l ih =>
      obtain ⟨hy, hl⟩ := List.pairwise_cons.1 hm
      intro c hc
      rcases List.mem_cons.1 hc with rfl | hc
      · simp [Mem.byte, lookupKey]
      · have := hy c hc
        rw [← ih hl c hc]
        unfold Mem.byte
        conv => lhs; rw [show lookupKey c.1 (y :: l) = lookupKey c.1 l from by
          simp only [lookupKey]; rw [if_neg (by omega), if_neg (by omega)]]
  have mem_byte (m : Mem) (x : Nat) (hx : m.byte x ≠ 0) : (x, m.byte x) ∈ m := by
    induction m with
    | nil => simp [Mem.byte, lookupKey] at hx
    | cons y l ih =>
      unfold Mem.byte at hx ⊢
      simp only [lookupKey] at hx ⊢
      by_cases h1 : y.1 = x
      · rw [if_pos h1]; subst h1; simp
      · by_cases h2 : x < y.1
        · rw [if_neg h1, if_pos h2] at hx; simp at hx
        · rw [if_neg h1, if_neg h2] at hx ⊢
          exact List.mem_cons_of_mem _ (ih hx)
  have sub {m n : Mem} (hm : m.Pairwise fun c e => c.1 < e.1) (hz : ∀ c ∈ m, c.2 ≠ 0) (h : ∀ x, m.byte x = n.byte x) :
      m ⊆ n := by
    intro c hc
    have e := byte_mem hm c hc
    have := mem_byte n c.1 (by rw [← h, e]; exact hz c hc)
    rwa [← h, e] at this
  have nodup {m : Mem} (hm : m.Pairwise fun c e => c.1 < e.1) : m.Nodup :=
    hm.imp fun {a b} hab he => by subst he; exact lt_irrefl _ hab
  refine List.Perm.eq_of_pairwise (fun a b _ _ h1 h2 => absurd (lt_trans h1 h2) (lt_irrefl _)) hm.1 hn.1 ?_
  exact (List.perm_ext_iff_of_nodup (nodup hm.1) (nodup hn.1)).2 fun c =>
    ⟨fun hc => sub hm.1 hm.2 h hc, fun hc => sub hn.1 hn.2 (fun x => (h x).symm) hc⟩

/-! ### Commands -/

/-- A command on the trunk's memory answers a next state; the memory is canonical where the command's function keeps it so, and
the leaves and the queue stay. -/
theorem State.onMem_next (s : State) (f : Dev → Mem → Dev × Mem) (h : Mem.wf s.mem = true)
    (hf : ∀ d m, Mem.wf m = true → Mem.wf (f d m).2 = true) :
    ∃ t, s.onMem f = .next t ∧ Mem.wf t.mem = true ∧ t.leaf = s.leaf ∧ t.self = s.self ∧ t.trunk.cfg = s.trunk.cfg ∧
      t.pending = s.pending := by
  refine ⟨_, rfl, ?_, rfl, rfl, rfl, rfl⟩
  show Mem.wf (if s.trunk.boot.held then ({ s.trunk with out := [], lines := [] }, s.mem)
    else f { s.trunk with out := [], lines := [] } s.mem).2 = true
  split
  · exact h
  · exact hf _ _ h

theorem State.runOp_next (s : State) (r i engine op : Nat) (f : Dev → Mem → DescSt → OpOut) (h : Mem.wf s.mem = true)
    (hf : ∀ d m x, Mem.wf m = true → Mem.wf (f d m x).2.2 = true) :
    ∃ t, s.runOp r i engine op f = .next t ∧ Mem.wf t.mem = true ∧ t.leaf = s.leaf ∧ t.self = s.self ∧
      t.trunk.cfg = s.trunk.cfg ∧ t.pending = s.pending := by
  refine State.onMem_next s _ h fun d m hm => ?_
  dsimp only
  split
  · exact hm
  · split
    · exact hm
    · exact hf _ _ _ hm

end Sys2Proof.Machine
end

