-- ==== Sys2Proof/Laws/Send.lean ====
section
/-! SUPPORT. What sending an SDP message in-band, a response or a NOTIFY can change: the queues and counters of the links, the
violation log and proxy slots (a message that a fence stops is answered at once), and what the unit sends. Everything else
stays. -/

namespace Sys2Proof.Machine

open Sys2Proof

/-- Is an object one that sending a message can change: violations, always-on counts, uplink queue lengths, the torus's flags
and counters, fence counters? -/
def sendKey (k : Nat) : Bool :=
  [0x1F80, 0x2108, 0x2901, 0x2902, 0x2903, 0x2904, 0x2905, 0x2906, 0x3108, 0x3109, 0x310A, 0x3128].contains (k / 256)

/-- Everything that sending a message can do. -/
structure Dev.Sends (d d' : Dev) : Prop where
  keep : d' = { d with objs := d'.objs, sets := d'.sets, srv := d'.srv, arb := d'.arb, tk := d'.tk, out := d'.out, lines := d'.lines }
  tk : d'.tk = { d.tk with fab := d'.tk.fab }
  srv : d'.srv = { d.srv with vlog := d'.srv.vlog, slots := d'.srv.slots, received := d'.srv.received }
  out : ∃ l, d'.out = d.out ++ l
  get : ∀ k, sendKey k = false → d'.get k = d.get k

theorem Dev.Sends.refl (d : Dev) : d.Sends d := ⟨rfl, rfl, rfl, ⟨[], by simp⟩, fun _ _ => rfl⟩

theorem Dev.Sends.trans {a b c : Dev} (h : a.Sends b) (g : b.Sends c) : a.Sends c := by
  refine ⟨?_, ?_, ?_, ?_, fun k hk => (g.get k hk).trans (h.get k hk)⟩
  · conv => lhs; rw [g.keep, h.keep]
  · conv => lhs; rw [g.tk, h.tk]
  · conv => lhs; rw [g.srv, h.srv]
  · obtain ⟨l, hl⟩ := h.out
    obtain ⟨m, hm⟩ := g.out
    exact ⟨l ++ m, by rw [hm, hl, List.append_assoc]⟩

theorem Dev.Sends.set (d : Dev) (k v : Nat) (h : sendKey k = true) : d.Sends (d.set k v) :=
  ⟨rfl, rfl, rfl, ⟨[], by simp⟩, fun j hj => d.get_set_of_ne j k v (by rintro rfl; rw [h] at hj; cases hj)⟩

theorem Dev.Sends.add (d : Dev) (k n : Nat) (h : sendKey k = true) : d.Sends (d.add k n) := by
  unfold Dev.add; dsimp only; split <;> exact .set _ _ _ h

theorem Dev.Sends.inc (d : Dev) (k : Nat) (h : sendKey k = true) : d.Sends (d.inc k) := .add d k 1 h

theorem Dev.Sends.always (d : Dev) (b n : Nat) (hb : b < 256) : d.Sends (d.always b n) := by
  unfold Dev.always
  split
  · exact .refl d
  · refine .set _ _ _ ?_
    unfold sendKey key
    rw [show (0x2108 * 256 + b) / 256 = 0x2108 by omega]
    rfl

theorem Dev.Sends.sets (d : Dev) (l : List (Nat × Nat)) : d.Sends { d with sets := l } :=
  ⟨rfl, rfl, rfl, ⟨[], by simp⟩, fun _ _ => rfl⟩

theorem Dev.Sends.flag (d : Dev) (b : Nat) (hb : b < 255) : d.Sends (d.flag 0x3108 b) := by
  unfold Dev.flag
  dsimp only
  split
  · exact .set _ _ _ (by decide)
  refine .trans (.trans (.trans (.set d 0x3108_00 _ (by decide)) (.set _ _ _ ?_)) (.always _ 0x22 1 (by decide))) (.sets _ _)
  unfold sendKey key
  rw [show ((0x3108 + 1) * 256 + (b + 1)) / 256 = 0x3109 by omega]
  rfl

theorem Dev.Sends.drive (d : Dev) (l : List Wire) : d.Sends (d.drive l) := ⟨rfl, rfl, rfl, ⟨[], by simp [Dev.drive]⟩, fun _ _ => rfl⟩

theorem Dev.Sends.emit (d : Dev) (o : Out) : d.Sends (d.emit o) := ⟨rfl, rfl, rfl, ⟨[o], rfl⟩, fun _ _ => rfl⟩

theorem Dev.Sends.modFab (d : Dev) (f : FabricSt → FabricSt) : d.Sends (d.modFab f) :=
  ⟨rfl, rfl, rfl, ⟨[], by simp [Dev.modFab]⟩, fun _ _ => rfl⟩

theorem Dev.Sends.violation (d : Dev) (a b c t : Nat) : d.Sends (d.violation a b c t) := by
  unfold Dev.violation
  dsimp only
  refine .trans (.trans (.trans ?_ (.set _ _ _ (by decide))) (.set _ _ _ (by decide))) (.always _ _ _ (by decide))
  exact .trans (.set d 0x1F80_01 _ (by decide)) ⟨rfl, rfl, rfl, ⟨[], by simp⟩, fun _ _ => rfl⟩

theorem Dev.Sends.fenceLog (d : Dev) (f : Fence) (a t : Nat) : d.Sends (d.fenceLog f a t) :=
  .trans (.trans (.violation _ _ _ _ _) (.inc _ _ (by decide))) (.flag _ _ (by decide))

theorem Dev.Sends.unroutable (d : Dev) : d.Sends d.unroutable := .trans (.inc _ _ (by decide)) (.flag _ _ (by decide))

theorem Dev.Sends.pushPort (d : Dev) (i : Option (Nat × Nat × Nat)) (vc p : Nat) (m : PMsg) : d.Sends (d.pushPort i vc p m) := by
  unfold Dev.pushPort Dev.pushEgress Dev.modEgress; exact .modFab _ _

theorem Dev.Sends.toLeaf (d : Dev) (n c : Nat) (bs : Bytes) : d.Sends (d.toLeaf n c bs) := by
  unfold Dev.toLeaf Dev.pushEgress Dev.modEgress; exact .modFab _ _

theorem Dev.Sends.sendFree (d : Dev) (m : PMsg) : d.Sends (d.sendFree m) := by
  unfold Dev.sendFree
  dsimp only
  refine .trans (.inc d 0x310A_03 (by decide)) ?_
  split
  · exact .unroutable _
  · split
    · split
      · exact .pushPort _ _ _ _ _
      · exact .unroutable _
    · exact .unroutable _

theorem Dev.Sends.owe (d : Dev) (s : Nat) (e : Bytes) : d.Sends (d.owe s e) := by
  unfold Dev.owe
  dsimp only
  split
  · exact .emit _ _
  · split
    · exact .trans (.modFab _ _) (.inc _ _ (by decide))
    · exact .trans (.trans (.modFab _ _) (.inc _ _ (by decide))) (.sendFree _ _)

theorem Dev.Sends.sendEther (d : Dev) (v : Via) (sg a : Nat) (r : Resp) : d.Sends (d.sendEther v sg a r) := .drive _ _

theorem Dev.Sends.sendProxied (d : Dev) (o : Origin) (r : Resp) : d.Sends (d.sendProxied o r) := by
  cases o with
  | mac a => exact .trans (.emit _ _) (.sendEther _ _ _ _ _)
  | udp a p => exact .emit _ _

theorem Dev.Sends.answerSdp (d : Dev) (bs : Bytes) : d.Sends (d.answerSdp bs) := by
  unfold Dev.answerSdp
  dsimp only
  split
  · exact .sendFree _ _
  · split
    · exact .toLeaf _ _ _ _
    · split
      · next x _ =>
        exact .trans (b := { d with srv := { d.srv with slots := d.srv.slots.filter (·.slot != x.slot) } })
          ⟨rfl, rfl, rfl, ⟨[], by simp⟩, fun _ _ => rfl⟩ (.sendProxied _ _ _)
      · exact ⟨rfl, rfl, rfl, ⟨[], by simp⟩, fun _ _ => rfl⟩

theorem Dev.Sends.fenced (d : Dev) (f : Fence) (p : Nat) (m : PMsg) : d.Sends (d.fenced f p m) := by
  unfold Dev.fenced
  dsimp only
  split
  · exact .trans (.fenceLog _ _ _ _) (.answerSdp _ _)
  · exact .trans (.fenceLog _ _ _ _) (.owe _ _ _)

theorem Dev.Sends.sendPort (d : Dev) (i : Option (Nat × Nat × Nat)) (vc p : Nat) (m : PMsg) :
    d.Sends (d.sendPort i vc p m) := by
  unfold Dev.sendPort
  split
  · exact .unroutable _
  · split
    · exact .fenced _ _ _ _
    · exact .pushPort _ _ _ _ _

theorem Dev.Sends.originate (d : Dev) (m : PMsg) : d.Sends (d.originate m) := by
  unfold Dev.originate
  dsimp only
  refine .trans (.inc d 0x310A_03 (by decide)) ?_
  split
  · exact .unroutable _
  · split
    · exact .sendPort _ _ _ _ _
    · exact .unroutable _

theorem Dev.Sends.toLeafSdp (d : Dev) (src p : Nat) (bs : Bytes) : d.Sends (d.toLeafSdp src p bs) := by
  unfold Dev.toLeafSdp
  dsimp only
  split
  · exact .fenced _ _ _ _
  · exact .toLeaf _ _ _ _

theorem Dev.Sends.sendSdp (d : Dev) (dest p : Nat) (bs : Bytes) : d.Sends (d.sendSdp dest p bs) := by
  unfold Dev.sendSdp
  dsimp only
  split
  · split
    · exact .refl _
    · exact .toLeafSdp _ _ _ _
  · exact .originate _ _

theorem Dev.Sends.queueUp (d : Dev) (src : USrc) (x : Xfer) : d.Sends (d.queueUp src x) := by
  unfold Dev.queueUp Dev.setQueue
  dsimp only
  generalize markHead _ _ = q
  generalize List.length _ = n
  refine .trans (b := { d with arb := { d.arb with queues := d.arb.queues.set src.num q } }) ?_
    (.set _ _ _ (by cases src <;> decide))
  exact ⟨rfl, rfl, rfl, ⟨[], by simp⟩, fun _ _ => rfl⟩

theorem Dev.Sends.sendInband (d : Dev) (dest : Nat) (bs : Bytes) : d.Sends (d.sendInband dest bs) := by
  unfold Dev.sendInband
  split
  · exact .sendSdp _ _ _ _
  · exact .queueUp _ _ _

theorem Dev.Sends.respond (d : Dev) (v : Via) (sg a : Nat) (r : Resp) : d.Sends (d.respond v sg a r) := by
  unfold Dev.respond
  dsimp only
  split
  · exact .trans (.emit _ _) (.sendInband _ _ _)
  · exact .trans (.emit _ _) (.sendEther _ _ _ _ _)
  · exact .trans (.emit _ _) (.sendEther _ _ _ _ _)
  · exact .emit _ _
  · exact .emit _ _

theorem Dev.Sends.foldl {α : Type} (f : Dev → α → Dev) (h : ∀ (d : Dev) (a : α), d.Sends (f d a)) (l : List α) (d : Dev) :
    d.Sends (l.foldl f d) := by
  induction l generalizing d with
  | nil => exact .refl d
  | cons a l ih => exact .trans (h d a) (ih _)

theorem Dev.Sends.notify (d : Dev) (i : Nat) : d.Sends (d.notify i) := by
  unfold Dev.notify
  refine .foldl _ (fun d x => ?_) _ d
  unfold Dev.notifyOne
  dsimp only
  exact .foldl _ (fun d _ => .respond d _ _ _ _) _ d

/-! ### Completing a result -/

/-- The objects after a list of payload values is set. -/
theorem Dev.get_setAll_of_ne (i j : Nat) (p : List (Nat × Nat)) (d : Dev) (h : ∀ x ∈ p, j ≠ key i x.1) :
    (p.foldl (fun (d : Dev) x => d.set (key i x.1) x.2) d).get j = d.get j := by
  induction p generalizing d with
  | nil => rfl
  | cons a p ih =>
    simp only [List.foldl_cons]
    rw [ih _ (fun x hx => h x (List.mem_cons_of_mem _ hx)), Dev.get_set_of_ne _ _ _ _ (h a (List.mem_cons_self ..))]

/-- A result that completes reads READY, with the next Seq and the time of its completion. -/
theorem Dev.get_complete_state (d : Dev) (i : Nat) (p : List (Nat × Nat)) (h : sendKey (key i 1) = false) :
    (d.complete i p).get (key i 1) = 2 := by
  unfold Dev.complete
  rw [(Dev.Sends.notify _ i).get _ h]
  unfold Dev.completeRes
  exact Dev.get_set_byte _ _ _ (by decide)

theorem Dev.get_complete_of_ne (d : Dev) (i j : Nat) (p : List (Nat × Nat)) (h : sendKey j = false)
    (h1 : j ≠ key i 1) (h2 : j ≠ key i 2) (h3 : j ≠ key i 3) (h4 : ∀ x ∈ p, j ≠ key i x.1) :
    (d.complete i p).get j = d.get j := by
  unfold Dev.complete
  rw [(Dev.Sends.notify _ i).get _ h]
  unfold Dev.completeRes
  rw [Dev.get_set_of_ne _ _ _ _ h1, Dev.get_set_of_ne _ _ _ _ h3, Dev.get_set_of_ne _ _ _ _ h2,
    Dev.get_setAll_of_ne _ _ _ _ h4]

end Sys2Proof.Machine
end

