-- ==== Sys2Proof/WellFormed.lean ====
section
/-! DEFINITION. The operand ranges of the commands: fields within the widths that the spec's layouts give them, and numbers of
units, ports, taps, rings and slots within the tables of the dictionary. A command outside them is no command of the block;
the meanings are total, and where the spec itself names an answer for such a value (an index that no unit has, an opcode
that is not listed) the value is in range. -/

namespace Sys2Proof

/-- A value of 8, 16, 24, 32 or 64 bits. -/
def u8 (n : Nat) : Bool := n < 2 ^ 8

@[inherit_doc u8] def u16 (n : Nat) : Bool := n < 2 ^ 16

@[inherit_doc u8] def u24 (n : Nat) : Bool := n < 2 ^ 24

@[inherit_doc u8] def u32 (n : Nat) : Bool := n < 2 ^ 32

@[inherit_doc u8] def u64 (n : Nat) : Bool := n < 2 ^ 64

/-- A signed value of 64 bits. -/
def fits64 (n : Int) : Bool := -9223372036854775808 ≤ n && n < 9223372036854775808

/-- A drop ID of a leaf (R53). -/
def dropOk (n : Nat) : Bool := 1 ≤ n && n ≤ 16

/-- The 256 Stem ports of a trunk (0x6500 + n). -/
def StemId.wellFormed : StemId → Bool
  | .leaf _ => true
  | .trunk n => n < 256

/-- The six Pleach ports of a trunk (0x3101 to 0x3106). -/
def TimePort.wellFormed : TimePort → Bool
  | .stem e => e.wellFormed
  | .pleach p => p < 6

/-- The widths of the tap wires (chapter 03); what is discarded is among what is issued. -/
def Cycle.wellFormed (c : Cycle) : Bool := c.slotIssued < 16 && c.slotDiscard ≤ c.slotIssued && u8 c.occ

/-- The header fields of R40, lp_agent (R627), the Partition of R397, the addresses, EtherType and port of the frame (R54, R58,
R59), and the cycles of taps that the dictionary has. -/
def Env.wellFormed (e : Env) : Bool :=
  u8 e.version && u16 e.txn && u32 e.dest && u32 e.source && e.segment < 16 && u8 e.partition && u16 e.agent &&
  e.mac < 2 ^ 48 && e.toMac.all (· < 2 ^ 48) && u16 e.etherType && u16 e.udp &&
  e.cycles.all (fun x => x.1 < 255 && x.2.all (·.wellFormed))

/-- A tick's inputs: regions, taps and sensors that the dictionary has. -/
def TickIn.wellFormed (i : TickIn) : Bool :=
  i.regionCycles.all (·.1 < 64) && i.tapCycles.all (fun x => x.1 < 255 && x.2.all (·.wellFormed)) && i.volts.all (·.1 < 64) &&
  i.offers.all (· < 255) && u32 i.eccCorrected && u32 i.eccUncorrected

/-- R84. -/
def Stamp.wellFormed (s : Stamp) : Bool := u64 s.ns && u16 s.frac

/-- R106 to R109. -/
def PtpMeas.wellFormed (m : PtpMeas) : Bool := fits64 m.rate && fits64 m.utcOffset && u64 m.grandmaster && u8 m.domain

/-- An access of a 48-bit address; as many value bytes as its size (R180, R183). -/
def PortAccess.wellFormed (a : PortAccess) : Bool := a.addr < 2 ^ 48 && 1 ≤ a.size && a.value.length ≤ a.size

/-- R214. -/
def LeafRec.wellFormed (r : LeafRec) : Bool := u32 r.seq && u8 r.kind && u8 r.flags && u64 r.time && r.payload.length ≤ 65536

/-- R352. -/
def LinkStart.wellFormed (h : LinkStart) : Bool := u8 h.seq && u8 h.cls && u16 h.length && u8 h.aux

/-- The bytes of a 64-bit block (R343). -/
def RxBlock.wellFormed (b : RxBlock) : Bool := b.bytes.length = 8

/-- A decoder corrects at most 15 symbols of a codeword (R382). -/
def Fec.wellFormed : Fec → Bool
  | .corrected n => n ≤ 15
  | .uncorrectable => true

/-- R397. -/
def PMsg.wellFormed (m : PMsg) : Bool :=
  u8 m.kind && m.cls < 8 && u8 m.hops && m.dest < 4096 && m.source < 4096 && u8 m.partition && m.payload.length ≤ 16777216

/-- A message comes from a Pleach port or is injected (R407). -/
def Ingress.wellFormed : Ingress → Bool
  | .port p => p < 6
  | .inject => true

/-- R426. -/
def PartialMsg.wellFormed (m : PartialMsg) : Bool :=
  m.group < 4096 && u8 m.generation && u8 m.stage && u32 m.window && m.origin < 4096 && u32 m.members && u32 m.present &&
  u32 m.gapLeaves && u16 m.trunks && u16 m.fieldCount && u32 m.flags && u32 m.listCrc

/-- R445. -/
def GroupCtl.wellFormed (m : GroupCtl) : Bool :=
  u8 m.reason && u16 m.group && u8 m.generation && u8 m.nakGen && u32 m.atWindow && u64 m.quarantine && m.sender < 4096

/-- R440. -/
def FleetTrig.wellFormed (t : FleetTrig) : Bool :=
  t.group < 4096 && u8 t.generation && u8 t.stage && u32 t.triggerId && u64 t.originStamp && u8 t.ingress && u8 t.hops

/-- 64 tiles of 64 sprigs of 16 threads (R456, R457). -/
def ThreadId.wellFormed (t : ThreadId) : Bool := t.tile < 64 && t.sprig < 64 && t.thread < 16

/-- The sizes of the RISC-V loads and stores of each kind of register (R456), within a vector register of 64 bytes. -/
def SprigAccess.wellFormed (a : SprigAccess) : Bool :=
  (match a.reg with
   | .x _ => [1, 2, 4, 8].contains a.size
   | .f _ => [4, 8].contains a.size
   | .v _ pos => 0 < a.size && pos + a.size ≤ 64) && [0, 2, 4].contains a.advance

/-- R479. -/
def LeaseMsg.wellFormed (m : LeaseMsg) : Bool :=
  u8 m.reason && u32 m.units && u32 m.leaseId && m.lender < 4096 && m.borrower < 4096 && u64 m.expires && u64 m.recallAt &&
  u64 m.duration

@[inherit_doc LeaseMsg.wellFormed] def LeaseData.wellFormed (m : LeaseData) : Bool :=
  u32 m.leaseId && u64 m.offset && u32 m.length && u32 m.tag && u8 m.partition && m.sender < 4096

/-- The energies of the six classes (R484). -/
def EnergyMeas.wellFormed (m : EnergyMeas) : Bool := u64 m.measured && m.used.length = 6 && m.used.all u64

/-- R561. -/
def RecomputeHead.wellFormed (h : RecomputeHead) : Bool :=
  u8 h.format && u8 h.scaleMode && u8 h.source && u32 h.weightLeaf && u16 h.tag && u16 h.tagMask && u16 h.k && u16 h.n &&
  h.sender < 4096

/-- R192. -/
def DigestMsg.wellFormed (m : DigestMsg) : Bool := u16 m.tag && u32 m.digest && u32 m.bytes && u64 m.begin && u64 m.stamp

/-- R325. -/
def EgressId.wellFormed : EgressId → Bool
  | .pleach p => p < 6
  | .stem n => n < 256

/-- A leaf's uplink, or one of four memory-stack ports (R310, R323). -/
def ArbId.wellFormed : ArbId → Bool
  | .uplink _ => true
  | .mem n => n < 4

/-- One of eight model slots, and a descriptor of one of 64 rings (R532). -/
def EccHit.wellFormed (h : EccHit) : Bool := h.model < 8 && h.ring < 64 && u32 h.index && h.vectors.all u32

/-- R58, R59. -/
def Origin.wellFormed : Origin → Bool
  | .udp a p => a < 2 ^ 128 && u16 p
  | .mac a => a < 2 ^ 48

/-- The operands of a command are in range. -/
def Instr.wellFormed : Instr → Bool
  | .sampleTick _ i => i.wellFormed
  | .read _ e index sub offset length => e.wellFormed && u16 index && u8 sub && u32 offset && u16 length
  | .write _ e index sub offset length _ _ => e.wellFormed && u16 index && u8 sub && u32 offset && u16 length
  | .readRecord _ e index offset length => e.wellFormed && u16 index && u32 offset && u16 length
  | .subscribe _ e index sub => e.wellFormed && u16 index && u8 sub
  | .unsubscribe _ e index sub => e.wellFormed && u16 index && u8 sub
  | .identify _ e => e.wellFormed
  | .ack _ e index seq => e.wellFormed && u16 index && u32 seq
  | .shortMessageDiscard _ _ => true
  | .misaddressed _ e => e.wellFormed
  | .sdpResponse _ opcode txn source index length ab _ drop =>
    u8 opcode && u16 txn && u32 source && u16 index && u16 length && u8 ab && (drop.all fun x => x.1 < 16 && dropOk x.2)
  | .latchRelease _ => true
  | .replayEntryFree _ => true
  | .proxyRequest e origin opcode index sub offset length m =>
    e.wellFormed && origin.wellFormed && u8 opcode && u16 index && u8 sub && u8 m.flags && u32 offset && u16 length
  | .proxyResponse slot txn opcode ab m =>
    slot < 64 && u16 txn && u8 opcode && u32 m.source && u16 m.index && u8 m.sub && u8 m.flags && u32 m.offset && u8 ab
  | .proxySlotTimeout slot => slot < 64
  | .storeConfig _ e value => e.wellFormed && u64 value
  | .storeConfigTimeout _ => true
  | .restoreDefaults _ e value => e.wellFormed && u64 value
  | .resLatchRead _ e index => e.wellFormed && u16 index
  | .localIndirectSelect _ e pair _ => e.wellFormed && pair < 4
  | .localIndirectDataRead _ e pair => e.wellFormed && pair < 4
  | .localIndirectDataWrite _ e pair _ => e.wellFormed && pair < 4
  | .localIndirectCommit _ e pair value => e.wellFormed && pair < 4 && u64 value
  | .flagClear _ e index sub _ => e.wellFormed && u16 index && u8 sub
  | .modeChange _ index => u16 index
  | .timeMessageSend p tx => p.wellFormed && tx.wellFormed
  | .timeMessage p _ rx => p.wellFormed && rx.wellFormed
  | .incrementApply _ => true
  | .exchangeTimeout _ => true
  | .holdoverExpired _ => true
  | .sourceTimeout => true
  | .stepCmd _ e value => e.wellFormed && fits64 value
  | .pop _ e k => e.wellFormed && u32 k
  | .ptpMessage m => m.wellFormed
  | .utcRestep e value => e.wellFormed && u64 value
  | .regionStop _ r => r < 64
  | .regionResume _ r => r < 64
  | .regionPowerDown _ r => r < 64
  | .regionPowerUp _ r => r < 64
  | .cmdBegin _ tap tag pre c _ => tap < 255 && u16 tag && pre.all (·.wellFormed) && c.wellFormed
  | .cmdEnd _ tap tag pre c _ => tap < 255 && u16 tag && pre.all (·.wellFormed) && c.wellFormed
  | .arrivalMark _ e step => e.wellFormed && u32 step
  | .counterScan _ => true
  | .regionRst _ r => r < 64
  | .lostRecord _ => true
  | .currentSample _ vals => vals.all fun x => x.1 < 64
  | .temperatureReading _ vals => vals.all fun x => x.1 < 32
  | .minVRead _ e sensor => e.wellFormed && sensor < 64
  | .clusterChange _ r => r < 64
  | .stageRequest _ r stage => r < 64 && u8 stage
  | .grant _ c => c < 16
  | .deny _ c => c < 16
  | .inrushDeferTimeout _ c => c < 16
  | .stageGrant _ e r stage => e.wellFormed && r < 64 && u8 stage
  | .stageDeny _ e r stage => e.wellFormed && r < 64 && u8 stage
  | .shedAssert _ e c => e.wellFormed && c < 16
  | .shedRelease _ e c => e.wellFormed && c < 16
  | .regFault _ r => r < 64
  | .carryTimeExpired _ c => c < 16
  | .regClear _ c => c < 16
  | .powerFailWarning _ => true
  | .powerFailRecover _ => true
  | .traceAccess _ src a => src < 16 && a.wellFormed
  | .periodicSync _ src => src < 16
  | .funnelTransfer _ => true
  | .overflowPacket _ src => src < 16
  | .softTrigger _ e value => e.wellFormed && u64 value
  | .fatal _ code detail => u32 code && u32 detail
  | .freeze _ => true
  | .traceEnable _ e value => e.wellFormed && u64 value
  | .rearm _ e value => e.wellFormed && u64 value
  | .drainCmd _ e value => e.wellFormed && u64 value
  | .drainDone _ => true
  | .captureArm _ e _ => e.wellFormed
  | .digestBlockClose _ src => src < 16
  | .digestModeWrite _ e src value => e.wellFormed && src < 16 && u64 value
  | .writeRecord _ e _ => e.wellFormed
  | .snapNow _ e value => e.wellFormed && u64 value
  | .recorderPortRead _ e => e.wellFormed
  | .flushSoftware _ e => e.wellFormed
  | .flushTeardown _ e => e.wellFormed
  | .flushEnd _ => true
  | .recorderAck _ ranges => ranges.all fun x => u32 x.1 && u32 x.2
  | .ackTimeout _ => true
  | .leafRecord port r => port < 256 && r.wellFormed
  | .recorderCommit => true
  | .latch _ s => s < 4
  | .frameBuild _ s => s < 4
  | .scheduleEnable _ e s => e.wellFormed && s < 4
  | .scheduleDisable _ e s => e.wellFormed && s < 4
  | .snapshotAt _ e t => e.wellFormed && u64 t
  | .oneShotLatch _ => true
  | .rebind _ e s _ => e.wellFormed && s < 4
  | .degradeCmd _ e value => e.wellFormed && u64 value
  | .trunkLadder => true
  | .frameEncode _ s => s < 4
  | .streamReset _ e value => e.wellFormed && u64 value
  | .compress r i => r < 64 && u32 i
  | .decompress r i => r < 64 && u32 i
  | .decompressResume r i => r < 64 && u32 i
  | .leafFrame port schedule _ colour => port < 256 && schedule < 4 && colour < 2
  | .arbiterWindow a => a.wellFormed
  | .decision a => a.wellFormed
  | .preemption _ sent => u32 sent
  | .wfqTag g cls => g.wellFormed && cls < 8
  | .wfqSend g => g.wellFormed
  | .drrForce e p => e.wellFormed && p < 6
  | .wfqRestore e p => e.wellFormed && p < 6
  | .wfqReturn g => g.wellFormed
  | .shaperWrite e k sub value => e.wellFormed && k < 56 && u8 sub && u64 value
  | .profileWrite e index sub value => e.wellFormed && u16 index && u8 sub && u64 value
  | .blockLock p => p.wellFormed
  | .align e count0 count1 => e.wellFormed && u16 count0 && u16 count1
  | .bringUpTimeout p => p.wellFormed
  | .helloSend p => p.wellFormed
  | .hello e role level _ leafId => e.wellFormed && u8 role && u8 level && u32 leafId
  | .linkFrameStart e => e.wellFormed
  | .linkFrame e h _ x => e.wellFormed && h.wellFormed && x.between.all (·.wellFormed)
  | .abort e => e.wellFormed
  | .linkAck e ackSeq => e.wellFormed && u8 ackSeq
  | .linkNak e ackSeq => e.wellFormed && u8 ackSeq
  | .credit e assured bulk => e.wellFormed && u24 assured && u24 bulk
  | .retryTimeout e => e.wellFormed
  | .trigger _ triggerId originStamp => u32 triggerId && u64 originStamp
  | .resetLink e => e.wellFormed
  | .resetLane e => e.wellFormed
  | .blockLockLost e => e.wellFormed
  | .resetCmdLink p e => p.wellFormed && e.wellFormed
  | .resetCmdLane p e => p.wellFormed && e.wellFormed
  | .alignCodeword p fec _ => p < 6 && fec.wellFormed
  | .pleachHello p f => p < 6 && f.fec.wellFormed && f.data.length = 640
  | .wiringTimeout p => p < 6
  | .flit p fec data => p < 6 && fec.wellFormed && data.length = 640
  | .abortFlit p fec data => p < 6 && fec.wellFormed && data.length = 640
  | .resetFlit p fec data => p < 6 && fec.wellFormed && data.length = 640
  | .flitRetryTimeout p => p < 6
  | .flitSend p => p < 6
  | .messageHeader i vc m => i.wellFormed && vc < 2 && m.wellFormed
  | .messageDeliver m => m.wellFormed
  | .fenceNotice source count _ => source < 4096 && u32 count
  | .fenceApply => true
  | .opticsFault p _ => p < 6
  | .collectDeadline slot w => slot < 64 && u32 w
  | .partialMsg m => m.wellFormed
  | .stageClose slot w stage => slot < 64 && u32 w && stage < 4
  | .result m => m.wellFormed
  | .fleetTrigger e group => e.wellFormed && group < 4096
  | .pleachTrigger t => t.wellFormed
  | .groupSetup e _ => e.wellFormed
  | .setup m => m.wellFormed
  | .setupAck m => m.wellFormed
  | .setupNak m => m.wellFormed
  | .setupTimeout => true
  | .groupCommit m => m.wellFormed
  | .groupControlAbort m => m.wellFormed
  | .groupTeardown e group => e.wellFormed && group < 4096
  | .teardown m => m.wellFormed
  | .quarantineStart slot => slot < 64
  | .quarantineEnd slot => slot < 64
  | .join e group leafId => e.wellFormed && group < 4096 && u32 leafId
  | .leave e group leafId => e.wellFormed && group < 4096 && u32 leafId
  | .changeBatch => true
  | .transitionEnd port => port < 256
  | .syncWait t _ _ _ => t.wellFormed
  | .syncWaitEnd t => t.wellFormed
  | .syncAdd t _ _ _ => t.wellFormed
  | .ftRead t _ => t.wellFormed
  | .ftReadF t _ => t.wellFormed
  | .frameLoc t _ _ _ => t.wellFormed
  | .illegalInstruction t _ => t.wellFormed
  | .sprigLoadStore t a => t.wellFormed && a.wellFormed
  | .kclassWrite t _ _ => t.wellFormed
  | .syncAddCmd e _ => e.wellFormed
  | .descriptorSubmit r => r < 64
  | .descriptorComplete r i => r < 64 && u32 i
  | .ringReset e r value => e.wellFormed && r < 64 && u8 value
  | .copy r i => r < 64 && u32 i
  | .gather r i => r < 64 && u32 i
  | .scatter r i => r < 64 && u32 i
  | .fill r i => r < 64 && u32 i
  | .poolAlloc r i => r < 64 && u32 i
  | .poolFree r i => r < 64 && u32 i
  | .poolRetag r i => r < 64 && u32 i
  | .leaseWrite r i => r < 64 && u32 i
  | .leaseRead r i => r < 64 && u32 i
  | .leaseRequest m => m.wellFormed
  | .leaseGrant m => m.wellFormed
  | .leaseDeny m => m.wellFormed
  | .leaseRenew m => m.wellFormed
  | .leaseRecall m => m.wellFormed
  | .leaseRelease m => m.wellFormed
  | .leaseReleased m => m.wellFormed
  | .leaseDataWrite m => m.wellFormed
  | .leaseDataReadReq m => m.wellFormed
  | .leaseDataReadData m => m.wellFormed
  | .leaseDataError m => m.wellFormed
  | .renewLead leaseId => u32 leaseId
  | .leaseResend leaseId => u32 leaseId
  | .recallAt leaseId => u32 leaseId
  | .leaseExpires leaseId => u32 leaseId
  | .renewUnanswered leaseId => u32 leaseId
  | .leaseRecallCmd e leaseId => e.wellFormed && u32 leaseId
  | .energyWindow m => m.wellFormed
  | .accountExhausted c spent => 1 ≤ c && c ≤ 6 && u32 spent
  | .pmbusRead rails => rails.all fun x => x.1 < 32
  | .pmbAlert rails => rails.all fun x => x.1 < 32
  | .arrivalUnresolved slot leafPort step => slot < 64 && leafPort < 256 && u32 step
  | .stepClose slot => slot < 64
  | .driftUpdate slot => slot < 64
  | .bucket r i => r < 64 && u32 i
  | .merge r i => r < 64 && u32 i
  | .rank r i => r < 64 && u32 i
  | .quantile r i => r < 64 && u32 i
  | .apply e slot window => e.wellFormed && slot < 64 && u32 window
  | .applySettings slot => slot < 64
  | .load r i => r < 64 && u32 i
  | .modelReady model => model < 8
  | .unload r i => r < 64 && u32 i
  | .infer r i => r < 64 && u32 i
  | .batch r i => r < 64 && u32 i
  | .uncorrectableEcc h => h.wellFormed
  | .arm policy port _ => policy < 16 && port < 256
  | .policyEnable e n => e.wellFormed && n < 16
  | .policyDisable e n => e.wellFormed && n < 16
  | .captureAssembly port src packets done weights =>
    port < 256 && src < 16 && packets.all (·.wellFormed) && done.wellFormed && weights.all (·.wellFormed)
  | .weightRequest h _ _ => h.wellFormed
  | .weightTile h status crc begin _ => h.wellFormed && u8 status && u32 crc && u64 begin
  | .weightWaitTimeout capture => u32 capture
  | .compare capture _ _ => u32 capture
  | .weightDigestCompare n step seqs => n < 4 && u32 step && (seqs.all fun x => x.1 < 256)
  | .weightDigestEnable e n => e.wellFormed && n < 4
  | .testStart _ => true
  | .ftDone _ _ => true
  | .ftReclaim _ => true
  | .testPreempted _ => true
  | .testTimeout _ => true
  | .testPackWrite _ e _ => e.wellFormed
  | .runTest _ e _ => e.wellFormed
  | .hostWaitTimeout _ => true
  | .shadowPairEnable e n => e.wellFormed && n < 16
  | .shadowDigest n _ m => n < 16 && m.wellFormed
  | .pairSkewTimeout n => n < 16
  | .vsfRecord port _ => port < 256
  | .seal r i => r < 64 && u32 i
  | .toText r i => r < 64 && u32 i
  | .fromText r i => r < 64 && u32 i
  | .boot => true
  | .imageFetch _ offset _ _ => u32 offset
  | .fetchRetry _ => true
  | .fetchTimeout _ => true
  | .targetWrite e value => e.wellFormed && u64 value
  | .commit e value => e.wellFormed && u64 value
  | .sectorWritten _ => true
  | .block e _ _ => e.wellFormed
  | .blockFinish e => e.wellFormed
  | .watchdog _ _ => true
  | .bootAttemptsClear _ => true
  | .quicksetImage _ e _ => e.wellFormed
  | .bootStatePoll drops => drops.all fun x => x.1 < 16 && dropOk x.2.1
  | .quicksetPush e value => e.wellFormed && u64 value
  | .unitReset _ e value => e.wellFormed && u64 value
  | .layerStartTrunk e => e.wellFormed
  | .layerStartLeaves e => e.wellFormed
  | .leafRunning port version dictMajor => port < 256 && u32 version && u32 dictMajor
  | .leafBootTimeout => true
  | .powerOn _ _ => true
  | .pinReset _ _ _ => true
  | .thermalTrip => true
  | .hostError _ n => n < 16
  | .unlistedOpcode _ e opcode index sub => e.wellFormed && u8 opcode && u16 index && u8 sub
  | .opticsReady p => p < 6
  | .watchdogFlushLimit _ => true
  | .commitConfirmation _ ab => u8 ab
  | .serviceFrameFcsFail _ => true
  | .ptpEventMessageSend port _ seqId tx => port < 256 && u16 seqId && tx.wellFormed
  | .progressWordProgrammed => true
  | .eccCorrected => true

end Sys2Proof
end

