-- ==== Sys2Proof/Tests/Slice0.lean ====
section
/-! SUPPORT. The tests: the spec's own worked examples, ill-formed operands that `WellFormed` refuses, and for each statement of
`Certificates/Slice0/Obligations.lean` a witness, clause by clause, that its hypotheses can be met together. -/

namespace Sys2Proof.Tests

set_option Elab.async false

open Sys2Proof Sys2Proof.Machine

/-! ### Deciding what a request meets -/

/-- Does a unit hear a request: `Dev.hears` as a Bool. -/
def heardB (d : Dev) (e : Env) : Bool :=
  d.hearsFrame e && d.takes e && (e.via = .lp || (e.version = 1 &&
    match d.purgeReplay.srv.replay.find? (fun x => sameSource x.who e) with
    | some x => x.txns.all (·.txn != e.txn)
    | none => decide (d.purgeReplay.srv.replay.length < d.replayCap)))

theorem hears_of {d : Dev} {e : Env} (h : heardB d e = true) : d.hears e := by
  unfold heardB at h
  simp only [Bool.and_eq_true, Bool.or_eq_true, decide_eq_true_eq] at h
  refine ⟨h.1.1, h.1.2, fun hv => ?_⟩
  rcases h.2 with h2 | ⟨h2, h3⟩
  · exact absurd h2 hv
  · refine ⟨h2, ?_⟩
    split at h3
    · exact h3
    · exact of_decide_eq_true h3

/-- `Dev.accepts` as a Bool. -/
def acceptsB (d : Dev) (e : Env) (i s v : Nat) : Bool :=
  heardB d e && d.serves i && (e.via != .lp || !e.user) &&
  match d.cfg.rowOf i s with
  | some r => r.acc != .ro && r.acc != .res && !r.ty.isBlob && r.admits v && decide (v < 2 ^ (8 * r.ty.size)) && !d.cmdRuns r i s
  | none => false

theorem accepts_of {d : Dev} {e : Env} {i s v : Nat} (h : acceptsB d e i s v = true) : d.accepts e i s v := by
  unfold acceptsB at h
  simp only [Bool.and_eq_true, Bool.or_eq_true, bne_iff_ne, ne_eq, Bool.not_eq_true'] at h
  obtain ⟨⟨⟨h1, h2⟩, h3⟩, h4⟩ := h
  refine ⟨hears_of h1, h2, fun hv => h3.resolve_left (fun hn => hn hv), ?_⟩
  split at h4
  · rename_i r hr
    simp only [Bool.and_eq_true, bne_iff_ne, ne_eq, Bool.not_eq_true', decide_eq_true_eq] at h4
    obtain ⟨⟨⟨⟨⟨a, b⟩, c⟩, f⟩, g⟩, k⟩ := h4
    exact ⟨r, hr, a, b, c, f, g, k⟩
  · cases h4

/-- `Dev.acceptsDomain` as a Bool. -/
def acceptsDomainB (d : Dev) (e : Env) (i s : Nat) (bs : Bytes) : Bool :=
  heardB d e && e.via != .lp && d.serves i && d.nextSegment e i s 0 &&
  match d.cfg.rowOf i s with
  | some r => decide (bs.length ≤ r.size) && !d.cmdRuns r i s
  | none => false

theorem acceptsDomain_of {d : Dev} {e : Env} {i s : Nat} {bs : Bytes} (h : acceptsDomainB d e i s bs = true) :
    d.acceptsDomain e i s bs := by
  unfold acceptsDomainB at h
  simp only [Bool.and_eq_true, bne_iff_ne, ne_eq] at h
  obtain ⟨⟨⟨⟨h1, h2⟩, h3⟩, h4⟩, h5⟩ := h
  refine ⟨hears_of h1, h2, h3, h4, ?_⟩
  split at h5
  · rename_i r hr
    simp only [Bool.and_eq_true, decide_eq_true_eq, Bool.not_eq_true'] at h5
    exact ⟨r, hr, h5.1, h5.2⟩
  · cases h5

theorem forall_some {α : Type} {o : Option α} {p : α → Prop} [DecidablePred p] (h : o.all (fun x => decide (p x)) = true) :
    ∀ t, o = some t → p t := by
  rintro t rfl
  simpa using h

/-- The reset state with the leaf changed. -/
def lf (f : Dev → Dev) : State := { State.reset with leaf := f State.reset.leaf }
/-- The reset state with the trunk changed. -/
def tr (f : Dev → Dev) : State := { State.reset with trunk := f State.reset.trunk }
/-- A request on the local port. -/
def lpE : Env := { via := .lp }
/-- A request on a service segment. -/
def svE : Env := { via := .service, dest := 0x400000, source := 0x300001 }

/-! ### Small states and operands -/

def svL : LatchEnt := { who := requesterOf svE, index := 0x2103, copy := [⟨5, 0, zeros 16⟩], lastUse := 0 }
def run0 : TestRun := ⟨0, 0, 0, 0, false, 0, 0, false⟩
def vsf0 : Bytes :=
  Vsf.bytes { kind := 1, time := 0, leaf := 0, die := 0, tap := 0, ty := 0, test := 0, exp := 0, obs := 0, occ := 0, detail := [] }
def wait0 : Waiting := ⟨lpE, 2, 0x1010, 0, 0, none⟩
def inRegion (f : Region → Region) : State := lf fun d => { d with tap := { d.tap with regions := d.tap.regions.map f } }
def atNs (d : Dev) (n : Nat) : Dev := { d with time := { d.time with ns := n, tick := n / 8, ran := n / 8 } }
def gated (pend : List StageReq) (d : Dev) : Dev := { d with pow := { d.pow with pend := pend } }
def srcs (f : TSource → TSource) (d : Dev) : Dev := { d with trc := { d.trc with srcs := d.trc.srcs.map f } }
def pk0 : TPkt := { stamp := 0, rank := 0, source := 0, bytes := zeros 16 }
def rec0 : Rec := { seq := 1, off := 0, kind := 1, flags := 0, time := 0, payload := zeros 4 }
def acc0 : PortAccess := { size := 1, value := [0] }
def tracing0 (d : Dev) : Dev := ((((d.set 0x2501_01 1).set 0x2500_01 1).set 0x2510_01 1).set 0x2520_03 3).set 0x2520_02 1000
def mkD (op : Nat) (l : List (Nat × Nat)) : DescSt :=
  { idx := 0, bytes := leBytes 64 (op * 2 ^ 128 + l.foldl (fun n p => n + p.2 * 2 ^ (8 * (16 + p.1))) 0) }
def analysis (d : Dev) : Dev := (d.set 0x1813_04 0).set 0x1814_04 0
def onRing (engine : Nat) (x : DescSt) (d : Dev) : Dev :=
  (((analysis d).set (ringKey 0 1) engine).set (ringKey 0 7) 1).modRing 0 fun g => { g with taken := [x] }
def latch0 : FrameLatch := ⟨0, 0, false, false, false, false, false, 0, 0, 0, [], [], [], [], []⟩
def built0 : BuiltFrame := ⟨0, false, [1]⟩
def done0 : DescSt := { idx := 0, bytes := leBytes 64 (0x200000000 * 2 ^ 64), result := some (zeros 16) }
def group0 (d : Dev) : Dev := atNs (((d.set (slotKey 0 1) 2).set (slotKey 0 2) 5).set (slotKey 0 9) 1000) 8000
def lease0 (lending : Bool) : Lease := { id := 0, lending := lending, units := 1, peer := 0x311 }
def leased (l : Lease) (d : Dev) : Dev := atNs (d.modAna fun a => { a with leases := [l] }) 1000000000000
def read0 : LeaseRead := ⟨0, 0, 0, 0, 0x200000000, 1⟩
def thr0 : ThreadId := ⟨0, 0, 0⟩
def ready0 (x : Thread) (d : Dev) : Dev :=
  ((analysis d).set (key 0x4013 4) 100).modThread thr0 fun _ => x
def sync1 : Thread := ({} : Thread).setX 1 (BitVec.ofNat 64 syncBase)
def wait1 : Thread := { state := .waiting, wait := some (0, 1, 0, none) }
def xfer0 : Xfer := { cls := 2, bytes := zeros 16, headSince := some 0 }
def upq (c : Nat) (d : Dev) : Dev := { d with arb := { d.arb with queues := d.arb.queues.set c [xfer0] } }
def emsg0 : EMsg := { len := 64 }
def egq (g : EgressId) (c : Nat) (d : Dev) : Dev := d.modEgress g fun e => { e with queues := e.queues.set c [emsg0] }
def stem0 (f : StemEnd → StemEnd) (st : Nat) (d : Dev) : Dev := { d.set 0x3001_02 st with stem := f d.stem }
def frame0 : LFrame := ⟨{}, [0]⟩
def frame1 : LFrame := ⟨{ seq := 1 }, [0]⟩
def port0 (f : PleachPort → PleachPort) (st : Nat) (d : Dev) : Dev := (d.set 0x3101_02 st).modPort 0 f
def rx0 : PRx := ⟨0, 20, zeros 12 ++ [100, 0, 0, 0]⟩
def phello : PleachHello := ⟨State.reset.trunk.neighbour 0, 1, 1, 16, 16, 16, true⟩
def helloFlit (h : PleachHello) : Bytes := Flit.bytes { kind := 4, fill := 8, body := h.bytes }
def setup0 : HomeSetup := { bytes := zeros 64, gen := 1, began := 0 }
def ctl0 : GroupCtl := { group := 0, generation := 1, sender := 3 }
def group1 (st : Nat) (d : Dev) : Dev :=
  atNs (((((d.set (slotKey 0 1) st).set (slotKey 0 2) 5).set (slotKey 0 9) 1000).set (slotKey 0 0xB) 100).set 0x3200_00 0) 1000000000000
def change0 : Change := ⟨false, false, false, 0, 0, 0, 0, 1000, 5, 0, 1, 0, false⟩
def trans0 : Trans := { port := 1, group := 5, gen := 0, end_ := 0 }
def win0 : WinSt := { window := 1, formed := true, inputs := [(1, State.reset.trunk.get 0x3100_01, {})] }
def arr0 : ArrSt := ⟨0, 0, none, 0⟩
def view0 : ViewSt := { window := 1, part := {} }
def model0 : ThModel := ⟨0, 0, [], [], [], some (0, 0)⟩
def begunD (op : Nat) : DescSt := { mkD op [(4, 1)] with begun := true }
def pol0 : PolCopy := ⟨0, [24, 1, 5, 0, 0, 0, 0, 0, 100000, 1, 1, 1, 0, 255, 0, 1, 0x31003, 2, 0, 0, 0], [], [], List.replicate 24 0⟩
def cap0 : StagedSt := { id := 0, port := 3, pol := pol0, tag := 0, begin := 0, ended := 0, handle := 0, pages := 0, ops := [] }
def caps (c : StagedSt) (d : Dev) : Dev := atNs ((analysis d).modRec' fun r => { r with caps := [c] }) 1000000000000
def mem3 (d : Dev) : Dev := d.modSlot 0 fun x => { x with members := [{ port := 3, from_ := some 0 }] }
def testing (d : Dev) : Dev :=
  let d := ((d.set 0x4401_01 1).set 0x4403_03 1).set 0x2406_04 1
  { d with ftest := { d.ftest with offers := [0] } }
def run1 (d : Dev) : Dev := atNs { d with ftest := { d.ftest with run := some run0 } } 1000000000000
def updating (d : Dev) : Dev := (d.set 0x1802_01 5).set 0x1800_00 1

/-! ### The spec's own examples -/

/-- CRC-32C of the nine bytes "123456789" (R282). -/
theorem test_crc_check_value : crc32c (ascii "123456789") = 0xE3069283 := by decide +kernel

/-- The originals A and B of the worked stream of chapter 08. -/
def codecA : Bytes := leBytes 8 0x07060504030200FE ++ leBytes 8 0x0F0E0D0C0B0A0909 ++ leBytes 8 0x1716151413121110 ++
  leBytes 8 0x1F1E1D1C1B1A18B4

@[inherit_doc codecA] def codecB : Bytes := leBytes 8 0x0706050403020100 ++ leBytes 8 0x0F0E0D0C0B0A0908 ++
  leBytes 8 0x1716151413121110 ++ leBytes 8 0x1F1E1D1C1B1A1918

/-- Frame 1 of that stream, which is RAW. -/
def codecFrame1 : Bytes := [1, 1, 0, 0, 0x20, 0, 0, 0] ++ leBytes 4 (crc32c codecA) ++ [0x20, 0, 0, 0] ++ codecA

/-- Frame 2, one FIELD_DELTA token. -/
def codecFrame2 : Bytes :=
  [1, 6, 0, 0, 0x20, 0, 0, 0, 0x4E, 0x79, 0xDD, 0x46, 7, 0, 0, 0, 0x83, 4, 1, 0, 0xC8, 1, 0xC0]

theorem test_decoder_stores_raw_frame : (decodeFrame {} codecFrame1 4096).out = codecA := by decide +kernel

theorem test_decoder_applies_field_delta :
    (decodeFrame (decodeFrame {} codecFrame1 4096).ctx codecFrame2 4096).out = codecB ∧
    (decodeFrame (decodeFrame {} codecFrame1 4096).ctx codecFrame2 4096).crc = 0x46DD794E := by decide +kernel

theorem test_decoder_follows_match :
    let c := (decodeFrame (decodeFrame {} codecFrame1 4096).ctx codecFrame2 4096).ctx
    let f := [1, 2, 0, 0, 0x20, 0, 0, 0, 0x4E, 0x79, 0xDD, 0x46, 4, 0, 0, 0, 0x5C, 0x20, 0, 0xC0]
    (decodeFrame c f 4096).out = codecB ∧ (decodeFrame c f 4096).ctx.lastDist = 32 ∧ (decodeFrame c f 4096).ctx.lastLen = 32 := by
  decide +kernel

/-- The word of SYNC.WAIT x10, x11, x12 (chapter 13) is a Kioft instruction, so it raises no illegal-instruction exception. -/
theorem test_sync_wait_word : isKioft 0x00C5850B = true := by decide

/-- Counter 1 goes from 0xFF_FFFF_F000 to 0x00_0000_2000 between two scans: its extended value grows by 12,288 (R131). -/
theorem test_scan_extends_across_wrap :
    let t : Tap := { raw := (List.replicate 32 0).set 1 0x2000, last := (List.replicate 32 0).set 1 0xFFFFFFF000 }
    t.counter 1 = 12288 := by decide

/-- A message of 262,144 bytes at a full bucket of 65,536 bytes with Overhead 32 leaves −196,640 (chapter 09). -/
theorem test_shaper_pays_for_message :
    let d := (((State.reset.trunk.set 0x2956_01 10000).set 0x2956_03 32).modEgress (.pleach 2) fun e =>
      { e with buckets := [0, 0, 0, 0, 0, 0, 65536000, 0] })
    ((d.payShaper (.pleach 2) 6 262144).egress (.pleach 2)).buckets = [0, 0, 0, 0, 0, 0, -196640000, 0] := by decide +kernel

/-- The text form of the failing test of chapter 17. -/
theorem test_signature_text :
    Vsf.text { kind := 1, cls := 4, time := 6150000000, leaf := 0x5322A, die := 0x00317A000000022A, tap := 12, ty := 0,
               test := 0x0104, exp := 0x9C417E02, obs := 0x9C417E03, occ := 1, temp := 1152, minV := 742000,
               detail := [2, 1, 0, 0, 2, 0, 0xED, 0x5E, 0x70, 0x30, 0, 0] } =
      ascii "VSF1 kind=FIELD_TEST class=DATAPATH flags=0x00 time=6150000000 leaf=0x0005_322A die=0x0031_7A00_0000_022A" ++
      ascii " tap=12 type=MATRIX test=0x0104 exp=0x9C41_7E02 obs=0x9C41_7E03 occ=1 temp=1152 minv=742000" ++
      ascii " detail=020100000200ED5E70300000" ++ [0x0A#8] := by decide +kernel

/-- A software trigger while TRIGGERED is counted and changes nothing else (chapter 05). -/
theorem test_trigger_while_triggered :
    (match exec (.softTrigger .host lpE 1) (lf fun d => (d.set 0x2501_01 2).set 0x2501_03 80002000) with
      | .next t => (t.leaf.get 0x2501_05, t.leaf.get 0x2501_03)
      | _ => (0, 0)) = (1, 80002000) := by decide +kernel

/-- x0 discards a write and reads as 0; another register holds what is written (R456). -/
theorem test_x0_discards :
    ((({} : Thread).setX 0 5).xreg 0, (({} : Thread).setX 0 5).xreg 1, (({} : Thread).setX 31 5).xreg 31) = (0, 0, 5) := by decide

/-- An exception in user mode saves the pc and the mode and goes on at mtvec in machine mode (R456). -/
theorem test_trap_saves_pc :
    let x := ({ pc := 0x100, mtvec := 0x2001, priv := .user, mstatus := 8 } : Thread).takeTrap 5 0
    (x.mepc, x.mcause, x.mstatus, x.pc, x.priv) = (0x100, 5, 0x80, 0x2000, .machine) := by decide

/-- A signed load of a byte into an integer register extends its sign (R456). -/
theorem test_load_extends_sign :
    (({} : Thread).loaded { reg := .x 3, size := 1, signed := true } [0x80]).xreg 3 = 0xFFFFFFFFFFFFFF80 := by decide


/-- The scrambler x^58 + x^39 + 1 from state 0: a lone 1 comes out again 39 and 58 bits later (R343). -/
theorem test_scrambler_taps : (scramble 0 [1, 0, 0, 0, 0, 0, 0, 0]).2 = [1, 0, 0, 0, 0x80, 0, 0, 4] := by decide +kernel

/-- The generator polynomial of the RS(544,514) code is 0 at the first, the second and the last of its 30 roots (R378). -/
theorem test_rs_generator_roots :
    [0, 1, 29].all (fun (j : Nat) =>
      rsGenerator.foldr (fun c v => c ^^^ gfMul v ((List.range j).foldl (fun x _ => gfMul x 2) 1)) 0 = 0) = true := by
  decide +kernel

/-! ### Well-formed operands

One ill-formed term for each check of `WellFormed`, which the check refuses; and a well-formed term of every command. -/

theorem smoke_stemId : ([.trunk 256] : List StemId).all (!·.wellFormed) = true := by
  decide +kernel

theorem smoke_timePort : ([.stem (.trunk 256), .pleach 6] : List TimePort).all (!·.wellFormed) = true := by
  decide +kernel

theorem smoke_env : ([{ via := .lp, version := 256 }, { via := .lp, txn := 65536 }, { via := .lp, dest := 2 ^ 32 },
    { via := .lp, source := 2 ^ 32 }, { via := .lp, segment := 16 }, { via := .lp, partition := 256 },
    { via := .lp, agent := 65536 }, { via := .lp, mac := 2 ^ 48 }, { via := .lp, toMac := some (2 ^ 48) },
    { via := .lp, etherType := 65536 }, { via := .lp, udp := 65536 }, { via := .lp, cycles := [(255, [])] },
    { via := .lp, cycles := [(0, [{ occ := 256 }])] }] : List Env).all (!·.wellFormed) = true := by
  decide +kernel

theorem smoke_cycle : ([{ slotIssued := 16 }, { slotDiscard := 1 }, { occ := 256 }] : List Cycle).all (!·.wellFormed) = true := by
  decide +kernel

theorem smoke_tickIn : ([{ regionCycles := [(64, 0)] }, { tapCycles := [(255, [])] }, { tapCycles := [(0, [{ occ := 256 }])] },
    { volts := [(64, none)] }, { offers := [255] }, { eccCorrected := 2 ^ 32 }, { eccUncorrected := 2 ^ 32 }] : List TickIn).all (!·.wellFormed) = true := by
  decide +kernel

theorem smoke_stamp : ([{ ns := 2 ^ 64 }, { frac := 65536 }] : List Stamp).all (!·.wellFormed) = true := by
  decide +kernel

theorem smoke_ptpMeas : ([{ ptpTime := 0, rate := 2 ^ 63 }, { ptpTime := 0, utcOffset := 2 ^ 63 }, { ptpTime := 0, grandmaster := 2 ^ 64 },
    { ptpTime := 0, domain := 256 }] : List PtpMeas).all (!·.wellFormed) = true := by
  decide +kernel

theorem smoke_portAccess : ([{ addr := 2 ^ 48 }, { size := 0 }, { size := 1, value := [0, 0] }] : List PortAccess).all (!·.wellFormed) = true := by
  decide +kernel

theorem smoke_leafRec : ([{ seq := 2 ^ 32, kind := 0 }, { seq := 0, kind := 256 }, { seq := 0, kind := 0, flags := 256 },
    { seq := 0, kind := 0, time := 2 ^ 64 }] : List LeafRec).all (!·.wellFormed) = true := by
  decide +kernel

theorem smoke_linkStart : ([{ seq := 256 }, { cls := 256 }, { length := 65536 }, { aux := 256 }] : List LinkStart).all (!·.wellFormed) = true := by
  decide +kernel

theorem smoke_rxBlock : ([⟨true, [], false⟩] : List RxBlock).all (!·.wellFormed) = true := by
  decide +kernel

theorem smoke_fec : ([.corrected 16] : List Fec).all (!·.wellFormed) = true := by
  decide +kernel

theorem smoke_pMsg : ([{ kind := 256, cls := 2 }, { kind := 1, cls := 8 }, { kind := 1, cls := 2, hops := 256 },
    { kind := 1, cls := 2, dest := 4096 }, { kind := 1, cls := 2, source := 4096 },
    { kind := 1, cls := 2, partition := 256 }] : List PMsg).all (!·.wellFormed) = true := by
  decide +kernel

theorem smoke_ingress : ([.port 6] : List Ingress).all (!·.wellFormed) = true := by
  decide +kernel

theorem smoke_partialMsg : ([{ group := 4096, generation := 0, stage := 0, window := 0, origin := 0 },
    { group := 5, generation := 256, stage := 0, window := 0, origin := 0 },
    { group := 5, generation := 0, stage := 256, window := 0, origin := 0 },
    { group := 5, generation := 0, stage := 0, window := 2 ^ 32, origin := 0 },
    { group := 5, generation := 0, stage := 0, window := 0, origin := 4096 },
    { group := 5, generation := 0, stage := 0, window := 0, origin := 0, members := 2 ^ 32 },
    { group := 5, generation := 0, stage := 0, window := 0, origin := 0, present := 2 ^ 32 },
    { group := 5, generation := 0, stage := 0, window := 0, origin := 0, gapLeaves := 2 ^ 32 },
    { group := 5, generation := 0, stage := 0, window := 0, origin := 0, trunks := 65536 },
    { group := 5, generation := 0, stage := 0, window := 0, origin := 0, fieldCount := 65536 },
    { group := 5, generation := 0, stage := 0, window := 0, origin := 0, flags := 2 ^ 32 },
    { group := 5, generation := 0, stage := 0, window := 0, origin := 0, listCrc := 2 ^ 32 }] : List PartialMsg).all (!·.wellFormed) = true := by
  decide +kernel

theorem smoke_groupCtl : ([{ group := 65536 }, { group := 5, reason := 256 }, { group := 5, generation := 256 },
    { group := 5, nakGen := 256 }, { group := 5, atWindow := 2 ^ 32 }, { group := 5, quarantine := 2 ^ 64 },
    { group := 5, sender := 4096 }] : List GroupCtl).all (!·.wellFormed) = true := by
  decide +kernel

theorem smoke_fleetTrig : ([{ group := 4096, triggerId := 0, originStamp := 0 }, { group := 5, triggerId := 2 ^ 32, originStamp := 0 },
    { group := 5, triggerId := 0, originStamp := 2 ^ 64 },
    { group := 5, triggerId := 0, originStamp := 0, generation := 256 },
    { group := 5, triggerId := 0, originStamp := 0, stage := 256 },
    { group := 5, triggerId := 0, originStamp := 0, ingress := 256 },
    { group := 5, triggerId := 0, originStamp := 0, hops := 256 }] : List FleetTrig).all (!·.wellFormed) = true := by
  decide +kernel

theorem smoke_sprigAccess : ([{ reg := .x 1, size := 3 }, { reg := .f 1, size := 2 }, { reg := .v 1 60, size := 8 },
    { reg := .v 1 0, size := 0 }, { reg := .x 1, size := 8, advance := 3 }] : List SprigAccess).all (!·.wellFormed) = true := by
  decide +kernel

theorem smoke_threadId : ([⟨64, 0, 0⟩, ⟨0, 64, 0⟩, ⟨0, 0, 16⟩] : List ThreadId).all (!·.wellFormed) = true := by
  decide +kernel

theorem smoke_leaseMsg : ([{ leaseId := 2 ^ 32 }, { leaseId := 0, reason := 256 }, { leaseId := 0, units := 2 ^ 32 },
    { leaseId := 0, lender := 4096 }, { leaseId := 0, borrower := 4096 }, { leaseId := 0, expires := 2 ^ 64 },
    { leaseId := 0, recallAt := 2 ^ 64 }, { leaseId := 0, duration := 2 ^ 64 }] : List LeaseMsg).all (!·.wellFormed) = true := by
  decide +kernel

theorem smoke_leaseData : ([{ leaseId := 2 ^ 32 }, { leaseId := 0, offset := 2 ^ 64 }, { leaseId := 0, length := 2 ^ 32 },
    { leaseId := 0, tag := 2 ^ 32 }, { leaseId := 0, partition := 256 }, { leaseId := 0, sender := 4096 }] : List LeaseData).all (!·.wellFormed) = true := by
  decide +kernel

theorem smoke_energyMeas : ([⟨2 ^ 64, [0, 0, 0, 0, 0, 0]⟩, ⟨0, []⟩, ⟨0, [2 ^ 64, 0, 0, 0, 0, 0]⟩] : List EnergyMeas).all (!·.wellFormed) = true := by
  decide +kernel

theorem smoke_recomputeHead : ([{ format := 256 }, { scaleMode := 256 }, { source := 256 }, { weightLeaf := 2 ^ 32 }, { tag := 65536 },
    { tagMask := 65536 }, { k := 65536 }, { n := 65536 }, { sender := 4096 }] : List RecomputeHead).all (!·.wellFormed) = true := by
  decide +kernel

theorem smoke_digestMsg : ([⟨65536, 0, 0, 0, 0⟩, ⟨0, 2 ^ 32, 0, 0, 0⟩, ⟨0, 0, 2 ^ 32, 0, 0⟩, ⟨0, 0, 0, 2 ^ 64, 0⟩, ⟨0, 0, 0, 0, 2 ^ 64⟩] : List DigestMsg).all (!·.wellFormed) = true := by
  decide +kernel

theorem smoke_egressId : ([.pleach 6, .stem 256] : List EgressId).all (!·.wellFormed) = true := by
  decide +kernel

theorem smoke_arbId : ([.mem 4] : List ArbId).all (!·.wellFormed) = true := by
  decide +kernel

theorem smoke_eccHit : ([{ model := 8 }, { model := 0, ring := 64 }, { model := 0, index := 2 ^ 32 }, { model := 0, vectors := [2 ^ 32] }] : List EccHit).all (!·.wellFormed) = true := by
  decide +kernel

theorem smoke_origin : ([.udp (2 ^ 128) 0, .udp 0 65536, .mac (2 ^ 48)] : List Origin).all (!·.wellFormed) = true := by
  decide +kernel

theorem smoke_instr_refused_1 : ([.sampleTick .trunk { offers := [255] }, .read .trunk { via := .lp, txn := 65536 } 0 0 0 0,
    .read .trunk { via := .lp } (2 ^ 16) 0 0 0, .read .trunk { via := .lp } 0 (2 ^ 8) 0 0,
    .read .trunk { via := .lp } 0 0 (2 ^ 32) 0, .read .trunk { via := .lp } 0 0 0 (2 ^ 16),
    .write .trunk { via := .lp, txn := 65536 } 0 0 0 0 false [], .write .trunk { via := .lp } (2 ^ 16) 0 0 0 false [],
    .write .trunk { via := .lp } 0 (2 ^ 8) 0 0 false [], .write .trunk { via := .lp } 0 0 (2 ^ 32) 0 false [],
    .write .trunk { via := .lp } 0 0 0 (2 ^ 16) false [], .readRecord .trunk { via := .lp, txn := 65536 } 0 0 0,
    .readRecord .trunk { via := .lp } (2 ^ 16) 0 0, .readRecord .trunk { via := .lp } 0 (2 ^ 32) 0,
    .readRecord .trunk { via := .lp } 0 0 (2 ^ 16), .subscribe .trunk { via := .lp, txn := 65536 } 0 0,
    .subscribe .trunk { via := .lp } (2 ^ 16) 0, .subscribe .trunk { via := .lp } 0 (2 ^ 8),
    .unsubscribe .trunk { via := .lp, txn := 65536 } 0 0, .unsubscribe .trunk { via := .lp } (2 ^ 16) 0,
    .unsubscribe .trunk { via := .lp } 0 (2 ^ 8), .identify .trunk { via := .lp, txn := 65536 },
    .ack .trunk { via := .lp, txn := 65536 } 0 0, .ack .trunk { via := .lp } (2 ^ 16) 0,
    .ack .trunk { via := .lp } 0 (2 ^ 32), .misaddressed .trunk { via := .lp, txn := 65536 },
    .sdpResponse .trunk (2 ^ 8) 0 0 0 0 0 [] none, .sdpResponse .trunk 0 (2 ^ 16) 0 0 0 0 [] none,
    .sdpResponse .trunk 0 0 (2 ^ 32) 0 0 0 [] none, .sdpResponse .trunk 0 0 0 (2 ^ 16) 0 0 [] none,
    .sdpResponse .trunk 0 0 0 0 (2 ^ 16) 0 [] none, .sdpResponse .trunk 0 0 0 0 0 (2 ^ 8) [] none,
    .sdpResponse .trunk 0 0 0 0 0 0 [] (some (0, 0)),
    .proxyRequest { via := .lp, txn := 65536 } (.mac 5) 0 0 0 0 0 ⟨0, []⟩,
    .proxyRequest { via := .lp } (.mac (2 ^ 48)) 0 0 0 0 0 ⟨0, []⟩,
    .proxyRequest { via := .lp } (.mac 5) (2 ^ 8) 0 0 0 0 ⟨0, []⟩,
    .proxyRequest { via := .lp } (.mac 5) 0 (2 ^ 16) 0 0 0 ⟨0, []⟩,
    .proxyRequest { via := .lp } (.mac 5) 0 0 (2 ^ 8) 0 0 ⟨0, []⟩,
    .proxyRequest { via := .lp } (.mac 5) 0 0 0 0 0 ⟨(2 ^ 8), []⟩,
    .proxyRequest { via := .lp } (.mac 5) 0 0 0 (2 ^ 32) 0 ⟨0, []⟩] : List Instr).all (!·.wellFormed) = true := by
  decide +kernel

theorem smoke_instr_refused_2 : ([.proxyRequest { via := .lp } (.mac 5) 0 0 0 0 (2 ^ 16) ⟨0, []⟩, .proxyResponse 64 0 0 0 ⟨0, 0, 0, 0, 0, []⟩,
    .proxyResponse 0 (2 ^ 16) 0 0 ⟨0, 0, 0, 0, 0, []⟩, .proxyResponse 0 0 (2 ^ 8) 0 ⟨0, 0, 0, 0, 0, []⟩,
    .proxyResponse 0 0 0 0 ⟨(2 ^ 32), 0, 0, 0, 0, []⟩, .proxyResponse 0 0 0 0 ⟨0, (2 ^ 16), 0, 0, 0, []⟩,
    .proxyResponse 0 0 0 0 ⟨0, 0, (2 ^ 8), 0, 0, []⟩, .proxyResponse 0 0 0 0 ⟨0, 0, 0, (2 ^ 8), 0, []⟩,
    .proxyResponse 0 0 0 0 ⟨0, 0, 0, 0, (2 ^ 32), []⟩, .proxyResponse 0 0 0 (2 ^ 8) ⟨0, 0, 0, 0, 0, []⟩, .proxySlotTimeout 64,
    .storeConfig .trunk { via := .lp, txn := 65536 } 0, .storeConfig .trunk { via := .lp } (2 ^ 64),
    .restoreDefaults .trunk { via := .lp, txn := 65536 } 0, .restoreDefaults .trunk { via := .lp } (2 ^ 64),
    .resLatchRead .host { via := .lp, txn := 65536 } 0, .resLatchRead .host { via := .lp } (2 ^ 16),
    .localIndirectSelect .host { via := .lp, txn := 65536 } 0 0, .localIndirectSelect .host { via := .lp } 4 0,
    .localIndirectDataRead .host { via := .lp, txn := 65536 } 0, .localIndirectDataRead .host { via := .lp } 4,
    .localIndirectDataWrite .host { via := .lp, txn := 65536 } 0 0, .localIndirectDataWrite .host { via := .lp } 4 0,
    .localIndirectCommit .host { via := .lp, txn := 65536 } 0 0, .localIndirectCommit .host { via := .lp } 4 0,
    .localIndirectCommit .host { via := .lp } 0 (2 ^ 64), .flagClear .trunk { via := .lp, txn := 65536 } 0 0 0,
    .flagClear .trunk { via := .lp } (2 ^ 16) 0 0, .flagClear .trunk { via := .lp } 0 (2 ^ 8) 0,
    .modeChange .trunk (2 ^ 16), .timeMessageSend (.pleach 6) {}, .timeMessageSend (.pleach 0) { frac := 65536 },
    .timeMessage (.pleach 6) ⟨[], false⟩ {}, .timeMessage (.pleach 0) ⟨[], false⟩ { frac := 65536 },
    .stepCmd .trunk { via := .lp, txn := 65536 } 0, .stepCmd .trunk { via := .lp } (2 ^ 63),
    .pop .trunk { via := .lp, txn := 65536 } 0, .pop .trunk { via := .lp } (2 ^ 32),
    .ptpMessage { ptpTime := 0, grandmaster := 2 ^ 64 }, .utcRestep { via := .lp, txn := 65536 } 0] : List Instr).all (!·.wellFormed) = true := by
  decide +kernel

theorem smoke_instr_refused_3 : ([.utcRestep { via := .lp } (2 ^ 64), .regionStop .host 64, .regionResume .host 64, .regionPowerDown .host 64,
    .regionPowerUp .host 64, .cmdBegin .host 255 0 [] {} false, .cmdBegin .host 0 (2 ^ 16) [] {} false,
    .cmdBegin .host 0 0 [{ slotIssued := 16 }] {} false, .cmdBegin .host 0 0 [] { slotIssued := 16 } false,
    .cmdEnd .host 255 0 [] {} false, .cmdEnd .host 0 (2 ^ 16) [] {} false,
    .cmdEnd .host 0 0 [{ slotIssued := 16 }] {} false, .cmdEnd .host 0 0 [] { slotIssued := 16 } false,
    .arrivalMark .host { via := .lp, txn := 65536 } 0, .arrivalMark .host { via := .lp } (2 ^ 32),
    .regionRst .host 64, .currentSample .host [(64, none)], .temperatureReading .host [(32, none)],
    .minVRead .host { via := .lp, txn := 65536 } 0, .minVRead .host { via := .lp } 64, .clusterChange .host 64,
    .stageRequest .host 64 0, .stageRequest .host 0 (2 ^ 8), .grant .host 16, .deny .host 16,
    .inrushDeferTimeout .host 16, .stageGrant .host { via := .lp, txn := 65536 } 0 0,
    .stageGrant .host { via := .lp } 64 0, .stageGrant .host { via := .lp } 0 (2 ^ 8),
    .stageDeny .host { via := .lp, txn := 65536 } 0 0, .stageDeny .host { via := .lp } 64 0,
    .stageDeny .host { via := .lp } 0 (2 ^ 8), .shedAssert .host { via := .lp, txn := 65536 } 0,
    .shedAssert .host { via := .lp } 16, .shedRelease .host { via := .lp, txn := 65536 } 0,
    .shedRelease .host { via := .lp } 16, .regFault .host 64, .carryTimeExpired .host 16, .regClear .host 16,
    .traceAccess .host 16 {}] : List Instr).all (!·.wellFormed) = true := by
  decide +kernel

theorem smoke_instr_refused_4 : ([.traceAccess .host 0 { size := 0 }, .periodicSync .host 16, .overflowPacket .host 16,
    .softTrigger .host { via := .lp, txn := 65536 } 0, .softTrigger .host { via := .lp } (2 ^ 64),
    .fatal .trunk (2 ^ 32) 0, .fatal .trunk 0 (2 ^ 32), .traceEnable .host { via := .lp, txn := 65536 } 0,
    .traceEnable .host { via := .lp } (2 ^ 64), .rearm .host { via := .lp, txn := 65536 } 0,
    .rearm .host { via := .lp } (2 ^ 64), .drainCmd .host { via := .lp, txn := 65536 } 0,
    .drainCmd .host { via := .lp } (2 ^ 64), .captureArm .host { via := .lp, txn := 65536 } 0,
    .digestBlockClose .host 16, .digestModeWrite .host { via := .lp, txn := 65536 } 0 0,
    .digestModeWrite .host { via := .lp } 16 0, .digestModeWrite .host { via := .lp } 0 (2 ^ 64),
    .writeRecord .trunk { via := .lp, txn := 65536 } [], .snapNow .trunk { via := .lp, txn := 65536 } 0,
    .snapNow .trunk { via := .lp } (2 ^ 64), .recorderPortRead .trunk { via := .lp, txn := 65536 },
    .flushSoftware .host { via := .lp, txn := 65536 }, .flushTeardown .host { via := .lp, txn := 65536 },
    .recorderAck .host [(2 ^ 32, 0)], .leafRecord 256 { seq := 0, kind := 0 },
    .leafRecord 0 { seq := 0, kind := 256 }, .latch .host 4, .frameBuild .host 4,
    .scheduleEnable .host { via := .lp, txn := 65536 } 0, .scheduleEnable .host { via := .lp } 4,
    .scheduleDisable .host { via := .lp, txn := 65536 } 0, .scheduleDisable .host { via := .lp } 4,
    .snapshotAt .host { via := .lp, txn := 65536 } 0, .snapshotAt .host { via := .lp } (2 ^ 64),
    .rebind .host { via := .lp, txn := 65536 } 0 0, .rebind .host { via := .lp } 4 0,
    .degradeCmd .host { via := .lp, txn := 65536 } 0, .degradeCmd .host { via := .lp } (2 ^ 64), .frameEncode .host 4] : List Instr).all (!·.wellFormed) = true := by
  decide +kernel

theorem smoke_instr_refused_5 : ([.streamReset .host { via := .lp, txn := 65536 } 0, .streamReset .host { via := .lp } (2 ^ 64), .compress 64 0,
    .compress 0 (2 ^ 32), .decompress 64 0, .decompress 0 (2 ^ 32), .decompressResume 64 0,
    .decompressResume 0 (2 ^ 32), .leafFrame 256 0 [] 0, .leafFrame 0 4 [] 0, .leafFrame 0 0 [] 2,
    .arbiterWindow (.mem 4), .decision (.mem 4), .preemption .host (2 ^ 32), .wfqTag (.stem 256) 0,
    .wfqTag (.stem 0) 8, .wfqSend (.stem 256), .drrForce { via := .lp, txn := 65536 } 0, .drrForce { via := .lp } 6,
    .wfqRestore { via := .lp, txn := 65536 } 0, .wfqRestore { via := .lp } 6, .wfqReturn (.stem 256),
    .shaperWrite { via := .lp, txn := 65536 } 0 0 0, .shaperWrite { via := .lp } 56 0 0,
    .shaperWrite { via := .lp } 0 (2 ^ 8) 0, .shaperWrite { via := .lp } 0 0 (2 ^ 64),
    .profileWrite { via := .lp, txn := 65536 } 0 0 0, .profileWrite { via := .lp } (2 ^ 16) 0 0,
    .profileWrite { via := .lp } 0 (2 ^ 8) 0, .profileWrite { via := .lp } 0 0 (2 ^ 64), .blockLock (.pleach 6),
    .align (.trunk 256) 0 0, .align (.trunk 0) (2 ^ 16) 0, .align (.trunk 0) 0 (2 ^ 16), .bringUpTimeout (.pleach 6),
    .helloSend (.pleach 6), .hello (.trunk 256) 0 0 false 0, .hello (.trunk 0) (2 ^ 8) 0 false 0,
    .hello (.trunk 0) 0 (2 ^ 8) false 0, .hello (.trunk 0) 0 0 false (2 ^ 32)] : List Instr).all (!·.wellFormed) = true := by
  decide +kernel

theorem smoke_instr_refused_6 : ([.linkFrameStart (.trunk 256),
    .linkFrame (.trunk 256) {} [] ⟨0, []⟩, .linkFrame (.trunk 0) { seq := 256 } [] ⟨0, []⟩,
    .linkFrame (.trunk 0) {} [] ⟨0, [⟨true, [], false⟩]⟩, .abort (.trunk 256), .linkAck (.trunk 256) 0,
    .linkAck (.trunk 0) (2 ^ 8), .linkNak (.trunk 256) 0, .linkNak (.trunk 0) (2 ^ 8), .credit (.trunk 256) 0 0,
    .credit (.trunk 0) (2 ^ 24) 0, .credit (.trunk 0) 0 (2 ^ 24), .retryTimeout (.trunk 256),
    .trigger .host (2 ^ 32) 0, .trigger .host 0 (2 ^ 64), .resetLink (.trunk 256), .resetLane (.trunk 256),
    .blockLockLost (.trunk 256), .resetCmdLink (.pleach 6) { via := .lp },
    .resetCmdLink (.pleach 0) { via := .lp, txn := 65536 }, .resetCmdLane (.pleach 6) { via := .lp },
    .resetCmdLane (.pleach 0) { via := .lp, txn := 65536 }, .alignCodeword 6 (.corrected 0) ⟨0, false⟩,
    .alignCodeword 0 (.corrected 16) ⟨0, false⟩, .pleachHello 6 ⟨(.corrected 0), (zeros 640)⟩,
    .pleachHello 0 ⟨(.corrected 16), (zeros 640)⟩, .pleachHello 0 ⟨(.corrected 0), (zeros 639)⟩, .wiringTimeout 6,
    .flit 6 (.corrected 0) (zeros 640), .flit 0 (.corrected 16) (zeros 640), .flit 0 (.corrected 0) (zeros 639),
    .abortFlit 6 (.corrected 0) (zeros 640), .abortFlit 0 (.corrected 16) (zeros 640),
    .abortFlit 0 (.corrected 0) (zeros 639), .resetFlit 6 (.corrected 0) (zeros 640),
    .resetFlit 0 (.corrected 16) (zeros 640), .resetFlit 0 (.corrected 0) (zeros 639), .flitRetryTimeout 6,
    .flitSend 6, .messageHeader (.port 6) 0 { kind := 1, cls := 2 }] : List Instr).all (!·.wellFormed) = true := by
  decide +kernel

theorem smoke_instr_refused_7 : ([.messageHeader .inject 2 { kind := 1, cls := 2 }, .messageHeader .inject 0 { kind := 1, cls := 8 },
    .messageDeliver { kind := 1, cls := 8 }, .fenceNotice 4096 0 [], .fenceNotice 0 (2 ^ 32) [], .opticsFault 6 0,
    .collectDeadline 64 0, .collectDeadline 0 (2 ^ 32),
    .partialMsg { group := 4096, generation := 0, stage := 0, window := 0, origin := 0 }, .stageClose 64 0 0,
    .stageClose 0 (2 ^ 32) 0, .stageClose 0 0 4,
    .result { group := 4096, generation := 0, stage := 0, window := 0, origin := 0 },
    .fleetTrigger { via := .lp, txn := 65536 } 0, .fleetTrigger { via := .lp } 4096,
    .pleachTrigger { group := 4096, triggerId := 0, originStamp := 0 }, .groupSetup { via := .lp, txn := 65536 } [],
    .setup { group := 65536 }, .setupAck { group := 65536 }, .setupNak { group := 65536 },
    .groupCommit { group := 65536 }, .groupControlAbort { group := 65536 },
    .groupTeardown { via := .lp, txn := 65536 } 0, .groupTeardown { via := .lp } 4096, .teardown { group := 65536 },
    .quarantineStart 64, .quarantineEnd 64, .join { via := .lp, txn := 65536 } 0 0, .join { via := .lp } 4096 0,
    .join { via := .lp } 0 (2 ^ 32), .leave { via := .lp, txn := 65536 } 0 0, .leave { via := .lp } 4096 0,
    .leave { via := .lp } 0 (2 ^ 32), .transitionEnd 256, .syncWait ⟨64, 0, 0⟩ 0 0 0, .syncWaitEnd ⟨64, 0, 0⟩,
    .syncAdd ⟨64, 0, 0⟩ 0 0 0, .ftRead ⟨64, 0, 0⟩ 0, .ftReadF ⟨64, 0, 0⟩ 0, .frameLoc ⟨64, 0, 0⟩ 0 0 0] : List Instr).all (!·.wellFormed) = true := by
  decide +kernel

theorem smoke_instr_refused_8 : ([.illegalInstruction ⟨64, 0, 0⟩ 0, .sprigLoadStore ⟨64, 0, 0⟩ { reg := .x 1, size := 8 },
    .sprigLoadStore ⟨0, 0, 0⟩ { reg := .x 1, size := 3 }, .kclassWrite ⟨64, 0, 0⟩ 0 0,
    .syncAddCmd { via := .lp, txn := 65536 } 0, .descriptorSubmit 64, .descriptorComplete 64 0,
    .descriptorComplete 0 (2 ^ 32), .ringReset { via := .lp, txn := 65536 } 0 0, .ringReset { via := .lp } 64 0,
    .ringReset { via := .lp } 0 (2 ^ 8), .copy 64 0, .copy 0 (2 ^ 32), .gather 64 0, .gather 0 (2 ^ 32),
    .scatter 64 0, .scatter 0 (2 ^ 32), .fill 64 0, .fill 0 (2 ^ 32), .poolAlloc 64 0, .poolAlloc 0 (2 ^ 32),
    .poolFree 64 0, .poolFree 0 (2 ^ 32), .poolRetag 64 0, .poolRetag 0 (2 ^ 32), .leaseWrite 64 0,
    .leaseWrite 0 (2 ^ 32), .leaseRead 64 0, .leaseRead 0 (2 ^ 32), .leaseRequest { leaseId := 2 ^ 32 },
    .leaseGrant { leaseId := 2 ^ 32 }, .leaseDeny { leaseId := 2 ^ 32 }, .leaseRenew { leaseId := 2 ^ 32 },
    .leaseRecall { leaseId := 2 ^ 32 }, .leaseRelease { leaseId := 2 ^ 32 }, .leaseReleased { leaseId := 2 ^ 32 },
    .leaseDataWrite { leaseId := 2 ^ 32 }, .leaseDataReadReq { leaseId := 2 ^ 32 },
    .leaseDataReadData { leaseId := 2 ^ 32 }, .leaseDataError { leaseId := 2 ^ 32 }] : List Instr).all (!·.wellFormed) = true := by
  decide +kernel

theorem smoke_instr_refused_9 : ([.renewLead (2 ^ 32), .leaseResend (2 ^ 32), .recallAt (2 ^ 32), .leaseExpires (2 ^ 32), .renewUnanswered (2 ^ 32),
    .leaseRecallCmd { via := .lp, txn := 65536 } 0, .leaseRecallCmd { via := .lp } (2 ^ 32), .energyWindow ⟨0, []⟩,
    .accountExhausted 0 0, .accountExhausted 7 0, .accountExhausted 1 (2 ^ 32), .pmbusRead [(32, 0)],
    .pmbAlert [(32, 0)], .arrivalUnresolved 64 0 0, .arrivalUnresolved 0 256 0, .arrivalUnresolved 0 0 (2 ^ 32),
    .stepClose 64, .driftUpdate 64, .bucket 64 0, .bucket 0 (2 ^ 32), .merge 64 0, .merge 0 (2 ^ 32), .rank 64 0,
    .rank 0 (2 ^ 32), .quantile 64 0, .quantile 0 (2 ^ 32), .apply { via := .lp, txn := 65536 } 0 0,
    .apply { via := .lp } 64 0, .apply { via := .lp } 0 (2 ^ 32), .applySettings 64, .load 64 0, .load 0 (2 ^ 32),
    .modelReady 8, .unload 64 0, .unload 0 (2 ^ 32), .infer 64 0, .infer 0 (2 ^ 32), .batch 64 0, .batch 0 (2 ^ 32),
    .uncorrectableEcc { model := 8 }] : List Instr).all (!·.wellFormed) = true := by
  decide +kernel

theorem smoke_instr_refused_10 : ([.arm 16 0 false, .arm 0 256 false, .policyEnable { via := .lp, txn := 65536 } 0, .policyEnable { via := .lp } 16,
    .policyDisable { via := .lp, txn := 65536 } 0, .policyDisable { via := .lp } 16,
    .captureAssembly 256 0 [] ⟨0, 0, 0, 0, 0⟩ none, .captureAssembly 0 16 [] ⟨0, 0, 0, 0, 0⟩ none,
    .captureAssembly 0 0 [{ size := 0 }] ⟨0, 0, 0, 0, 0⟩ none, .captureAssembly 0 0 [] ⟨65536, 0, 0, 0, 0⟩ none,
    .captureAssembly 0 0 [] ⟨0, 0, 0, 0, 0⟩ (some ⟨65536, 0, 0, 0, 0⟩), .weightRequest { format := 256 } [] false,
    .weightTile { format := 256 } 0 0 0 [], .weightTile {} (2 ^ 8) 0 0 [], .weightTile {} 0 (2 ^ 32) 0 [],
    .weightTile {} 0 0 (2 ^ 64) [], .weightWaitTimeout (2 ^ 32), .compare (2 ^ 32) [] [], .weightDigestCompare 4 0 [],
    .weightDigestCompare 0 (2 ^ 32) [], .weightDigestCompare 0 0 [(256, 0, [])],
    .weightDigestEnable { via := .lp, txn := 65536 } 0, .weightDigestEnable { via := .lp } 4,
    .testPackWrite .host { via := .lp, txn := 65536 } [], .runTest .host { via := .lp, txn := 65536 } 0,
    .shadowPairEnable { via := .lp, txn := 65536 } 0, .shadowPairEnable { via := .lp } 16,
    .shadowDigest 16 false ⟨0, 0, 0, 0, 0⟩, .shadowDigest 0 false ⟨65536, 0, 0, 0, 0⟩, .pairSkewTimeout 16,
    .vsfRecord 256 [], .seal 64 0, .seal 0 (2 ^ 32), .toText 64 0, .toText 0 (2 ^ 32), .fromText 64 0,
    .fromText 0 (2 ^ 32), .imageFetch .host (2 ^ 32) [] false, .targetWrite { via := .lp, txn := 65536 } 0,
    .targetWrite { via := .lp } (2 ^ 64)] : List Instr).all (!·.wellFormed) = true := by
  decide +kernel

theorem smoke_instr_refused_11 : ([.commit { via := .lp, txn := 65536 } 0, .commit { via := .lp } (2 ^ 64),
    .block { via := .lp, txn := 65536 } [] false, .blockFinish { via := .lp, txn := 65536 },
    .quicksetImage .trunk { via := .lp, txn := 65536 } [], .bootStatePoll [(0, 17, 0, 0)],
    .quicksetPush { via := .lp, txn := 65536 } 0, .quicksetPush { via := .lp } (2 ^ 64),
    .unitReset .trunk { via := .lp, txn := 65536 } 0, .unitReset .trunk { via := .lp } (2 ^ 64),
    .layerStartTrunk { via := .lp, txn := 65536 }, .layerStartLeaves { via := .lp, txn := 65536 },
    .leafRunning 256 0 0, .leafRunning 0 (2 ^ 32) 0, .leafRunning 0 0 (2 ^ 32), .hostError .host 16,
    .unlistedOpcode .trunk { via := .lp, txn := 65536 } 0 0 0, .unlistedOpcode .trunk { via := .lp } (2 ^ 8) 0 0,
    .unlistedOpcode .trunk { via := .lp } 0 (2 ^ 16) 0, .unlistedOpcode .trunk { via := .lp } 0 0 (2 ^ 8),
    .opticsReady 6, .commitConfirmation .host (2 ^ 8), .ptpEventMessageSend 256 .delayReq 0 {},
    .ptpEventMessageSend 0 .delayReq (2 ^ 16) {}, .ptpEventMessageSend 0 .delayReq 0 { frac := 65536 }] : List Instr).all (!·.wellFormed) = true := by
  decide +kernel

theorem smoke_instr_wellFormed_1 : ([.sampleTick .trunk {}, .read .trunk { via := .lp } 0 0 0 0, .write .trunk { via := .lp } 0 0 0 0 false [],
    .readRecord .trunk { via := .lp } 0 0 0, .subscribe .trunk { via := .lp } 0 0,
    .unsubscribe .trunk { via := .lp } 0 0, .identify .trunk { via := .lp }, .ack .trunk { via := .lp } 0 0,
    .shortMessageDiscard .trunk [], .misaddressed .trunk { via := .lp }, .sdpResponse .trunk 0 0 0 0 0 0 [] none,
    .latchRelease .trunk, .replayEntryFree .trunk, .proxyRequest { via := .lp } (.mac 5) 0 0 0 0 0 ⟨0, []⟩,
    .proxyResponse 0 0 0 0 ⟨0, 0, 0, 0, 0, []⟩, .proxySlotTimeout 0, .storeConfig .trunk { via := .lp } 0,
    .storeConfigTimeout .host, .restoreDefaults .trunk { via := .lp } 0, .resLatchRead .host { via := .lp } 0,
    .localIndirectSelect .host { via := .lp } 0 0, .localIndirectDataRead .host { via := .lp } 0,
    .localIndirectDataWrite .host { via := .lp } 0 0, .localIndirectCommit .host { via := .lp } 0 0,
    .flagClear .trunk { via := .lp } 0 0 0, .modeChange .trunk 0, .timeMessageSend (.pleach 0) {},
    .timeMessage (.pleach 0) ⟨[], false⟩ {}, .incrementApply .trunk, .exchangeTimeout .trunk, .holdoverExpired .trunk,
    .sourceTimeout, .stepCmd .trunk { via := .lp } 0, .pop .trunk { via := .lp } 0, .ptpMessage { ptpTime := 0 },
    .utcRestep { via := .lp } 0, .regionStop .host 0, .regionResume .host 0, .regionPowerDown .host 0,
    .regionPowerUp .host 0, .cmdBegin .host 0 0 [] {} false, .cmdEnd .host 0 0 [] {} false,
    .arrivalMark .host { via := .lp } 0, .counterScan .host, .regionRst .host 0, .lostRecord .host,
    .currentSample .host [], .temperatureReading .host [], .minVRead .host { via := .lp } 0, .clusterChange .host 0,
    .stageRequest .host 0 0, .grant .host 0, .deny .host 0, .inrushDeferTimeout .host 0,
    .stageGrant .host { via := .lp } 0 0, .stageDeny .host { via := .lp } 0 0, .shedAssert .host { via := .lp } 0,
    .shedRelease .host { via := .lp } 0, .regFault .host 0, .carryTimeExpired .host 0, .regClear .host 0,
    .powerFailWarning .trunk, .powerFailRecover .trunk, .traceAccess .host 0 {}, .periodicSync .host 0,
    .funnelTransfer .host, .overflowPacket .host 0, .softTrigger .host { via := .lp } 0, .fatal .trunk 0 0,
    .freeze .host] : List Instr).all (·.wellFormed) = true := by
  decide +kernel

theorem smoke_instr_wellFormed_2 : ([.traceEnable .host { via := .lp } 0, .rearm .host { via := .lp } 0, .drainCmd .host { via := .lp } 0,
    .drainDone .host, .captureArm .host { via := .lp } 0, .digestBlockClose .host 0,
    .digestModeWrite .host { via := .lp } 0 0, .writeRecord .trunk { via := .lp } [],
    .snapNow .trunk { via := .lp } 0, .recorderPortRead .trunk { via := .lp }, .flushSoftware .host { via := .lp },
    .flushTeardown .host { via := .lp }, .flushEnd .host, .recorderAck .host [], .ackTimeout .host,
    .leafRecord 0 { seq := 0, kind := 0 }, .recorderCommit, .latch .host 0, .frameBuild .host 0,
    .scheduleEnable .host { via := .lp } 0, .scheduleDisable .host { via := .lp } 0,
    .snapshotAt .host { via := .lp } 0, .oneShotLatch .host, .rebind .host { via := .lp } 0 0,
    .degradeCmd .host { via := .lp } 0, .trunkLadder, .frameEncode .host 0, .streamReset .host { via := .lp } 0,
    .compress 0 0, .decompress 0 0, .decompressResume 0 0, .leafFrame 0 0 [] 0, .arbiterWindow (.mem 0),
    .decision (.mem 0), .preemption .host 0, .wfqTag (.stem 0) 0, .wfqSend (.stem 0), .drrForce { via := .lp } 0,
    .wfqRestore { via := .lp } 0, .wfqReturn (.stem 0), .shaperWrite { via := .lp } 0 0 0,
    .profileWrite { via := .lp } 0 0 0, .blockLock (.pleach 0), .align (.trunk 0) 0 0, .bringUpTimeout (.pleach 0),
    .helloSend (.pleach 0), .hello (.trunk 0) 0 0 false 0, .linkFrameStart (.trunk 0),
    .linkFrame (.trunk 0) {} [] ⟨0, []⟩, .abort (.trunk 0), .linkAck (.trunk 0) 0, .linkNak (.trunk 0) 0,
    .credit (.trunk 0) 0 0, .retryTimeout (.trunk 0), .trigger .host 0 0, .resetLink (.trunk 0),
    .resetLane (.trunk 0), .blockLockLost (.trunk 0), .resetCmdLink (.pleach 0) { via := .lp },
    .resetCmdLane (.pleach 0) { via := .lp }, .alignCodeword 0 (.corrected 0) ⟨0, false⟩,
    .pleachHello 0 ⟨(.corrected 0), (zeros 640)⟩, .wiringTimeout 0, .flit 0 (.corrected 0) (zeros 640),
    .abortFlit 0 (.corrected 0) (zeros 640), .resetFlit 0 (.corrected 0) (zeros 640), .flitRetryTimeout 0,
    .flitSend 0, .messageHeader .inject 0 { kind := 1, cls := 2 }, .messageDeliver { kind := 1, cls := 2 }] : List Instr).all (·.wellFormed) = true := by
  decide +kernel

theorem smoke_instr_wellFormed_3 : ([.fenceNotice 0 0 [], .fenceApply, .opticsFault 0 0, .collectDeadline 0 0,
    .partialMsg { group := 5, generation := 0, stage := 0, window := 0, origin := 0 }, .stageClose 0 0 0,
    .result { group := 5, generation := 0, stage := 0, window := 0, origin := 0 }, .fleetTrigger { via := .lp } 0,
    .pleachTrigger { group := 5, triggerId := 0, originStamp := 0 }, .groupSetup { via := .lp } [],
    .setup { group := 5 }, .setupAck { group := 5 }, .setupNak { group := 5 }, .setupTimeout,
    .groupCommit { group := 5 }, .groupControlAbort { group := 5 }, .groupTeardown { via := .lp } 0,
    .teardown { group := 5 }, .quarantineStart 0, .quarantineEnd 0, .join { via := .lp } 0 0,
    .leave { via := .lp } 0 0, .changeBatch, .transitionEnd 0, .syncWait ⟨0, 0, 0⟩ 0 0 0, .syncWaitEnd ⟨0, 0, 0⟩,
    .syncAdd ⟨0, 0, 0⟩ 0 0 0, .ftRead ⟨0, 0, 0⟩ 0, .ftReadF ⟨0, 0, 0⟩ 0, .frameLoc ⟨0, 0, 0⟩ 0 0 0,
    .illegalInstruction ⟨0, 0, 0⟩ 0, .sprigLoadStore ⟨0, 0, 0⟩ { reg := .x 1, size := 8 }, .kclassWrite ⟨0, 0, 0⟩ 0 0,
    .syncAddCmd { via := .lp } 0, .descriptorSubmit 0, .descriptorComplete 0 0, .ringReset { via := .lp } 0 0,
    .copy 0 0, .gather 0 0, .scatter 0 0, .fill 0 0, .poolAlloc 0 0, .poolFree 0 0, .poolRetag 0 0, .leaseWrite 0 0,
    .leaseRead 0 0, .leaseRequest { leaseId := 0 }, .leaseGrant { leaseId := 0 }, .leaseDeny { leaseId := 0 },
    .leaseRenew { leaseId := 0 }, .leaseRecall { leaseId := 0 }, .leaseRelease { leaseId := 0 },
    .leaseReleased { leaseId := 0 }, .leaseDataWrite { leaseId := 0 }, .leaseDataReadReq { leaseId := 0 },
    .leaseDataReadData { leaseId := 0 }, .leaseDataError { leaseId := 0 }, .renewLead 0, .leaseResend 0, .recallAt 0,
    .leaseExpires 0, .renewUnanswered 0, .leaseRecallCmd { via := .lp } 0, .energyWindow ⟨0, [0, 0, 0, 0, 0, 0]⟩,
    .accountExhausted 1 0, .pmbusRead [], .pmbAlert [], .arrivalUnresolved 0 0 0, .stepClose 0, .driftUpdate 0] : List Instr).all (·.wellFormed) = true := by
  decide +kernel

theorem smoke_instr_wellFormed_4 : ([.bucket 0 0, .merge 0 0, .rank 0 0, .quantile 0 0, .apply { via := .lp } 0 0, .applySettings 0, .load 0 0,
    .modelReady 0, .unload 0 0, .infer 0 0, .batch 0 0, .uncorrectableEcc { model := 0 }, .arm 0 0 false,
    .policyEnable { via := .lp } 0, .policyDisable { via := .lp } 0, .captureAssembly 0 0 [] ⟨0, 0, 0, 0, 0⟩ none,
    .weightRequest {} [] false, .weightTile {} 0 0 0 [], .weightWaitTimeout 0, .compare 0 [] [],
    .weightDigestCompare 0 0 [], .weightDigestEnable { via := .lp } 0, .testStart .host, .ftDone .host 0,
    .ftReclaim .host, .testPreempted .host, .testTimeout .host, .testPackWrite .host { via := .lp } [],
    .runTest .host { via := .lp } 0, .hostWaitTimeout .host, .shadowPairEnable { via := .lp } 0,
    .shadowDigest 0 false ⟨0, 0, 0, 0, 0⟩, .pairSkewTimeout 0, .vsfRecord 0 [], .seal 0 0, .toText 0 0, .fromText 0 0,
    .boot, .imageFetch .host 0 [] false, .fetchRetry .host, .fetchTimeout .host, .targetWrite { via := .lp } 0,
    .commit { via := .lp } 0, .sectorWritten false, .block { via := .lp } [] false, .blockFinish { via := .lp },
    .watchdog .trunk false, .bootAttemptsClear .trunk, .quicksetImage .trunk { via := .lp } [], .bootStatePoll [],
    .quicksetPush { via := .lp } 0, .unitReset .trunk { via := .lp } 0, .layerStartTrunk { via := .lp },
    .layerStartLeaves { via := .lp }, .leafRunning 0 0 0, .leafBootTimeout, .powerOn .trunk false,
    .pinReset .trunk false false, .thermalTrip, .hostError .host 0, .unlistedOpcode .trunk { via := .lp } 0 0 0,
    .opticsReady 0, .watchdogFlushLimit .host, .commitConfirmation .host 0, .serviceFrameFcsFail .host,
    .ptpEventMessageSend 0 .delayReq 0 {}, .progressWordProgrammed, .eccCorrected] : List Instr).all (·.wellFormed) = true := by
  decide +kernel

theorem smoke_leafRec_payload (bs : Bytes) (h : 65536 < bs.length) :
    LeafRec.wellFormed { seq := 0, kind := 0, payload := bs } = false := by
  simp [LeafRec.wellFormed, h]

theorem smoke_pMsg_payload (bs : Bytes) (h : 16777216 < bs.length) :
    PMsg.wellFormed { kind := 1, cls := 2, payload := bs } = false := by
  simp [PMsg.wellFormed, h]

/-! ### Witnesses

`witness_<Name>` states, for each clause of statement `<Name>` that has hypotheses, values that meet all of them. -/

theorem witness_StepTakesTheFrontCommand :
    (∃ (s : State) (c : Instr) (rest : List Instr), (s.pending = c :: rest)) ∧
    (∃ (s : State), (s.pending = [])) :=
  ⟨⟨({ State.reset with pending := [.boot] }), .boot, [], by decide +kernel⟩,
   ⟨State.reset, by decide +kernel⟩⟩

theorem witness_ReadReturnsTheBytesAsked :
    (∃ (s : State) (u : UnitId) (e : Env) (i : Nat) (sub : Nat) (len : Nat) (r : Row), (((s.unit u).runBefore e).hears e) ∧ s.runs u ∧ (e.via ≠ .lp) ∧
      (((s.unit u).atRead e i).serves i = true) ∧ (len ≤ 1024) ∧ (((s.unit u).atRead e i).cfg.rowOf i sub = some r) ∧
      (r.acc ≠ .wo) ∧ (r.acc ≠ .cmd) ∧ (r.ty.isBlob = false) ∧ (((s.unit u).atRead e i).readRefused i = false) ∧
      (((s.unit u).atRead e i).slotBusy i = false) ∧ (((s.unit u).atRead e i).latchOf e i = none)) ∧
    (∃ (s : State) (u : UnitId) (e : Env) (i : Nat) (sub : Nat) (len : Nat) (r : Row), (((s.unit u).runBefore e).hears e) ∧ s.runs u ∧ (e.via ≠ .lp) ∧
      (((s.unit u).atRead e i).serves i = true) ∧ (len ≤ 1024) ∧ (((s.unit u).atRead e i).cfg.rowOf i sub = some r) ∧
      (r.acc ≠ .wo) ∧ (r.acc ≠ .cmd) ∧ (r.ty.isBlob = true) ∧ (((s.unit u).atRead e i).readRefused i = false) ∧
      (((s.unit u).atRead e i).slotBusy i = false) ∧
      ((((s.unit u).atRead e i).purgeLatches.srv.latches.filter (fun x => !sameSource x.who e)).length < ((s.unit u).atRead e i).get 0x1101_02)) ∧
    (∃ (s : State) (u : UnitId) (e : Env) (i : Nat) (sub : Nat) (off : Nat) (len : Nat) (r : Row) (x : LatchEnt), (((s.unit u).runBefore e).hears e) ∧ s.runs u ∧ (e.via ≠ .lp) ∧
      (((s.unit u).atRead e i).serves i = true) ∧ (len ≤ 1024) ∧ (((s.unit u).atRead e i).cfg.rowOf i sub = some r) ∧
      (r.acc ≠ .wo) ∧ (r.acc ≠ .cmd) ∧ (off ≠ 0) ∧ (((s.unit u).atRead e i).readRefused i = false) ∧
      (((s.unit u).atRead e i).latchOf e i = some x) ∧ (off ≤ ((inCopy x.copy sub).getD []).length) ∧
      (8 < ((inCopy x.copy sub).getD []).length)) ∧
    (∃ (s : State) (l : LeafId) (e : Env) (i : Nat) (sub : Nat) (off : Nat) (len : Nat) (r : Row), (((s.unit (.leaf l)).runBefore e).hears e) ∧
      (s.runs (.leaf l)) ∧ (e.via = .lp) ∧ (e.user = false) ∧ (((s.unit (.leaf l)).atRead e i).serves i = true) ∧
      (((s.unit (.leaf l)).atRead e i).cfg.rowOf i sub = some r) ∧ (r.acc ≠ .wo) ∧ (r.acc ≠ .cmd) ∧ (r.ty.isBlob = false) ∧
      (isRes ((s.unit (.leaf l)).atRead e i).cfg i = false) ∧ (len ∈ [1, 2, 4, 8]) ∧ (off % len = 0) ∧ (off + len ≤ 8)) :=
  ⟨⟨State.reset, (.leaf .host), (svE), (0x1000), (3), 0, (Option.get ((leafCfg).rowOf 0x1000 3) (by decide +kernel)),
     hears_of (by decide +kernel), by decide +kernel⟩,
   ⟨State.reset, (.leaf .host), (svE), (0x1000), (1), 0, (Option.get ((leafCfg).rowOf 0x1000 1) (by decide +kernel)),
     hears_of (by decide +kernel), by decide +kernel⟩,
   ⟨(lf fun d => { d with srv := { d.srv with latches := [svL] } }), (.leaf .host), (svE), (0x2103), (5), (4), 0,
     (Option.get ((leafCfg).rowOf 0x2103 5) (by decide +kernel)), (svL), hears_of (by decide +kernel), by decide +kernel⟩,
   ⟨State.reset, .host, lpE, (0x1000), (3), 0, (1), (Option.get ((leafCfg).rowOf 0x1000 3) (by decide +kernel)),
     hears_of (by decide +kernel), by decide +kernel⟩⟩

theorem witness_WriteStoresTheValue :
    (∃ (s : State) (u : UnitId) (e : Env) (i : Nat) (sub : Nat) (v : Nat) (r : Row), ((s.unit u).accepts e i sub v) ∧ s.built ∧ s.runs u ∧ ((s.dev u).cfg.rowOf i sub = some r) ∧
      (r.acc = .rw) ∧ (i ∈ plainIndices) ∧ (sub < 256)) :=
  ⟨State.reset, (.leaf .host), lpE, (0x2407), (3), (200000), (Option.get ((leafCfg).rowOf 0x2407 3) (by decide +kernel)),
     accepts_of (by decide +kernel), by decide +kernel⟩

theorem witness_RecordsLatchesAndIdentity :
    (∃ (s : State) (u : UnitId) (e : Env) (i : Nat) (len : Nat), (((s.unit u).runBefore e).hears e) ∧ s.runs u ∧ (((s.unit u).atRead e i).serves i = true) ∧
      (len ≤ 1024) ∧ (((s.unit u).atRead e i).readRefused i = false) ∧ (((s.unit u).atRead e i).slotBusy i = false) ∧
      (isVolt i = false) ∧ (((s.unit u).atRead e i).cfg.subsOf i ≠ [0]) ∧
      ((((s.unit u).atRead e i).purgeLatches.srv.latches.filter (fun x => !sameSource x.who e)).length < ((s.unit u).atRead e i).get 0x1101_02)) ∧
    (∃ (s : State) (u : UnitId) (e : Env) (i : Nat) (off : Nat) (len : Nat) (x : LatchEnt), (((s.unit u).runBefore e).hears e) ∧ s.runs u ∧ (((s.unit u).atRead e i).serves i = true) ∧
      (len ≤ 1024) ∧ (((s.unit u).atRead e i).readRefused i = false) ∧ (off ≠ 0) ∧
      (((s.unit u).atRead e i).cfg.subsOf i ≠ [0]) ∧ (((s.unit u).atRead e i).latchOf e i = some x) ∧
      (off ≤ (recordData x.copy).length) ∧ (8 < (recordData x.copy).length)) ∧
    (∃ (s : State) (u : UnitId) (e : Env), ((s.unit u).hears e) ∧ s.runs u) ∧
    (∃ (s : State) (l : LeafId) (e : Env) (i : Nat) (r : Row), (s.runs (.leaf l)) ∧ (e.user = false) ∧
      ((s.dev (.leaf l)).cfg.build = .leaf) ∧ ((s.dev (.leaf l)).serves i = true) ∧
      ((s.dev (.leaf l)).cfg.rowOf i 1 = some r) ∧ (r.acc = .res) ∧ (r.ty.isBlob = false)) :=
  ⟨⟨State.reset, (.leaf .host), (svE), (0x1000), 0, hears_of (by decide +kernel), by decide +kernel⟩,
   ⟨(lf fun d => { d with srv := { d.srv with latches := [svL] } }), (.leaf .host), (svE), (0x2103), (1), 0, (svL),
     hears_of (by decide +kernel), by decide +kernel⟩,
   ⟨State.reset, (.leaf .host), lpE, hears_of (by decide +kernel), by decide +kernel⟩,
   ⟨State.reset, .host, lpE, (0x4405), (Option.get ((leafCfg).rowOf 0x4405 1) (by decide +kernel)), by decide +kernel⟩⟩

theorem witness_SubscriptionsCompletionsAndAcks :
    (∃ (s : State) (u : UnitId) (e : Env) (i : Nat), ((s.unit u).hears e) ∧ s.runs u ∧ ((s.dev u).serves i = true) ∧
      (isRes (s.dev u).cfg i = true)) ∧
    (∃ (s : State) (u : UnitId) (e : Env) (i : Nat), ((s.unit u).hears e) ∧ s.runs u ∧ ((s.dev u).serves i = true) ∧
      (isRes (s.dev u).cfg i = true)) ∧
    (∃ (s : State) (u : UnitId) (e : Env) (i : Nat) (seq : Nat), ((s.unit u).accepts e i 0xFF seq) ∧
      ((∀ r, (s.dev u).cfg.rowOf i 0xFF = some r → r.rng = .any ∧ r.ty = .u32)) ∧ s.runs u ∧ (i < 0x10000)) ∧
    (∃ (d : Dev) (i : Nat) (payload : List (Nat × Nat)), (i < 0x10000) ∧ (isRes d.cfg i = true) ∧
      ((∀ x ∈ payload, 4 ≤ x.1 ∧ x.1 < 0xFF))) ∧
    (∃ (s : State) (l : LeafId), s.built ∧ (s.runs (.leaf l)) ∧ ((s.dev (.leaf l)).ftest.run.isSome = true)) ∧
    (∃ (s : State) (p : Nat) (b : Bytes), s.built ∧ s.runs .trunk ∧ (p ≤ 255) ∧ (vsfGood b = true)) :=
  ⟨⟨State.reset, (.leaf .host), lpE, (0x4405), hears_of (by decide +kernel), by decide +kernel⟩,
   ⟨State.reset, (.leaf .host), lpE, (0x4405), hears_of (by decide +kernel), by decide +kernel⟩,
   ⟨State.reset, (.leaf .host), lpE, (0x4405), (5), accepts_of (by decide +kernel), forall_some (by decide +kernel),
     by decide +kernel⟩,
   ⟨State.reset.leaf, (0x4405), ([(4, 1)]), by decide +kernel⟩,
   ⟨(lf fun d => { d with ftest := { d.ftest with run := some run0 } }), .host, by decide +kernel⟩,
   ⟨State.reset, 0, (vsf0), by decide +kernel⟩⟩

theorem witness_MessagesThatAreNotExecuted :
    (∃ (s : State) (u : UnitId) (bs : Bytes), s.runs u ∧ (bs.length < 24)) ∧
    (∃ (s : State) (u : UnitId), s.runs u ∧ ((s.dev u).get 0x1101_07 + 1 < 2 ^ 32)) ∧
    (∃ (s : State) (u : UnitId) (e : Env) (op : Nat), ((s.unit u).hears e) ∧ s.runs u ∧ (op < 0x80) ∧
      (op ∉ [1, 2, 3, 4, 5, 6])) ∧
    (∃ (s : State) (u : UnitId), s.runs u) ∧
    (∃ (s : State) (u : UnitId), s.runs u) ∧
    (∃ (s : State) (u : UnitId), s.runs u) :=
  ⟨⟨State.reset, (.leaf .host), [], by decide +kernel⟩,
   ⟨State.reset, (.leaf .host), by decide +kernel⟩,
   ⟨State.reset, (.leaf .host), lpE, (9), hears_of (by decide +kernel), by decide +kernel⟩,
   ⟨State.reset, (.leaf .host), by decide +kernel⟩,
   ⟨State.reset, (.leaf .host), by decide +kernel⟩,
   ⟨State.reset, (.leaf .host), by decide +kernel⟩⟩

theorem witness_ProxySlotsCarryRequests :
    (∃ (s : State) (e : Env) (op : Nat), s.runs .trunk ∧ ((s.unit .trunk).hearsFrame e = true) ∧
      ((s.unit .trunk).takes e = false) ∧ ((s.unit .trunk).passesOn e = true) ∧ (e.via = .servicePort ∨ e.via = .exportNet) ∧
      (op < 0x80) ∧ (e.txn < 2 ^ 16)) ∧
    (∃ (s : State) (e : Env), s.runs .trunk ∧ ((s.unit .trunk).hearsFrame e = true) ∧ ((s.unit .trunk).takes e = false) ∧
      ((s.unit .trunk).passesOn e = true) ∧ (e.via = .service) ∧ (addrTrunk e.dest = s.trunk.get 0x3100_01) ∧
      (e.dest.testBit 20 = false) ∧
      ((s.trunk.dropPartition e.source = 0 ∨ s.trunk.stemPartition (e.dest % 256) = s.trunk.dropPartition e.source))) ∧
    (∃ (s : State) (slot : Nat) (txn : Nat) (x : ProxySlot), s.runs .trunk ∧ (s.trunk.srv.slots.find? (fun x => x.slot = slot && x.txn = txn) = some x)) ∧
    (∃ (s : State), s.runs .trunk) :=
  ⟨⟨State.reset, ({ via := .servicePort, dest := 5 }), 0, by decide +kernel⟩,
   ⟨State.reset, ({ via := .service, dest := 256 * State.reset.trunk.get 0x3100_01 + 1, source := 0x300001 }),
     by decide +kernel⟩,
   ⟨(tr fun d => { d with srv := { d.srv with slots := [⟨0, 1, 1, .servicePort, .mac 5, 0, 0⟩] } }), (0), (1),
     (⟨0, 1, 1, .servicePort, .mac 5, 0, 0⟩), by decide +kernel⟩,
   ⟨State.reset, by decide +kernel⟩⟩

theorem witness_ConfigurationIsStoredAndRestored :
    (∃ (s : State) (e : Env) (v : Nat), ((s.unit .trunk).accepts e 0x1010 0 v) ∧ s.built ∧ s.runs .trunk) ∧
    (∃ (s : State) (l : LeafId) (e : Env), ((s.unit (.leaf l)).accepts e 0x1010 0 0x65766173) ∧ s.built ∧ (s.runs (.leaf l)) ∧
      ((s.unit (.leaf l)).stemState (.leaf (s.unit (.leaf l)).leafId) = 4) ∧ ((s.unit (.leaf l)).unassigned = false) ∧
      ((s.dev (.leaf l)).srv.storing = none)) ∧
    (∃ (s : State) (l : LeafId) (w : Waiting), (s.runs (.leaf l)) ∧ ((s.dev (.leaf l)).srv.storing = some w) ∧
      (((s.unit (.leaf l)).stemState (.leaf (s.unit (.leaf l)).leafId) ≠ 4 ∨ w.time + 50000000 ≤ (s.dev (.leaf l)).time.ns))) ∧
    (∃ (s : State) (l : LeafId) (w : Waiting), (s.runs (.leaf l)) ∧ ((s.dev (.leaf l)).srv.storing = some w)) ∧
    (∃ (s : State) (u : UnitId) (e : Env) (v : Nat), ((s.unit u).accepts e 0x1011 0 v) ∧ s.runs u) :=
  ⟨⟨State.reset, svE, 0, accepts_of (by decide +kernel), by decide +kernel⟩,
   ⟨(lf fun d => (d.set 0x3001_02 4).set 0x1000_06 0x31005), .host, lpE, accepts_of (by decide +kernel), by decide +kernel⟩,
   ⟨(lf fun d => { d with srv := { d.srv with storing := some wait0 } }), .host, (wait0), by decide +kernel⟩,
   ⟨(lf fun d => { d with srv := { d.srv with storing := some wait0 } }), .host, (wait0), by decide +kernel⟩,
   ⟨State.reset, (.leaf .host), lpE, 0, accepts_of (by decide +kernel), by decide +kernel⟩⟩

theorem witness_IndirectionPairsReachAnyObject :
    (∃ (s : State) (l : LeafId) (e : Env) (p : Nat) (v : Word) (r : Row), (((s.unit (.leaf l)).runBefore e).accepts (pairEnv e) (0x1180 + p) 1 v.toNat) ∧ s.built ∧ (s.runs (.leaf l)) ∧
      (p < 4) ∧
      (((selectOf (v.toNat % 2 ^ 56)).1 = 0 → ((s.unit (.leaf l)).runBefore e).serves (selectOf (v.toNat % 2 ^ 56)).2.2 = true ∧ ((s.unit (.leaf l)).runBefore e).cfg.rowOf (selectOf (v.toNat % 2 ^ 56)).2.2 (selectOf (v.toNat % 2 ^ 56)).2.1 = some r ∧ ((s.unit (.leaf l)).runBefore e).readRefused (selectOf (v.toNat % 2 ^ 56)).2.2 = false ∧ r.acc ≠ .wo ∧ r.acc ≠ .cmd ∧ (∀ x, ((s.unit (.leaf l)).runBefore e).srv.resLatch = some x → x.1 ≠ (selectOf (v.toNat % 2 ^ 56)).2.2) ∧
      (selectOf (v.toNat % 2 ^ 56)).2.2 ∉ [0x1180, 0x1181, 0x1182, 0x1183] ∧ (((((s.unit (.leaf l)).runBefore e).set (key (0x1180 + p) 1) (v.toNat % 2 ^ 56)).scanFor (selectOf (v.toNat % 2 ^ 56)).2.2).wire (selectOf (v.toNat % 2 ^ 56)).2.2 (selectOf (v.toNat % 2 ^ 56)).2.1 r.ty).length < 2 ^ 32)) ∧
      ((selectOf (v.toNat % 2 ^ 56)).1 = 0 → (s.dev (.leaf l)).serves (selectOf (v.toNat % 2 ^ 56)).2.2 = true ∧ (s.dev (.leaf l)).cfg.rowOf (selectOf (v.toNat % 2 ^ 56)).2.2 (selectOf (v.toNat % 2 ^ 56)).2.1 = some r ∧ (s.unit (.leaf l)).readRefused (selectOf (v.toNat % 2 ^ 56)).2.2 = false ∧ r.acc ≠ .wo ∧ r.acc ≠ .cmd ∧ ((selectOf (v.toNat % 2 ^ 56)).2.2 ∉ [0x1180, 0x1181, 0x1182, 0x1183]) ∧
      ((s.unit (.leaf l)).wire (selectOf (v.toNat % 2 ^ 56)).2.2 (selectOf (v.toNat % 2 ^ 56)).2.1 r.ty).length < 2 ^ 32) ∧
      ((s.dev (.leaf l)).srv.resLatch = none ∧ (selectOf (v.toNat % 2 ^ 56)).1 = 0)) ∧
    (∃ (s : State) (l : LeafId) (e : Env) (p : Nat), s.built ∧ (s.runs (.leaf l)) ∧ (p < 4) ∧ (e.user = false) ∧
      ((s.unit (.leaf l)).quickset = false) ∧ ((s.dev (.leaf l)).get (key (0x1180 + p) 1) < 2 ^ 56)) ∧
    (∃ (s : State) (l : LeafId) (e : Env) (p : Nat) (v : Word), ((s.unit (.leaf l)).accepts (pairEnv e) (0x1180 + p) 2 v.toNat) ∧ s.built ∧ (s.runs (.leaf l)) ∧
      (p < 4) ∧ ((s.dev (.leaf l)).get (key (0x1180 + p) 1) < 2 ^ 56) ∧ (p < (s.dev (.leaf l)).srv.pairs.length)) ∧
    (∃ (s : State) (l : LeafId) (e : Env) (p : Nat) (r : Row), ((s.unit (.leaf l)).accepts (pairEnv e) (0x1180 + p) 3 1) ∧ s.built ∧ (s.runs (.leaf l)) ∧
      (p < 4) ∧ ((selectOf ((s.dev (.leaf l)).get (key (0x1180 + p) 1))).2.2 ∈ plainIndices) ∧
      ((s.dev (.leaf l)).serves (selectOf ((s.dev (.leaf l)).get (key (0x1180 + p) 1))).2.2 = true) ∧
      ((s.dev (.leaf l)).cfg.rowOf (selectOf ((s.dev (.leaf l)).get (key (0x1180 + p) 1))).2.2 (selectOf ((s.dev (.leaf l)).get (key (0x1180 + p) 1))).2.1 = some r) ∧
      (r.acc = .rw) ∧ (r.ty.isBlob = false) ∧ (r.admits (natAt ((s.dev (.leaf l)).pair p).staging 0 r.ty.size) = true) ∧
      ((s.dev (.leaf l)).get (key (0x1180 + p) 4) = r.ty.size) ∧
      ((selectOf ((s.dev (.leaf l)).get (key (0x1180 + p) 1))).2.2 ∈ plainIndices ∧ (s.dev (.leaf l)).serves (selectOf ((s.dev (.leaf l)).get (key (0x1180 + p) 1))).2.2 = true) ∧
      ((s.dev (.leaf l)).cfg.rowOf (selectOf ((s.dev (.leaf l)).get (key (0x1180 + p) 1))).2.2 (selectOf ((s.dev (.leaf l)).get (key (0x1180 + p) 1))).2.1 = some r ∧ r.acc = .rw ∧ r.ty.isBlob = false ∧ r.admits (natAt ((s.dev (.leaf l)).pair p).staging 0 r.ty.size) = true ∧ (s.dev (.leaf l)).get (key (0x1180 + p) 4) = r.ty.size)) :=
  ⟨⟨State.reset, .host, lpE, 0, (205831), (Option.get ((leafCfg).rowOf 0x2407 3) (by decide +kernel)),
     accepts_of (by decide +kernel), by decide +kernel⟩,
   ⟨State.reset, .host, lpE, 0, by decide +kernel⟩,
   ⟨State.reset, .host, lpE, 0, 0, accepts_of (by decide +kernel), by decide +kernel⟩,
   ⟨(lf fun d => { ((d.set 0x1180_01 205831).set 0x1180_04 4) with srv := { d.srv with pairs := d.srv.pairs.set 0 { staging := leBytes 4 9000 } } }),
     .host, lpE, 0, (Option.get ((leafCfg).rowOf 0x2407 3) (by decide +kernel)), accepts_of (by decide +kernel),
     by decide +kernel⟩⟩

theorem witness_FlagsClearAndModesChange :
    (∃ (s : State) (u : UnitId) (e : Env) (i : Nat) (v : BitVec 32) (r : Row), ((s.unit u).accepts e i 0 v.toNat) ∧ s.runs u ∧ (i < 0x10000) ∧
      ((s.dev u).cfg.rowOf i 0 = some r) ∧ (r.acc = .rwc) ∧ (r.ty = .bits32) ∧ ((s.dev u).get (key i 0) < 2 ^ 32)) ∧
    (∃ (s : State) (u : UnitId), s.runs u) :=
  ⟨⟨State.reset, (.leaf .host), lpE, (0x4406), (1), (Option.get ((leafCfg).rowOf 0x4406 0) (by decide +kernel)),
     accepts_of (by decide +kernel), by decide +kernel⟩,
   ⟨State.reset, (.leaf .host), by decide +kernel⟩⟩

theorem witness_SampleTicksAdvanceFleetTime :
    (∃ (s : State) (u : UnitId), s.runs u) ∧
    (∃ (s : State) (l : LeafId), ((s.dev (.leaf l)).boot.held = true) ∧ ((s.dev (.leaf l)).cfg.build = .leaf)) :=
  ⟨⟨State.reset, (.leaf .host), by decide +kernel⟩,
   ⟨(lf fun d => { d with boot := { d.boot with held := true } }), .host, by decide +kernel⟩⟩

theorem witness_TimeMessagesCarryStamps :
    (∃ (s : State) (l : LeafId), (s.runs (.leaf l))) ∧
    (∃ (s : State) (p : TimePort) (g : EgressId) (n : Nat), s.runs .trunk ∧ (p = .stem (.trunk n) ∧ g = .stem n ∨ p = .pleach n ∧ g = .pleach n)) ∧
    (∃ (s : State) (p : TimePort), (s.runs (timeUnit p))) ∧
    (∃ (s : State) (n : Nat) (last : Nat) (t : Stamp), s.runs .trunk ∧ (s.trunk.linkUp (.stem (.trunk n)) = true) ∧
      ((s.trunk.timeLink (.stem (.trunk n))).peerRx = some (last, t)) ∧ (s.trunk.get 0x2005_02 + 65536 < 2 ^ 32)) :=
  ⟨⟨State.reset, .host, by decide +kernel⟩,
   ⟨State.reset, (.stem (.trunk 0)), (.stem 0), 0, by decide +kernel⟩,
   ⟨(tr fun d => { d.set 0x6500_02 4 with time := { d.time with links := List.replicate 262 { peerRx := some (0, {}) } } }),
     (.stem (.leaf .host)), by decide +kernel⟩,
   ⟨(tr fun d => { d.set 0x6500_02 4 with time := { d.time with links := List.replicate 262 { peerRx := some (0, {}) } } }),
     0, 0, ({}), by decide +kernel⟩⟩

theorem witness_ServoStatesTimeOut :
    (∃ (s : State) (u : UnitId) (v : Nat) (due : Nat), s.runs u ∧ ((s.dev u).time.newInc = some (v, due)) ∧
      (due ≤ (s.dev u).time.tick) ∧ ((s.dev u).timeHost = false) ∧ (v < 2 ^ 64)) ∧
    (∃ (s : State) (u : UnitId), s.runs u ∧ ((s.dev u).timeHost = false) ∧
      ((s.dev u).time.lastAccept + 128 * (s.dev u).get 0x2005_01 ≤ (s.dev u).elapsed)) ∧
    (∃ (s : State) (u : UnitId), s.runs u ∧ ((s.dev u).servo = .holdover) ∧
      ((s.dev u).time.holdSince + (s.dev u).get 0x2002_09 ≤ (s.dev u).elapsed)) ∧
    (∃ (s : State), s.runs .trunk ∧ (s.trunk.servo ≠ .source) ∧ (s.trunk.bestAdvert = none) ∧
      (s.trunk.get 0x2004_01 < 255) ∧ (s.trunk.get 0x3100_01 < 4096) ∧ (s.trunk.time.upPort = none) ∧
      (s.trunk.get 0x2004_06 ≤ s.trunk.elapsed)) :=
  ⟨⟨(lf fun d => { d with time := { d.time with newInc := some (4294967296, 0) } }), (.leaf .host), (4294967296), 0,
     by decide +kernel⟩,
   ⟨(lf fun d => atNs d 1000000000000), (.leaf .host), by decide +kernel⟩,
   ⟨(lf fun d => atNs (d.set 0x2002_01 3) 1000000000000), (.leaf .host), by decide +kernel⟩,
   ⟨(tr fun d => atNs d 1000000000000), by decide +kernel⟩⟩

theorem witness_TimeIsSteppedAndStampsQueued :
    (∃ (s : State) (u : UnitId) (e : Env) (v : Int), ((s.unit u).accepts e 0x2001 4 (ofSigned 64 v)) ∧ s.runs u ∧ (-2 ^ 63 ≤ v) ∧
      (v < 2 ^ 63)) ∧
    (∃ (s : State) (u : UnitId) (e : Env) (k : Nat), ((s.unit u).accepts e 0x2008 4 k) ∧ s.runs u) ∧
    (∃ (s : State), s.runs .trunk) ∧
    (∃ (s : State) (m : PtpMeas), s.runs .trunk ∧ (s.trunk.on 0x2011_01 = true) ∧ (s.trunk.ptpFits m = true) ∧
      (m.locked = true) ∧ (s.trunk.get 0x2010_08 < 2) ∧ (m.ptpTime < 2 ^ 64) ∧ (s.trunk.time.ns < 2 ^ 64)) ∧
    (∃ (s : State) (e : Env), ((s.unit .trunk).accepts e 0x2011 6 1) ∧ s.runs .trunk) :=
  ⟨⟨State.reset, (.leaf .host), lpE, 0, accepts_of (by decide +kernel), by decide +kernel⟩,
   ⟨State.reset, (.leaf .host), lpE, 0, accepts_of (by decide +kernel), by decide +kernel⟩,
   ⟨State.reset, by decide +kernel⟩,
   ⟨(tr fun d => d.set 0x2011_01 1), { ptpTime := 0 }, by decide +kernel⟩,
   ⟨State.reset, svE, accepts_of (by decide +kernel), by decide +kernel⟩⟩

theorem witness_ClockRegionsStopResumeAndPower :
    (∃ (s : State) (l : LeafId) (r : Nat), (s.runs (.leaf l)) ∧ (r < (s.dev (.leaf l)).tap.regions.length) ∧
      (((s.dev (.leaf l)).regionAt r).powered = true) ∧ (((s.dev (.leaf l)).regionAt r).stopped = false) ∧
      (4 ≤ ((s.dev (.leaf l)).regionAt r).idle)) ∧
    (∃ (s : State) (l : LeafId) (r : Nat), (s.runs (.leaf l)) ∧ (r < (s.dev (.leaf l)).tap.regions.length) ∧
      (((s.dev (.leaf l)).regionAt r).stopped = true) ∧ (((s.dev (.leaf l)).regionAt r).idle = 0)) ∧
    (∃ (s : State) (l : LeafId) (r : Nat), (s.runs (.leaf l)) ∧ (r < (s.dev (.leaf l)).tap.regions.length) ∧
      (((s.dev (.leaf l)).regionAt r).powered = true)) ∧
    (∃ (s : State) (l : LeafId) (r : Nat), (s.runs (.leaf l)) ∧ (r < (s.dev (.leaf l)).tap.regions.length) ∧
      (((s.dev (.leaf l)).regionAt r).powered = false)) ∧
    (∃ (s : State) (l : LeafId), (s.runs (.leaf l))) :=
  ⟨⟨(inRegion fun r => { r with idle := 4 }), .host, 0, by decide +kernel⟩,
   ⟨(inRegion fun r => { r with stopped := true }), .host, 0, by decide +kernel⟩,
   ⟨State.reset, .host, 0, by decide +kernel⟩,
   ⟨(inRegion fun r => { r with powered := false }), .host, 0, by decide +kernel⟩,
   ⟨State.reset, .host, by decide +kernel⟩⟩

theorem witness_CommandsOnATapAreLogged :
    (∃ (s : State) (l : LeafId) (t : Nat), (s.runs (.leaf l)) ∧ ((s.dev (.leaf l)).tapPowered t = true)) ∧
    (∃ (s : State) (l : LeafId) (t : Nat), (s.runs (.leaf l)) ∧ ((s.dev (.leaf l)).tapPowered t = true)) ∧
    (∃ (s : State) (l : LeafId) (t : Nat), (s.runs (.leaf l)) ∧ ((s.dev (.leaf l)).tapPowered t = false)) ∧
    (∃ (s : State) (l : LeafId), (s.runs (.leaf l)) ∧ ((s.dev (.leaf l)).tap.lost ≠ 0) ∧
      ((s.dev (.leaf l)).on 0x2103_01 = true) ∧ (logFill (s.dev (.leaf l)).tap.log + 16 ≤ (s.dev (.leaf l)).get 0x2103_02)) :=
  ⟨⟨State.reset, .host, 0, by decide +kernel⟩,
   ⟨State.reset, .host, 0, by decide +kernel⟩,
   ⟨(inRegion fun r => { r with powered := false }), .host, 0, by decide +kernel⟩,
   ⟨(lf fun d => { d.set 0x2103_01 1 with tap := { d.tap with lost := 1 } }), .host, by decide +kernel⟩⟩

theorem witness_CountersAreScannedAndArrivalsMade :
    (∃ (s : State) (l : LeafId), (s.runs (.leaf l)) ∧
      ((s.dev (.leaf l)).tap.lastScan + (s.dev (.leaf l)).get 0x2100_01 ≤ (s.dev (.leaf l)).time.ns)) ∧
    (∃ (s : State) (l : LeafId), (s.runs (.leaf l)) ∧
      ((s.dev (.leaf l)).time.ns < (s.dev (.leaf l)).tap.lastScan + (s.dev (.leaf l)).get 0x2100_01)) ∧
    (∃ (s : State) (l : LeafId) (e : Env) (step : Nat), ((s.unit (.leaf l)).accepts e 0x2103 9 step) ∧ (s.runs (.leaf l))) :=
  ⟨⟨(lf fun d => atNs d 1000000000000), .host, by decide +kernel⟩,
   ⟨State.reset, .host, by decide +kernel⟩,
   ⟨State.reset, .host, lpE, (2 ^ 32 - 1), accepts_of (by decide +kernel), by decide +kernel⟩⟩

theorem witness_SensorsAreRead :
    (∃ (s : State) (l : LeafId) (vals : List (Nat × Option Nat)), ((∀ x ∈ vals, ∀ v, x.2 = some v → v < 2 ^ 32)) ∧
      (s.runs (.leaf l)) ∧ ((s.dev (.leaf l)).pow.lastCur < (s.dev (.leaf l)).time.tick / 16) ∧ ((vals.map (·.1)).Nodup) ∧
      ((s.dev (.leaf l)).cfg.powerRegions ≤ 64)) ∧
    (∃ (s : State) (l : LeafId) (vals : List (Nat × Option Int)), (s.runs (.leaf l)) ∧
      ((s.dev (.leaf l)).pow.lastTemp < (s.dev (.leaf l)).time.tick / 12500) ∧ ((vals.map (·.1)).Nodup) ∧
      ((s.dev (.leaf l)).cfg.build = .leaf) ∧ ((s.dev (.leaf l)).cfg.tempRegions.length ≤ 32)) ∧
    (∃ (s : State) (l : LeafId) (e : Env) (n : Nat), ((s.unit (.leaf l)).hears e) ∧ s.built ∧ (s.runs (.leaf l)) ∧
      ((s.unit (.leaf l)).quickset = false) ∧ (n < (s.dev (.leaf l)).cfg.voltRegions.length) ∧ (n < 64) ∧
      ((if e.via = .lp then e.user = false else (s.unit (.leaf l)).latchOf e (0x2410 + n) = none)) ∧
      ((s.dev (.leaf l)).pow.runStamp.getD n 0 < 2 ^ 64)) ∧
    (∃ (s : State) (l : LeafId) (r : Nat) (c : Nat), (s.runs (.leaf l)) ∧
      ((s.dev (.leaf l)).pow.cluster.find? (·.1 = r) = some (r, c)) ∧ ((s.unit (.leaf l)).boundary = true) ∧
      ((s.unit (.leaf l)).mayMove r c = true) ∧ (c < 256)) :=
  ⟨⟨(lf fun d => atNs d 1000000000000), .host, ([(0, some 5)]), by simp, by decide +kernel⟩,
   ⟨(lf fun d => atNs d 1000000000000), .host, ([(0, some 5)]), by decide +kernel⟩,
   ⟨State.reset, .host, lpE, 0, hears_of (by decide +kernel), by decide +kernel⟩,
   ⟨(lf fun d => { d with pow := { d.pow with cluster := [(0, 1)] } }), .host, 0, (1), by decide +kernel⟩⟩

theorem witness_TheInrushGateAnswersRequests :
    (∃ (s : State) (l : LeafId) (r : Nat), (s.runs (.leaf l)) ∧ (r < (s.dev (.leaf l)).cfg.powerRegions) ∧
      (r ∉ (s.dev (.leaf l)).pow.awaitLow) ∧ ((∀ q ∈ (s.dev (.leaf l)).pow.pend, q.region ≠ r))) ∧
    (∃ (s : State) (l : LeafId) (c : Nat) (q : StageReq), (s.runs (.leaf l)) ∧
      (((s.dev (.leaf l)).pendOf c).head? = some q) ∧ ((s.dev (.leaf l)).denying c = false) ∧
      ((s.dev (.leaf l)).on 0x2400_00 = false) ∧ ((s.dev (.leaf l)).fits c q = true) ∧
      ((∀ x ∈ (s.dev (.leaf l)).pow.granted, ¬ (x.1 = c ∧ x.2.2 = (s.dev (.leaf l)).time.ns))) ∧
      ((s.dev (.leaf l)).get 0x2404_03 + 1 < 2 ^ 32)) ∧
    (∃ (s : State) (l : LeafId) (c : Nat) (q : StageReq), (s.runs (.leaf l)) ∧
      (((s.dev (.leaf l)).pendOf c).head? = some q) ∧ ((s.dev (.leaf l)).denying c = true) ∧
      ((s.dev (.leaf l)).get 0x2404_04 + 1 < 2 ^ 32)) ∧
    (∃ (s : State) (l : LeafId) (c : Nat) (q : StageReq), (s.runs (.leaf l)) ∧ ((s.dev (.leaf l)).deferredReq c = some q) ∧
      (q.timedOut = false) ∧ ((s.dev (.leaf l)).get 0x2404_01 ≤ (s.dev (.leaf l)).stamp - q.since) ∧
      ((s.dev (.leaf l)).get 0x2404_05 + 1 < 2 ^ 32)) ∧
    (∃ (s : State) (l : LeafId) (e : Env) (r : Nat) (st : Nat) (q : StageReq), ((s.unit (.leaf l)).accepts e 0x2408 0 (st * 64 + r)) ∧
      (s.runs (.leaf l)) ∧ (r < 64) ∧ (st < 8) ∧ (r < (s.dev (.leaf l)).cfg.powerRegions) ∧
      ((s.dev (.leaf l)).on 0x2400_00 = true) ∧ ((s.dev (.leaf l)).denying ((s.dev (.leaf l)).clusterOf r) = false) ∧
      ((s.dev (.leaf l)).pow.pend.find? (fun q => q.region = r && q.stage = st) = some q) ∧
      ((s.dev (.leaf l)).fits ((s.dev (.leaf l)).clusterOf r) q = true)) ∧
    (∃ (s : State) (l : LeafId) (e : Env) (r : Nat) (st : Nat) (q : StageReq), ((s.unit (.leaf l)).accepts e 0x2408 0 (32768 + st * 64 + r)) ∧
      (s.runs (.leaf l)) ∧ (r < 64) ∧ (st < 8) ∧ (r < (s.dev (.leaf l)).cfg.powerRegions) ∧
      ((s.dev (.leaf l)).on 0x2400_00 = true) ∧ ((s.dev (.leaf l)).denying ((s.dev (.leaf l)).clusterOf r) = false) ∧
      ((s.dev (.leaf l)).pow.pend.find? (fun q => q.region = r && q.stage = st) = some q)) :=
  ⟨⟨State.reset, .host, 0, by decide +kernel⟩,
   ⟨(lf fun d => gated [⟨0, 1, 0, false, false⟩] (d.set 0x2490_01 100000)), .host, 0, (⟨0, 1, 0, false, false⟩),
     by decide +kernel⟩,
   ⟨(lf fun d => gated [⟨0, 1, 0, false, false⟩] (d.set 0x2407_01 1)), .host, 0, (⟨0, 1, 0, false, false⟩),
     by decide +kernel⟩,
   ⟨(lf fun d => atNs (gated [⟨0, 1, 0, false, false⟩] ((d.set 0x2490_01 0).set 0x2450_01 5)) 1000000000000), .host, 0,
     (⟨0, 1, 0, false, false⟩), by decide +kernel⟩,
   ⟨(lf fun d => gated [⟨0, 1, 0, false, false⟩] ((d.set 0x2490_01 100000).set 0x2400_00 1)), .host, lpE, 0, (1),
     (⟨0, 1, 0, false, false⟩), accepts_of (by decide +kernel), by decide +kernel⟩,
   ⟨(lf fun d => gated [⟨0, 1, 0, false, false⟩] ((d.set 0x2490_01 100000).set 0x2400_00 1)), .host, lpE, 0, (1),
     (⟨0, 1, 0, false, false⟩), accepts_of (by decide +kernel), by decide +kernel⟩⟩

theorem witness_ShedRequestsFollowTheirCommands :
    (∃ (s : State) (l : LeafId) (e : Env) (c : Nat), ((s.unit (.leaf l)).accepts e 0x2409 0 (128 + c)) ∧
      (s.runs (.leaf l)) ∧ (c < 16)) ∧
    (∃ (s : State) (l : LeafId) (e : Env) (c : Nat), ((s.unit (.leaf l)).accepts e 0x2409 0 c) ∧ (s.runs (.leaf l)) ∧
      (c < 16)) :=
  ⟨⟨State.reset, .host, lpE, 0, accepts_of (by decide +kernel), by decide +kernel⟩,
   ⟨State.reset, .host, lpE, 0, accepts_of (by decide +kernel), by decide +kernel⟩⟩

theorem witness_RegulatorFaultsOpenAndCloseEpisodes :
    (∃ (s : State) (l : LeafId) (r : Nat), (s.runs (.leaf l)) ∧ ((s.dev (.leaf l)).boot.first = false) ∧
      (r < (s.dev (.leaf l)).cfg.powerRegions) ∧ (r < 64) ∧ ((s.dev (.leaf l)).faulted r = false) ∧
      ((s.dev (.leaf l)).clusterOf r < 16)) ∧
    (∃ (s : State) (l : LeafId) (r : Nat), ((s.dev (.leaf l)).boot.held = true ∨ (s.dev (.leaf l)).boot.first = true) ∧
      (r < (s.dev (.leaf l)).cfg.powerRegions)) ∧
    (∃ (s : State) (l : LeafId) (c : Nat) (x : Episode), (s.runs (.leaf l)) ∧
      ((s.dev (.leaf l)).pow.episodes.find? (·.unit = c) = some x) ∧ ((s.dev (.leaf l)).cfg.inrushGate = true) ∧
      (x.carried = false) ∧ (x.first + (s.dev (.leaf l)).get 0x2405_02 ≤ (s.dev (.leaf l)).stamp) ∧
      ((s.dev (.leaf l)).cfg.powerRegions ≤ 64)) ∧
    (∃ (s : State) (l : LeafId) (c : Nat) (t : Nat) (x : Episode), (s.runs (.leaf l)) ∧
      ((s.dev (.leaf l)).pow.episodes.find? (·.unit = c) = some x) ∧ (x.clearAt = some t) ∧ (c < 16) ∧
      ((if (s.dev (.leaf l)).cfg.inrushGate = true then t + (s.dev (.leaf l)).get 0x2405_04 ≤ (s.dev (.leaf l)).stamp ∧ (s.dev (.leaf l)).pow.curTick = some (s.dev (.leaf l)).time.tick ∧ (s.dev (.leaf l)).cfg.powerRegions ≤ 64 else t + 1000000 ≤ (s.dev (.leaf l)).stamp))) :=
  ⟨⟨(lf fun d => { d with boot := { d.boot with first := false } }), .host, 0, by decide +kernel⟩,
   ⟨State.reset, .host, 0, by decide +kernel⟩,
   ⟨(lf fun d => atNs { d with pow := { d.pow with episodes := [⟨0, 0, none, 0, 0, 0, false⟩] } } 1000000000000), .host, 0,
     (⟨0, 0, none, 0, 0, 0, false⟩), by decide +kernel⟩,
   ⟨(lf fun d => atNs { d with pow := { d.pow with episodes := [⟨0, 0, some 0, 0, 0, 0, false⟩], curTick := some 125000000000 } } 1000000000000),
     .host, 0, 0, (⟨0, 0, some 0, 0, 0, 0, false⟩), by decide +kernel⟩⟩

theorem witness_PowerFailWarningsBeginAndEnd :
    (∃ (s : State) (l : LeafId), s.built ∧ (s.runs (.leaf l)) ∧ ((s.dev (.leaf l)).pfActive = false) ∧
      (8 * (s.dev (.leaf l)).time.tick < 2 ^ 64)) ∧
    (∃ (s : State), s.runs .trunk ∧ (s.trunk.pfActive = false)) ∧
    (∃ (s : State) (u : UnitId), s.runs u ∧ ((s.dev u).pfActive = true)) ∧
    (∃ (s : State) (u : UnitId), s.runs u ∧ ((s.dev u).pfActive = true)) :=
  ⟨⟨State.reset, .host, by decide +kernel⟩,
   ⟨State.reset, by decide +kernel⟩,
   ⟨(lf fun d => d.set 0x2407_01 1), (.leaf .host), by decide +kernel⟩,
   ⟨(lf fun d => d.set 0x2407_01 1), (.leaf .host), by decide +kernel⟩⟩

theorem witness_AccessesBecomeTracePackets :
    (∃ (s : State) (l : LeafId) (n : Nat) (f : Nat) (fs : List Nat) (a : PortAccess), (s.runs (.leaf l)) ∧
      (n < (s.dev (.leaf l)).cfg.traceSources) ∧ (n < (s.dev (.leaf l)).trc.srcs.length) ∧ (0 < a.size) ∧ (a.size ≤ 64) ∧
      (a.value.length = a.size) ∧ (a.addr < 2 ^ 64) ∧ ((s.dev (.leaf l)).tracing n = true) ∧
      ((s.dev (.leaf l)).matching n 0 a = f :: fs) ∧ (((s.dev (.leaf l)).srcAt n).capture = none) ∧
      ((s.dev (.leaf l)).get (key (0x2510 + n) 6) = 0) ∧ (n < 16) ∧
      ((dataPacket n (s.dev (.leaf l)).stamp f ((s.dev (.leaf l)).heldTag n) a (if a.size ≤ field ((s.dev (.leaf l)).get (key (0x2520 + 8 * n + f) 3)) 15 8 then a.value else if ((s.dev (.leaf l)).get (key (0x2520 + 8 * n + f) 3)).testBit 3 = true then a.value.take (field ((s.dev (.leaf l)).get (key (0x2520 + 8 * n + f) 3)) 15 8) else []) false (field ((s.dev (.leaf l)).get (key (0x2520 + 8 * n + f) 3)) 15 8 < a.size)).length ≤ ((s.dev (.leaf l)).srcAt n).room)) ∧
    (∃ (s : State) (l : LeafId) (n : Nat) (a : PortAccess) (c : Capture), (s.runs (.leaf l)) ∧
      (n < (s.dev (.leaf l)).cfg.traceSources) ∧ (n < (s.dev (.leaf l)).trc.srcs.length) ∧ (0 < a.size) ∧ (a.size ≤ 64) ∧
      (a.value.length = a.size) ∧ (a.addr < 2 ^ 64) ∧ (((s.dev (.leaf l)).srcAt n).asleep = none) ∧
      (((s.dev (.leaf l)).srcAt n).capture = some c) ∧ ((s.dev (.leaf l)).hasFilter n 1 = false) ∧
      ((s.dev (.leaf l)).matching n 0 a = []) ∧ ((s.dev (.leaf l)).get (key (0x2510 + n) 6) = 0) ∧ (n < 16) ∧
      (80 ≤ ((s.dev (.leaf l)).srcAt n).room)) ∧
    (∃ (s : State) (l : LeafId) (n : Nat) (a : PortAccess), (s.runs (.leaf l)) ∧ (n < (s.dev (.leaf l)).cfg.traceSources) ∧
      (n < (s.dev (.leaf l)).trc.srcs.length) ∧ (0 < a.size) ∧ (a.size ≤ 64) ∧ (a.value.length = a.size) ∧ (a.addr < 2 ^ 64) ∧
      (((s.dev (.leaf l)).srcAt n).asleep = none) ∧ (((s.dev (.leaf l)).srcAt n).capture = none) ∧
      ((s.dev (.leaf l)).matching n 0 a = []) ∧ ((s.dev (.leaf l)).matching n 2 a ≠ []) ∧
      ((s.dev (.leaf l)).get (key (0x2510 + n) 6) = 1)) ∧
    (∃ (s : State) (l : LeafId) (n : Nat), (s.runs (.leaf l)) ∧ (n < (s.dev (.leaf l)).cfg.traceSources) ∧
      (n < (s.dev (.leaf l)).trc.srcs.length) ∧ ((s.dev (.leaf l)).tracing n = true) ∧
      (((s.dev (.leaf l)).srcAt n).lastSync + (s.dev (.leaf l)).get 0x2500_04 ≤ (s.dev (.leaf l)).time.tick) ∧
      (16 ≤ ((s.dev (.leaf l)).srcAt n).room)) ∧
    (∃ (s : State) (l : LeafId) (n : Nat), (s.runs (.leaf l)) ∧ (n < (s.dev (.leaf l)).cfg.traceSources) ∧
      (n < (s.dev (.leaf l)).trc.srcs.length) ∧ (((s.dev (.leaf l)).srcAt n).asleep = none) ∧
      (32 ≤ ((s.dev (.leaf l)).srcAt n).room) ∧ (((s.dev (.leaf l)).srcAt n).capLost = []) ∧
      (((s.dev (.leaf l)).srcAt n).digLost = 0) ∧ (((s.dev (.leaf l)).srcAt n).lost ≠ 0) ∧
      ((s.dev (.leaf l)).recording = true)) :=
  ⟨⟨(lf fun d => tracing0 d), .host, 0, (0), ([]), (acc0), by decide +kernel⟩,
   ⟨(lf fun d => srcs (fun x => { x with capture := some { tag := 1, begin := 0 } }) d), .host, 0, (acc0),
     ({ tag := 1, begin := 0 }), by decide +kernel⟩,
   ⟨(lf fun d => ((d.set 0x2520_03 0x23).set 0x2520_02 1000).set 0x2510_06 1), .host, 0, (acc0), by decide +kernel⟩,
   ⟨(lf fun d => atNs (tracing0 d) 1000000000000), .host, 0, by decide +kernel⟩,
   ⟨(lf fun d => srcs (fun x => { x with lost := 1 }) (tracing0 d)), .host, 0, by decide +kernel⟩⟩

theorem witness_TriggersFreezeTheTrace :
    (∃ (s : State) (l : LeafId) (e : Env), ((s.unit (.leaf l)).accepts e 0x2500 7 1) ∧ s.built ∧ (s.runs (.leaf l)) ∧
      (8 * (s.dev (.leaf l)).time.tick + 2 ^ 33 < 2 ^ 64) ∧ ((s.dev (.leaf l)).get 0x2500_03 < 2 ^ 32)) ∧
    (∃ (s : State) (l : LeafId), (s.runs (.leaf l)) ∧ ((s.dev (.leaf l)).traceState = 2) ∧
      ((s.dev (.leaf l)).get 0x2501_03 ≤ (s.dev (.leaf l)).stamp) ∧
      (((∀ p ∈ (s.dev (.leaf l)).trc.hubq ++ (s.dev (.leaf l)).trc.srcs.flatMap (·.fifo), p.toCap = true ∨ (s.dev (.leaf l)).get 0x2501_03 ≤ p.stamp) ∨ (s.dev (.leaf l)).get 0x2501_03 + 512 ≤ (s.dev (.leaf l)).stamp))) ∧
    (∃ (s : State) (l : LeafId) (n : Nat) (p : TPkt), (s.runs (.leaf l)) ∧
      ((s.dev (.leaf l)).funnelNext = some (some n, p)) ∧ (p.toCap = false) ∧
      ((s.dev (.leaf l)).ringFill + p.bytes.length ≤ 2097152) ∧ ((s.dev (.leaf l)).get 0x2501_08 + 1 < 2 ^ 32)) ∧
    (∃ (s : State) (u : UnitId), s.built ∧ s.runs u) :=
  ⟨⟨State.reset, .host, lpE, accepts_of (by decide +kernel), by decide +kernel⟩,
   ⟨(lf fun d => d.set 0x2501_01 2), .host, by decide +kernel⟩,
   ⟨(lf fun d => atNs (srcs (fun x => { x with fifo := [pk0] }) d) 1000000000000), .host, (0), (pk0), by decide +kernel⟩,
   ⟨State.reset, (.leaf .host), by decide +kernel⟩⟩

theorem witness_TheTraceIsControlledByCommands :
    (∃ (s : State) (l : LeafId) (e : Env) (v : Nat), ((s.unit (.leaf l)).accepts e 0x2500 1 v) ∧ (s.runs (.leaf l)) ∧
      (v ≤ 1)) ∧
    (∃ (s : State) (l : LeafId) (e : Env), ((s.unit (.leaf l)).accepts e 0x2500 6 1) ∧ (s.runs (.leaf l))) ∧
    (∃ (s : State) (l : LeafId) (e : Env), ((s.unit (.leaf l)).accepts e 0x2500 8 1) ∧ (s.runs (.leaf l))) ∧
    (∃ (s : State) (l : LeafId), (s.runs (.leaf l)) ∧ ((s.dev (.leaf l)).trc.drain = some []) ∧
      ((s.dev (.leaf l)).queue 3 = []) ∧ ((s.dev (.leaf l)).arb.current ≠ 3)) ∧
    (∃ (s : State) (l : LeafId) (e : Env) (v : Word), ((s.unit (.leaf l)).accepts e 0x25A0 0 v.toNat) ∧ (s.runs (.leaf l)) ∧
      (v.toNat < 2 ^ 36)) ∧
    (∃ (s : State) (l : LeafId) (e : Env) (n : Nat) (v : Nat), ((s.unit (.leaf l)).accepts e (0x2510 + n) 6 v) ∧
      (s.runs (.leaf l)) ∧ (n < 16) ∧ (v < 256) ∧ (n < (s.dev (.leaf l)).trc.srcs.length)) ∧
    (∃ (s : State) (l : LeafId) (n : Nat), (s.runs (.leaf l)) ∧ (n < (s.dev (.leaf l)).cfg.traceSources) ∧
      (n < (s.dev (.leaf l)).trc.srcs.length) ∧ ((s.dev (.leaf l)).get (key (0x2510 + n) 6) = 1) ∧
      (((s.dev (.leaf l)).srcAt n).asleep = none)) :=
  ⟨⟨State.reset, .host, lpE, 0, accepts_of (by decide +kernel), by decide +kernel⟩,
   ⟨State.reset, .host, lpE, accepts_of (by decide +kernel), by decide +kernel⟩,
   ⟨State.reset, .host, lpE, accepts_of (by decide +kernel), by decide +kernel⟩,
   ⟨(lf fun d => { d with trc := { d.trc with drain := some [] } }), .host, by decide +kernel⟩,
   ⟨State.reset, .host, lpE, 0, accepts_of (by decide +kernel), by decide +kernel⟩,
   ⟨State.reset, .host, lpE, 0, 0, accepts_of (by decide +kernel), by decide +kernel⟩,
   ⟨(lf fun d => d.set 0x2510_06 1), .host, 0, by decide +kernel⟩⟩

theorem witness_RecordsAreWrittenAndRead :
    (∃ (s : State) (u : UnitId) (e : Env) (bs : Bytes), ((s.unit u).acceptsDomain e 0x2605 0 bs) ∧ s.runs u) ∧
    (∃ (s : State) (u : UnitId) (e : Env), ((s.unit u).accepts e 0x2601 5 1) ∧
      ((∀ t, (s.dev u).rcd.lastSnap = some t → t + (s.dev u).get 0x2601_02 ≤ (s.dev u).stamp)) ∧ s.runs u ∧ (((s.dev u).get 0x2601_01).testBit 7 = true) ∧
      ((s.dev u).rcd.snapTick ≠ some (s.dev u).time.tick)) ∧
    (∃ (s : State) (port : Nat) (r : LeafRec), s.runs .trunk ∧ (port ≤ 255) ∧ (r.payload.length % 4 = 0) ∧
      (4 ≤ r.payload.length) ∧ (r.payload.length ≤ 1024)) ∧
    (∃ (s : State) (u : UnitId) (e : Env), ((s.unit u).hears e) ∧ s.built ∧ s.runs u ∧ ((s.unit u).quickset = false) ∧
      ((if e.via = .lp then e.user = false else (s.unit u).latchOf e 0x2604 = none)) ∧ ((s.dev u).get 0x2600_01 < 2 ^ 32) ∧
      (0 < (s.dev u).get 0x2600_01)) :=
  ⟨⟨State.reset, (.leaf .host), (svE), [], acceptsDomain_of (by decide +kernel), by decide +kernel⟩,
   ⟨(lf fun d => d.set 0x2601_01 0x80), (.leaf .host), lpE, accepts_of (by decide +kernel), forall_some (by decide +kernel),
     by decide +kernel⟩,
   ⟨State.reset, 0, ({ seq := 0, kind := 0, payload := zeros 4 }), by decide +kernel⟩,
   ⟨State.reset, (.leaf .host), lpE, hears_of (by decide +kernel), by decide +kernel⟩⟩

theorem witness_FlushesSendRecordsUntilAcknowledged :
    (∃ (s : State) (l : LeafId) (e : Env), ((s.unit (.leaf l)).accepts e 0x2603 2 3) ∧ (s.runs (.leaf l))) ∧
    (∃ (s : State) (l : LeafId) (e : Env), ((s.unit (.leaf l)).accepts e 0x2603 2 4) ∧ (s.runs (.leaf l))) ∧
    (∃ (s : State) (l : LeafId), (s.runs (.leaf l))) ∧
    (∃ (s : State) (l : LeafId), (s.runs (.leaf l)) ∧ ((s.dev (.leaf l)).rcd.flush = none) ∧
      ((s.dev (.leaf l)).rcd.flushEnd.isSome = true)) ∧
    (∃ (s : State) (l : LeafId) (f : Flush), (s.runs (.leaf l)) ∧ ((s.dev (.leaf l)).rcd.flush = some f) ∧
      ((s.dev (.leaf l)).flushNext = none) ∧ ((s.dev (.leaf l)).queue 1 = []) ∧ ((s.dev (.leaf l)).arb.current ≠ 1) ∧
      ((∀ r ∈ (s.dev (.leaf l)).heldRecs, seqDiff 32 r.seq f.from_ ≤ 0)) ∧ ((s.dev (.leaf l)).boot.dying = none)) ∧
    (∃ (s : State) (t : Nat), s.runs .trunk ∧ (s.trunk.rcd.commitDue = some t) ∧
      (t + s.trunk.get 0x2610_02 ≤ s.trunk.time.ns) ∧ (s.trunk.rcd.halves.length = 2)) ∧
    (∃ (s : State) (n : Nat) (h : CommitHalf), s.runs .trunk ∧ (s.trunk.rcd.committing = some n) ∧
      (s.trunk.rcd.halves[n]? = some h)) :=
  ⟨⟨State.reset, .host, lpE, accepts_of (by decide +kernel), by decide +kernel⟩,
   ⟨State.reset, .host, lpE, accepts_of (by decide +kernel), by decide +kernel⟩,
   ⟨State.reset, .host, by decide +kernel⟩,
   ⟨(lf fun d => { d with rcd := { d.rcd with flushEnd := some 0 } }), .host, by decide +kernel⟩,
   ⟨(lf fun d => { d with rcd := { d.rcd with flush := some ⟨0, 0, 0, 0⟩ } }), .host, (⟨0, 0, 0, 0⟩), by decide +kernel⟩,
   ⟨(tr fun d => atNs { d with rcd := { d.rcd with commitDue := some 0 } } 1000000000000), (0), by decide +kernel⟩,
   ⟨(tr fun d => { d with rcd := { d.rcd with committing := some 0 } }), (0), ({}), by decide +kernel⟩⟩

theorem witness_SchedulesRunAndStop :
    (∃ (s : State) (l : LeafId) (e : Env) (sc : Nat), ((s.unit (.leaf l)).accepts e (0x2701 + sc) 1 1) ∧ s.built ∧ (s.runs (.leaf l)) ∧
      (sc < 4) ∧ ((s.dev (.leaf l)).frm.scheds.length = 4)) ∧
    (∃ (s : State) (l : LeafId) (e : Env) (sc : Nat), ((s.unit (.leaf l)).accepts e (0x2701 + sc) 1 0) ∧ s.built ∧ (s.runs (.leaf l)) ∧
      (sc < 4) ∧ ((s.dev (.leaf l)).frm.scheds.length = 4)) ∧
    (∃ (s : State) (l : LeafId) (e : Env) (t : Nat), ((s.unit (.leaf l)).accepts e 0x2708 1 t) ∧ s.built ∧ (s.runs (.leaf l))) ∧
    (∃ (s : State) (l : LeafId) (e : Env) (sc : Nat) (v : Word), ((s.unit (.leaf l)).accepts e (0x2701 + sc) 0x0D v.toNat) ∧ s.built ∧ (s.runs (.leaf l)) ∧
      (sc < 4) ∧ ((s.dev (.leaf l)).frm.scheds.length = 4)) ∧
    (∃ (s : State) (l : LeafId) (e : Env) (v : Nat), ((s.unit (.leaf l)).accepts e 0x2700 7 v) ∧ s.built ∧ (s.runs (.leaf l))) ∧
    (∃ (s : State) (l : LeafId) (e : Env) (v : Nat), ((s.unit (.leaf l)).accepts e 0x2801 3 v) ∧ s.built ∧ (s.runs (.leaf l)) ∧
      ((s.dev (.leaf l)).frm.scheds.length = 4)) :=
  ⟨⟨State.reset, .host, lpE, 0, accepts_of (by decide +kernel), by decide +kernel⟩,
   ⟨State.reset, .host, lpE, 0, accepts_of (by decide +kernel), by decide +kernel⟩,
   ⟨State.reset, .host, lpE, 0, accepts_of (by decide +kernel), by decide +kernel⟩,
   ⟨State.reset, .host, lpE, 0, 0, accepts_of (by decide +kernel), by decide +kernel⟩,
   ⟨State.reset, .host, lpE, 0, accepts_of (by decide +kernel), by decide +kernel⟩,
   ⟨State.reset, .host, lpE, 0, accepts_of (by decide +kernel), by decide +kernel⟩⟩

theorem witness_LatchesFillTheShadowBankAndBuildFrames :
    (∃ (s : State) (l : LeafId) (sc : Nat) (k : Nat) (m : Bool), s.built ∧ (s.runs (.leaf l)) ∧ (sc < 4) ∧
      ((s.dev (.leaf l)).frm.scheds.length = 4) ∧ (((s.dev (.leaf l)).sched sc).active = true) ∧
      (((s.dev (.leaf l)).sched sc).lastTick ≠ some (s.dev (.leaf l)).time.tick) ∧
      ((s.dev (.leaf l)).dueWindow sc = some (k, m)) ∧ (k < 2 ^ 32)) ∧
    (∃ (s : State) (l : LeafId) (sc : Nat) (x : FrameLatch), s.built ∧ (s.runs (.leaf l)) ∧ (sc < 4) ∧
      ((s.dev (.leaf l)).frm.scheds.length = 4) ∧ (((s.dev (.leaf l)).sched sc).latch = some x) ∧
      (x.stamp + 8 ≤ (s.dev (.leaf l)).stamp) ∧ ((s.dev (.leaf l)).pfActive = false) ∧ ((s.dev (.leaf l)).quickset = false) ∧
      (x.window % 2 = 0) ∧
      (((s.dev (.leaf l)).get (schedKey sc 6) ≠ 1 ∨ ((s.dev (.leaf l)).frm.ladder.step = 0 ∧ (s.dev (.leaf l)).get 0x2700_03 ≠ sc)))) ∧
    (∃ (s : State) (l : LeafId) (t : Nat), s.built ∧ (s.runs (.leaf l)) ∧ ((s.dev (.leaf l)).frm.oneShot = some t) ∧
      (t ≤ (s.dev (.leaf l)).stamp) ∧ ((s.dev (.leaf l)).time.dead = false) ∧ ((s.dev (.leaf l)).stamp < 2 ^ 64)) :=
  ⟨⟨(lf fun d => atNs ((d.set (schedKey 0 2) 1000).modSched 0 fun x => { x with active := true }) 8000), .host, 0, (1),
     false, by decide +kernel⟩,
   ⟨(lf fun d => atNs (d.modSched 0 fun x => { x with latch := some latch0 }) 8000), .host, 0, (latch0), by decide +kernel⟩,
   ⟨(lf fun d => { d with frm := { d.frm with oneShot := some 0 } }), .host, 0, by decide +kernel⟩⟩

theorem witness_CodedFramesDecodeToTheirOriginals :
    (∃ (c : Ctx) (orig : Bytes) (cont : Bool), (0 < orig.length) ∧ (orig.length ≤ 16777216) ∧ ((cont = true → c.phase = 1))) :=
  ⟨{}, ([1]), false, by decide +kernel⟩

theorem witness_FramesAreCodedAndTheirDecodingIsJudged :
    (∃ (s : State) (l : LeafId) (sc : Nat) (f : BuiltFrame) (rest : List BuiltFrame), s.built ∧ (s.runs (.leaf l)) ∧
      (sc < 4) ∧ ((s.dev (.leaf l)).frm.scheds.length = 4) ∧ ((s.dev (.leaf l)).arb.queues.length = 6) ∧
      ((s.dev (.leaf l)).pfActive = false) ∧ (((s.dev (.leaf l)).sched sc).waiting = f :: rest) ∧
      ((s.dev (.leaf l)).get 0x2802_03 + f.raw.length < 2 ^ 64)) ∧
    (∃ (s : State) (port : Nat) (sc : Nat), s.built ∧ s.runs .trunk ∧ (port ≤ 255) ∧ (sc < 4) ∧
      (s.trunk.noAnalysis = false) ∧ (s.trunk.get 0x2800_00 ≠ 1)) ∧
    (∃ (s : State) (n : Nat) (w : Nat), s.built ∧ s.runs .trunk ∧ ((s.unit .trunk).reference = some n) ∧
      ((s.unit .trunk).referenceWindow = some w) ∧ (0 < w) ∧ (s.trunk.tk.red.lastJudge ≠ some w) ∧
      (s.trunk.tk.red.ladders.length = 2) ∧ (s.trunk.get 0x2700_01 = 0) ∧ (0 < s.trunk.get 0x2700_04) ∧
      (0 < s.trunk.get 0x2700_05) ∧ (s.trunk.get 0x2710_01 ≤ 3) ∧ (s.trunk.get 0x2711_01 ≤ 3)) :=
  ⟨⟨(lf fun d => d.modSched 0 fun x => { x with waiting := [built0] }), .host, 0, (built0), ([]), by decide +kernel⟩,
   ⟨(tr fun d => analysis d), 0, 0, by decide +kernel⟩,
   ⟨(tr fun d => group0 d), 0, (1), by decide +kernel⟩⟩

theorem witness_CodecEnginesRunTheirDescriptors :
    (∃ (s : State) (r : Nat) (i : Nat) (x : DescSt), (Mem.wf s.mem = true) ∧ s.runs .trunk ∧ ((s.unit .trunk).mayRun r i 4 1 x) ∧
      (natAt (opBlock x) 1 1 < 16) ∧ (natAt (opBlock x) 2 2 = 0) ∧ (natAt (opBlock x) 28 4 = 0) ∧
      (natAt (opBlock x) 40 8 = 0) ∧ ((natAt (opBlock x) 4 4) + 16 ≤ natAt (opBlock x) 24 4) ∧
      ((s.unit .trunk).mayAccess x [((natAt (opBlock x) 8 8), (natAt (opBlock x) 4 4)), ((natAt (opBlock x) 16 8), natAt (opBlock x) 24 4), ((natAt (opBlock x) 32 8), 65600)])) ∧
    (∃ (s : State) (r : Nat) (i : Nat) (x : DescSt) (resume : Bool), (Mem.wf s.mem = true) ∧ s.runs .trunk ∧ ((s.unit .trunk).mayRun r i 3 2 x) ∧
      (natAt (opBlock x) 1 1 < 16) ∧ ((natAt (opBlock x) 1 1).testBit 0 = resume) ∧ (natAt (opBlock x) 2 2 = 0) ∧
      (natAt (opBlock x) 28 4 = 0) ∧ (natAt (opBlock x) 40 8 = 0) ∧ (64 ≤ (natAt (opBlock x) 24 4)) ∧
      ((natAt (opBlock x) 24 4) % 8 = 0) ∧
      ((s.unit .trunk).mayAccess x [((natAt (opBlock x) 8 8), (natAt (opBlock x) 4 4)), ((natAt (opBlock x) 16 8), (natAt (opBlock x) 24 4)), ((natAt (opBlock x) 32 8), 65600)])) ∧
    (∃ (s : State) (r : Nat) (i : Nat) (x : DescSt) (resume : Bool), (Mem.wf s.mem = true) ∧ s.runs .trunk ∧ ((s.unit .trunk).mayRun r i 3 2 x) ∧
      (natAt (opBlock x) 1 1 < 16) ∧ ((natAt (opBlock x) 1 1).testBit 0 = resume) ∧ (natAt (opBlock x) 2 2 = 0) ∧
      (natAt (opBlock x) 28 4 = 0) ∧ (natAt (opBlock x) 40 8 = 0) ∧ (64 ≤ (natAt (opBlock x) 24 4)) ∧
      ((natAt (opBlock x) 24 4) % 8 = 0) ∧
      ((s.unit .trunk).mayAccess x [((natAt (opBlock x) 8 8), (natAt (opBlock x) 4 4)), ((natAt (opBlock x) 16 8), (natAt (opBlock x) 24 4)), ((natAt (opBlock x) 32 8), 65600)])) :=
  ⟨⟨(tr fun d => onRing 4 (mkD 1 [(4, 8), (8, 8589934592), (16, 8589938688), (24, 64), (32, 8590983168)]) d), 0, 0,
     (mkD 1 [(4, 8), (8, 8589934592), (16, 8589938688), (24, 64), (32, 8590983168)]), by decide +kernel⟩,
   ⟨(tr fun d => onRing 3 (mkD 2 [(1, 0), (4, 8), (8, 8589934592), (16, 8589938688), (24, 64), (32, 8590983168)]) d), 0, 0,
     (mkD 2 [(1, 0), (4, 8), (8, 8589934592), (16, 8589938688), (24, 64), (32, 8590983168)]), (false), by decide +kernel⟩,
   ⟨(tr fun d => onRing 3 (mkD 2 [(1, 1), (4, 8), (8, 8589934592), (16, 8589938688), (24, 64), (32, 8590983168)]) d), 0, 0,
     (mkD 2 [(1, 1), (4, 8), (8, 8589934592), (16, 8589938688), (24, 64), (32, 8590983168)]), (true), by decide +kernel⟩⟩

theorem witness_RingsTakeAndCompleteDescriptors :
    (∃ (s : State) (r : Nat), s.built ∧ s.runs .trunk ∧ (r < 64) ∧ (s.trunk.get (ringKey r 1) ≠ 0) ∧
      (s.trunk.get (ringKey r 7) ≠ 2) ∧ (r < s.trunk.tk.ana.rings.length) ∧ ((s.trunk.ring r).next.getD 0 < 2 ^ 64)) ∧
    (∃ (s : State) (r : Nat) (i : Nat) (x : DescSt) (res : Bytes), (Mem.wf s.mem = true) ∧ s.built ∧ s.runs .trunk ∧ (r < 64) ∧
      ((s.trunk.ring r).taken = [x]) ∧ (x.idx = i) ∧ (x.result = some res) ∧ (x.finished = false) ∧ (res.length = 16) ∧
      ((s.unit .trunk).mayAccess x [(natAt x.bytes 8 8, 16)]) ∧ (natAt x.bytes 8 8 ≠ 0) ∧
      (s.trunk.get (ringKey r 8) + 1 < 2 ^ 32)) ∧
    (∃ (s : State) (e : Env) (r : Nat), ((s.unit .trunk).accepts e (0x4040 + r) 0xA 1) ∧ s.built ∧ s.runs .trunk ∧ (r < 64) ∧
      ((s.trunk.ring r).taken = []) ∧ ((s.trunk.ring r).next = none) ∧ (s.trunk.ringP r = s.trunk.ringD r) ∧
      ((∀ c ∈ s.trunk.tk.thk, ∀ x, c.load = some x → x.1 ≠ r))) :=
  ⟨⟨(tr fun d => d.set (ringKey 0 1) 10), 0, by decide +kernel⟩,
   ⟨(tr fun d => onRing 10 done0 d), 0, 0, (done0), (zeros 16), by decide +kernel⟩,
   ⟨State.reset, svE, 0, accepts_of (by decide +kernel), by decide +kernel⟩⟩

theorem witness_MoversMoveTheBytesTheyName :
    (∃ (s : State) (r : Nat) (i : Nat) (x : DescSt), (Mem.wf s.mem = true) ∧ s.runs .trunk ∧ ((moverOp x).bad = false) ∧
      ((s.unit .trunk).mayRun r i 10 1 x) ∧
      ((s.unit .trunk).mayAccess x [((moverOp x).src, (moverOp x).len), ((moverOp x).dst, (moverOp x).len)])) ∧
    (∃ (s : State) (r : Nat) (i : Nat) (x : DescSt), (Mem.wf s.mem = true) ∧ s.runs .trunk ∧ ((moverOp x).bad = false) ∧
      ((s.unit .trunk).mayRun r i 10 2 x) ∧ (elemOk (moverOp x).elem = true) ∧
      ((s.unit .trunk).mayAccess x [((moverOp x).index, 8 * (moverOp x).len), ((moverOp x).dst, (moverOp x).len * (moverOp x).elem)]) ∧
      ((s.unit .trunk).mayAccess x ((s.trunk.indexList s.mem (moverOp x)).map (·, (moverOp x).elem)))) ∧
    (∃ (s : State) (r : Nat) (i : Nat) (x : DescSt), (Mem.wf s.mem = true) ∧ s.runs .trunk ∧ ((moverOp x).bad = false) ∧
      ((s.unit .trunk).mayRun r i 10 3 x) ∧ (elemOk (moverOp x).elem = true) ∧
      ((s.unit .trunk).mayAccess x [((moverOp x).index, 8 * (moverOp x).len), ((moverOp x).src, (moverOp x).len * (moverOp x).elem)]) ∧
      ((s.unit .trunk).mayAccess x ((s.trunk.indexList s.mem (moverOp x)).map (·, (moverOp x).elem)))) ∧
    (∃ (s : State) (r : Nat) (i : Nat) (x : DescSt), (Mem.wf s.mem = true) ∧ s.runs .trunk ∧ ((moverOp x).bad = false) ∧
      ((s.unit .trunk).mayRun r i 10 4 x) ∧ ((s.unit .trunk).mayAccess x [((moverOp x).dst, (moverOp x).len)])) :=
  ⟨⟨(tr fun d => onRing 10 (mkD 1 [(4, 8), (8, 8589934592), (16, 8589938688)]) d), 0, 0,
     (mkD 1 [(4, 8), (8, 8589934592), (16, 8589938688)]), by decide +kernel⟩,
   ⟨({ (tr fun d => onRing 10 (mkD 2 [(4, 2), (24, 8589934592), (16, 8589938688), (32, 8)]) d) with mem := Mem.write [] 8589934592 (leBytes 8 8590983168 ++ leBytes 8 8590983176) }),
     0, 0, (mkD 2 [(4, 2), (24, 8589934592), (16, 8589938688), (32, 8)]), by decide +kernel⟩,
   ⟨({ (tr fun d => onRing 10 (mkD 3 [(4, 2), (24, 8589934592), (8, 8589938688), (32, 8)]) d) with mem := Mem.write [] 8589934592 (leBytes 8 8590983168 ++ leBytes 8 8590983176) }),
     0, 0, (mkD 3 [(4, 2), (24, 8589934592), (8, 8589938688), (32, 8)]), by decide +kernel⟩,
   ⟨(tr fun d => onRing 10 (mkD 4 [(4, 8), (16, 8589938688), (40, 7)]) d), 0, 0,
     (mkD 4 [(4, 8), (16, 8589938688), (40, 7)]), by decide +kernel⟩⟩

theorem witness_SketchEnginesComputeHistograms :
    (∃ (s : State) (r : Nat) (i : Nat) (x : DescSt), (Mem.wf s.mem = true) ∧ s.runs .trunk ∧ ((sketchOp x).bad = false) ∧
      ((s.unit .trunk).mayRun r i 5 1 x) ∧ ((sketchOp x).ty = 1 ∨ (sketchOp x).ty = 2) ∧
      ((s.unit .trunk).mayAccess x [((sketchOp x).src, 8 * (sketchOp x).count), ((sketchOp x).dst, 4 * (sketchOp x).n)])) ∧
    (∃ (s : State) (r : Nat) (i : Nat) (x : DescSt), (Mem.wf s.mem = true) ∧ s.runs .trunk ∧ ((sketchOp x).bad = false) ∧
      ((s.unit .trunk).mayRun r i 5 2 x) ∧
      ((s.unit .trunk).mayAccess x [((sketchOp x).src, 4 * (sketchOp x).n), ((sketchOp x).src2, 4 * (sketchOp x).n), ((sketchOp x).dst, 4 * (sketchOp x).n)])) ∧
    (∃ (s : State) (r : Nat) (i : Nat) (x : DescSt), (Mem.wf s.mem = true) ∧ s.runs .trunk ∧ ((sketchOp x).bad = false) ∧
      ((s.unit .trunk).mayRun r i 5 3 x) ∧ ((s.unit .trunk).mayAccess x [((sketchOp x).src, 4 * (sketchOp x).n)])) ∧
    (∃ (s : State) (r : Nat) (i : Nat) (x : DescSt), (Mem.wf s.mem = true) ∧ s.runs .trunk ∧ ((sketchOp x).bad = false) ∧
      ((s.unit .trunk).mayRun r i 5 4 x) ∧ (0 < (sketchOp x).p16 ∧ (sketchOp x).p16 ≤ 65536) ∧
      ((s.unit .trunk).mayAccess x [((sketchOp x).src, 4 * (sketchOp x).n)])) :=
  ⟨⟨(tr fun d => onRing 5 (mkD 1 [(1, 1), (2, 8), (4, 2), (8, 8589934592), (24, 8589938688)]) d), 0, 0,
     (mkD 1 [(1, 1), (2, 8), (4, 2), (8, 8589934592), (24, 8589938688)]), by decide +kernel⟩,
   ⟨(tr fun d => onRing 5 (mkD 2 [(2, 8), (8, 8589934592), (16, 8590983168), (24, 8589938688)]) d), 0, 0,
     (mkD 2 [(2, 8), (8, 8589934592), (16, 8590983168), (24, 8589938688)]), by decide +kernel⟩,
   ⟨(tr fun d => onRing 5 (mkD 3 [(1, 1), (2, 8), (8, 8589934592)]) d), 0, 0, (mkD 3 [(1, 1), (2, 8), (8, 8589934592)]),
     by decide +kernel⟩,
   ⟨(tr fun d => onRing 5 (mkD 4 [(2, 8), (8, 8589934592), (32, 1)]) d), 0, 0, (mkD 4 [(2, 8), (8, 8589934592), (32, 1)]),
     by decide +kernel⟩⟩

theorem witness_PoolDescriptorsAllocateFreeAndRetag :
    (∃ (s : State) (r : Nat) (i : Nat) (x : DescSt), s.built ∧ s.runs .trunk ∧ ((moverOp x).bad = false) ∧
      ((s.unit .trunk).mayRun r i 10 5 x)) ∧
    (∃ (s : State) (r : Nat) (i : Nat) (x : DescSt), s.built ∧ s.runs .trunk ∧ ((moverOp x).bad = false) ∧
      ((s.unit .trunk).mayRun r i 10 6 x)) ∧
    (∃ (s : State) (r : Nat) (i : Nat) (x : DescSt) (q : PoolRun), s.built ∧ s.runs .trunk ∧ ((moverOp x).bad = false) ∧
      ((s.unit .trunk).mayRun r i 10 7 x) ∧
      (s.trunk.runOf (moverOp x).handle (moverOp x).part = .ok q ∧ q.cls = (moverOp x).aux % 256 ∧ 0 < q.cls ∧ q.cls ≤ 6 ∧ q.lease = none)) ∧
    (∃ (s : State) (r : Nat) (i : Nat) (x : DescSt), s.built ∧ s.runs .trunk ∧ ((moverOp x).bad = false) ∧
      ((s.unit .trunk).mayRun r i 10 8 x)) ∧
    (∃ (s : State) (r : Nat) (i : Nat) (x : DescSt), s.built ∧ s.runs .trunk ∧ ((moverOp x).bad = false) ∧
      ((s.unit .trunk).mayRun r i 10 9 x) ∧ (x.begun = false)) :=
  ⟨⟨(tr fun d => onRing 10 (mkD 5 [(40, 65537)]) d), 0, 0, (mkD 5 [(40, 65537)]), by decide +kernel⟩,
   ⟨(tr fun d => onRing 10 (mkD 6 [(36, 9)]) d), 0, 0, (mkD 6 [(36, 9)]), by decide +kernel⟩,
   ⟨(tr fun d => (onRing 10 (mkD 7 [(36, 9), (40, 1)]) d).modAna fun a => { a with runs := [{ handle := 9, cls := 1, part := 0, base := 0x010000000000, pages := 1, age := 0 }] }),
     0, 0, (mkD 7 [(36, 9), (40, 1)]), ({ handle := 9, cls := 1, part := 0, base := 0x010000000000, pages := 1, age := 0 }),
     by decide +kernel⟩,
   ⟨(tr fun d => onRing 10 (mkD 8 [(36, 9)]) d), 0, 0, (mkD 8 [(36, 9)]), by decide +kernel⟩,
   ⟨(tr fun d => onRing 10 (mkD 9 [(36, 9)]) d), 0, 0, (mkD 9 [(36, 9)]), by decide +kernel⟩⟩

theorem witness_LeasesAreGrantedRenewedAndEnded :
    (∃ (s : State) (m : LeaseMsg), s.runs .trunk ∧ ((s.unit .trunk).repeatAnswer m = none)) ∧
    (∃ (s : State) (m : LeaseMsg), s.runs .trunk ∧ (m.leaseId / 2 ^ 20 = s.trunk.get 0x3100_01) ∧ (0 < m.units) ∧
      (m.units ≤ 64)) ∧
    (∃ (s : State), s.runs .trunk) ∧
    (∃ (s : State), s.runs .trunk) ∧
    (∃ (s : State) (m : LeaseMsg) (l : Lease), s.runs .trunk ∧ ((s.unit .trunk).repeatAnswer m = none) ∧
      (s.trunk.lease m.leaseId true = some l)) ∧
    (∃ (s : State), s.runs .trunk) ∧
    (∃ (s : State) (m : LeaseMsg), s.runs .trunk ∧ ((s.trunk.lease m.leaseId false).isSome = true)) ∧
    (∃ (s : State) (id : Nat) (l : Lease), s.runs .trunk ∧ (s.trunk.lease id false = some l) ∧ (l.sentAt = none) ∧
      (l.recallAt = 0) ∧ (l.expires ≤ s.trunk.time.ns + s.trunk.get 0x4030_05)) ∧
    (∃ (s : State) (id : Nat) (t : Nat) (l : Lease), s.runs .trunk ∧ (s.trunk.lease id false = some l) ∧
      (l.sentAt = some t) ∧ (t + 100000 ≤ s.trunk.time.ns)) ∧
    (∃ (s : State) (id : Nat) (t : Nat) (l : Lease), s.built ∧ s.runs .trunk ∧ (s.trunk.lease id false = some l) ∧
      (l.askedAt = some t) ∧ (t + 1000000 ≤ s.trunk.time.ns) ∧ (s.trunk.get 0x4030_09 + 1 < 2 ^ 32)) ∧
    (∃ (s : State) (id : Nat) (l : Lease), s.runs .trunk ∧ (s.trunk.lease id true = some l) ∧ (0 < l.recallAt) ∧
      (l.recallAt ≤ s.trunk.time.ns)) ∧
    (∃ (s : State), s.built ∧ s.runs .trunk) ∧
    (∃ (s : State) (m : LeaseData) (l : Lease), s.built ∧ s.runs .trunk ∧ (s.trunk.lease m.leaseId false = some l) ∧
      (s.trunk.get 0x4030_09 + 1 < 2 ^ 32)) ∧
    (∃ (s : State) (e : Env) (id : Nat), ((s.unit .trunk).accepts e 0x4030 0xA id) ∧ s.built ∧ s.runs .trunk) :=
  ⟨⟨State.reset, { leaseId := 0 }, by decide +kernel⟩,
   ⟨(tr fun d => d.set 0x3100_01 1), ({ leaseId := 2 ^ 20 }), by decide +kernel⟩,
   ⟨State.reset, by decide +kernel⟩,
   ⟨State.reset, by decide +kernel⟩,
   ⟨(tr fun d => leased (lease0 true) d), ({ leaseId := 0 }), (lease0 true), by decide +kernel⟩,
   ⟨State.reset, by decide +kernel⟩,
   ⟨(tr fun d => leased (lease0 false) d), ({ leaseId := 0 }), by decide +kernel⟩,
   ⟨(tr fun d => leased (lease0 false) d), 0, (lease0 false), by decide +kernel⟩,
   ⟨(tr fun d => leased ({ lease0 false with sentAt := some 0 }) d), 0, (0), ({ lease0 false with sentAt := some 0 }),
     by decide +kernel⟩,
   ⟨(tr fun d => leased ({ lease0 false with askedAt := some 0 }) d), 0, (0), ({ lease0 false with askedAt := some 0 }),
     by decide +kernel⟩,
   ⟨(tr fun d => leased ({ lease0 true with recallAt := 1 }) d), 0, ({ lease0 true with recallAt := 1 }), by decide +kernel⟩,
   ⟨State.reset, by decide +kernel⟩,
   ⟨(tr fun d => leased (lease0 false) d), { leaseId := 0 }, (lease0 false), by decide +kernel⟩,
   ⟨State.reset, svE, 0, accepts_of (by decide +kernel), by decide +kernel⟩⟩

theorem witness_LeaseDataReachesItsAddresses :
    (∃ (s : State) (m : LeaseData), (Mem.wf s.mem = true) ∧ s.runs .trunk ∧ (s.trunk.lease m.leaseId true = some (lease0 true) ∧
      (lease0 true).covers m.offset m.data.length = true)) ∧
    (∃ (s : State), s.runs .trunk) ∧
    (∃ (s : State) (m : LeaseData) (q : LeaseRead), (Mem.wf s.mem = true) ∧ s.runs .trunk ∧ (s.trunk.tk.ana.reads.find? (fun x => x.tag = m.tag && x.lease = m.leaseId) = some q) ∧
      (q.len ≤ m.data.length)) :=
  ⟨⟨(tr fun d => leased (lease0 true) d), { leaseId := 0 }, by decide +kernel⟩,
   ⟨State.reset, by decide +kernel⟩,
   ⟨(tr fun d => d.modAna fun a => { a with reads := [read0] }), ({ leaseId := 0, data := [1] }), (read0),
     by decide +kernel⟩⟩

theorem witness_SprigInstructionsActOnTheirThread :
    (∃ (s : State) (t : ThreadId) (rs1 : BitVec 5), s.runs .trunk ∧ s.trunk.mayIssue t ∧ (syncCounter ((s.trunk.thread t).xreg rs1).toNat = none)) ∧
    (∃ (s : State) (t : ThreadId) (rs1 : BitVec 5), s.runs .trunk ∧ s.trunk.mayIssue t ∧ ((syncCounter ((s.trunk.thread t).xreg rs1).toNat).isSome = true)) ∧
    (∃ (s : State) (t : ThreadId), (Mem.wf s.mem = true) ∧ s.runs .trunk ∧ s.trunk.mayIssue t) ∧
    (∃ (s : State) (t : ThreadId) (c : Nat) (since : Nat) (target : Word) (hit : Option Word), s.runs .trunk ∧ (threadOk t = true) ∧
      (s.trunk.noAnalysis = false) ∧ ((s.trunk.thread t).state = .waiting) ∧
      ((s.trunk.thread t).wait = some (c, target, since, hit))) ∧
    (∃ (s : State) (t : ThreadId), s.runs .trunk ∧ (threadOk t = true) ∧ (s.trunk.noAnalysis = false) ∧
      ((s.trunk.thread t).state ≠ .waiting) ∧ ((s.trunk.thread t).state ≠ .stalled) ∧
      (s.trunk.classHeld (s.trunk.thread t).kclass = true)) :=
  ⟨⟨(tr fun d => ready0 {} d), ⟨0, 0, 0⟩, (0), by decide +kernel⟩,
   ⟨(tr fun d => ready0 sync1 d), ⟨0, 0, 0⟩, (1), by decide +kernel⟩,
   ⟨(tr fun d => ready0 {} d), ⟨0, 0, 0⟩, by decide +kernel⟩,
   ⟨(tr fun d => ready0 wait1 d), ⟨0, 0, 0⟩, 0, 0, (1), (none), by decide +kernel⟩,
   ⟨(tr fun d => analysis d), ⟨0, 0, 0⟩, by decide +kernel⟩⟩

theorem witness_TheEnergyGovernorRunsItsWindows :
    (∃ (s : State) (x : EnergyMeas), s.built ∧ s.runs .trunk ∧ (s.trunk.time.tick % 12500 = 0) ∧
      (s.trunk.tk.ana.gov.lastWin ≠ some s.trunk.time.tick) ∧ (s.trunk.time.dead = false) ∧ (s.trunk.tk.tripped = false) ∧
      (s.trunk.get 0x4000_00 = 0) ∧ (x.measured < 2 ^ 32) ∧ ((∀ u ∈ x.used, u < 2 ^ 31))) ∧
    (∃ (s : State) (c : Nat) (n : Nat), s.built ∧ s.runs .trunk ∧ (1 ≤ c) ∧ (c ≤ 6) ∧ (0 < s.trunk.getI (govKey c 4)) ∧
      (s.trunk.getI (govKey c 4) ≤ n)) ∧
    (∃ (s : State) (rails : List (Nat × Nat)), s.runs .trunk ∧ ((rails.map (·.1)).Nodup) ∧
      (s.trunk.tk.ana.gov.lastRead + s.trunk.get 0x4010_06 ≤ s.trunk.time.ns)) ∧
    (∃ (s : State) (rails : List (Nat × BitVec 16)), s.runs .trunk ∧ ((rails.map (·.1)).Nodup)) ∧
    (∃ (s : State) (e : Env) (v : Word), ((s.unit .trunk).accepts e 0x4004 3 v.toNat) ∧ s.built ∧ s.runs .trunk) :=
  ⟨⟨State.reset, ⟨0, []⟩, by decide +kernel⟩,
   ⟨(tr fun d => d.set (govKey 1 4) 100), (1), (100), by decide +kernel⟩,
   ⟨(tr fun d => atNs d 1000000000000), ([(0, 5)]), by decide +kernel⟩,
   ⟨State.reset, [], by decide +kernel⟩,
   ⟨State.reset, svE, 0, accepts_of (by decide +kernel), by decide +kernel⟩⟩

theorem witness_ArbitersShareByCreditAndWait :
    (∃ (s : State) (l : LeafId), s.built ∧ (s.runs (.leaf l)) ∧
      ((s.dev (.leaf l)).time.tick % max 1 ((s.dev (.leaf l)).get 0x2900_01) = 0) ∧
      ((s.dev (.leaf l)).arb.lastWin ≠ some (s.dev (.leaf l)).time.tick) ∧ ((s.dev (.leaf l)).time.dead = false) ∧
      ((s.dev (.leaf l)).arb.credit.length = 6)) ∧
    (∃ (s : State) (l : LeafId) (v : Verdict) (x : Xfer) (rest : List Xfer), s.built ∧ (s.runs (.leaf l)) ∧
      ((s.dev (.leaf l)).arb.sending = none) ∧ ((s.dev (.leaf l)).pfActive = false) ∧
      ((s.dev (.leaf l)).arb.queues.length = 6) ∧ ((s.dev (.leaf l)).arb.credit.length = 6) ∧
      ((s.unit (.leaf l)).offer.winner false = some v) ∧ ((s.unit (.leaf l)).offer.queue v.src = x :: rest)) ∧
    (∃ (s : State) (l : LeafId) (src : Nat) (y : Bool), s.built ∧ (s.runs (.leaf l)) ∧
      ((s.dev (.leaf l)).stem.sending = none) ∧ ((s.dev (.leaf l)).pfActive = false) ∧
      ((s.dev (.leaf l)).arb.queues.length = 6) ∧ (src < 6) ∧ ((s.dev (.leaf l)).arb.sending = some (src, y)) ∧
      ((s.unit (.leaf l)).offer.preemptible = true)) ∧
    (∃ (s : State) (n : Nat), s.built ∧ s.runs .trunk ∧ (n < 4) ∧ (n < s.trunk.tk.fab.memArb.length) ∧
      (s.trunk.time.tick % max 1 (s.trunk.get 0x2908_01) = 0) ∧ ((s.trunk.memAt n).lastWin ≠ some s.trunk.time.tick) ∧
      (s.trunk.time.dead = false)) ∧
    (∃ (s : State) (n : Nat), ((∃ k < 8, ((s.trunk.memAt n).queues[k]?).getD [] ≠ [])) ∧ s.built ∧ s.runs .trunk ∧ (n < 4) ∧
      (n < s.trunk.tk.fab.memArb.length) ∧ ((s.trunk.memAt n).credit.length = 8)) :=
  ⟨⟨State.reset, .host, by decide +kernel⟩,
   ⟨(lf fun d => upq 2 d), .host, (⟨2, false⟩), (xfer0), ([]), by decide +kernel⟩,
   ⟨(lf fun d => (upq 0 { d with arb := { d.arb with sending := some (4, false) } }).set 0x2901_04 1), .host, (4), (false),
     by decide +kernel⟩,
   ⟨State.reset, 0, by decide +kernel⟩,
   ⟨(tr fun d => d.modMem 0 fun x => { x with queues := x.queues.set 1 [{ len := 64 }] }), 0, ⟨1, by decide +kernel⟩,
     by decide +kernel⟩⟩

theorem witness_SchedulersTagSendAndChangeModes :
    (∃ (s : State) (g : EgressId) (c : Nat) (i : Nat) (m : EMsg), s.built ∧ s.runs .trunk ∧ (EgressId.ok g = true) ∧
      (1 ≤ c) ∧ (c < 8) ∧ (s.trunk.tk.fab.egress.length = 262) ∧ ((s.trunk.egress g).state = .wfq) ∧
      (s.trunk.untagged g c = some i) ∧ (((s.trunk.egress g).queue c)[i]? = some m) ∧ (m.tag = none)) ∧
    (∃ (s : State) (n : Nat) (m : EMsg) (rest : List EMsg), s.built ∧ s.runs .trunk ∧ (n < 256) ∧
      (s.trunk.tk.fab.egress.length = 262) ∧ ((s.trunk.egress (.stem n)).line = []) ∧
      ((s.trunk.egress (.stem n)).queues[0]? = some (m :: rest)) ∧ (s.trunk.eligible (.stem n) 0 = true)) ∧
    (∃ (s : State) (n : Nat) (c : Nat) (m : EMsg) (rest : List EMsg), s.built ∧ s.runs .trunk ∧ (n < 256) ∧
      (s.trunk.tk.fab.egress.length = 262) ∧ ((s.trunk.egress (.stem n)).line = []) ∧ ((s.trunk.chooseStem n).1 = some c) ∧
      (1 ≤ c) ∧ (((s.trunk.chooseStem n).2.egress (.stem n)).queues[c]? = some (m :: rest))) ∧
    (∃ (s : State) (p : Nat), s.built ∧ s.runs .trunk ∧ (p < 6) ∧ (s.trunk.tk.fab.egress.length = 262) ∧
      ((s.trunk.egress (.pleach p)).chosen = none) ∧ ((s.trunk.pleachHead p 0).isSome = true)) ∧
    (∃ (s : State) (e : Env) (p : Nat), ((s.unit .trunk).accepts e (0x2920 + p) 1 1) ∧ s.built ∧ s.runs .trunk ∧ (p ≤ 6) ∧
      (s.trunk.tk.fab.egress.length = 262)) ∧
    (∃ (s : State) (e : Env) (p : Nat), ((s.unit .trunk).accepts e (0x2920 + p) 1 0) ∧ s.built ∧ s.runs .trunk ∧ (p ≤ 6) ∧
      (s.trunk.tk.fab.egress.length = 262)) ∧
    (∃ (s : State) (g : EgressId), s.built ∧ s.runs .trunk ∧ (EgressId.ok g = true) ∧ (s.trunk.tk.fab.egress.length = 262) ∧
      ((s.trunk.egress g).state = .drrFallback)) ∧
    (∃ (s : State) (e : Env) (k : Nat) (sub : Nat) (v : Nat), ((s.unit .trunk).accepts e (0x2940 + k) sub v) ∧ s.built ∧ s.runs .trunk ∧ (k ≤ 55) ∧
      (1 ≤ sub) ∧ (sub ≤ 3) ∧ (s.trunk.tk.fab.egress.length = 262)) ∧
    (∃ (s : State) (e : Env) (k : Nat) (sub : Nat) (v : Nat), ((s.unit .trunk).accepts e (0x2940 + k) sub v) ∧ s.built ∧ s.runs .trunk ∧ (k ≤ 55) ∧
      (1 ≤ sub) ∧ (sub ≤ 3) ∧ (s.trunk.tk.fab.egress.length = 262)) ∧
    (∃ (s : State) (e : Env) (k : Nat) (sub : Nat) (v : Nat), ((s.unit .trunk).accepts e (0x2940 + k) sub v) ∧ s.built ∧ s.runs .trunk ∧ (k ≤ 55) ∧
      (1 ≤ sub) ∧ (sub ≤ 3) ∧ (s.trunk.tk.fab.egress.length = 262)) ∧
    (∃ (s : State) (e : Env) (k : Nat) (sub : Nat) (v : Nat), ((s.unit .trunk).accepts e (0x2940 + k) sub v) ∧ s.built ∧ s.runs .trunk ∧ (k ≤ 55) ∧
      (1 ≤ sub) ∧ (sub ≤ 3) ∧ (s.trunk.tk.fab.egress.length = 262)) ∧
    (∃ (s : State) (e : Env) (i : Nat) (sub : Nat) (v : Nat), ((s.unit .trunk).accepts e i sub v) ∧ s.built ∧ s.runs .trunk ∧ ((0x2981 ≤ i ∧ i ≤ 0x2984 ∧ 1 ≤ sub ∧ sub ≤ 4) ∨ (0x6400 ≤ i ∧ i ≤ 0x64FE ∧ sub = 1))) ∧
    (∃ (s : State) (e : Env) (i : Nat) (sub : Nat) (v : Nat), ((s.unit .trunk).accepts e i sub v) ∧ s.built ∧ s.runs .trunk ∧ ((0x2981 ≤ i ∧ i ≤ 0x2984 ∧ 1 ≤ sub ∧ sub ≤ 4) ∨ (0x6400 ≤ i ∧ i ≤ 0x64FE ∧ sub = 1))) ∧
    (∃ (s : State) (e : Env) (i : Nat) (sub : Nat) (v : Nat), ((s.unit .trunk).accepts e i sub v) ∧ s.built ∧ s.runs .trunk ∧ ((0x2981 ≤ i ∧ i ≤ 0x2984 ∧ 1 ≤ sub ∧ sub ≤ 4) ∨ (0x6400 ≤ i ∧ i ≤ 0x64FE ∧ sub = 1))) ∧
    (∃ (s : State) (e : Env) (i : Nat) (sub : Nat) (v : Nat), ((s.unit .trunk).accepts e i sub v) ∧ s.built ∧ s.runs .trunk ∧ ((0x2981 ≤ i ∧ i ≤ 0x2984 ∧ 1 ≤ sub ∧ sub ≤ 4) ∨ (0x6400 ≤ i ∧ i ≤ 0x64FE ∧ sub = 1))) :=
  ⟨⟨(tr fun d => egq (.stem 0) 1 d), (.stem 0), (1), 0, (emsg0), by decide +kernel⟩,
   ⟨(tr fun d => egq (.stem 0) 0 (d.set 0x6500_02 4)), 0, (emsg0), ([]), by decide +kernel⟩,
   ⟨(tr fun d => (egq (.stem 0) 1 (d.set 0x6500_02 4)).modStem (.trunk 0) fun x => { x with limit := [some 1000, some 1000] }),
     0, (1), ({ emsg0 with tag := some 512 }), ([]), by decide +kernel⟩,
   ⟨(tr fun d => egq (.pleach 0) 0 d), 0, by decide +kernel⟩,
   ⟨State.reset, svE, 0, accepts_of (by decide +kernel), by decide +kernel⟩,
   ⟨State.reset, svE, 0, accepts_of (by decide +kernel), by decide +kernel⟩,
   ⟨(tr fun d => d.modEgress (.stem 0) fun e => { e with state := .drrFallback }), (.stem 0), by decide +kernel⟩,
   ⟨State.reset, svE, 0, (1), (100), accepts_of (by decide +kernel), by decide +kernel⟩,
   ⟨State.reset, svE, (48), (1), (7500), accepts_of (by decide +kernel), by decide +kernel⟩,
   ⟨State.reset, svE, (47), (2), (512), accepts_of (by decide +kernel), by decide +kernel⟩,
   ⟨State.reset, svE, (55), (3), (256), accepts_of (by decide +kernel), by decide +kernel⟩,
   ⟨State.reset, svE, (0x2981), (1), (7500), accepts_of (by decide +kernel), by decide +kernel⟩,
   ⟨State.reset, svE, (0x2984), (4), (1024), accepts_of (by decide +kernel), by decide +kernel⟩,
   ⟨State.reset, svE, (0x6400), (1), (3), accepts_of (by decide +kernel), by decide +kernel⟩,
   ⟨State.reset, svE, (0x64FE), (1), (3), accepts_of (by decide +kernel), by decide +kernel⟩⟩

theorem witness_StemLinksComeUpAndReset :
    (∃ (s : State) (e : StemId), s.built ∧ (s.runs (stemUnit e)) ∧ (StemId.ok e = true) ∧
      (s.trunk.tk.fab.stems.length = 256) ∧ ((s.dev (stemUnit e)).stemState e = 1)) ∧
    (∃ (s : State) (e : StemId) (a : Nat) (b : Nat), s.built ∧ (s.runs (stemUnit e)) ∧ (StemId.ok e = true) ∧
      (s.trunk.tk.fab.stems.length = 256) ∧ (selfPath e = false) ∧ (a % 65536 = b % 65536) ∧
      ((s.dev (stemUnit e)).stemState e = 2) ∧ (((s.dev (stemUnit e)).stemAt e).aligned = 3)) ∧
    (∃ (s : State) (e : StemId) (a : Nat) (b : Nat), s.built ∧ (s.runs (stemUnit e)) ∧ (StemId.ok e = true) ∧
      (s.trunk.tk.fab.stems.length = 256) ∧ (selfPath e = false) ∧ (a % 65536 ≠ b % 65536) ∧
      (2 ≤ (s.dev (stemUnit e)).stemState e) ∧ (((s.dev (stemUnit e)).stemAt e).disagree = 1)) ∧
    (∃ (s : State) (e : StemId), s.built ∧ (s.runs (stemUnit e)) ∧ (StemId.ok e = true) ∧
      (s.trunk.tk.fab.stems.length = 256) ∧ (((s.dev (stemUnit e)).stemState e = 1 ∨ (s.dev (stemUnit e)).stemState e = 2)) ∧
      (((s.dev (stemUnit e)).stemAt e).since + 2000000 ≤ (s.dev (stemUnit e)).now)) ∧
    (∃ (s : State) (e : StemId), s.built ∧ (s.runs (stemUnit e)) ∧ (StemId.ok e = true) ∧
      (s.trunk.tk.fab.stems.length = 256) ∧ (((s.dev (stemUnit e)).stemState e = 1 ∨ (s.dev (stemUnit e)).stemState e = 2)) ∧
      (((s.dev (stemUnit e)).stemAt e).since + 2000000 ≤ (s.dev (stemUnit e)).now)) ∧
    (∃ (s : State) (e : StemId), ((∀ t, ((s.dev (stemUnit e)).stemAt e).lastHello = some t → t + 1000 ≤ (s.dev (stemUnit e)).now)) ∧ s.built ∧ (s.runs (stemUnit e)) ∧
      (StemId.ok e = true) ∧ (s.trunk.tk.fab.stems.length = 256) ∧ ((s.dev (stemUnit e)).stemState e = 3)) ∧
    (∃ (s : State) (l : LeafId), s.built ∧ (s.runs (.leaf l)) ∧ ((s.dev (.leaf l)).stemState (.leaf l) = 3) ∧
      ((s.dev (.leaf l)).get 0x3001_06 + 1 < 2 ^ 32)) ∧
    (∃ (s : State) (n : Nat) (level : Nat), s.built ∧ s.runs .trunk ∧ (n < 256) ∧ (level < 256) ∧
      (s.trunk.tk.fab.stems.length = 256) ∧ (s.trunk.stemState (.trunk n) = 3)) ∧
    (∃ (s : State) (e : StemId), s.built ∧ (s.runs (stemUnit e)) ∧ (StemId.ok e = true) ∧
      (s.trunk.tk.fab.stems.length = 256)) ∧
    (∃ (s : State) (e : StemId), s.built ∧ (s.runs (stemUnit e)) ∧ (StemId.ok e = true) ∧
      (s.trunk.tk.fab.stems.length = 256)) ∧
    (∃ (s : State) (e : StemId), s.built ∧ (s.runs (stemUnit e)) ∧ (StemId.ok e = true) ∧
      (s.trunk.tk.fab.stems.length = 256) ∧ (selfPath e = false) ∧ (2 ≤ (s.dev (stemUnit e)).stemState e)) ∧
    (∃ (s : State) (e : StemId) (v : Env), ((s.unit (stemUnit e)).accepts v (stemIndex e) 4 1) ∧ s.built ∧ (s.runs (stemUnit e)) ∧
      (StemId.ok e = true) ∧ (s.trunk.tk.fab.stems.length = 256)) ∧
    (∃ (s : State) (e : StemId) (v : Env), ((s.unit (stemUnit e)).accepts v (stemIndex e) 4 2) ∧ s.built ∧ (s.runs (stemUnit e)) ∧
      (StemId.ok e = true) ∧ (s.trunk.tk.fab.stems.length = 256)) :=
  ⟨⟨(lf fun d => stem0 (fun x => x) 1 d), (.leaf .host), by decide +kernel⟩,
   ⟨(lf fun d => stem0 (fun x => { x with aligned := 3 }) 2 d), (.leaf .host), 0, 0, by decide +kernel⟩,
   ⟨(lf fun d => stem0 (fun x => { x with disagree := 1 }) 2 d), (.leaf .host), 0, (1), by decide +kernel⟩,
   ⟨(lf fun d => atNs (stem0 (fun x => x) 1 d) 1000000000000), (.leaf .host), by decide +kernel⟩,
   ⟨(lf fun d => atNs (stem0 (fun x => x) 2 d) 1000000000000), (.leaf .host), by decide +kernel⟩,
   ⟨(lf fun d => stem0 (fun x => x) 3 d), (.leaf .host), forall_some (by decide +kernel), by decide +kernel⟩,
   ⟨(lf fun d => stem0 (fun x => x) 3 d), .host, by decide +kernel⟩,
   ⟨(tr fun d => d.set 0x6500_02 3), 0, 0, by decide +kernel⟩,
   ⟨State.reset, (.leaf .host), by decide +kernel⟩,
   ⟨State.reset, (.leaf .host), by decide +kernel⟩,
   ⟨(lf fun d => stem0 (fun x => x) 2 d), (.leaf .host), by decide +kernel⟩,
   ⟨State.reset, (.leaf .host), svE, accepts_of (by decide +kernel), by decide +kernel⟩,
   ⟨State.reset, (.leaf .host), svE, accepts_of (by decide +kernel), by decide +kernel⟩⟩

theorem witness_StemLinksCarryAcknowledgedFrames :
    (∃ (s : State) (e : StemId) (f : LFrame) (rest : List LFrame), s.built ∧ (s.runs (stemUnit e)) ∧ (StemId.ok e = true) ∧
      (s.trunk.tk.fab.stems.length = 256) ∧ ((s.dev (stemUnit e)).stemState e = 4) ∧
      (((s.dev (stemUnit e)).stemAt e).sending = none) ∧ (((s.dev (stemUnit e)).stemAt e).replay = f :: rest)) ∧
    (∃ (s : State) (l : LeafId) (src : Nat) (y : Bool) (x : Xfer) (more : List Xfer), s.built ∧ (s.runs (.leaf l)) ∧
      ((s.dev (.leaf l)).stemState (.leaf l) = 4) ∧ ((s.dev (.leaf l)).stem.sending = none) ∧
      ((s.dev (.leaf l)).stem.replay = []) ∧ ((s.dev (.leaf l)).arb.sending = some (src, y)) ∧
      ((s.dev (.leaf l)).arb.line = x :: more) ∧ ((s.dev (.leaf l)).arb.off = 0) ∧ (1 ≤ x.bytes.length) ∧
      ((s.dev (.leaf l)).stem.mayStart x.cls (min 1024 (s.dev (.leaf l)).arb.rest) = true)) ∧
    (∃ (s : State) (l : LeafId) (h : LinkStart) (data : Bytes) (crc : BitVec 32) (between : List RxBlock), s.built ∧ (s.runs (.leaf l)) ∧
      ((s.dev (.leaf l)).stemState (.leaf l) = 4) ∧ (data.length = h.length) ∧ (1 ≤ h.length) ∧ (h.length ≤ 1024) ∧
      (linkCrc h data = crc.toNat) ∧ ((∀ b ∈ between, b.control = true ∧ natAt b.bytes 0 1 = 0x1E)) ∧ (h.unseq = false) ∧
      (h.seq = (s.dev (.leaf l)).stem.rxSeq) ∧ (h.first = true) ∧ ((s.dev (.leaf l)).openOf (.leaf l) h.cls = none) ∧
      (receives (.leaf l) h.cls = true) ∧ (msgLen h.cls data = .bytes data.length) ∧
      ((s.dev (.leaf l)).get 0x3001_09 + 1 < 2 ^ 64)) ∧
    (∃ (s : State) (e : StemId) (h : LinkStart) (data : Bytes) (crc : BitVec 32) (between : List RxBlock), s.built ∧ (s.runs (stemUnit e)) ∧
      (StemId.ok e = true) ∧ (s.trunk.tk.fab.stems.length = 256) ∧ ((s.dev (stemUnit e)).stemState e = 4) ∧
      (linkCrc h data ≠ crc.toNat) ∧ ((∀ b ∈ between, b.control = true ∧ natAt b.bytes 0 1 = 0x1E)) ∧
      ((s.dev (stemUnit e)).get (stemKey e 0x0A) + 1 < 2 ^ 32)) ∧
    (∃ (s : State) (e : StemId) (b : RxBlock), s.built ∧ (s.runs (stemUnit e)) ∧ (StemId.ok e = true) ∧
      (s.trunk.tk.fab.stems.length = 256) ∧ ((s.dev (stemUnit e)).stemState e = 4) ∧ (b.control = true) ∧
      (b.outside = false) ∧ (natAt b.bytes 0 1 ∉ [0x1E, 0x2D, 0x33, 0x4B, 0x55, 0x66, 0x78, 0x87, 0x99]) ∧
      ((s.dev (stemUnit e)).get (stemKey e 0x0A) + 1 < 2 ^ 32) ∧ ((s.dev (stemUnit e)).get (stemKey e 0x0D) + 1 < 2 ^ 32)) ∧
    (∃ (s : State) (e : StemId), (s.runs (stemUnit e))) ∧
    (∃ (s : State) (e : StemId) (q : Nat) (i : Nat), s.built ∧ (s.runs (stemUnit e)) ∧ (StemId.ok e = true) ∧
      (s.trunk.tk.fab.stems.length = 256) ∧ ((s.dev (stemUnit e)).stemState e = 4) ∧
      (((s.dev (stemUnit e)).stemAt e).sending = none) ∧
      (((s.dev (stemUnit e)).stemAt e).retry.findIdx? (·.head.seq = q) = some i)) ∧
    (∃ (s : State) (e : StemId) (q : Nat) (i : Nat), s.built ∧ (s.runs (stemUnit e)) ∧ (StemId.ok e = true) ∧
      (s.trunk.tk.fab.stems.length = 256) ∧ ((s.dev (stemUnit e)).stemState e = 4) ∧
      (((s.dev (stemUnit e)).stemAt e).sending = none) ∧
      (((s.dev (stemUnit e)).stemAt e).retry.findIdx? (·.head.seq = q) = some i) ∧
      (((s.dev (stemUnit e)).stemAt e).retry.drop (i + 1) ≠ []) ∧ (1 ≤ (s.dev (stemUnit e)).get 0x3000_03) ∧
      ((s.dev (stemUnit e)).get (stemKey e 0x0B) + 1 < 2 ^ 32)) ∧
    (∃ (s : State) (e : StemId), s.built ∧ (s.runs (stemUnit e)) ∧ (StemId.ok e = true) ∧
      (s.trunk.tk.fab.stems.length = 256) ∧ ((s.dev (stemUnit e)).stemState e = 4)) ∧
    (∃ (s : State) (e : StemId), s.built ∧ (s.runs (stemUnit e)) ∧ (StemId.ok e = true) ∧
      (s.trunk.tk.fab.stems.length = 256) ∧ ((s.dev (stemUnit e)).stemState e = 4) ∧
      (((s.dev (stemUnit e)).stemAt e).retry ≠ []) ∧
      (((s.dev (stemUnit e)).stemAt e).lastAdv + (s.dev (stemUnit e)).get 0x3000_02 ≤ (s.dev (stemUnit e)).now) ∧
      ((s.dev (stemUnit e)).get (stemKey e 0x0B) + 1 < 2 ^ 32)) ∧
    (∃ (s : State) (l : LeafId), s.built ∧ (s.runs (.leaf l)) ∧ ((s.dev (.leaf l)).traceState = 1) ∧
      ((s.dev (.leaf l)).time.dead = false) ∧ ((s.dev (.leaf l)).cfg.traceSources ≠ 0) ∧
      ((s.dev (.leaf l)).on 0x2500_05 = true)) ∧
    (∃ (s : State) (l : LeafId), (s.runs (.leaf l)) ∧
      ((s.dev (.leaf l)).cfg.traceSources = 0 ∨ (s.dev (.leaf l)).on 0x2500_05 = false ∨ (s.dev (.leaf l)).time.dead = true)) :=
  ⟨⟨(lf fun d => stem0 (fun x => { x with replay := [frame0] }) 4 d), (.leaf .host), (frame0), ([]), by decide +kernel⟩,
   ⟨(lf fun d => upq 2 (stem0 (fun x => { x with limit := [some 1000, some 1000] }) 4 { d with arb := { d.arb with sending := some (2, false), line := [xfer0] } })),
     .host, (2), (false), (xfer0), ([]), by decide +kernel⟩,
   ⟨(lf fun d => stem0 (fun x => x) 4 d), .host, ({ cls := 4, first := true, length := 16 }), (zeros 16),
     (BitVec.ofNat 32 (linkCrc { cls := 4, first := true, length := 16 } (zeros 16))), [], by decide +kernel⟩,
   ⟨(lf fun d => stem0 (fun x => x) 4 d), (.leaf .host), {}, ([0]), 0, [], by decide +kernel⟩,
   ⟨(lf fun d => stem0 (fun x => x) 4 d), (.leaf .host), (⟨true, [0xFF, 0, 0, 0, 0, 0, 0, 0], false⟩), by decide +kernel⟩,
   ⟨State.reset, (.leaf .host), by decide +kernel⟩,
   ⟨(lf fun d => stem0 (fun x => { x with retry := [frame0] }) 4 d), (.leaf .host), 0, 0, by decide +kernel⟩,
   ⟨(lf fun d => stem0 (fun x => { x with retry := [frame0, frame1] }) 4 d), (.leaf .host), 0, 0, by decide +kernel⟩,
   ⟨(lf fun d => stem0 (fun x => x) 4 d), (.leaf .host), by decide +kernel⟩,
   ⟨(lf fun d => atNs (stem0 (fun x => { x with retry := [frame0] }) 4 d) 1000000000000), (.leaf .host), by decide +kernel⟩,
   ⟨(lf fun d => d.set 0x2501_01 1), .host, by decide +kernel⟩,
   ⟨(lf fun d => d.set 0x2500_05 0), .host, by decide +kernel⟩⟩

theorem witness_PleachPortsComeUpAndReset :
    (∃ (s : State) (p : Nat) (lanes : BitVec 8), s.built ∧ s.runs .trunk ∧ (p < 6) ∧ (s.trunk.tk.fab.ports.length = 6) ∧
      (s.trunk.portState p = 1) ∧ ((∀ k < 8, lanes.getLsbD k = true ∧ 2 ≤ (s.trunk.port p).laneHits.getD k 0))) ∧
    (∃ (s : State) (p : Nat) (lanes : BitVec 8), s.built ∧ s.runs .trunk ∧ (p < 6) ∧ (s.trunk.tk.fab.ports.length = 6) ∧
      (s.trunk.portState p = 2) ∧ ((∀ k < 8, lanes.getLsbD k = true)) ∧ ((s.trunk.port p).locked = true) ∧
      ((s.trunk.port p).laneHits.length = 8) ∧ ((s.trunk.port p).agree = 3)) ∧
    (∃ (s : State) (p : Nat) (k : Nat) (lanes : BitVec 8), s.built ∧ s.runs .trunk ∧ (p < 6) ∧
      (s.trunk.tk.fab.ports.length = 6) ∧ (2 ≤ s.trunk.portState p) ∧ (k < 8) ∧ (lanes.getLsbD k = false) ∧
      (3 ≤ (s.trunk.port p).laneHits.getD k 0) ∧ (1 ≤ (s.trunk.port p).laneMiss.getD k 0)) ∧
    (∃ (s : State) (p : Nat) (k : Nat) (lanes : BitVec 8), s.built ∧ s.runs .trunk ∧ (p < 6) ∧
      (s.trunk.tk.fab.ports.length = 6) ∧ (2 ≤ s.trunk.portState p) ∧ (k < 8) ∧ (lanes.getLsbD k = false) ∧
      (3 ≤ (s.trunk.port p).laneHits.getD k 0) ∧ (1 ≤ (s.trunk.port p).laneMiss.getD k 0)) ∧
    (∃ (s : State) (p : Nat), s.built ∧ s.runs .trunk ∧ (p < 6) ∧ (s.trunk.tk.fab.ports.length = 6) ∧
      (s.trunk.portState p = 1)) ∧
    (∃ (s : State) (p : Nat), s.built ∧ s.runs .trunk ∧ (p < 6) ∧ (s.trunk.tk.fab.ports.length = 6) ∧
      ((s.trunk.portState p = 1 ∨ s.trunk.portState p = 2)) ∧ ((s.trunk.port p).since + 2000000 ≤ s.trunk.now)) ∧
    (∃ (s : State) (p : Nat), ((∀ t, (s.trunk.port p).lastHello = some t → t + 1000 ≤ s.trunk.now)) ∧ s.built ∧ s.runs .trunk ∧ (p < 6) ∧
      (s.trunk.tk.fab.ports.length = 6) ∧ (s.trunk.portState p = 3)) ∧
    (∃ (s : State) (p : Nat) (fec : Fec) (data : Bytes), ((readFlit data).crcOk = true) ∧ s.built ∧ s.runs .trunk ∧ (p < 6) ∧
      (s.trunk.tk.fab.ports.length = 6) ∧ (s.trunk.portState p = 3) ∧ ((readFlit data).kind = 4) ∧
      ((readFlit data).fill ≤ 624) ∧ (fec ≠ .uncorrectable) ∧
      ((readHello (readFlit data).body).level ≤ s.trunk.get 0x3100_05 + 1) ∧
      (s.trunk.get 0x3100_05 ≤ (readHello (readFlit data).body).level + 1) ∧
      ((readHello (readFlit data).body).sizeX = s.trunk.torusSize 0) ∧
      ((readHello (readFlit data).body).sizeY = s.trunk.torusSize 1) ∧
      ((readHello (readFlit data).body).sizeZ = s.trunk.torusSize 2) ∧
      ((readHello (readFlit data).body).trunkId = s.trunk.neighbour p) ∧ ((readHello (readFlit data).body).port = opposite p)) ∧
    (∃ (s : State) (p : Nat) (fec : Fec) (data : Bytes), ((readFlit data).crcOk = true) ∧ s.built ∧ s.runs .trunk ∧ (p < 6) ∧
      (s.trunk.tk.fab.ports.length = 6) ∧ (s.trunk.portState p = 3) ∧ ((readFlit data).kind = 4) ∧
      ((readFlit data).fill ≤ 624) ∧ (fec ≠ .uncorrectable) ∧
      ((s.trunk.get 0x3100_05 + 1 < (readHello (readFlit data).body).level ∨ (readHello (readFlit data).body).level + 1 < s.trunk.get 0x3100_05))) ∧
    (∃ (s : State) (p : Nat) (t : Nat), s.built ∧ s.runs .trunk ∧ (p < 6) ∧ (s.trunk.tk.fab.ports.length = 6) ∧
      (s.trunk.portState p = 3) ∧ ((s.trunk.port p).badSince = some t) ∧ (t + 2000000 ≤ s.trunk.now)) ∧
    (∃ (s : State) (p : Nat) (fec : Fec) (data : Bytes), ((readFlit data).crcOk = true) ∧ s.built ∧ s.runs .trunk ∧ (p < 6) ∧
      (s.trunk.tk.fab.ports.length = 6) ∧ ((readFlit data).kind = 5) ∧ ((readFlit data).fill ≤ 624) ∧ (fec ≠ .uncorrectable)) ∧
    (∃ (s : State) (p : Nat) (st : BitVec 32), s.built ∧ s.runs .trunk ∧ (p < 6) ∧ (s.trunk.tk.fab.ports.length = 6) ∧
      (st.toNat &&& 0xFF06 ≠ 0)) ∧
    (∃ (s : State) (p : Nat) (st : BitVec 32), s.built ∧ s.runs .trunk ∧ (p < 6) ∧ (s.trunk.tk.fab.ports.length = 6) ∧
      (st.toNat &&& 0xFF06 ≠ 0)) ∧
    (∃ (s : State) (p : Nat), s.built ∧ s.runs .trunk ∧ (p < 6) ∧ (s.trunk.tk.fab.ports.length = 6)) ∧
    (∃ (s : State) (p : Nat), s.built ∧ s.runs .trunk ∧ (p < 6) ∧ (s.trunk.tk.fab.ports.length = 6) ∧
      (s.trunk.portState p = 4) ∧ ((s.trunk.port p).replay ≠ []) ∧
      ((s.trunk.port p).lastAdv + s.trunk.get 0x3100_06 ≤ s.trunk.now) ∧ (s.trunk.get (portKey p 0x0E) + 1 < 2 ^ 32)) ∧
    (∃ (s : State) (p : Nat) (v : Env), ((s.unit .trunk).accepts v (0x3101 + p) 5 1) ∧ s.built ∧ s.runs .trunk ∧ (p < 6) ∧
      (s.trunk.tk.fab.ports.length = 6)) ∧
    (∃ (s : State) (p : Nat) (v : Env), ((s.unit .trunk).accepts v (0x3101 + p) 5 2) ∧ s.built ∧ s.runs .trunk ∧ (p < 6) ∧
      (s.trunk.tk.fab.ports.length = 6)) :=
  ⟨⟨(tr fun d => port0 (fun x => { x with laneHits := List.replicate 8 2 }) 1 d), 0, (255), by decide +kernel⟩,
   ⟨(tr fun d => port0 (fun x => { x with laneHits := List.replicate 8 3, agree := 3 }) 2 d), 0, (255), by decide +kernel⟩,
   ⟨(tr fun d => port0 (fun x => { x with laneHits := List.replicate 8 3, laneMiss := List.replicate 8 1 }) 2 d), 0, 0,
     (254), by decide +kernel⟩,
   ⟨(tr fun d => port0 (fun x => { x with laneHits := List.replicate 8 3, laneMiss := List.replicate 8 1 }) 4 d), 0, (7),
     (127), by decide +kernel⟩,
   ⟨(tr fun d => port0 (fun x => x) 1 d), 0, by decide +kernel⟩,
   ⟨(tr fun d => atNs (port0 (fun x => x) 2 d) 1000000000000), 0, by decide +kernel⟩,
   ⟨(tr fun d => port0 (fun x => x) 3 d), 0, forall_some (by decide +kernel), by decide +kernel⟩,
   ⟨(tr fun d => port0 (fun x => x) 3 d), 0, (.corrected 0), (helloFlit phello), readFlit_bytes_crcOk _, by decide +kernel⟩,
   ⟨(tr fun d => port0 (fun x => x) 3 d), 0, (.corrected 0), (helloFlit { phello with level := 3 }), readFlit_bytes_crcOk _,
     by decide +kernel⟩,
   ⟨(tr fun d => atNs (port0 (fun x => { x with badSince := some 0 }) 3 d) 1000000000000), 0, 0, by decide +kernel⟩,
   ⟨State.reset, 0, (.corrected 0), (Flit.bytes { kind := 5, fill := 2, body := [1, 1] }), readFlit_bytes_crcOk _,
     by decide +kernel⟩,
   ⟨State.reset, 0, (2), by decide +kernel⟩,
   ⟨State.reset, 0, (0x8000), by decide +kernel⟩,
   ⟨State.reset, 0, by decide +kernel⟩,
   ⟨(tr fun d => atNs (port0 (fun x => { x with replay := [{}] }) 4 d) 1000000000000), 0, by decide +kernel⟩,
   ⟨State.reset, 0, svE, accepts_of (by decide +kernel), by decide +kernel⟩,
   ⟨State.reset, 0, svE, accepts_of (by decide +kernel), by decide +kernel⟩⟩

theorem witness_PleachCarriesFlitsAndRoutesMessages :
    (∃ (s : State) (p : Nat) (n : Nat) (data : Bytes), ((readFlit data).crcOk = true) ∧ s.built ∧ s.runs .trunk ∧ (p < 6) ∧
      (s.trunk.tk.fab.ports.length = 6) ∧ (s.trunk.portState p = 4) ∧ ((readFlit data).kind = 2) ∧
      ((readFlit data).fill ≤ 624) ∧ ((readFlit data).ackValid = false) ∧ ((s.trunk.port p).chans.length = 16) ∧
      (s.trunk.get (portKey p 0x0A) + 1 < 2 ^ 64) ∧ (s.trunk.get (portKey p 0x0C) + n < 2 ^ 64)) ∧
    (∃ (s : State) (p : Nat) (data : Bytes) (r : PRx), ((readFlit data).crcOk = true) ∧ s.built ∧ s.runs .trunk ∧ (p < 6) ∧
      (s.trunk.tk.fab.ports.length = 6) ∧ (s.trunk.portState p = 4) ∧ ((readFlit data).kind = 1) ∧
      (1 ≤ (readFlit data).fill) ∧ ((readFlit data).fill ≤ 624) ∧ ((readFlit data).ackValid = false) ∧
      ((s.trunk.port p).chans.length = 16) ∧ ((readFlit data).seq = (s.trunk.port p).rxSeq) ∧
      ((s.trunk.pchan p ((readFlit data).channel % 16)).rx = some r) ∧ (r.head.length = 16) ∧
      (r.got + (readFlit data).fill < natAt r.head 12 4 + 20)) ∧
    (∃ (s : State) (p : Nat) (data : Bytes) (r : PRx), ((readFlit data).crcOk = true) ∧ s.built ∧ s.runs .trunk ∧ (p < 6) ∧
      (s.trunk.tk.fab.ports.length = 6) ∧ (s.trunk.portState p = 4) ∧ ((readFlit data).kind = 1) ∧
      (1 ≤ (readFlit data).fill) ∧ ((readFlit data).fill ≤ 624) ∧ ((readFlit data).ackValid = false) ∧
      ((s.trunk.port p).chans.length = 16) ∧ ((readFlit data).seq = (s.trunk.port p).rxSeq) ∧
      ((s.trunk.pchan p ((readFlit data).channel % 16)).rx = some r) ∧ (r.head.length = 16) ∧
      (r.got + (readFlit data).fill < natAt r.head 12 4 + 20)) ∧
    (∃ (s : State) (p : Nat), s.built ∧ s.runs .trunk ∧ (p < 6) ∧ (s.trunk.tk.fab.ports.length = 6) ∧
      (s.trunk.portState p = 4) ∧ (s.trunk.get (portKey p 0x0D) + 1 < 2 ^ 32)) ∧
    (∃ (s : State) (p : Nat) (data : Bytes), ((readFlit data).crcOk = false) ∧ s.built ∧ s.runs .trunk ∧ (p < 6) ∧
      (s.trunk.tk.fab.ports.length = 6) ∧ (s.trunk.portState p = 4) ∧ (s.trunk.get (portKey p 0x0B) + 1 < 2 ^ 32)) ∧
    (∃ (s : State) (p : Nat) (data : Bytes) (r : PRx), ((readFlit data).crcOk = true) ∧ s.built ∧ s.runs .trunk ∧ (p < 6) ∧
      (s.trunk.tk.fab.ports.length = 6) ∧ (s.trunk.portState p = 4) ∧ ((readFlit data).kind = 6) ∧
      ((readFlit data).fill ≤ 624) ∧ ((readFlit data).ackValid = false) ∧ ((s.trunk.port p).chans.length = 16) ∧
      ((readFlit data).seq = (s.trunk.port p).rxSeq) ∧ ((s.trunk.pchan p ((readFlit data).channel % 16)).rx = some r) ∧
      (s.trunk.get 0x310A_07 + 1 < 2 ^ 32)) ∧
    (∃ (s : State) (p : Nat), s.built ∧ s.runs .trunk ∧ (p < 6) ∧ (s.trunk.tk.fab.ports.length = 6) ∧
      (s.trunk.portState p = 4) ∧ (((s.trunk.port p).words + 1) % 4096 ≠ 0) ∧ (s.trunk.timeWaits (.pleach p) = true)) ∧
    (∃ (s : State) (p : Nat) (f : Flit) (rest : List Flit), s.built ∧ s.runs .trunk ∧ (p < 6) ∧
      (s.trunk.tk.fab.ports.length = 6) ∧ (s.trunk.portState p = 4) ∧ (((s.trunk.port p).words + 1) % 4096 ≠ 0) ∧
      (s.trunk.timeWaits (.pleach p) = false) ∧ ((s.trunk.port p).resend = f :: rest)) ∧
    (∃ (s : State) (p : Nat) (c : Nat) (ch : Nat), s.built ∧ s.runs .trunk ∧ (p < 6) ∧ (s.trunk.tk.fab.ports.length = 6) ∧
      (s.trunk.portState p = 4) ∧ (((s.trunk.port p).words + 1) % 4096 ≠ 0) ∧ (s.trunk.timeWaits (.pleach p) = false) ∧
      ((s.trunk.port p).resend = []) ∧ ((s.trunk.port p).replay.length < 1024) ∧ ((s.trunk.port p).aborts = []) ∧
      ((s.trunk.port p).intro = 0) ∧ (s.trunk.tk.fab.egress.length = 262) ∧ ((s.trunk.egress (.pleach p)).chosen = some c) ∧
      (s.trunk.chanOf p c = some ch)) ∧
    (∃ (s : State) (p : Nat), s.built ∧ s.runs .trunk ∧ (p < 6) ∧ (s.trunk.tk.fab.ports.length = 6) ∧
      (((s.trunk.port p).words + 1) % 4096 = 0)) ∧
    (∃ (s : State) (m : PMsg), s.built ∧ s.runs .trunk ∧ (m.payload ≠ []) ∧ (m.payload.length ≤ 16777216) ∧
      (m.partition = 0) ∧ (s.trunk.tk.fab.egress.length = 262) ∧ (s.trunk.get 0x310A_03 + 1 < 2 ^ 64) ∧
      (s.trunk.get 0x310A_04 + 1 < 2 ^ 32)) ∧
    (∃ (s : State) (p : Nat) (m : PMsg), s.built ∧ s.runs .trunk ∧ (p < 6) ∧ (s.trunk.tk.fab.ports.length = 6) ∧
      (m.payload ≠ []) ∧ (m.payload.length ≤ 16777216) ∧ (s.trunk.admits (0x3120 + p) m.partition = false) ∧
      (s.trunk.get 0x3128_01 + 1 < 2 ^ 32)) ∧
    (∃ (s : State), s.built ∧ s.runs .trunk ∧ (s.trunk.get 0x310A_01 + 1 < 2 ^ 64) ∧ (s.trunk.get 0x310A_05 + 1 < 2 ^ 32) ∧
      (s.trunk.get 0x310A_06 + 1 < 2 ^ 32)) ∧
    (∃ (s : State), s.runs .trunk) ∧
    (∃ (s : State), s.runs .trunk ∧ (s.trunk.trunkBoundary = true)) :=
  ⟨⟨(tr fun d => port0 (fun x => x) 4 d), 0, 0, (Flit.bytes { kind := 2 }), readFlit_bytes_crcOk _, by decide +kernel⟩,
   ⟨(tr fun d => port0 (fun x => { x with chans := x.chans.modify 0 fun c => { c with rx := some rx0 } }) 4 d), 0,
     (Flit.bytes { kind := 1, fill := 1 }), (rx0), readFlit_bytes_crcOk _, by decide +kernel⟩,
   ⟨(tr fun d => port0 (fun x => { x with chans := x.chans.modify 0 fun c => { c with rx := some rx0 } }) 4 d), 0,
     (Flit.bytes { kind := 1, fill := 79 }), (rx0), readFlit_bytes_crcOk _, by decide +kernel⟩,
   ⟨(tr fun d => port0 (fun x => x) 4 d), 0, by decide +kernel⟩,
   ⟨(tr fun d => port0 (fun x => x) 4 d), 0, (Flit.front {} ++ leBytes 4 (crc32c (Flit.front {}) ^^^ 1)),
     readFlit_crcOk_flipped _, by decide +kernel⟩,
   ⟨(tr fun d => port0 (fun x => { x with chans := x.chans.modify 0 fun c => { c with rx := some rx0 } }) 4 d), 0,
     (Flit.bytes { kind := 6 }), (rx0), readFlit_bytes_crcOk _, by decide +kernel⟩,
   ⟨(tr fun d => egq (.pleach 0) 0 (d.set 0x3101_02 4)), 0, by decide +kernel⟩,
   ⟨(tr fun d => port0 (fun x => { x with resend := [{}] }) 4 d), 0, ({}), ([]), by decide +kernel⟩,
   ⟨(tr fun d => (((egq (.pleach 0) 1 (d.set 0x3101_02 4)).modChan 0 1 fun c => { c with limit := some 1000 }).modEgress (.pleach 0) fun e => { e with chosen := some 1 })),
     0, (1), (1), by decide +kernel⟩,
   ⟨(tr fun d => port0 (fun x => { x with words := 4095 }) 4 d), 0, by decide +kernel⟩,
   ⟨State.reset, ({ kind := 1, cls := 2, payload := [0] }), by decide +kernel⟩,
   ⟨(tr fun d => d.set 0x3120_01 1), 0, ({ kind := 1, cls := 2, payload := [0], partition := 1 }), by decide +kernel⟩,
   ⟨State.reset, by decide +kernel⟩,
   ⟨State.reset, by decide +kernel⟩,
   ⟨State.reset, by decide +kernel⟩⟩

theorem witness_GroupsAreSetUpCommittedAndTornDown :
    (∃ (s : State) (e : Env) (bs : Bytes), ((s.unit .trunk).acceptsDomain e 0x3202 0 bs) ∧ s.built ∧ s.runs .trunk ∧ (s.trunk.tk.red.slots.length = 64)) ∧
    (∃ (s : State) (m : GroupCtl), s.built ∧ s.runs .trunk ∧ (s.trunk.tk.red.slots.length = 64) ∧ (m.generation < 256)) ∧
    (∃ (s : State) (m : GroupCtl) (x : HomeSetup), s.built ∧ s.runs .trunk ∧ (s.trunk.tk.red.slots.length = 64) ∧
      (s.trunk.tk.red.setup = some x) ∧ (s.trunk.answersSetup m = true) ∧ (x.naks = [])) ∧
    (∃ (s : State) (m : GroupCtl) (x : HomeSetup), s.built ∧ s.runs .trunk ∧ (s.trunk.tk.red.slots.length = 64) ∧
      (s.trunk.tk.red.setup = some x) ∧ (s.trunk.answersSetup m = true) ∧ (x.naks = []) ∧ (x.second = true ∨ m.reason ≠ 5) ∧
      (m.reason < 256)) ∧
    (∃ (s : State) (x : HomeSetup), s.built ∧ s.runs .trunk ∧ (s.trunk.tk.red.slots.length = 64) ∧
      (s.trunk.tk.red.setup = some x) ∧ (x.began + s.trunk.get 0x3201_03 ≤ s.trunk.now)) ∧
    (∃ (s : State) (m : GroupCtl) (n : Nat), s.built ∧ s.runs .trunk ∧ (s.trunk.tk.red.slots.length = 64) ∧
      (s.trunk.slotOf m.group [1] = some n) ∧ (s.trunk.get (slotKey n 3) = m.generation)) ∧
    (∃ (s : State) (m : GroupCtl) (n : Nat), s.built ∧ s.runs .trunk ∧ (s.trunk.tk.red.slots.length = 64) ∧
      (s.trunk.slotOf m.group [1] = some n) ∧ (s.trunk.get (slotKey n 3) = m.generation) ∧ (m.atWindow < 2 ^ 32)) ∧
    (∃ (s : State) (e : Env) (v : Nat), ((s.unit .trunk).accepts e 0x3203 0 v) ∧ s.built ∧ s.runs .trunk ∧ (s.trunk.tk.red.slots.length = 64)) ∧
    (∃ (s : State) (m : GroupCtl) (n : Nat), s.built ∧ s.runs .trunk ∧ (s.trunk.tk.red.slots.length = 64) ∧
      (s.trunk.slotOf m.group [2] = some n) ∧ (s.trunk.get (slotKey n 3) = m.generation) ∧ (1 ≤ m.atWindow) ∧
      (m.atWindow ≤ 2 ^ 32)) ∧
    (∃ (s : State) (n : Nat), s.built ∧ s.runs .trunk ∧ (s.trunk.tk.red.slots.length = 64) ∧ (n < 64) ∧
      (s.trunk.slotState n = 3) ∧ (s.trunk.lastDone n = true)) ∧
    (∃ (s : State) (n : Nat), s.built ∧ s.runs .trunk ∧ (s.trunk.tk.red.slots.length = 64) ∧ (n < 64) ∧
      (s.trunk.slotState n = 4) ∧ (s.trunk.get (slotKey n 0xC) ≤ s.trunk.now)) ∧
    (∃ (s : State) (e : Env) (g : Nat) (id : Nat), ((s.unit .trunk).accepts e 0x3204 0 (2 ^ 36 + g * 2 ^ 24 + id)) ∧ s.built ∧ s.runs .trunk ∧ (s.trunk.tk.red.slots.length = 64) ∧
      (g < 4096) ∧ (id < 2 ^ 20)) ∧
    (∃ (s : State) (e : Env) (g : Nat) (id : Nat), ((s.unit .trunk).accepts e 0x3204 0 (2 ^ 37 + g * 2 ^ 24 + id)) ∧ s.built ∧ s.runs .trunk ∧ (s.trunk.tk.red.slots.length = 64) ∧
      (g < 4096) ∧ (id < 2 ^ 20)) ∧
    (∃ (s : State) (c : Change), ((s.trunk.referenceWindow = none ∨ s.trunk.referenceWindow ≠ s.trunk.tk.red.lastBatch)) ∧ s.built ∧ s.runs .trunk ∧ (s.trunk.tk.red.slots.length = 64) ∧
      (s.trunk.tk.red.changes = [c]) ∧ (c.bind = false) ∧ (c.second = false) ∧ (s.trunk.get 0x3209_04 + 1 < 2 ^ 64)) ∧
    (∃ (s : State) (t : Trans), s.built ∧ s.runs .trunk ∧ (s.trunk.tk.red.slots.length = 64) ∧ (t ∈ s.trunk.tk.red.trans) ∧
      ((t.filed = true ∨ t.end_ ≤ s.trunk.now))) :=
  ⟨⟨State.reset, svE, [], acceptsDomain_of (by decide +kernel), by decide +kernel⟩,
   ⟨State.reset, { group := 5 }, by decide +kernel⟩,
   ⟨(tr fun d => d.modRed fun r => { r with setup := some setup0 }), (ctl0), (setup0), by decide +kernel⟩,
   ⟨(tr fun d => d.modRed fun r => { r with setup := some setup0 }), ({ ctl0 with reason := 1 }), (setup0),
     by decide +kernel⟩,
   ⟨(tr fun d => atNs (d.modRed fun r => { r with setup := some setup0 }) 1000000000000), (setup0), by decide +kernel⟩,
   ⟨(tr fun d => group1 1 d), { group := 5 }, (0), by decide +kernel⟩,
   ⟨(tr fun d => group1 1 d), ({ group := 5, atWindow := 2 ^ 32 - 1 }), (0), by decide +kernel⟩,
   ⟨State.reset, svE, 0, accepts_of (by decide +kernel), by decide +kernel⟩,
   ⟨(tr fun d => group1 2 d), ({ group := 5, atWindow := 2 ^ 32 }), (0), by decide +kernel⟩,
   ⟨(tr fun d => group1 3 d), 0, by decide +kernel⟩,
   ⟨(tr fun d => group1 4 d), 0, by decide +kernel⟩,
   ⟨State.reset, svE, 0, 0, accepts_of (by decide +kernel), by decide +kernel⟩,
   ⟨State.reset, svE, 0, 0, accepts_of (by decide +kernel), by decide +kernel⟩,
   ⟨(tr fun d => d.modRed fun r => { r with changes := [change0] }), (change0), Or.inl (by decide +kernel),
     by decide +kernel⟩,
   ⟨(tr fun d => d.modRed fun r => { r with trans := [trans0] }), (trans0), by decide +kernel⟩⟩

theorem witness_WindowsAreReducedAndTriggersSpread :
    (∃ (s : State) (n : Nat) (w : Nat), ((s.trunk.get 0x3200_00 = 1 ∨ s.trunk.get (slotKey n 7) = 0)) ∧ s.built ∧ s.runs .trunk ∧ (s.trunk.tk.red.slots.length = 64) ∧
      (n < 64) ∧ ((s.trunk.slotState n = 2 ∨ s.trunk.slotState n = 3)) ∧ (s.trunk.get (slotKey n 0xA) ≤ w) ∧
      (w ≤ s.trunk.get (slotKey n 0xB)) ∧ ((s.trunk.win n w).formed = false) ∧
      ((s.trunk.slot n).through.any (w ≤ ·) = false) ∧ (s.trunk.deadline n w 0 ≤ s.trunk.now) ∧ (s.trunk.tk.tripped = false) ∧
      (w < 2 ^ 32) ∧ (s.trunk.get 0x3209_08 + 1 < 2 ^ 64)) ∧
    (∃ (s : State) (m : PartialMsg) (n : Nat), s.built ∧ s.runs .trunk ∧ (s.trunk.tk.red.slots.length = 64) ∧
      (s.trunk.slotOf m.group [2, 3] = some n) ∧ (s.trunk.get (slotKey n 3) = m.generation) ∧ (s.trunk.get 0x3200_00 ≠ 1) ∧
      (1 ≤ m.stage) ∧ (m.stage ≤ 3) ∧ (s.trunk.tk.tripped = false) ∧ (s.trunk.get 0x3209_03 + 1 < 2 ^ 32)) ∧
    (∃ (s : State) (n : Nat) (w : Nat) (st : Nat) (p : Part), ((s.trunk.deadline n w st ≤ s.trunk.now ∨ ∀ o ∈ s.trunk.lineOf n st, ∃ q, (st, o, q) ∈ (s.trunk.win n w).inputs)) ∧ s.built ∧ s.runs .trunk ∧ (s.trunk.tk.red.slots.length = 64) ∧
      (n < 64) ∧ (1 ≤ st) ∧ (st ≤ 3) ∧ ((s.trunk.win n w).formed = true) ∧ ((s.trunk.win n w).closed + 1 = st) ∧
      ((st, s.trunk.get 0x3100_01, p) ∈ (s.trunk.win n w).inputs) ∧ (s.trunk.tk.tripped = false) ∧ (w < 2 ^ 32)) ∧
    (∃ (s : State) (m : PartialMsg) (n : Nat), s.built ∧ s.runs .trunk ∧ (s.trunk.tk.red.slots.length = 64) ∧
      (s.trunk.observerSlot m.group = some n) ∧ (m.stage = 3) ∧ (s.trunk.slotOf m.group [1, 2, 3] = none) ∧
      (s.trunk.tk.tripped = false) ∧ (m.group < 65536) ∧ (m.window < 2 ^ 32) ∧ (m.present < 2 ^ 32)) ∧
    (∃ (s : State) (e : Env) (v : Nat), ((s.unit .trunk).accepts e 0x3205 0 v) ∧ s.built ∧ s.runs .trunk ∧ (s.trunk.tk.red.slots.length = 64) ∧
      (s.trunk.get 0x3209_06 + 1 < 2 ^ 32)) ∧
    (∃ (s : State) (t : FleetTrig) (n : Nat), s.built ∧ s.runs .trunk ∧ (s.trunk.tk.red.slots.length = 64) ∧
      (s.trunk.slotOf t.group [2, 3] = some n) ∧ (s.trunk.get (slotKey n 3) = t.generation) ∧ (1 ≤ t.stage) ∧ (t.stage ≤ 3)) :=
  ⟨⟨(tr fun d => group1 2 d), (0), (1), Or.inr (by decide +kernel), by decide +kernel⟩,
   ⟨(tr fun d => group1 2 d), ({ group := 5, generation := 0, stage := 1, window := 1, origin := 0 }), 0, by decide +kernel⟩,
   ⟨(tr fun d => (group1 2 d).modSlot 0 fun x => { x with wins := [win0] }), (0), (1), (1), ({}),
     Or.inl (by decide +kernel), by decide +kernel⟩,
   ⟨State.reset, ({ group := 5, generation := 0, stage := 3, window := 1, origin := 0 }), 0, by decide +kernel⟩,
   ⟨State.reset, svE, 0, accepts_of (by decide +kernel), by decide +kernel⟩,
   ⟨(tr fun d => group1 2 d), ({ group := 5, triggerId := 1, originStamp := 0, stage := 1 }), 0, by decide +kernel⟩⟩

theorem witness_StragglerAndDriftEnginesFollowResults :
    (∃ (s : State) (n : Nat) (port : Nat) (x : ArrSt), s.built ∧ s.runs .trunk ∧ (n < 64) ∧
      (s.trunk.tk.red.slots.length = 64) ∧ ((s.trunk.stragMember n port).waiting = [x]) ∧
      (x.filed + s.trunk.scon n 8 ≤ s.trunk.windowsClosed n) ∧ (s.trunk.get 0x4104_02 + 1 < 2 ^ 32)) ∧
    (∃ (s : State) (n : Nat) (v : ViewSt), s.built ∧ s.runs .trunk ∧ (n < 64) ∧ (s.trunk.tk.red.slots.length = 64) ∧
      ((s.trunk.slot n).views.find? (·.steps) = some v) ∧ (s.trunk.stragHost = false) ∧ (s.trunk.classHeld 3 = false) ∧
      (s.trunk.noAnalysis = false)) ∧
    (∃ (s : State) (n : Nat) (v : ViewSt), s.built ∧ s.runs .trunk ∧ (n < 64) ∧ (s.trunk.tk.red.slots.length = 64) ∧
      ((s.trunk.slot n).views.find? (·.drift) = some v) ∧ (s.trunk.stragHost = false) ∧ (s.trunk.noAnalysis = false) ∧
      (s.trunk.classHeld 3 = false) ∧ (s.trunk.get 0x4104_08 + (s.trunk.driftWork n v).length < 2 ^ 32)) ∧
    (∃ (s : State) (e : Env) (n : Nat) (w : Nat), ((s.unit .trunk).accepts e (0x4180 + n) 0x11 w) ∧ s.built ∧ s.runs .trunk ∧ (n < 64) ∧
      (s.trunk.tk.red.slots.length = 64)) ∧
    (∃ (s : State) (n : Nat) (w : Nat), s.built ∧ s.runs .trunk ∧ (n < 64) ∧ (s.trunk.tk.red.slots.length = 64) ∧
      ((s.trunk.strag n).pending = some w) ∧ (s.trunk.groupTime n w ≤ s.trunk.now) ∧ (w < 2 ^ 32)) :=
  ⟨⟨(tr fun d => (group1 2 d).modStragMember 0 3 fun x => { x with waiting := [arr0] }), 0, (3), (arr0), by decide +kernel⟩,
   ⟨(tr fun d => ((analysis d).set (key 0x4013 4) 100).modSlot 0 fun x => { x with views := [view0] }), 0, (view0),
     by decide +kernel⟩,
   ⟨(tr fun d => ((analysis d).set (key 0x4013 4) 100).modSlot 0 fun x => { x with views := [view0] }), 0, (view0),
     by decide +kernel⟩,
   ⟨State.reset, svE, 0, 0, accepts_of (by decide +kernel), by decide +kernel⟩,
   ⟨(tr fun d => (group1 2 d).modStrag 0 fun x => { x with pending := some 1 }), 0, (1), by decide +kernel⟩⟩

theorem witness_TheThicketLoadsScoresAndUnloadsModels :
    (∃ (s : State) (r : Nat) (i : Nat) (x : DescSt), ((x.begun = true ∨ s.trunk.modelFree r x = true)) ∧ s.built ∧ s.runs .trunk ∧ ((s.unit .trunk).mayRun r i 8 1 x) ∧
      (x.begun = false) ∧ (modelByte x ≤ 7) ∧ (reservedFrom x [(2, 2), (16, 32)] = true) ∧
      ((s.unit .trunk).mayAccess x [(natAt x.bytes 24 8, natAt x.bytes 20 4)]) ∧ (s.trunk.modelState (modelByte x) = 0) ∧
      (s.trunk.model (modelByte x) = none)) ∧
    (∃ (s : State) (k : Nat) (r : Nat) (i : Nat) (c : ThModel) (x : DescSt), s.built ∧ s.runs .trunk ∧ (k < 8) ∧
      (s.trunk.model k = some c) ∧ (c.load = some (r, i)) ∧ (s.trunk.noAnalysis = false) ∧ (s.trunk.modelState k = 1) ∧
      (s.trunk.desc r i = some x) ∧ (x.begun = true) ∧ (x.result = none)) ∧
    (∃ (s : State) (r : Nat) (i : Nat) (x : DescSt), ((x.begun = true ∨ s.trunk.modelFree r x = true)) ∧ s.built ∧ s.runs .trunk ∧ ((s.unit .trunk).mayRun r i 8 2 x) ∧
      (modelByte x ≤ 7) ∧ (reservedFrom x [(2, 46)] = true)) ∧
    (∃ (s : State) (r : Nat) (i : Nat) (x : DescSt), ((x.begun = true ∨ s.trunk.modelFree r x = true)) ∧ s.built ∧ s.runs .trunk ∧ ((s.unit .trunk).mayRun r i 8 3 x) ∧
      (x.begun = false) ∧ (modelByte x ≤ 7) ∧ ((inferOp x).bad = false) ∧ (reservedFrom x [(40, 8)] = true)) ∧
    (∃ (s : State) (r : Nat) (i : Nat) (x : DescSt) (c : ThModel), (Mem.wf s.mem = true) ∧ s.built ∧ s.runs .trunk ∧ (s.trunk.desc r i = some x) ∧
      (s.trunk.get (ringKey r 1) = 8) ∧ (natAt x.bytes 16 1 = 3) ∧ (x.begun = true) ∧ (x.result = none) ∧
      (s.trunk.noAnalysis = false) ∧ (s.trunk.model (inferOp x).model = some c) ∧ (s.trunk.classHeld 4 = false)) ∧
    (∃ (s : State) (h : EccHit), s.built ∧ s.runs .trunk ∧ (h.model ≤ 7) ∧ (s.trunk.modelState h.model ≠ 0) ∧
      (h.inferring = false)) ∧
    (∃ (s : State), s.built ∧ s.runs .trunk ∧ (s.trunk.get 0x4202_05 + 1 < 2 ^ 32)) :=
  ⟨⟨(tr fun d => onRing 8 (mkD 1 [(4, 64), (8, 8589934592)]) d), 0, 0, (mkD 1 [(4, 64), (8, 8589934592)]),
     Or.inr (by decide +kernel), by decide +kernel⟩,
   ⟨(tr fun d => let d := (onRing 8 (begunD 1) d).set (modelKey 0 1) 1; { d with tk := { d.tk with thk := [model0] } }), 0,
     0, 0, (model0), (begunD 1), by decide +kernel⟩,
   ⟨(tr fun d => onRing 8 (mkD 2 []) d), 0, 0, (mkD 2 []), Or.inr (by decide +kernel), by decide +kernel⟩,
   ⟨(tr fun d => onRing 8 (mkD 3 [(4, 1), (24, 4)]) d), 0, 0, (mkD 3 [(4, 1), (24, 4)]), Or.inr (by decide +kernel),
     by decide +kernel⟩,
   ⟨(tr fun d => let d := (onRing 8 (begunD 3) d).set (key 0x4014 4) 100; { d with tk := { d.tk with thk := [model0] } }),
     0, 0, (begunD 3), (model0), by decide +kernel⟩,
   ⟨(tr fun d => d.set (modelKey 0 1) 2), { model := 0 }, by decide +kernel⟩,
   ⟨State.reset, by decide +kernel⟩⟩

theorem witness_SampledRecomputeArmsAssemblesAndCompares :
    (∃ (s : State) (e : Env) (n : Nat), ((s.unit .trunk).accepts e (0x4320 + n) 1 1) ∧ s.built ∧ s.runs .trunk ∧ (n < 16) ∧
      (s.trunk.tk.rec_.pols.length = 16)) ∧
    (∃ (s : State) (e : Env) (n : Nat), ((s.unit .trunk).accepts e (0x4320 + n) 1 0) ∧ s.built ∧ s.runs .trunk ∧ (n < 16) ∧
      (s.trunk.tk.rec_.pols.length = 16)) ∧
    (∃ (s : State) (n : Nat) (port : Nat) (slot : Nat) (i : Nat), s.built ∧ s.runs .trunk ∧ (n < 16) ∧
      (s.trunk.tk.rec_.pols.length = 16) ∧ (s.trunk.on 0x4301_01 = true) ∧ (s.trunk.on (polKey n 1) = true) ∧
      (s.trunk.slotOf (s.trunk.get (polKey n 2) % 4096) [2, 3] = some slot) ∧
      ((sortBy Nat.ble (s.trunk.membersAt slot (s.trunk.windowsClosed slot))).findIdx? (· = port) = some i) ∧
      (s.trunk.boundaryAt slot (s.trunk.armDue n port i (sortBy Nat.ble (s.trunk.membersAt slot (s.trunk.windowsClosed slot))).length) ≤ s.trunk.now) ∧
      (s.trunk.get 0x4304_01 + 1 < 2 ^ 64) ∧ (s.trunk.get 0x4304_02 + 1 < 2 ^ 32)) ∧
    (∃ (s : State) (port : Nat) (src : Nat) (done : DigestMsg), s.built ∧ s.runs .trunk ∧ ((s.trunk.tk.rec_.serves.find? fun x => x.port = port && x.src = src && done.tag &&& x.mask = x.tag) = none) ∧
      (s.trunk.get 0x4304_03 + 1 < 2 ^ 64) ∧ (s.trunk.get 0x4304_04 + 1 < 2 ^ 32)) ∧
    (∃ (s : State) (h : RecomputeHead), s.built ∧ s.runs .trunk ∧ (addrTrunk h.weightLeaf = s.trunk.get 0x3100_01) ∧
      (h.weightLeaf.testBit 20 = false) ∧ (h.source ≤ 15)) ∧
    (∃ (s : State) (h : RecomputeHead) (c : StagedSt), s.built ∧ s.runs .trunk ∧ (s.trunk.tk.rec_.caps = [c]) ∧
      (c.wait.isSome = true) ∧ (c.pol.v 0x10 = h.weightLeaf) ∧ (c.pol.v 0x11 = h.source) ∧ (c.pol.key c.tag = h.tag)) ∧
    (∃ (s : State) (id : Nat) (t : Nat) (c : StagedSt), s.built ∧ s.runs .trunk ∧ (s.trunk.capture id = some c) ∧
      (c.wait = some t) ∧ (t + s.trunk.get 0x4301_05 ≤ s.trunk.now)) ∧
    (∃ (s : State) (id : Nat) (c : StagedSt), s.built ∧ s.runs .trunk ∧ (s.trunk.capture id = some c) ∧ (c.wait = none) ∧
      (s.trunk.classHeld 5 = false) ∧ (s.trunk.noAnalysis = false) ∧ (s.trunk.get 0x4304_05 + 1 < 2 ^ 64) ∧
      (s.trunk.get 0x4304_06 + 1 < 2 ^ 64) ∧ (s.trunk.get 0x4304_07 + 1 < 2 ^ 64) ∧ (s.trunk.get 0x4304_0C + 1 < 2 ^ 64)) :=
  ⟨⟨State.reset, svE, 0, accepts_of (by decide +kernel), by decide +kernel⟩,
   ⟨State.reset, svE, 0, accepts_of (by decide +kernel), by decide +kernel⟩,
   ⟨(tr fun d => mem3 (group1 2 (((d.set 0x4301_01 1).set (polKey 0 1) 1).set (polKey 0 2) 5))), 0, (3), (0), (0),
     by decide +kernel⟩,
   ⟨State.reset, 0, 0, ⟨0, 0, 0, 0, 0⟩, by decide +kernel⟩,
   ⟨State.reset, ({ weightLeaf := 0x31003 }), by decide +kernel⟩,
   ⟨(tr fun d => caps { cap0 with wait := some 0 } d), ({ weightLeaf := 0x31003, source := 2 }),
     ({ cap0 with wait := some 0 }), by decide +kernel⟩,
   ⟨(tr fun d => caps { cap0 with wait := some 0 } d), 0, 0, ({ cap0 with wait := some 0 }), by decide +kernel⟩,
   ⟨(tr fun d => (caps cap0 d).set (key 0x4015 4) 100), 0, (cap0), by decide +kernel⟩⟩

theorem witness_WeightDigestsAreComparedAcrossDies :
    (∃ (s : State) (e : Env) (n : Nat), ((s.unit .trunk).accepts e (0x4340 + n) 1 1) ∧ s.built ∧ s.runs .trunk ∧ (n < 4)) ∧
    (∃ (s : State) (n : Nat) (slot : Nat) (l : List (Nat × Nat × List Nat)), s.built ∧ s.runs .trunk ∧ (n < 4) ∧
      (s.trunk.on (key (0x4340 + n) 1) = true) ∧
      (s.trunk.slotOf (s.trunk.get (key (0x4340 + n) 2) % 4096) [2, 3] = some slot) ∧ (l ≠ []) ∧
      ((∀ x ∈ l, ∃ m ∈ (s.trunk.slot slot).members, m.port = x.1)) ∧ (s.trunk.get (key (0x4340 + n) 4) + l.length < 2 ^ 64) ∧
      (s.trunk.get (key (0x4340 + n) 6) + 1 < 2 ^ 32)) :=
  ⟨⟨State.reset, svE, 0, accepts_of (by decide +kernel), by decide +kernel⟩,
   ⟨(tr fun d => mem3 (group1 2 (((d.set 0x4340_01 1).set 0x4340_02 5)))), 0, 0, ([(3, 0, [])]), by decide +kernel⟩⟩

theorem witness_FieldTestsStartEndAndReport :
    (∃ (s : State) (l : LeafId) (e : Env) (b : Bytes), ((s.unit (.leaf l)).acceptsDomain e 0x4402 0 b) ∧ s.built ∧ (s.runs (.leaf l))) ∧
    (∃ (s : State) (l : LeafId) (t : Nat), s.built ∧ (s.runs (.leaf l)) ∧ ((s.dev (.leaf l)).testsMay = true) ∧
      ((s.dev (.leaf l)).testHost = false) ∧ ((s.dev (.leaf l)).dueTap = some t) ∧
      ((s.dev (.leaf l)).get 0x4404_01 + 1 < 2 ^ 64)) ∧
    (∃ (s : State) (l : LeafId) (t : Nat) (i : Nat) (v : Nat) (z : Nat), s.built ∧ (s.runs (.leaf l)) ∧
      ((s.dev (.leaf l)).testsMay = true) ∧ ((s.dev (.leaf l)).testHost = true) ∧
      ((s.dev (.leaf l)).ftest.asked = some (t, i, v, z)) ∧ (t ∈ (s.dev (.leaf l)).ftest.offers)) ∧
    (∃ (s : State) (l : LeafId) (x : TestRun), s.built ∧ (s.runs (.leaf l)) ∧ ((s.dev (.leaf l)).ftest.run = some x) ∧
      (x.tap < 256) ∧ ((s.dev (.leaf l)).get 0x4404_02 + 1 < 2 ^ 64) ∧ ((s.dev (.leaf l)).get 0x4404_03 + 1 < 2 ^ 32)) ∧
    (∃ (s : State) (l : LeafId) (x : TestRun), s.built ∧ (s.runs (.leaf l)) ∧ ((s.dev (.leaf l)).ftest.run = some x) ∧
      (x.tap < 256) ∧ ((s.dev (.leaf l)).get 0x4404_05 + 1 < 2 ^ 32)) ∧
    (∃ (s : State) (l : LeafId) (x : TestRun), s.built ∧ (s.runs (.leaf l)) ∧ ((s.dev (.leaf l)).ftest.run = some x) ∧
      (x.tap < 256) ∧ ((s.dev (.leaf l)).get 0x2406_04 = 0) ∧ ((s.dev (.leaf l)).get 0x4404_06 + 1 < 2 ^ 32)) ∧
    (∃ (s : State) (l : LeafId) (x : TestRun), s.built ∧ (s.runs (.leaf l)) ∧ ((s.dev (.leaf l)).ftest.run = some x) ∧
      (x.tap < 256) ∧ ((s.dev (.leaf l)).testDeadline x ≤ (s.dev (.leaf l)).stamp) ∧
      ((s.dev (.leaf l)).get 0x4404_04 + 1 < 2 ^ 32)) ∧
    (∃ (s : State) (l : LeafId) (e : Env) (v : BitVec 32), ((s.unit (.leaf l)).accepts e 0x4401 7 v.toNat) ∧ s.built ∧ (s.runs (.leaf l))) ∧
    (∃ (s : State) (l : LeafId) (t : Nat) (i : Nat) (v : Nat) (z : Nat), s.built ∧ (s.runs (.leaf l)) ∧
      ((s.dev (.leaf l)).ftest.asked = some (t, i, v, z)) ∧ (z + (s.dev (.leaf l)).get 0x4401_08 ≤ (s.dev (.leaf l)).now) ∧
      (t < 256)) :=
  ⟨⟨State.reset, .host, (svE), [], acceptsDomain_of (by decide +kernel), by decide +kernel⟩,
   ⟨(lf fun d => testing d), .host, 0, by decide +kernel⟩,
   ⟨(lf fun d => { ((testing d).set 0x4400_00 1) with ftest := { ((testing d).set 0x4400_00 1).ftest with asked := some (0, 0, 0, 0) } }),
     .host, 0, 0, 0, 0, by decide +kernel⟩,
   ⟨(lf fun d => run1 d), .host, (run0), by decide +kernel⟩,
   ⟨(lf fun d => run1 d), .host, (run0), by decide +kernel⟩,
   ⟨(lf fun d => (run1 d).set 0x2406_04 0), .host, (run0), by decide +kernel⟩,
   ⟨(lf fun d => run1 d), .host, (run0), by decide +kernel⟩,
   ⟨State.reset, .host, lpE, 0, accepts_of (by decide +kernel), by decide +kernel⟩,
   ⟨(lf fun d => atNs ({ ((testing d).set 0x4400_00 1) with ftest := { ((testing d).set 0x4400_00 1).ftest with asked := some (0, 0, 0, 0) } }) 1000000000000),
     .host, 0, 0, 0, 0, by decide +kernel⟩⟩

theorem witness_ShadowsArePairedAndSignaturesLogged :
    (∃ (s : State) (e : Env) (n : Nat), ((s.unit .trunk).accepts e (0x4420 + n) 1 1) ∧ s.built ∧ s.runs .trunk ∧ (n < 16)) ∧
    (∃ (s : State) (n : Nat), s.built ∧ s.runs .trunk ∧ (n < 16) ∧ (s.trunk.on (pairKey n 1) = true) ∧
      (s.trunk.get (pairKey n 9) + 1 < 2 ^ 64) ∧ (s.trunk.get (pairKey n 0xA) + 1 < 2 ^ 32)) ∧
    (∃ (s : State) (n : Nat), s.built ∧ s.runs .trunk ∧ (n < 16)) ∧
    (∃ (s : State) (p : Nat), s.built ∧ s.runs .trunk ∧ (p ≤ 255) ∧ (s.trunk.get 0x4430_02 + 1 < 2 ^ 32) ∧
      (s.trunk.get 0x4430_03 + 1 < 2 ^ 32)) ∧
    (∃ (s : State) (r : Nat) (i : Nat) (x : DescSt), s.built ∧ s.runs .trunk ∧ ((s.unit .trunk).mayRun r i 9 1 x) ∧
      (reservedFrom x [(1, 3), (4, 4), (16, 32)] = true) ∧ ((s.unit .trunk).mayAccess x [(natAt x.bytes 24 8, 56)]) ∧
      (s.trunk.get 0x4430_02 + 1 < 2 ^ 32)) ∧
    (∃ (s : State) (r : Nat) (i : Nat) (x : DescSt), (Mem.wf s.mem = true) ∧ s.runs .trunk ∧ ((s.unit .trunk).mayRun r i 9 2 x) ∧
      (reservedFrom x [(1, 3), (24, 24)] = true) ∧
      ((s.unit .trunk).mayAccess x [(natAt x.bytes 24 8, 64), (natAt x.bytes 32 8, natAt x.bytes 20 4)])) ∧
    (∃ (s : State) (r : Nat) (i : Nat) (x : DescSt), (Mem.wf s.mem = true) ∧ s.runs .trunk ∧ ((s.unit .trunk).mayRun r i 9 3 x) ∧
      (reservedFrom x [(1, 3), (24, 24)] = true) ∧ (natAt x.bytes 20 4 ≤ 255) ∧
      ((s.unit .trunk).mayAccess x [(natAt x.bytes 24 8, natAt x.bytes 20 4), (natAt x.bytes 32 8, 64)])) :=
  ⟨⟨State.reset, svE, 0, accepts_of (by decide +kernel), by decide +kernel⟩,
   ⟨(tr fun d => d.set (pairKey 0 1) 1), 0, by decide +kernel⟩,
   ⟨State.reset, 0, by decide +kernel⟩,
   ⟨State.reset, 0, by decide +kernel⟩,
   ⟨(tr fun d => onRing 9 (mkD 1 [(8, 8589934592)]) d), 0, 0, (mkD 1 [(8, 8589934592)]), by decide +kernel⟩,
   ⟨(tr fun d => onRing 9 (mkD 2 [(4, 255), (8, 8589934592), (16, 8589938688)]) d), 0, 0,
     (mkD 2 [(4, 255), (8, 8589934592), (16, 8589938688)]), by decide +kernel⟩,
   ⟨(tr fun d => onRing 9 (mkD 3 [(4, 255), (8, 8589934592), (16, 8589938688)]) d), 0, 0,
     (mkD 3 [(4, 255), (8, 8589934592), (16, 8589938688)]), by decide +kernel⟩⟩

theorem witness_UnitsFetchAndStartTheirImages :
    (∃ (s : State), (Mem.wf s.mem = true) ∧ s.built ∧ s.runs .trunk ∧ (s.trunk.boot.rom = true) ∧
      (s.trunk.tk.flash.conf = [])) ∧
    (∃ (s : State) (l : LeafId), s.built ∧ (s.runs (.leaf l)) ∧ ((s.dev (.leaf l)).boot.rom = true)) ∧
    (∃ (s : State) (l : LeafId), (s.runs (.leaf l)) ∧ ((s.dev (.leaf l)).boot.rom = true)) ∧
    (∃ (s : State) (l : LeafId), s.built ∧ (s.runs (.leaf l)) ∧ ((s.dev (.leaf l)).boot.rom = true) ∧
      (10000000000 ≤ (s.dev (.leaf l)).now)) ∧
    (∃ (s : State) (u : UnitId), s.runs u ∧ ((s.dev u).running = true) ∧
      ((s.dev u).get 0x1801_04 + 10000000000 ≤ (s.dev u).now)) ∧
    (∃ (s : State) (sram : Bool), ((sram = true ∨ s.trunk.running = true)) ∧ s.built ∧ s.runs .trunk ∧ (s.trunk.boot.dying = none) ∧
      (s.trunk.get 0x1801_03 + 1 < 2 ^ 8)) ∧
    (∃ (s : State) (sram : Bool), ((sram = true ∨ s.trunk.running = true)) ∧ s.built ∧ s.runs .trunk ∧ (s.trunk.boot.dying = none) ∧
      (s.trunk.get 0x1801_03 + 1 < 2 ^ 8)) ∧
    (∃ (s : State) (l : LeafId) (sram : Bool), ((sram = true ∨ (s.dev (.leaf l)).running = true)) ∧ s.built ∧ (s.runs (.leaf l)) ∧
      ((s.dev (.leaf l)).boot.dying = none)) ∧
    (∃ (s : State) (l : LeafId) (sram : Bool), ((sram = true ∨ (s.dev (.leaf l)).running = true)) ∧ s.built ∧ (s.runs (.leaf l)) ∧
      ((s.dev (.leaf l)).boot.dying = none)) ∧
    (∃ (s : State) (l : LeafId) (t : Nat) (sram : Bool), s.built ∧ (s.runs (.leaf l)) ∧
      ((s.dev (.leaf l)).boot.dying = some (t, sram)) ∧ ((s.dev (.leaf l)).get 0x1801_03 + 1 < 2 ^ 8)) :=
  ⟨⟨State.reset, by decide +kernel⟩,
   ⟨State.reset, .host, by decide +kernel⟩,
   ⟨State.reset, .host, by decide +kernel⟩,
   ⟨(lf fun d => atNs d 10000000000), .host, by decide +kernel⟩,
   ⟨(lf fun d => atNs { d with boot := { d.boot with rom := false } } 1000000000000), (.leaf .host), by decide +kernel⟩,
   ⟨State.reset, (true), Or.inl (by decide +kernel), by decide +kernel⟩,
   ⟨(tr fun d => { d with boot := { d.boot with rom := false } }), (false), Or.inr (by decide +kernel), by decide +kernel⟩,
   ⟨State.reset, .host, (true), Or.inl (by decide +kernel), by decide +kernel⟩,
   ⟨(lf fun d => { d with boot := { d.boot with rom := false } }), .host, (false), Or.inr (by decide +kernel),
     by decide +kernel⟩,
   ⟨(lf fun d => { d with boot := { d.boot with dying := some (0, true) } }), .host, (0), (true), by decide +kernel⟩⟩

theorem witness_QuicksetDownloadsAreCheckedAndPushed :
    (∃ (s : State) (l : LeafId) (e : Env) (b : Bytes), ((s.unit (.leaf l)).acceptsDomain e 0x1830 0 b) ∧ s.built ∧ (s.runs (.leaf l))) ∧
    (∃ (s : State) (e : Env) (b : Bytes), ((s.unit .trunk).acceptsDomain e 0x1830 0 b) ∧ s.built ∧ s.runs .trunk ∧ (s.trunk.tk.flash.slots.length = 5) ∧
      (s.trunk.writing = false)) ∧
    (∃ (s : State) (g : Nat) (n : Nat), s.built ∧ s.runs .trunk ∧ (g < 16) ∧ (1 ≤ n) ∧ (n ≤ 16) ∧
      ((s.trunk.get (key (0x1110 + g) 4)).testBit n = true)) ∧
    (∃ (s : State) (g : Nat) (n : Nat), s.built ∧ s.runs .trunk ∧ (g < 16) ∧ (1 ≤ n) ∧ (n ≤ 16) ∧
      ((s.trunk.get (key (0x1110 + g) 4)).testBit n = true)) ∧
    (∃ (s : State) (e : Env) (v : Nat), ((s.unit .trunk).accepts e 0x1803 7 v) ∧ s.built ∧ s.runs .trunk) :=
  ⟨⟨(lf fun d => d.set 0x1801_01 1), .host, (svE), [], acceptsDomain_of (by decide +kernel), by decide +kernel⟩,
   ⟨(tr fun d => d.set 0x1801_01 1), ({ svE with via := .servicePort }), [], acceptsDomain_of (by decide +kernel),
     by decide +kernel⟩,
   ⟨(tr fun d => d.set 0x1110_04 0x10002), 0, (1), by decide +kernel⟩,
   ⟨(tr fun d => d.set 0x1110_04 0x10002), 0, (16), by decide +kernel⟩,
   ⟨State.reset, svE, 0, accepts_of (by decide +kernel), by decide +kernel⟩⟩

theorem witness_UpdatesProgramSlotsAndLayering :
    (∃ (s : State) (e : Env) (v : Nat), ((s.unit .trunk).accepts e 0x1802 1 v) ∧ s.built ∧ s.runs .trunk) ∧
    (∃ (s : State) (e : Env) (v : Nat), ((s.unit .trunk).accepts e 0x1802 3 v) ∧ s.built ∧ s.runs .trunk) ∧
    (∃ (s : State), s.built ∧ s.runs .trunk ∧ (s.trunk.tk.flash.slots.length = 5) ∧ (1 ≤ s.trunk.get 0x1802_01) ∧
      (s.trunk.get 0x1802_01 ≤ 5) ∧ (s.trunk.get 0x1802_06 + 65536 < 2 ^ 32)) ∧
    (∃ (s : State) (e : Env) (bs : Bytes), ((s.unit .trunk).acceptsDomain e 0x1802 4 bs) ∧ s.built ∧ s.runs .trunk ∧ (s.trunk.tk.flash.slots.length = 5) ∧
      (1 ≤ s.trunk.get 0x1802_01) ∧ (s.trunk.get 0x1802_01 ≤ 5) ∧ (s.trunk.updateHost = true) ∧ (s.trunk.get 0x1802_05 ≠ 2) ∧
      (16 ≤ bs.length) ∧ (bs.length ≤ 65544) ∧ (bs.length % 8 = 0) ∧ (natAt bs 0 4 % 65536 = 0) ∧
      (natAt bs 0 4 + (bs.length - 8) ≤ slotSize (s.trunk.get 0x1802_01)) ∧ (s.trunk.get 0x1802_06 + bs.length < 2 ^ 32)) ∧
    (∃ (s : State) (e : Env), ((s.unit .trunk).acceptsDomain e 0x1802 4 (zeros 8)) ∧ s.built ∧ s.runs .trunk) ∧
    (∃ (s : State) (e : Env), ((s.unit .trunk).accepts e 0x1803 1 1) ∧ s.built ∧ s.runs .trunk) ∧
    (∃ (s : State) (e : Env), ((s.unit .trunk).accepts e 0x1803 1 2) ∧ s.built ∧ s.runs .trunk) ∧
    (∃ (s : State) (port : Nat), s.built ∧ s.runs .trunk ∧ (port ≤ 255) ∧ (s.trunk.running = true)) ∧
    (∃ (s : State), s.built ∧ s.runs .trunk) ∧
    (∃ (s : State), s.built ∧ s.runs .trunk ∧ (s.trunk.get 0x1002_03 + 1 < 2 ^ 32)) ∧
    (∃ (s : State) (l : LeafId) (n : Nat), s.built ∧ (s.runs (.leaf l)) ∧ (n < 16) ∧
      ((s.dev (.leaf l)).get (key 0x2108 (0x31 + n)) + 1 < 2 ^ 32)) ∧
    (∃ (s : State) (l : LeafId), s.built ∧ (s.runs (.leaf l)) ∧ ((s.dev (.leaf l)).get 0x2108_15 + 1 < 2 ^ 32)) :=
  ⟨⟨State.reset, svE, 0, accepts_of (by decide +kernel), by decide +kernel⟩,
   ⟨State.reset, svE, 0, accepts_of (by decide +kernel), by decide +kernel⟩,
   ⟨(tr fun d => updating d), by decide +kernel⟩,
   ⟨(tr fun d => updating d), ({ svE with via := .servicePort }), (zeros 16), acceptsDomain_of (by decide +kernel),
     by decide +kernel⟩,
   ⟨State.reset, svE, acceptsDomain_of (by decide +kernel), by decide +kernel⟩,
   ⟨State.reset, svE, accepts_of (by decide +kernel), by decide +kernel⟩,
   ⟨State.reset, svE, accepts_of (by decide +kernel), by decide +kernel⟩,
   ⟨(tr fun d => { d with boot := { d.boot with rom := false } }), 0, by decide +kernel⟩,
   ⟨State.reset, by decide +kernel⟩,
   ⟨State.reset, by decide +kernel⟩,
   ⟨State.reset, .host, 0, by decide +kernel⟩,
   ⟨State.reset, .host, by decide +kernel⟩⟩

theorem witness_EveryResetLeavesTimeFresh :
    (∃ (s : State) (u : UnitId) (e : Env) (v : Nat), ((s.unit u).accepts e 0x1801 6 v) ∧ s.built ∧ s.runs u) ∧
    (∃ (s : State) (u : UnitId), ((s.dev u).boot.held = true)) ∧
    (∃ (s : State) (u : UnitId), s.runs u) :=
  ⟨⟨State.reset, (.leaf .host), lpE, 0, accepts_of (by decide +kernel), by decide +kernel⟩,
   ⟨(lf fun d => { d with boot := { d.boot with held := true } }), (.leaf .host), by decide +kernel⟩,
   ⟨State.reset, (.leaf .host), by decide +kernel⟩⟩

theorem witness_EveryStepCompletesAndKeepsTheInvariant :
    (∃ (s : State), s.Inv) :=
  ⟨State.reset, by decide +kernel⟩

end Sys2Proof.Tests
end

section
/-! SUPPORT. Every command of every operand answers a next state, keeps the memory canonical, what the units' builds fix and
the queue: the invariant of R1, R4, R5 and R459, one lemma per way in which a command reaches the state. -/

namespace Sys2Proof.Machine

open Sys2Proof

/-- The outcome of a command on `s` is a next state with canonical memory, in which every unit keeps what its build fixes and
the queue is as it was. -/
def State.KeptBy (s : State) (o : Host.Outcome State Fault Refusal) : Prop :=
  ∃ t, o = .next t ∧ Mem.wf t.mem = true ∧ (∀ u, (t.dev u).cfg = (s.dev u).cfg) ∧ t.pending = s.pending

/-! ### Commands on one unit -/

theorem State.setDev_kept {s : State} (h : Mem.wf s.mem = true) (d : Dev) (u : UnitId) (hd : d.cfg = (s.dev u).cfg) :
    s.KeptBy (.next (s.setDev d u)) := by
  refine ⟨_, rfl, by simpa using h, fun v => ?_, by simp⟩
  by_cases hv : v = u
  · subst hv; rw [State.dev_setDev_self, hd]
  · rw [State.dev_setDev_of_ne _ _ _ _ hv]

theorem State.onHeld_kept {s : State} (h : Mem.wf s.mem = true) (u : UnitId) (f : Dev → Dev) : s.KeptBy (s.onHeld u f) :=
  State.setDev_kept h _ u rfl

theorem State.on_kept {s : State} (h : Mem.wf s.mem = true) (u : UnitId) (f : Dev → Dev) : s.KeptBy (s.on u f) :=
  State.onHeld_kept h u _

theorem State.onLeaf_kept {s : State} (h : Mem.wf s.mem = true) (l : LeafId) (f : Dev → Dev) : s.KeptBy (s.onLeaf l f) :=
  State.on_kept h (.leaf l) f

theorem State.onTrunk_kept {s : State} (h : Mem.wf s.mem = true) (f : Dev → Dev) : s.KeptBy (s.onTrunk f) :=
  State.on_kept h .trunk f

theorem execArbiterWindow_kept {s : State} (h : Mem.wf s.mem = true) (a : ArbId) : s.KeptBy (execArbiterWindow a s) := by
  cases a with
  | uplink l => exact State.onLeaf_kept h l _
  | mem n => exact State.onTrunk_kept h _

theorem execDecision_kept {s : State} (h : Mem.wf s.mem = true) (a : ArbId) : s.KeptBy (execDecision a s) := by
  cases a with
  | uplink l => exact State.onLeaf_kept h l _
  | mem n => exact State.onTrunk_kept h _

/-! ### Commands on two units -/

theorem State.KeptBy.trans {s t : State} {o : Host.Outcome State Fault Refusal} (hst : s.KeptBy (.next t)) (hto : t.KeptBy o) :
    s.KeptBy o := by
  obtain ⟨_, ⟨rfl⟩, -, hcfg, hq⟩ := hst
  obtain ⟨r, hr, hm, hcfg', hq'⟩ := hto
  exact ⟨r, hr, hm, fun u => (hcfg' u).trans (hcfg u), hq'.trans hq⟩

/-- A value that a leaf stores reaches its trunk: both keep what their builds fix (R31). -/
theorem State.stored_kept {s : State} (u : UnitId) {o : Host.Outcome State Fault Refusal} (ho : s.KeptBy o) :
    s.KeptBy (s.stored u o) := by
  obtain ⟨t, rfl, hm, hcfg, hq⟩ := ho
  have ht : s.KeptBy (.next t) := ⟨t, rfl, hm, hcfg, hq⟩
  cases u with
  | trunk => exact ht
  | leaf l =>
    simp only [State.stored]
    split
    · exact ht
    · split
      · exact ht.trans (State.setDev_kept hm _ _ rfl)
      · refine (ht.trans (State.setDev_kept hm ((t.dev (.leaf l)).storeResult 0) (.leaf l) rfl)).trans ?_
        exact State.setDev_kept (u := .trunk) (by simpa using hm) _ (by cases l <;> rfl)

theorem State.mem_kept (s : State) {m : Mem} (hm : Mem.wf m = true) : s.KeptBy (.next { s with mem := m }) :=
  ⟨_, rfl, hm, fun u => by cases u with
    | leaf l => cases l <;> rfl
    | trunk => rfl, rfl⟩

theorem execPowerOn_kept {s : State} (h : Mem.wf s.mem = true) (u : UnitId) (strap : Bool) :
    s.KeptBy (execPowerOn u strap s) := by
  obtain ⟨t, ht, hm, hcfg, hq⟩ := State.onHeld_kept h u fun d => (d.strapped strap).resetUnit 0
  have hst : s.KeptBy (.next t) := ⟨t, rfl, hm, hcfg, hq⟩
  simp only [execPowerOn, ht]
  split
  · exact (hst.trans (t.mem_kept (m := []) rfl)).trans (State.onHeld_kept rfl (.leaf .self) fun d => d.resetUnit 0)
  · exact hst

theorem execPinReset_kept {s : State} (h : Mem.wf s.mem = true) (u : UnitId) (release strap : Bool) :
    s.KeptBy (execPinReset u release strap s) := by
  obtain ⟨t, ht, hm, hcfg, hq⟩ :=
    State.onHeld_kept h u fun d => (if release then d.strapped strap else d).pinReset release
  have hst : s.KeptBy (.next t) := ⟨t, rfl, hm, hcfg, hq⟩
  simp only [execPinReset, ht]
  split
  · exact hst.trans (State.onHeld_kept hm (.leaf .self) _)
  · exact hst

/-! ### Commands on the trunk's memory -/

theorem State.onMem_kept {s : State} (h : Mem.wf s.mem = true) {f : Dev → Mem → Dev × Mem}
    (hf : ∀ d m, Mem.wf m = true → Mem.wf (f d m).2 = true) : s.KeptBy (s.onMem f) := by
  obtain ⟨t, ht, hm, hl, hs, hc, hq⟩ := State.onMem_next s f h hf
  refine ⟨t, ht, hm, fun u => ?_, hq⟩
  cases u with
  | leaf l => cases l with
    | host => exact congrArg Dev.cfg hl
    | self => exact congrArg Dev.cfg hs
  | trunk => exact hc

/-- An operation of an engine leaves the memory canonical. -/
def OpOut.wf (o : OpOut) : Prop := Mem.wf o.2.2 = true

theorem OpOut.wf_mk {res : Option Bytes} {d : Dev} {m : Mem} (hm : Mem.wf m = true) : OpOut.wf (res, d, m) := hm

theorem OpOut.wf_ite {c : Prop} [Decidable c] {a b : OpOut} (ha : OpOut.wf a) (hb : OpOut.wf b) :
    OpOut.wf (if c then a else b) := by
  split
  · exact ha
  · exact hb

theorem State.runOp_kept {s : State} (h : Mem.wf s.mem = true) (r i engine op : Nat) {f : Dev → Mem → DescSt → OpOut}
    (hf : ∀ d m x, Mem.wf m = true → OpOut.wf (f d m x)) : s.KeptBy (s.runOp r i engine op f) := by
  refine State.onMem_kept h fun d m hm => ?_
  dsimp only
  split
  · exact hm
  · split
    · exact hm
    · exact hf _ _ _ hm

theorem guardRanges_wf {d : Dev} {m : Mem} (x : DescSt) (l : List (Nat × Nat)) {o : OpOut} (hm : Mem.wf m = true)
    (ho : OpOut.wf o) : OpOut.wf (guardRanges d m x l o) := by
  unfold guardRanges
  split
  · exact hm
  · exact ho

theorem guardSources_wf {d : Dev} {m : Mem} (x : DescSt) (l : List (Nat × Nat)) {o : OpOut} (hm : Mem.wf m = true)
    (ho : OpOut.wf o) : OpOut.wf (guardSources d m x l o) := by
  unfold guardSources
  split
  · exact hm
  · exact ho

theorem failCtx_wf {d : Dev} {m : Mem} (a st : Nat) (c : Ctx) (hm : Mem.wf m = true) : OpOut.wf (failCtx d m a st c) := by
  unfold failCtx
  exact OpOut.wf_mk (Mem.writeCtx_wf hm _ _ _)

/-! ### Movers (R475) -/

theorem State.mover_kept {s : State} (h : Mem.wf s.mem = true) (r i op : Nat) {f : Dev → Mem → DescSt → MoverOp → OpOut}
    (hf : ∀ d m x o, Mem.wf m = true → OpOut.wf (f d m x o)) : s.KeptBy (s.mover r i op f) :=
  State.runOp_kept h r i 10 op fun d m x hm => OpOut.wf_ite (OpOut.wf_mk hm) (hf d m x _ hm)

theorem execCopy_kept {s : State} (h : Mem.wf s.mem = true) (r i : Nat) : s.KeptBy (execCopy r i s) :=
  State.mover_kept h r i 1 fun _ _ _ _ hm =>
    guardSources_wf _ _ hm (guardRanges_wf _ _ hm (OpOut.wf_mk (Mem.write_wf hm _ _)))

theorem execGather_kept {s : State} (h : Mem.wf s.mem = true) (r i : Nat) : s.KeptBy (execGather r i s) :=
  State.mover_kept h r i 2 fun _ _ _ _ hm => OpOut.wf_ite (OpOut.wf_mk hm)
    (guardSources_wf _ _ hm (guardRanges_wf _ _ hm (guardSources_wf _ _ hm (OpOut.wf_mk (Mem.write_wf hm _ _)))))

theorem execScatter_kept {s : State} (h : Mem.wf s.mem = true) (r i : Nat) : s.KeptBy (execScatter r i s) :=
  State.mover_kept h r i 3 fun _ _ _ _ hm => OpOut.wf_ite (OpOut.wf_mk hm)
    (guardSources_wf _ _ hm (guardRanges_wf _ _ hm
      (OpOut.wf_mk (Mem.foldl_wf _ (fun _ _ hm' => Mem.write_wf hm' _ _) _ hm))))

theorem execFill_kept {s : State} (h : Mem.wf s.mem = true) (r i : Nat) : s.KeptBy (execFill r i s) :=
  State.mover_kept h r i 4 fun _ _ _ _ hm => guardRanges_wf _ _ hm (OpOut.wf_mk (Mem.write_wf hm _ _))

theorem execPoolAlloc_kept {s : State} (h : Mem.wf s.mem = true) (r i : Nat) : s.KeptBy (execPoolAlloc r i s) :=
  State.mover_kept h r i 5 fun _ _ _ _ hm => OpOut.wf_ite (OpOut.wf_mk hm) (by split <;> exact OpOut.wf_mk hm)

theorem execPoolFree_kept {s : State} (h : Mem.wf s.mem = true) (r i : Nat) : s.KeptBy (execPoolFree r i s) :=
  State.mover_kept h r i 6 fun _ _ _ _ hm => by split <;> exact OpOut.wf_mk hm

theorem execPoolRetag_kept {s : State} (h : Mem.wf s.mem = true) (r i : Nat) : s.KeptBy (execPoolRetag r i s) := by
  refine State.mover_kept h r i 7 fun _ _ _ _ hm => OpOut.wf_ite (OpOut.wf_mk hm) ?_
  split
  · exact OpOut.wf_mk hm
  · exact OpOut.wf_ite (OpOut.wf_mk hm) (OpOut.wf_mk hm)

theorem execLeaseWrite_kept {s : State} (h : Mem.wf s.mem = true) (r i : Nat) : s.KeptBy (execLeaseWrite r i s) := by
  refine State.mover_kept h r i 8 fun _ _ _ _ hm => ?_
  split
  · exact OpOut.wf_mk hm
  · exact OpOut.wf_ite (OpOut.wf_mk hm) (guardRanges_wf _ _ hm (OpOut.wf_mk hm))

theorem execLeaseRead_kept {s : State} (h : Mem.wf s.mem = true) (r i : Nat) : s.KeptBy (execLeaseRead r i s) := by
  refine State.mover_kept h r i 9 fun _ _ _ _ hm => ?_
  split
  · exact OpOut.wf_mk hm
  · exact OpOut.wf_ite (OpOut.wf_mk hm) (OpOut.wf_ite (OpOut.wf_mk hm)
      (guardRanges_wf _ _ hm (OpOut.wf_ite (OpOut.wf_mk hm) (OpOut.wf_mk hm))))

/-! ### Codec engines (R300 to R307) -/

theorem execCompress_kept {s : State} (h : Mem.wf s.mem = true) (r i : Nat) : s.KeptBy (execCompress r i s) := by
  refine State.runOp_kept h r i 4 1 fun _ _ _ hm => OpOut.wf_ite (OpOut.wf_mk hm) (guardRanges_wf _ _ hm ?_)
  split
  · exact failCtx_wf _ _ _ hm
  · exact OpOut.wf_ite (failCtx_wf _ _ _ hm) (OpOut.wf_ite (failCtx_wf _ _ _ hm)
      (OpOut.wf_mk (Mem.write_wf (Mem.writeCtx_wf hm _ _ _) _ _)))

theorem decompressOp_wf (resume : Bool) (d : Dev) (m : Mem) (x : DescSt) (hm : Mem.wf m = true) :
    OpOut.wf (decompressOp resume d m x) := by
  refine OpOut.wf_ite (OpOut.wf_mk hm) (guardRanges_wf _ _ hm ?_)
  split
  · exact failCtx_wf _ _ _ hm
  · exact OpOut.wf_mk (Mem.write_wf (Mem.writeCtx_wf hm _ _ _) _ _)

theorem execDecompress_kept {s : State} (h : Mem.wf s.mem = true) (r i : Nat) : s.KeptBy (execDecompress r i s) := by
  unfold execDecompress
  split
  · exact State.onTrunk_kept h _
  · exact State.runOp_kept h r i 3 2 (decompressOp_wf false)

theorem execDecompressResume_kept {s : State} (h : Mem.wf s.mem = true) (r i : Nat) :
    s.KeptBy (execDecompressResume r i s) := by
  unfold execDecompressResume
  split
  · exact State.runOp_kept h r i 3 2 (decompressOp_wf true)
  · exact State.onTrunk_kept h _

/-! ### Sketch engines (R499) -/

theorem State.sketch_kept {s : State} (h : Mem.wf s.mem = true) (r i op : Nat) {f : Dev → Mem → DescSt → SketchOp → OpOut}
    (hf : ∀ d m x o, Mem.wf m = true → OpOut.wf (f d m x o)) : s.KeptBy (s.sketch r i op f) :=
  State.runOp_kept h r i 5 op fun d m x hm => OpOut.wf_ite (OpOut.wf_mk hm) (hf d m x _ hm)

theorem execBucket_kept {s : State} (h : Mem.wf s.mem = true) (r i : Nat) : s.KeptBy (execBucket r i s) :=
  State.sketch_kept h r i 1 fun _ _ _ _ hm => OpOut.wf_ite (OpOut.wf_mk hm)
    (guardRanges_wf _ _ hm (OpOut.wf_mk (Mem.write_wf hm _ _)))

theorem execMerge_kept {s : State} (h : Mem.wf s.mem = true) (r i : Nat) : s.KeptBy (execMerge r i s) :=
  State.sketch_kept h r i 2 fun _ _ _ _ hm => guardRanges_wf _ _ hm (OpOut.wf_mk (Mem.write_wf hm _ _))

theorem execRank_kept {s : State} (h : Mem.wf s.mem = true) (r i : Nat) : s.KeptBy (execRank r i s) :=
  State.sketch_kept h r i 3 fun _ _ _ _ hm => guardRanges_wf _ _ hm (OpOut.wf_mk hm)

theorem execQuantile_kept {s : State} (h : Mem.wf s.mem = true) (r i : Nat) : s.KeptBy (execQuantile r i s) :=
  State.sketch_kept h r i 4 fun _ _ _ _ hm => OpOut.wf_ite (OpOut.wf_mk hm)
    (guardRanges_wf _ _ hm (by split <;> exact OpOut.wf_mk hm))

/-! ### Signatures (R588 to R594) -/

theorem State.signature_kept {s : State} (h : Mem.wf s.mem = true) (r i op : Nat) (zero : List (Nat × Nat))
    {f : Dev → Mem → DescSt → OpOut} (hf : ∀ d m x, Mem.wf m = true → OpOut.wf (f d m x)) :
    s.KeptBy (s.signature r i op zero f) :=
  State.runOp_kept h r i 9 op fun d m x hm => OpOut.wf_ite (hf d m x hm) (OpOut.wf_mk hm)

theorem execSeal_kept {s : State} (h : Mem.wf s.mem = true) (r i : Nat) : s.KeptBy (execSeal r i s) :=
  State.signature_kept h r i 1 _ fun _ _ _ hm => guardRanges_wf _ _ hm (OpOut.wf_ite (OpOut.wf_mk hm) (OpOut.wf_mk hm))

theorem execToText_kept {s : State} (h : Mem.wf s.mem = true) (r i : Nat) : s.KeptBy (execToText r i s) :=
  State.signature_kept h r i 2 _ fun _ _ _ hm => guardRanges_wf _ _ hm <|
    OpOut.wf_ite (OpOut.wf_mk hm) (OpOut.wf_ite (OpOut.wf_mk hm) (OpOut.wf_mk (Mem.write_wf hm _ _)))

theorem execFromText_kept {s : State} (h : Mem.wf s.mem = true) (r i : Nat) : s.KeptBy (execFromText r i s) := by
  refine State.signature_kept h r i 3 _ fun _ _ _ hm => guardRanges_wf _ _ hm ?_
  dsimp only
  split
  · exact OpOut.wf_mk hm
  · exact OpOut.wf_ite (OpOut.wf_mk (Mem.write_wf hm _ _)) (OpOut.wf_mk hm)

/-! ### The Thicket (chapter 15) -/

theorem State.thicket_kept {s : State} (h : Mem.wf s.mem = true) (r i op : Nat) {f : Dev → Mem → DescSt → OpOut}
    (hf : ∀ d m x, Mem.wf m = true → OpOut.wf (f d m x)) : s.KeptBy (s.thicket r i op f) := by
  unfold State.thicket
  refine State.onMem_kept h fun d m hm => ?_
  split
  · exact hm
  · obtain ⟨t, ht, htm, -⟩ := State.runOp_kept h r i 8 op fun d m x hm =>
      OpOut.wf_ite (c := modelByte x > 7) (OpOut.wf_mk (res := some (statusOnly 0xF0)) (d := d) hm) (hf d m x hm)
    rw [ht]
    exact htm

theorem execLoad_kept {s : State} (h : Mem.wf s.mem = true) (r i : Nat) : s.KeptBy (execLoad r i s) := by
  refine State.thicket_kept h r i 1 fun _ _ _ hm => OpOut.wf_ite (OpOut.wf_mk hm) (OpOut.wf_ite (OpOut.wf_mk hm)
    (guardRanges_wf _ _ hm (OpOut.wf_ite (OpOut.wf_mk hm) ?_)))
  dsimp only
  split <;> exact OpOut.wf_mk hm

theorem execUnload_kept {s : State} (h : Mem.wf s.mem = true) (r i : Nat) : s.KeptBy (execUnload r i s) :=
  State.thicket_kept h r i 2 fun _ _ _ hm =>
    OpOut.wf_ite (OpOut.wf_mk hm) (OpOut.wf_ite (OpOut.wf_mk hm) (OpOut.wf_mk hm))

theorem execInfer_kept {s : State} (h : Mem.wf s.mem = true) (r i : Nat) : s.KeptBy (execInfer r i s) :=
  State.thicket_kept h r i 3 fun _ _ _ hm =>
    OpOut.wf_ite (OpOut.wf_mk hm) <| OpOut.wf_ite (OpOut.wf_mk hm) <| OpOut.wf_ite (OpOut.wf_mk hm) <|
    OpOut.wf_ite (OpOut.wf_mk hm) <| OpOut.wf_ite (OpOut.wf_mk hm) <|
    guardRanges_wf _ _ hm (OpOut.wf_ite (OpOut.wf_mk hm) (OpOut.wf_mk hm))

theorem Dev.scoreOne_wf (d : Dev) {m : Mem} (hm : Mem.wf m = true) (o : InferOp) (c : ThModel) (x : DescSt) (v : Nat) :
    Mem.wf (d.scoreOne m o c x v).2.1 = true := by
  unfold Dev.scoreOne
  dsimp only
  split
  · exact Mem.write_wf hm _ _
  · exact Mem.put_wf (Mem.write_wf hm _ _) _ _

theorem execBatch_kept {s : State} (h : Mem.wf s.mem = true) (r i : Nat) : s.KeptBy (execBatch r i s) := by
  refine State.onMem_kept h fun d m hm => ?_
  dsimp only
  split
  · exact hm
  · split
    · exact hm
    · split
      · exact hm
      · split
        · exact hm
        · exact List.foldlRecOn (motive := fun acc : Dev × Mem × DescSt => Mem.wf acc.2.1 = true) _ _ hm
            fun acc hacc _ _ => Dev.scoreOne_wf _ hacc _ _ _ _

theorem execUncorrectableEcc_kept {s : State} (h : Mem.wf s.mem = true) (x : EccHit) :
    s.KeptBy (execUncorrectableEcc x s) := by
  refine State.onMem_kept h fun d m hm => ?_
  dsimp only
  split
  · exact hm
  · split
    · exact hm
    · refine Mem.foldl_wf _ (fun m v hm => ?_) _ hm
      split
      · exact Mem.write_wf hm _ _
      · exact Mem.put_wf (Mem.write_wf hm _ _) _ _

/-! ### Threads, leases and rings -/

theorem Dev.issueMem_wf (d : Dev) {m : Mem} (hm : Mem.wf m = true) (t : ThreadId) {f : Dev → Dev × Mem}
    (hf : ∀ d, Mem.wf (f d).2 = true) : Mem.wf (d.issueMem m t f).2 = true := by
  unfold Dev.issueMem
  dsimp only
  split
  · exact hm
  · split
    · exact hm
    · exact hf _

theorem execSprigLoadStore_kept {s : State} (h : Mem.wf s.mem = true) (t : ThreadId) (a : SprigAccess) :
    s.KeptBy (execSprigLoadStore t a s) := by
  refine State.onMem_kept h fun d m hm => Dev.issueMem_wf d hm t fun d => ?_
  dsimp only
  split
  · exact hm
  · split
    · exact hm
    · split
      · exact hm
      · split
        · exact Mem.write_wf hm _ _
        · exact hm

theorem execLeaseDataWrite_kept {s : State} (h : Mem.wf s.mem = true) (x : LeaseData) :
    s.KeptBy (execLeaseDataWrite x s) := by
  refine State.onMem_kept h fun d m hm => ?_
  split
  · split
    · exact writeLease_wf hm _ _ _
    · exact hm
  · exact hm

theorem execLeaseDataReadData_kept {s : State} (h : Mem.wf s.mem = true) (x : LeaseData) :
    s.KeptBy (execLeaseDataReadData x s) := by
  refine State.onMem_kept h fun d m hm => ?_
  split
  · exact hm
  · exact Mem.write_wf hm _ _

theorem execDescriptorComplete_kept {s : State} (h : Mem.wf s.mem = true) (r i : Nat) :
    s.KeptBy (execDescriptorComplete r i s) := by
  refine State.onMem_kept h fun d m hm => ?_
  split
  · split
    · split
      · exact hm
      · exact Dev.putResult_wf d hm _ _
    · exact hm
  · exact hm

theorem Dev.resetRing_wf (d : Dev) {m : Mem} (hm : Mem.wf m = true) (r : Nat) : Mem.wf (d.resetRing m r).2 = true := by
  unfold Dev.resetRing
  extract_lets aborted
  have hfold := List.foldlRecOn (motive := fun acc : Dev × Mem => Mem.wf acc.2 = true) (d.uncompleted m r)
    (fun (d, m) x => (d.countDesc r (aborted x), d.putResult m x (aborted x))) (b := (d, m)) hm
    fun _ hacc _ _ => Dev.putResult_wf _ hacc _ _
  clear_value aborted
  split
  next heq => rwa [heq] at hfold

theorem execRingReset_kept {s : State} (h : Mem.wf s.mem = true) (e : Env) (r v : Nat) :
    s.KeptBy (execRingReset e r v s) := by
  refine State.onMem_kept h fun d m hm => ?_
  split
  · exact hm
  · dsimp only
    split
    · exact Dev.resetRing_wf d hm r
    · exact hm

/-! ### Leaf frames (R303, R474) -/

theorem Dev.decodeLeaf_wf (d : Dev) {m : Mem} (hm : Mem.wf m = true) (port sched : Nat) (coded : Bytes) :
    Mem.wf (d.decodeLeaf m port sched coded).2.1 = true := by
  unfold Dev.decodeLeaf
  extract_lets stream d1 r ctx m1 d2
  have hm1 : Mem.wf m1 = true := Mem.writeCtx_wf hm _ _ _
  clear_value r m1 d2
  split
  · exact hm1
  · exact hm1

theorem Dev.placeFrame_wf (d : Dev) {m : Mem} (hm : Mem.wf m = true) (f : FileSt) (part leaf colour : Nat) (raw : Bytes) :
    Mem.wf (d.placeFrame m f part leaf colour raw).2.1 = true := by
  unfold Dev.placeFrame
  extract_lets put fits
  have hput (d f) : Mem.wf (put d f).2.1 = true := Mem.write_wf hm _ _
  clear_value put fits
  split
  · exact hput _ _
  · split
    · exact hput _ _
    · exact hm

theorem Dev.fileFrame_wf (d : Dev) {m : Mem} (hm : Mem.wf m = true) (n w leaf colour : Nat) (raw : Bytes) :
    Mem.wf (d.fileFrame m n w leaf colour raw).2 = true := by
  unfold Dev.fileFrame
  exact d.placeFrame_wf hm _ _ _ _ _

theorem Dev.fileLoose_wf (d : Dev) {m : Mem} (hm : Mem.wf m = true) (part leaf colour : Nat) (raw : Bytes) :
    Mem.wf (d.fileLoose m part leaf colour raw).2 = true := by
  unfold Dev.fileLoose
  exact d.placeFrame_wf hm _ _ _ _ _

theorem Dev.alignFrame_wf (d : Dev) {m : Mem} (hm : Mem.wf m = true) (port sched colour at_ : Nat) (raw : Bytes) :
    Mem.wf (d.alignFrame m port sched colour at_ raw).2 = true := by
  unfold Dev.alignFrame
  dsimp only
  split
  · exact hm
  · split
    · exact hm
    · split
      · split <;> exact Dev.fileFrame_wf _ hm _ _ _ _ _
      · exact Dev.fileLoose_wf _ hm _ _ _ _

theorem execLeafFrame_kept {s : State} (h : Mem.wf s.mem = true) (port schedule : Nat) (coded : Bytes) (colour : Nat) :
    s.KeptBy (execLeafFrame port schedule coded colour s) := by
  refine State.onMem_kept h fun d m hm => ?_
  dsimp only
  split
  · exact hm
  · split
    · exact Dev.fileLoose_wf _ hm _ _ _ _
    · generalize (Dev.modIng d _) = d'
      have hdec := d'.decodeLeaf_wf hm port (schedule % 4) coded
      split
      · next heq => rwa [heq] at hdec
      · next heq =>
        rw [heq] at hdec
        exact Dev.alignFrame_wf _ hdec _ _ _ _ _

/-! ### Firmware, and writes that may store a configuration or reset a ring -/

theorem execBoot_kept {s : State} (h : Mem.wf s.mem = true) : s.KeptBy (execBoot s) := by
  refine State.onMem_kept h fun d m hm => ?_
  dsimp only
  split
  · exact hm
  · split
    · exact hm
    · dsimp only
      split
      · exact Mem.write_wf hm _ _
      · exact hm

theorem execStoreConfig_kept {s : State} (h : Mem.wf s.mem = true) (u : UnitId) (e : Env) (v : Nat) :
    s.KeptBy (execStoreConfig u e v s) :=
  State.stored_kept u (State.on_kept h u _)

theorem execLocalIndirectCommit_kept {s : State} (h : Mem.wf s.mem = true) (l : LeafId) (e : Env) (pair v : Nat) :
    s.KeptBy (execLocalIndirectCommit l e pair v s) :=
  State.stored_kept (.leaf l) (State.onLeaf_kept h l _)

theorem execWrite_kept {s : State} (h : Mem.wf s.mem = true) (u : UnitId) (e : Env) (index sub offset length : Nat)
    (last : Bool) (data : Bytes) : s.KeptBy (execWrite u e index sub offset length last data s) := by
  unfold execWrite
  split
  · exact execRingReset_kept h _ _ _
  · exact State.stored_kept u (State.on_kept h u _)

/-! ### Every command -/

/-- Every command, with every operand, answers a next state and keeps memory canonical, the builds and the queue: it acts on one
unit, on the trunk and its memory, or is one of those above. -/
theorem exec_kept {s : State} (h : Mem.wf s.mem = true) (c : Instr) : s.KeptBy (exec c s) := by
  cases c with
  | arbiterWindow a => exact execArbiterWindow_kept h a
  | decision a => exact execDecision_kept h a
  | write => exact execWrite_kept h _ _ _ _ _ _ _ _
  | storeConfig u e v => exact execStoreConfig_kept h u e v
  | localIndirectCommit l e pair v => exact execLocalIndirectCommit_kept h l e pair v
  | powerOn u strap => exact execPowerOn_kept h u strap
  | pinReset u release strap => exact execPinReset_kept h u release strap
  | boot => exact execBoot_kept h
  | leafFrame port schedule coded colour => exact execLeafFrame_kept h port schedule coded colour
  | sprigLoadStore t a => exact execSprigLoadStore_kept h t a
  | leaseDataWrite m => exact execLeaseDataWrite_kept h m
  | leaseDataReadData m => exact execLeaseDataReadData_kept h m
  | ringReset e r v => exact execRingReset_kept h e r v
  | uncorrectableEcc x => exact execUncorrectableEcc_kept h x
  | descriptorComplete r i => exact execDescriptorComplete_kept h r i
  | copy r i => exact execCopy_kept h r i
  | gather r i => exact execGather_kept h r i
  | scatter r i => exact execScatter_kept h r i
  | fill r i => exact execFill_kept h r i
  | poolAlloc r i => exact execPoolAlloc_kept h r i
  | poolFree r i => exact execPoolFree_kept h r i
  | poolRetag r i => exact execPoolRetag_kept h r i
  | leaseWrite r i => exact execLeaseWrite_kept h r i
  | leaseRead r i => exact execLeaseRead_kept h r i
  | compress r i => exact execCompress_kept h r i
  | decompress r i => exact execDecompress_kept h r i
  | decompressResume r i => exact execDecompressResume_kept h r i
  | bucket r i => exact execBucket_kept h r i
  | merge r i => exact execMerge_kept h r i
  | rank r i => exact execRank_kept h r i
  | quantile r i => exact execQuantile_kept h r i
  | load r i => exact execLoad_kept h r i
  | unload r i => exact execUnload_kept h r i
  | infer r i => exact execInfer_kept h r i
  | batch r i => exact execBatch_kept h r i
  | toText r i => exact execToText_kept h r i
  | fromText r i => exact execFromText_kept h r i
  | sampleTick | regFault =>
    unfold exec; exact State.onHeld_kept h _ _
  | read | readRecord | subscribe | unsubscribe | identify | ack | shortMessageDiscard | misaddressed | sdpResponse |
      latchRelease | replayEntryFree | restoreDefaults | flagClear | modeChange | timeMessageSend | timeMessage |
      incrementApply | exchangeTimeout | holdoverExpired | stepCmd | pop | powerFailWarning | powerFailRecover | fatal
      | writeRecord | snapNow | recorderPortRead | blockLock | align | bringUpTimeout | helloSend | hello |
      linkFrameStart | linkFrame | abort | linkAck | linkNak | credit | retryTimeout | resetLink | resetLane |
      blockLockLost | resetCmdLink | resetCmdLane | watchdog | bootAttemptsClear | quicksetImage | unitReset |
      unlistedOpcode =>
    unfold exec; exact State.on_kept h _ _
  | storeConfigTimeout | resLatchRead | localIndirectSelect | localIndirectDataRead | localIndirectDataWrite |
      regionStop | regionResume | regionPowerDown | regionPowerUp | cmdBegin | cmdEnd | arrivalMark | counterScan |
      regionRst | lostRecord | currentSample | temperatureReading | minVRead | clusterChange | stageRequest | grant |
      deny | inrushDeferTimeout | stageGrant | stageDeny | shedAssert | shedRelease | carryTimeExpired | regClear |
      traceAccess | periodicSync | funnelTransfer | overflowPacket | softTrigger | freeze | traceEnable | rearm |
      drainCmd | drainDone | captureArm | digestBlockClose | digestModeWrite | flushSoftware | flushTeardown |
      flushEnd | recorderAck | ackTimeout | latch | frameBuild | scheduleEnable | scheduleDisable | snapshotAt |
      oneShotLatch | rebind | degradeCmd | frameEncode | streamReset | preemption | trigger | testStart | ftDone |
      ftReclaim | testPreempted | testTimeout | testPackWrite | runTest | hostWaitTimeout | imageFetch | fetchRetry |
      fetchTimeout | hostError | watchdogFlushLimit | commitConfirmation | serviceFrameFcsFail =>
    unfold exec; exact State.onLeaf_kept h _ _
  | proxyRequest | proxyResponse | proxySlotTimeout | sourceTimeout | ptpMessage | utcRestep | leafRecord |
      recorderCommit | trunkLadder | wfqTag | wfqSend | drrForce | wfqRestore | wfqReturn | shaperWrite | profileWrite
      | alignCodeword | pleachHello | wiringTimeout | flit | abortFlit | resetFlit | flitRetryTimeout | flitSend |
      messageHeader | messageDeliver | fenceNotice | fenceApply | opticsFault | collectDeadline | partialMsg |
      stageClose | result | fleetTrigger | pleachTrigger | groupSetup | setup | setupAck | setupNak | setupTimeout |
      groupCommit | groupControlAbort | groupTeardown | teardown | quarantineStart | quarantineEnd | join | leave |
      changeBatch | transitionEnd | syncWait | syncWaitEnd | syncAdd | ftRead | ftReadF | frameLoc |
      illegalInstruction | kclassWrite | syncAddCmd | descriptorSubmit | leaseRequest | leaseGrant | leaseDeny |
      leaseRenew | leaseRecall | leaseRelease | leaseReleased | leaseDataReadReq | leaseDataError | renewLead |
      leaseResend | recallAt | leaseExpires | renewUnanswered | leaseRecallCmd | energyWindow | accountExhausted |
      pmbusRead | pmbAlert | arrivalUnresolved | stepClose | driftUpdate | apply | applySettings | modelReady | arm |
      policyEnable | policyDisable | captureAssembly | weightRequest | weightTile | weightWaitTimeout | compare |
      weightDigestCompare | weightDigestEnable | shadowPairEnable | shadowDigest | pairSkewTimeout | vsfRecord |
      targetWrite | commit | sectorWritten | block | blockFinish | bootStatePoll | quicksetPush | layerStartTrunk |
      layerStartLeaves | leafRunning | leafBootTimeout | thermalTrip | opticsReady | ptpEventMessageSend |
      progressWordProgrammed | eccCorrected =>
    unfold exec; exact State.onTrunk_kept h _
  -- SEAL is left; its name is a keyword of Lean.
  | _ r i => exact execSeal_kept h r i

/-! ### The step -/

/-- The rest of a queue that keeps the order of R80 and R27 keeps it. -/
theorem keepsPrecedence_tail {l : List Instr} (h : keepsPrecedence l = true) : keepsPrecedence l.tail = true := by
  cases l with
  | nil => rfl
  | cons c rest => exact (Bool.and_eq_true_iff.mp h).2

/-- Units that keep what their builds fix, with canonical memory, keep the invariant. -/
theorem State.Inv.of_kept {s t : State} (h : s.Inv) (hm : Mem.wf t.mem = true) (hcfg : ∀ u, (t.dev u).cfg = (s.dev u).cfg) :
    t.Inv := by
  obtain ⟨-, ⟨hl, hs, ht⟩, hls, hss⟩ := h
  have hleaf : t.leaf.cfg = s.leaf.cfg := hcfg (.leaf .host)
  have hself : t.self.cfg = s.self.cfg := hcfg (.leaf .self)
  have htrunk : t.trunk.cfg = s.trunk.cfg := hcfg .trunk
  simp only [State.Inv, State.built, hleaf, hself, htrunk]
  exact ⟨hm, ⟨hl, hs, ht⟩, hls, hss⟩

/-- Settles O59: a step is one command on the queue's rest or idles, and every command keeps memory canonical, the builds and
the queue. -/
theorem everyStepCompletesAndKeepsTheInvariant : Obligations.EveryStepCompletesAndKeepsTheInvariant := by
  intro s hinv
  unfold step
  split
  · next hq => exact ⟨s, rfl, hinv, by rw [hq]; rfl, id⟩
  · next c rest hq =>
    have hmem : Mem.wf s.mem = true := hinv.1
    have hdev (u : UnitId) : ({ s with pending := rest } : State).dev u = s.dev u := by
      cases u with
      | leaf l => cases l <;> rfl
      | trunk => rfl
    obtain ⟨t, ht, hm, hcfg, hpend⟩ := exec_kept (s := { s with pending := rest }) hmem c
    refine ⟨t, ht, hinv.of_kept hm fun u => (hcfg u).trans (congrArg Dev.cfg (hdev u)), ?_, fun hk => ?_⟩
    · rw [hpend, hq]; rfl
    · rw [hpend]; exact keepsPrecedence_tail (hq ▸ hk)

end Sys2Proof.Machine
end

section
/-! SUPPORT. FLAG_CLEAR (R25, R26, R148): what the clearing of an RWC object leaves in the register and elsewhere. -/

namespace Sys2Proof.Machine

open Sys2Proof

/-! ### Single bits -/

/-- Adding 2^i to a number whose bit `i` is 0 sets that bit and no other. -/
theorem testBit_add_two_pow {n i : Nat} (h : n.testBit i = false) (j : Nat) :
    (n + 2 ^ i).testBit j = if i = j then true else n.testBit j := by
  rcases lt_trichotomy j i with hj | rfl | hj
  · rw [if_neg (by omega), Nat.add_comm, Nat.testBit_two_pow_add_gt hj]
  · rw [if_pos rfl, Nat.add_comm, Nat.testBit_two_pow_add_eq, h, Bool.not_false]
  · have hlow : n % 2 ^ i + 2 ^ i < 2 ^ (i + 1) := by
      have := Nat.mod_lt n (Nat.two_pow_pos i)
      omega
    have hdiv : (n + 2 ^ i) / 2 ^ (i + 1) = n / 2 ^ (i + 1) := by
      have hhalf : n / 2 ^ i % 2 = 0 := by simpa [Nat.testBit_eq_decide_div_mod_eq] using h
      rw [Nat.pow_succ, ← Nat.div_div_eq_div_mul, ← Nat.div_div_eq_div_mul, Nat.add_div_right _ (Nat.two_pow_pos i)]
      omega
    obtain ⟨k, rfl⟩ : ∃ k, j = k + (i + 1) := ⟨j - (i + 1), by omega⟩
    rw [if_neg (by omega), Nat.testBit_add, Nat.testBit_add, hdiv]

theorem testBit_setBit (n i j : Nat) : (setBit n i).testBit j = if i = j then true else n.testBit j := by
  unfold setBit
  split
  · next h => split <;> simp_all
  · next h => exact testBit_add_two_pow (by simpa using h) j

theorem testBit_clearBit (n i j : Nat) : (clearBit n i).testBit j = if i = j then false else n.testBit j := by
  unfold clearBit
  split
  · next h =>
    have hn : n - 2 ^ i + 2 ^ i = n := Nat.sub_add_cancel (Nat.ge_two_pow_of_testBit h)
    have hi : (n - 2 ^ i).testBit i = false := by
      have := Nat.testBit_two_pow_add_eq (n - 2 ^ i) i
      rw [Nat.add_comm, hn, h] at this
      simpa using this
    have hj := testBit_add_two_pow hi j
    rw [hn] at hj
    split
    · next hij => rw [← hij, hi]
    · next hij => rw [hj, if_neg hij]
  · next h => split <;> simp_all

theorem testBit_putBit (n i j : Nat) (b : Bool) : (putBit n i b).testBit j = if i = j then b else n.testBit j := by
  cases b with
  | false => exact testBit_clearBit n i j
  | true => exact testBit_setBit n i j

theorem putBit_lt {n i w : Nat} (b : Bool) (hn : n < 2 ^ w) (hi : i < w) : putBit n i b < 2 ^ w := by
  refine Nat.lt_pow_two_of_testBit _ fun j hj => ?_
  rw [testBit_putBit, if_neg (by omega)]
  exact Nat.testBit_lt_two_pow (hn.trans_le (Nat.pow_le_pow_right (by decide) hj))

/-! ### Dev.clearFlags -/

/-- What `Dev.clearFlags` does for one bit of the value written. -/
def Dev.clearFlag (d : Dev) (k v b : Nat) : Dev :=
  if v.testBit b then
    let again := d.sets.contains (k / 256, b)
    let d := d.set k (putBit (d.get k) b again)
    if isFlagReg k && (d.cfg.rowOf (k / 256 + 1) (b + 1)).isSome then d.set (key (k / 256 + 1) (b + 1)) (b2n again) else d
  else d

theorem Dev.clearFlags_eq_foldl (d : Dev) (k v : Nat) :
    d.clearFlags k v = (List.range 32).foldl (fun d b => d.clearFlag k v b) d := rfl

theorem Dev.clearFlag_eq_objs (d : Dev) (k v b : Nat) : d.clearFlag k v b = { d with objs := (d.clearFlag k v b).objs } := by
  unfold Dev.clearFlag
  split
  · dsimp only; split <;> rfl
  · rfl

/-- The set-count of a register's bit is an object of the index after the register's. -/
theorem setCount_div {i b : Nat} (hb : b < 32) : key (i + 1) (b + 1) / 256 = i + 1 := by
  unfold key; omega

theorem Dev.clearFlag_get_of_ne (d : Dev) {j k v b : Nat} (hb : b < 32) (hjk : j ≠ k) (hj : j / 256 ≠ k / 256 + 1) :
    (d.clearFlag k v b).get j = d.get j := by
  have hc : j ≠ key (k / 256 + 1) (b + 1) := fun h => hj (h ▸ setCount_div hb)
  unfold Dev.clearFlag
  split
  · dsimp only
    split
    · rw [Dev.get_set_of_ne _ _ _ _ hc, Dev.get_set_of_ne _ _ _ _ hjk]
    · exact Dev.get_set_of_ne _ _ _ _ hjk
  · rfl

theorem Dev.clearFlag_get_self (d : Dev) {k v b : Nat} (hb : b < 32) (hw : d.cfg.width k = 32) (hv : d.get k < 2 ^ 32) :
    (d.clearFlag k v b).get k = if v.testBit b then putBit (d.get k) b (d.sets.contains (k / 256, b)) else d.get k := by
  have hc : k ≠ key (k / 256 + 1) (b + 1) := fun h => by have := congrArg (· / 256) h; simp [setCount_div hb] at this
  have hput := putBit_lt (d.sets.contains (k / 256, b)) hv hb
  have hset : (d.set k (putBit (d.get k) b (d.sets.contains (k / 256, b)))).get k =
      putBit (d.get k) b (d.sets.contains (k / 256, b)) := by
    rw [Dev.get_set_self, hw, Nat.mod_eq_of_lt hput, Nat.mod_eq_of_lt (by omega)]
  unfold Dev.clearFlag
  split
  · dsimp only
    split
    · rw [Dev.get_set_of_ne _ _ _ _ hc, hset]
    · exact hset
  · rfl

/-- From `d` to `d'` the bits of the register `k` below `n` that are 1 in `v` have been cleared, those aside that hardware has set
in this tick, and no object but the register and its set-counts has changed. -/
structure Dev.ClearedBelow (d d' : Dev) (k v n : Nat) : Prop where
  eq_objs : d' = { d with objs := d'.objs }
  lt : d'.get k < 2 ^ 32
  bits : ∀ b, (d'.get k).testBit b = if b < n ∧ v.testBit b = true then d.sets.contains (k / 256, b) else (d.get k).testBit b
  kept : ∀ j, j ≠ k → j / 256 ≠ k / 256 + 1 → d'.get j = d.get j

theorem Dev.ClearedBelow.step {d d' : Dev} {k v n : Nat} (h : d.ClearedBelow d' k v n) (hn : n < 32)
    (hw : d.cfg.width k = 32) : d.ClearedBelow (d'.clearFlag k v n) k v (n + 1) := by
  obtain ⟨hobjs, hlt, hbits, hkept⟩ := h
  have hcfg : d'.cfg = d.cfg := by rw [hobjs]
  have hsets : d'.sets = d.sets := by rw [hobjs]
  have hself := d'.clearFlag_get_self (v := v) hn (hcfg ▸ hw) hlt
  rw [hsets] at hself
  refine ⟨?_, ?_, fun b => ?_, fun j hjk hj => ?_⟩
  · rw [d'.clearFlag_eq_objs, hobjs]
  · rw [hself]
    split
    · exact putBit_lt _ hlt hn
    · exact hlt
  · rw [hself]
    split
    · next hvn =>
      rw [testBit_putBit, hbits]
      by_cases hb : n = b
      · subst hb; simp [hvn]
      · simp only [hb, if_false, show b < n + 1 ↔ b < n by omega]
    · next hvn =>
      rw [hbits]
      by_cases hb : n = b
      · subst hb; simp [hvn]
      · simp only [show b < n + 1 ↔ b < n by omega]
  · rw [d'.clearFlag_get_of_ne hn hjk hj, hkept j hjk hj]

theorem Dev.clearedBelow_foldl (d : Dev) {k v : Nat} (hw : d.cfg.width k = 32) (hv : d.get k < 2 ^ 32) :
    ∀ n ≤ 32, d.ClearedBelow ((List.range n).foldl (fun d b => d.clearFlag k v b) d) k v n
  | 0, _ => ⟨rfl, hv, fun b => by simp, fun _ _ _ => rfl⟩
  | n + 1, hn => by
    rw [List.range_succ, List.foldl_append]
    exact (d.clearedBelow_foldl hw hv n (by omega)).step (by omega) hw

theorem Dev.clearFlags_cleared (d : Dev) {k v : Nat} (hw : d.cfg.width k = 32) (hv : d.get k < 2 ^ 32) :
    d.ClearedBelow (d.clearFlags k v) k v 32 :=
  d.clearedBelow_foldl hw hv 32 le_rfl

/-! ### The command -/

/-- The clauses of FLAG_CLEAR: the answer to a write of `v` to the RWC object 0 of index `i` (R25, R26, R148). -/
theorem execFlagClear_answers (s : State) (u : UnitId) (e : Env) (i : Nat) (v : BitVec 32) (r : Row) (hrun : s.runs u)
    (hacc : (s.unit u).accepts e i 0 v.toNat) (hrow : (s.dev u).cfg.rowOf i 0 = some r) (hrwc : r.acc = .rwc)
    (hty : r.ty = .bits32) (hv : (s.dev u).get (key i 0) < 2 ^ 32) :
    Answers (exec (.flagClear u e i 0 v) s) s u e 0x02 i 0 0 fun a =>
      a.abort = 0 ∧
      (∀ b < 32, (a.dev.get (key i 0)).testBit b =
        if (r.masked v.toNat).testBit b = true then (s.dev u).sets.contains (i, b)
        else ((s.dev u).get (key i 0)).testBit b) ∧
      (∀ k, k ≠ key i 0 → k / 256 ≠ i + 1 → a.dev.get k = (s.dev u).get k) ∧
      a.dev = { (s.unit u).heard e with objs := a.dev.objs } := by
  have hi : key i 0 / 256 = i := by unfold key; omega
  have h0 : key i 0 % 256 = 0 := by unfold key; omega
  have hw : ((s.unit u).heard e).cfg.width (key i 0) = 32 := by
    unfold Cfg.width
    simp only [Dev.heard_cfg, State.unit_cfg, hi, h0, hrow, hty]
    rfl
  have hget (k : Nat) : ((s.unit u).heard e).get k = (s.dev u).get k := (s.unit u).heard_get e k
  obtain ⟨r', hr', hserve⟩ := Dev.serveWrite_of_accepts (s.unit u) e i 0 v.toNat
    (fun d v _ => match d.cfg.rowOf i 0 with
      | some r => if r.acc = .rwc then ok (d.clearFlags (key i 0) v) else fail d .range
      | none => fail d .noSubindex) hi h0 hacc
  obtain rfl : r = r' := Option.some.inj (hrow.symm.trans hr')
  have hc := ((s.unit u).heard e).clearFlags_cleared (v := r.masked v.toNat) hw ((hget _).symm ▸ hv)
  obtain ⟨hobjs, -, hbits, hkept⟩ := hc
  refine ⟨ok (((s.unit u).heard e).clearFlags (key i 0) (r.masked v.toNat)), ?_, rfl, fun b hb => ?_, fun k hk hk' => ?_, hobjs⟩
  · show execFlagClear u e i 0 v s = _
    unfold execFlagClear
    rw [State.on_runs _ _ _ hrun]
    refine congrArg (fun d => Host.Outcome.next (s.withUnit u d)) (hserve.trans ?_)
    simp only [Dev.heard_cfg, State.unit_cfg, hrow, hrwc, if_true]
  · have := hbits b
    simp only [hi, hget, Dev.heard_sets, hb, true_and] at this
    exact this
  · exact (hkept k hk (hi.symm ▸ hk')).trans (hget k)

end Sys2Proof.Machine
end

section
/-! SUPPORT. MODE_CHANGE (R8, R9): what waits after it, and the modes whose change is the object's new value alone. -/

namespace Sys2Proof.Machine

open Sys2Proof

/-! ### What waits for a boundary -/

theorem Dev.foldl_time {α : Type} (f : Dev → α → Dev) (hf : ∀ d x, (f d x).time = d.time) (l : List α) (d : Dev) :
    (l.foldl f d).time = d.time :=
  List.foldlRecOn (motive := fun d' : Dev => d'.time = d.time) l f rfl fun d' h x _ => (hf d' x).trans h

theorem Dev.setUncertain_modePending (d : Dev) (b : Bool) : (d.setUncertain b).time.modePending = d.time.modePending := by
  unfold Dev.setUncertain
  split <;> rfl

theorem Dev.restartSteps_time (d : Dev) (n : Nat) : (d.restartSteps n).time = d.time := by
  unfold Dev.restartSteps Dev.modStrag Dev.modSlot
  extract_lets d'
  rw [Dev.set_time, Dev.set_time]
  rfl

/-- A mode that takes effect leaves the writes that wait as they are. -/
theorem Dev.applyMode_modePending (d : Dev) (k v : Nat) : (d.applyMode k v).time.modePending = d.time.modePending := by
  have stale (f : Nat → Nat) (d : Dev) : (slotNos.foldl (fun (d : Dev) n => d.staleRes (f n)) d).time = d.time :=
    Dev.foldl_time (fun d n => d.staleRes (f n)) (fun d n => d.staleRes_time (f n)) slotNos d
  have restart (d : Dev) : (slotNos.foldl (fun (d : Dev) n => d.restartSteps n) d).time = d.time :=
    Dev.foldl_time (fun d n => d.restartSteps n) Dev.restartSteps_time slotNos d
  unfold Dev.applyMode
  dsimp only
  split
  · rw [Dev.refreshUncertain, Dev.setUncertain_modePending]
    split <;> rfl
  · split
    · rfl
    · split <;> rfl
  · split
    · rw [stale]; rfl
    · rfl
  · split
    · rw [Dev.staleRes_time, stale]; rfl
    · rw [restart]; rfl
  · split <;> rfl
  · rfl

theorem Dev.foldl_applyMode_modePending (d : Dev) (l : List (Nat × Nat)) :
    (l.foldl (fun (d : Dev) (x : Nat × Nat) => d.applyMode x.1 x.2) d).time.modePending = d.time.modePending :=
  List.foldlRecOn (motive := fun d' : Dev => d'.time.modePending = d.time.modePending) l _ rfl
    fun d' h x _ => (d'.applyMode_modePending x.1 x.2).trans h

/-- The mode objects of Power, AnalysisFabric, Thicket and FieldTest only take their value. -/
theorem Dev.applyMode_of_plain (d : Dev) {i : Nat} (v : Nat) (hi : i ∈ [0x2400, 0x4000, 0x4200, 0x4400]) :
    d.applyMode (key i 0) v = d.set (key i 0) v := by
  simp only [List.mem_cons, List.not_mem_nil, or_false] at hi
  rcases hi with rfl | rfl | rfl | rfl <;> rfl

/-! ### The command -/

/-- What MODE_CHANGE of index `i` makes of a unit at a window boundary. -/
def Dev.changeModes (d : Dev) (i : Nat) : Dev :=
  (d.time.modePending.filter (fun x => decide (x.1 / 256 = i))).foldl
    (fun (d : Dev) (x : Nat × Nat) => d.applyMode x.1 x.2)
    { d with time := { d.time with modePending := d.time.modePending.filter fun x => !decide (x.1 / 256 = i) } }

theorem execModeChange_eq (s : State) (u : UnitId) (i : Nat) :
    execModeChange u i s = s.on u fun d => if d.boundary = true then d.changeModes i else d := by
  unfold execModeChange
  refine congrArg (s.on u) (funext fun d => ?_)
  rw [List.partition_eq_filter_filter]
  cases hb : d.boundary <;> rfl

theorem Dev.mem_changeModes (d : Dev) (i : Nat) (x : Nat × Nat) :
    x ∈ (d.changeModes i).time.modePending ↔ x ∈ d.time.modePending ∧ x.1 / 256 ≠ i := by
  unfold Dev.changeModes
  rw [Dev.foldl_applyMode_modePending]
  simp

/-- Where one entry of the index waits, and for a mode object whose change does nothing besides, its value is all that changes. -/
theorem Dev.changeModes_get (d : Dev) {i v : Nat} (hi : i ∈ [0x2400, 0x4000, 0x4200, 0x4400])
    (hone : d.time.modePending.filter (fun x => decide (x.1 / 256 = i)) = [(key i 0, v)]) (k : Nat) :
    (d.changeModes i).get k = (d.set (key i 0) v).get k := by
  unfold Dev.changeModes
  rw [hone, List.foldl_cons, List.foldl_nil, Dev.applyMode_of_plain _ v hi]
  rfl

/-- The clauses of MODE_CHANGE (R8, R9). -/
theorem execModeChange_yields (s : State) (u : UnitId) (i : Nat) (hrun : s.runs u) :
    Yields (exec (.modeChange u i) s) s u fun d =>
      if (s.unit u).boundary = true then
        (∀ x, x ∈ d.time.modePending ↔ x ∈ (s.dev u).time.modePending ∧ x.1 / 256 ≠ i) ∧
        (∀ v, v < 256 → i ∈ [0x2400, 0x4000, 0x4200, 0x4400] →
          (s.dev u).time.modePending.filter (fun x => x.1 / 256 = i) = [(key i 0, v)] →
          d.get (key i 0) = v ∧ (s.unit u).objectsKept d [key i 0])
      else d = s.unit u := by
  show Yields (execModeChange u i s) s u _
  rw [execModeChange_eq]
  refine s.on_yields u _ _ hrun ?_
  by_cases hb : (s.unit u).boundary = true
  · simp only [if_pos hb]
    refine ⟨(s.unit u).mem_changeModes i, fun v hv hi hone => ⟨?_, fun k hk => ?_⟩⟩
    · rw [(s.unit u).changeModes_get hi hone, Dev.get_set_byte _ _ _ hv]
    · rw [(s.unit u).changeModes_get hi hone, Dev.get_set_of_ne _ _ _ _ (by simpa using hk)]
  · simp only [if_neg hb]

/-- Settles O10: FLAG_CLEAR by the bits cleared so far along the register's 32, MODE_CHANGE by the two parts of what waits. -/
theorem flagsClearAndModesChange : Obligations.FlagsClearAndModesChange :=
  ⟨fun s u e i v r hrun _ hacc hrow hrwc hty hv => execFlagClear_answers s u e i v r hrun hacc hrow hrwc hty hv,
    fun s u i hrun => execModeChange_yields s u i hrun⟩

end Sys2Proof.Machine
end

section
/-! SUPPORT. The step and the state after reset (R27, R29, R74). -/

namespace Sys2Proof.Machine

open Sys2Proof

/-- Settles O1: the two branches of `step`. -/
theorem stepTakesTheFrontCommand : Obligations.StepTakesTheFrontCommand := by
  refine ⟨fun s c rest hq => ?_, fun s hq => ?_⟩
  · unfold step
    rw [hq]
  · unfold step
    rw [hq]

/-- A unit right after reset holds no object, runs its ROM and does not stand in reset (R29, R634). -/
theorem Dev.fresh_atReset (c : Cfg) :
    (Dev.fresh c).objs = [] ∧ (Dev.fresh c).blobs = [] ∧ (Dev.fresh c).boot.rom = true ∧ (Dev.fresh c).boot.held = false :=
  ⟨rfl, rfl, rfl, rfl⟩

/-- Settles O60: the three units are fresh units of their builds, and nothing is listed. -/
theorem theStateAfterResetMeetsTheInvariant : Obligations.TheStateAfterResetMeetsTheInvariant := by
  have hinv : State.reset.Inv := ⟨rfl, ⟨rfl, rfl, rfl⟩, rfl, rfl⟩
  refine ⟨hinv, rfl, rfl, fun u => ?_⟩
  cases u with
  | leaf l => cases l <;> exact Dev.fresh_atReset _
  | trunk => exact Dev.fresh_atReset _

end Sys2Proof.Machine
end

section
/-! SUPPORT. The path of a request that a unit hears, ended in its answer: reads, writes and the other opcodes (R40, R47, R61). -/

namespace Sys2Proof.Machine

open Sys2Proof

@[simp] theorem State.unit_get (s : State) (u : UnitId) (k : Nat) : (s.unit u).get k = (s.dev u).get k := rfl

@[simp] theorem State.unit_serves (s : State) (u : UnitId) (i : Nat) : (s.unit u).serves i = (s.dev u).serves i := rfl

@[simp] theorem State.unit_srv (s : State) (u : UnitId) : (s.unit u).srv = (s.dev u).srv := rfl

/-- A request that a unit hears, after what `g` has made of the unit, is answered with what its execution gives. -/
theorem State.serve_answers {s : State} {u : UnitId} {e : Env} {op i sub off : Nat} {f : Dev → Ans} {P : Ans → Prop}
    (g : Dev → Dev) (hrun : s.runs u) (hh : (g (s.unit u)).hears e) (hp : P (f ((g (s.unit u)).heard e))) :
    Answers (s.on u fun d => (g d).serve e op i sub off f) s u e op i sub off P := by
  refine ⟨_, ?_, hp⟩
  rw [State.on_runs _ _ _ hrun, Dev.serve_of_hears _ _ _ _ _ _ _ hh]
  rfl

/-- A write that a unit accepts, after what `g` has made of the unit, is answered with what the object's own effect gives. -/
theorem State.serveWrite_answers {s : State} {u : UnitId} {e : Env} {i sub v : Nat} {r : Row}
    {f : Dev → Nat → Bytes → Ans} {P : Ans → Prop} (g : Dev → Dev) (hrun : s.runs u) (hacc : (g (s.unit u)).accepts e i sub v)
    (hsub : sub < 256) (hrow : (g (s.unit u)).cfg.rowOf i sub = some r)
    (hp : P (f ((g (s.unit u)).heard e) (r.masked v) [])) :
    Answers (s.on u fun d => (g d).serveWrite e i sub v f) s u e 0x02 i sub 0 P := by
  obtain ⟨r', hr', hserve⟩ := (g (s.unit u)).serveWrite_of_accepts e i sub v f (by unfold key; omega) (by unfold key; omega) hacc
  obtain rfl : r' = r := Option.some.inj (hr'.symm.trans hrow)
  refine ⟨_, ?_, hp⟩
  rw [State.on_runs _ _ _ hrun, hserve]
  rfl

/-! ### Values and copies -/

theorem Dev.wire_of_scalar (d : Dev) (i s : Nat) {ty : OType} (h : ty.isBlob = false) :
    d.wire i s ty = leBytes ty.size (d.value i s) := by
  cases ty with
  | str => cases h
  | domain => cases h
  | _ => rfl

/-- Of a value from its start: the first `len` bytes, with MORE where bytes remain (R652). -/
theorem segmentOf_start (d : Dev) (bs : Bytes) (len flags : Nat) :
    segmentOf d bs 0 len flags =
      { dev := d, data := bs.take len, flags := flags + b2n ((bs.take len).length < bs.length) } := by
  simp [segmentOf]

/-- Of a value of more than 8 bytes from an Offset within it (R652). -/
theorem segmentOf_within (d : Dev) {bs : Bytes} {off : Nat} (len flags : Nat) (hoff : off ≤ bs.length) (h8 : 8 < bs.length) :
    segmentOf d bs off len flags =
      { dev := d, data := (bs.drop off).take len,
        flags := flags + b2n (off + ((bs.drop off).take len).length < bs.length) } := by
  unfold segmentOf
  rw [if_neg (by simp; omega)]

theorem four_add_b2n (p : Prop) [Decidable p] : 4 + b2n (decide p) = if p then 5 else 4 := by
  by_cases h : p <;> simp [h, b2n]

/-! ### Latches -/

/-- The unit with the latch of a latching access in place of the requester's earlier one (R45). -/
def Dev.latched (d : Dev) (e : Env) (i : Nat) : Dev :=
  { d with srv := { d.srv with
    latches := d.purgeLatches.srv.latches.filter (fun x => !sameSource x.who e) ++ [⟨requesterOf e, i, d.copyOf i, d.now⟩] } }

theorem Dev.latch_of_room (d : Dev) (e : Env) (i : Nat)
    (h : (d.purgeLatches.srv.latches.filter (fun x => !sameSource x.who e)).length < d.get 0x1101_02) :
    d.latch e i = some (d.latched e i, d.copyOf i) := by
  unfold Dev.latch
  dsimp only
  rw [if_neg (by change ¬ _ ≥ d.get 0x1101_02; omega)]
  rfl

theorem Dev.latched_holds (d : Dev) (e : Env) (i : Nat) :
    ∃ x ∈ (d.latched e i).srv.latches, x.who = requesterOf e ∧ x.index = i ∧ x.copy = d.copyOf i :=
  ⟨⟨requesterOf e, i, d.copyOf i, d.now⟩, by simp [Dev.latched], rfl, rfl, rfl⟩

end Sys2Proof.Machine
end

section
/-! SUPPORT. READ, READ_RECORD, IDENTIFY and RES_LATCH_READ (R42 to R45, R61, R62, R132, R652). -/

namespace Sys2Proof.Machine

open Sys2Proof

/-! ### The answers -/

section
variable (d : Dev) (e : Env) (i sub off len : Nat) {r : Row} (hserves : d.serves i = true) (hlen : len ≤ 1024)
  (hrow : d.cfg.rowOf i sub = some r) (hwo : r.acc ≠ .wo) (hcmd : r.acc ≠ .cmd) (hrefused : d.readRefused i = false)
include hserves hlen hrow hwo hcmd hrefused

/-- A scalar with no latch held answers from its present value. -/
theorem Dev.sdpRead_of_scalar (hblob : r.ty.isBlob = false) (hbusy : d.slotBusy i = false) (hlatch : d.latchOf e i = none) :
    d.sdpRead e i sub 0 len =
      { dev := d.readEffect i sub, data := (leBytes r.ty.size (d.value i sub)).take len,
        flags := b2n (((leBytes r.ty.size (d.value i sub)).take len).length < r.ty.size) } := by
  simp [Dev.sdpRead, hserves, hrow, Nat.not_lt.mpr hlen, hwo, hcmd, hrefused, hbusy, hblob, hlatch, d.wire_of_scalar,
    segmentOf_start, length_leBytes]

/-- A STR or DOMAIN from its start answers from a new copy (log 92). -/
theorem Dev.sdpRead_of_blob (hblob : r.ty.isBlob = true) (hbusy : d.slotBusy i = false)
    (hroom : (d.purgeLatches.srv.latches.filter (fun x => !sameSource x.who e)).length < d.get 0x1101_02) :
    d.sdpRead e i sub 0 len = segmentOf (d.latched e i) ((inCopy (d.copyOf i) sub).getD []) 0 len 4 := by
  simp [Dev.sdpRead, hserves, hrow, Nat.not_lt.mpr hlen, hwo, hcmd, hrefused, hbusy, hblob, d.latch_of_room e i hroom]

/-- At a later Offset with a latch held, the answer is from the copy. -/
theorem Dev.sdpRead_of_latched {x : LatchEnt} (hoff : off ≠ 0) (hlatch : d.latchOf e i = some x) :
    d.sdpRead e i sub off len = segmentOf (d.touchLatch e i) ((inCopy x.copy sub).getD []) off len 4 := by
  simp [Dev.sdpRead, hserves, hrow, Nat.not_lt.mpr hlen, hwo, hcmd, hrefused, hoff, hlatch]

end

/-- An aligned access of a scalar outside result objects on the local port (R61, R63). -/
theorem Dev.lpRead_of_scalar (d : Dev) (e : Env) (i sub off len : Nat) {r : Row} (huser : e.user = false)
    (hserves : d.serves i = true) (hrow : d.cfg.rowOf i sub = some r) (hwo : r.acc ≠ .wo) (hcmd : r.acc ≠ .cmd)
    (hblob : r.ty.isBlob = false) (hres : isRes d.cfg i = false) (hlen : len ∈ [1, 2, 4, 8]) (halign : off % len = 0)
    (hslot : off + len ≤ 8) :
    d.lpRead e i sub off len = { dev := d.readEffect i sub, data := bytesAt (leBytes r.ty.size (d.value i sub)) off len } := by
  have hpos : max len 1 = len := by
    simp only [List.mem_cons, List.not_mem_nil, or_false] at hlen
    omega
  have hin : [1, 2, 4, 8].contains len = true := by simpa using hlen
  simp only [Dev.lpRead, hserves, hrow, huser, hblob, hwo, hcmd, hres, hpos, halign, hin, Nat.not_lt.mpr hslot,
    d.wire_of_scalar i sub hblob]
  simp

/-- A local-port read of State of a result object latches a copy of it (R62). -/
theorem Dev.lpRead_of_state (d : Dev) (e : Env) (i : Nat) {r : Row} (huser : e.user = false) (hserves : d.serves i = true)
    (hrow : d.cfg.rowOf i 1 = some r) (hres : r.acc = .res) (hblob : r.ty.isBlob = false) :
    d.lpRead e i 1 0 1 =
      { dev := { d with srv := { d.srv with resLatch := some (i, d.copyOf i) } },
        data := bytesAt ((inCopy (d.copyOf i) 1).getD []) 0 1 } := by
  have hisRes : isRes d.cfg i = true := by simp [isRes, hrow, hres]
  simp [Dev.lpRead, hserves, hrow, huser, hblob, hres, hisRes]

section
variable (d : Dev) (e : Env) (i off len : Nat) (hserves : d.serves i = true) (hlen : len ≤ 1024)
  (hrefused : d.readRefused i = false) (hsubs : d.cfg.subsOf i ≠ [0])
include hserves hlen hrefused hsubs

/-- A READ_RECORD from Offset 0 answers from a new copy (R44). -/
theorem Dev.recordAns_of_start (hbusy : d.slotBusy i = false) (hvolt : isVolt i = false)
    (hroom : (d.purgeLatches.srv.latches.filter (fun x => !sameSource x.who e)).length < d.get 0x1101_02) :
    d.recordAns e i 0 len = segmentOf (d.latched e i) (recordData (d.copyOf i)) 0 len 4 := by
  simp [Dev.recordAns, hserves, Nat.not_lt.mpr hlen, hrefused, hsubs, hbusy, hvolt, d.latch_of_room e i hroom]

/-- A later READ_RECORD answers from the copy that the requester's latch holds. -/
theorem Dev.recordAns_of_latched {x : LatchEnt} (hoff : off ≠ 0) (hlatch : d.latchOf e i = some x)
    (hin : off ≤ (recordData x.copy).length) (h8 : 8 < (recordData x.copy).length) :
    d.recordAns e i off len =
      { dev := d.touchLatch e i, data := ((recordData x.copy).drop off).take len,
        flags := 4 + b2n (off + (((recordData x.copy).drop off).take len).length < (recordData x.copy).length) } := by
  have hrange : ¬ ((recordData x.copy).length < off ∨ (recordData x.copy).length ≤ 8) := by omega
  simp [Dev.recordAns, hserves, Nat.not_lt.mpr hlen, hrefused, hsubs, hoff, hlatch, hrange]

end

/-! ### The statements -/

/-- A request that reads an object is answered with what its execution gives on the unit as the read finds it (R47, R132). -/
theorem State.read_answers {s : State} {u : UnitId} {e : Env} {op i sub off : Nat} {P : Ans → Prop} (f : Dev → Ans)
    (hrun : s.runs u) (hh : ((s.unit u).runBefore e).hears e) (hp : P (f ((s.unit u).atRead e i))) :
    Answers (s.on u fun d => (d.runBefore e).serve e op i sub off fun d => f (d.scanFor i)) s u e op i sub off P :=
  State.serve_answers (fun d => d.runBefore e) hrun hh hp

/-- The local port is a transport of its own: its requests take no part in the replay store (R47). -/
theorem Dev.heard_of_lp (d : Dev) {e : Env} (h : e.via = .lp) : d.heard e = d := if_pos h

/-- Settles O2: one rule of `Dev.sdpRead` or `Dev.lpRead` per clause, on the unit as the read finds it. -/
theorem readReturnsTheBytesAsked : Obligations.ReadReturnsTheBytesAsked := by
  refine ⟨?_, ?_, ?_, ?_⟩
  · intro s u e i sub len r hrun hh hvia hserves hlen hrow hwo hcmd hblob hrefused hbusy hlatch
    have hans := ((s.unit u).atRead e i).sdpRead_of_scalar e i sub len hserves hlen hrow hwo hcmd hrefused hblob hbusy hlatch
    refine State.read_answers (fun d => d.readAns e i sub 0 len) hrun hh ?_
    rw [Dev.readAns, if_neg hvia, hans]
    exact ⟨rfl, rfl, rfl, by simp [b2n], rfl⟩
  · intro s u e i sub len r hrun hh hvia hserves hlen hrow hwo hcmd hblob hrefused hbusy hroom
    have hans := ((s.unit u).atRead e i).sdpRead_of_blob e i sub len hserves hlen hrow hwo hcmd hrefused hblob hbusy hroom
    refine State.read_answers (fun d => d.readAns e i sub 0 len) hrun hh ?_
    rw [Dev.readAns, if_neg hvia, hans, segmentOf_start]
    exact ⟨rfl, rfl, ⟨rfl, four_add_b2n _⟩, Dev.latched_holds _ e i, rfl⟩
  · intro s u e i sub off len r x hrun hh hvia hserves hlen hrow hwo hcmd hoff hrefused hlatch hin h8
    have hans := ((s.unit u).atRead e i).sdpRead_of_latched e i sub off len hserves hlen hrow hwo hcmd hrefused hoff hlatch
    refine State.read_answers (fun d => d.readAns e i sub off len) hrun hh ?_
    rw [Dev.readAns, if_neg hvia, hans, segmentOf_within _ _ _ hin h8]
    exact ⟨rfl, rfl, ⟨rfl, four_add_b2n _⟩, rfl⟩
  · intro s l e i sub off len r hrun hvia hh huser hserves hrow hwo hcmd hblob hres hlen halign hslot
    have hans := ((s.unit (.leaf l)).atRead e i).lpRead_of_scalar e i sub off len huser hserves hrow hwo hcmd hblob hres hlen
      halign hslot
    refine State.read_answers (fun d => d.readAns e i sub off len) hrun hh ?_
    rw [Dev.readAns, if_pos hvia, hans]
    exact ⟨rfl, rfl, rfl, rfl⟩

theorem Dev.identity_length (d : Dev) : d.identity.length = 15 := by simp [Dev.identity, length_leBytes]

theorem Dev.identity_heard (d : Dev) (e : Env) : (d.heard e).identity = d.identity := by
  unfold Dev.heard
  split <;> rfl

/-- Settles O4: one rule of `Dev.recordAns` or `Dev.lpRead` per clause, and the bytes of `Dev.identity`. -/
theorem recordsLatchesAndIdentity : Obligations.RecordsLatchesAndIdentity := by
  refine ⟨?_, ?_, ?_, ?_⟩
  · intro s u e i len hrun hh hserves hlen hrefused hbusy hvolt hsubs hroom
    have hans := ((s.unit u).atRead e i).recordAns_of_start e i len hserves hlen hrefused hsubs hbusy hvolt hroom
    refine State.read_answers (fun d => d.recordAns e i 0 len) hrun hh ?_
    rw [hans, segmentOf_start]
    exact ⟨rfl, rfl, four_add_b2n _, Dev.latched_holds _ e i, fun k _ => rfl⟩
  · intro s u e i off len x hrun hh hserves hlen hrefused hoff hsubs hlatch hin h8
    have hans := ((s.unit u).atRead e i).recordAns_of_latched e i off len hserves hlen hrefused hsubs hoff hlatch hin h8
    refine State.read_answers (fun d => d.recordAns e i off len) hrun hh ?_
    rw [hans]
    exact ⟨rfl, rfl, four_add_b2n _⟩
  · intro s u e hrun hh
    refine State.serve_answers id hrun hh ?_
    exact ⟨rfl, Dev.identity_length _, Dev.identity_heard _ e, rfl⟩
  · intro s l e i r hrun huser hbuild hserves hrow hres hblob
    have hh : (s.unit (.leaf l)).hears { e with via := .lp } :=
      ⟨rfl, by simp [Dev.takes, Dev.isTrunk, hbuild], fun h => absurd rfl h⟩
    have hans := (s.unit (.leaf l)).lpRead_of_state { e with via := .lp } i huser hserves hrow hres hblob
    refine State.serve_answers id hrun hh ?_
    rw [Dev.heard_of_lp _ rfl]
    simp only [id, hans]
    exact ⟨trivial, trivial, rfl, fun k _ => rfl⟩

end Sys2Proof.Machine
end

section
/-! SUPPORT. WRITE (R28): the settings whose chapters give a write no rule of its own, and what an answered command leaves of a
`StoreConfig` that waits (R31). -/

namespace Sys2Proof.Machine

open Sys2Proof

/-! ### A `StoreConfig` that waits -/

theorem Dev.Sends.storing {d d' : Dev} (h : d.Sends d') : d'.srv.storing = d.srv.storing := by
  rw [h.srv]

theorem Dev.beginCmd_storing (d : Dev) (k : Nat) : (d.beginCmd k).srv.storing = d.srv.storing := by
  unfold Dev.beginCmd
  split <;> rfl

theorem Dev.logAbort_storing (d : Dev) (e : Env) (i s off ab : Nat) : (d.logAbort e i s off ab).srv.storing = d.srv.storing := by
  unfold Dev.logAbort
  split <;> exact (Dev.Sends.violation _ _ _ _ _).storing

/-- The sending of an answer leaves a `StoreConfig` that waits as it is. -/
theorem Dev.finish_storing (d : Dev) (e : Env) (op i s off : Nat) (a : Ans) :
    (d.finish e op i s off a).srv.storing = a.dev.srv.storing := by
  have hdone : (if op = 0x02 && a.abort = 0 then a.dev.beginCmd (key i s) else a.dev).srv.storing = a.dev.srv.storing := by
    split
    · exact a.dev.beginCmd_storing _
    · rfl
  unfold Dev.finish
  dsimp only
  split
  · exact hdone
  · split
    · split
      · exact (Dev.Sends.emit _ _).storing.trans hdone
      · exact (Dev.Sends.emit _ _).storing.trans (Dev.logAbort_storing _ _ _ _ _ _)
    · refine (Dev.Sends.respond _ _ _ _ _).storing.trans ?_
      split
      · exact hdone
      · exact (Dev.logAbort_storing _ _ _ _ _ _).trans (congrArg Server.storing (Dev.inc_srv _ _))

theorem State.dev_withUnit_self (s : State) (u : UnitId) (d : Dev) :
    (s.withUnit u d).dev u = { d with cfg := (s.dev u).cfg } := s.dev_setDev_self _ u

/-- Where a leaf waits before a command or does not wait after it, the command sends its trunk nothing to store (R31). -/
theorem State.stored_of_idle {s t : State} {u : UnitId}
    (h : ∀ l, u = .leaf l → (s.dev u).srv.storing.isSome = true ∨ (t.dev u).srv.storing = none) :
    s.stored u (.next t) = .next t := by
  cases u with
  | trunk => rfl
  | leaf l =>
    unfold State.stored
    dsimp only
    rw [if_pos]
    rcases h l rfl with h | h <;> simp [h]

/-- A request whose execution leaves a `StoreConfig` that waits as it is sends the trunk nothing to store. -/
theorem Answers.stored {o : Host.Outcome State Fault Refusal} {s : State} {u : UnitId} {e : Env} {op i sub off : Nat}
    {P : Ans → Prop} (h : Answers o s u e op i sub off fun a => P a ∧ a.dev.srv.storing = (s.dev u).srv.storing) :
    Answers (s.stored u o) s u e op i sub off P := by
  obtain ⟨a, rfl, hp, hst⟩ := h
  refine ⟨a, State.stored_of_idle fun l _ => ?_, hp⟩
  rw [State.dev_withUnit_self]
  show _ ∨ (Dev.finish _ e op i sub off a).srv.storing = none
  rw [Dev.finish_storing, hst]
  cases (s.dev u).srv.storing <;> simp

@[simp] theorem Dev.heard_storing (d : Dev) (e : Env) : (d.heard e).srv.storing = d.srv.storing := by
  unfold Dev.heard
  split <;> rfl

/-! ### Plain settings -/

theorem Row.masked_le (r : Row) (v : Nat) : r.masked v ≤ v := by
  unfold Row.masked
  split
  · exact Nat.and_le_left
  · exact le_rfl

theorem Cfg.width_of_row {c : Cfg} {i s : Nat} {r : Row} (hs : s < 256) (h : c.rowOf i s = some r) :
    c.width (key i s) = 8 * r.ty.size := by
  have hi : key i s / 256 = i := by unfold key; omega
  have hs' : key i s % 256 = s := by unfold key; omega
  simp [Cfg.width, hi, hs', h]

/-- A scalar object takes a value of its type. -/
theorem Dev.get_set_of_row (d : Dev) {i s v : Nat} {r : Row} (hs : s < 256) (h : d.cfg.rowOf i s = some r)
    (hb : r.ty.isBlob = false) (hv : v < 2 ^ (8 * r.ty.size)) : (d.set (key i s) v).get (key i s) = v := by
  have h64 : (2 : Nat) ^ (8 * r.ty.size) ≤ 2 ^ 64 :=
    Nat.pow_le_pow_right (by decide) (by have := OType.size_le r.ty hb; omega)
  rw [Dev.get_set_self, Cfg.width_of_row hs h, Nat.mod_eq_of_lt hv, Nat.mod_eq_of_lt (hv.trans_le h64)]

/-- A property of every row of an index. -/
theorem row_of_index (c : Cfg) (i s : Nat) (p : Row → Bool) (r : Row)
    (h : (rowsOf (i / 256)).all (fun r => !(r.first ≤ i && i ≤ r.last) || p r) = true) (hr : c.rowOf i s = some r) :
    p r = true := by
  refine row_of_all c i s p r ?_ hr
  rw [List.all_eq_true] at h ⊢
  intro x hx
  have := h x hx
  simp only [Bool.or_eq_true, Bool.not_eq_true', Bool.and_eq_false_iff] at this ⊢
  tauto

/-- No row of TapHub, the inrush gate or power-fail handling is of a kind whose write has a rule of its own (R26, R39). -/
theorem plain_row {c : Cfg} {i s : Nat} {r : Row} (hi : i ∈ plainIndices) (h : c.rowOf i s = some r) :
    r.acc ≠ .rwc ∧ r.acc ≠ .wo ∧ r.ty.isBlob = false := by
  have hp : (r.acc != .rwc && r.acc != .wo && !r.ty.isBlob) = true := by
    simp only [plainIndices, List.mem_cons, List.not_mem_nil, or_false] at hi
    rcases hi with rfl | rfl | rfl
    · exact row_of_index c 0x2100 s (fun r => r.acc != .rwc && r.acc != .wo && !r.ty.isBlob) r (by decide) h
    · exact row_of_index c 0x2404 s (fun r => r.acc != .rwc && r.acc != .wo && !r.ty.isBlob) r (by decide) h
    · exact row_of_index c 0x2407 s (fun r => r.acc != .rwc && r.acc != .wo && !r.ty.isBlob) r (by decide) h
  simpa [and_assoc] using hp

/-- A write of a plain setting stores its value and does nothing besides. -/
theorem Dev.applyAny_of_plain (d : Dev) {i s : Nat} {r : Row} (v : Nat) (bs : Bytes) (hi : i ∈ plainIndices)
    (h : d.cfg.rowOf i s = some r) : d.applyAny i s v bs = d.store i s v := by
  obtain ⟨hrwc, hwo, -⟩ := plain_row hi h
  simp only [plainIndices, List.mem_cons, List.not_mem_nil, or_false] at hi
  have happ : d.applyAny i s v bs = d.applyObject i s v bs := if_neg (by omega)
  rw [happ]
  unfold Dev.applyObject
  simp only [h, if_neg hrwc, if_neg hwo]
  rcases hi with rfl | rfl | rfl <;> rfl

theorem Dev.applyWith_of_plain (d : Dev) (e : Env) {i s : Nat} {r : Row} (v : Nat) (bs : Bytes) (hi : i ∈ plainIndices)
    (h : d.cfg.rowOf i s = some r) : d.applyWith e i s v bs = d.store i s v := by
  rw [← d.applyAny_of_plain v bs hi h]
  simp only [plainIndices, List.mem_cons, List.not_mem_nil, or_false] at hi
  rcases hi with rfl | rfl | rfl <;> rfl

theorem Dev.set_onlyObjects (d : Dev) (k v : Nat) : d.onlyObjects (d.set k v) [k] :=
  ⟨rfl, fun j hj => d.get_set_of_ne j k v (by simpa using hj)⟩

/-- A whole WRITE of a plain setting reaches the object's store. -/
theorem Dev.writeTop_of_plain (d : Dev) (e : Env) {i s v : Nat} {r : Row} (hi : i ∈ plainIndices) (hserves : d.serves i = true)
    (huser : e.via = .lp → e.user = false) (hrow : d.cfg.rowOf i s = some r) (hacc : r.acc = .rw) (hadm : r.admits v = true)
    (hv : v < 2 ^ (8 * r.ty.size)) (hidle : d.cmdRuns r i s = false) :
    d.writeTop e i s 0 r.ty.size true (leBytes r.ty.size v) = d.store i s (r.masked v) := by
  obtain ⟨-, -, hblob⟩ := plain_row hi hrow
  have hstage : ¬ (i = 0x1802 ∧ s = 2) := by rintro ⟨rfl, -⟩; simp [plainIndices] at hi
  have hpair : ¬ ((0x1180 ≤ i ∧ i ≤ 0x1183) ∧ s = 3) := by
    simp only [plainIndices, List.mem_cons, List.not_mem_nil, or_false] at hi
    omega
  unfold Dev.writeTop
  rw [if_neg (by simpa using hstage),
    Dev.writeAns_of_row _ _ _ _ _ _ _ hserves huser hrow (by simp [hacc]) (by simp [hacc]) hblob hadm hv hidle]
  unfold Dev.applyWrite
  rw [if_neg (by simpa using hpair), d.applyWith_of_plain e _ _ hi hrow]

/-- Settles O3: the WRITE reaches the store of a plain setting, and a store is one `Dev.set`. -/
theorem writeStoresTheValue : Obligations.WriteStoresTheValue := by
  intro s u e i sub v r _ hrun hacc hrow hrw hi hsub
  obtain ⟨hh, hserves, huser, r', hr', -, -, hblob, hadm, hv, hidle⟩ := hacc
  obtain rfl : r' = r := Option.some.inj (hr'.symm.trans hrow)
  have hring : ¬ (0x4040 ≤ i ∧ i ≤ 0x407F) := by
    simp only [plainIndices, List.mem_cons, List.not_mem_nil, or_false] at hi
    omega
  have hans := ((s.unit u).heard e).writeTop_of_plain e (v := v) hi (by simpa using hserves) huser (by simpa using hrow) hrw hadm
    hv (by simpa using hidle)
  show Answers (execWrite u e i sub 0 r'.ty.size true (leBytes r'.ty.size v) s) s u e 0x02 i sub 0 _
  unfold execWrite
  rw [if_neg (by simp; omega)]
  refine Answers.stored (State.serve_answers id hrun hh ?_)
  simp only [id, hans]
  refine ⟨⟨rfl, rfl, Dev.get_set_of_row _ hsub (by simpa using hrow) hblob ((r'.masked_le v).trans_lt hv), ?_⟩, ?_⟩
  · exact Dev.set_onlyObjects _ _ _
  · exact Dev.heard_storing _ _

end Sys2Proof.Machine
end

section
/-! SUPPORT. Result objects (R34 to R39), subscriptions (R50) and acknowledgements. -/

namespace Sys2Proof.Machine

open Sys2Proof

/-! ### Result objects in the table -/

/-- The indices of the objects that sending a message can change. -/
def sendIndices : List Nat :=
  [0x1F80, 0x2108, 0x2901, 0x2902, 0x2903, 0x2904, 0x2905, 0x2906, 0x3108, 0x3109, 0x310A, 0x3128]

theorem sendKey_eq (k : Nat) : sendKey k = sendIndices.contains (k / 256) := rfl

/-- The row of a result object's State: what else stands at its indices has a Seq of 32 bits or more, and is nothing that sending a
message changes. -/
def Row.resOk (r : Row) (l : List Row) : Bool :=
  r.acc != .res || !(r.sub ≤ 1 && 1 ≤ r.subEnd) ||
    ((l.all fun q => !(q.sub ≤ 2 && 2 ≤ q.subEnd) || q.last < r.first || r.last < q.first || 4 ≤ q.ty.size) &&
     sendIndices.all fun j => j < r.first || r.last < j)

theorem rowsOf_resOk (h : Nat) : ((rowsOf h).all fun r => r.resOk (rowsOf h)) = true := by
  unfold rowsOf
  split <;> decide +kernel

theorem Cfg.rowOf_mem {c : Cfg} {i s : Nat} {r : Row} (h : c.rowOf i s = some r) :
    r ∈ rowsOf (i / 256) ∧ r.first ≤ i ∧ i ≤ r.last ∧ r.sub ≤ s ∧ s ≤ r.subEnd := by
  unfold Cfg.rowOf at h
  split at h
  · have hp := List.find?_some h
    simp only [Bool.and_eq_true, decide_eq_true_eq] at hp
    obtain ⟨⟨⟨⟨hfirst, hlast⟩, hsub⟩, hend⟩, -⟩ := hp
    exact ⟨List.mem_of_find?_eq_some h, hfirst, hlast, hsub, hend⟩
  · cases h

theorem isRes_row {c : Cfg} {i : Nat} (h : isRes c i = true) : ∃ r, c.rowOf i 1 = some r ∧ r.acc = .res := by
  unfold isRes at h
  cases hr : c.rowOf i 1 with
  | none => simp [hr] at h
  | some r => exact ⟨r, rfl, by simpa [hr] using h⟩

/-- What the table says of the index of a result object. -/
theorem isRes_index {c : Cfg} {i : Nat} (h : isRes c i = true) :
    (∀ q ∈ rowsOf (i / 256), q.first ≤ i → i ≤ q.last → q.sub ≤ 2 → 2 ≤ q.subEnd → 4 ≤ q.ty.size) ∧
    i ∉ sendIndices := by
  obtain ⟨r, hr, hacc⟩ := isRes_row h
  obtain ⟨hm, hfirst, hlast, hsub, hend⟩ := Cfg.rowOf_mem hr
  have hok := List.all_eq_true.mp (rowsOf_resOk (i / 256)) r hm
  simp only [Row.resOk, hacc, hsub, hend, decide_true, Bool.and_self, Bool.not_true, Bool.or_false,
    bne_self_eq_false, Bool.false_or, Bool.and_eq_true] at hok
  obtain ⟨hseq, hsend⟩ := hok
  refine ⟨fun q hq hqf hql hqs hqe => ?_, fun hi => ?_⟩
  · have := List.all_eq_true.mp hseq q hq
    simp only [hqs, hqe, decide_true, Bool.and_self, Bool.not_true, Bool.false_or, Bool.or_eq_true, decide_eq_true_eq] at this
    omega
  · have := List.all_eq_true.mp hsend i hi
    simp only [Bool.or_eq_true, decide_eq_true_eq] at this
    omega

theorem key_div {i s : Nat} (hs : s < 256) : key i s / 256 = i := by unfold key; omega

theorem key_mod {i s : Nat} (hs : s < 256) : key i s % 256 = s := by unfold key; omega

theorem key_inj {i s t : Nat} (h : key i s = key i t) : s = t := by unfold key at h; omega

theorem isRes_seq_width {c : Cfg} {i : Nat} (h : isRes c i = true) : 32 ≤ c.width (key i 2) := by
  obtain ⟨hseq, -⟩ := isRes_index h
  unfold Cfg.width
  rw [key_div (by decide), key_mod (by decide)]
  split
  · next q hq =>
    obtain ⟨hm, hfirst, hlast, hsub, hend⟩ := Cfg.rowOf_mem hq
    have := hseq q hm hfirst hlast hsub hend
    omega
  · decide

theorem isRes_not_sendKey {c : Cfg} {i s : Nat} (h : isRes c i = true) (hs : s < 256) : sendKey (key i s) = false := by
  obtain ⟨-, hsend⟩ := isRes_index h
  rw [sendKey_eq, key_div hs]
  simpa using hsend

/-! ### Completions -/

theorem nextSeq_lt (n : Nat) : nextSeq n < 2 ^ 32 := by
  unfold nextSeq
  split <;> omega

theorem Dev.get_set_of_width (d : Dev) {k v w : Nat} (hw : w ≤ d.cfg.width k) (hw' : w ≤ 64) (hv : v < 2 ^ w) :
    (d.set k v).get k = v := by
  have h1 : (2 : Nat) ^ w ≤ 2 ^ d.cfg.width k := Nat.pow_le_pow_right (by decide) hw
  have h2 : (2 : Nat) ^ w ≤ 2 ^ 64 := Nat.pow_le_pow_right (by decide) hw'
  rw [Dev.get_set_self, Nat.mod_eq_of_lt (hv.trans_le h1), Nat.mod_eq_of_lt (hv.trans_le h2)]

/-- A result that completes reads the next Seq (R38). -/
theorem Dev.get_complete_seq (d : Dev) {i : Nat} {p : List (Nat × Nat)} (hw : 32 ≤ d.cfg.width (key i 2))
    (hsend : sendKey (key i 2) = false) (hp : ∀ x ∈ p, 4 ≤ x.1) :
    (d.complete i p).get (key i 2) = nextSeq (d.get (key i 2)) := by
  have hpay : (p.foldl (fun (d : Dev) x => d.set (key i x.1) x.2) d).get (key i 2) = d.get (key i 2) :=
    Dev.get_setAll_of_ne _ _ _ _ fun x hx h => by have := hp x hx; have := key_inj h; omega
  have hcfg : (p.foldl (fun (d : Dev) x => d.set (key i x.1) x.2) d).cfg = d.cfg := by rw [Dev.setAll_objs]
  unfold Dev.complete
  rw [(Dev.Sends.notify _ i).get _ hsend]
  unfold Dev.completeRes
  dsimp only
  rw [Dev.get_set_of_ne _ _ _ _ (fun h => by cases key_inj h), Dev.get_set_of_ne _ _ _ _ (fun h => by cases key_inj h),
    Dev.get_set_of_width _ (by rw [hcfg]; exact hw) (by decide) (nextSeq_lt _), hpay]

theorem Dev.setBlobs_eq (i : Nat) (l : List (Nat × Bytes)) (d : Dev) :
    l.foldl (fun (d : Dev) (x : Nat × Bytes) => d.setBlob (key i x.1) x.2) d =
      { d with blobs := (l.foldl (fun (d : Dev) (x : Nat × Bytes) => d.setBlob (key i x.1) x.2) d).blobs } := by
  induction l generalizing d with
  | nil => rfl
  | cons a l ih => simp only [List.foldl_cons]; rw [ih]; rfl

/-- So does one whose payload holds DOMAIN values. -/
theorem Dev.get_completeWith_seq (d : Dev) {i : Nat} {p : List (Nat × Nat)} (bl : List (Nat × Bytes))
    (hw : 32 ≤ d.cfg.width (key i 2)) (hsend : sendKey (key i 2) = false) (hp : ∀ x ∈ p, 4 ≤ x.1) :
    (d.completeWith i bl p).get (key i 2) = nextSeq (d.get (key i 2)) := by
  show (Dev.complete (bl.foldl (fun (d : Dev) (x : Nat × Bytes) => d.setBlob (key i x.1) x.2) d) i p).get _ = _
  rw [Dev.setBlobs_eq]
  exact Dev.get_complete_seq _ hw hsend hp

/-- A test that is reclaimed completes LastResult (R578; log 76). -/
theorem Dev.get_endTest_reclaimed (d : Dev) (observed : Nat) (h : d.ftest.run.isSome = true) :
    (d.endTest .reclaimed observed).get 0x4405_02 = nextSeq (d.get 0x4405_02) := by
  obtain ⟨x, hx⟩ := Option.isSome_iff_exists.mp h
  unfold Dev.endTest
  simp only [hx, TestEnd.failure, TestEnd.verdict, reduceCtorEq, decide_false, Bool.or_false, Bool.false_and, if_false,
    Bool.false_eq_true]
  refine (Dev.get_complete_seq (i := 0x4405) _ ((by decide : 32 ≤ minWidth 0x4405_02).trans (minWidth_le _ _)) rfl
    (by simp)).trans ?_
  refine congrArg nextSeq ?_
  show (Dev.inc _ _).get 0x4405_02 = _
  rw [Dev.get_inc_of_ne _ _ _ (by decide)]
  exact Dev.get_set_of_ne _ _ _ _ (by decide)

theorem Dev.get_flagIf_of_ne (d : Dev) (c : Bool) (j i b : Nat) (h : j ≠ key i 0) (h2 : j ≠ key (i + 1) (b + 1))
    (h3 : j ≠ key 0x2108 0x22) : (d.flagIf c i b).get j = d.get j := by
  unfold Dev.flagIf
  split
  · exact Dev.get_flag_of_ne _ _ _ _ h h2 h3
  · rfl

/-- A record that joins the signature log completes LastSignature (R593). -/
theorem Dev.get_appendSignature_seq (d : Dev) (b : Bytes) :
    (d.appendSignature b).get 0x4431_02 = nextSeq (d.get 0x4431_02) := by
  unfold Dev.appendSignature
  dsimp only
  refine (Dev.get_completeWith_seq (i := 0x4431) _ _ ((by decide : 32 ≤ minWidth 0x4431_02).trans (minWidth_le _ _)) rfl
    (by simp)).trans ?_
  refine congrArg nextSeq ?_
  show (Dev.flagIf _ _ _ _).get 0x4431_02 = _
  rw [Dev.get_flagIf_of_ne _ _ _ _ _ (by decide) (by decide) (by decide), Dev.get_inc_of_ne _ _ _ (by decide)]
  rfl

/-! ### Subscriptions -/

@[simp] theorem Dev.heard_subs (d : Dev) (e : Env) : (d.heard e).srv.subs = d.srv.subs := by
  unfold Dev.heard
  split <;> rfl

theorem Dev.subCheck_of_res (d : Dev) {i : Nat} (r : Ans) (hserves : d.serves i = true) (hres : isRes d.cfg i = true) :
    d.subCheck i 0 r = r := by
  simp [Dev.subCheck, hserves, hres]

/-- The answer to a SUBSCRIBE of a result object: held already, with room left, or with none (R50). -/
theorem Dev.subscribeAns_cases (d : Dev) (e : Env) (i : Nat) (hserves : d.serves i = true) (hres : isRes d.cfg i = true) :
    (d.srv.subs.any (holdsSub e i) = true ∧ (d.subscribeAns e i 0).abort = 0 ∧
      (d.subscribeAns e i 0).dev.srv.subs.length = d.srv.subs.length) ∨
    (d.srv.subs.any (holdsSub e i) = false ∧ d.srv.subs.length < d.get 0x1101_03 ∧ d.subscribeAns e i 0 =
      ok { d with srv := { d.srv with subs := d.srv.subs ++ [⟨requesterOf e, e.segment, i, e.txn, e.mac⟩] } }) ∨
    (d.srv.subs.any (holdsSub e i) = false ∧ ¬ d.srv.subs.length < d.get 0x1101_03 ∧
      d.subscribeAns e i 0 = fail d .busy) := by
  unfold Dev.subscribeAns
  rw [d.subCheck_of_res _ hserves hres]
  cases hheld : d.srv.subs.any (holdsSub e i) with
  | true => exact .inl ⟨rfl, rfl, by simp [ok]⟩
  | false =>
    by_cases hroom : d.srv.subs.length < d.get 0x1101_03
    · exact .inr (.inl ⟨rfl, hroom, by rw [if_neg (by simp), if_neg (by omega)]⟩)
    · exact .inr (.inr ⟨rfl, hroom, by rw [if_neg (by simp), if_pos (by omega)]⟩)

/-- Settles O5: the cases of `Dev.subscribeAns`, the filter of UNSUBSCRIBE, the guard of ACK, and the Seq that every completion
reads. -/
theorem subscriptionsCompletionsAndAcks : Obligations.SubscriptionsCompletionsAndAcks := by
  refine ⟨?_, ?_, ?_, ?_, ?_, ?_⟩
  · intro s u e i hrun hh hserves hres
    refine State.serve_answers id hrun hh ?_
    have hcases := ((s.unit u).heard e).subscribeAns_cases e i (by simpa using hserves) (by simpa using hres)
    simp only [Dev.heard_subs, Dev.heard_get, State.unit_get, State.unit_srv] at hcases
    rcases hcases with ⟨hheld, hab, hlen⟩ | ⟨hheld, hroom, hans⟩ | ⟨hheld, hroom, hans⟩
    · rw [if_pos hheld]
      exact ⟨hab, hlen⟩
    · rw [if_neg (by simp [hheld]), if_pos hroom]
      simp only [id, hans]
      exact ⟨rfl, rfl, rfl⟩
    · rw [if_neg (by simp [hheld]), if_neg hroom]
      simp only [id, hans]
      exact ⟨rfl, rfl⟩
  · intro s u e i hrun hh hserves hres
    refine State.serve_answers id hrun hh ?_
    dsimp only [id]
    rw [Dev.subCheck_of_res _ _ (by simpa using hserves) (by simpa using hres)]
    refine ⟨rfl, fun x hx => ?_, fun x hx hne => ?_, rfl⟩
    · simpa using (List.mem_filter.mp hx).2
    · exact List.mem_filter.mpr ⟨by simpa using hx, by simp [hne]⟩
  · intro s u e i seq hrun _ hacc hrow
    obtain ⟨-, -, -, r, hr, -, -, hblob, -, hv, -⟩ := id hacc
    obtain ⟨hrng, -⟩ := hrow r hr
    refine State.serveWrite_answers id hrun hacc (by decide) hr ?_
    have hmask : r.masked seq = seq := by simp [Row.masked, hrng]
    simp only [id, hmask, Dev.ackAns, guardAns, Dev.heard_get, State.unit_get, decide_eq_true_eq]
    by_cases hseq : seq = (s.dev u).get (key i 2)
    · rw [if_pos hseq, if_pos hseq]
      exact ⟨rfl, Dev.get_set_of_row _ (by decide) (by simpa using hr) hblob hv, Dev.set_onlyObjects _ _ _⟩
    · rw [if_neg hseq, if_neg hseq]
      exact ⟨rfl, rfl⟩
  · intro d i p bl _ hres hp
    have hp' : ∀ x ∈ p, 4 ≤ x.1 := fun x hx => (hp x hx).1
    exact ⟨d.get_complete_seq (isRes_seq_width hres) (isRes_not_sendKey hres (by decide)) hp',
      d.get_completeWith_seq bl (isRes_seq_width hres) (isRes_not_sendKey hres (by decide)) hp'⟩
  · intro s l _ hrun hrunning
    unfold exec execFtReclaim State.onLeaf
    refine s.on_yields _ _ _ hrun ?_
    exact (s.unit (.leaf l)).get_endTest_reclaimed _ hrunning
  · intro s p b _ hrun hp hgood
    unfold exec execVsfRecord State.onTrunk
    refine s.on_yields _ _ _ hrun ?_
    dsimp only
    rw [if_neg (by omega), if_pos hgood]
    exact (s.unit .trunk).get_appendSignature_seq b

end Sys2Proof.Machine
end

section
/-! SUPPORT. Messages that are not executed (R41, R45, R47, R65, R66, R650, R651). -/

namespace Sys2Proof.Machine

open Sys2Proof

/-! ### Violations and counts -/

/-- A property of the width of a 32-bit object of every build. -/
theorem width_of_rows (c : Cfg) (k : Nat) (h : (rowsOf (k / 256 / 256)).all (fun r =>
    !(r.first ≤ k / 256 && k / 256 ≤ r.last && r.sub ≤ k % 256 && k % 256 ≤ r.subEnd) || r.ty.size == 4) = true)
    (hrow : (c.rowOf (k / 256) (k % 256)).isSome = true) : c.width k = 32 := by
  obtain ⟨r, hr⟩ := Option.isSome_iff_exists.mp hrow
  have := row_of_all c _ _ (fun r => r.ty.size == 4) r h hr
  simp only [beq_iff_eq] at this
  simp [Cfg.width, hr, this]

/-- The violation count of every unit has 32 bits. -/
theorem width_violations (c : Cfg) : c.width 0x1F80_01 = 32 := by
  refine width_of_rows c _ (by decide) ?_
  cases hb : c.build <;> simp [Cfg.rowOf, Cfg.present, rowsOf, rows1F, row, hb, Builds.has]

/-- A violation counts one more (R66). -/
theorem Dev.get_violation_count (d : Dev) (a b c t : Nat) :
    (d.violation a b c t).get 0x1F80_01 = (d.get 0x1F80_01 + 1) % 2 ^ 32 := by
  unfold Dev.violation
  dsimp only
  rw [Dev.get_always_of_ne _ _ _ _ (by decide), Dev.get_set_of_ne _ _ _ _ (by decide), Dev.get_set_of_ne _ _ _ _ (by decide)]
  show (d.addMod 0x1F80_01 1).get 0x1F80_01 = _
  rw [Dev.addMod, Dev.get_set_self, width_violations]
  exact Nat.mod_eq_of_lt (by omega)

/-- A violation changes its own objects and the always-on count of violations (R66, R149). -/
theorem Dev.violation_kept (d : Dev) (a b c t : Nat) :
    d.objectsKept (d.violation a b c t) [0x1F80_01, 0x1F80_02, 0x1F80_03, 0x2108_21] := by
  intro k hk
  simp only [List.mem_cons, List.not_mem_nil, or_false, not_or] at hk
  obtain ⟨h1, h2, h3, h4⟩ := hk
  unfold Dev.violation
  dsimp only
  rw [Dev.get_always_of_ne _ _ _ _ h4, Dev.get_set_of_ne _ _ _ _ h2, Dev.get_set_of_ne _ _ _ _ h3]
  exact Dev.get_set_of_ne _ _ _ _ h1

theorem Dev.violation_eq (d : Dev) (a b c t : Nat) :
    d.violation a b c t = { d with objs := (d.violation a b c t).objs, srv := (d.violation a b c t).srv } := by
  have always (d : Dev) (sub n : Nat) : d.always sub n = { d with objs := (d.always sub n).objs } := by
    unfold Dev.always
    split <;> rfl
  unfold Dev.violation
  extract_lets
  rw [always]
  rfl

theorem Dev.add_eq (d : Dev) (k n : Nat) : d.add k n = { d with objs := (d.add k n).objs } := by
  unfold Dev.add
  dsimp only
  split <;> rfl

theorem Dev.inc_onlyObjects (d : Dev) (k : Nat) : d.onlyObjects (d.inc k) [k] := by
  refine ⟨?_, fun j hj => d.get_inc_of_ne j k (by simpa using hj)⟩
  rw [Dev.inc, d.add_eq]

/-! ### Responses -/

theorem Dev.testBit_get_set (d : Dev) {k v b : Nat} (hb : b < d.cfg.width k) (hb' : b < 64) :
    ((d.set k v).get k).testBit b = v.testBit b := by
  rw [Dev.get_set_self, Nat.testBit_mod_two_pow, Nat.testBit_mod_two_pow]
  simp [hb, hb']

/-- DropsSeen of a service segment holds the bits of its 16 drops. -/
theorem width_dropsSeen (c : Cfg) {g : Nat} (hg : g < 16) : 32 ≤ c.width (key (0x1110 + g) 4) := by
  refine le_trans ?_ (minWidth_le c _)
  interval_cases g <;> decide

/-- A drop's answer to IDENTIFY sets its bit of DropsSeen and changes no other object (R54; log 93). -/
theorem Dev.dropSeen_spec (d : Dev) {g n : Nat} (ht : d.isTrunk = true) (hg : g < 16) (hn : 1 ≤ n) (hn' : n ≤ 16) :
    ((d.dropSeen (some (g, n))).get (key (0x1110 + g) 4)).testBit n = true ∧
      d.onlyObjects (d.dropSeen (some (g, n))) [key (0x1110 + g) 4] := by
  have heq : d.dropSeen (some (g, n)) = d.set (key (0x1110 + g) 4) (setBit (d.get (key (0x1110 + g) 4)) n) := by
    simp [Dev.dropSeen, ht, hg, hn, hn']
  have hw := width_dropsSeen d.cfg hg
  rw [heq]
  refine ⟨?_, d.set_onlyObjects _ _⟩
  rw [Dev.testBit_get_set _ (by omega) (by omega), testBit_setBit, if_pos rfl]

theorem Dev.dropSeen_srv (d : Dev) (drop : Option (Nat × Nat)) : (d.dropSeen drop).srv = d.srv := by
  unfold Dev.dropSeen
  split
  · dsimp only; split <;> rfl
  · rfl

/-- A change of objects after one of the server, the server left aside. -/
theorem Dev.onlyObjects.ofServer {d d' : Dev} {x : Server} {ks : List Nat} (h : Dev.onlyObjects { d with srv := x } d' ks) :
    d.onlyObjects { d' with srv := d.srv } ks := by
  obtain ⟨heq, hkept⟩ := h
  refine ⟨?_, hkept⟩
  conv_lhs => rw [heq]

/-! ### The commands -/

/-- SHORT_MESSAGE_DISCARD (R650). -/
theorem execShortMessageDiscard_yields (s : State) (u : UnitId) (bs : Bytes) (hrun : s.runs u) (hshort : bs.length < 24) :
    Yields (exec (.shortMessageDiscard u bs) s) s u fun d =>
      d.get 0x1F80_01 = ((s.dev u).get 0x1F80_01 + 1) % 2 ^ 32 ∧ d.out = [] ∧
      (s.unit u).objectsKept d [0x1F80_01, 0x1F80_02, 0x1F80_03, 0x2108_21] ∧
      d = { s.unit u with objs := d.objs, srv := d.srv } := by
  show Yields (execShortMessageDiscard u bs s) s u _
  unfold execShortMessageDiscard
  refine s.on_yields _ _ _ hrun ?_
  simp only [if_pos hshort]
  exact ⟨Dev.get_violation_count _ _ _ _ _, Dev.violation_out _ _ _ _ _, Dev.violation_kept _ _ _ _ _,
    Dev.violation_eq _ _ _ _ _⟩

/-- MISADDRESSED (R651). -/
theorem execMisaddressed_yields (s : State) (u : UnitId) (e : Env) (hrun : s.runs u)
    (hroom : (s.dev u).get 0x1101_07 + 1 < 2 ^ 32) :
    Yields (exec (.misaddressed u e) s) s u fun d =>
      if e.via ≠ .lp ∧ (s.unit u).hearsFrame e = true ∧ (s.unit u).takes e = false ∧ (s.unit u).passesOn e = false then
        d.get 0x1101_07 = (s.dev u).get 0x1101_07 + 1 ∧ d.out = [] ∧ d.lines = [] ∧ (s.unit u).onlyObjects d [0x1101_07]
      else d = s.unit u := by
  show Yields (execMisaddressed u e s) s u _
  unfold execMisaddressed
  refine s.on_yields _ _ _ hrun ?_
  by_cases h : e.via ≠ .lp ∧ (s.unit u).hearsFrame e = true ∧ (s.unit u).takes e = false ∧ (s.unit u).passesOn e = false
  · obtain ⟨hvia, hframe, htakes, hpass⟩ := id h
    rw [if_pos h]
    simp only [hvia, hframe, htakes, hpass, decide_false, Bool.not_true, Bool.or_false, Bool.false_eq_true, if_false]
    exact ⟨Dev.get_inc_self _ _ hroom, Dev.inc_out _ _, Dev.inc_lines _ _, Dev.inc_onlyObjects _ _⟩
  · rw [if_neg h, if_pos]
    simp only [Bool.or_eq_true, decide_eq_true_eq, Bool.not_eq_true']
    by_contra hc
    simp only [not_or, Bool.not_eq_true, Bool.not_eq_false] at hc
    obtain ⟨⟨⟨hvia, hframe⟩, htakes⟩, hpass⟩ := hc
    exact h ⟨hvia, hframe, htakes, hpass⟩

/-- UNLISTED_OPCODE (R41). -/
theorem execUnlistedOpcode_answers (s : State) (u : UnitId) (e : Env) (op i sub : Nat) (hrun : s.runs u)
    (hh : (s.unit u).hears e) (hop : op < 0x80) (hlist : op ∉ [1, 2, 3, 4, 5, 6]) :
    Answers (exec (.unlistedOpcode u e op i sub) s) s u e op i sub 0 fun a =>
      a.abort = 0x06 ∧ a.data = [] ∧ a.dev = (s.unit u).heard e := by
  have hlisted : ¬ (op ≥ 0x80 ∨ (1 ≤ op ∧ op ≤ 6)) := by
    simp only [List.mem_cons, List.not_mem_nil, or_false] at hlist
    omega
  show Answers (execUnlistedOpcode u e op i sub s) s u e op i sub 0 _
  unfold execUnlistedOpcode
  refine ⟨fail ((s.unit u).heard e) .range, ?_, rfl, rfl, rfl⟩
  rw [State.on_runs _ _ _ hrun, if_neg (by simpa using hlisted), Dev.serve_of_hears _ _ _ _ _ _ _ hh]

/-- SDP_RESPONSE (R41, R650; log 93). -/
theorem execSdpResponse_yields (s : State) (u : UnitId) (op txn src i len ab : Nat) (bs : Bytes) (drop : Option (Nat × Nat))
    (hrun : s.runs u) :
    Yields (exec (.sdpResponse u op txn src i len ab bs drop) s) s u fun d =>
      if bs.length < len ∨ op < 0x80 then d = s.unit u
      else match (s.dev u).srv.asked.find? (·.answeredBy op txn src drop) with
      | some x =>
        (∃ r, d.srv.received = [r] ∧ r.opcode = op ∧ r.txn = txn ∧ r.source = src ∧ r.abort = ab ∧ r.data = bs.take len) ∧
        d.srv.asked = (s.dev u).srv.asked.erase x ∧
        (ab = 0 → x.opcode ≠ 2 → ((x.dest, x.index, x.sub), bs.take len) ∈ d.srv.known) ∧
        d = { s.unit u with srv := { (s.dev u).srv with received := d.srv.received, asked := d.srv.asked, known := d.srv.known } }
      | none =>
        if (s.unit u).identified op i len ab drop = true then
          (∃ r, d.srv.received = [r] ∧ r.opcode = op ∧ r.txn = txn ∧ r.data = bs.take len) ∧
          ∀ g n, drop = some (g, n) → g < 16 → 1 ≤ n → n ≤ 16 → (d.get (key (0x1110 + g) 4)).testBit n = true ∧
            (s.unit u).onlyObjects { d with srv := (s.unit u).srv } [key (0x1110 + g) 4]
        else d = s.unit u := by
  show Yields (execSdpResponse u op txn src i len ab bs drop s) s u _
  unfold execSdpResponse
  refine s.on_yields _ _ _ hrun ?_
  by_cases hshort : bs.length < len ∨ op < 0x80
  · rw [if_pos hshort, if_pos (by simpa using hshort)]
  rw [if_neg hshort, if_neg (by simpa using hshort)]
  simp only [State.unit_srv]
  cases hask : (s.dev u).srv.asked.find? (·.answeredBy op txn src drop) with
  | some x =>
    refine ⟨⟨_, rfl, rfl, rfl, rfl, rfl, rfl⟩, rfl, fun hab hx => ?_, rfl⟩
    dsimp only
    rw [if_neg hx, if_pos hab]
    exact List.mem_append_right _ (List.mem_singleton.mpr rfl)
  | none =>
    dsimp only
    by_cases hid : (s.unit u).identified op i len ab drop = true
    · rw [if_pos hid, if_pos hid]
      have htrunk (x : Server) : Dev.isTrunk { s.unit u with srv := x } = true := by
        simp only [Dev.identified, Bool.and_eq_true] at hid
        exact hid.1.1.1.1.1
      refine ⟨⟨_, congrArg Server.received (Dev.dropSeen_srv _ _), rfl, rfl, rfl⟩, fun g n hdrop hg hn hn' => ?_⟩
      subst hdrop
      exact And.imp_right Dev.onlyObjects.ofServer (Dev.dropSeen_spec _ (htrunk _) hg hn hn')
    · rw [if_neg hid, if_neg hid]

/-- LATCH_RELEASE (R45). -/
theorem execLatchRelease_yields (s : State) (u : UnitId) (hrun : s.runs u) :
    Yields (exec (.latchRelease u) s) s u fun d =>
      (∀ x, x ∈ d.srv.latches ↔ x ∈ (s.dev u).srv.latches ∧ (s.dev u).time.ns < x.lastUse + 1000000000) ∧
      d = { s.unit u with srv := d.srv } := by
  show Yields (execLatchRelease u s) s u _
  unfold execLatchRelease
  refine s.on_yields _ _ _ hrun ⟨fun x => ?_, rfl⟩
  show x ∈ List.filter _ _ ↔ _
  rw [List.mem_filter, decide_eq_true_iff]
  rfl

/-- REPLAY_ENTRY_FREE (R47). -/
theorem execReplayEntryFree_yields (s : State) (u : UnitId) (hrun : s.runs u) :
    Yields (exec (.replayEntryFree u) s) s u fun d =>
      (∀ x ∈ d.srv.replay, (s.dev u).time.ns < x.last + 2000000000) ∧
      (∀ x ∈ (s.dev u).srv.replay, (s.dev u).time.ns < x.last + 2000000000 →
        ∃ y ∈ d.srv.replay, y.who = x.who ∧ y.last = x.last) ∧
      d = { s.unit u with srv := d.srv } := by
  show Yields (execReplayEntryFree u s) s u _
  unfold execReplayEntryFree
  refine s.on_yields _ _ _ hrun ⟨fun x hx => ?_, fun x hx hlive => ?_, rfl⟩
  · obtain ⟨y, hy, rfl⟩ := List.mem_map.mp hx
    exact of_decide_eq_true (List.mem_filter.mp hy).2
  · exact ⟨_, List.mem_map.mpr ⟨x, List.mem_filter.mpr ⟨hx, decide_eq_true hlive⟩, rfl⟩, rfl, rfl⟩

/-- Settles O6: one rule per command. -/
theorem messagesThatAreNotExecuted : Obligations.MessagesThatAreNotExecuted :=
  ⟨execShortMessageDiscard_yields, execMisaddressed_yields, execUnlistedOpcode_answers, execSdpResponse_yields,
    execLatchRelease_yields, execReplayEntryFree_yields⟩

end Sys2Proof.Machine
end

section
/-! SUPPORT. The fields of an SDP message in its bytes, and of the FENCED response to one (R40, R57, R414). -/

namespace Sys2Proof.Machine

open Sys2Proof

/-! ### Numbers in byte strings -/

theorem leNat_leBytes_mod (n v : Nat) : leNat (leBytes n v) = v % 256 ^ n := by
  induction n generalizing v with
  | zero => simp [leBytes, leNat, Nat.mod_one]
  | succ n ih =>
    have hsplit : v % (256 * 256 ^ n) = v % 256 + 256 * (v / 256 % 256 ^ n) := Nat.mod_mul
    rw [leBytes, leNat, ih, BitVec.toNat_ofNat, show 256 ^ (n + 1) = 256 * 256 ^ n from Nat.pow_succ', hsplit]

/-- The number at an offset behind leading bytes is one of the rest. -/
theorem natAt_skip {a : Bytes} (b : Bytes) {n : Nat} (k : Nat) (h : a.length ≤ n) :
    natAt (a ++ b) n k = natAt b (n - a.length) k := by
  simp [natAt, bytesAt, List.drop_append, List.drop_eq_nil_of_le h]

/-- The number that leading bytes spell. -/
theorem natAt_prefix (a b : Bytes) {k : Nat} (h : a.length = k) : natAt (a ++ b) 0 k = leNat a := by
  rw [natAt, bytesAt_append_left a b k h]

theorem natAt_leBytes (k v : Nat) (b : Bytes) : natAt (leBytes k v ++ b) 0 k = v % 256 ^ k := by
  rw [natAt_prefix _ _ (length_leBytes k v), leNat_leBytes_mod]

theorem natAt_bytesAt (bs b : Bytes) (off k : Nat) : natAt (bytesAt bs off k ++ b) 0 k = natAt bs off k :=
  natAt_prefix _ _ (bytesAt_length bs off k)

theorem length_zeros (n : Nat) : (zeros n).length = n := List.length_replicate

/-! ### The header of an SDP message -/

section
variable (r : Resp)

theorem sdpBytes_opcode : natAt (sdpBytes r) 1 1 = r.opcode % 256 := by
  simp [sdpBytes, natAt_skip, natAt_leBytes, length_leBytes]

theorem sdpBytes_txn : natAt (sdpBytes r) 2 2 = r.txn % 2 ^ 16 := by
  simp [sdpBytes, natAt_skip, natAt_leBytes, length_leBytes]

theorem sdpBytes_dest : natAt (sdpBytes r) 4 4 = r.dest % 2 ^ 32 := by
  simp [sdpBytes, natAt_skip, natAt_leBytes, length_leBytes]

theorem sdpBytes_source : natAt (sdpBytes r) 8 4 = r.source % 2 ^ 32 := by
  simp [sdpBytes, natAt_skip, natAt_leBytes, length_leBytes]

end

/-! ### The response FENCED -/

section
variable (req : Bytes)

/-- FENCED answers under the TxnId of the request. -/
theorem respFrom_fenced_txn : (respFrom (fencedBytes req)).txn = natAt req 2 2 := by
  show natAt (fencedBytes req) 2 2 = _
  simp [fencedBytes, natAt_skip, natAt_bytesAt, length_leBytes]

/-- FENCED goes to the Source of the request. -/
theorem respFrom_fenced_dest : (respFrom (fencedBytes req)).dest = natAt req 8 4 := by
  show natAt (fencedBytes req) 4 4 = _
  simp [fencedBytes, natAt_skip, natAt_bytesAt, length_leBytes]

theorem respFrom_fenced_abort : (respFrom (fencedBytes req)).abort = 0x08 := by
  show natAt (fencedBytes req) 22 1 = _
  simp [fencedBytes, natAt_skip, natAt_leBytes, length_leBytes, length_zeros]

end

end Sys2Proof.Machine
end

section
/-! SUPPORT. The proxy of a trunk (R56 to R59, R412): PROXY_REQUEST, PROXY_RESPONSE and PROXY_SLOT_TIMEOUT. -/

namespace Sys2Proof.Machine

open Sys2Proof

/-! ### Sending to a leaf of the trunk -/

/-- May a message of a partition go to the leaf on a Stem port (R412)? -/
def Dev.mayReach (d : Dev) (n partition : Nat) : Prop := partition = 0 ∨ d.stemPartition n = partition

/-- A message that the partition may deliver goes into the queue of the leaf's Stem port (R57, R412). -/
theorem Dev.sendSdp_of_mayReach (d : Dev) {dest p : Nat} {r : Resp} (hown : addrTrunk dest = d.get 0x3100_01)
    (hbit : dest.testBit 20 = false) (hdest : r.dest = dest) (hlt : dest < 2 ^ 32) (hreach : d.mayReach (dest % 256) p) :
    d.sendSdp dest p (sdpBytes r) = d.toLeaf (dest % 256) 0x03 (sdpBytes r) := by
  unfold Dev.sendSdp
  dsimp only
  rw [if_pos hown, if_neg (by simp [hbit])]
  unfold Dev.toLeafSdp
  dsimp only
  rw [sdpBytes_dest, hdest, Nat.mod_eq_of_lt hlt, if_neg]
  rcases hreach with h | h <;> simp [h]

/-- One that it may not deliver is fenced. -/
theorem Dev.sendSdp_of_barred (d : Dev) {dest p : Nat} {r : Resp} (hown : addrTrunk dest = d.get 0x3100_01)
    (hbit : dest.testBit 20 = false) (hdest : r.dest = dest) (hlt : dest < 2 ^ 32) (hbar : ¬ d.mayReach (dest % 256) p) :
    d.sendSdp dest p (sdpBytes r) =
      d.fenced .stemDelivery (dest % 256) (sdpPMsg (d.get 0x3100_01) (addrTrunk dest) p (sdpBytes r)) := by
  unfold Dev.mayReach at hbar
  unfold Dev.sendSdp
  dsimp only
  rw [if_pos hown, if_neg (by simp [hbit])]
  unfold Dev.toLeafSdp
  dsimp only
  rw [sdpBytes_dest, hdest, Nat.mod_eq_of_lt hlt, if_pos]
  simp only [not_or] at hbar
  simp [hbar]

/-! ### Fenced requests -/

@[simp] theorem Dev.fenceLog_slots (d : Dev) (f : Fence) (a t : Nat) : (d.fenceLog f a t).srv.slots = d.srv.slots := by
  unfold Dev.fenceLog Dev.violation
  simp

@[simp] theorem Dev.sendProxied_srv (d : Dev) (o : Origin) (r : Resp) : (d.sendProxied o r).srv = d.srv := by
  cases o <;> rfl

/-- What goes back to a requester is among what the trunk sends (R58). -/
theorem Dev.sendProxied_emits (d : Dev) (o : Origin) {r : Resp} {P : Resp → Prop} (h : P r) :
    ∃ q, .proxied o q ∈ (d.sendProxied o r).out ∧ P q := by
  refine ⟨r, ?_, h⟩
  cases o <;> exact List.mem_append_right _ (List.mem_singleton.mpr rfl)

/-- A request that a fence stops is answered (R414). -/
theorem Dev.fenced_of_request (d : Dev) (f : Fence) (port own dest p : Nat) {r : Resp} (hop : r.opcode < 0x80) :
    d.fenced f port (sdpPMsg own dest p (sdpBytes r)) =
      (d.fenceLog f (0x100000 + own * 256) (fenceTarget 0x01 own dest port p)).answerSdp (fencedBytes (sdpBytes r)) := by
  have hreq : natAt (sdpBytes r) 1 1 < 0x80 := by rw [sdpBytes_opcode]; omega
  simp [Dev.fenced, sdpPMsg, hreq]

/-- A fenced request of a proxy slot is answered to the requester of the slot, which is freed (R57, R58, R413). -/
theorem Dev.fenced_of_slot (d : Dev) (f : Fence) (n : Nat) {own dest p : Nat} {r : Resp} {x : ProxySlot} (hop : r.opcode < 0x80)
    (hown : addrTrunk (r.source % 2 ^ 32) = d.get 0x3100_01) (hbit : (r.source % 2 ^ 32).testBit 20 = true)
    (hfind : d.srv.slots.find? (fun x => x.slot = r.source % 2 ^ 32 % 256 && x.txn = r.txn % 2 ^ 16) = some x) :
    (d.fenced f n (sdpPMsg own dest p (sdpBytes r))).srv.slots = d.srv.slots.filter (·.slot != x.slot) ∧
    ∃ q, .proxied x.origin q ∈ (d.fenced f n (sdpPMsg own dest p (sdpBytes r))).out ∧ q.abort = 0x08 ∧
      q.txn = r.txn % 2 ^ 16 ∧ q.dest = x.source := by
  have hlog : ∀ a t, (d.fenceLog f a t).get 0x3100_01 = d.get 0x3100_01 := fun a t => (Dev.Sends.fenceLog d f a t).get _ rfl
  rw [Dev.fenced_of_request _ _ _ _ _ _ hop]
  unfold Dev.answerSdp
  dsimp only
  rw [respFrom_fenced_dest, respFrom_fenced_txn, sdpBytes_source, sdpBytes_txn, hlog, if_neg (by simpa using hown),
    if_neg (by rw [hbit]; simp), Dev.fenceLog_slots, hfind]
  dsimp only
  refine ⟨?_, Dev.sendProxied_emits (P := fun q => q.abort = 0x08 ∧ q.txn = r.txn % 2 ^ 16 ∧ q.dest = x.source) _ _ ?_⟩
  · rw [Dev.sendProxied_srv]
  · dsimp only
    exact ⟨respFrom_fenced_abort (sdpBytes r), rfl, rfl⟩

/-! ### Proxy slots -/

theorem Dev.freeSlot_spec {d : Dev} {n : Nat} (h : d.freeSlot = some n) : n < 256 ∧ ∀ x ∈ d.srv.slots, x.slot ≠ n := by
  unfold Dev.freeSlot at h
  have hm := List.mem_of_find?_eq_some h
  have hp := List.find?_some h
  refine ⟨?_, fun x hx hn => ?_⟩
  · simp only [List.mem_map, List.mem_range] at hm
    obtain ⟨k, hk, rfl⟩ := hm
    omega
  · simp only [Bool.not_eq_true', List.any_eq_false, decide_eq_true_eq] at hp
    exact hp x hx hn

/-- Among slots none of which is `n`, one of that number that joins them is found by it, and leaves them again. -/
theorem slots_join {l : List ProxySlot} {x : ProxySlot} (h : ∀ y ∈ l, y.slot ≠ x.slot) :
    (l ++ [x]).find? (fun y => y.slot = x.slot && y.txn = x.txn) = some x ∧
      (l ++ [x]).filter (·.slot != x.slot) = l := by
  constructor
  · rw [List.find?_append, List.find?_eq_none.mpr (fun y hy => by simp [h y hy])]
    simp
  · rw [List.filter_append, List.filter_eq_self.mpr (fun y hy => by simp [h y hy])]
    simp

/-- The address of a proxy slot: a trunk address with the slot in [7:0] (R58). -/
theorem slotAddress {own n : Nat} (hown : own < 2 ^ 12) (hn : n < 256) :
    (0x100000 + own * 256 + n) % 2 ^ 32 = 0x100000 + own * 256 + n ∧ (0x100000 + own * 256 + n) % 256 = n ∧
      addrTrunk (0x100000 + own * 256 + n) = own ∧ (0x100000 + own * 256 + n).testBit 20 = true := by
  refine ⟨by omega, by omega, ?_, ?_⟩
  · simp only [addrTrunk, field]
    omega
  · rw [Nat.testBit_eq_decide_div_mod_eq]
    simp
    omega

theorem addrTrunk_lt (a : Nat) : addrTrunk a < 2 ^ 12 := Nat.mod_lt _ (by decide)

theorem otherUnit_lt {a : Nat} (h : otherUnit a = true) : a < 2 ^ 21 := by
  simp only [otherUnit, Bool.or_eq_true, Bool.and_eq_true, decide_eq_true_eq] at h
  omega

theorem Dev.passesOn_lt {d : Dev} {e : Env} (h : d.passesOn e = true) : e.dest < 2 ^ 32 := by
  have h' : otherUnit e.dest = true := by
    simp only [Dev.passesOn, Bool.and_eq_true] at h
    exact h.1.1.1.2
  have := otherUnit_lt h'
  omega

/-! ### The commands -/

/-- The request that a trunk sends on for a requester, under a Source of its own (R56, R58). -/
def proxiedRequest (e : Env) (op i sub fl off len : Nat) (bs : Bytes) (src : Nat) : Resp :=
  { opcode := op, txn := e.txn, dest := e.dest, source := src, index := i, sub := sub, flags := fl % 8, offset := off,
    length := len, data := bs }

/-- The slot that a proxied request takes (R58). -/
def Dev.proxySlot (d : Dev) (e : Env) (o : Origin) (op n : Nat) : ProxySlot := ⟨n, e.txn, op, e.via, o, e.source, d.now⟩

/-- A trunk with one more slot in use. -/
def Dev.withSlot (d : Dev) (x : ProxySlot) : Dev := { d with srv := { d.srv with slots := d.srv.slots ++ [x] } }

theorem Dev.get_withSlot (d : Dev) (x : ProxySlot) (k : Nat) : (d.withSlot x).get k = d.get k := rfl

theorem Dev.get_emit (d : Dev) (o : Out) (k : Nat) : (d.emit o).get k = d.get k := rfl

/-- A trunk sends a request on for the holder of a slot in the partition of its outside ports (R58, R411). -/
def Dev.sendOn (d : Dev) (dest : Nat) (req : Resp) : Dev :=
  (d.emit (.request .inband 0 req)).sendSdp dest (d.get 0x3100_08) (sdpBytes req)

/-- What a proxied request makes of a trunk that has found it a free slot. -/
def Dev.proxyOn (d : Dev) (e : Env) (o : Origin) (op i sub fl off len : Nat) (bs : Bytes) (n : Nat) : Dev :=
  (d.withSlot (d.proxySlot e o op n)).sendOn e.dest
    (proxiedRequest e op i sub fl off len bs (0x100000 + d.get 0x3100_01 * 256 + n))

/-- The refusal of a proxied request (R58, R66). -/
def Dev.proxyRefused (d : Dev) (e : Env) (o : Origin) (op i sub off : Nat) (a : Abort) : Dev :=
  let d := (d.inc 0x1101_06).logAbort e i sub off a.code
  d.sendProxied o (respOf d e op i sub off (fail d a))

theorem Dev.proxyRefused_spec (d : Dev) (e : Env) (o : Origin) (op i sub off : Nat) (a : Abort) :
    (∃ r, .proxied o r ∈ (d.proxyRefused e o op i sub off a).out ∧ r.abort = a.code ∧ r.txn = e.txn ∧ r.dest = e.source) ∧
      (d.proxyRefused e o op i sub off a).srv.slots = d.srv.slots := by
  unfold Dev.proxyRefused
  dsimp only
  refine ⟨Dev.sendProxied_emits (P := fun r => r.abort = a.code ∧ r.txn = e.txn ∧ r.dest = e.source) _ _ ⟨rfl, rfl, rfl⟩, ?_⟩
  rw [Dev.sendProxied_srv]
  unfold Dev.logAbort Dev.violation
  split <;> simp

/-- The branches of a PROXY_REQUEST from the service port or an outside port. -/
theorem execProxyRequest_eq (s : State) (e : Env) (o : Origin) (op i sub fl off len : Nat) (bs : Bytes) (hrun : s.runs .trunk)
    (hframe : (s.unit .trunk).hearsFrame e = true) (htakes : (s.unit .trunk).takes e = false)
    (hpass : (s.unit .trunk).passesOn e = true) (hvia : e.via = .servicePort ∨ e.via = .exportNet) :
    exec (.proxyRequest e o op i sub off len ⟨fl, bs⟩) s = .next (s.withUnit .trunk
      (if (s.unit .trunk).quickset then (s.unit .trunk).proxyRefused e o op i sub off .state
        else match (s.unit .trunk).freeSlot with
        | none => (s.unit .trunk).proxyRefused e o op i sub off .busy
        | some n => (s.unit .trunk).proxyOn e o op i sub fl off len bs n)) := by
  show execProxyRequest e o op i sub off len ⟨fl, bs⟩ s = _
  unfold execProxyRequest State.onTrunk
  have hnot : ¬ (e.via = .inband) ∧ ¬ (e.via = .service) := by rcases hvia with h | h <;> simp [h]
  rw [State.on_runs _ _ _ hrun]
  cases (s.unit .trunk).freeSlot <;> simp only [hframe, htakes, hpass, hnot, decide_false, Bool.not_true,
    Bool.or_false, Bool.false_eq_true, if_false, Dev.proxyRefused, Dev.proxyOn, Dev.sendOn, Dev.withSlot, Dev.proxySlot, proxiedRequest]

section
variable (d : Dev) {dest : Nat} {r : Resp} (x : ProxySlot) (hown : addrTrunk dest = d.get 0x3100_01)
  (hbit : dest.testBit 20 = false) (hlt : dest < 2 ^ 32) (hdest : r.dest = dest)
include hown hbit hlt hdest

/-- A request that may reach its leaf goes on, and its slot is held. -/
theorem Dev.sendOn_of_mayReach (hreach : d.mayReach (dest % 256) (d.get 0x3100_08)) :
    ((d.withSlot x).sendOn dest r).out = d.out ++ [.request .inband 0 r] ∧
      ((d.withSlot x).sendOn dest r).srv.slots = d.srv.slots ++ [x] ∧ ((d.withSlot x).sendOn dest r).objs = d.objs := by
  unfold Dev.sendOn
  rw [Dev.sendSdp_of_mayReach _ (by exact hown) hbit hdest hlt (by exact hreach)]
  exact ⟨rfl, rfl, rfl⟩

/-- One that may not is answered FENCED under the address of its slot, which is free again. -/
theorem Dev.sendOn_of_barred (hbar : ¬ d.mayReach (dest % 256) (d.get 0x3100_08)) (hfree : ∀ y ∈ d.srv.slots, y.slot ≠ x.slot)
    (hop : r.opcode < 0x80) (htxn : r.txn % 2 ^ 16 = x.txn) (hsource : r.source % 2 ^ 32 = r.source)
    (hslot : r.source % 256 = x.slot) (htrunk : addrTrunk r.source = d.get 0x3100_01) (hbit20 : r.source.testBit 20 = true) :
    (∃ q, .proxied x.origin q ∈ ((d.withSlot x).sendOn dest r).out ∧ q.abort = 0x08 ∧ q.txn = x.txn ∧ q.dest = x.source) ∧
      ((d.withSlot x).sendOn dest r).srv.slots = d.srv.slots := by
  obtain ⟨hfind, hfilter⟩ := slots_join hfree
  have hfind' : (d.srv.slots ++ [x]).find? (fun y => y.slot = r.source % 2 ^ 32 % 256 && y.txn = r.txn % 2 ^ 16) = some x := by
    rw [hsource, hslot, htxn]
    exact hfind
  obtain ⟨hslots, hanswer⟩ := ((d.withSlot x).emit (.request .inband 0 r)).fenced_of_slot .stemDelivery (dest % 256)
    (own := d.get 0x3100_01) (dest := addrTrunk dest) (p := d.get 0x3100_08) hop (hsource.symm ▸ htrunk) (hsource.symm ▸ hbit20)
    hfind'
  unfold Dev.sendOn
  rw [Dev.sendSdp_of_barred _ (by exact hown) hbit hdest hlt (by exact hbar), Dev.get_emit, Dev.get_withSlot, Dev.get_withSlot]
  refine ⟨?_, hslots.trans hfilter⟩
  rw [htxn] at hanswer
  exact hanswer

end

/-- PROXY_REQUEST from the service port or an outside port (R57, R58, R59, R412). -/
theorem execProxyRequest_yields (s : State) (e : Env) (o : Origin) (op i sub fl off len : Nat) (bs : Bytes)
    (hrun : s.runs .trunk) (hframe : (s.unit .trunk).hearsFrame e = true) (htakes : (s.unit .trunk).takes e = false)
    (hpass : (s.unit .trunk).passesOn e = true) (hvia : e.via = .servicePort ∨ e.via = .exportNet) (hop : op < 0x80)
    (htxn : e.txn < 2 ^ 16) :
    Yields (exec (.proxyRequest e o op i sub off len ⟨fl, bs⟩) s) s .trunk fun d =>
      if (s.unit .trunk).quickset = true then
        (∃ r, .proxied o r ∈ d.out ∧ r.abort = 0x07 ∧ r.txn = e.txn ∧ r.dest = e.source) ∧ d.srv.slots = s.trunk.srv.slots
      else match (s.unit .trunk).freeSlot with
      | none => (∃ r, .proxied o r ∈ d.out ∧ r.abort = 0x09 ∧ r.txn = e.txn ∧ r.dest = e.source) ∧
          d.srv.slots = s.trunk.srv.slots
      | some n =>
        addrTrunk e.dest = s.trunk.get 0x3100_01 → e.dest.testBit 20 = false →
        if s.trunk.get 0x3100_08 = 0 ∨ s.trunk.stemPartition (e.dest % 256) = s.trunk.get 0x3100_08 then
          d.out = [.request .inband 0
            { opcode := op, txn := e.txn, dest := e.dest, source := 0x100000 + s.trunk.get 0x3100_01 * 256 + n, index := i,
              sub := sub, flags := fl % 8, offset := off, length := len, data := bs }] ∧
          d.srv.slots = s.trunk.srv.slots ++ [⟨n, e.txn, op, e.via, o, e.source, s.trunk.time.ns⟩] ∧ d.objs = s.trunk.objs
        else (∃ r, .proxied o r ∈ d.out ∧ r.abort = 0x08 ∧ r.txn = e.txn ∧ r.dest = e.source) ∧
          d.srv.slots = s.trunk.srv.slots := by
  refine ⟨_, execProxyRequest_eq s e o op i sub fl off len bs hrun hframe htakes hpass hvia, ?_⟩
  dsimp only
  by_cases hq : (s.unit .trunk).quickset = true
  · rw [if_pos hq, if_pos hq]
    exact Dev.proxyRefused_spec _ e o op i sub off .state
  rw [if_neg hq, if_neg hq]
  cases hfree : (s.unit .trunk).freeSlot with
  | none => exact Dev.proxyRefused_spec _ e o op i sub off .busy
  | some n =>
    intro hown hbit
    have hlt := Dev.passesOn_lt hpass
    split
    · next hreach => exact Dev.sendOn_of_mayReach (s.unit .trunk) _ hown hbit hlt rfl hreach
    · next hbar =>
      obtain ⟨hn, hothers⟩ := Dev.freeSlot_spec hfree
      obtain ⟨hmod, hslot, htrunk, hbit20⟩ := slotAddress (hown ▸ addrTrunk_lt e.dest) hn
      exact Dev.sendOn_of_barred (s.unit .trunk) ((s.unit .trunk).proxySlot e o op n) hown hbit hlt rfl hbar hothers hop
        (Nat.mod_eq_of_lt htxn) hmod hslot htrunk hbit20

/-- PROXY_REQUEST from a service segment (R56; log 94). -/
theorem execProxyRequest_service_yields (s : State) (e : Env) (o : Origin) (op i sub fl off len : Nat) (bs : Bytes)
    (hrun : s.runs .trunk) (hframe : (s.unit .trunk).hearsFrame e = true) (htakes : (s.unit .trunk).takes e = false)
    (hpass : (s.unit .trunk).passesOn e = true) (hvia : e.via = .service) (hown : addrTrunk e.dest = s.trunk.get 0x3100_01)
    (hbit : e.dest.testBit 20 = false)
    (hreach : s.trunk.dropPartition e.source = 0 ∨ s.trunk.stemPartition (e.dest % 256) = s.trunk.dropPartition e.source) :
    Yields (exec (.proxyRequest e o op i sub off len ⟨fl, bs⟩) s) s .trunk fun d =>
      d.out = [.request .inband 0
        { opcode := op, txn := e.txn, dest := e.dest, source := e.source, index := i, sub := sub, flags := fl % 8,
          offset := off, length := len, data := bs }] ∧ d.srv = s.trunk.srv ∧ d.objs = s.trunk.objs := by
  show Yields (execProxyRequest e o op i sub off len ⟨fl, bs⟩ s) s .trunk _
  unfold execProxyRequest State.onTrunk
  refine s.on_yields _ _ _ hrun ?_
  simp only [hframe, htakes, hpass, hvia, reduceCtorEq, decide_false, Bool.not_true, Bool.or_false, Bool.false_eq_true, if_false,
    if_true]
  rw [Dev.sendSdp_of_mayReach _ (by exact hown) hbit rfl (Dev.passesOn_lt hpass) (by exact hreach)]
  exact ⟨rfl, rfl, rfl⟩

/-- PROXY_RESPONSE to a slot and TxnId in use (R58, R59). -/
theorem execProxyResponse_yields (s : State) (slot txn op src i sub fl off ab : Nat) (bs : Bytes) (x : ProxySlot)
    (hrun : s.runs .trunk) (hx : s.trunk.srv.slots.find? (fun x => x.slot = slot && x.txn = txn) = some x) :
    Yields (exec (.proxyResponse slot txn op ab ⟨src, i, sub, fl, off, bs⟩) s) s .trunk fun d =>
      (∃ r, d.out = [.proxied x.origin r] ∧ r.opcode = op ∧ r.txn = txn ∧ r.dest = x.source ∧ r.source = src ∧ r.index = i ∧
        r.sub = sub ∧ r.flags = fl % 8 ∧ r.offset = off ∧ r.abort = ab ∧ r.data = bs ∧
        (∀ a, x.origin = .mac a →
          d.lines = [.ether .servicePort 0 (etherFrame a ((s.unit .trunk).mac .servicePort) (sdpBytes r))])) ∧
      (∀ y, y ∈ d.srv.slots ↔ y ∈ s.trunk.srv.slots ∧ y.slot ≠ slot) ∧
      d = { s.trunk with srv := d.srv, out := d.out, lines := d.lines } := by
  show Yields (execProxyResponse slot txn op ab ⟨src, i, sub, fl, off, bs⟩ s) s .trunk _
  unfold execProxyResponse State.onTrunk
  refine s.on_yields _ _ _ hrun ?_
  have hx' : (s.unit .trunk).srv.slots.find? (fun x => x.slot = slot && x.txn = txn) = some x := hx
  simp only [hx']
  obtain ⟨xslot, xtxn, xop, xvia, xorigin, xsource, xtime⟩ := x
  cases xorigin with
  | mac a =>
    refine ⟨⟨_, rfl, rfl, rfl, rfl, rfl, rfl, rfl, rfl, rfl, rfl, rfl, fun b hb => ?_⟩, fun y => ?_, rfl⟩
    · cases hb; rfl
    · exact List.mem_filter.trans (and_congr_right fun _ => bne_iff_ne)
  | udp a p =>
    refine ⟨⟨_, rfl, rfl, rfl, rfl, rfl, rfl, rfl, rfl, rfl, rfl, rfl, fun b hb => ?_⟩, fun y => ?_, rfl⟩
    · cases hb
    · exact List.mem_filter.trans (and_congr_right fun _ => bne_iff_ne)

/-- PROXY_SLOT_TIMEOUT (R58). -/
theorem execProxySlotTimeout_yields (s : State) (slot : Nat) (hrun : s.runs .trunk) :
    Yields (exec (.proxySlotTimeout slot) s) s .trunk fun d =>
      (∀ y, y ∈ d.srv.slots ↔ y ∈ s.trunk.srv.slots ∧ ¬ (y.slot = slot ∧ y.time + 100000000 ≤ s.trunk.time.ns)) ∧
      d = { s.unit .trunk with srv := d.srv } := by
  show Yields (execProxySlotTimeout slot s) s .trunk _
  unfold execProxySlotTimeout State.onTrunk
  refine s.on_yields _ _ _ hrun ⟨fun y => List.mem_filter.trans (and_congr_right fun _ => ?_), rfl⟩
  rw [Bool.not_eq_true', Bool.and_eq_false_iff, decide_eq_false_iff_not, decide_eq_false_iff_not, ← not_and_or]
  rfl

/-- Settles O7: one rule per command and transport. -/
theorem proxySlotsCarryRequests : Obligations.ProxySlotsCarryRequests :=
  ⟨execProxyRequest_yields, execProxyRequest_service_yields, execProxyResponse_yields, execProxySlotTimeout_yields⟩

end Sys2Proof.Machine
end

section
/-! SUPPORT. StoreConfig and RestoreDefaults (R31, R32, R607, R615). -/

namespace Sys2Proof.Machine

open Sys2Proof

/-! ### What forgetting expired responses keeps -/

@[simp] theorem Dev.heard_confEnt (d : Dev) (e : Env) : (d.heard e).confEnt = d.confEnt := by
  unfold Dev.heard
  split <;> rfl

@[simp] theorem Dev.heard_savedKeys (d : Dev) (e : Env) : (d.heard e).savedKeys = d.savedKeys := by
  unfold Dev.heard
  split <;> rfl

@[simp] theorem Dev.heard_writing (d : Dev) (e : Env) : (d.heard e).writing = d.writing := by
  unfold Dev.heard
  split <;> rfl

@[simp] theorem Dev.heard_isTrunk (d : Dev) (e : Env) : (d.heard e).isTrunk = d.isTrunk := by
  unfold Dev.heard
  split <;> rfl

@[simp] theorem Dev.heard_leafId (d : Dev) (e : Env) : (d.heard e).leafId = d.leafId := by
  unfold Dev.heard
  split <;> rfl

@[simp] theorem Dev.heard_stemState (d : Dev) (e : Env) (x : StemId) : (d.heard e).stemState x = d.stemState x := by
  unfold Dev.heard
  split <;> rfl

@[simp] theorem Dev.heard_unassigned (d : Dev) (e : Env) : (d.heard e).unassigned = d.unassigned := by
  unfold Dev.heard
  split <;> rfl

@[simp] theorem Dev.heard_now (d : Dev) (e : Env) : (d.heard e).now = d.now := by
  unfold Dev.heard
  split <;> rfl

/-! ### Writes of objects with every value in range -/

theorem Row.masked_of_any {r : Row} (h : r.rng = .any) (v : Nat) : r.masked v = v := by
  simp [Row.masked, h]

/-- `StoreConfig` and `RestoreDefaults` have no reserved bits. -/
theorem config_row {c : Cfg} {i : Nat} {r : Row} (hi : i = 0x1010 ∨ i = 0x1011) (h : c.rowOf i 0 = some r) : r.rng = .any := by
  have hp : (r.rng == .any) = true := by
    rcases hi with rfl | rfl
    · exact row_of_index c 0x1010 0 (fun r => r.rng == .any) r (by decide) h
    · exact row_of_index c 0x1011 0 (fun r => r.rng == .any) r (by decide) h
  simpa using hp

/-- A write of an object without reserved bits is answered with what its own effect gives for the value written. -/
theorem State.serveWrite_answers_any {s : State} {u : UnitId} {e : Env} {i sub v : Nat} {f : Dev → Nat → Bytes → Ans}
    {P : Ans → Prop} (hsub : sub < 256) (hrun : s.runs u) (hacc : (s.unit u).accepts e i sub v)
    (hany : ∀ r, (s.unit u).cfg.rowOf i sub = some r → r.rng = .any) (hp : P (f ((s.unit u).heard e) v [])) :
    Answers (s.on u fun d => d.serveWrite e i sub v f) s u e 0x02 i sub 0 P := by
  obtain ⟨-, -, -, r, hr, -⟩ := id hacc
  refine State.serveWrite_answers id hrun hacc hsub hr ?_
  rw [Row.masked_of_any (hany r hr)]
  exact hp

/-! ### StoreConfig on a trunk -/

/-- The configuration image after a commit: the unit's new entry, and those of other units (R31, R615). -/
theorem Dev.mem_commitConf (d : Dev) (c x : ConfEnt) :
    x ∈ (d.commitConf c).tk.flash.conf ↔ (x ∈ d.tk.flash.conf ∧ x.unit ≠ c.unit) ∨ x = c := by
  simp [Dev.commitConf]

/-- STORE_CONFIG on a trunk (R31, R607, R615). -/
theorem execStoreConfig_trunk_answers (s : State) (e : Env) (v : Nat) (hbuilt : s.built) (hrun : s.runs .trunk)
    (hacc : (s.unit .trunk).accepts e 0x1010 0 v) :
    Answers (exec (.storeConfig .trunk e v) s) s .trunk e 0x02 0x1010 0 0 fun a =>
      if v ≠ 0x65766173 then a.abort = 0x06 ∧ a.dev = (s.unit .trunk).heard e
      else if (s.unit .trunk).writing = true then a.abort = 0x09 ∧ a.dev = (s.unit .trunk).heard e
      else a.abort = 0 ∧
        (∃ c ∈ a.dev.tk.flash.conf, c.unit = s.trunk.get 0x1000_06 ∧ c.major = s.trunk.get 0x1001_01 ∧
          c.vals = s.trunk.savedVals) ∧
        (∀ c, c.unit ≠ s.trunk.get 0x1000_06 → (c ∈ a.dev.tk.flash.conf ↔ c ∈ s.trunk.tk.flash.conf)) ∧
        a.dev.objs = s.trunk.objs := by
  show Answers (execStoreConfig .trunk e v s) s .trunk e 0x02 0x1010 0 0 _
  unfold execStoreConfig State.stored
  refine State.serveWrite_answers_any (by decide) hrun hacc (fun r hr => config_row (.inl rfl) hr) ?_
  have htrunk : (s.unit .trunk).isTrunk = true := decide_eq_true hbuilt.2.2
  by_cases hv : v = 0x65766173
  · rw [if_neg (by simpa using hv)]
    subst hv
    by_cases hw : (s.unit .trunk).writing = true
    · rw [if_pos hw]
      simp only [Dev.storeConfigAns, Dev.heard_isTrunk, htrunk, Dev.heard_writing, hw]
      exact ⟨rfl, rfl⟩
    · rw [if_neg hw]
      have hans : ((s.unit .trunk).heard e).storeConfigAns e 0x65766173 =
          ok (((s.unit .trunk).heard e).commitConf (s.unit .trunk).confEnt) := by
        simp [Dev.storeConfigAns, htrunk, hw]
      rw [hans]
      refine ⟨rfl, ⟨(s.unit .trunk).confEnt, ?_, rfl, rfl, rfl⟩, fun c hc => ?_, ?_⟩
      · exact (Dev.mem_commitConf _ _ _).mpr (.inr rfl)
      · refine (Dev.mem_commitConf _ _ _).trans ?_
        have hne : c ≠ (s.unit .trunk).confEnt := fun h => hc (congrArg ConfEnt.unit h)
        rw [Dev.heard_tk]
        exact (or_iff_left hne).trans (and_iff_left hc)
      · exact Dev.heard_objs _ _
  · rw [if_pos hv]
    have hans : ((s.unit .trunk).heard e).storeConfigAns e v = fail ((s.unit .trunk).heard e) .range := by
      simp [Dev.storeConfigAns, hv]
    rw [hans]
    exact ⟨rfl, rfl⟩

/-! ### StoreConfig on a leaf -/

/-- A leaf that has sent its values and waits for their commit (R31). -/
def Dev.storeWaits (d : Dev) (e : Env) : Dev :=
  Dev.emit { d with srv := { d.srv with
    storing := some { env := e, opcode := 0x02, index := 0x1010, sub := 0, time := d.now } } } (.config d.confEnt)

/-- A leaf whose link is UP, with an address and no `StoreConfig` waiting, sends its values and waits. -/
theorem Dev.storeConfigAns_of_leaf (d : Dev) (e : Env) (hleaf : d.isTrunk = false) (hup : d.stemState (.leaf d.leafId) = 4)
    (haddr : d.unassigned = false) (hidle : d.srv.storing = none) :
    d.storeConfigAns e 0x65766173 = { dev := d.storeWaits e, wait := true } := by
  simp only [Dev.storeConfigAns, hleaf, hup, haddr, hidle]
  rfl

theorem Dev.finish_of_wait (d : Dev) (e : Env) (i : Nat) (x : Dev) :
    d.finish e 0x02 i 0 0 { dev := x, wait := true } = x.beginCmd (key i 0) := rfl

/-- The beginning of a CMD object's action notes it in the server alone. -/
theorem Dev.beginCmd_eq (d : Dev) (k : Nat) : ∃ l, d.beginCmd k = { d with srv := { d.srv with cmds := l } } := by
  unfold Dev.beginCmd
  split
  · exact ⟨_, rfl⟩
  · exact ⟨d.srv.cmds, rfl⟩

/-- Is the leaf one of the model's trunk, which runs (R31)? -/
def State.commits (s : State) (d : Dev) : Bool := d.address / 256 = s.trunk.get 0x3100_01 && !s.trunk.boot.held

theorem State.trunk_setDev_leaf (s : State) (d : Dev) (l : LeafId) : (s.setDev d (.leaf l)).trunk = s.trunk := by
  cases l <;> rfl

theorem State.dev_leaf_withTrunk (s : State) (d : Dev) (l : LeafId) :
    ({ s with trunk := d } : State).dev (.leaf l) = s.dev (.leaf l) := by
  cases l <;> rfl

/-- A unit with the trunk's verdict on the values that it has sent, where the trunk of the model gives one. -/
def Dev.storeVerdict (d : Dev) (ab : Option Nat) : Dev :=
  match ab with
  | some ab => d.storeResult ab
  | none => d

theorem Dev.storeVerdict_storing (d : Dev) (ab : Option Nat) : (d.storeVerdict ab).srv.storing =
    d.srv.storing.map fun w => { w with result := ab.or w.result } := by
  cases ab with
  | none => cases h : d.srv.storing <;> simp [Dev.storeVerdict, h]
  | some ab => rfl

@[simp] theorem Dev.storeVerdict_out (d : Dev) (ab : Option Nat) : (d.storeVerdict ab).out = d.out := by
  cases ab <;> rfl

@[simp] theorem Dev.storeVerdict_objs (d : Dev) (ab : Option Nat) : (d.storeVerdict ab).objs = d.objs := by
  cases ab <;> rfl

/-- The values that a leaf has sent reach its trunk, which commits them, or refuses with BUSY while it is writing an image
(R31, R607; log 32). -/
theorem State.stored_of_waiting {s t : State} {l : LeafId} (hidle : (s.dev (.leaf l)).srv.storing = none)
    (hwait : (t.dev (.leaf l)).srv.storing.isSome = true) :
    ∃ r, s.stored (.leaf l) (.next t) = .next r ∧
      r.dev (.leaf l) = (t.dev (.leaf l)).storeVerdict
        (if t.commits (t.dev (.leaf l)) then some (if t.trunk.writing then 0x09 else 0) else none) ∧
      r.trunk = (if t.commits (t.dev (.leaf l)) && !t.trunk.writing then t.trunk.commitConf (t.dev (.leaf l)).confEnt else t.trunk) ∧
      r.mem = t.mem ∧ r.pending = t.pending := by
  have hguard : ((s.dev (.leaf l)).srv.storing.isSome || (t.dev (.leaf l)).srv.storing.isNone ||
      (t.dev (.leaf l)).address / 256 != t.trunk.get 0x3100_01 || t.trunk.boot.held) = !t.commits (t.dev (.leaf l)) := by
    have hsome : (t.dev (.leaf l)).srv.storing.isNone = false := by simpa using hwait
    simp [hidle, hsome, State.commits, bne, beq_eq_decide]
  unfold State.stored
  dsimp only
  rw [hguard]
  cases hc : t.commits (t.dev (.leaf l)) with
  | false => exact ⟨t, rfl, rfl, rfl, rfl, rfl⟩
  | true =>
    cases hw : t.trunk.writing with
    | true =>
      refine ⟨_, rfl, ?_, ?_, ?_, ?_⟩
      · exact State.dev_setDev_self _ _ _
      · exact State.trunk_setDev_leaf _ _ _
      · exact State.setDev_mem _ _ _
      · exact State.setDev_pending _ _ _
    | false =>
      refine ⟨_, rfl, ?_, rfl, ?_, ?_⟩
      · exact (State.dev_leaf_withTrunk _ _ _).trans (State.dev_setDev_self _ _ _)
      · exact State.setDev_mem _ _ _
      · exact State.setDev_pending _ _ _

/-- STORE_CONFIG on a leaf (R31; log 32). -/
theorem execStoreConfig_leaf (s : State) (l : LeafId) (e : Env) (hbuilt : s.built) (hrun : s.runs (.leaf l))
    (hacc : (s.unit (.leaf l)).accepts e 0x1010 0 0x65766173)
    (hup : (s.unit (.leaf l)).stemState (.leaf (s.unit (.leaf l)).leafId) = 4) (haddr : (s.unit (.leaf l)).unassigned = false)
    (hidle : (s.dev (.leaf l)).srv.storing = none) :
    let mine : Bool := (s.dev (.leaf l)).get 0x1000_06 / 256 = s.trunk.get 0x3100_01 && !s.trunk.boot.held
    ∃ t, exec (.storeConfig (.leaf l) e 0x65766173) s = .next t ∧
      (t.dev (.leaf l)).srv.storing = some ⟨e, 0x02, 0x1010, 0, (s.dev (.leaf l)).time.ns,
        if mine then some (if s.trunk.writing then 0x09 else 0) else none⟩ ∧
      (t.dev (.leaf l)).out = [.config (s.dev (.leaf l)).confEnt] ∧ (t.dev (.leaf l)).objs = (s.dev (.leaf l)).objs ∧
      t.trunk = (if mine && !s.trunk.writing then s.trunk.commitConf (s.dev (.leaf l)).confEnt else s.trunk) ∧
      t.mem = s.mem ∧ t.pending = s.pending := by
  have hleaf : (s.unit (.leaf l)).isTrunk = false := by
    cases l <;> simp [Dev.isTrunk, State.dev, hbuilt.1, hbuilt.2.1]
  obtain ⟨a, ho, rfl⟩ := State.serveWrite_answers_any (P := fun a => a = { dev := ((s.unit (.leaf l)).heard e).storeWaits e, wait := true })
    (f := fun d v _ => d.storeConfigAns e v) (by decide) hrun hacc (fun r hr => config_row (.inl rfl) hr)
    (Dev.storeConfigAns_of_leaf _ e (by simpa using hleaf) (by simpa using hup) (by simpa using haddr) (by simpa using hidle))
  obtain ⟨c, hc⟩ := (((s.unit (.leaf l)).heard e).storeWaits e).beginCmd_eq (key 0x1010 0)
  rw [Dev.finish_of_wait, hc] at ho
  set d : Dev := { ((s.unit (.leaf l)).heard e).storeWaits e with srv := { (((s.unit (.leaf l)).heard e).storeWaits e).srv with cmds := c } }
    with hd
  set t : State := s.withUnit (.leaf l) d with ht
  have htd : t.dev (.leaf l) = d := by
    rw [ht, State.dev_withUnit_self]
    have hcfg : d.cfg = (s.dev (.leaf l)).cfg := Dev.heard_cfg _ _
    rw [← hcfg]
  have htt : t.trunk = s.trunk := State.trunk_setDev_leaf _ _ _
  obtain ⟨r, hr, hrd, hrt, hrm, hrp⟩ := State.stored_of_waiting (s := s) (t := t) hidle (by rw [htd]; rfl)
  have hent : d.confEnt = (s.dev (.leaf l)).confEnt := Dev.heard_confEnt _ _
  have hcom : t.commits d = (decide ((s.dev (.leaf l)).get 0x1000_06 / 256 = s.trunk.get 0x3100_01) && !s.trunk.boot.held) := by
    have haddr' : d.address = (s.dev (.leaf l)).get 0x1000_06 := Dev.heard_get _ _ _
    rw [State.commits, htt, haddr']
  rw [htd, hcom, htt] at hrd
  rw [htd, hcom, htt, hent] at hrt
  refine ⟨r, ?_, ?_, ?_, ?_, hrt, hrm.trans ?_, hrp.trans ?_⟩
  · show execStoreConfig (.leaf l) e 0x65766173 s = _
    unfold execStoreConfig
    rw [ho, hr]
  · rw [hrd, Dev.storeVerdict_storing]
    have hsto : d.srv.storing = some ⟨e, 0x02, 0x1010, 0, (s.dev (.leaf l)).time.ns, none⟩ :=
      congrArg (fun n => some (⟨e, 0x02, 0x1010, 0, n, none⟩ : Waiting)) (Dev.heard_now (s.unit (.leaf l)) e)
    rw [hsto]
    cases decide ((s.dev (.leaf l)).get 0x1000_06 / 256 = s.trunk.get 0x3100_01) && !s.trunk.boot.held <;> rfl
  · rw [hrd, Dev.storeVerdict_out]
    have hout : d.out = ((s.unit (.leaf l)).heard e).out ++ [.config ((s.unit (.leaf l)).heard e).confEnt] := rfl
    rw [hout, Dev.heard_out, Dev.heard_confEnt]
    rfl
  · rw [hrd, Dev.storeVerdict_objs]
    exact Dev.heard_objs _ _
  · exact State.withUnit_mem _ _ _
  · exact State.withUnit_pending _ _ _

/-! ### The end of a wait (R31) -/

/-- A wait that ends is answered with the abort code given, and the server waits no more. -/
theorem Dev.confirm_eq (d : Dev) (w : Waiting) (ab : Nat) :
    ∃ a : Ans, d.confirm w ab = a.dev.finish w.env w.opcode w.index w.sub 0 a ∧ a.abort = ab ∧ a.dev.srv.storing = none ∧
      a.dev = { d with srv := a.dev.srv } :=
  ⟨{ dev := { d with srv := { d.srv with storing := none } }, abort := ab }, rfl, rfl, rfl, rfl⟩

/-- STORE_CONFIG_TIMEOUT (R31). -/
theorem execStoreConfigTimeout_yields (s : State) (l : LeafId) (w : Waiting) (hrun : s.runs (.leaf l))
    (hw : (s.dev (.leaf l)).srv.storing = some w)
    (hend : (s.unit (.leaf l)).stemState (.leaf (s.unit (.leaf l)).leafId) ≠ 4 ∨ w.time + 50000000 ≤ (s.dev (.leaf l)).time.ns) :
    Yields (exec (.storeConfigTimeout l) s) s (.leaf l) fun d => ∃ a : Ans,
      d = a.dev.finish w.env w.opcode w.index w.sub 0 a ∧ a.abort = 0x0B ∧ a.dev.srv.storing = none ∧
      a.dev = { s.unit (.leaf l) with srv := a.dev.srv } := by
  show Yields (execStoreConfigTimeout l s) s (.leaf l) _
  unfold execStoreConfigTimeout State.onLeaf
  refine s.on_yields _ _ _ hrun ?_
  have hw' : (s.unit (.leaf l)).srv.storing = some w := hw
  have hend' : ((s.unit (.leaf l)).stemState (.leaf (s.unit (.leaf l)).leafId) != 4 || w.time + 50000000 ≤ (s.unit (.leaf l)).now) = true := by
    have hnow : (s.unit (.leaf l)).now = (s.dev (.leaf l)).time.ns := rfl
    simpa [hnow] using hend
  simp only [hw']
  rw [if_pos hend']
  exact Dev.confirm_eq _ w _

/-- COMMIT_CONFIRMATION (R31). -/
theorem execCommitConfirmation_yields (s : State) (l : LeafId) (w : Waiting) (ab : Nat) (hrun : s.runs (.leaf l))
    (hw : (s.dev (.leaf l)).srv.storing = some w) :
    Yields (exec (.commitConfirmation l ab) s) s (.leaf l) fun d => ∃ a : Ans,
      d = a.dev.finish w.env w.opcode w.index w.sub 0 a ∧ a.abort = w.result.getD ab ∧ a.dev.srv.storing = none ∧
      a.dev = { s.unit (.leaf l) with srv := a.dev.srv } := by
  show Yields (execCommitConfirmation l ab s) s (.leaf l) _
  unfold execCommitConfirmation State.onLeaf
  refine s.on_yields _ _ _ hrun ?_
  have hw' : (s.unit (.leaf l)).srv.storing = some w := hw
  simp only [hw']
  exact Dev.confirm_eq _ w _

/-! ### RestoreDefaults (R32) -/

/-- A row of an index: where it is SAVED, its default fits the object, and it is not `RegionCount` (0x2100.03). -/
def Row.savedFits (i : Nat) (r : Row) : Bool :=
  !r.saved || (r.dflt < 2 ^ (8 * r.ty.size) && !(i == 0x2100 && r.sub ≤ 3 && 3 ≤ r.subEnd))

theorem saved_plain_row {c : Cfg} {i s : Nat} {r : Row} (hi : i ∈ plainIndices) (h : c.rowOf i s = some r)
    (hsaved : r.saved = true) : r.dflt < 2 ^ (8 * r.ty.size) ∧ ¬ (i = 0x2100 ∧ r.sub ≤ 3 ∧ 3 ≤ r.subEnd) := by
  have hp : r.savedFits i = true := by
    simp only [plainIndices, List.mem_cons, List.not_mem_nil, or_false] at hi
    rcases hi with rfl | rfl | rfl
    · exact row_of_index c 0x2100 s (Row.savedFits 0x2100) r (by decide) h
    · exact row_of_index c 0x2404 s (Row.savedFits 0x2404) r (by decide) h
    · exact row_of_index c 0x2407 s (Row.savedFits 0x2407) r (by decide) h
  obtain ⟨hfits, hcount⟩ : r.dflt < 2 ^ (8 * r.ty.size) ∧ ((¬i = 0x2100 ∨ 3 < r.sub) ∨ r.subEnd < 3) := by
    simpa [Row.savedFits, hsaved] using hp
  exact ⟨hfits, by omega⟩

/-- The build gives no plain setting but `RegionCount` a default of its own. -/
theorem Cfg.special_of_plain {c : Cfg} {i s : Nat} (hi : i ∈ plainIndices) (hs : ¬ (i = 0x2100 ∧ s = 3)) :
    c.special i s = none := by
  simp only [plainIndices, List.mem_cons, List.not_mem_nil, or_false] at hi
  rcases hi with rfl | rfl | rfl
  · exact if_neg fun h => hs ⟨rfl, h⟩
  · rfl
  · rfl

/-- A SAVED setting of the plain kind: its default is the row's, and fits the object. -/
theorem Cfg.default_of_plain {c : Cfg} {k : Nat} {r : Row} (hi : k / 256 ∈ plainIndices) (h : c.rowOf (k / 256) (k % 256) = some r)
    (hsaved : r.saved = true) : c.default k < 2 ^ (8 * r.ty.size) := by
  obtain ⟨-, -, -, hlo, hhi⟩ := Cfg.rowOf_mem h
  obtain ⟨hfits, hcount⟩ := saved_plain_row hi h hsaved
  rw [Cfg.default, Cfg.special_of_plain hi (by omega), h]
  exact hfits

/-- The default of a SAVED plain setting is a value that the object holds as it is. -/
theorem Dev.get_set_default (d : Dev) {k : Nat} (hi : k / 256 ∈ plainIndices) (hs : d.cfg.isSaved k = true) :
    (d.set k (d.cfg.default k)).get k = d.cfg.default k := by
  obtain ⟨r, hr, hsaved⟩ := (Option.any_eq_true _ _).mp hs
  have hkey : key (k / 256) (k % 256) = k := by unfold key; omega
  have h := d.get_set_of_row (Nat.mod_lt k (by decide)) hr (plain_row hi hr).2.2 (Cfg.default_of_plain hi hr hsaved)
  rwa [hkey] at h

/-- A SAVED plain setting takes its default and nothing besides. -/
theorem Dev.loadDefault_of_plain (d : Dev) {k : Nat} (hi : k / 256 ∈ plainIndices) (hs : d.cfg.isSaved k = true) :
    d.loadDefault k = d.set k (d.cfg.default k) := by
  obtain ⟨r, hr, -⟩ := (Option.any_eq_true _ _).mp hs
  have hkey : key (k / 256) (k % 256) = k := by unfold key; omega
  unfold Dev.loadDefault
  simp only [hr, d.applyAny_of_plain _ _ hi hr, Dev.store, hkey]
  exact if_pos rfl

/-- A list of SAVED plain settings returned to their defaults. -/
theorem Dev.foldl_loadDefault (l : List Nat) (d : Dev) (hl : ∀ k ∈ l, k / 256 ∈ plainIndices ∧ d.cfg.isSaved k = true) :
    (∀ k ∈ l, (l.foldl Dev.loadDefault d).get k = d.cfg.default k) ∧ d.onlyObjects (l.foldl Dev.loadDefault d) l := by
  induction l generalizing d with
  | nil => exact ⟨by simp, rfl, fun _ _ => rfl⟩
  | cons x xs ih =>
    obtain ⟨⟨hi, hs⟩, hxs⟩ := List.forall_mem_cons.mp hl
    have hx := d.loadDefault_of_plain hi hs
    obtain ⟨hdef, hrest, hkept⟩ := ih (d.set x (d.cfg.default x)) hxs
    rw [List.foldl_cons, hx]
    refine ⟨List.forall_mem_cons.mpr ⟨?_, hdef⟩, hrest, fun j hj => ?_⟩
    · by_cases hmem : x ∈ xs
      · exact hdef x hmem
      · rw [hkept x hmem, d.get_set_default hi hs]
    · obtain ⟨hne, hnot⟩ := not_or.mp (mt List.mem_cons.mpr hj)
      rw [hkept j hnot, d.get_set_of_ne j x _ hne]

/-- RESTORE_DEFAULTS (R32). -/
theorem execRestoreDefaults_answers (s : State) (u : UnitId) (e : Env) (v : Nat) (hrun : s.runs u)
    (hacc : (s.unit u).accepts e 0x1011 0 v) :
    Answers (exec (.restoreDefaults u e v) s) s u e 0x02 0x1011 0 0 fun a =>
      if v = 0x64616F6C then a.abort = 0 ∧
        ((∀ k ∈ (s.unit u).savedKeys, k / 256 ∈ plainIndices) →
          (∀ k ∈ (s.unit u).savedKeys, a.dev.get k = (s.dev u).cfg.default k) ∧
          ((s.unit u).heard e).onlyObjects a.dev (s.unit u).savedKeys)
      else a.abort = 0x06 ∧ a.dev = (s.unit u).heard e := by
  show Answers (execRestoreDefaults u e v s) s u e 0x02 0x1011 0 0 _
  unfold execRestoreDefaults
  refine State.serveWrite_answers_any (by decide) hrun hacc (fun r hr => config_row (.inr rfl) hr) ?_
  unfold Dev.restoreDefaultsAns guardAns
  by_cases hv : v = 0x64616F6C
  · simp only [hv, decide_true, if_true, Dev.heard_savedKeys]
    refine ⟨rfl, fun hplain => ?_⟩
    have hsaved : ∀ k ∈ (s.unit u).savedKeys, ((s.unit u).heard e).cfg.isSaved k = true := fun k hk => by
      rw [Dev.heard_cfg]
      exact (List.mem_filter.mp hk).2
    have h := Dev.foldl_loadDefault _ _ fun k hk => ⟨hplain k hk, hsaved k hk⟩
    rw [Dev.heard_cfg] at h
    exact h
  · simp only [hv, decide_false, if_false]
    exact ⟨rfl, rfl⟩

/-- Settles O8, by what the trunk's and the leaf's `StoreConfig`, the end of a wait, and `RestoreDefaults` each answer. -/
theorem configurationIsStoredAndRestored : Obligations.ConfigurationIsStoredAndRestored :=
  ⟨execStoreConfig_trunk_answers, execStoreConfig_leaf, execStoreConfigTimeout_yields, execCommitConfirmation_yields,
    execRestoreDefaults_answers⟩

end Sys2Proof.Machine
end

section
/-! SUPPORT. The indirection pairs of the local port (R63, R64). -/

namespace Sys2Proof.Machine

open Sys2Proof

/-! ### The objects of a pair -/

theorem State.built_leaf {s : State} (h : s.built) (l : LeafId) : (s.dev (.leaf l)).cfg.build = .leaf := by
  obtain ⟨hleaf, hself, -⟩ := h
  cases l
  · exact hleaf
  · exact hself

/-- The rows of a pair's Select, Data, Commit and Length on every leaf. -/
theorem pair_rows {c : Cfg} (hc : c.build = .leaf) {p : Nat} (hp : p < 4) :
    c.rowOf (0x1180 + p) 1 = some (row 0x1180 0x1183 0x01 0x01 .u64 .rw 0 false .leaf (.any) 8) ∧
    c.rowOf (0x1180 + p) 2 = some (row 0x1180 0x1183 0x02 0x02 .u64 .rw 0 false .leaf (.any) 8) ∧
    c.rowOf (0x1180 + p) 3 = some (row 0x1180 0x1183 0x03 0x03 .u8 .cmd 0 false .leaf (.any) 1) ∧
    c.rowOf (0x1180 + p) 4 = some (row 0x1180 0x1183 0x04 0x04 .u32 .rw 0 false .leaf (.any) 4) := by
  have hrow : ∀ sub, c.rowOf (0x1180 + p) sub = rows11.find? fun r =>
      r.first ≤ 0x1180 + p && 0x1180 + p ≤ r.last && r.sub ≤ sub && sub ≤ r.subEnd && r.builds.has .leaf := fun sub => by
    have hpresent : c.present (0x1180 + p) sub = true := by interval_cases p <;> rfl
    rw [Cfg.rowOf, if_pos hpresent, hc]
    interval_cases p <;> rfl
  simp only [hrow]
  interval_cases p <;> exact ⟨rfl, rfl, rfl, rfl⟩

theorem pair_hasIndex {c : Cfg} (hc : c.build = .leaf) {p : Nat} (hp : p < 4) : c.hasIndex (0x1180 + p) = true := by
  interval_cases p <;> simp [Cfg.hasIndex, Cfg.present, rowsOf, rows11, row, hc, Builds.has]

/-- A pair's Select holds 64 bits. -/
theorem Dev.get_set_select (d : Dev) (hc : d.cfg.build = .leaf) {p v : Nat} (hp : p < 4) (hv : v < 2 ^ 64) :
    (d.set (key (0x1180 + p) 1) v).get (key (0x1180 + p) 1) = v :=
  d.get_set_of_row (by decide) (pair_rows hc hp).1 rfl hv

/-- A pair's Length holds 32 bits. -/
theorem Dev.get_set_length (d : Dev) (hc : d.cfg.build = .leaf) {p v : Nat} (hp : p < 4) (hv : v < 2 ^ 32) :
    (d.set (key (0x1180 + p) 4) v).get (key (0x1180 + p) 4) = v :=
  d.get_set_of_row (by decide) (pair_rows hc hp).2.2.2 rfl hv

/-- The Offset, subindex and index that a Select is made of. -/
theorem selectOf_pack {off sub i : Nat} (ho : off < 2 ^ 32) (hs : sub < 2 ^ 8) (hi : i < 2 ^ 16) :
    selectOf (off * 2 ^ 24 + sub * 2 ^ 16 + i) = (off, sub, i) := by
  simp only [selectOf, field, Prod.mk.injEq]
  omega

theorem pack_lt {off sub i : Nat} (ho : off < 2 ^ 32) (hs : sub < 2 ^ 8) (hi : i < 2 ^ 16) :
    off * 2 ^ 24 + sub * 2 ^ 16 + i < 2 ^ 64 := by omega

theorem selectOf_lt (v : Nat) : (selectOf v).1 < 2 ^ 32 ∧ (selectOf v).2.1 < 2 ^ 8 ∧ (selectOf v).2.2 < 2 ^ 16 := by
  simp only [selectOf, field]
  omega

theorem Dev.pair_setPair_self (d : Dev) {p : Nat} (x : Pair) (hp : p < d.srv.pairs.length) : (d.setPair p x).pair p = x := by
  simp [Dev.pair, Dev.setPair, hp]

/-- An access to a pair's Data moves Offset on by 8 and keeps the rest of Select (R64). -/
theorem Dev.selectOf_advancePair (d : Dev) (hc : d.cfg.build = .leaf) {p : Nat} (hp : p < 4) :
    let sel := selectOf (d.get (key (0x1180 + p) 1))
    selectOf ((d.advancePair p).get (key (0x1180 + p) 1)) = ((sel.1 + 8) % 2 ^ 32, sel.2.1, sel.2.2) := by
  intro sel
  have hs : sel.2.1 < 2 ^ 8 := (selectOf_lt _).2.1
  have hi : sel.2.2 < 2 ^ 16 := (selectOf_lt _).2.2
  have ho : (sel.1 + 8) % 2 ^ 32 < 2 ^ 32 := Nat.mod_lt _ (by decide)
  have hset : (d.advancePair p).get (key (0x1180 + p) 1) = (sel.1 + 8) % 2 ^ 32 * 2 ^ 24 + sel.2.1 * 2 ^ 16 + sel.2.2 :=
    d.get_set_select hc hp (pack_lt ho hs hi)
  rw [hset, selectOf_pack ho hs hi]

theorem Dev.advancePair_onlyObjects (d : Dev) (p : Nat) : d.onlyObjects (d.advancePair p) [key (0x1180 + p) 1] :=
  d.set_onlyObjects _ _

/-! ### Reads and writes of Data -/

theorem bytesAt_whole {bs : Bytes} {n : Nat} (h : bs.length = n) : bytesAt bs 0 n = bs := by
  simpa using bytesAt_append_left bs [] n h

/-- A leaf hears every request of its local port. -/
theorem Dev.hears_of_lp {d : Dev} {e : Env} (hc : d.cfg.build = .leaf) (hlp : e.via = .lp) : d.hears e := by
  refine ⟨?_, ?_, fun h => absurd hlp h⟩
  · rw [Dev.hearsFrame, hlp]
  · rw [Dev.takes, hlp]
    simp [Dev.isTrunk, hc]

/-- What a read of a pair's Data on the local port answers. -/
theorem Dev.readAns_pairData (d : Dev) {e : Env} {p : Nat} (hc : d.cfg.build = .leaf) (hp : p < 4) (huser : e.user = false)
    (hq : d.quickset = false) :
    d.readAns (pairEnv e) (0x1180 + p) 2 0 8 = { dev := d.advancePair p, data := leBytes 8 (d.pairData p) } := by
  obtain ⟨hrow1, hrow2, -, -⟩ := pair_rows hc hp
  have hserves : d.serves (0x1180 + p) = true := by
    rw [Dev.serves, if_neg (by simp [hq]), pair_hasIndex hc hp]
    simp
    omega
  have hres : isRes d.cfg (0x1180 + p) = false := by
    rw [isRes, hrow1]
    rfl
  have hlp : d.readAns (pairEnv e) (0x1180 + p) 2 0 8 = d.lpRead (pairEnv e) (0x1180 + p) 2 0 8 := if_pos rfl
  rw [hlp, d.lpRead_of_scalar (pairEnv e) (0x1180 + p) 2 0 8 huser hserves hrow2 (by decide) (by decide) rfl hres (by decide)
    (by decide) (by decide)]
  have hval : d.value (0x1180 + p) 2 = d.pairData p := by interval_cases p <;> rfl
  have heff : d.readEffect (0x1180 + p) 2 = d.advancePair p := by interval_cases p <;> rfl
  rw [hval, heff]
  exact congrArg (fun bs => ({ dev := d.advancePair p, data := bs } : Ans)) (bytesAt_whole (length_leBytes 8 _))

theorem execLocalIndirectDataRead_answers (s : State) (l : LeafId) (e : Env) (p : Nat) (hbuilt : s.built)
    (hrun : s.runs (.leaf l)) (hp : p < 4) (huser : e.user = false) (hq : (s.unit (.leaf l)).quickset = false) :
    Answers (exec (.localIndirectDataRead l e p) s) s (.leaf l) (pairEnv e) 0x01 (0x1180 + p) 2 0 fun a =>
      let sel := selectOf ((s.dev (.leaf l)).get (key (0x1180 + p) 1))
      a.abort = 0 ∧ a.data = leBytes 8 ((s.unit (.leaf l)).pairData p) ∧
      selectOf (a.dev.get (key (0x1180 + p) 1)) = ((sel.1 + 8) % 2 ^ 32, sel.2.1, sel.2.2) ∧
      (s.unit (.leaf l)).onlyObjects a.dev [key (0x1180 + p) 1] := by
  have hc : (s.unit (.leaf l)).cfg.build = .leaf := s.built_leaf hbuilt l
  show Answers (execLocalIndirectDataRead l e p s) s (.leaf l) _ _ _ _ _ _
  unfold execLocalIndirectDataRead State.onLeaf
  simp only [hp, if_true]
  refine State.serve_answers (f := fun d => d.readAns (pairEnv e) (0x1180 + p) 2 0 8) id hrun ?_ ?_
  · exact Dev.hears_of_lp hc rfl
  · rw [Dev.heard_of_lp _ rfl, id, Dev.readAns_pairData _ hc hp huser hq]
    exact ⟨rfl, rfl, Dev.selectOf_advancePair _ hc hp, Dev.advancePair_onlyObjects _ p⟩

theorem execLocalIndirectDataWrite_answers (s : State) (l : LeafId) (e : Env) (p : Nat) (v : Word) (hbuilt : s.built)
    (hrun : s.runs (.leaf l)) (hp : p < 4) (hacc : (s.unit (.leaf l)).accepts (pairEnv e) (0x1180 + p) 2 v.toNat)
    (hlen : p < (s.dev (.leaf l)).srv.pairs.length) :
    Answers (exec (.localIndirectDataWrite l e p v) s) s (.leaf l) (pairEnv e) 0x02 (0x1180 + p) 2 0 fun a =>
      let sel := selectOf ((s.dev (.leaf l)).get (key (0x1180 + p) 1))
      a.abort = 0 ∧ (a.dev.pair p).staging = patch ((s.dev (.leaf l)).pair p).staging sel.1 (leBytes 8 v.toNat) ∧
      (a.dev.pair p).copy = ((s.dev (.leaf l)).pair p).copy ∧
      selectOf (a.dev.get (key (0x1180 + p) 1)) = ((sel.1 + 8) % 2 ^ 32, sel.2.1, sel.2.2) ∧
      (s.unit (.leaf l)).objectsKept a.dev [key (0x1180 + p) 1] := by
  have hc : (s.unit (.leaf l)).cfg.build = .leaf := s.built_leaf hbuilt l
  show Answers (execLocalIndirectDataWrite l e p v s) s (.leaf l) _ _ _ _ _ _
  unfold execLocalIndirectDataWrite State.onLeaf
  simp only [hp, if_true]
  refine State.serveWrite_answers id hrun hacc (by decide) (pair_rows hc hp).2.1 ?_
  rw [Row.masked_of_any rfl, Dev.heard_of_lp _ rfl, id]
  set d := s.unit (.leaf l)
  set x : Pair := { d.pair p with staging := patch (d.pair p).staging (selectOf (d.get (key (0x1180 + p) 1))).1 (leBytes 8 v.toNat) }
  have hpair : ((d.setPair p x).advancePair p).pair p = x := d.pair_setPair_self x hlen
  have hans : d.pairDataAns p v.toNat = ok ((d.setPair p x).advancePair p) := rfl
  rw [hans]
  refine ⟨rfl, congrArg Pair.staging hpair, (congrArg Pair.copy hpair).trans rfl, Dev.selectOf_advancePair (d.setPair p x) hc hp, ?_⟩
  exact (Dev.advancePair_onlyObjects (d.setPair p x) p).2

theorem Dev.leaf_of_hears_lp {d : Dev} {e : Env} (h : d.hears e) (hlp : e.via = .lp) : d.cfg.build = .leaf := by
  obtain ⟨-, htakes, -⟩ := h
  rw [Dev.takes, hlp] at htakes
  cases hb : d.cfg.build with
  | leaf => rfl
  | trunk => simp [Dev.isTrunk, hb] at htakes

/-! ### Commit -/

theorem leNat_lt (bs : Bytes) : leNat bs < 2 ^ (8 * bs.length) := by
  induction bs with
  | nil => decide
  | cons b bs ih =>
    have hb := b.isLt
    have hpow : 2 ^ (8 * (bs.length + 1)) = 256 * 2 ^ (8 * bs.length) := by rw [Nat.mul_succ, Nat.pow_add, Nat.mul_comm]
    rw [leNat, List.length_cons, hpow]
    omega

theorem natAt_lt (bs : Bytes) (off n : Nat) : natAt bs off n < 2 ^ (8 * n) := by
  have h := leNat_lt (bytesAt bs off n)
  rwa [bytesAt_length] at h

theorem Dev.beginCmd_of_row (d : Dev) {i s : Nat} {r : Row} (hs : s < 256) (hr : d.cfg.rowOf i s = some r) (h : r.acc ≠ .cmd) :
    d.beginCmd (key i s) = d := by
  rw [Dev.beginCmd, key_div hs, key_mod hs, hr]
  exact if_neg (by simpa using h)

/-- A Commit of 1 with a plain setting selected and a value in its range staged stores the value (R64). -/
theorem Dev.pairCommitAns_of_plain (d : Dev) (e : Env) (p : Nat) {r : Row} {i sub : Nat}
    (hsel : (selectOf (d.get (key (0x1180 + p) 1))).2 = (sub, i)) (hi : i ∈ plainIndices) (hsub : sub < 256)
    (hserves : d.serves i = true) (hr : d.cfg.rowOf i sub = some r) (hacc : r.acc = .rw) (hblob : r.ty.isBlob = false)
    (hlen : d.get (key (0x1180 + p) 4) = r.ty.size) (hadm : r.admits (natAt (d.pair p).staging 0 r.ty.size) = true) :
    d.pairCommitAns e p 1 = ok (d.set (key i sub) (r.masked (natAt (d.pair p).staging 0 r.ty.size))) := by
  have hidle : d.cmdRuns r i sub = false := by simp [Dev.cmdRuns, hacc]
  have hstore := d.applyWith_of_plain e (r.masked (natAt (d.pair p).staging 0 r.ty.size)) [] hi hr
  have hbegun : ∀ v, (d.store i sub v).begun (key i sub) = ok (d.set (key i sub) v) := fun v => by
    have := (d.set (key i sub) v).beginCmd_of_row (i := i) hsub hr (by simp [hacc])
    exact congrArg (fun x => ({ dev := x } : Ans)) this
  unfold Dev.pairCommitAns
  simp only [hsel, hserves, hr, hacc, hblob, hlen, hadm, hidle, hstore, hbegun]
  simp

theorem execLocalIndirectCommit_answers (s : State) (l : LeafId) (e : Env) (p : Nat) (r : Row) (hbuilt : s.built)
    (hrun : s.runs (.leaf l)) (hp : p < 4) (hacc : (s.unit (.leaf l)).accepts (pairEnv e) (0x1180 + p) 3 1) :
    let sel := selectOf ((s.dev (.leaf l)).get (key (0x1180 + p) 1))
    let x := natAt ((s.dev (.leaf l)).pair p).staging 0 r.ty.size
    sel.2.2 ∈ plainIndices → (s.dev (.leaf l)).serves sel.2.2 = true →
    (s.dev (.leaf l)).cfg.rowOf sel.2.2 sel.2.1 = some r → r.acc = .rw → r.ty.isBlob = false → r.admits x = true →
    (s.dev (.leaf l)).get (key (0x1180 + p) 4) = r.ty.size →
    Answers (exec (.localIndirectCommit l e p 1) s) s (.leaf l) (pairEnv e) 0x02 (0x1180 + p) 3 0 fun a =>
      a.abort = 0 ∧ a.dev.get (key sel.2.2 sel.2.1) = r.masked x ∧
      (s.unit (.leaf l)).onlyObjects a.dev [key sel.2.2 sel.2.1] := by
  intro sel x hi hserves hr hrw hblob hadm hlen
  have hc : (s.unit (.leaf l)).cfg.build = .leaf := s.built_leaf hbuilt l
  have hsub : sel.2.1 < 256 := (selectOf_lt _).2.1
  have hx : r.masked x < 2 ^ (8 * r.ty.size) := (r.masked_le x).trans_lt (natAt_lt _ _ _)
  show Answers (execLocalIndirectCommit l e p 1 s) s (.leaf l) _ _ _ _ _ _
  unfold execLocalIndirectCommit State.onLeaf
  simp only [hp, if_true]
  refine Answers.stored (State.serveWrite_answers id hrun hacc (by decide) (pair_rows hc hp).2.2.1 ?_)
  have hans := (s.unit (.leaf l)).pairCommitAns_of_plain (pairEnv e) p rfl hi hsub hserves hr hrw hblob hlen hadm
  rw [Row.masked_of_any rfl, Dev.heard_of_lp _ rfl, id, hans]
  exact ⟨⟨rfl, Dev.get_set_of_row _ hsub hr hblob hx, Dev.set_onlyObjects _ _ _⟩, rfl⟩

/-! ### Select -/

/-- What the build fixes, the server's own state, and the objects below chapter 21 are as they were. -/
structure Dev.LowKept (d d' : Dev) : Prop where
  cfg : d'.cfg = d.cfg
  srv : d'.srv = d.srv
  get : ∀ k < 0x210000, d'.get k = d.get k

theorem Dev.LowKept.refl (d : Dev) : d.LowKept d := ⟨rfl, rfl, fun _ _ => rfl⟩

theorem Dev.LowKept.trans {d d' d'' : Dev} (h : d.LowKept d') (h' : d'.LowKept d'') : d.LowKept d'' :=
  ⟨h'.cfg.trans h.cfg, h'.srv.trans h.srv, fun k hk => (h'.get k hk).trans (h.get k hk)⟩

theorem Dev.LowKept.set (d : Dev) {k : Nat} (v : Nat) (hk : 0x210000 ≤ k) : d.LowKept (d.set k v) :=
  ⟨rfl, rfl, fun j hj => d.get_set_of_ne j k v (by omega)⟩

theorem Dev.LowKept.always (d : Dev) (sub n : Nat) : d.LowKept (d.always sub n) :=
  ⟨d.always_cfg _ _, d.always_srv _ _, fun j hj => d.get_always_of_ne j sub n (by unfold key; omega)⟩

theorem Dev.LowKept.flag (d : Dev) {i : Nat} (b : Nat) (hi : 0x2100 ≤ i) : d.LowKept (d.flag i b) :=
  ⟨d.flag_cfg _ _, d.flag_srv _ _, fun j hj => d.get_flag_of_ne j i b (by unfold key; omega) (by unfold key; omega) (by unfold key; omega)⟩

theorem Dev.LowKept.ite {d a b : Dev} {c : Prop} [Decidable c] (ha : d.LowKept a) (hb : d.LowKept b) :
    d.LowKept (if c then a else b) := by
  split
  · exact ha
  · exact hb

theorem Dev.LowKept.sets (d : Dev) (l : List (Nat × Nat)) : d.LowKept { d with sets := l } := ⟨rfl, rfl, fun _ _ => rfl⟩

theorem Dev.LowKept.modTap (d : Dev) (t : Nat) (f : Tap → Tap) : d.LowKept (d.modTap t f) := ⟨rfl, rfl, fun _ _ => rfl⟩

theorem Dev.LowKept.tapFlag (d : Dev) (t b : Nat) : d.LowKept (d.tapFlag t b) :=
  .trans (.trans (.set d _ (by unfold key; omega)) (.ite (.refl _) (.trans (.sets _ _) (.always _ _ _)))) (.flag _ b (by decide))

theorem Dev.LowKept.scanTap (d : Dev) (t : Nat) : d.LowKept (d.scanTap t) := by
  unfold Dev.scanTap
  exact .ite (.refl d) (.trans (.trans (.ite (.trans (.tapFlag d t 0) (.always _ _ _)) (.refl d)) (.ite (.tapFlag _ t 1) (.refl _)))
    (.modTap _ t _))

theorem Dev.LowKept.foldl {f : Dev → Nat → Dev} (hf : ∀ (d : Dev) n, d.LowKept (f d n)) (l : List Nat) (d : Dev) :
    d.LowKept (l.foldl f d) := by
  induction l generalizing d with
  | nil => exact .refl d
  | cons x xs ih => exact .trans (hf d x) (ih (f d x))

/-- The scan that a read of counters asks for reaches neither the server nor the objects below chapter 21. -/
theorem Dev.LowKept.scanFor (d : Dev) (i : Nat) : d.LowKept (d.scanFor i) := by
  unfold Dev.scanFor
  exact .ite (.scanTap d _) (.ite (.foldl .scanTap _ d) (.refl d))

theorem Dev.LowKept.rearmMinV (d : Dev) {i : Nat} (hi : 0x2100 ≤ i) : d.LowKept (d.rearmMinV i) :=
  .trans (.trans (.set d _ (by unfold key; omega)) (.set _ _ (by unfold key; omega))) ⟨rfl, rfl, fun _ _ => rfl⟩

/-- Re-arming a sensor's minimum changes its MinV and MinStamp alone (R157). -/
theorem Dev.rearmMinV_objectsKept (d : Dev) (i : Nat) : d.objectsKept (d.rearmMinV i) [key i 2, key i 3] := by
  intro k hk
  obtain ⟨h2, h3⟩ : k ≠ key i 2 ∧ k ≠ key i 3 := by simpa using hk
  have hdef : (d.rearmMinV i).get k =
      ((d.set (key i 3) (d.pow.runStamp.getD (i - 0x2410) 0)).set (key i 2) 0xFFFFFFFF).get k := rfl
  rw [hdef, Dev.get_set_of_ne _ _ _ _ h2, Dev.get_set_of_ne _ _ _ _ h3]

/-- What a latching Select does to the minimum of a sensor whose MinV it names (R157). -/
def Dev.rearmedFor (d : Dev) (i sub : Nat) : Dev := if isVolt i && sub = 2 then d.rearmMinV i else d

theorem Dev.LowKept.rearmedFor (d : Dev) (i sub : Nat) : d.LowKept (d.rearmedFor i sub) := by
  unfold Dev.rearmedFor
  split
  · next h =>
    have hi : 0x2410 ≤ i := by
      simp only [isVolt, Bool.and_eq_true, decide_eq_true_eq] at h
      exact h.1.1
    exact .rearmMinV d (by omega)
  · exact .refl d

theorem Dev.rearmedFor_objectsKept (d : Dev) (i sub : Nat) :
    d.objectsKept (d.rearmedFor i sub) (if isVolt i && sub = 2 then [key i 2, key i 3] else []) := by
  unfold Dev.rearmedFor
  split
  · exact d.rearmMinV_objectsKept i
  · exact fun _ _ => rfl

/-- What a latching Select makes of the unit once the counters are scanned: the copy `bs`, and Length (R64; log 95). -/
def Dev.pairLatched (d : Dev) (p i sub : Nat) (bs : Bytes) : Dev :=
  ((d.rearmedFor i sub).setPair p { copy := bs, staging := [] }).set (key (0x1180 + p) 4) bs.length

theorem Dev.get_pairLatched_of_ne (d : Dev) {p i sub k : Nat} (bs : Bytes) (h : k ≠ key (0x1180 + p) 4) :
    (d.pairLatched p i sub bs).get k = (d.rearmedFor i sub).get k :=
  Dev.get_set_of_ne _ _ _ _ h

/-- A Select of a value with Offset 0 latches the bytes of the object that it names. -/
theorem Dev.pairSelectAns_of_start (d : Dev) {p v sub i : Nat} {r : Row} (hsel : selectOf (v % 2 ^ 56) = (0, sub, i))
    (hserves : d.serves i = true) (hr : d.cfg.rowOf i sub = some r) (href : d.readRefused i = false) (hwo : r.acc ≠ .wo)
    (hcmd : r.acc ≠ .cmd) (hres : ∀ x, d.srv.resLatch = some x → x.1 ≠ i) :
    d.pairSelectAns p v =
      let d1 := (d.set (key (0x1180 + p) 1) (v % 2 ^ 56)).scanFor i
      ok (d1.pairLatched p i sub (d1.wire i sub r.ty)) := by
  unfold Dev.pairSelectAns
  generalize v % 2 ^ 56 = w at hsel
  dsimp only
  rw [hsel]
  dsimp only
  rw [if_neg (by decide), hserves, if_neg (by decide), hr, href]
  dsimp only
  have hbytes : (decide (r.acc = .wo) || decide (r.acc = .cmd)) = false := by simp [hwo, hcmd]
  rw [if_neg (by decide), hbytes]
  cases hl : d.srv.resLatch with
  | none => rfl
  | some x =>
    have hnot : ¬ (decide (x.1 = i) && r.acc == Access.res) = true := by simp [hres x hl]
    dsimp only
    rw [if_neg hnot]
    rfl

theorem Dev.pairSelectAns_of_later (d : Dev) {p v : Nat} (hoff : (selectOf (v % 2 ^ 56)).1 ≠ 0) :
    d.pairSelectAns p v = ok (d.set (key (0x1180 + p) 1) (v % 2 ^ 56)) := by
  unfold Dev.pairSelectAns
  exact if_pos (bne_iff_ne.mpr hoff)

theorem execLocalIndirectSelect_answers (s : State) (l : LeafId) (e : Env) (p : Nat) (v : Word) (r : Row)
    (hrun : s.runs (.leaf l)) (hp : p < 4) :
    let d0 := (s.unit (.leaf l)).runBefore e
    let sel := selectOf (v.toNat % 2 ^ 56)
    let d1 := (d0.set (key (0x1180 + p) 1) (v.toNat % 2 ^ 56)).scanFor sel.2.2
    let bs := d1.wire sel.2.2 sel.2.1 r.ty
    d0.accepts (pairEnv e) (0x1180 + p) 1 v.toNat →
    (sel.1 = 0 → d0.serves sel.2.2 = true ∧ d0.cfg.rowOf sel.2.2 sel.2.1 = some r ∧
      d0.readRefused sel.2.2 = false ∧ r.acc ≠ .wo ∧ r.acc ≠ .cmd ∧ (∀ x, d0.srv.resLatch = some x → x.1 ≠ sel.2.2) ∧
      sel.2.2 ∉ [0x1180, 0x1181, 0x1182, 0x1183] ∧ bs.length < 2 ^ 32) →
    Answers (exec (.localIndirectSelect l e p v) s) s (.leaf l) (pairEnv e) 0x02 (0x1180 + p) 1 0 fun a =>
      a.abort = 0 ∧ a.dev.get (key (0x1180 + p) 1) = v.toNat % 2 ^ 56 ∧
      (sel.1 = 0 → a.dev.get (key (0x1180 + p) 4) = bs.length ∧
        (p < d0.srv.pairs.length → a.dev.pair p = { copy := bs, staging := [] }) ∧
        d1.objectsKept a.dev ([key (0x1180 + p) 1, key (0x1180 + p) 4] ++
          if isVolt sel.2.2 && sel.2.1 = 2 then [key sel.2.2 2, key sel.2.2 3] else [])) ∧
      (sel.1 ≠ 0 → a.dev.srv = d0.srv ∧ d0.objectsKept a.dev [key (0x1180 + p) 1]) := by
  intro d0 sel d1 bs hacc hstart
  obtain ⟨-, -, -, r0, hr0, -⟩ := id hacc
  have hcfg : d0.cfg.build = .leaf := Dev.leaf_of_hears_lp hacc.1 rfl
  have hv : v.toNat % 2 ^ 56 < 2 ^ 64 := (Nat.mod_lt _ (by decide)).trans (by decide)
  show Answers (execLocalIndirectSelect l e p v s) s (.leaf l) _ _ _ _ _ _
  unfold execLocalIndirectSelect State.onLeaf
  simp only [hp, if_true]
  refine State.serveWrite_answers (fun d => d.runBefore e) hrun hacc (by decide) (pair_rows hcfg hp).1 ?_
  rw [Row.masked_of_any rfl, Dev.heard_of_lp _ rfl]
  by_cases hoff : sel.1 = 0
  · obtain ⟨hserves, hr, href, hwo, hcmd, hres, hother, hlen⟩ := hstart hoff
    have hsel : selectOf (v.toNat % 2 ^ 56) = (0, sel.2.1, sel.2.2) := Prod.ext hoff rfl
    rw [d0.pairSelectAns_of_start hsel hserves hr href hwo hcmd hres]
    have hkept : (d0.set (key (0x1180 + p) 1) (v.toNat % 2 ^ 56)).LowKept d1 := .scanFor _ _
    have hlow : d1.LowKept (d1.rearmedFor sel.2.2 sel.2.1) := .rearmedFor d1 _ _
    refine ⟨rfl, ?_, fun _ => ⟨?_, fun hpairs => ?_, fun k hk => ?_⟩, fun h => absurd hoff h⟩
    · show (d1.pairLatched p sel.2.2 sel.2.1 bs).get _ = _
      have hlt : key (0x1180 + p) 1 < 0x210000 := by unfold key; omega
      rw [Dev.get_pairLatched_of_ne _ _ (by unfold key; omega), hlow.get _ hlt, hkept.get _ hlt, d0.get_set_select hcfg hp hv]
    · refine Dev.get_set_length _ ?_ hp hlen
      exact (congrArg Cfg.build (hlow.cfg.trans hkept.cfg)).trans hcfg
    · refine Dev.pair_setPair_self (d1.rearmedFor sel.2.2 sel.2.1) _ ?_
      rwa [hlow.srv, hkept.srv]
    · obtain ⟨hpair, hvolt⟩ := not_or.mp (mt List.mem_append.mpr hk)
      have hne : k ≠ key (0x1180 + p) 4 := fun h => hpair (by simp [h])
      exact (Dev.get_pairLatched_of_ne d1 bs hne).trans (d1.rearmedFor_objectsKept _ _ k hvolt)
  · rw [d0.pairSelectAns_of_later hoff]
    exact ⟨rfl, d0.get_set_select hcfg hp hv, fun h => absurd h hoff, fun _ => ⟨rfl, (d0.set_onlyObjects _ _).2⟩⟩

/-- Settles O9, by what each of a pair's four commands answers. -/
theorem indirectionPairsReachAnyObject : Obligations.IndirectionPairsReachAnyObject := by
  refine ⟨fun s l e p v r _ => execLocalIndirectSelect_answers s l e p v r, fun s l e p hbuilt hrun hp huser hq _ => ?_,
    fun s l e p v hbuilt hrun hp hacc _ hlen => ?_, execLocalIndirectCommit_answers⟩
  · exact execLocalIndirectDataRead_answers s l e p hbuilt hrun hp huser hq
  · exact execLocalIndirectDataWrite_answers s l e p v hbuilt hrun hp hacc hlen

end Sys2Proof.Machine
end

section
/-! SUPPORT. What the operations on an end of a Stem link change (chapter 10). -/

namespace Sys2Proof.Machine

open Sys2Proof

/-! ### The objects of an end -/

/-- An object's width, where every row of its index has at least `n` bytes. -/
theorem Cfg.width_of_size (c : Cfg) {k n : Nat} (hn : n ≤ 8) (h : ∀ r ∈ rowsOf (k / 256 / 256), n ≤ r.ty.size) : 8 * n ≤ c.width k := by
  unfold Cfg.width
  split
  · next r hr =>
    have := h r (Cfg.rowOf_mem hr).1
    omega
  · omega

theorem stemKey_div {e : StemId} {sub : Nat} (hs : sub < 256) : stemKey e sub / 256 = stemIndex e := key_div hs

theorem stemKey_inj {e : StemId} {a b : Nat} (h : stemKey e a = stemKey e b) : a = b := key_inj h

/-- The index of an end lies in chapter 30 or 65. -/
theorem stemIndex_div {e : StemId} (he : StemId.ok e = true) : stemIndex e / 256 = 0x30 ∨ stemIndex e / 256 = 0x65 := by
  cases e with
  | leaf l => exact .inl (by decide : 0x3001 / 256 = 0x30)
  | trunk n =>
    have hn : n < 256 := by simpa [StemId.ok] using he
    simp only [stemIndex]
    omega

theorem width_stemKey (c : Cfg) {e : StemId} {sub : Nat} (he : StemId.ok e = true) (hs : sub < 256) :
    8 ≤ c.width (stemKey e sub) := by
  refine c.width_of_size (n := 1) (by decide) ?_
  rw [stemKey_div hs]
  rcases stemIndex_div he with h | h <;> rw [h] <;> decide

/-- An object of an end holds a byte. -/
theorem Dev.get_set_stemKey (d : Dev) {e : StemId} {sub v : Nat} (he : StemId.ok e = true) (hs : sub < 256) (hv : v < 256) :
    (d.set (stemKey e sub) v).get (stemKey e sub) = v :=
  d.get_set_of_width (w := 8) (width_stemKey _ he hs) (by decide) hv

theorem stemKey_ge (e : StemId) (sub : Nat) : 0x300100 ≤ stemKey e sub := by
  cases e with
  | leaf l => simp only [stemKey, stemIndex, key]; omega
  | trunk n => simp only [stemKey, stemIndex, key]; omega

theorem stemKey_ne_of_div {e : StemId} {sub k : Nat} (he : StemId.ok e = true) (hs : sub < 256)
    (hk : k / 256 ≠ 0x3001 ∧ k / 256 / 256 ≠ 0x65) : stemKey e sub ≠ k := by
  rintro rfl
  rw [stemKey_div hs] at hk
  cases e with
  | leaf l => exact hk.1 rfl
  | trunk n =>
    have hn : n < 256 := by simpa [StemId.ok] using he
    have : (0x6500 + n) / 256 ≠ 0x65 := hk.2
    omega

/-- A flag other than those of an end's own index leaves the end's objects as they are. -/
theorem Dev.get_stemKey_flag (d : Dev) {e : StemId} {sub i b : Nat} (he : StemId.ok e = true) (hs : sub < 256)
    (hi : i = 0x3002 ∨ i = 0x1804) (hb : b < 255) : (d.flag i b).get (stemKey e sub) = d.get (stemKey e sub) := by
  have hi' : ∀ t < 256, key i t / 256 = i ∧ key (i + 1) t / 256 = i + 1 := fun t ht => ⟨key_div ht, key_div ht⟩
  refine d.get_flag_of_ne _ i b (stemKey_ne_of_div he hs ?_) (stemKey_ne_of_div he hs ?_) (stemKey_ne_of_div he hs (by decide))
  · rw [(hi' 0 (by decide)).1]; omega
  · rw [(hi' (b + 1) (by omega)).2]; omega

/-- A flag that is set shows in its register. -/
theorem Dev.testBit_flag (d : Dev) {i b : Nat} (hb : b < 8) (hw : 8 ≤ d.cfg.width (key i 0)) (hi : key i 0 ≠ key 0x2108 0x22) :
    ((d.flag i b).get (key i 0)).testBit b = true := by
  have hset : ((d.set (key i 0) (setBit (d.get (key i 0)) b)).get (key i 0)).testBit b = true := by
    rw [Dev.testBit_get_set _ (by omega) (by omega), testBit_setBit]
    simp
  unfold Dev.flag
  dsimp only
  split
  · exact hset
  · have hne : key i 0 ≠ key (i + 1) (b + 1) := by unfold key; omega
    show ((Dev.always _ 0x22 1).get (key i 0)).testBit b = true
    rw [Dev.get_always_of_ne _ _ _ _ hi, Dev.get_set_of_ne _ _ _ _ hne]
    exact hset

/-- A flag of the link is set. -/
theorem Dev.testBit_flag_stem (d : Dev) {b : Nat} (hb : b < 8) : ((d.flag 0x3002 b).get 0x3002_00).testBit b = true :=
  d.testBit_flag hb (d.cfg.width_of_size (n := 1) (by decide) (by decide)) (by decide)

/-! ### Ends -/

/-- Does the unit have the end? -/
def Dev.hasEnd (d : Dev) : StemId → Prop
  | .leaf _ => True
  | .trunk n => n < d.tk.fab.stems.length

theorem Dev.stemAt_congr {d d' : Dev} (hstem : d'.stem = d.stem) (htk : d'.tk = d.tk) (e : StemId) : d'.stemAt e = d.stemAt e := by
  cases e with
  | leaf l => exact hstem
  | trunk n => simp only [Dev.stemAt, htk]

theorem Dev.stemAt_modStem (d : Dev) {e : StemId} (f : StemEnd → StemEnd) (h : d.hasEnd e) :
    (d.modStem e f).stemAt e = f (d.stemAt e) := by
  cases e with
  | leaf l => rfl
  | trunk n =>
    have hn : n < d.tk.fab.stems.length := h
    simp [Dev.stemAt, Dev.modStem, Dev.modFab, hn]

@[simp] theorem Dev.modStem_objs (d : Dev) (e : StemId) (f : StemEnd → StemEnd) : (d.modStem e f).objs = d.objs := by
  cases e <;> rfl

@[simp] theorem Dev.modStem_cfg (d : Dev) (e : StemId) (f : StemEnd → StemEnd) : (d.modStem e f).cfg = d.cfg := by
  cases e <;> rfl

@[simp] theorem Dev.modStem_out (d : Dev) (e : StemId) (f : StemEnd → StemEnd) : (d.modStem e f).out = d.out := by
  cases e <;> rfl

theorem Dev.get_congr {d d' : Dev} (hobjs : d'.objs = d.objs) (hcfg : d'.cfg = d.cfg) (k : Nat) : d'.get k = d.get k := by
  simp only [Dev.get, hobjs, hcfg]

@[simp] theorem Dev.modStem_get (d : Dev) (e : StemId) (f : StemEnd → StemEnd) (k : Nat) : (d.modStem e f).get k = d.get k :=
  Dev.get_congr (by simp) (by simp) k

/-! ### What stays when an end leaves UP -/

/-- What the build fixes, the unit's time and the number of its ends are as they were. -/
structure Dev.BaseKept (d d' : Dev) : Prop where
  cfg : d'.cfg = d.cfg
  ns : d'.time.ns = d.time.ns
  stems : d'.tk.fab.stems.length = d.tk.fab.stems.length

namespace Dev.BaseKept

theorem refl (d : Dev) : d.BaseKept d := ⟨rfl, rfl, rfl⟩

theorem trans {a b c : Dev} (h : a.BaseKept b) (h' : b.BaseKept c) : a.BaseKept c :=
  ⟨h'.cfg.trans h.cfg, h'.ns.trans h.ns, h'.stems.trans h.stems⟩

theorem of_eq {d d' : Dev} (hcfg : d'.cfg = d.cfg) (htime : d'.time = d.time) (htk : d'.tk = d.tk) : d.BaseKept d' :=
  ⟨hcfg, congrArg _ htime, by rw [htk]⟩

theorem ite {d a b : Dev} {c : Prop} [Decidable c] (ha : d.BaseKept a) (hb : d.BaseKept b) : d.BaseKept (if c then a else b) := by
  split
  · exact ha
  · exact hb

theorem hasEnd {d d' : Dev} (h : d.BaseKept d') {e : StemId} (he : d.hasEnd e) : d'.hasEnd e := by
  cases e with
  | leaf l => trivial
  | trunk n => exact Nat.lt_of_lt_of_eq he h.stems.symm

theorem set (d : Dev) (k v : Nat) : d.BaseKept (d.set k v) := .of_eq rfl rfl rfl

theorem add (d : Dev) (k n : Nat) : d.BaseKept (d.add k n) := .of_eq (by simp) (by simp) (by simp)

theorem inc (d : Dev) (k : Nat) : d.BaseKept (d.inc k) := .add d k 1

theorem always (d : Dev) (sub n : Nat) : d.BaseKept (d.always sub n) := .of_eq (by simp) (by simp) (by simp)

theorem flag (d : Dev) (i b : Nat) : d.BaseKept (d.flag i b) := .of_eq (by simp) (by simp) (by simp)

theorem modSrc (d : Dev) (s : Nat) (f : TSource → TSource) : d.BaseKept (d.modSrc s f) := .of_eq rfl rfl rfl

theorem modStem (d : Dev) (e : StemId) (f : StemEnd → StemEnd) : d.BaseKept (d.modStem e f) := by
  cases e with
  | leaf l => exact .of_eq rfl rfl rfl
  | trunk n => exact ⟨rfl, rfl, List.length_modify _ _ _⟩

theorem emit (d : Dev) (o : Out) : d.BaseKept (d.emit o) := .of_eq rfl rfl rfl

theorem modLine (d : Dev) (e : StemId) (f : StemLine → StemLine) : d.BaseKept (d.modLine e f) := .ite (.refl d) (.modStem d e _)

theorem sendBlock (d : Dev) (e : StemId) (t : Nat) (bs : Bytes) : d.BaseKept (d.sendBlock e t bs) :=
  .trans (.emit d _) (.modLine _ e _)

theorem enqueue (d : Dev) (s : Nat) (p : TPkt) : d.BaseKept (d.enqueue s p) := .trans (.inc d _) (.modSrc _ s _)

theorem putOverflow (d : Dev) (s lost tag : Nat) (capture toCap : Bool) : d.BaseKept (d.putOverflow s lost tag capture toCap) :=
  .trans (.trans (.trans (.trans (.trans (.enqueue d s _) (.enqueue _ s _)) (.modSrc _ s _)) (.always _ _ _)) (.add _ _ _)) (.flag _ _ _)

theorem reportLoss (d : Dev) (s : Nat) : d.BaseKept (d.reportLoss s) := by
  unfold Dev.reportLoss
  refine .ite (.refl d) ?_
  split
  · exact .trans (.modSrc d s _) (.putOverflow _ s _ _ _ _)
  · exact .ite (.trans (.modSrc d s _) (.putOverflow _ s _ _ _ _)) (.ite (.trans (.modSrc d s _) (.putOverflow _ s _ _ _ _)) (.refl d))

theorem loseCapture (d : Dev) (s n : Nat) : d.BaseKept (d.loseCapture s n) := by
  unfold Dev.loseCapture
  split
  · exact .refl d
  · exact .trans (.trans (.modSrc d s _) (.trans (.inc _ _) (.flag _ _ _))) (.reportLoss _ s)

theorem foldl {f : Dev → Nat → Dev} (hf : ∀ (d : Dev) n, d.BaseKept (f d n)) (l : List Nat) (d : Dev) : d.BaseKept (l.foldl f d) := by
  induction l generalizing d with
  | nil => exact .refl d
  | cons x xs ih => exact .trans (hf d x) (ih (f d x))

theorem setQueue (d : Dev) (src : Nat) (q : List Xfer) : d.BaseKept (d.setQueue src q) := .of_eq rfl rfl rfl

theorem loseQueued (d : Dev) : d.BaseKept d.loseQueued :=
  .trans (.foldl (fun d s => .loseCapture d s 0) _ d) (.setQueue _ 4 _)

theorem countSent (d : Dev) (src n : Nat) (yellow : Bool) : d.BaseKept (d.countSent src n yellow) :=
  .ite (.trans (.add d _ _) (.add _ _ _)) (.add d _ _)

theorem setCredit (d : Dev) (src : Nat) (v : Int) : d.BaseKept (d.setCredit src v) := .of_eq rfl rfl rfl

theorem arb (d : Dev) (a : Arbiter) : d.BaseKept { d with arb := a } := .of_eq rfl rfl rfl

theorem cutLine (d : Dev) (sent : Nat) : d.BaseKept (d.cutLine sent) := by
  unfold Dev.cutLine
  split
  · exact .refl d
  · next src yellow _ =>
    exact .trans (.trans (.trans (.countSent d _ _ _) (.ite (.refl _) (.setCredit _ _ _))) (.trans (.add _ _ _) (.always _ _ _)))
      (.trans (.arb _ _) (.setQueue _ _ _))

theorem modRec (d : Dev) (p : Rec → Bool) (f : Rec → Rec) : d.BaseKept (d.modRec p f) := .of_eq rfl rfl rfl

theorem restartStreams (d : Dev) : d.BaseKept d.restartStreams := .of_eq rfl rfl rfl

theorem leafLinkLost (d : Dev) : d.BaseKept d.leafLinkLost := by
  unfold Dev.leafLinkLost
  refine .trans (.trans (.cutLine d _) (.trans (.trans (.add _ _ _) (.setQueue _ _ _))
    (.trans (.trans (.setQueue _ _ _) (.loseQueued _)) (.restartStreams _)))) (.ite (.modRec _ _ _) (.refl _))

theorem trunkLinkLost (d : Dev) (n : Nat) : d.BaseKept (d.trunkLinkLost n) := ⟨rfl, rfl, rfl⟩

theorem abortAt (d : Dev) (e : StemId) : d.BaseKept (d.abortAt e) := by
  unfold Dev.abortAt
  split
  · exact .trans (.trans (.trans (.modStem d e _) (.modLine _ e _)) (.inc _ _)) (.sendBlock _ e _ _)
  · exact .refl d

end Dev.BaseKept

/-! ### Blocks on an end's lanes -/

/-- Of the unit's objects none has changed, and of the end only what its lanes are to send. -/
structure Dev.OnLane (e : StemId) (d d' : Dev) : Prop where
  base : d.BaseKept d'
  objs : d'.objs = d.objs
  stem : d'.stemAt e = { d.stemAt e with line := (d'.stemAt e).line }

namespace Dev.OnLane

theorem refl (e : StemId) (d : Dev) : d.OnLane e d := ⟨.refl d, rfl, rfl⟩

theorem trans {e : StemId} {a b c : Dev} (h : a.OnLane e b) (h' : b.OnLane e c) : a.OnLane e c := by
  refine ⟨h.base.trans h'.base, h'.objs.trans h.objs, ?_⟩
  rw [h'.stem, h.stem]

theorem get {e : StemId} {d d' : Dev} (h : d.OnLane e d') (k : Nat) : d'.get k = d.get k := Dev.get_congr h.objs h.base.cfg k

theorem emit (e : StemId) (d : Dev) (o : Out) : d.OnLane e (d.emit o) := ⟨.emit d o, rfl, by cases e <;> rfl⟩

theorem modLine {e : StemId} {d : Dev} (f : StemLine → StemLine) (h : d.hasEnd e) : d.OnLane e (d.modLine e f) := by
  refine ⟨.modLine d e f, ?_, ?_⟩
  · unfold Dev.modLine
    split <;> simp
  · unfold Dev.modLine
    split
    · rfl
    · rw [d.stemAt_modStem _ h]

theorem sendBlock {e : StemId} {d : Dev} (t : Nat) (bs : Bytes) (h : d.hasEnd e) : d.OnLane e (d.sendBlock e t bs) :=
  .trans (.emit e d _) (.modLine _ ((BaseKept.emit d _).hasEnd h))

theorem appendBlock {e : StemId} {d : Dev} (t : Nat) (bs : Bytes) (h : d.hasEnd e) : d.OnLane e (d.appendBlock e t bs) :=
  .trans (.emit e d _) (.modLine _ ((BaseKept.emit d _).hasEnd h))

theorem foldl {e : StemId} {f : Dev → Nat → Dev} (hf : ∀ (d : Dev) n, d.hasEnd e → d.OnLane e (f d n)) (l : List Nat) (d : Dev)
    (h : d.hasEnd e) : d.OnLane e (l.foldl f d) := by
  induction l generalizing d with
  | nil => exact .refl e d
  | cons x xs ih => exact .trans (hf d x h) (ih (f d x) ((hf d x h).base.hasEnd h))

theorem sendResets {e : StemId} {d : Dev} (kind reason : Nat) (h : d.hasEnd e) : d.OnLane e (d.sendResets e kind reason) :=
  .foldl (fun _ _ h => .appendBlock _ _ h) _ d h

end Dev.OnLane

/-! ### Resets -/

/-- What a unit does with its queues when an end leaves UP (R371, R372). -/
def Dev.linkLost (d : Dev) : StemId → Dev
  | .leaf _ => d.leafLinkLost
  | .trunk n => d.trunkLinkLost n

theorem Dev.BaseKept.linkLost (d : Dev) (e : StemId) : d.BaseKept (d.linkLost e) := by
  cases e with
  | leaf l => exact .leafLinkLost d
  | trunk n => exact .trunkLinkLost d n

theorem Dev.BaseKept.resetLink (d : Dev) (p : TimePort) : d.BaseKept (d.resetLink p) := ⟨rfl, rfl, rfl⟩

theorem Dev.stemAt_resetLink (d : Dev) (e : StemId) (p : TimePort) : (d.resetLink p).stemAt e = d.stemAt e := by cases e <;> rfl

theorem Dev.get_resetLink (d : Dev) (p : TimePort) (k : Nat) : (d.resetLink p).get k = d.get k := rfl

theorem Dev.stemAt_set (d : Dev) (e : StemId) (k v : Nat) : (d.set k v).stemAt e = d.stemAt e := by cases e <;> rfl

/-- A unit that has cleared the queues of an end which leaves UP. -/
def Dev.stemLost (d : Dev) (e : StemId) : Dev := (d.add (stemKey e 0x0E) (d.stemAt e).opens.length).linkLost e

theorem Dev.BaseKept.stemLost (d : Dev) (e : StemId) : d.BaseKept (d.stemLost e) := .trans (.add d _ _) (.linkLost _ e)

/-- A unit whose end has started anew. -/
def Dev.stemAnew (d : Dev) (e : StemId) : Dev :=
  ((d.stemLost e).abortAt e).modStem e fun x => { line := x.line.drop, since := (d.stemLost e).now }

theorem Dev.BaseKept.stemAnew (d : Dev) (e : StemId) : d.BaseKept (d.stemAnew e) :=
  .trans (.stemLost d e) (.trans (.abortAt _ e) (.modStem _ e _))

theorem Dev.stemAt_stemAnew (d : Dev) {e : StemId} (hend : d.hasEnd e) :
    (d.stemAnew e).stemAt e = { line := ((d.stemAnew e).stemAt e).line, since := d.now } := by
  have hlost : d.BaseKept (d.stemLost e) := .stemLost d e
  have hns : (d.stemLost e).now = d.now := hlost.ns
  have hstem := ((d.stemLost e).abortAt e).stemAt_modStem (fun x => { line := x.line.drop, since := (d.stemLost e).now })
    ((hlost.trans (.abortAt _ e)).hasEnd hend)
  rw [hns] at hstem
  rw [Dev.stemAnew, hns, hstem]

theorem Dev.stemDrop_eq (d : Dev) (e : StemId) (state : Nat) :
    d.stemDrop e state = ((d.stemAnew e).set (stemKey e 2) state).resetLink (.stem e) := by
  unfold Dev.stemDrop Dev.stemAnew Dev.stemLost Dev.linkLost
  cases e <;> rfl

/-- An end that leaves UP takes its new state and starts anew, but for what its lanes send (R371). -/
theorem Dev.stemDrop_spec (d : Dev) {e : StemId} {state : Nat} (he : StemId.ok e = true) (hend : d.hasEnd e) (hs : state < 256) :
    d.BaseKept (d.stemDrop e state) ∧ (d.stemDrop e state).stemState e = state ∧
    (d.stemDrop e state).stemAt e = { line := ((d.stemDrop e state).stemAt e).line, since := d.now } := by
  rw [d.stemDrop_eq e state]
  refine ⟨.trans (.stemAnew d e) (.trans (.set _ _ _) (.resetLink _ _)), ?_, ?_⟩
  · rw [Dev.stemState, Dev.get_resetLink, Dev.get_set_stemKey _ he (by decide) hs]
  · rw [Dev.stemAt_resetLink, Dev.stemAt_set]
    exact d.stemAt_stemAnew hend

/-- The state that a reset leads to (R351, R370). -/
def resetState (e : StemId) (lane : Bool) (state : Nat) : Nat :=
  if selfPath e = true ∧ state ≠ 0 then 3 else if lane then 0 else min 3 state

theorem ResetReason.code_lt (r : ResetReason) : r.code < 256 := by cases r <;> decide

/-- The RESET blocks of a reset that does not answer one of the peer's (R370). -/
def Dev.resetSent (d : Dev) (e : StemId) (lane : Bool) (r : ResetReason) : Dev :=
  if r = .peer then d else d.sendResets e (if lane then 2 else 1) r.code

theorem Dev.resetSent_onLane (d : Dev) {e : StemId} (lane : Bool) (r : ResetReason) (h : d.hasEnd e) :
    d.OnLane e (d.resetSent e lane r) := by
  unfold Dev.resetSent
  split
  · exact .refl e d
  · exact .sendResets _ _ h

theorem Dev.resetStem_eq (d : Dev) (e : StemId) (lane : Bool) (r : ResetReason) :
    d.resetStem e lane r =
      (((d.stemDrop e (resetState e lane (d.stemState e))).resetSent e lane r).set (stemKey e 5) r.code).flag 0x3002 0 := by
  have hstate : (if selfPath e then (if d.stemState e = 0 then 0 else 3) else if lane then 0 else min 3 (d.stemState e)) =
      resetState e lane (d.stemState e) := by
    unfold resetState
    cases selfPath e
    · rfl
    · by_cases h : d.stemState e = 0 <;> simp [h]
  rw [← hstate]
  rfl

/-- A reset of a Stem link's end (R370). -/
theorem Dev.resetStem_spec (d : Dev) {e : StemId} (lane : Bool) (r : ResetReason) (he : StemId.ok e = true) (hend : d.hasEnd e) :
    let d' := d.resetStem e lane r
    d'.stemState e = resetState e lane (d.stemState e) ∧ d'.get (stemKey e 5) = r.code ∧ (d'.get 0x3002_00).testBit 0 = true ∧
    d'.stemAt e = { line := (d'.stemAt e).line, since := d.now } := by
  have hstate : resetState e lane (d.stemState e) < 256 := by
    unfold resetState
    split
    · decide
    · split <;> omega
  obtain ⟨hbase, hst, hanew⟩ := d.stemDrop_spec he hend hstate
  have hsent := (d.stemDrop e (resetState e lane (d.stemState e))).resetSent_onLane lane r (hbase.hasEnd hend)
  rw [d.resetStem_eq e lane r]
  set d1 := (d.stemDrop e (resetState e lane (d.stemState e))).resetSent e lane r
  have hne : stemKey e 2 ≠ stemKey e 5 := fun h => absurd (stemKey_inj h) (by decide)
  have hstem : ((d1.set (stemKey e 5) r.code).flag 0x3002 0).stemAt e = d1.stemAt e := by
    rw [Dev.stemAt_congr (Dev.flag_stem _ _ _) (Dev.flag_tk _ _ _), Dev.stemAt_set]
  refine ⟨?_, ?_, Dev.testBit_flag_stem _ (by decide), ?_⟩
  · rw [Dev.stemState, Dev.get_stemKey_flag _ he (by decide) (.inl rfl) (by decide), Dev.get_set_of_ne _ _ _ _ hne, hsent.get]
    exact hst
  · rw [Dev.get_stemKey_flag _ he (by decide) (.inl rfl) (by decide), Dev.get_set_stemKey _ he (by decide) r.code_lt]
  · rw [hstem]
    exact hsent.stem.trans (by rw [hanew])

end Sys2Proof.Machine
end

section
/-! SUPPORT. Stem links come up and are reset (R22, R345, R348 to R351, R370, R371). -/

namespace Sys2Proof.Machine

open Sys2Proof

/-! ### Ends as a command finds them -/

@[simp] theorem timeUnit_stem (e : StemId) : timeUnit (.stem e) = stemUnit e := by cases e <;> rfl

theorem State.hasEnd_unit (s : State) {e : StemId} (he : StemId.ok e = true) (hlen : s.trunk.tk.fab.stems.length = 256) :
    (s.unit (stemUnit e)).hasEnd e := by
  cases e with
  | leaf l => trivial
  | trunk n =>
    have hn : n < 256 := by simpa [StemId.ok] using he
    exact Nat.lt_of_lt_of_eq hn hlen.symm

@[simp] theorem State.unit_stemAt (s : State) (u : UnitId) (e : StemId) : (s.unit u).stemAt e = (s.dev u).stemAt e := by
  cases e <;> rfl

@[simp] theorem State.unit_stemState (s : State) (u : UnitId) (e : StemId) : (s.unit u).stemState e = (s.dev u).stemState e := rfl

@[simp] theorem State.unit_now (s : State) (u : UnitId) : (s.unit u).now = (s.dev u).now := rfl

/-- The outcome of a command on an end that exists. -/
theorem State.onStem_yields {s : State} {e : StemId} {f : Dev → Dev} {P : Dev → Prop} (hrun : s.runs (stemUnit e))
    (he : StemId.ok e = true) (hp : P (f (s.unit (stemUnit e)))) :
    Yields (s.on (stemUnit e) fun d => if StemId.ok e then f d else d) s (stemUnit e) P := by
  refine s.on_yields _ _ _ hrun ?_
  rwa [if_pos he]

/-! ### Changes of an end's state -/

theorem Dev.objectsKept_of_get {d d' : Dev} {k v : Nat} (h : ∀ j, d'.get j = (d.set k v).get j) : d.objectsKept d' [k] :=
  fun j hj => (h j).trans (d.get_set_of_ne j k v (by simpa using hj))

/-- Both lanes are locked (R348). -/
theorem execBlockLock_yields (s : State) (e : StemId) (hrun : s.runs (stemUnit e)) (he : StemId.ok e = true)
    (hst : (s.dev (stemUnit e)).stemState e = 1) :
    Yields (exec (.blockLock (.stem e)) s) s (stemUnit e) fun d =>
      d.stemState e = 2 ∧ (s.dev (stemUnit e)).objectsKept d [stemKey e 2] := by
  show Yields (execBlockLock (.stem e) s) s _ _
  unfold execBlockLock
  rw [timeUnit_stem]
  refine State.onStem_yields (f := fun d => d.stemLocked e) hrun he ?_
  unfold Dev.stemLocked
  rw [if_pos (by simpa using hst)]
  refine ⟨?_, Dev.objectsKept_of_get fun j => Dev.modStem_get _ e _ j⟩
  rw [Dev.stemState, Dev.modStem_get, Dev.get_set_stemKey _ he (by decide) (by decide)]

/-- LOCK and DESKEW have not completed in time (R348). -/
theorem execBringUpTimeout_yields (s : State) (e : StemId) (hrun : s.runs (stemUnit e)) (he : StemId.ok e = true)
    (hst : (s.dev (stemUnit e)).stemState e = 1 ∨ (s.dev (stemUnit e)).stemState e = 2)
    (hlate : ((s.dev (stemUnit e)).stemAt e).since + 2000000 ≤ (s.dev (stemUnit e)).now) :
    Yields (exec (.bringUpTimeout (.stem e)) s) s (stemUnit e) fun d =>
      d.stemState e = 0 ∧ (s.dev (stemUnit e)).objectsKept d [stemKey e 2] := by
  show Yields (execBringUpTimeout (.stem e) s) s _ _
  unfold execBringUpTimeout
  rw [timeUnit_stem]
  refine State.onStem_yields (f := fun d => d.stemTimeout e) hrun he ?_
  unfold Dev.stemTimeout
  dsimp only
  rw [if_pos (by
    simp only [State.unit_stemState, State.unit_stemAt, State.unit_now, Bool.and_eq_true, Bool.or_eq_true, decide_eq_true_eq]
    exact ⟨hst.imp decide_eq_true decide_eq_true, hlate⟩)]
  refine ⟨?_, Dev.objectsKept_of_get fun j => Dev.modStem_get _ e _ j⟩
  rw [Dev.stemState, Dev.modStem_get, Dev.get_set_stemKey _ he (by decide) (by decide)]

/-- The fourth pair in succession that agrees in DESKEW (R345, R348). -/
theorem Dev.stemAlign_of_agree (d : Dev) {e : StemId} {a b : Nat} (hend : d.hasEnd e) (hself : selfPath e = false)
    (hab : a % 65536 = b % 65536) (hst : d.stemState e = 2) (hfour : (d.stemAt e).aligned = 3) :
    d.stemAlign e a b = (d.modStem e fun x => { x with aligned := x.aligned + 1, disagree := 0 }).set (stemKey e 2) 3 := by
  unfold Dev.stemAlign
  rw [if_neg (by simp [hst, hself]), if_pos hab]
  dsimp only
  rw [if_pos]
  simp only [Dev.stemState, Dev.modStem_get, d.stemAt_modStem _ hend, hfour] at hst ⊢
  simp [hst]

/-- The second pair in succession that disagrees (R370). -/
theorem Dev.stemAlign_of_disagree (d : Dev) {e : StemId} {a b : Nat} (hend : d.hasEnd e) (hself : selfPath e = false)
    (hab : a % 65536 ≠ b % 65536) (hst : 2 ≤ d.stemState e) (htwo : (d.stemAt e).disagree = 1) :
    d.stemAlign e a b =
      (d.modStem e fun x => { x with aligned := 0, disagree := x.disagree + 1 }).resetStem e true .deskewLost := by
  unfold Dev.stemAlign
  rw [if_neg (by simp [hself]; omega), if_neg hab]
  dsimp only
  rw [if_pos]
  rw [d.stemAt_modStem _ hend, htwo]

theorem resetState_lane {e : StemId} (hself : selfPath e = false) (state : Nat) : resetState e true state = 0 := by
  simp [resetState, hself]

theorem execAlign_agree (s : State) (e : StemId) (a b : Nat) (hrun : s.runs (stemUnit e)) (he : StemId.ok e = true)
    (hlen : s.trunk.tk.fab.stems.length = 256) (hself : selfPath e = false) (hab : a % 65536 = b % 65536)
    (hst : (s.dev (stemUnit e)).stemState e = 2) (hfour : ((s.dev (stemUnit e)).stemAt e).aligned = 3) :
    Yields (exec (.align e a b) s) s (stemUnit e) fun d =>
      d.stemState e = 3 ∧ (s.dev (stemUnit e)).objectsKept d [stemKey e 2] := by
  show Yields (execAlign e a b s) s _ _
  refine State.onStem_yields (f := fun d => d.stemAlign e a b) hrun he ?_
  rw [Dev.stemAlign_of_agree _ (s.hasEnd_unit he hlen) hself hab (by simpa using hst) (by simpa using hfour)]
  refine ⟨Dev.get_set_stemKey _ he (by decide) (by decide), fun j hj => ?_⟩
  rw [Dev.get_set_of_ne _ _ _ _ (by simpa using hj), Dev.modStem_get]
  rfl

theorem execAlign_disagree (s : State) (e : StemId) (a b : Nat) (hrun : s.runs (stemUnit e)) (he : StemId.ok e = true)
    (hlen : s.trunk.tk.fab.stems.length = 256) (hself : selfPath e = false) (hab : a % 65536 ≠ b % 65536)
    (hst : 2 ≤ (s.dev (stemUnit e)).stemState e) (htwo : ((s.dev (stemUnit e)).stemAt e).disagree = 1) :
    Yields (exec (.align e a b) s) s (stemUnit e) fun d =>
      d.stemState e = 0 ∧ d.get (stemKey e 5) = 2 ∧ (d.get 0x3002_00).testBit 0 = true := by
  show Yields (execAlign e a b s) s _ _
  refine State.onStem_yields (f := fun d => d.stemAlign e a b) hrun he ?_
  have hend := s.hasEnd_unit he hlen
  rw [Dev.stemAlign_of_disagree _ hend hself hab (by simpa using hst) (by simpa using htwo)]
  obtain ⟨hstate, hreason, hflag, -⟩ := Dev.resetStem_spec _ true .deskewLost he ((Dev.BaseKept.modStem _ e _).hasEnd hend)
  exact ⟨hstate.trans (resetState_lane hself _), hreason, hflag⟩

/-! ### Resets -/

theorem execResetLink_yields (s : State) (e : StemId) (hrun : s.runs (stemUnit e)) (he : StemId.ok e = true)
    (hlen : s.trunk.tk.fab.stems.length = 256) :
    Yields (exec (.resetLink e) s) s (stemUnit e) fun d =>
      d.stemState e = (if selfPath e = true ∧ (s.dev (stemUnit e)).stemState e ≠ 0 then 3 else min 3 ((s.dev (stemUnit e)).stemState e)) ∧
      d.get (stemKey e 5) = 6 ∧ (d.get 0x3002_00).testBit 0 = true ∧
      d.stemAt e = { since := (s.dev (stemUnit e)).now, line := (d.stemAt e).line } :=
  State.onStem_yields (f := fun d => d.resetStem e false .peer) hrun he
    (Dev.resetStem_spec _ false .peer he (s.hasEnd_unit he hlen))

theorem execResetLane_yields (s : State) (e : StemId) (hrun : s.runs (stemUnit e)) (he : StemId.ok e = true)
    (hlen : s.trunk.tk.fab.stems.length = 256) :
    Yields (exec (.resetLane e) s) s (stemUnit e) fun d =>
      d.stemState e = (if selfPath e = true ∧ (s.dev (stemUnit e)).stemState e ≠ 0 then 3 else 0) ∧ d.get (stemKey e 5) = 6 ∧
      (d.get 0x3002_00).testBit 0 = true ∧
      d.stemAt e = { since := (s.dev (stemUnit e)).now, line := (d.stemAt e).line } :=
  State.onStem_yields (f := fun d => d.resetStem e true .peer) hrun he
    (Dev.resetStem_spec _ true .peer he (s.hasEnd_unit he hlen))

theorem execBlockLockLost_yields (s : State) (e : StemId) (hrun : s.runs (stemUnit e)) (he : StemId.ok e = true)
    (hlen : s.trunk.tk.fab.stems.length = 256) (hself : selfPath e = false) (hst : 2 ≤ (s.dev (stemUnit e)).stemState e) :
    Yields (exec (.blockLockLost e) s) s (stemUnit e) fun d =>
      d.stemState e = 0 ∧ d.get (stemKey e 5) = 1 ∧ (d.get 0x3002_00).testBit 0 = true ∧
      d.stemAt e = { since := (s.dev (stemUnit e)).now, line := (d.stemAt e).line } := by
  show Yields (execBlockLockLost e s) s _ _
  refine s.on_yields _ _ _ hrun ?_
  rw [if_pos (by simpa [he, hself] using hst)]
  obtain ⟨hstate, hreason, hflag, hanew⟩ := Dev.resetStem_spec (s.unit (stemUnit e)) true .lockLost he (s.hasEnd_unit he hlen)
  exact ⟨hstate.trans (resetState_lane hself _), hreason, hflag, hanew⟩

/-- `ResetCmd` of an end has no reserved bits. -/
theorem resetCmd_row {c : Cfg} {e : StemId} {r : Row} (he : StemId.ok e = true) (h : c.rowOf (stemIndex e) 4 = some r) :
    r.rng = .any := by
  obtain ⟨hmem, -, -, hlo, hhi⟩ := Cfg.rowOf_mem h
  have hall : ∀ x, x = 0x30 ∨ x = 0x65 → ∀ r ∈ rowsOf x, r.sub ≤ 4 → 4 ≤ r.subEnd → r.rng = .any := by
    rintro x (rfl | rfl) <;> decide
  exact hall _ (stemIndex_div he) r hmem hlo hhi

/-- A write of LINK (1) or LANE (2) to `ResetCmd` (R370). -/
theorem State.resetCmd_answers {s : State} {e : StemId} {v : Env} {k : Nat} (hk : k = 1 ∨ k = 2) (hrun : s.runs (stemUnit e))
    (he : StemId.ok e = true) (hlen : s.trunk.tk.fab.stems.length = 256) (hacc : (s.unit (stemUnit e)).accepts v (stemIndex e) 4 k) :
    Answers (s.on (stemUnit e) fun d => d.resetCmd (.stem e) v k) s (stemUnit e) v 0x02 (stemIndex e) 4 0 fun a =>
      a.abort = 0 ∧ a.dev.stemState e = resetState e (decide (k = 2)) ((s.dev (stemUnit e)).stemState e) ∧
      a.dev.get (stemKey e 5) = 5 ∧ a.dev.stemAt e = { since := (s.dev (stemUnit e)).now, line := (a.dev.stemAt e).line } := by
  have hcmd : (fun d : Dev => d.resetCmd (.stem e) v k) =
      fun d => d.serveWrite v (stemIndex e) 4 k fun d v _ => d.stemResetAns e v := funext fun d => if_pos he
  rw [hcmd]
  refine State.serveWrite_answers_any (by decide) hrun hacc (fun r hr => resetCmd_row he hr) ?_
  have hend : ((s.unit (stemUnit e)).heard v).hasEnd e := by
    have := s.hasEnd_unit he hlen
    cases e with
    | leaf l => trivial
    | trunk n => rwa [Dev.hasEnd, Dev.heard_tk]
  have hans : ((s.unit (stemUnit e)).heard v).stemResetAns e k =
      ok (((s.unit (stemUnit e)).heard v).resetStem e (decide (k = 2)) .software) := if_neg (by rcases hk with rfl | rfl <;> decide)
  rw [hans]
  obtain ⟨hstate, hreason, -, hanew⟩ := Dev.resetStem_spec _ (decide (k = 2)) .software he hend
  have hst : ((s.unit (stemUnit e)).heard v).stemState e = (s.dev (stemUnit e)).stemState e := Dev.heard_stemState _ v e
  have hnow : ((s.unit (stemUnit e)).heard v).now = (s.dev (stemUnit e)).now := Dev.heard_now _ v
  rw [hst] at hstate
  rw [hnow] at hanew
  refine ⟨?_, ?_, ?_, ?_⟩
  · rfl
  · exact hstate
  · exact hreason
  · exact hanew

theorem execResetCmdLink_answers (s : State) (e : StemId) (v : Env) (hrun : s.runs (stemUnit e)) (he : StemId.ok e = true)
    (hlen : s.trunk.tk.fab.stems.length = 256) (hacc : (s.unit (stemUnit e)).accepts v (stemIndex e) 4 1) :
    Answers (exec (.resetCmdLink (.stem e) v) s) s (stemUnit e) v 0x02 (stemIndex e) 4 0 fun a =>
      a.abort = 0 ∧
      a.dev.stemState e = (if selfPath e = true ∧ (s.dev (stemUnit e)).stemState e ≠ 0 then 3 else min 3 ((s.dev (stemUnit e)).stemState e)) ∧
      a.dev.get (stemKey e 5) = 5 ∧ a.dev.stemAt e = { since := (s.dev (stemUnit e)).now, line := (a.dev.stemAt e).line } := by
  show Answers (execResetCmdLink (.stem e) v s) s _ _ _ _ _ _ _
  unfold execResetCmdLink
  rw [timeUnit_stem]
  exact State.resetCmd_answers (.inl rfl) hrun he hlen hacc

theorem execResetCmdLane_answers (s : State) (e : StemId) (v : Env) (hrun : s.runs (stemUnit e)) (he : StemId.ok e = true)
    (hlen : s.trunk.tk.fab.stems.length = 256) (hacc : (s.unit (stemUnit e)).accepts v (stemIndex e) 4 2) :
    Answers (exec (.resetCmdLane (.stem e) v) s) s (stemUnit e) v 0x02 (stemIndex e) 4 0 fun a =>
      a.abort = 0 ∧
      a.dev.stemState e = (if selfPath e = true ∧ (s.dev (stemUnit e)).stemState e ≠ 0 then 3 else 0) ∧
      a.dev.get (stemKey e 5) = 5 ∧ a.dev.stemAt e = { since := (s.dev (stemUnit e)).now, line := (a.dev.stemAt e).line } := by
  show Answers (execResetCmdLane (.stem e) v s) s _ _ _ _ _ _ _
  unfold execResetCmdLane
  rw [timeUnit_stem]
  exact State.resetCmd_answers (.inr rfl) hrun he hlen hacc

/-! ### HELLO -/

@[simp] theorem Dev.modLine_out (d : Dev) (e : StemId) (f : StemLine → StemLine) : (d.modLine e f).out = d.out := by
  unfold Dev.modLine
  split <;> simp

/-- The bytes of a HELLO block (R346). -/
def Dev.helloBytes (d : Dev) (e : StemId) (accept : Bool) (id : Nat) : Bytes :=
  let role := match e with
    | .leaf _ => 0
    | .trunk _ => 1
  leBytes 1 role ++ leBytes 1 (d.get 0x3000_01) ++ leBytes 1 (b2n accept) ++ leBytes 3 id

theorem Dev.helloBlock_eq (d : Dev) (e : StemId) (accept : Bool) (id : Nat) :
    d.helloBlock e accept id = d.appendBlock e 0x55 (d.helloBytes e accept id) := by cases e <;> rfl

theorem Dev.OnLane.helloBlock {e : StemId} {d : Dev} (accept : Bool) (id : Nat) (h : d.hasEnd e) :
    d.OnLane e (d.helloBlock e accept id) := by
  rw [d.helloBlock_eq]
  exact .appendBlock _ _ h

@[simp] theorem Dev.helloBlock_out (d : Dev) (e : StemId) (accept : Bool) (id : Nat) :
    (d.helloBlock e accept id).out = d.out ++ [.block e 0x55 (d.helloBytes e accept id)] := by
  rw [d.helloBlock_eq]
  exact Dev.modLine_out _ e _

/-- A HELLO is all that a unit sends which has sent nothing else. -/
theorem Dev.helloBlock_sole {d : Dev} (e : StemId) (accept : Bool) (id : Nat) (h : d.out = []) :
    ∃ bs, (d.helloBlock e accept id).out = [.block e 0x55 bs] :=
  ⟨d.helloBytes e accept id, by rw [Dev.helloBlock_out, h, List.nil_append]⟩

/-- HELLO_SEND in TRAIN (R348, R349). -/
theorem Dev.stemHelloSend_eq (d : Dev) {e : StemId} (hst : d.stemState e = 3)
    (hlast : ∀ t, (d.stemAt e).lastHello = some t → t + 1000 ≤ d.now) :
    ∃ accept id, d.stemHelloSend e = (d.modStem e fun x => { x with lastHello := some d.now }).helloBlock e accept id := by
  have hdue : (d.stemState e != 3 || (d.stemAt e).lastHello.any (d.now < · + 1000)) = false := by
    cases h : (d.stemAt e).lastHello with
    | none => simp [hst]
    | some t => simpa [hst] using hlast t h
  unfold Dev.stemHelloSend
  dsimp only
  rw [hdue]
  cases e with
  | leaf l => exact ⟨false, 0, rfl⟩
  | trunk n => exact ⟨_, _, rfl⟩

theorem execHelloSend_yields (s : State) (e : StemId) (hrun : s.runs (stemUnit e)) (he : StemId.ok e = true)
    (hlen : s.trunk.tk.fab.stems.length = 256) (hst : (s.dev (stemUnit e)).stemState e = 3)
    (hlast : ∀ t, ((s.dev (stemUnit e)).stemAt e).lastHello = some t → t + 1000 ≤ (s.dev (stemUnit e)).now) :
    Yields (exec (.helloSend (.stem e)) s) s (stemUnit e) fun d =>
      (∃ bs, d.out = [.block e 0x55 bs]) ∧ (d.stemAt e).lastHello = some (s.dev (stemUnit e)).now ∧
      d.objs = (s.dev (stemUnit e)).objs := by
  show Yields (execHelloSend (.stem e) s) s _ _
  unfold execHelloSend
  rw [timeUnit_stem]
  refine State.onStem_yields (f := fun d => d.stemHelloSend e) hrun he ?_
  have hend := s.hasEnd_unit he hlen
  obtain ⟨accept, id, heq⟩ := (s.unit (stemUnit e)).stemHelloSend_eq (by simpa using hst) (by simpa using hlast)
  have hlane := Dev.OnLane.helloBlock accept id ((Dev.BaseKept.modStem (s.unit (stemUnit e)) e
    fun x => { x with lastHello := some (s.unit (stemUnit e)).now }).hasEnd hend)
  rw [heq]
  refine ⟨Dev.helloBlock_sole e accept id (Dev.modStem_out _ e _), ?_, ?_⟩
  · rw [hlane.stem, Dev.stemAt_modStem _ _ hend]
    rfl
  · rw [hlane.objs, Dev.modStem_objs]
    rfl

/-! ### An end enters UP -/

theorem Dev.OnLane.runLine {e : StemId} {d : Dev} (f : StemLine → StemLine × List Wire) (h : d.hasEnd e) :
    d.OnLane e (d.runLine e f) := by
  unfold Dev.runLine
  split
  · exact .refl e d
  · refine ⟨.trans (.modStem d e _) (.of_eq rfl rfl rfl), Dev.modStem_objs d e _, ?_⟩
    have hdrive : ∀ (x : Dev) (w : List Wire), (x.drive w).stemAt e = x.stemAt e := fun x w => by cases e <;> rfl
    dsimp only
    rw [hdrive, d.stemAt_modStem _ h]

/-- A unit whose end starts anew as it enters UP (R344, R350). -/
def Dev.lineAnew (d : Dev) (e : StemId) : Dev :=
  d.modStem e fun x => { line := x.line, level := d.stemLevel e, since := d.now, peerOk := x.peerOk }

/-- A unit that counts that an end has entered UP. -/
def Dev.countUp (d : Dev) (e : StemId) : Dev := ((d.set (stemKey e 2) 4).inc (stemKey e 6)).set (stemKey e 7) d.now

theorem Dev.stemEnterUp_eq (d : Dev) (e : StemId) :
    d.stemEnterUp e = ((((d.runLine e (StemLine.renumber e)).lineAnew e).countUp e).resetLink (.stem e)).sendCredit e := rfl

theorem Dev.OnLane.sendCredit {e : StemId} {d : Dev} (h : d.hasEnd e) : d.OnLane e (d.sendCredit e) := .sendBlock _ _ h

theorem Dev.BaseKept.countUp (d : Dev) (e : StemId) : d.BaseKept (d.countUp e) := .trans (.trans (.set d _ _) (.inc _ _)) (.set _ _ _)

theorem Dev.stemAt_inc (d : Dev) (e : StemId) (k : Nat) : (d.inc k).stemAt e = d.stemAt e :=
  Dev.stemAt_congr (d.inc_stem k) (d.add_tk k 1) e

theorem Dev.stemAt_countUp (d : Dev) (e : StemId) : (d.countUp e).stemAt e = d.stemAt e := by
  rw [Dev.countUp, Dev.stemAt_set, Dev.stemAt_inc, Dev.stemAt_set]

theorem Dev.countUp_objectsKept (d : Dev) (e : StemId) : d.objectsKept (d.countUp e) [stemKey e 2, stemKey e 6, stemKey e 7] := by
  intro k hk
  obtain ⟨h2, h6, h7⟩ : k ≠ stemKey e 2 ∧ k ≠ stemKey e 6 ∧ k ≠ stemKey e 7 := by simpa using hk
  rw [Dev.countUp, Dev.get_set_of_ne _ _ _ _ h7, Dev.get_inc_of_ne _ _ _ h6, Dev.get_set_of_ne _ _ _ _ h2]

theorem stemKey_ne {e : StemId} {a b : Nat} (h : a ≠ b) : stemKey e a ≠ stemKey e b := fun hk => h (stemKey_inj hk)

theorem Dev.stemState_countUp (d : Dev) {e : StemId} (he : StemId.ok e = true) : (d.countUp e).stemState e = 4 := by
  rw [Dev.stemState, Dev.countUp, Dev.get_set_of_ne _ _ _ _ (stemKey_ne (by decide)),
    Dev.get_inc_of_ne _ _ _ (stemKey_ne (by decide)), Dev.get_set_stemKey _ he (by decide) (by decide)]

theorem Dev.linkUps_countUp (d : Dev) {e : StemId} (h : d.get (stemKey e 6) + 1 < 2 ^ minWidth (stemKey e 6)) :
    (d.countUp e).get (stemKey e 6) = d.get (stemKey e 6) + 1 := by
  have hkept : (d.set (stemKey e 2) 4).get (stemKey e 6) = d.get (stemKey e 6) := d.get_set_of_ne _ _ _ (stemKey_ne (by decide))
  rw [Dev.countUp, Dev.get_set_of_ne _ _ _ _ (stemKey_ne (by decide)), Dev.get_inc_self _ _ (by rw [hkept]; exact h), hkept]

/-- An end that enters UP starts anew; of the objects its State, LinkUps and LastUp alone change (R344, R350). -/
theorem Dev.stemEnterUp_spec (d : Dev) {e : StemId} (he : StemId.ok e = true) (hend : d.hasEnd e) :
    let d' := d.stemEnterUp e
    d'.stemState e = 4 ∧ d.objectsKept d' [stemKey e 2, stemKey e 6, stemKey e 7] ∧
    (d.get (stemKey e 6) + 1 < 2 ^ minWidth (stemKey e 6) → d'.get (stemKey e 6) = d.get (stemKey e 6) + 1) ∧
    (d'.stemAt e).retry = [] ∧ (d'.stemAt e).txSeq = 0 ∧ (d'.stemAt e).rxSeq = 0 := by
  rw [d.stemEnterUp_eq e]
  have hrun : d.OnLane e (d.runLine e (StemLine.renumber e)) := .runLine _ hend
  set d1 := d.runLine e (StemLine.renumber e)
  have hend1 : d1.hasEnd e := hrun.base.hasEnd hend
  have hget : ∀ k, (d1.lineAnew e).get k = d.get k := fun k => (Dev.modStem_get _ e _ k).trans (hrun.get k)
  have hcredit : (((d1.lineAnew e).countUp e).resetLink (.stem e)).OnLane e
      ((((d1.lineAnew e).countUp e).resetLink (.stem e)).sendCredit e) :=
    .sendCredit (Dev.BaseKept.hasEnd (.trans (.trans (.modStem d1 e _) (.countUp _ e)) (.resetLink _ _)) hend1)
  have hstem := hcredit.stem
  rw [Dev.stemAt_resetLink, Dev.stemAt_countUp, Dev.lineAnew, Dev.stemAt_modStem _ _ hend1, ← Dev.lineAnew] at hstem
  refine ⟨?_, fun k hk => ?_, fun h => ?_, by rw [hstem], by rw [hstem], by rw [hstem]⟩
  · exact (hcredit.get _).trans (Dev.stemState_countUp _ he)
  · exact (hcredit.get k).trans (((d1.lineAnew e).countUp_objectsKept e k hk).trans (hget k))
  · have hcount := (d1.lineAnew e).linkUps_countUp (e := e) (by rwa [hget])
    exact (hcredit.get _).trans (hcount.trans (congrArg (· + 1) (hget _)))

/-! ### The HELLO of a peer -/

theorem ne_stemKey {k : Nat} (hk : k < 0x300100) (e : StemId) (sub : Nat) : k ≠ stemKey e sub :=
  (hk.trans_le (stemKey_ge e sub)).ne

/-- The address of a unit is none of the objects that an end changes as it enters UP. -/
theorem address_not_mem_countUp (e : StemId) : 0x1000_06 ∉ [stemKey e 2, stemKey e 6, stemKey e 7] := by
  simp only [List.mem_cons, List.not_mem_nil, or_false, not_or]
  exact ⟨ne_stemKey (by decide) e 2, ne_stemKey (by decide) e 6, ne_stemKey (by decide) e 7⟩

theorem linkUps_key (l : LeafId) : stemKey (.leaf l) 6 = 0x3001_06 := by cases l <;> rfl

/-- A leaf in TRAIN that a trunk accepts (R22, R349). -/
theorem Dev.takeHello_leaf (d : Dev) {l : LeafId} {level id : Nat} (hst : d.stemState (.leaf l) = 3) :
    d.takeHello (.leaf l) 1 level true id =
      (((d.set (stemKey (.leaf l) 3) level).set 0x1000_06 (id % 2 ^ 20)).helloBlock (.leaf l) true (id % 2 ^ 20)).stemEnterUp (.leaf l) := by
  unfold Dev.takeHello
  rw [if_neg (by simp [hst])]
  rfl

theorem execHello_leaf (s : State) (l : LeafId) (level id : Nat) (hrun : s.runs (.leaf l))
    (hst : (s.dev (.leaf l)).stemState (.leaf l) = 3) (hups : (s.dev (.leaf l)).get 0x3001_06 + 1 < 2 ^ 32) :
    Yields (exec (.hello (.leaf l) 1 level true id) s) s (.leaf l) fun d =>
      d.stemState (.leaf l) = 4 ∧ d.get 0x1000_06 = id % 2 ^ 20 ∧
      d.get 0x3001_06 = (s.dev (.leaf l)).get 0x3001_06 + 1 ∧ d.stem.retry = [] ∧ d.stem.txSeq = 0 ∧ d.stem.rxSeq = 0 := by
  show Yields (execHello (.leaf l) 1 level true id s) s _ _
  refine s.on_yields (.leaf l) (fun d => d.takeHello (.leaf l) 1 (level % 256) true id) _ hrun ?_
  rw [Dev.takeHello_leaf _ (by simpa using hst)]
  set d1 := (((s.unit (.leaf l)).set (stemKey (.leaf l) 3) (level % 256)).set 0x1000_06 (id % 2 ^ 20)) with hd1
  have hlane : d1.OnLane (.leaf l) (d1.helloBlock (.leaf l) true (id % 2 ^ 20)) := .helloBlock _ _ trivial
  obtain ⟨hup, hkept, hcount, hretry, htx, hrx⟩ := Dev.stemEnterUp_spec (d1.helloBlock (.leaf l) true (id % 2 ^ 20))
    (e := .leaf l) rfl trivial
  have hid : id % 2 ^ 20 < 2 ^ minWidth 0x1000_06 := (Nat.mod_lt _ (by decide)).trans_le (by decide)
  have hups' : d1.get (stemKey (.leaf l) 6) = (s.dev (.leaf l)).get (stemKey (.leaf l) 6) := by
    rw [hd1, Dev.get_set_of_ne _ _ _ _ (ne_stemKey (by decide) _ _).symm, Dev.get_set_of_ne _ _ _ _ (stemKey_ne (by decide))]
    rfl
  rw [← linkUps_key l] at hups ⊢
  have hwidth : minWidth (stemKey (.leaf l) 6) = 32 := by cases l <;> decide
  refine ⟨hup, ?_, ?_, hretry, htx, hrx⟩
  · rw [hkept 0x1000_06 (address_not_mem_countUp (.leaf l)), hlane.get, hd1, Dev.get_set_fits _ _ _ hid]
  · rw [hlane.get, hups', hwidth] at hcount
    exact hcount hups

/-- Does a leaf's level fit a trunk's (R349)? -/
def levelFits (level own : Nat) : Bool := level = own || level + 1 = own

/-- A trunk that has heard the level of a leaf in TRAIN (R349). -/
def Dev.heardLevel (d : Dev) (n level : Nat) : Dev :=
  (d.set (stemKey (.trunk n) 3) level).modStem (.trunk n) fun x => { x with peerOk := levelFits level (d.get 0x3000_01) }

/-- A trunk that halts Layering where it waits for a leaf whose level misfits. -/
def Dev.haltAwaiting (d : Dev) (n : Nat) : Dev := if d.layerAwaits n then d.haltLayer 4 else d

theorem Dev.takeHello_trunk (d : Dev) {n level id : Nat} (accept : Bool) (hst : d.stemState (.trunk n) = 3) :
    d.takeHello (.trunk n) 0 level accept id =
      if levelFits level (d.get 0x3000_01) then
        if accept then (d.heardLevel n level).stemEnterUp (.trunk n)
        else (d.heardLevel n level).helloBlock (.trunk n) true ((d.heardLevel n level).leafAddress n)
      else (((d.heardLevel n level).haltAwaiting n).flag 0x3002 1).helloBlock (.trunk n) false 0 := by
  unfold Dev.takeHello
  rw [if_neg (by simp [hst])]
  dsimp only
  rw [if_neg (by decide)]
  unfold Dev.heardLevel Dev.haltAwaiting levelFits
  cases hfits : (decide (level = d.get 0x3000_01) || decide (level + 1 = d.get 0x3000_01)) <;> rfl

theorem Dev.heardLevel_spec (d : Dev) {n level : Nat} (hn : n < 256) (hlevel : level < 256) (hend : d.hasEnd (.trunk n)) :
    let d' := d.heardLevel n level
    d.BaseKept d' ∧ d'.out = d.out ∧ d'.get (stemKey (.trunk n) 3) = level ∧ d'.stemState (.trunk n) = d.stemState (.trunk n) ∧
    (d'.stemAt (.trunk n)).peerOk = levelFits level (d.get 0x3000_01) := by
  have he : StemId.ok (.trunk n) = true := by simpa [StemId.ok] using hn
  refine ⟨.trans (.set d _ _) (.modStem _ _ _), Dev.modStem_out _ _ _, ?_, ?_, ?_⟩
  · rw [Dev.heardLevel, Dev.modStem_get, Dev.get_set_stemKey _ he (by decide) hlevel]
  · rw [Dev.stemState, Dev.heardLevel, Dev.modStem_get, Dev.get_set_of_ne _ _ _ _ (stemKey_ne (by decide))]
    rfl
  · rw [Dev.heardLevel, Dev.stemAt_modStem _ _ ((Dev.BaseKept.set d _ _).hasEnd hend)]

theorem Dev.haltAwaiting_spec (d : Dev) {e : StemId} (n : Nat) (he : StemId.ok e = true) :
    d.BaseKept (d.haltAwaiting n) ∧ (d.haltAwaiting n).stemAt e = d.stemAt e ∧
    ∀ sub < 256, (d.haltAwaiting n).get (stemKey e sub) = d.get (stemKey e sub) := by
  unfold Dev.haltAwaiting
  split
  · refine ⟨.trans (.trans (.set d _ _) (.set _ _ _)) (.flag _ _ _), ?_, fun sub hsub => ?_⟩
    · rw [Dev.haltLayer, Dev.stemAt_congr (Dev.flag_stem _ _ _) (Dev.flag_tk _ _ _), Dev.stemAt_set, Dev.stemAt_set]
    · rw [Dev.haltLayer, Dev.get_stemKey_flag _ he hsub (.inr rfl) (by decide),
        Dev.get_set_of_ne _ _ _ _ (ne_stemKey (by decide) _ _).symm, Dev.get_set_of_ne _ _ _ _ (ne_stemKey (by decide) _ _).symm]
  · exact ⟨.refl d, rfl, fun _ _ => rfl⟩

/-- A trunk's port in TRAIN that hears a leaf's HELLO (R349). -/
theorem Dev.takeHello_trunk_spec (d : Dev) {n level id : Nat} (accept : Bool) (hn : n < 256) (hlevel : level < 256)
    (hend : d.hasEnd (.trunk n)) (hst : d.stemState (.trunk n) = 3) (hquiet : d.out = []) :
    let d' := d.takeHello (.trunk n) 0 level accept id
    let own := d.get 0x3000_01
    d'.get (stemKey (.trunk n) 3) = level ∧
    if level = own ∨ level + 1 = own then
      if accept = true then d'.stemState (.trunk n) = 4 ∧ (d'.stemAt (.trunk n)).txSeq = 0 ∧ (d'.stemAt (.trunk n)).rxSeq = 0
      else d'.stemState (.trunk n) = 3 ∧ (d'.stemAt (.trunk n)).peerOk = true ∧ ∃ bs, d'.out = [.block (.trunk n) 0x55 bs]
    else d'.stemState (.trunk n) = 3 ∧ (d'.stemAt (.trunk n)).peerOk = false ∧ (d'.get 0x3002_00).testBit 1 = true := by
  have he : StemId.ok (.trunk n) = true := by simpa [StemId.ok] using hn
  obtain ⟨hbase, hout, hpeer, hstate, hok⟩ := d.heardLevel_spec hn hlevel hend
  rw [d.takeHello_trunk accept hst]
  set d1 := d.heardLevel n level
  have hend1 : d1.hasEnd (.trunk n) := hbase.hasEnd hend
  by_cases hfits : level = d.get 0x3000_01 ∨ level + 1 = d.get 0x3000_01
  · have hlevels : levelFits level (d.get 0x3000_01) = true := by simpa [levelFits] using hfits
    rw [if_pos hlevels]
    rw [hlevels] at hok
    cases accept with
    | true =>
      obtain ⟨hup, hkept, -, -, htx, hrx⟩ := d1.stemEnterUp_spec he hend1
      have hnot : stemKey (.trunk n) 3 ∉ [stemKey (.trunk n) 2, stemKey (.trunk n) 6, stemKey (.trunk n) 7] := by
        simp only [List.mem_cons, List.not_mem_nil, or_false, not_or]
        exact ⟨stemKey_ne (by decide), stemKey_ne (by decide), stemKey_ne (by decide)⟩
      refine ⟨(hkept _ hnot).trans hpeer, ?_⟩
      rw [if_pos hfits]
      exact ⟨hup, htx, hrx⟩
    | false =>
      have hlane := Dev.OnLane.helloBlock true (d1.leafAddress n) hend1
      refine ⟨(hlane.get _).trans hpeer, ?_⟩
      rw [if_pos hfits]
      refine ⟨(hlane.get _).trans (hstate.trans hst), ?_, Dev.helloBlock_sole _ _ _ (hout.trans hquiet)⟩
      exact (congrArg StemEnd.peerOk hlane.stem).trans hok
  · have hlevels : levelFits level (d.get 0x3000_01) = false := by simpa [levelFits, not_or] using hfits
    rw [if_neg (by simp [hlevels])]
    rw [hlevels] at hok
    obtain ⟨hhalt, hstem, hkept⟩ := d1.haltAwaiting_spec n he
    have hflag : ∀ sub < 256, ((d1.haltAwaiting n).flag 0x3002 1).get (stemKey (.trunk n) sub) = d1.get (stemKey (.trunk n) sub) :=
      fun sub hsub => (Dev.get_stemKey_flag _ he hsub (.inl rfl) (by decide)).trans (hkept sub hsub)
    have hflagged : ((d1.haltAwaiting n).flag 0x3002 1).stemAt (.trunk n) = d1.stemAt (.trunk n) :=
      (Dev.stemAt_congr (Dev.flag_stem _ _ _) (Dev.flag_tk _ _ _) _).trans hstem
    have hlane := Dev.OnLane.helloBlock false 0 ((hhalt.trans (.flag _ 0x3002 1)).hasEnd hend1)
    refine ⟨((hlane.get _).trans (hflag 3 (by decide))).trans hpeer, ?_⟩
    rw [if_neg hfits]
    refine ⟨((hlane.get _).trans (hflag 2 (by decide))).trans (hstate.trans hst), ?_, ?_⟩
    · exact (congrArg StemEnd.peerOk hlane.stem).trans ((congrArg StemEnd.peerOk hflagged).trans hok)
    · rw [hlane.get]
      exact Dev.testBit_flag_stem _ (by decide)

theorem execHello_trunk (s : State) (n level id : Nat) (accept : Bool) (hrun : s.runs .trunk) (hn : n < 256) (hlevel : level < 256)
    (hlen : s.trunk.tk.fab.stems.length = 256) (hst : s.trunk.stemState (.trunk n) = 3) :
    Yields (exec (.hello (.trunk n) 0 level accept id) s) s .trunk fun d =>
      let own := s.trunk.get 0x3000_01
      d.get (key (0x6500 + n) 3) = level ∧
      if level = own ∨ level + 1 = own then
        if accept = true then d.stemState (.trunk n) = 4 ∧ (d.stemAt (.trunk n)).txSeq = 0 ∧ (d.stemAt (.trunk n)).rxSeq = 0
        else d.stemState (.trunk n) = 3 ∧ (d.stemAt (.trunk n)).peerOk = true ∧ ∃ bs, d.out = [.block (.trunk n) 0x55 bs]
      else d.stemState (.trunk n) = 3 ∧ (d.stemAt (.trunk n)).peerOk = false ∧ (d.get 0x3002_00).testBit 1 = true := by
  have he : StemId.ok (.trunk n) = true := by simpa [StemId.ok] using hn
  have hspec := (s.unit .trunk).takeHello_trunk_spec (id := id) accept hn hlevel (s.hasEnd_unit he hlen) hst rfl
  show Yields (execHello (.trunk n) 0 level accept id s) s (stemUnit (.trunk n)) _
  refine State.onStem_yields (f := fun d => d.takeHello (.trunk n) 0 (level % 256) accept id) hrun he ?_
  rw [Nat.mod_eq_of_lt hlevel]
  exact hspec

/-- Settles O43, by a law of `resetStem`, one of `stemEnterUp`, and one per step of bring-up. -/
theorem stemLinksComeUpAndReset : Obligations.StemLinksComeUpAndReset := by
  refine ⟨?_, ?_, ?_, ?_, ?_, ?_, ?_, ?_, ?_, ?_, ?_, ?_⟩
  · intro s e _ hrun he _ hst
    exact execBlockLock_yields s e hrun he hst
  · intro s e a b _ hrun he hlen hself hab hst hfour
    exact execAlign_agree s e a b hrun he hlen hself hab hst hfour
  · intro s e a b _ hrun he hlen hself hab hst htwo
    exact execAlign_disagree s e a b hrun he hlen hself hab hst htwo
  · intro s e _ hrun he _ hst hlate
    exact execBringUpTimeout_yields s e hrun he hst hlate
  · intro s e _ hrun he hlen hst hlast
    exact execHelloSend_yields s e hrun he hlen hst hlast
  · intro s l level id _ hrun hst hups
    exact execHello_leaf s l level id hrun hst hups
  · intro s n level id accept _ hrun hn hlevel hlen hst
    exact execHello_trunk s n level id accept hrun hn hlevel hlen hst
  · intro s e _ hrun he hlen
    exact execResetLink_yields s e hrun he hlen
  · intro s e _ hrun he hlen
    exact execResetLane_yields s e hrun he hlen
  · intro s e _ hrun he hlen hself hst
    exact execBlockLockLost_yields s e hrun he hlen hself hst
  · intro s e v _ hrun he hlen hacc
    exact execResetCmdLink_answers s e v hrun he hlen hacc
  · intro s e v _ hrun he hlen hacc
    exact execResetCmdLane_answers s e v hrun he hlen hacc

end Sys2Proof.Machine
end

section
/-! SUPPORT. Quickset downloads and pushes (R54, R611, R612, R618). -/

namespace Sys2Proof.Machine

open Sys2Proof

/-! ### Writes of a DOMAIN -/

@[simp] theorem Dev.heard_nextSegment (d : Dev) (e x : Env) (i s off : Nat) : (d.heard x).nextSegment e i s off = d.nextSegment e i s off := by
  unfold Dev.heard
  split <;> rfl

/-- A DOMAIN's write that a unit accepts is answered with what the object's own effect gives. -/
theorem State.serveDomain_answers {s : State} {u : UnitId} {e : Env} {i sub : Nat} {bs : Bytes} {f : Dev → Bytes → Ans}
    {P : Ans → Prop} (hrun : s.runs u) (hacc : (s.unit u).acceptsDomain e i sub bs) (hp : P (f ((s.unit u).heard e) bs)) :
    Answers (s.on u fun d => d.serveDomain e i sub bs f) s u e 0x02 i sub 0 P := by
  obtain ⟨hh, hvia, hserves, hnext, r, hr, hsize, hidle⟩ := hacc
  refine State.serve_answers id hrun hh ?_
  simp only [id, Dev.heard_serves, hserves, Dev.heard_cfg, hr, Dev.heard_nextSegment, hnext, Dev.heard_cmdRuns, hidle, hvia,
    Nat.not_lt.mpr hsize, Bool.not_true, decide_false, Bool.false_and, if_false, Bool.false_eq_true]
  exact hp

/-! ### A leaf runs an image -/

theorem imageVersion_lt (b : Bytes) : imageVersion b < 2 ^ 32 := by
  have h6 : natAt b 6 1 < 2 ^ 8 := natAt_lt b 6 1
  have h7 : natAt b 7 1 < 2 ^ 8 := natAt_lt b 7 1
  have h8 : natAt b 8 2 < 2 ^ 16 := natAt_lt b 8 2
  unfold imageVersion
  omega

theorem Cfg.imageFault_lt (c : Cfg) (t : Nat) (b : Bytes) : c.imageFault t b < 8 := by
  unfold Cfg.imageFault
  repeat' split
  all_goals decide

/-- A leaf whose image has started, before it reports the image (R600, R613, R648). -/
def Dev.imageStarted (d : Dev) (b : Bytes) : Dev :=
  let d := { d with boot := { d.boot with rom := false, fetch := [] } }
  ((((d.set 0x1801_01 0).set 0x1801_04 d.now).set 0x1001_01 (natAt b 13 1)).set 0x1001_02 (natAt b 14 1)).set 0x3000_01 (natAt b 10 1)

theorem Dev.runImage_of_leaf (d : Dev) (b : Bytes) (hleaf : d.isTrunk = false) : d.runImage b = (d.imageStarted b).reportImage 1 b := by
  have hnot : ¬ (d.imageStarted b).isTrunk = true := fun h => Bool.noConfusion (hleaf.symm.trans h)
  have htype : (d.imageStarted b).mgmtType = 1 := if_neg hnot
  have hstart : d.runImage b = (if (d.imageStarted b).isTrunk then (d.imageStarted b).set 0x3100_05 (natAt b 11 1)
      else d.imageStarted b).reportImage (if (d.imageStarted b).isTrunk then (d.imageStarted b).set 0x3100_05 (natAt b 11 1)
      else d.imageStarted b).mgmtType b := rfl
  rw [hstart, if_neg hnot, htype]

theorem Dev.get_imageStarted (d : Dev) (b : Bytes) : (d.imageStarted b).get 0x1801_01 = 0 := by
  unfold Dev.imageStarted
  rw [Dev.get_set_of_ne _ _ _ _ (by decide), Dev.get_set_of_ne _ _ _ _ (by decide), Dev.get_set_of_ne _ _ _ _ (by decide),
    Dev.get_set_of_ne _ _ _ _ (by decide), Dev.get_set_fits _ _ _ (by decide)]

/-- A leaf that starts an image reports its version (R601, R649). -/
theorem Dev.runImage_leaf (d : Dev) (b : Bytes) (hleaf : d.isTrunk = false) :
    (d.runImage b).boot.rom = false ∧ (d.runImage b).get 0x1801_01 = 0 ∧ (d.runImage b).get 0x1811_01 = imageVersion b := by
  have hfits : imageVersion b < 2 ^ minWidth (key (0x1810 + 1) 1) := (imageVersion_lt b).trans_le (by decide)
  rw [d.runImage_of_leaf b hleaf]
  unfold Dev.reportImage
  refine ⟨rfl, ?_, ?_⟩
  · rw [Dev.get_set_of_ne _ _ _ _ (by decide), Dev.get_set_of_ne _ _ _ _ (by decide), Dev.get_set_of_ne _ _ _ _ (by decide),
      d.get_imageStarted b]
  · rw [Dev.get_set_of_ne _ _ _ _ (by decide), Dev.get_set_of_ne _ _ _ _ (by decide)]
    exact Dev.get_set_fits _ _ _ hfits

/-- A download that comes over another port, or whose image fails a check (R598, R611). -/
theorem Dev.quicksetAns_cases (d : Dev) (e : Env) (b : Bytes) :
    d.quicksetAns e b =
      if e.via ≠ (if d.isTrunk then Via.servicePort else Via.service) then fail d .state
      else if d.cfg.imageFault d.mgmtType b ≠ 0 then fail (d.set 0x1801_02 (d.cfg.imageFault d.mgmtType b)) .range
      else if d.isTrunk then (d.programSlot d.mgmtType b).resetAns 6 else ok (d.runImage b) := by
  unfold Dev.quicksetAns
  simp only [bne_iff_ne]

theorem Dev.get_quicksetReason (d : Dev) (t : Nat) (b : Bytes) :
    (d.set 0x1801_02 (d.cfg.imageFault t b)).get 0x1801_02 = d.cfg.imageFault t b :=
  d.get_set_fits _ _ ((d.cfg.imageFault_lt t b).trans_le (by decide))

theorem execQuicksetImage_leaf (s : State) (l : LeafId) (e : Env) (b : Bytes) (hbuilt : s.built) (hrun : s.runs (.leaf l))
    (hacc : (s.unit (.leaf l)).acceptsDomain e 0x1830 0 b) :
    Answers (exec (.quicksetImage (.leaf l) e b) s) s (.leaf l) e 0x02 0x1830 0 0 fun a =>
      if e.via ≠ .service then a.abort = 0x07 ∧ a.dev = (s.unit (.leaf l)).heard e
      else if (s.dev (.leaf l)).cfg.imageFault 1 b ≠ 0 then a.abort = 0x06 ∧ a.dev.get 0x1801_02 = (s.dev (.leaf l)).cfg.imageFault 1 b ∧
        ((s.unit (.leaf l)).heard e).onlyObjects a.dev [0x1801_02]
      else a.abort = 0 ∧ a.dev.boot.rom = false ∧ a.dev.get 0x1801_01 = 0 ∧ a.dev.get 0x1811_01 = imageVersion b := by
  have hleaf : ((s.unit (.leaf l)).heard e).isTrunk = false := by
    have := s.built_leaf hbuilt l
    rw [Dev.heard_isTrunk]
    exact decide_eq_false (by rw [show (s.unit (.leaf l)).cfg.build = .leaf from this]; decide)
  show Answers (execQuicksetImage (.leaf l) e b s) s _ _ _ _ _ _ _
  refine State.serveDomain_answers hrun hacc ?_
  have htype : ((s.unit (.leaf l)).heard e).mgmtType = 1 := if_neg (by simp [hleaf])
  have hcfg : ((s.unit (.leaf l)).heard e).cfg = (s.dev (.leaf l)).cfg := Dev.heard_cfg _ e
  have hport : (if ((s.unit (.leaf l)).heard e).isTrunk then Via.servicePort else Via.service) = .service := by rw [hleaf]; rfl
  rw [Dev.quicksetAns_cases, hport, htype, hcfg]
  by_cases hvia : e.via ≠ .service
  · rw [if_pos hvia, if_pos hvia]
    exact ⟨rfl, rfl⟩
  · rw [if_neg hvia, if_neg hvia]
    by_cases hfault : (s.dev (.leaf l)).cfg.imageFault 1 b ≠ 0
    · rw [if_pos hfault, if_pos hfault]
      have hreason := ((s.unit (.leaf l)).heard e).get_quicksetReason 1 b
      rw [hcfg] at hreason
      exact ⟨rfl, hreason, Dev.set_onlyObjects _ _ _⟩
    · rw [if_neg hfault, if_neg hfault, hleaf]
      exact ⟨rfl, Dev.runImage_leaf _ b hleaf⟩

/-! ### Slots of the board flash -/

/-- The part of an image that a sector holds. -/
def sectorPart (b : Bytes) (k : Nat) : Bytes := (b.drop (65536 * k)).take 65536

/-- A sector's bytes: what it has been programmed with, and erased flash. -/
def padSector (c : Bytes) : Bytes := c.take 65536 ++ List.replicate (65536 - (c.take 65536).length) 0xFF

theorem padSector_full {c : Bytes} (h : 65536 ≤ c.length) : padSector (c.take 65536) = c.take 65536 := by
  have hlen : (c.take 65536).length = 65536 := by rw [List.length_take]; omega
  rw [padSector, List.take_take, Nat.min_self, hlen, Nat.sub_self, List.replicate_zero, List.append_nil]

/-- The sectors of an image hold the image from their start. -/
theorem take_sectors (m : Nat) (b : Bytes) (h : b.length ≤ 65536 * m) :
    ((List.range m).flatMap fun k => padSector (sectorPart b k)).take b.length = b := by
  induction m generalizing b with
  | zero =>
    have : b = [] := List.eq_nil_of_length_eq_zero (by omega)
    simp [this]
  | succ m ih =>
    have hnext : ∀ k, sectorPart b (k + 1) = sectorPart (b.drop 65536) k := fun k => by
      rw [sectorPart, sectorPart, List.drop_drop, Nat.mul_succ, Nat.add_comm]
    rw [List.range_succ_eq_map, List.flatMap_cons, List.flatMap_map]
    simp only [Nat.succ_eq_add_one, hnext]
    have hfirst : sectorPart b 0 = b.take 65536 := by rw [sectorPart, Nat.mul_zero, List.drop_zero]
    rw [hfirst]
    by_cases hlong : 65536 ≤ b.length
    · have hlen : (b.take 65536).length = 65536 := by rw [List.length_take]; omega
      have hrest := ih (b.drop 65536) (by rw [List.length_drop]; omega)
      rw [List.length_drop] at hrest
      rw [padSector_full hlong, List.take_append, hlen, hrest, List.take_take, Nat.min_eq_right hlong, List.take_append_drop]
    · have hshort : b.take 65536 = b := List.take_of_length_le (by omega)
      rw [hshort, padSector, hshort, List.append_assoc, List.take_left]

theorem sectorOf_eq {l : List (Nat × Bytes)} {k : Nat} {c : Bytes} (h : lookupKey k l = some c) : sectorOf l k = padSector c := by
  rw [sectorOf, h]
  rfl

theorem Dev.slotOfType_putSector (d : Dev) {t : Nat} (k : Nat) (c : Bytes) (h : t - 1 < d.tk.flash.slots.length) :
    (d.putSector t k c).slotOfType t = insertKey k c (d.slotOfType t) := by
  simp [Dev.slotOfType, Dev.putSector, h]

theorem Dev.slots_putSector (d : Dev) (t k : Nat) (c : Bytes) :
    (d.putSector t k c).tk.flash.slots.length = d.tk.flash.slots.length := List.length_modify _ _ _

/-- Each sector programmed holds its part. -/
theorem Dev.lookup_foldl_putSector (l : List Nat) (d : Dev) {t : Nat} (f : Nat → Bytes) (h : t - 1 < d.tk.flash.slots.length) (j : Nat) :
    lookupKey j ((l.foldl (fun (d : Dev) k => d.putSector t k (f k)) d).slotOfType t) =
      if j ∈ l then some (f j) else lookupKey j (d.slotOfType t) := by
  induction l generalizing d with
  | nil => simp
  | cons k ks ih =>
    rw [List.foldl_cons, ih (d.putSector t k (f k)) (by rwa [Dev.slots_putSector]), d.slotOfType_putSector k (f k) h, lookupKey_insertKey]
    by_cases hj : j ∈ ks
    · simp [hj]
    · by_cases hk : j = k
      · simp [hk]
      · simp [hj, hk]

/-- An image programmed into its slot reads back from it. -/
theorem Dev.slotBytes_programSlot (d : Dev) {t : Nat} (b : Bytes) (h : t - 1 < d.tk.flash.slots.length) :
    slotBytes ((d.programSlot t b).slotOfType t) b.length = b := by
  have hsector : ∀ k ∈ List.range ((b.length + 65535) / 65536), sectorOf ((d.programSlot t b).slotOfType t) k = padSector (sectorPart b k) :=
    fun k hk => sectorOf_eq ((d.lookup_foldl_putSector _ (sectorPart b) h k).trans (if_pos hk))
  rw [slotBytes, List.flatMap_congr hsector]
  exact take_sectors _ b (by omega)

/-! ### A trunk stores an image and is reset -/

/-- Nothing but what the unit sends has changed. -/
def Dev.OutOnly (d d' : Dev) : Prop := ∃ l, d' = { d with out := l }

theorem Dev.OutOnly.trans {a b c : Dev} (h : a.OutOnly b) (h' : b.OutOnly c) : a.OutOnly c := by
  obtain ⟨l, rfl⟩ := h
  obtain ⟨l', rfl⟩ := h'
  exact ⟨l', rfl⟩

theorem Dev.OutOnly.emit (d : Dev) (o : Out) : d.OutOnly (d.emit o) := ⟨_, rfl⟩

theorem Dev.OutOnly.foldl {f : Dev → Nat → Dev} (hf : ∀ (d : Dev) n, d.OutOnly (f d n)) (l : List Nat) (d : Dev) :
    d.OutOnly (l.foldl f d) := by
  induction l generalizing d with
  | nil => exact ⟨d.out, rfl⟩
  | cons x xs ih => exact .trans (hf d x) (ih (f d x))

/-- A trunk's outputs in reset are all that its reset sends (R635, R643). -/
theorem Dev.OutOnly.resetOutputs {d : Dev} (faults : Nat → Bool) (htrunk : d.isTrunk = true) : d.OutOnly (d.resetOutputs faults) := by
  unfold Dev.resetOutputs
  dsimp only
  rw [if_pos htrunk]
  exact .trans (.foldl (fun d p => .emit d _) _ d) (.emit _ _)

/-- A trunk's reset after its fresh state stands: outputs, and TRUNK_REBOOT of Layering (R617, R635). -/
def Dev.resetEnd (n : Dev) (faults : Nat → Bool) : Dev :=
  let n := n.resetOutputs faults
  if !n.isTrunk then n.fetchAt 0 else if n.tk.flash.layer then n.set 0x1803_02 1 else n

theorem Dev.resetEnd_spec (n : Dev) (faults : Nat → Bool) (htrunk : n.isTrunk = true) :
    (n.resetEnd faults).tk = n.tk ∧ (n.resetEnd faults).boot = n.boot ∧ (n.resetEnd faults).get 0x1002_01 = n.get 0x1002_01 := by
  obtain ⟨l, hout⟩ := Dev.OutOnly.resetOutputs faults htrunk
  unfold Dev.resetEnd
  rw [hout]
  dsimp only
  rw [if_neg (by simpa [Dev.isTrunk] using htrunk)]
  split
  · exact ⟨rfl, rfl, Dev.get_set_of_ne _ _ _ _ (by decide)⟩
  · exact ⟨rfl, rfl, rfl⟩

theorem Dev.resetEnd_tk (n : Dev) (faults : Nat → Bool) (htrunk : n.isTrunk = true) : (n.resetEnd faults).tk = n.tk :=
  (n.resetEnd_spec faults htrunk).1

theorem Dev.resetEnd_boot (n : Dev) (faults : Nat → Bool) (htrunk : n.isTrunk = true) : (n.resetEnd faults).boot = n.boot :=
  (n.resetEnd_spec faults htrunk).2.1

theorem Dev.get_resetEnd (n : Dev) (faults : Nat → Bool) (htrunk : n.isTrunk = true) :
    (n.resetEnd faults).get 0x1002_01 = n.get 0x1002_01 :=
  (n.resetEnd_spec faults htrunk).2.2

/-- A trunk that is reset by a download runs its ROM, with the image in its slot (R611, R634). -/
theorem Dev.resetUnit_trunk (d : Dev) (htrunk : d.isTrunk = true) (hidle : d.writing = false) :
    (d.resetUnit 6).tk.flash = d.tk.flash ∧ (d.resetUnit 6).boot.rom = true ∧ (d.resetUnit 6).get 0x1002_01 = 6 := by
  have htorn : d.tornUpdate = d := by
    have hnot : d.get 0x1802_05 ≠ 2 := by simpa [Dev.writing] using hidle
    exact if_neg (by simp [hnot])
  unfold Dev.resetUnit
  rw [htorn]
  show (Dev.resetEnd _ _).tk.flash = _ ∧ (Dev.resetEnd _ _).boot.rom = _ ∧ (Dev.resetEnd _ _).get _ = _
  refine ⟨?_, ?_, ?_⟩
  · rw [Dev.resetEnd_tk _ d.faulted (by exact htrunk)]
    rfl
  · rw [Dev.resetEnd_boot _ d.faulted (by exact htrunk)]
    rfl
  · rw [Dev.get_resetEnd _ d.faulted (by exact htrunk), Dev.get_set_of_ne _ _ _ _ (by decide), Dev.get_set_of_ne _ _ _ _ (by decide),
      Dev.get_set_of_ne _ _ _ _ (by decide), Dev.get_set_of_ne _ _ _ _ (by decide)]
    exact Dev.get_set_fits _ _ 6 (by decide)

theorem Dev.programSlot_kept (d : Dev) (t : Nat) (b : Bytes) :
    (d.programSlot t b).cfg = d.cfg ∧ (d.programSlot t b).objs = d.objs := by
  unfold Dev.programSlot
  generalize List.range ((b.length + 65535) / 65536) = l
  induction l generalizing d with
  | nil => exact ⟨rfl, rfl⟩
  | cons k ks ih =>
    rw [List.foldl_cons]
    exact ih (d.putSector t k ((b.drop (65536 * k)).take 65536))

theorem execQuicksetImage_trunk (s : State) (e : Env) (b : Bytes) (hbuilt : s.built) (hrun : s.runs .trunk)
    (hacc : (s.unit .trunk).acceptsDomain e 0x1830 0 b) (hslots : s.trunk.tk.flash.slots.length = 5) (hidle : s.trunk.writing = false) :
    Answers (exec (.quicksetImage .trunk e b) s) s .trunk e 0x02 0x1830 0 0 fun a =>
      if e.via ≠ .servicePort then a.abort = 0x07 ∧ a.dev = (s.unit .trunk).heard e
      else if s.trunk.cfg.imageFault 2 b ≠ 0 then a.abort = 0x06 ∧ a.dev.get 0x1801_02 = s.trunk.cfg.imageFault 2 b ∧
        ((s.unit .trunk).heard e).onlyObjects a.dev [0x1801_02]
      else a.wait = true ∧ a.dev.boot.rom = true ∧ a.dev.get 0x1002_01 = 6 ∧ slotBytes (a.dev.slotOfType 2) b.length = b := by
  have htrunk : ((s.unit .trunk).heard e).isTrunk = true := by
    rw [Dev.heard_isTrunk]
    exact decide_eq_true hbuilt.2.2
  show Answers (execQuicksetImage .trunk e b s) s _ _ _ _ _ _ _
  refine State.serveDomain_answers hrun hacc ?_
  have htype : ((s.unit .trunk).heard e).mgmtType = 2 := if_pos htrunk
  have hcfg : ((s.unit .trunk).heard e).cfg = s.trunk.cfg := Dev.heard_cfg _ e
  have hport : (if ((s.unit .trunk).heard e).isTrunk then Via.servicePort else Via.service) = .servicePort := if_pos htrunk
  rw [Dev.quicksetAns_cases, hport, htype, hcfg]
  by_cases hvia : e.via ≠ .servicePort
  · rw [if_pos hvia, if_pos hvia]
    exact ⟨rfl, rfl⟩
  · rw [if_neg hvia, if_neg hvia]
    by_cases hfault : s.trunk.cfg.imageFault 2 b ≠ 0
    · rw [if_pos hfault, if_pos hfault]
      have hreason := ((s.unit .trunk).heard e).get_quicksetReason 2 b
      rw [hcfg] at hreason
      exact ⟨rfl, hreason, Dev.set_onlyObjects _ _ _⟩
    · rw [if_neg hfault, if_neg hfault, if_pos htrunk]
      set d := (s.unit .trunk).heard e with hd
      obtain ⟨hpcfg, hpobjs⟩ := d.programSlot_kept 2 b
      have hflash : d.tk = s.trunk.tk := Dev.heard_tk _ e
      have hw : (d.programSlot 2 b).writing = false := by
        rw [Dev.writing, Dev.get_congr hpobjs hpcfg, hd, Dev.heard_get]
        exact hidle
      obtain ⟨hreset, hrom, hcause⟩ := (d.programSlot 2 b).resetUnit_trunk (by rw [Dev.isTrunk, hpcfg]; exact htrunk) hw
      refine ⟨rfl, hrom, hcause, ?_⟩
      have hslot : ((d.programSlot 2 b).resetUnit 6).slotOfType 2 = (d.programSlot 2 b).slotOfType 2 := by
        rw [Dev.slotOfType, hreset, Dev.slotOfType]
      show slotBytes (((d.programSlot 2 b).resetUnit 6).slotOfType 2) b.length = b
      rw [hslot]
      exact d.slotBytes_programSlot b (by rw [hflash, hslots]; decide)

/-! ### Messages to drops -/

/-- Neither the objects nor the boot state nor what a trunk holds besides has changed; the unit has sent `l` more. -/
structure Dev.Posts (d d' : Dev) (l : List Out) : Prop where
  cfg : d'.cfg = d.cfg
  objs : d'.objs = d.objs
  tk : d'.tk = d.tk
  boot : d'.boot = d.boot
  out : d'.out = d.out ++ l

theorem Dev.Posts.get {d d' : Dev} {l : List Out} (h : d.Posts d' l) (k : Nat) : d'.get k = d.get k := Dev.get_congr h.objs h.cfg k

theorem Dev.Posts.trans {a b c : Dev} {l l' : List Out} (h : a.Posts b l) (h' : b.Posts c l') : a.Posts c (l ++ l') :=
  ⟨h'.cfg.trans h.cfg, h'.objs.trans h.objs, h'.tk.trans h.tk, h'.boot.trans h.boot, by rw [h'.out, h.out, List.append_assoc]⟩

/-- A request to a drop is noted and sent (R54, R66). -/
theorem Dev.Posts.request (d : Dev) (r : Resp) (g n : Nat) :
    d.Posts ((d.nextTxn.2.noteAsked r (some (g, n))).sendDrop g n r) [.toDrop g n r] := ⟨rfl, rfl, rfl, rfl, rfl⟩

/-- The request that carries a segment of an image to a drop (R46, R612). -/
def segmentReq (d : Dev) (c : Nat × Bytes × Bool) : Resp :=
  { opcode := 2, txn := d.nextTxn.1, dest := 0x400000, source := d.address, index := 0x1830
    flags := if c.2.2 then 2 else 0, offset := c.1, length := c.2.1.length, data := c.2.1 }

/-- A message to a drop that carries one of the segments. -/
def carriesSegment (g n : Nat) (l : List (Nat × Bytes × Bool)) (o : Out) : Prop :=
  ∃ r, o = .toDrop g n r ∧ r.opcode = 2 ∧ r.index = 0x1830 ∧
    ∃ c ∈ l, r.offset = c.1 ∧ r.data = c.2.1 ∧ r.flags = if c.2.2 = true then 2 else 0

/-- Segments sent to a drop, in a message each. -/
theorem Dev.Posts.segments (g n : Nat) (l : List (Nat × Bytes × Bool)) (d : Dev) :
    ∃ os, d.Posts (l.foldl (fun (d : Dev) c => (d.nextTxn.2.noteAsked (segmentReq d c) (some (g, n))).sendDrop g n (segmentReq d c)) d) os ∧
      os.length = l.length ∧ ∀ o ∈ os, carriesSegment g n l o := by
  induction l generalizing d with
  | nil => exact ⟨[], ⟨rfl, rfl, rfl, rfl, (List.append_nil _).symm⟩, rfl, by simp⟩
  | cons c cs ih =>
    have hfirst := Dev.Posts.request d (segmentReq d c) g n
    obtain ⟨os, hrest, hlen, hall⟩ := ih ((d.nextTxn.2.noteAsked (segmentReq d c) (some (g, n))).sendDrop g n (segmentReq d c))
    refine ⟨_, hfirst.trans hrest, by simp [hlen], fun o ho => ?_⟩
    rcases List.mem_append.mp ho with h | h
    · obtain rfl := List.mem_singleton.mp h
      exact ⟨segmentReq d c, rfl, rfl, rfl, c, List.mem_cons_self, rfl, rfl, rfl⟩
    · obtain ⟨r, hr, hop, hidx, x, hx, hsame⟩ := hall o h
      exact ⟨r, hr, hop, hidx, x, List.mem_cons_of_mem c hx, hsame⟩

/-- The value bytes of the stored leaf image as a DOMAIN (R612). -/
def Dev.leafImage (d : Dev) : Bytes := leBytes 4 (d.storedImage 1).length ++ d.storedImage 1

theorem Dev.leafImage_congr {d d' : Dev} (h : d'.tk = d.tk) : d'.leafImage = d.leafImage := by
  unfold Dev.leafImage Dev.storedImage Dev.slotOfType
  rw [h]

theorem Dev.pushImage_posts (d : Dev) (g n : Nat) :
    ∃ os, d.Posts (d.pushImage g n) os ∧ os.length = (writeSegments d.leafImage).length ∧
      ∀ o ∈ os, carriesSegment g n (writeSegments d.leafImage) o :=
  Dev.Posts.segments g n (writeSegments d.leafImage) d

/-! ### QuicksetPush -/

theorem quicksetPush_row {c : Cfg} {r : Row} (h : c.rowOf 0x1803 7 = some r) : r.rng = .any := by
  have hp := row_of_all c 0x1803 7 (fun r => r.rng == .any) r (by decide) h
  simpa using hp

theorem execQuicksetPush_answers (s : State) (e : Env) (v : Nat) (hrun : s.runs .trunk) (hacc : (s.unit .trunk).accepts e 0x1803 7 v) :
    Answers (exec (.quicksetPush e v) s) s .trunk e 0x02 0x1803 7 0 fun a =>
      let b := leBytes 4 (s.trunk.storedImage 1).length ++ s.trunk.storedImage 1
      if v % 32 = 0 ∨ 16 < v % 32 then a.abort = 0x06 ∧ a.dev = (s.unit .trunk).heard e
      else a.abort = 0 ∧ a.dev.objs = s.trunk.objs ∧ a.dev.out.length = (writeSegments b).length ∧
        ∀ o ∈ a.dev.out, ∃ r, o = .toDrop (v / 2 ^ 8 % 2 ^ 4) (v % 32) r ∧ r.opcode = 2 ∧ r.index = 0x1830 ∧
          ∃ c ∈ writeSegments b, r.offset = c.1 ∧ r.data = c.2.1 ∧ r.flags = if c.2.2 = true then 2 else 0 := by
  show Answers (execQuicksetPush e v s) s _ _ _ _ _ _ _
  unfold execQuicksetPush State.onTrunk
  refine State.serveWrite_answers_any (by decide) hrun hacc (fun r hr => quicksetPush_row hr) ?_
  have hans : ((s.unit .trunk).heard e).pushAns v = if v % 32 = 0 ∨ 16 < v % 32 then fail ((s.unit .trunk).heard e) .range
      else ok (((s.unit .trunk).heard e).pushImage (field v 11 8) (v % 32)) := by
    unfold Dev.pushAns
    simp only [Bool.or_eq_true, decide_eq_true_eq, gt_iff_lt]
  rw [hans]
  by_cases hdrop : v % 32 = 0 ∨ 16 < v % 32
  · rw [if_pos hdrop]
    rw [if_pos hdrop]
    exact ⟨rfl, rfl⟩
  · rw [if_neg hdrop]
    rw [if_neg hdrop]
    set d := (s.unit .trunk).heard e with hd
    have himage : d.leafImage = leBytes 4 (s.trunk.storedImage 1).length ++ s.trunk.storedImage 1 := by
      have htk : d.tk = s.trunk.tk := Dev.heard_tk _ e
      exact Dev.leafImage_congr htk
    obtain ⟨os, hposts, hlen, hall⟩ := d.pushImage_posts (field v 11 8) (v % 32)
    have hout : (d.pushImage (field v 11 8) (v % 32)).out = os := by
      have hquiet : d.out = [] := Dev.heard_out _ e
      rw [hposts.out, hquiet, List.nil_append]
    rw [← himage]
    refine ⟨rfl, hposts.objs.trans (Dev.heard_objs _ e), (congrArg List.length hout).trans hlen, fun o ho => hall o ?_⟩
    exact hout ▸ ho

/-! ### The poll of BootState -/

/-- The READ of a drop's `BootState` (R612). -/
def pollReq (d : Dev) : Resp :=
  { opcode := 1, txn := d.nextTxn.1, dest := 0x400000, source := d.address, index := 0x1801, sub := 1, length := 1 }

/-- A trunk that has asked a drop for its `BootState`. -/
def Dev.asked (d : Dev) (g n : Nat) : Dev := (d.nextTxn.2.noteAsked (pollReq d) (some (g, n))).sendDrop g n (pollReq d)

theorem Dev.asked_posts (d : Dev) (g n : Nat) : d.Posts (d.asked g n) [.toDrop g n (pollReq d)] := .request d (pollReq d) g n

/-- Layering halts at the leaf that it waits for, where the drop in Quickset mode is that leaf (R618). -/
def Dev.haltAt (d : Dev) (address : Nat) : Dev :=
  if d.layerAwaits (d.get 0x1803_03) && address = d.leafAddress (d.get 0x1803_03) then d.haltLayer 2 else d

def Dev.setPushed (d : Dev) (l : List (Nat × Nat)) : Dev := { d with boot := { d.boot with pushed := l } }

/-- A drop in Quickset mode is marked as pushed to, and gets the image where it was not marked (R612). -/
def Dev.pushOnce (d : Dev) (g n : Nat) : Dev :=
  if d.boot.pushed.contains (g, n) then d else (d.setPushed (d.boot.pushed ++ [(g, n)])).pushImage g n

theorem Dev.polled_of_seen (d : Dev) {g n address state : Nat} (hseen : (d.get (key (0x1110 + g) 4)).testBit n = true) :
    d.polled g n address state =
      if state ≠ 1 then (d.asked g n).setPushed (d.boot.pushed.filter (· != (g, n)))
      else ((d.asked g n).haltAt address).pushOnce g n := by
  unfold Dev.polled
  rw [if_neg (by simp [hseen])]
  by_cases hstate : state = 1
  · subst hstate
    rfl
  · have hne : (state != 1) = true := by simpa using hstate
    dsimp only
    rw [if_pos hne, if_pos hstate]
    rfl

/-- What Layering's halt leaves as it is. -/
theorem Dev.haltLayer_kept (d : Dev) (reason : Nat) :
    (d.haltLayer reason).cfg = d.cfg ∧ (d.haltLayer reason).tk = d.tk ∧ (d.haltLayer reason).boot = d.boot ∧
    (d.haltLayer reason).out = d.out := by
  simp [Dev.haltLayer]

theorem Dev.haltAt_kept (d : Dev) (address : Nat) :
    (d.haltAt address).tk = d.tk ∧ (d.haltAt address).boot = d.boot ∧ (d.haltAt address).out = d.out := by
  unfold Dev.haltAt
  split
  · obtain ⟨-, htk, hboot, hout⟩ := d.haltLayer_kept 2
    exact ⟨htk, hboot, hout⟩
  · exact ⟨rfl, rfl, rfl⟩

/-- A halt of Layering shows in its state, its reason and its flag (R618). -/
theorem Dev.haltLayer_shows (d : Dev) {reason : Nat} (h : reason < 256) :
    (d.haltLayer reason).get 0x1803_02 = 5 ∧ (d.haltLayer reason).get 0x1803_06 = reason ∧
    ((d.haltLayer reason).get 0x1804_00).testBit 3 = true := by
  have hflag : ∀ k, k = 0x1803_02 ∨ k = 0x1803_06 → (d.haltLayer reason).get k = ((d.set 0x1803_02 5).set 0x1803_06 reason).get k := by
    rintro k (rfl | rfl) <;> exact Dev.get_flag_of_ne _ _ _ _ (by decide) (by decide) (by decide)
  refine ⟨?_, ?_, ?_⟩
  · rw [hflag _ (.inl rfl), Dev.get_set_of_ne _ _ _ _ (by decide), Dev.get_set_fits _ _ _ (by decide)]
  · rw [hflag _ (.inr rfl), Dev.get_set_fits _ _ _ (h.trans_le (by decide))]
  · exact Dev.testBit_flag _ (i := 0x1804) (by decide) ((show 8 ≤ minWidth (key 0x1804 0) by decide).trans (minWidth_le _ _)) (by decide)

/-- A drop in Quickset mode after the poll: marked, and the image is sent where it was not marked. -/
theorem Dev.pushOnce_spec (d : Dev) (g n : Nat) :
    (g, n) ∈ (d.pushOnce g n).boot.pushed ∧ (∀ k, (d.pushOnce g n).get k = d.get k) ∧
    ∃ l, (d.pushOnce g n).out = d.out ++ l ∧
      l.length = if d.boot.pushed.contains (g, n) = true then 0 else (writeSegments d.leafImage).length := by
  unfold Dev.pushOnce
  split
  · next h => exact ⟨by simpa using h, fun _ => rfl, [], (List.append_nil _).symm, rfl⟩
  · obtain ⟨os, hposts, hlen, -⟩ := (d.setPushed (d.boot.pushed ++ [(g, n)])).pushImage_posts g n
    refine ⟨?_, hposts.get, os, hposts.out, hlen⟩
    rw [hposts.boot]
    exact List.mem_append_right _ List.mem_cons_self

/-- The poll of one drop that has been seen (R612, R618). -/
theorem Dev.polled_spec (d : Dev) {g n address state : Nat} (hseen : (d.get (key (0x1110 + g) 4)).testBit n = true) (hquiet : d.out = []) :
    let d' := d.polled g n address state
    (∃ r, d'.out.head? = some (.toDrop g n r) ∧ r.opcode = 1 ∧ r.index = 0x1801 ∧ r.sub = 1) ∧
    (state ≠ 1 → d'.boot.pushed = d.boot.pushed.filter (· != (g, n)) ∧ d'.out.length = 1) ∧
    (state = 1 → (g, n) ∈ d'.boot.pushed ∧
      d'.out.length = 1 + if d.boot.pushed.contains (g, n) = true then 0 else (writeSegments d.leafImage).length) ∧
    (state = 1 → d.layerAwaits (d.get 0x1803_03) = true → address = d.leafAddress (d.get 0x1803_03) →
      d'.get 0x1803_02 = 5 ∧ d'.get 0x1803_06 = 2 ∧ (d'.get 0x1804_00).testBit 3 = true) := by
  have hasked := d.asked_posts g n
  have hout : (d.asked g n).out = [.toDrop g n (pollReq d)] := by rw [hasked.out, hquiet, List.nil_append]
  rw [d.polled_of_seen hseen]
  by_cases hstate : state = 1
  · obtain ⟨htk, hboot, hkept⟩ := (d.asked g n).haltAt_kept address
    obtain ⟨hmem, hget, l, hsent, hlen⟩ := ((d.asked g n).haltAt address).pushOnce_spec g n
    rw [hkept, hout] at hsent
    rw [hboot, hasked.boot, Dev.leafImage_congr (htk.trans hasked.tk)] at hlen
    rw [if_neg (not_not.mpr hstate)]
    refine ⟨⟨pollReq d, by rw [hsent]; rfl, rfl, rfl, rfl⟩, fun h => absurd hstate h, fun _ => ⟨hmem, ?_⟩, fun _ hawait haddr => ?_⟩
    · rw [hsent, List.length_append, hlen]
      rfl
    · have hhalt : (d.asked g n).haltAt address = (d.asked g n).haltLayer 2 := by
        have hport : (d.asked g n).get 0x1803_03 = d.get 0x1803_03 := hasked.get _
        have hawaits : (d.asked g n).layerAwaits (d.get 0x1803_03) = true := by
          rw [← hawait, Dev.layerAwaits, Dev.layerAwaits, hasked.get, hasked.get, hasked.tk]
        have hleaf : (d.asked g n).leafAddress (d.get 0x1803_03) = address := by
          rw [haddr, Dev.leafAddress, Dev.leafAddress, hasked.get]
        exact if_pos (by rw [hport, hawaits, hleaf]; simp)
      rw [hget, hget, hget, hhalt]
      exact (d.asked g n).haltLayer_shows (by decide)
  · rw [if_pos hstate]
    refine ⟨⟨pollReq d, ?_, rfl, rfl, rfl⟩, fun _ => ⟨rfl, ?_⟩, fun h => absurd h hstate, fun h => absurd h hstate⟩
    · exact congrArg List.head? hout
    · exact congrArg List.length hout

theorem execBootStatePoll_yields (s : State) (g n address state : Nat) (hrun : s.runs .trunk) (hg : g < 16) (hn : 1 ≤ n)
    (hn' : n ≤ 16) (hseen : (s.trunk.get (key (0x1110 + g) 4)).testBit n = true) :
    Yields (exec (.bootStatePoll [(g, n, address, state)]) s) s .trunk fun d =>
      if s.trunk.running = false ∨ s.trunk.updateHost = true then d = (s.unit .trunk)
      else (∃ r, d.out.head? = some (.toDrop g n r) ∧ r.opcode = 1 ∧ r.index = 0x1801 ∧ r.sub = 1) ∧
        (state ≠ 1 → d.boot.pushed = s.trunk.boot.pushed.filter (· != (g, n)) ∧ d.out.length = 1) ∧
        (state = 1 → (g, n) ∈ d.boot.pushed ∧
          d.out.length = 1 + if s.trunk.boot.pushed.contains (g, n) = true then 0 else
            (writeSegments (leBytes 4 (s.trunk.storedImage 1).length ++ s.trunk.storedImage 1)).length) ∧
        (state = 1 → s.trunk.layerAwaits (s.trunk.get 0x1803_03) = true → address = s.trunk.leafAddress (s.trunk.get 0x1803_03) →
          d.get 0x1803_02 = 5 ∧ d.get 0x1803_06 = 2 ∧ (d.get 0x1804_00).testBit 3 = true) := by
  show Yields (execBootStatePoll [(g, n, address, state)] s) s _ _
  unfold execBootStatePoll State.onTrunk
  refine s.on_yields _ _ _ hrun ?_
  have hidle : (!(s.unit .trunk).running || (s.unit .trunk).updateHost) = true ↔
      s.trunk.running = false ∨ s.trunk.updateHost = true := by
    simp only [Bool.or_eq_true, Bool.not_eq_true']
    rfl
  by_cases hoff : s.trunk.running = false ∨ s.trunk.updateHost = true
  · rw [if_pos (hidle.mpr hoff), if_pos hoff]
  · have hone : [(g, n, address, state)].filter (fun (x : Nat × Nat × Nat × Nat) => x.1 < 16 && 1 ≤ x.2.1 && x.2.1 ≤ 16) =
        [(g, n, address, state)] := by simp [hg, hn, hn']
    rw [if_neg (mt hidle.mp hoff), if_neg hoff, hone]
    exact (s.unit .trunk).polled_spec hseen rfl

/-- Settles O56, by the answers of a download at a leaf and at a trunk, of a poll, and of a push. -/
theorem quicksetDownloadsAreCheckedAndPushed : Obligations.QuicksetDownloadsAreCheckedAndPushed := by
  refine ⟨?_, ?_, ?_, ?_⟩
  · intro s l e b hbuilt hrun hacc
    exact execQuicksetImage_leaf s l e b hbuilt hrun hacc
  · intro s e b hbuilt hrun hacc hslots hidle
    exact execQuicksetImage_trunk s e b hbuilt hrun hacc hslots hidle
  · intro s g n address state _ hrun hg hn hn' hseen
    exact execBootStatePoll_yields s g n address state hrun hg hn hn' hseen
  · intro s e v _ hrun hacc
    exact execQuicksetPush_answers s e v hrun hacc

end Sys2Proof.Machine
end

section
/-! SUPPORT. What a reset leaves of FleetTime and the servo (R74). -/

namespace Sys2Proof.Machine

open Sys2Proof

/-! ### FleetTime as R74 leaves it -/

/-- A unit with the FleetTime, `Increment` and servo state of a fresh one is fresh in its time. -/
theorem Dev.timeFresh.congr {d d' : Dev} (h : d.timeFresh) (htime : d'.time = d.time) (hinc : d'.get 0x2001_03 = d.get 0x2001_03)
    (hservo : d'.get 0x2002_01 = d.get 0x2002_01) : d'.timeFresh := by
  have hs : d'.servo = d.servo := by unfold Dev.servo; rw [hservo]
  simpa only [Dev.timeFresh, htime, hinc, hs] using h

theorem Dev.timeFresh.set {d : Dev} (h : d.timeFresh) {k : Nat} (v : Nat) (hinc : (0x2001_03 : Nat) ≠ k) (hservo : (0x2002_01 : Nat) ≠ k) :
    (d.set k v).timeFresh :=
  h.congr rfl (d.get_set_of_ne _ _ _ hinc) (d.get_set_of_ne _ _ _ hservo)

theorem Dev.OutOnly.timeFresh {d d' : Dev} (h : d.OutOnly d') (hd : d.timeFresh) : d'.timeFresh := by
  obtain ⟨l, rfl⟩ := h
  exact hd.congr rfl rfl rfl

/-- `Increment` is 1.0 ns by default. -/
theorem Cfg.default_increment (c : Cfg) : c.default 0x2001_03 = 2 ^ 32 := by
  obtain ⟨build⟩ := c
  cases build <;> rfl

theorem Cfg.default_servoState (c : Cfg) : c.default 0x2002_01 = 0 := by
  obtain ⟨build⟩ := c
  cases build <;> rfl

/-- A unit with every object at its default and FleetTime at 0 is fresh in its time. -/
theorem Dev.timeFresh_of_defaults {d : Dev} (hobjs : d.objs = []) (hns : d.time.ns = 0) (hfrac : d.time.frac = 0) : d.timeFresh := by
  have hget : ∀ k, d.get k = d.cfg.default k := fun k => by unfold Dev.get; rw [hobjs]; rfl
  refine ⟨hns, hfrac, (hget _).trans (Cfg.default_increment _), ?_⟩
  unfold Dev.servo
  rw [hget, Cfg.default_servoState]
  rfl

/-! ### A unit's reset -/

/-- The outputs in reset, of either build, are all that is sent with them (R635, R636, R643). -/
theorem Dev.OutOnly.resetOutputs_any (d : Dev) (faults : Nat → Bool) : d.OutOnly (d.resetOutputs faults) := by
  by_cases htrunk : d.isTrunk = true
  · exact .resetOutputs faults htrunk
  · unfold Dev.resetOutputs
    dsimp only
    rw [if_neg htrunk]
    refine .trans (.foldl (fun d t => ?_) _ d) (.trans (.trans (.emit _ _) (.emit _ _)) (.foldl (fun d r => ?_) _ _))
    · exact .trans (.trans (.trans (.emit d _) (.emit _ _)) (.emit _ _)) (.emit _ _)
    · exact .trans (.trans (.emit d _) (.emit _ _)) (.emit _ _)

/-- What ends a reset, the outputs, the leaf's fetch and the mark of Layering, leaves the unit's time fresh. -/
theorem Dev.timeFresh_resetEnd {n : Dev} (h : n.timeFresh) (faults : Nat → Bool) : (n.resetEnd faults).timeFresh := by
  have hout : (n.resetOutputs faults).timeFresh := (Dev.OutOnly.resetOutputs_any n faults).timeFresh h
  unfold Dev.resetEnd
  dsimp only
  split
  · exact hout.congr rfl rfl rfl
  · split
    · exact hout.set _ (by decide) (by decide)
    · exact hout

theorem Dev.resetUnit_timeFresh (d : Dev) (cause : Nat) : (d.resetUnit cause).timeFresh := by
  unfold Dev.resetUnit
  refine Dev.timeFresh_resetEnd ?_ d.tornUpdate.faulted
  refine Dev.timeFresh.set ?_ _ (by decide) (by decide)
  refine Dev.timeFresh.set ?_ _ (by decide) (by decide)
  refine Dev.timeFresh.set ?_ _ (by decide) (by decide)
  refine Dev.timeFresh.set ?_ _ (by decide) (by decide)
  refine Dev.timeFresh.set ?_ _ (by decide) (by decide)
  exact Dev.timeFresh_of_defaults rfl rfl rfl

theorem Dev.resetEnd_cfg_boot (n : Dev) (faults : Nat → Bool) :
    (n.resetEnd faults).cfg = n.cfg ∧ (n.resetEnd faults).boot = n.boot := by
  obtain ⟨l, hout⟩ := Dev.OutOnly.resetOutputs_any n faults
  unfold Dev.resetEnd
  rw [hout]
  dsimp only
  split
  · exact ⟨rfl, rfl⟩
  · split <;> exact ⟨rfl, rfl⟩

theorem Dev.tornUpdate_cfg (d : Dev) : d.tornUpdate.cfg = d.cfg := by
  unfold Dev.tornUpdate
  dsimp only
  split <;> rfl

/-- A unit that has been reset is of the build that it was of. -/
theorem Dev.resetUnit_cfg (d : Dev) (cause : Nat) : (d.resetUnit cause).cfg = d.cfg := by
  unfold Dev.resetUnit
  exact (Dev.resetEnd_cfg_boot _ d.tornUpdate.faulted).1.trans d.tornUpdate_cfg

/-- A unit that has been reset stands in reset no more (R634). -/
theorem Dev.resetUnit_held (d : Dev) (cause : Nat) : (d.resetUnit cause).boot.held = false := by
  unfold Dev.resetUnit
  exact congrArg BootSt.held (Dev.resetEnd_cfg_boot _ d.tornUpdate.faulted).2

/-! ### The commands that reset -/

/-- `UnitReset` has no reserved bits. -/
theorem unitReset_row {c : Cfg} {r : Row} (h : c.rowOf 0x1801 6 = some r) : r.rng = .any := by
  simpa using row_of_all c 0x1801 6 (fun r => r.rng == .any) r (by decide) h

theorem execUnitReset_answers (s : State) (u : UnitId) (e : Env) (v : Nat) (hrun : s.runs u) (hacc : (s.unit u).accepts e 0x1801 6 v) :
    Answers (exec (.unitReset u e v) s) s u e 0x02 0x1801 6 0 fun a =>
      if v = 0x746F6F62 then a.abort = 0 ∧ a.wait = true ∧ a.dev.timeFresh else a.abort = 0x06 ∧ a.dev = (s.unit u).heard e := by
  refine State.serveWrite_answers_any (by decide) hrun hacc (fun r => unitReset_row) ?_
  unfold Dev.unitResetAns guardAns
  by_cases hmagic : v = 0x746F6F62
  · rw [if_pos hmagic, if_pos (decide_eq_true hmagic)]
    exact ⟨rfl, rfl, Dev.resetUnit_timeFresh _ 2⟩
  · rw [if_neg hmagic, if_neg (by simpa using hmagic)]
    exact ⟨rfl, rfl⟩

/-- The state in which a unit, found as `d`, has been reset: its time is fresh, and it runs. -/
theorem State.resetIn_spec (s : State) (u : UnitId) {d : Dev} (cause : Nat) (hcfg : d.cfg = (s.dev u).cfg) :
    ((s.withUnit u (d.resetUnit cause)).dev u).timeFresh ∧ (s.withUnit u (d.resetUnit cause)).runs u := by
  rw [State.runs, State.dev_withUnit_self, ← hcfg, ← d.resetUnit_cfg cause]
  exact ⟨d.resetUnit_timeFresh cause, d.resetUnit_held cause⟩

theorem State.dev_withUnit_of_ne (s : State) {u v : UnitId} (d : Dev) (h : v ≠ u) : (s.withUnit u d).dev v = s.dev v :=
  s.dev_setDev_of_ne _ u v h

theorem State.dev_mem (s : State) (m : Mem) (u : UnitId) : State.dev { s with mem := m } u = s.dev u := by
  cases u with
  | leaf l => cases l <;> rfl
  | trunk => rfl

theorem State.self_timeFresh {s : State} (h : (s.dev (.leaf .self)).timeFresh) : s.self.timeFresh := h

theorem execPowerOn_leaf (s : State) (l : LeafId) (strap : Bool) : exec (.powerOn (.leaf l) strap) s =
    .next (s.withUnit (.leaf l) (((s.unit (.leaf l)).strapped strap).resetUnit 0)) := rfl

theorem execPowerOn_trunk (s : State) (strap : Bool) : exec (.powerOn .trunk strap) s =
    let t : State := { s.withUnit .trunk (((s.unit .trunk).strapped strap).resetUnit 0) with mem := [] }
    .next (t.withUnit (.leaf .self) ((t.unit (.leaf .self)).resetUnit 0)) := rfl

theorem execPowerOn_resets (s : State) (u : UnitId) (strap : Bool) :
    ∃ t, exec (.powerOn u strap) s = .next t ∧ (t.dev u).timeFresh ∧
      (u = .trunk → t.self.timeFresh ∧ t.mem = []) ∧ (u ≠ .trunk → t.mem = s.mem) ∧ t.pending = s.pending ∧
      ∀ w, w ≠ u → ¬ (u = .trunk ∧ w = .leaf .self) → t.dev w = s.dev w := by
  obtain ⟨hfresh, -⟩ := s.resetIn_spec u (d := (s.unit u).strapped strap) 0 rfl
  cases u with
  | leaf l =>
    exact ⟨_, execPowerOn_leaf s l strap, hfresh, fun h => (UnitId.noConfusion h), fun _ => State.withUnit_mem _ _ _,
      State.withUnit_pending _ _ _, fun w hw _ => State.dev_withUnit_of_ne _ _ hw⟩
  | trunk =>
    refine ⟨_, execPowerOn_trunk s strap, ?_⟩
    generalize ((s.unit .trunk).strapped strap).resetUnit 0 = d at hfresh ⊢
    obtain ⟨hself, -⟩ := State.resetIn_spec { s.withUnit .trunk d with mem := [] } (.leaf .self)
      (d := State.unit { s.withUnit .trunk d with mem := [] } (.leaf .self)) 0 rfl
    generalize Dev.resetUnit _ 0 = x at hself ⊢
    refine ⟨?_, fun _ => ⟨State.self_timeFresh hself, rfl⟩, fun h => absurd rfl h, rfl, fun w hw hnot => ?_⟩
    · rwa [State.dev_withUnit_of_ne _ _ (by decide), State.dev_mem]
    · have hleaf : w ≠ .leaf .self := fun h => hnot ⟨rfl, h⟩
      rw [State.dev_withUnit_of_ne _ _ hleaf, State.dev_mem, State.dev_withUnit_of_ne _ _ hw]

/-- The rise of the reset input of a unit that stands in reset resets it (R634). -/
theorem Dev.pinReset_of_held {d : Dev} (h : d.boot.held = true) : d.pinReset true = d.resetUnit 1 := by
  simp [Dev.pinReset, h]

theorem execPinReset_leaf (s : State) (l : LeafId) (release strap : Bool) : exec (.pinReset (.leaf l) release strap) s =
    .next (s.withUnit (.leaf l) ((if release then (s.unit (.leaf l)).strapped strap else s.unit (.leaf l)).pinReset release)) := rfl

theorem execPinReset_trunk (s : State) (release strap : Bool) : exec (.pinReset .trunk release strap) s =
    let t := s.withUnit .trunk ((if release then (s.unit .trunk).strapped strap else s.unit .trunk).pinReset release)
    .next (t.withUnit (.leaf .self) ((t.unit (.leaf .self)).pinReset release)) := rfl

theorem execPinReset_releases (s : State) (u : UnitId) (strap : Bool) (hheld : (s.dev u).boot.held = true) :
    ∃ t, exec (.pinReset u true strap) s = .next t ∧ (t.dev u).timeFresh ∧ t.runs u ∧
      (u = .trunk → s.self.boot.held = true → t.self.timeFresh ∧ t.runs (.leaf .self)) ∧ t.mem = s.mem ∧
      t.pending = s.pending ∧ ∀ w, w ≠ u → ¬ (u = .trunk ∧ w = .leaf .self) → t.dev w = s.dev w := by
  have hreset : (if true then (s.unit u).strapped strap else s.unit u).pinReset true = ((s.unit u).strapped strap).resetUnit 1 :=
    Dev.pinReset_of_held hheld
  obtain ⟨hfresh, hrun⟩ := s.resetIn_spec u (d := (s.unit u).strapped strap) 1 rfl
  rw [← hreset] at hfresh hrun
  cases u with
  | leaf l =>
    exact ⟨_, execPinReset_leaf s l true strap, hfresh, hrun, fun h => UnitId.noConfusion h, State.withUnit_mem _ _ _,
      State.withUnit_pending _ _ _, fun w hw _ => State.dev_withUnit_of_ne _ _ hw⟩
  | trunk =>
    refine ⟨_, execPinReset_trunk s true strap, ?_⟩
    clear hreset
    generalize Dev.pinReset _ true = d at hfresh hrun ⊢
    have htrunk : ∀ x, ((s.withUnit .trunk d).withUnit (.leaf .self) x).dev .trunk = (s.withUnit .trunk d).dev .trunk :=
      fun x => State.dev_withUnit_of_ne _ x (by decide)
    refine ⟨?_, ?_, fun _ h => ?_, rfl, rfl, fun w hw hnot => ?_⟩
    · rwa [htrunk]
    · rwa [State.runs, htrunk]
    · have hpin : ((s.withUnit .trunk d).unit (.leaf .self)).pinReset true =
        ((s.withUnit .trunk d).unit (.leaf .self)).resetUnit 1 := Dev.pinReset_of_held h
      obtain ⟨hself, hselfRun⟩ := (s.withUnit .trunk d).resetIn_spec (.leaf .self)
        (d := (s.withUnit .trunk d).unit (.leaf .self)) 1 rfl
      rw [hpin]
      exact ⟨State.self_timeFresh hself, hselfRun⟩
    · have hleaf : w ≠ .leaf .self := fun h => hnot ⟨rfl, h⟩
      rw [State.dev_withUnit_of_ne _ _ hleaf, State.dev_withUnit_of_ne _ _ hw]

/-- The fall of the reset input of a unit that runs holds it in reset with its objects as they were (R635). -/
theorem Dev.pinReset_of_runs {d : Dev} (h : d.boot.held = false) :
    (d.pinReset false).boot.held = true ∧ (d.pinReset false).objs = d.objs := by
  obtain ⟨l, hout⟩ := Dev.OutOnly.resetOutputs_any { d with boot := { d.boot with held := true } } d.faulted
  have hdef : d.pinReset false = Dev.resetOutputs { d with boot := { d.boot with held := true } } d.faulted := by
    simp [Dev.pinReset, h]
  rw [hdef, hout]
  exact ⟨rfl, rfl⟩

theorem execPinReset_holds (s : State) (u : UnitId) (strap : Bool) (hrun : s.runs u) :
    ∃ t, exec (.pinReset u false strap) s = .next t ∧ (t.dev u).boot.held = true ∧ (t.dev u).objs = (s.dev u).objs := by
  obtain ⟨hheld, hobjs⟩ := Dev.pinReset_of_runs (d := s.unit u) hrun
  cases u with
  | leaf l =>
    refine ⟨_, execPinReset_leaf s l false strap, ?_⟩
    rw [State.dev_withUnit_self]
    exact ⟨hheld, hobjs⟩
  | trunk =>
    refine ⟨_, execPinReset_trunk s false strap, ?_⟩
    rw [State.dev_withUnit_of_ne _ _ (by decide), State.dev_withUnit_self]
    exact ⟨hheld, hobjs⟩

/-- Settles O58, by what a reset makes of a unit, and one lemma per command that resets. -/
theorem everyResetLeavesTimeFresh : Obligations.EveryResetLeavesTimeFresh := by
  refine ⟨Dev.resetUnit_timeFresh, ?_, execPowerOn_resets, execPinReset_releases, execPinReset_holds, ?_⟩
  · intro s u e v _ hrun hacc
    exact execUnitReset_answers s u e v hrun hacc
  · exact ⟨Dev.timeFresh_of_defaults rfl rfl rfl, Dev.timeFresh_of_defaults rfl rfl rfl, Dev.timeFresh_of_defaults rfl rfl rfl⟩

end Sys2Proof.Machine
end

section
/-! SUPPORT. The records that the hub writes of its own: where a record stands, and what writing it leaves unchanged (R214 to R216). -/

namespace Sys2Proof.Machine

open Sys2Proof

/-! ### A record among those of its tick -/

/-- The newest record, moved before at most `fuel` others, stands among the first `fuel` + 1 with its type, time and payload. -/
theorem settleRec_holds (trunk : Bool) (cap fuel : Nat) (r : Rec) (l : List Rec) :
    ∃ x ∈ (settleRec trunk cap fuel (r :: l)).take (fuel + 1), x.kind = r.kind ∧ x.time = r.time ∧ x.payload = r.payload := by
  induction fuel generalizing r l with
  | zero => exact ⟨r, by simp [settleRec], rfl, rfl, rfl⟩
  | succ fuel ih =>
    cases l with
    | nil => exact ⟨r, by simp [settleRec], rfl, rfl, rfl⟩
    | cons y rest =>
      unfold settleRec
      split
      · obtain ⟨x, hx, hkind, htime, hpayload⟩ := ih { r with seq := y.seq, originSeq := y.seq, off := y.off } rest
        exact ⟨x, List.mem_cons_of_mem _ hx, hkind, htime, hpayload⟩
      · exact ⟨r, by simp, rfl, rfl, rfl⟩

/-- The ring takes a record as its newest. -/
theorem Dev.putRecord_hist (d : Dev) (kind flags time : Nat) (payload : Bytes) (o : Option (Nat × Nat)) :
    ∃ r l, (d.putRecord kind flags time payload o).rcd.hist = r :: l ∧ r.kind = kind ∧ r.time = time ∧ r.payload = payload := by
  unfold Dev.putRecord
  simp only [Dev.always_rcd, Dev.inc_rcd, Dev.set_rcd]
  exact ⟨_, _, rfl, rfl, rfl, rfl⟩

theorem Dev.record_wrote (d : Dev) (kind : RecKind) (time : Nat) (payload : Bytes) :
    d.wrote (d.record kind time payload) kind.code time payload := by
  unfold Dev.record Dev.wrote
  dsimp only
  obtain ⟨r, l, hhist, hkind, htime, hpayload⟩ := d.putRecord_hist kind.code (b2n (d.uncertainAt time)) time payload none
  rw [hhist]
  by_cases hfresh : d.rcd.fresh = 0
  · rw [hfresh, Nat.zero_min]
    exact ⟨r, by simp [settleRec], hkind, htime, hpayload, fun _ => rfl⟩
  · obtain ⟨x, hx, hxkind, hxtime, hxpayload⟩ := settleRec_holds
      (d.putRecord kind.code (b2n (d.uncertainAt time)) time payload none).isTrunk
      ((d.putRecord kind.code (b2n (d.uncertainAt time)) time payload none).get 0x2600_01)
      (min d.rcd.fresh ((d.putRecord kind.code (b2n (d.uncertainAt time)) time payload none).rcd.held - 1)) r l
    refine ⟨x, List.take_subset_take_left _ ?_ hx, hxkind.trans hkind, hxtime.trans htime, hxpayload.trans hpayload, fun h => absurd h hfresh⟩
    omega

/-- A record stands where it was written as long as the ring is left alone. -/
theorem Dev.wrote.congr {a b d d' : Dev} {kind time : Nat} {payload : Bytes} (h : a.wrote b kind time payload)
    (hfresh : d.rcd.fresh = a.rcd.fresh) (hhist : d'.rcd.hist = b.rcd.hist) : d.wrote d' kind time payload := by
  unfold Dev.wrote
  rw [hfresh, hhist]
  exact h

/-! ### The objects that an operation may change -/

/-- Every object outside the indices listed keeps its value. -/
def Dev.KeptOutside (ix : List Nat) (d d' : Dev) : Prop := ∀ k, k / 256 ∉ ix → d'.get k = d.get k

namespace Dev.KeptOutside

variable {ix : List Nat}

theorem refl (d : Dev) : d.KeptOutside ix d := fun _ _ => rfl

theorem trans {a b c : Dev} (h : KeptOutside ix a b) (h' : KeptOutside ix b c) : KeptOutside ix a c :=
  fun k hk => (h' k hk).trans (h k hk)

theorem mono {jx : List Nat} {d d' : Dev} (h : d.KeptOutside ix d') (hsub : ix ⊆ jx) : d.KeptOutside jx d' :=
  fun k hk => h k fun hi => hk (hsub hi)

theorem of_rcd (d : Dev) (x : RecSt) : d.KeptOutside ix { d with rcd := x } := fun _ _ => rfl

theorem ite {d a b : Dev} {c : Prop} [Decidable c] (ha : d.KeptOutside ix a) (hb : d.KeptOutside ix b) :
    d.KeptOutside ix (if c then a else b) := by
  split
  · exact ha
  · exact hb

/-- An object of an index listed is none outside them. -/
theorem ne_of_mem {k j : Nat} (hk : k / 256 ∉ ix) (hj : j / 256 ∈ ix) : k ≠ j := fun h => hk (h ▸ hj)

theorem set (d : Dev) {j : Nat} (v : Nat) (hj : j / 256 ∈ ix) : d.KeptOutside ix (d.set j v) :=
  fun k hk => d.get_set_of_ne k j v (ne_of_mem hk hj)

theorem add (d : Dev) {j : Nat} (n : Nat) (hj : j / 256 ∈ ix) : d.KeptOutside ix (d.add j n) :=
  fun k hk => d.get_add_of_ne k j n (ne_of_mem hk hj)

theorem inc (d : Dev) {j : Nat} (hj : j / 256 ∈ ix) : d.KeptOutside ix (d.inc j) := add d 1 hj

theorem always (d : Dev) {sub : Nat} (n : Nat) (hsub : sub < 256) (hix : 0x2108 ∈ ix) : d.KeptOutside ix (d.always sub n) :=
  fun k hk => d.get_always_of_ne k sub n (ne_of_mem hk (by rwa [key_div hsub]))

theorem flag (d : Dev) {i b : Nat} (hb : b < 255) (hi : i ∈ ix) (hcount : i + 1 ∈ ix) (hix : 0x2108 ∈ ix) :
    d.KeptOutside ix (d.flag i b) :=
  fun k hk => d.get_flag_of_ne k i b (ne_of_mem hk (by rwa [key_div (by decide)])) (ne_of_mem hk (by rwa [key_div (by omega)]))
    (ne_of_mem hk (by rwa [key_div (by decide)]))

end Dev.KeptOutside

/-- The indices of the objects that a record changes: the recorder's and the always-on counts. -/
def recordIndices : List Nat := [0x2600, 0x2606, 0x2607, 0x2108]

/-- The objects that a ring of records shows, whatever the ring holds. -/
theorem Dev.KeptOutside.ring (d : Dev) (lost oldest newest : Nat) (c : Bool) (x : RecSt) :
    d.KeptOutside recordIndices
      (((({ (((d.add 0x2600_05 lost).flagIf c 0x2606 0).set 0x2600_03 oldest) with rcd := x }).set 0x2600_02 newest).inc
        0x2600_04).always 0x20 1) := by
  have hflag (e : Dev) : e.KeptOutside recordIndices (e.flagIf c 0x2606 0) :=
    .ite (.flag e (by decide) (by decide) (by decide) (by decide)) (.refl e)
  exact .trans (.trans (.trans (.trans (.trans (.trans (.add d lost (by decide)) (hflag _)) (.set _ oldest (by decide)))
    (.of_rcd _ x)) (.set _ newest (by decide))) (.inc _ (by decide))) (.always _ 1 (by decide) (by decide))

theorem Dev.KeptOutside.putRecord (d : Dev) (kind flags time : Nat) (payload : Bytes) (o : Option (Nat × Nat)) :
    d.KeptOutside recordIndices (d.putRecord kind flags time payload o) := by
  unfold Dev.putRecord
  exact .ring d _ _ _ _ _

theorem Dev.KeptOutside.record (d : Dev) (kind : RecKind) (time : Nat) (payload : Bytes) :
    d.KeptOutside recordIndices (d.record kind time payload) := by
  unfold Dev.record
  exact .trans (.putRecord d kind.code (b2n (d.uncertainAt time)) time payload none) (.of_rcd _ _)

theorem Dev.KeptOutside.timeEvent (d : Dev) (event : Nat) (value : Int) : d.KeptOutside recordIndices (d.timeEvent event value) :=
  .record d .timeEvent d.stamp _

theorem Dev.timeEvent_wrote (d : Dev) (event : Nat) (value : Int) :
    d.wrote (d.timeEvent event value) 0x08 d.stamp (leBytes 1 event ++ zeros 3 ++ leInt 8 value) :=
  d.record_wrote .timeEvent d.stamp _

end Sys2Proof.Machine
end

section
/-! SUPPORT. O13: what a change of the servo's state makes of a unit (R93, R94, R99, R101). -/

namespace Sys2Proof.Machine

open Sys2Proof

/-! ### Changes of the servo -/

/-- Only the objects listed and the servo's part of the time state have changed: FleetTime, its tick and the upstream port stand. -/
def Dev.Steers (ks : List Nat) (d d' : Dev) : Prop :=
  d' = { d with objs := d'.objs, time := d'.time } ∧ d.objectsKept d' ks ∧
    d'.time.ns = d.time.ns ∧ d'.time.tick = d.time.tick ∧ d'.time.upPort = d.time.upPort

namespace Dev.Steers

variable {ks : List Nat}

theorem refl (d : Dev) : d.Steers ks d := ⟨rfl, fun _ _ => rfl, rfl, rfl, rfl⟩

theorem trans {a b c : Dev} (h : Steers ks a b) (h' : Steers ks b c) : Steers ks a c := by
  obtain ⟨heq, hkept, hns, htick, hup⟩ := h
  obtain ⟨heq', hkept', hns', htick', hup'⟩ := h'
  refine ⟨?_, fun k hk => (hkept' k hk).trans (hkept k hk), hns'.trans hns, htick'.trans htick, hup'.trans hup⟩
  exact heq'.trans (by rw [heq])

theorem mono {js : List Nat} {d d' : Dev} (h : d.Steers ks d') (hsub : ks ⊆ js) : d.Steers js d' := by
  obtain ⟨heq, hkept, htime⟩ := h
  exact ⟨heq, fun k hk => hkept k fun hk' => hk (hsub hk'), htime⟩

theorem ite {d a b : Dev} {c : Prop} [Decidable c] (ha : d.Steers ks a) (hb : d.Steers ks b) :
    d.Steers ks (if c then a else b) := by
  split
  · exact ha
  · exact hb

theorem set (d : Dev) {k : Nat} (v : Nat) (hk : k ∈ ks) : d.Steers ks (d.set k v) :=
  ⟨rfl, fun j hj => d.get_set_of_ne j k v fun h => hj (h ▸ hk), rfl, rfl, rfl⟩

theorem of_time (d : Dev) (t : TimeSt) (hns : t.ns = d.time.ns) (htick : t.tick = d.time.tick)
    (hup : t.upPort = d.time.upPort) : d.Steers ks { d with time := t } :=
  ⟨rfl, fun _ _ => rfl, hns, htick, hup⟩

theorem keptOutside {d d' : Dev} (h : d.Steers ks d') {ix : List Nat} (hix : ∀ k ∈ ks, k / 256 ∈ ix) : d.KeptOutside ix d' :=
  fun k hk => h.2.1 k fun hk' => hk (hix k hk')

end Dev.Steers

theorem Dev.refreshUncertain_steers (d : Dev) : d.Steers [0x2002_0F] d.refreshUncertain := by
  unfold Dev.refreshUncertain Dev.setUncertain
  exact .ite (.refl d) (.trans (.of_time d _ rfl rfl rfl) (.set _ _ (by decide)))

theorem Dev.coastInc_steers (d : Dev) : d.Steers [0x2001_03] d.coastInc := by
  unfold Dev.coastInc
  exact .ite (.refl d) (.trans (.of_time d _ rfl rfl rfl) (.set _ _ (by decide)))

/-- A change of the servo's state: the state's code, the upstream, and what follows from them (R93, R94). -/
theorem Dev.setServo_spec (d : Dev) (s : Servo) : ∃ up, (s = .freeRun ∨ s = .source → up = 0xFF) ∧
    ((d.set 0x2002_01 s.code).set 0x2002_02 up).Steers [0x2001_03, 0x2002_0F] (d.setServo s) := by
  have hcoast (e : Dev) : e.Steers [0x2001_03, 0x2002_0F]
      (match s with | .freeRun | .holdover | .source => e.coastInc | .acquire | .locked => e) := by
    cases s
    case acquire | locked => exact .refl e
    all_goals exact e.coastInc_steers.mono (by simp)
  have hrest (e : Dev) : e.Steers [0x2001_03, 0x2002_0F] (Dev.refreshUncertain
      { e with time := { e.time with goodRun := 0, badRun := 0, holdSince := e.elapsed } }) :=
    .trans (.of_time e _ rfl rfl rfl) ((Dev.refreshUncertain_steers _).mono (by simp))
  unfold Dev.setServo
  by_cases hs : s = .freeRun ∨ s = .source
  · refine ⟨0xFF, fun _ => rfl, ?_⟩
    extract_lets a b c e
    have hb : b = a.set 0x2002_02 0xFF := if_pos (by simpa using hs)
    rw [← hb]
    exact (hcoast b).trans (hrest c)
  · refine ⟨(if (d.set 0x2002_01 s.code).isTrunk then (d.set 0x2002_01 s.code).time.upPort else some 0).getD 0xFF,
      fun h => absurd h hs, ?_⟩
    extract_lets a b c e
    have hb : b = a.set 0x2002_02 ((if a.isTrunk then a.time.upPort else some 0).getD 0xFF) := if_neg (by simpa using hs)
    rw [← hb]
    exact (hcoast b).trans (hrest c)

/-- Entering a state changes the servo's objects alone. -/
theorem Dev.setServo_steers (d : Dev) (s : Servo) :
    d.Steers [0x2002_01, 0x2002_02, 0x2001_03, 0x2002_0F] (d.setServo s) := by
  obtain ⟨up, -, h⟩ := d.setServo_spec s
  exact .trans (.trans (.set d _ (by decide)) (.set _ _ (by decide))) (h.mono (by decide))

/-- The state entered is the state read. -/
theorem Dev.setServo_state (d : Dev) (s : Servo) : (d.setServo s).get 0x2002_01 = s.code := by
  obtain ⟨up, -, -, hkept, -⟩ := d.setServo_spec s
  rw [hkept _ (by decide), Dev.get_set_of_ne _ _ _ _ (by decide)]
  exact d.get_set_byte _ _ (by cases s <;> decide)

/-- FREE_RUN and SOURCE have no upstream (R93). -/
theorem Dev.setServo_upstream (d : Dev) {s : Servo} (hs : s = .freeRun ∨ s = .source) :
    (d.setServo s).get 0x2002_02 = 0xFF := by
  obtain ⟨up, hup, -, hkept, -⟩ := d.setServo_spec s
  rw [hkept _ (by decide), hup hs]
  exact Dev.get_set_byte _ _ _ (by decide)

@[simp] theorem Dev.setServo_rcd (d : Dev) (s : Servo) : (d.setServo s).rcd = d.rcd := by
  rw [(d.setServo_steers s).1]

/-! ### The source that a trunk names -/

/-- The objects of FleetTime, its flags, the always-on counts and the recorder. -/
def timeIndices : List Nat := [0x2001, 0x2002, 0x2004, 0x2006, 0x2007, 0x2108, 0x2600, 0x2606, 0x2607]

theorem Dev.setSource_keptOutside (d : Dev) (id hops seq : Nat) : d.KeptOutside timeIndices (d.setSource id hops seq) := by
  have hset : d.KeptOutside timeIndices (((d.set 0x2004_02 id).set 0x2004_03 hops).set 0x2004_04 seq) :=
    .trans (.trans (.set d _ (by decide)) (.set _ _ (by decide))) (.set _ _ (by decide))
  have hevent (e : Dev) : e.KeptOutside timeIndices (((e.inc 0x2004_05).flag 0x2006 3).timeEvent 4 0) :=
    .trans (.trans (.inc e (by decide)) (.flag _ (by decide) (by decide) (by decide) (by decide)))
      ((Dev.KeptOutside.timeEvent _ 4 0).mono (by decide))
  exact .ite (hset.trans (hevent _)) hset

/-- The event of a new source changes neither the source named nor its hops. -/
theorem Dev.setSource_get (d : Dev) (id hops seq : Nat) {k : Nat} (hk : k = 0x2004_02 ∨ k = 0x2004_03) :
    (d.setSource id hops seq).get k = (((d.set 0x2004_02 id).set 0x2004_03 hops).set 0x2004_04 seq).get k := by
  unfold Dev.setSource
  extract_lets changed e
  split
  · have hrec : k / 256 ∉ recordIndices := by rcases hk with rfl | rfl <;> decide
    rw [Dev.KeptOutside.timeEvent _ 4 0 k hrec]
    rcases hk with rfl | rfl <;>
      rw [Dev.get_flag_of_ne _ _ _ _ (by decide) (by decide) (by decide), Dev.get_inc_of_ne _ _ _ (by decide)]
  · rfl

theorem Dev.setSource_id (d : Dev) {id : Nat} (hops seq : Nat) (hid : id < 2 ^ 16) :
    (d.setSource id hops seq).get 0x2004_02 = id := by
  rw [d.setSource_get _ _ _ (.inl rfl), Dev.get_set_of_ne _ _ _ _ (by decide), Dev.get_set_of_ne _ _ _ _ (by decide)]
  exact d.get_set_fits _ _ (hid.trans_le (Nat.pow_le_pow_right (by decide) (by decide)))

theorem Dev.setSource_hops (d : Dev) (id seq : Nat) {hops : Nat} (hhops : hops < 256) :
    (d.setSource id hops seq).get 0x2004_03 = hops := by
  rw [d.setSource_get _ _ _ (.inr rfl), Dev.get_set_of_ne _ _ _ _ (by decide)]
  exact Dev.get_set_byte _ _ _ hhops

@[simp] theorem Dev.setSource_time (d : Dev) (id hops seq : Nat) : (d.setSource id hops seq).time = d.time := by
  unfold Dev.setSource
  dsimp only
  split <;> simp

/-- A trunk that knows no fresh advertisement and may be a source enters SOURCE under its own ID (R99). -/
theorem Dev.chooseSource_of_none (d : Dev) (hbest : d.bestAdvert = none) (hprio : d.get 0x2004_01 < 255) (hs : d.servo ≠ .source) :
    d.chooseSource = (Dev.setSource { d with time := { d.time with upPort := none, seqAt := d.time.ran } }
      (d.get 0x3100_01) 0 (d.get 0x2004_04)).setServo .source := by
  unfold Dev.chooseSource
  simp only [hbest, hprio, hs]
  rfl

/-! ### The four commands -/

theorem incrementApply_yields (s : State) (u : UnitId) (v due : Nat) (hruns : s.runs u)
    (hnew : (s.dev u).time.newInc = some (v, due)) (hdue : due ≤ (s.dev u).time.tick) (hhost : (s.dev u).timeHost = false)
    (hv : v < 2 ^ 64) :
    Yields (exec (.incrementApply u) s) s u fun d =>
      d.get 0x2001_03 = v ∧ d.time = { (s.dev u).time with newInc := none } ∧
      (s.unit u).objectsKept d [0x2001_03] ∧ d = { s.unit u with objs := d.objs, time := d.time } := by
  have hnew' : (s.unit u).time.newInc = some (v, due) := hnew
  have hgo : ((s.unit u).time.tick ≥ due && !(s.unit u).timeHost) = true :=
    Bool.and_eq_true_iff.mpr ⟨decide_eq_true hdue, congrArg not hhost⟩
  show Yields (execIncrementApply u s) s u _
  unfold execIncrementApply
  refine State.on_yields s u _ _ hruns ?_
  simp only [hnew', hgo, if_true]
  exact ⟨Dev.get_set_fits _ _ _ hv, rfl, fun k hk => Dev.get_set_of_ne _ _ _ _ (by simpa using hk), rfl⟩



theorem exchangeTimeout_yields (s : State) (u : UnitId) (hruns : s.runs u) (hhost : (s.dev u).timeHost = false)
    (hlate : (s.dev u).time.lastAccept + 128 * (s.dev u).get 0x2005_01 ≤ (s.dev u).elapsed) :
    Yields (exec (.exchangeTimeout u) s) s u fun d =>
      ((s.dev u).servo = .acquire → d.get 0x2002_01 = 0 ∧ d.get 0x2002_02 = 0xFF) ∧
      ((s.dev u).servo = .locked → d.get 0x2002_01 = 3) ∧
      ((s.dev u).servo ≠ .acquire → (s.dev u).servo ≠ .locked → d = s.unit u) ∧
      (s.unit u).objectsKept d [0x2002_01, 0x2002_02, 0x2001_03, 0x2002_0F] ∧
      d = { s.unit u with objs := d.objs, time := d.time } ∧ d.time.ns = (s.dev u).time.ns := by
  have hgo : ((s.unit u).timeHost || (s.unit u).elapsed < (s.unit u).time.lastAccept + 128 * (s.unit u).get 0x2005_01) = false :=
    Bool.or_eq_false_iff.mpr ⟨hhost, decide_eq_false (Nat.not_lt.mpr hlate)⟩
  have hservo : (s.dev u).servo = (s.unit u).servo := rfl
  show Yields (execExchangeTimeout u s) s u _
  unfold execExchangeTimeout
  refine State.on_yields s u _ _ hruns ?_
  simp only [hgo, hservo]
  rw [if_neg (by decide)]
  cases hstate : (s.unit u).servo
  case acquire =>
    obtain ⟨heq, hkept, hns, -⟩ := (s.unit u).setServo_steers .freeRun
    exact ⟨fun _ => ⟨Dev.setServo_state _ _, Dev.setServo_upstream _ (.inl rfl)⟩, fun h => absurd h (by decide),
      fun h => absurd rfl h, hkept, heq, hns⟩
  case locked =>
    obtain ⟨heq, hkept, hns, -⟩ := (s.unit u).setServo_steers .holdover
    exact ⟨fun h => absurd h (by decide), fun _ => Dev.setServo_state _ _, fun _ h => absurd rfl h, hkept, heq, hns⟩
  all_goals
    exact ⟨fun h => absurd h (by decide), fun h => absurd h (by decide), fun _ _ => rfl, fun _ _ => rfl, rfl, rfl⟩

theorem holdoverExpired_yields (s : State) (u : UnitId) (hruns : s.runs u) (hservo : (s.dev u).servo = .holdover)
    (hlate : (s.dev u).time.holdSince + (s.dev u).get 0x2002_09 ≤ (s.dev u).elapsed) :
    Yields (exec (.holdoverExpired u) s) s u fun d =>
      d.get 0x2002_01 = 0 ∧ d.get 0x2002_02 = 0xFF ∧ (d.get 0x2006_00).testBit 2 = true ∧
      (s.dev u).wrote d 0x08 (s.dev u).stamp (leBytes 1 3 ++ zeros 3 ++ leInt 8 0) ∧
      (∀ k, k / 256 ∉ [0x2001, 0x2002, 0x2006, 0x2007, 0x2108, 0x2600, 0x2606, 0x2607] → d.get k = (s.dev u).get k) := by
  have hgo : ((s.unit u).servo = .holdover && (s.unit u).elapsed ≥ (s.unit u).time.holdSince + (s.unit u).get 0x2002_09) = true :=
    Bool.and_eq_true_iff.mpr ⟨decide_eq_true hservo, decide_eq_true hlate⟩
  show Yields (execHoldoverExpired u s) s u _
  unfold execHoldoverExpired
  refine State.on_yields s u _ _ hruns ?_
  simp only [hgo, if_true]
  generalize hd : (s.unit u).setServo .freeRun = d
  have hsteers : (s.unit u).Steers [0x2002_01, 0x2002_02, 0x2001_03, 0x2002_0F] d := hd ▸ (s.unit u).setServo_steers .freeRun
  have hevent {k : Nat} (hk : k / 256 ∉ [0x2006, 0x2007, 0x2108, 0x2600, 0x2606, 0x2607]) :
      ((d.flag 0x2006 2).timeEvent 3 0).get k = d.get k := by
    rw [(Dev.KeptOutside.timeEvent _ 3 0).mono (by decide) k hk]
    exact Dev.KeptOutside.flag d (by decide) (by decide) (by decide) (by decide) k hk
  refine ⟨?_, ?_, ?_, ?_, fun k hk => ?_⟩
  · rw [hevent (by decide), ← hd]
    exact Dev.setServo_state _ _
  · rw [hevent (by decide), ← hd]
    exact Dev.setServo_upstream _ (.inl rfl)
  · rw [Dev.KeptOutside.timeEvent _ 3 0 _ (by decide)]
    exact d.testBit_flag (i := 0x2006) (b := 2) (by decide) (width_ge_8 _ _) (by decide)
  · have hstamp : (d.flag 0x2006 2).stamp = (s.dev u).stamp := by
      rw [Dev.stamp, Dev.flag_time, hsteers.2.2.2.1]
      rfl
    rw [← hstamp]
    refine (Dev.timeEvent_wrote _ 3 0).congr ?_ rfl
    rw [Dev.flag_rcd, ← hd, Dev.setServo_rcd]
    rfl
  · rw [hevent fun h => hk (List.mem_cons_of_mem _ (List.mem_cons_of_mem _ h))]
    exact hsteers.keptOutside (by decide) k hk

theorem sourceTimeout_yields (s : State) (hruns : s.runs .trunk) (hservo : s.trunk.servo ≠ .source) (hbest : s.trunk.bestAdvert = none)
    (hprio : s.trunk.get 0x2004_01 < 255) (hid : s.trunk.get 0x3100_01 < 4096) (hup : s.trunk.time.upPort = none)
    (hlate : s.trunk.get 0x2004_06 ≤ s.trunk.elapsed) :
    Yields (exec .sourceTimeout s) s .trunk fun d =>
      d.get 0x2002_01 = 4 ∧ d.get 0x2002_02 = 0xFF ∧ d.get 0x2004_02 = s.trunk.get 0x3100_01 ∧ d.get 0x2004_03 = 0 ∧
      d.time.upPort = none ∧ ∀ k, k / 256 ∉ timeIndices → d.get k = s.trunk.get k := by
  have hservo' : (s.unit .trunk).servo ≠ .source := hservo
  have hup' : (s.unit .trunk).time.upPort = none := hup
  have hlate' : (s.unit .trunk).elapsed ≥ 0 + (s.unit .trunk).get 0x2004_06 := by rw [Nat.zero_add]; exact hlate
  show Yields (execSourceTimeout s) s .trunk _
  unfold execSourceTimeout
  refine State.on_yields s .trunk _ _ hruns ?_
  simp only [hup', Option.bind_none, Option.map_none, Option.getD_none]
  rw [if_pos (by simpa [hservo'] using hlate'), (s.unit .trunk).chooseSource_of_none hbest hprio hservo']
  generalize hd : Dev.setSource _ _ 0 _ = d
  obtain ⟨heq, hkept, -, -, hport⟩ := d.setServo_steers .source
  refine ⟨d.setServo_state _, d.setServo_upstream (.inr rfl), ?_, ?_, ?_, fun k hk => ?_⟩
  · rw [hkept _ (by decide), ← hd]
    exact Dev.setSource_id _ _ _ (lt_trans hid (by decide))
  · rw [hkept _ (by decide), ← hd]
    exact Dev.setSource_hops _ _ _ (by decide)
  · rw [hport, ← hd, Dev.setSource_time]
  · rw [(d.setServo_steers .source).keptOutside (ix := timeIndices) (by decide) k hk, ← hd]
    exact Dev.setSource_keptOutside _ _ _ _ k hk

/-- Settles O13: each timeout enters its state by `setServo`, whose changes and those of a flag and a record stay apart. -/
theorem servoStatesTimeOut : Obligations.ServoStatesTimeOut :=
  ⟨incrementApply_yields, exchangeTimeout_yields, holdoverExpired_yields, sourceTimeout_yields⟩

end Sys2Proof.Machine
end

section
/-! SUPPORT. O14: the step of FleetTime, the queue of stamps and the map of UTC (R95, R104 to R109, R115). -/

namespace Sys2Proof.Machine

open Sys2Proof

/-! ### Payloads -/

/-- An object of a list of payload values with distinct sub-indices reads as its value was set. -/
theorem Dev.get_setAll_of_mem (i s v : Nat) (p : List (Nat × Nat)) (d : Dev) (hp : (s, v) ∈ p) (hnd : (p.map Prod.fst).Nodup) :
    (p.foldl (fun (d : Dev) x => d.set (key i x.1) x.2) d).get (key i s) = (d.set (key i s) v).get (key i s) := by
  induction p generalizing d with
  | nil => cases hp
  | cons x rest ih =>
    obtain ⟨hx, hrest⟩ := List.nodup_cons.mp hnd
    rcases List.mem_cons.mp hp with rfl | hp
    · rw [List.foldl_cons]
      refine Dev.get_setAll_of_ne _ _ _ _ fun y hy h => hx ?_
      have hmem := List.mem_map_of_mem (f := Prod.fst) hy
      rwa [← key_inj h] at hmem
    · rw [List.foldl_cons, ih _ hp hrest, Dev.get_set_self, Dev.get_set_self, Dev.set_cfg]

/-- A completed result reads the payload value given for an object (R36). -/
theorem Dev.get_complete_payload (d : Dev) {i s v : Nat} {p : List (Nat × Nat)} (hp : (s, v) ∈ p) (hnd : (p.map Prod.fst).Nodup)
    (hs : 4 ≤ s) (hsend : sendKey (key i s) = false) (hv : v < 2 ^ minWidth (key i s)) :
    (d.complete i p).get (key i s) = v := by
  have hne (t : Nat) (ht : t < 4) : key i s ≠ key i t := fun h => by have := key_inj h; omega
  unfold Dev.complete
  rw [(Dev.Sends.notify _ i).get _ hsend]
  unfold Dev.completeRes
  rw [Dev.get_set_of_ne _ _ _ _ (hne 1 (by decide)), Dev.get_set_of_ne _ _ _ _ (hne 3 (by decide)),
    Dev.get_set_of_ne _ _ _ _ (hne 2 (by decide)), Dev.get_setAll_of_mem i s v p d hp hnd]
  exact d.get_set_fits _ _ hv

/-- Completing a result leaves FleetTime alone. -/
theorem Dev.complete_time (d : Dev) (i : Nat) (p : List (Nat × Nat)) : (d.complete i p).time = d.time := by
  have hpay : (p.foldl (fun (d : Dev) x => d.set (key i x.1) x.2) d).time = d.time := by rw [Dev.setAll_objs]
  unfold Dev.complete
  rw [(Dev.Sends.notify _ i).keep]
  unfold Dev.completeRes
  simp only [Dev.set_time]
  exact hpay

/-! ### Signed values -/

/-- A signed value of 64 bits is read back from its two's complement. -/
theorem toSigned_ofSigned {v : Int} (hlo : -2 ^ 63 ≤ v) (hhi : v < 2 ^ 63) : toSigned 64 (ofSigned 64 v) = v := by
  unfold toSigned ofSigned
  norm_num at hlo hhi ⊢
  split <;> omega

/-! ### StepCmd -/

theorem Dev.stepTime_time (d : Dev) (v : Int) : (d.stepTime v).time.ns = ofSigned 64 (d.time.ns + v) ∧
    (d.stepTime v).time.tick = (d.stepTime v).time.ns / 8 := by
  unfold Dev.stepTime
  simp

theorem Dev.get_withTime (d : Dev) (t : TimeSt) (k : Nat) : Dev.get { d with time := t } k = d.get k := rfl

/-- The objects that a step leaves are those its record leaves. -/
theorem Dev.stepTime_get (d : Dev) (v : Int) (k : Nat) :
    (d.stepTime v).get k = (((d.inc 0x2002_0D).flag 0x2006 1).timeEvent 2 v).get k := by
  unfold Dev.stepTime
  exact Dev.get_withTime _ _ k

/-- A step sets STEPPED. -/
theorem Dev.stepTime_flag (d : Dev) (v : Int) : ((d.stepTime v).get 0x2006_00).testBit 1 = true := by
  rw [Dev.stepTime_get, Dev.KeptOutside.timeEvent _ 2 v _ (by decide)]
  exact Dev.testBit_flag _ (i := 0x2006) (b := 1) (by decide) (width_ge_8 _ _) (by decide)

theorem Dev.stepTime_wrote (d : Dev) (v : Int) :
    d.wrote (d.stepTime v) 0x08 d.stamp (leBytes 1 2 ++ zeros 3 ++ leInt 8 v) := by
  have hstamp : ((d.inc 0x2002_0D).flag 0x2006 1).stamp = d.stamp := by simp [Dev.stamp]
  have hfresh : d.rcd.fresh = ((d.inc 0x2002_0D).flag 0x2006 1).rcd.fresh := by simp
  rw [← hstamp]
  exact (Dev.timeEvent_wrote _ 2 v).congr hfresh rfl

/-- A write of a command object of FleetTime that has no reserved bits takes the value whole. -/
theorem timeCommand_row {c : Cfg} {i sub : Nat} {r : Row} (hi : (i, sub) ∈ [(0x2001, 4), (0x2008, 4), (0x2011, 6)])
    (h : c.rowOf i sub = some r) : r.rng = .any := by
  have hp : (r.rng == .any) = true := by
    simp only [List.mem_cons, Prod.mk.injEq, List.not_mem_nil, or_false] at hi
    rcases hi with ⟨rfl, rfl⟩ | ⟨rfl, rfl⟩ | ⟨rfl, rfl⟩
    all_goals exact row_of_all c _ _ (fun r => r.rng == .any) r (by decide) h
  simpa using hp

theorem stepCmd_answers (s : State) (u : UnitId) (e : Env) (v : Int) (hruns : s.runs u) (hlo : -2 ^ 63 ≤ v) (hhi : v < 2 ^ 63)
    (hacc : (s.unit u).accepts e 0x2001 4 (ofSigned 64 v)) :
    Answers (exec (.stepCmd u e v) s) s u e 0x02 0x2001 4 0 fun a =>
      if (s.dev u).timeHost = false then a.abort = 0x07 ∧ a.dev = (s.unit u).heard e
      else if v % 8 ≠ 0 then a.abort = 0x06 ∧ a.dev = (s.unit u).heard e
      else a.abort = 0 ∧ (a.dev.time.ns : Int) = ((s.dev u).time.ns + v) % 2 ^ 64 ∧
        a.dev.time.tick = a.dev.time.ns / 8 ∧ (a.dev.get 0x2006_00).testBit 1 = true ∧
        (s.dev u).wrote a.dev 0x08 (s.dev u).stamp (leBytes 1 2 ++ zeros 3 ++ leInt 8 v) := by
  show Answers (execStepCmd u e v s) s u e 0x02 0x2001 4 0 _
  unfold execStepCmd
  refine State.serveWrite_answers_any (by decide) hruns hacc (fun r hr => timeCommand_row (by decide) hr) ?_
  have hmode : ((s.unit u).heard e).timeHost = (s.dev u).timeHost := by simp [Dev.timeHost]
  unfold Dev.stepCmdAns
  simp only [toSigned_ofSigned hlo hhi, hmode]
  by_cases hhost : (s.dev u).timeHost = false
  · rw [if_pos hhost, if_pos (by simp [hhost])]
    exact ⟨rfl, rfl⟩
  by_cases hv : v % 8 ≠ 0
  · rw [if_neg hhost, if_pos hv, if_neg (by simpa using hhost), if_pos (by simpa using hv)]
    exact ⟨rfl, rfl⟩
  rw [if_neg hhost, if_neg hv, if_neg (by simpa using hhost), if_neg (by simpa using hv)]
  obtain ⟨hns, htick⟩ := ((s.unit u).heard e).stepTime_time v
  have hold : ((s.unit u).heard e).time.ns = (s.dev u).time.ns := by rw [Dev.heard_time]; rfl
  have hstamp : ((s.unit u).heard e).stamp = (s.dev u).stamp := by simp only [Dev.stamp, Dev.heard_time]; rfl
  refine ⟨rfl, ?_, htick, Dev.stepTime_flag _ _, ?_⟩
  · show (((((s.unit u).heard e).stepTime v).time.ns : Nat) : Int) = _
    rw [hns, hold, ofSigned, Int.toNat_of_nonneg (by omega)]
  · rw [← hstamp]
    exact (((s.unit u).heard e).stepTime_wrote v).congr (by rw [Dev.heard_rcd]; rfl) rfl

/-! ### The queue of stamps -/

theorem pop_answers (s : State) (u : UnitId) (e : Env) (k : Nat) (hruns : s.runs u) (hacc : (s.unit u).accepts e 0x2008 4 k) :
    Answers (exec (.pop u e k) s) s u e 0x02 0x2008 4 0 fun a =>
      if k ≤ (s.dev u).time.txq.length then
        a.abort = 0 ∧ a.dev.time.txq = (s.dev u).time.txq.drop k ∧ a.dev = { (s.unit u).heard e with time := a.dev.time }
      else a.abort = 0x06 ∧ a.dev = (s.unit u).heard e := by
  show Answers (execPop u e k s) s u e 0x02 0x2008 4 0 _
  unfold execPop
  refine State.serveWrite_answers_any (by decide) hruns hacc (fun r hr => timeCommand_row (by decide) hr) ?_
  have htxq : ((s.unit u).heard e).time.txq = (s.dev u).time.txq := by rw [Dev.heard_time]; rfl
  unfold Dev.popAns
  rw [htxq]
  by_cases hk : k ≤ (s.dev u).time.txq.length
  · rw [if_pos hk, if_neg (by omega)]
    exact ⟨rfl, rfl, rfl⟩
  · rw [if_neg hk, if_pos (by omega)]
    exact ⟨rfl, rfl⟩

/-- A flag set changes objects and the note of the tick's flags alone (R147, R148). -/
theorem Dev.flag_eq (d : Dev) (i b : Nat) : d.flag i b = { d with objs := (d.flag i b).objs, sets := (d.flag i b).sets } := by
  unfold Dev.flag Dev.always
  extract_lets e c e' e''
  split
  · rfl
  · simp only [e'']
    split <;> rfl

theorem Dev.queueStamp_of_room (d : Dev) (port kind seq : Nat) (t : Stamp) (h : d.time.txq.length < d.get 0x2008_01) :
    d.queueStamp port kind seq t = { d with time := { d.time with txq := d.time.txq ++
      [leBytes 1 port ++ leBytes 1 kind ++ leBytes 2 seq ++ leBytes 2 t.frac ++ zeros 2 ++ leBytes 8 t.ns] } } := if_neg (Nat.not_le.mpr h)

theorem Dev.queueStamp_of_full (d : Dev) (port kind seq : Nat) (t : Stamp) (h : ¬ d.time.txq.length < d.get 0x2008_01) :
    d.queueStamp port kind seq t = (d.inc 0x2008_03).flag 0x2006 4 := if_pos (Nat.not_lt.mp h)

/-- A stamp that finds no room is counted and flagged (R105). -/
theorem Dev.lostStamp_spec (d : Dev) : ((d.inc 0x2008_03).flag 0x2006 4).time = d.time ∧
    (((d.inc 0x2008_03).flag 0x2006 4).get 0x2006_00).testBit 4 = true ∧
    d.onlyObjects ((d.inc 0x2008_03).flag 0x2006 4) [0x2008_03, 0x2006_00, 0x2007_05, 0x2108_22] := by
  refine ⟨by simp, Dev.testBit_flag _ (i := 0x2006) (b := 4) (by decide) (width_ge_8 _ _) (by decide), ?_, fun k hk => ?_⟩
  · rw [Dev.flag_eq, Dev.inc, Dev.add_eq]
  · simp only [List.mem_cons, List.not_mem_nil, or_false, not_or] at hk
    obtain ⟨hlost, hflag, hcount, halways⟩ := hk
    rw [Dev.get_flag_of_ne _ _ _ _ hflag hcount halways, Dev.get_inc_of_ne _ _ _ hlost]

theorem ptpEventMessageSend_yields (s : State) (port seq : Nat) (k : PtpKind) (tx : Stamp) (hruns : s.runs .trunk) :
    Yields (exec (.ptpEventMessageSend port k seq tx) s) s .trunk fun d =>
      let st := s.trunk.linkStamp false tx
      if ¬ (port ≤ 1 ∧ s.trunk.on 0x2011_01 = true ∧ (k = .delayReq ↔ s.trunk.on 0x2011_02 = false)) then d = s.unit .trunk
      else if s.trunk.time.txq.length < s.trunk.get 0x2008_01 then
        d.time.txq = s.trunk.time.txq ++ [leBytes 1 (0x40 + port) ++ leBytes 1 (ptpKindCode k) ++ leBytes 2 seq ++
          leBytes 2 st.frac ++ zeros 2 ++ leBytes 8 st.ns] ∧ d = { s.unit .trunk with time := d.time }
      else d.time = s.trunk.time ∧ (d.get 0x2006_00).testBit 4 = true ∧
        (s.unit .trunk).onlyObjects d [0x2008_03, 0x2006_00, 0x2007_05, 0x2108_22] := by
  show Yields (execPtpEventMessageSend port k seq tx s) s .trunk _
  unfold execPtpEventMessageSend State.onTrunk
  refine State.on_yields s .trunk _ _ hruns ?_
  have hgo : (port ≤ 1 && (s.unit .trunk).on 0x2011_01 && decide (k = .delayReq) = !(s.unit .trunk).on 0x2011_02) = true ↔
      (port ≤ 1 ∧ s.trunk.on 0x2011_01 = true ∧ (k = .delayReq ↔ s.trunk.on 0x2011_02 = false)) := by
    have hon (j : Nat) : (s.unit .trunk).on j = s.trunk.on j := rfl
    rw [hon, hon]
    by_cases hk : k = .delayReq <;> cases s.trunk.on 0x2011_02 <;> simp [hk]
  by_cases h : port ≤ 1 ∧ s.trunk.on 0x2011_01 = true ∧ (k = .delayReq ↔ s.trunk.on 0x2011_02 = false)
  · simp only [if_pos (hgo.mpr h), if_neg (not_not.mpr h)]
    by_cases hroom : s.trunk.time.txq.length < s.trunk.get 0x2008_01
    · rw [if_pos hroom, (s.unit .trunk).queueStamp_of_room _ _ _ _ hroom]
      exact ⟨rfl, rfl⟩
    · rw [if_neg hroom, (s.unit .trunk).queueStamp_of_full _ _ _ _ hroom]
      exact (s.unit .trunk).lostStamp_spec
  · simp only [if_neg (mt hgo.mp h), if_pos h]

/-! ### The map of UTC -/

theorem ptpMessage_yields (s : State) (m : PtpMeas) (hruns : s.runs .trunk) (hon : s.trunk.on 0x2011_01 = true)
    (hfits : s.trunk.ptpFits m = true) (hlocked : m.locked = true) (hfirst : s.trunk.get 0x2010_08 < 2)
    (hptp : m.ptpTime < 2 ^ 64) (hns : s.trunk.time.ns < 2 ^ 64) :
    Yields (exec (.ptpMessage m) s) s .trunk fun d =>
      d.get 0x2010_01 = 2 ∧ d.get 0x2010_04 = m.ptpTime ∧ d.get 0x2010_05 = s.trunk.time.ns ∧ d.get 0x2010_08 = 2 ∧
      d.get 0x2010_02 = nextSeq (s.trunk.get 0x2010_02) ∧ d.time.ns = s.trunk.time.ns := by
  show Yields (execPtpMessage m s) s .trunk _
  unfold execPtpMessage State.onTrunk
  refine State.on_yields s .trunk _ _ hruns ?_
  have hgo : ((s.unit .trunk).on 0x2011_01 && (s.unit .trunk).ptpFits m) = true := Bool.and_eq_true_iff.mpr ⟨hon, hfits⟩
  have hfirst' : ((s.unit .trunk).get 0x2010_08 < 2 || (s.unit .trunk).time.restep) = true :=
    Bool.or_eq_true_iff.mpr (.inl (decide_eq_true hfirst))
  rw [if_pos hgo]
  simp only [Dev.ptpMeasure, hfirst', hlocked, if_true, Dev.publishUtc]
  have hseq : 32 ≤ minWidth (key 0x2010 2) := by decide
  refine ⟨Dev.get_complete_state _ _ _ (by decide), ?_, ?_, ?_, ?_, ?_⟩
  · exact Dev.get_complete_payload _ (i := 0x2010) (s := 4) (by simp) (by simp) (by decide) (by decide) hptp
  · exact Dev.get_complete_payload _ (i := 0x2010) (s := 5) (.tail _ (.head _)) (by simp) (by decide) (by decide) hns
  · exact Dev.get_complete_payload _ (i := 0x2010) (s := 8) (by simp [PtpState.code]) (by simp) (by decide) (by decide) (by decide)
  · exact Dev.get_complete_seq _ (hseq.trans (minWidth_le _ _)) (by decide) (by simp)
  · rw [Dev.complete_time]
    rfl

theorem utcRestep_answers (s : State) (e : Env) (hruns : s.runs .trunk) (hacc : (s.unit .trunk).accepts e 0x2011 6 1) :
    Answers (exec (.utcRestep e 1) s) s .trunk e 0x02 0x2011 6 0 fun a =>
      a.abort = 0 ∧ a.dev.time = { s.trunk.time with restep := true } ∧
      a.dev = { (s.unit .trunk).heard e with time := a.dev.time } := by
  show Answers (execUtcRestep e 1 s) s .trunk e 0x02 0x2011 6 0 _
  unfold execUtcRestep State.onTrunk
  refine State.serveWrite_answers_any (by decide) hruns hacc (fun r hr => timeCommand_row (by decide) hr) ?_
  have htime : ((s.unit .trunk).heard e).time = s.trunk.time := by rw [Dev.heard_time]; rfl
  refine ⟨rfl, ?_, rfl⟩
  rw [← htime]
  rfl

/-- Settles O14: the step, the queue and the measurement each by their own equation, in the branch that the hypotheses choose. -/
theorem timeIsSteppedAndStampsQueued : Obligations.TimeIsSteppedAndStampsQueued :=
  ⟨stepCmd_answers, pop_answers, ptpEventMessageSend_yields, ptpMessage_yields, utcRestep_answers⟩

end Sys2Proof.Machine
end

section
/-! SUPPORT. O15: the REGION_STOP record and the sources that its region owns after it (R113, R179, R197, R224). -/

namespace Sys2Proof.Machine

open Sys2Proof

/-! ### The newest record's Seq -/

/-- A record takes the Seq after the newest (R224). -/
theorem Dev.putRecord_seq (d : Dev) (kind flags time : Nat) (payload : Bytes) (o : Option (Nat × Nat)) :
    (d.putRecord kind flags time payload o).get 0x2600_02 % 2 ^ 32 = (d.get 0x2600_02 + 1) % 2 ^ 32 := by
  have hset (e : Dev) (seq off : Nat) : (((e.set 0x2600_02 (seq + off * 2 ^ 32)).inc 0x2600_04).always 0x20 1).get 0x2600_02 % 2 ^ 32 =
      seq % 2 ^ 32 := by
    have hw : 64 ≤ e.cfg.width 0x2600_02 := (by decide : 64 ≤ minWidth 0x2600_02).trans (minWidth_le _ _)
    rw [Dev.get_always_of_ne _ _ _ _ (by decide), Dev.get_inc_of_ne _ _ _ (by decide), Dev.get_set_self,
      Nat.mod_mod_of_dvd _ (pow_dvd_pow 2 (by decide)), Nat.mod_mod_of_dvd _ (pow_dvd_pow 2 (by omega)), Nat.add_mul_mod_self_right]
  unfold Dev.putRecord
  refine (hset _ _ _).trans ?_
  rw [Nat.mod_mod]
  show (d.get 0x2600_02 % 2 ^ 32 + 1) % 2 ^ 32 = _
  rw [Nat.mod_add_mod]

theorem Dev.get_withRcd (d : Dev) (x : RecSt) (k : Nat) : Dev.get { d with rcd := x } k = d.get k := rfl

theorem Dev.record_seq (d : Dev) (kind : RecKind) (time : Nat) (payload : Bytes) :
    (d.record kind time payload).get 0x2600_02 % 2 ^ 32 = (d.get 0x2600_02 + 1) % 2 ^ 32 := by
  unfold Dev.record
  exact (congrArg (· % 2 ^ 32) (Dev.get_withRcd _ _ _)).trans
    (d.putRecord_seq kind.code (b2n (d.uncertainAt time)) time payload none)

/-! ### The sources that sleep -/

theorem Dev.srcAt_modSrc_of_ne (d : Dev) {m n : Nat} (f : TSource → TSource) (h : m ≠ n) : (d.modSrc m f).srcAt n = d.srcAt n := by
  unfold Dev.modSrc Dev.srcAt
  dsimp only
  rw [List.getElem?_modify_ne _ _ h]

/-- Sources that a region does not own as it falls asleep stay as they are. -/
theorem Dev.srcAt_sleepSrcs_of_notMem (d : Dev) {r n : Nat} (stop : Nat) (powerDown : Bool) (h : n ∉ d.srcsOf r) :
    (d.sleepSrcs r stop powerDown).srcAt n = d.srcAt n := by
  unfold Dev.sleepSrcs
  generalize d.srcsOf r = l at h
  induction l generalizing d with
  | nil => rfl
  | cons m l ih =>
    obtain ⟨hm, hl⟩ := not_or.mp (mt List.mem_cons.mpr h)
    rw [List.foldl_cons, ih _ hl, Dev.srcAt_modSrc_of_ne _ _ (Ne.symm hm)]
    split
    · unfold Dev.hubPkt Dev.srcAt Dev.countPkt
      rw [Dev.inc_trc]
    · rfl

/-- A source whose Tap object names no tap belongs to no region. -/
theorem Dev.notMem_srcsOf (d : Dev) {r n : Nat} (h : d.cfg.taps.length ≤ d.srcTap n) : n ∉ d.srcsOf r := by
  simp [Dev.srcsOf, List.getElem?_eq_none h]

/-- The unit put in a state determines its trace. -/
theorem State.trc_of_withUnit_eq {s : State} {u : UnitId} {a b : Dev} (h : s.withUnit u a = s.withUnit u b) : a.trc = b.trc := by
  have hdev : (s.withUnit u a).dev u = (s.withUnit u b).dev u := by rw [h]
  rw [State.dev_withUnit_self, State.dev_withUnit_self] at hdev
  have htrc := congrArg Dev.trc hdev
  exact htrc

/-! ### A leaf with 241 trace sources -/

/-- A leaf of one tap and 241 trace sources: the last one's Tap object, at sub-index 2 of index 0x2600, is the recorder's newest
record. -/
def wideCfg : Cfg := { build := .leaf, taps := resetTaps 1, regionCount := 1, traceSources := 241 }

/-- That leaf, with region 0 idle for four ticks. -/
def wideLeaf : Dev := { Dev.fresh wideCfg with tap := { (Dev.fresh wideCfg).tap with regions := [{ idle := 4 }] } }

def wideState : State := { State.reset with leaf := wideLeaf }

/-- Before the stop, region 0 owns source 240. -/
theorem wideLeaf_owns_source : 240 ∈ wideLeaf.srcsOf 0 ∧ 240 < wideLeaf.trc.srcs.length := by
  have htap : wideLeaf.srcTap 240 = 0 := by decide
  have hlen : wideLeaf.trc.srcs.length = 241 := List.length_replicate
  refine ⟨List.mem_filter.mpr ⟨List.mem_range.mpr (by decide), ?_⟩, by omega⟩
  rw [htap]
  decide

/-- A stop of region 0 leaves source 240 awake: the REGION_STOP record has given its Tap object a value that names no tap. -/
theorem wideLeaf_source_awake : ((wideLeaf.stopRegion 0).srcAt 240).asleep = none := by
  unfold Dev.stopRegion
  extract_lets stop d e
  have hseq : e.get 0x2600_02 % 2 ^ 32 = 1 := by
    refine (Dev.record_seq _ _ _ _).trans ?_
    rw [Dev.get_always_of_ne _ _ _ _ (by decide)]
    decide
  have htap : 1 ≤ e.srcTap 240 := by
    show 1 ≤ e.get 0x2600_02
    omega
  have hcfg : e.cfg = wideCfg := by
    show (Dev.record _ _ _ _).cfg = _
    rw [Dev.record_cfg, Dev.always_cfg]
    rfl
  have htrc : e.trc = wideLeaf.trc := by
    show (Dev.record _ _ _ _).trc = _
    rw [Dev.record_trc, Dev.always_trc]
    rfl
  rw [e.srcAt_sleepSrcs_of_notMem _ _ (e.notMem_srcsOf (by rw [hcfg]; exact htap))]
  unfold Dev.srcAt
  rw [htrc]
  decide

/-- Refutes O15: in a leaf of 241 trace sources, the REGION_STOP record takes source 240 out of its region before the region's sources
sleep. -/
theorem not_clockRegionsStopResumeAndPower : ¬ Obligations.ClockRegionsStopResumeAndPower := by
  rintro ⟨hstop, -⟩
  obtain ⟨d, hnext, -, -, hasleep⟩ := hstop wideState .host 0 rfl (by decide) rfl rfl (by decide)
  have hrun : exec (.regionStop .host 0) wideState =
      .next (wideState.withUnit (.leaf .host) (wideLeaf.stopRegion 0)) := by
    show execRegionStop .host 0 wideState = _
    unfold execRegionStop State.onLeaf
    exact State.on_runs wideState (.leaf .host) _ rfl
  have htrc : d.trc = (wideLeaf.stopRegion 0).trc := State.trc_of_withUnit_eq (Host.Outcome.next.inj (hnext.symm.trans hrun))
  have hawake : (d.srcAt 240).asleep = none := by
    rw [← wideLeaf_source_awake]
    unfold Dev.srcAt
    rw [htrc]
  obtain ⟨hmem, hlen⟩ := wideLeaf_owns_source
  exact absurd (hasleep 240 hmem hlen) (by simp [hawake])

end Sys2Proof.Machine
end

section
/-! SUPPORT. What most of a unit's operations leave alone: its boot state, a part of its time, given objects, and what it has
sent already. -/

namespace Sys2Proof.Machine

open Sys2Proof

/-- From `d` to `d'` the boot state, the part `π` of the time and the objects of `K` stand, and the unit has sent no less. -/
structure Dev.Keeps {α : Type} (π : TimeSt → α) (K : List Nat) (d d' : Dev) : Prop where
  boot : d'.boot = d.boot
  time : π d'.time = π d.time
  out : d.out <+: d'.out
  get : ∀ k ∈ K, d'.get k = d.get k

namespace Dev.Keeps

variable {α : Type} {π : TimeSt → α} {K : List Nat}

theorem refl (d : Dev) : d.Keeps π K d := ⟨rfl, rfl, List.prefix_refl _, fun _ _ => rfl⟩

theorem trans {a b c : Dev} (h : Keeps π K a b) (h' : Keeps π K b c) : Keeps π K a c :=
  ⟨h'.boot.trans h.boot, h'.time.trans h.time, h.out.trans h'.out, fun k hk => (h'.get k hk).trans (h.get k hk)⟩

theorem ite {d a b : Dev} {c : Prop} [Decidable c] (ha : d.Keeps π K a) (hb : d.Keeps π K b) : d.Keeps π K (if c then a else b) := by
  split
  · exact ha
  · exact hb

theorem foldl {β : Type} {f : Dev → β → Dev} (hf : ∀ (d : Dev) x, d.Keeps π K (f d x)) (l : List β) (d : Dev) :
    d.Keeps π K (l.foldl f d) := by
  induction l generalizing d with
  | nil => exact .refl d
  | cons x xs ih => exact .trans (hf d x) (ih (f d x))

/-- A change of what is neither boot state, time, object, build nor sent. -/
theorem of_eq {d d' : Dev} (hboot : d'.boot = d.boot) (htime : d'.time = d.time) (hout : d'.out = d.out) (hobjs : d'.objs = d.objs)
    (hcfg : d'.cfg = d.cfg) : d.Keeps π K d' :=
  ⟨hboot, congrArg π htime, hout ▸ List.prefix_refl _, fun k _ => Dev.get_congr hobjs hcfg k⟩

/-- A change of the time, of which `π` stands. -/
theorem of_time {d d' : Dev} (hboot : d'.boot = d.boot) (htime : π d'.time = π d.time) (hout : d'.out = d.out) (hobjs : d'.objs = d.objs)
    (hcfg : d'.cfg = d.cfg) : d.Keeps π K d' :=
  ⟨hboot, htime, hout ▸ List.prefix_refl _, fun k _ => Dev.get_congr hobjs hcfg k⟩

/-- A change of objects alone that none of `K` is. -/
theorem of_get {d d' : Dev} (hboot : d'.boot = d.boot) (htime : d'.time = d.time) (hout : d'.out = d.out)
    (hget : ∀ k ∈ K, d'.get k = d.get k) : d.Keeps π K d' :=
  ⟨hboot, congrArg π htime, hout ▸ List.prefix_refl _, hget⟩

theorem set (d : Dev) (k v : Nat) (hk : k ∉ K) : d.Keeps π K (d.set k v) :=
  .of_get rfl rfl rfl fun j hj => d.get_set_of_ne j k v fun h => hk (h ▸ hj)

theorem add (d : Dev) (k n : Nat) (hk : k ∉ K) : d.Keeps π K (d.add k n) :=
  .of_get (by simp) (by simp) (by simp) fun j hj => d.get_add_of_ne j k n fun h => hk (h ▸ hj)

theorem inc (d : Dev) (k : Nat) (hk : k ∉ K) : d.Keeps π K (d.inc k) := .add d k 1 hk

theorem always (d : Dev) (sub n : Nat) (hk : key 0x2108 sub ∉ K) : d.Keeps π K (d.always sub n) :=
  .of_get (by simp) (by simp) (by simp) fun j hj => d.get_always_of_ne j sub n fun h => hk (h ▸ hj)

theorem flag (d : Dev) (i b : Nat) (hk : key i 0 ∉ K) (hcount : key (i + 1) (b + 1) ∉ K) (hsets : key 0x2108 0x22 ∉ K) :
    d.Keeps π K (d.flag i b) :=
  .of_get (by simp) (by simp) (by simp) fun j hj =>
    d.get_flag_of_ne j i b (fun h => hk (h ▸ hj)) (fun h => hcount (h ▸ hj)) (fun h => hsets (h ▸ hj))

theorem emit (d : Dev) (o : Out) : d.Keeps π K (d.emit o) := ⟨rfl, rfl, ⟨[o], rfl⟩, fun _ _ => rfl⟩

theorem drive (d : Dev) (w : List Wire) : d.Keeps π K (d.drive w) := .of_eq rfl rfl rfl rfl rfl

theorem modFab (d : Dev) (f : FabricSt → FabricSt) : d.Keeps π K (d.modFab f) := .of_eq rfl rfl rfl rfl rfl

theorem modStem (d : Dev) (e : StemId) (f : StemEnd → StemEnd) : d.Keeps π K (d.modStem e f) := by
  cases e <;> exact .of_eq rfl rfl rfl rfl rfl

theorem modLine (d : Dev) (e : StemId) (f : StemLine → StemLine) : d.Keeps π K (d.modLine e f) := .ite (.refl d) (.modStem d e _)

/-- What sends messages. -/
theorem of_sends {d d' : Dev} (h : d.Sends d') (hK : ∀ k ∈ K, sendKey k = false) : d.Keeps π K d' := by
  refine ⟨?_, ?_, ?_, fun k hk => h.get k (hK k hk)⟩
  · rw [h.keep]
  · rw [h.keep]
  · obtain ⟨l, hl⟩ := h.out
    exact ⟨l, hl.symm⟩

theorem record (d : Dev) (kind : RecKind) (time : Nat) (payload : Bytes) (hK : ∀ k ∈ K, k / 256 ∉ recordIndices) :
    d.Keeps π K (d.record kind time payload) :=
  .of_get (by simp) (by simp) (by simp) fun k hk => Dev.KeptOutside.record d kind time payload k (hK k hk)

end Dev.Keeps

end Sys2Proof.Machine
end

section
/-! SUPPORT. O12: a time message that a unit sends or takes (R83, R87 to R90). -/

namespace Sys2Proof.Machine

open Sys2Proof

/-! ### What follows a message out -/

theorem Dev.Keeps.putTime (d : Dev) (e : StemId) (h : LinkStart) (data : Bytes) : d.Keeps TimeSt.links [] (d.putTime e h data) :=
  .trans (.emit d _) (.modLine _ e _)

theorem Dev.Keeps.putAlign (d : Dev) (p : Nat) : d.Keeps TimeSt.links [] (d.putAlign p) :=
  .trans (.trans (.modFab d _) (.emit _ _)) (.drive _ _)

theorem Dev.putFlit_spec (d : Dev) (p : Nat) (f : Flit) : d.Keeps TimeSt.links [] (d.putFlit p f) ∧ .flit p f ∈ (d.putFlit p f).out := by
  unfold Dev.putFlit
  extract_lets e x
  have halign : d.Keeps TimeSt.links [] e := .ite (.putAlign d p) (.refl d)
  exact ⟨halign.trans (.trans (.trans (.modFab e _) (.emit _ _)) (.drive _ _)), List.mem_append_right _ (List.mem_singleton_self _)⟩

/-- A flit goes out with its kind, its fill and its body (R385). -/
theorem Dev.sendFlit_spec (d : Dev) (p : Nat) (f : Flit) : d.Keeps TimeSt.links [] (d.sendFlit p f) ∧
    ∃ g, .flit p g ∈ (d.sendFlit p f).out ∧ g.kind = f.kind ∧ g.fill = f.fill ∧ g.body = f.body := by
  unfold Dev.sendFlit
  extract_lets up
  split
  extract_lets c g x' seqd x'' e
  obtain ⟨hkeeps, hmem⟩ := Dev.putFlit_spec (d.modPort p fun _ => x'') p g
  have hput : d.Keeps TimeSt.links [] e := .trans (.modFab d _) hkeeps
  split
  · have hinc : e.Keeps TimeSt.links [] (e.inc (portKey p 9)) := .inc e _ (List.not_mem_nil)
    exact ⟨hput.trans hinc, g, hinc.out.subset hmem, rfl, rfl, rfl⟩
  · exact ⟨hput, g, hmem, rfl, rfl, rfl⟩

/-! ### A message sent -/

theorem Dev.timeLink_modLink (d : Dev) (p : TimePort) (f : TimeLink → TimeLink) (h : timeSlot p < d.time.links.length) :
    (d.modLink p f).timeLink p = f (d.timeLink p) := by
  unfold Dev.timeLink Dev.modLink
  simp [h]

/-- A change of a link's state that does not reach a field of it. -/
theorem Dev.timeLink_modLink_field {β : Type} (d : Dev) (p : TimePort) {f : TimeLink → TimeLink} (g : TimeLink → β)
    (hf : ∀ x, g (f x) = g x) : g ((d.modLink p f).timeLink p) = g (d.timeLink p) := by
  by_cases h : timeSlot p < d.time.links.length
  · rw [d.timeLink_modLink p f h, hf]
  · unfold Dev.timeLink Dev.modLink
    rw [List.getElem?_eq_none (by simpa using h), List.getElem?_eq_none (by simpa using h)]

theorem Dev.timeLink_congr {d d' : Dev} (h : d'.time.links = d.time.links) (p : TimePort) : d'.timeLink p = d.timeLink p := by
  unfold Dev.timeLink
  rw [h]

theorem Dev.linkStamp_congr {d d' : Dev} (hns : d'.time.ns = d.time.ns) (hfrac : d'.time.frac = d.time.frac) (before : Bool)
    (t : Stamp) : d'.linkStamp before t = d.linkStamp before t := by
  unfold Dev.linkStamp
  rw [hns, hfrac]

/-- The fields of the source leave the rest of a message alone. -/
theorem Dev.sourceFields_spec (d : Dev) (p : TimePort) (m : TimeMsg) :
    d.sourceFields p m = { m with sourceValid := (d.sourceFields p m).sourceValid, hops := (d.sourceFields p m).hops
                                  sourceId := (d.sourceFields p m).sourceId
                                  sourcePriority := (d.sourceFields p m).sourcePriority
                                  sourceSeq := (d.sourceFields p m).sourceSeq } := by
  unfold Dev.sourceFields
  dsimp only
  split
  · rfl
  · rfl
  · split
    · rfl
    · split <;> rfl

/-- A message holds the link's next Seq, the stamps last exchanged and the unit's flags (R89). -/
theorem Dev.timeMsg_spec (d : Dev) (p : TimePort) :
    (d.timeMsg p).seq = (d.timeLink p).txSeq ∧ (d.timeMsg p).uncertain = d.uncertain ∧ (d.timeMsg p).host = d.timeHost ∧
    (d.timeMsg p).prevValid = (d.timeLink p).prevTx.isSome ∧ (d.timeMsg p).peerValid = (d.timeLink p).peerRx.isSome ∧
    (∀ x, (d.timeLink p).prevTx = some x → (d.timeMsg p).prevTxSeq = x.1 ∧ (d.timeMsg p).prevTx = x.2) ∧
    (∀ x, (d.timeLink p).peerRx = some x → (d.timeMsg p).peerRxSeq = x.1 ∧ (d.timeMsg p).peerRx = x.2) := by
  unfold Dev.timeMsg
  extract_lets x
  rw [d.sourceFields_spec]
  refine ⟨rfl, rfl, rfl, rfl, rfl, fun y hy => ?_, fun y hy => ?_⟩
  all_goals
    have hy' := hy
    simp [x, hy']

/-- A message noted as sent stands in what the unit has sent; of the time state only its link and the queue of stamps change. -/
theorem Dev.noteTime_spec (d : Dev) (p : TimePort) (m : TimeMsg) (st : Stamp) :
    .time p m st ∈ (d.noteTime p m st).out ∧
    (d.noteTime p m st).time.links = (d.modLink p fun x =>
      { x with txSeq := (x.txSeq + 1) % 65536, prevTx := some (x.txSeq, st)
               txHist := ((x.txSeq, st) :: x.txHist).take 16 }).time.links := by
  have hqueue (e : Dev) (a : Nat) : (e.queueStamp a 1 m.seq st).time.links = e.time.links := by
    unfold Dev.queueStamp
    split
    · simp
    · rfl
  unfold Dev.noteTime
  extract_lets e e'
  refine ⟨List.mem_append_right _ (List.mem_singleton_self _), ?_⟩
  show e'.time.links = e.time.links
  simp only [e']
  split
  · exact hqueue e _
  · rfl

/-- How a message of given bytes leaves on a port: in a UNSEQ link frame of class 0, or in a TIME flit (R369, R384). -/
def carriesTime (out : List Out) (bytes : Bytes) : TimePort → Prop
  | .stem e => ∃ f c, .linkFrame e f c ∈ out ∧ f.data = bytes ∧ f.head.cls = 0 ∧ f.head.unseq = true ∧ f.head.length = 36
  | .pleach n => ∃ f, .flit n f ∈ out ∧ f.kind = 3 ∧ f.fill = 36 ∧ f.body = bytes

/-- The unit with the period of a port begun anew, where its message is due. -/
def Dev.begun (d : Dev) (p : TimePort) (due : Bool) : Dev := if due then d.startPeriod p else d

theorem Dev.begun_field {β : Type} (d : Dev) (p : TimePort) (due : Bool) (g : TimeLink → β)
    (hg : ∀ (x : TimeLink) t, g { x with lastTx := t } = g x) : g ((d.begun p due).timeLink p) = g (d.timeLink p) := by
  unfold Dev.begun
  split
  · exact d.timeLink_modLink_field p g fun x => hg x _
  · rfl

/-- A message that unit `e` sends, which is unit `d` but for the period begun anew and the queues, goes out as R83 and R87 to R89
say. -/
theorem Dev.sendsTime_of {d e d' : Dev} {p : TimePort} {tx : Stamp} {due : Bool} (hobjs : e.objs = d.objs) (hcfg : e.cfg = d.cfg)
    (htime : e.time = (d.begun p due).time)
    (hkeeps : (e.noteTime p (e.timeMsg p) (e.linkStamp false tx)).Keeps TimeSt.links [] d')
    (hport : carriesTime d'.out (e.timeMsg p).bytes p) : d.sendsTime d' p tx due := by
  have hget : ∀ k, e.get k = d.get k := Dev.get_congr hobjs hcfg
  have hfields : (d.begun p due).time.ns = d.time.ns ∧ (d.begun p due).time.frac = d.time.frac ∧
      (d.begun p due).time.links.length = d.time.links.length := by
    unfold Dev.begun
    split
    · exact ⟨rfl, rfl, List.length_modify _ _ _⟩
    · exact ⟨rfl, rfl, rfl⟩
  obtain ⟨hns, hfrac, hlen⟩ := hfields
  have hstamp : e.linkStamp false tx = d.linkStamp false tx :=
    Dev.linkStamp_congr (by rw [htime, hns]) (by rw [htime, hfrac]) false tx
  have hlink : e.timeLink p = (d.begun p due).timeLink p := Dev.timeLink_congr (by rw [htime]) p
  have hseq : (e.timeLink p).txSeq = (d.timeLink p).txSeq := hlink ▸ d.begun_field p due (·.txSeq) fun _ _ => rfl
  have hprev : (e.timeLink p).prevTx = (d.timeLink p).prevTx := hlink ▸ d.begun_field p due (·.prevTx) fun _ _ => rfl
  have hpeer : (e.timeLink p).peerRx = (d.timeLink p).peerRx := hlink ▸ d.begun_field p due (·.peerRx) fun _ _ => rfl
  obtain ⟨hmseq, hmunc, hmhost, hmprev, hmpeer, hmprevTx, hmpeerRx⟩ := e.timeMsg_spec p
  obtain ⟨hout, hlinks⟩ := e.noteTime_spec p (e.timeMsg p) (e.linkStamp false tx)
  rw [hseq] at hmseq
  rw [hprev] at hmprev hmprevTx
  rw [hpeer] at hmpeer hmpeerRx
  rw [hstamp] at hout hlinks hkeeps
  refine ⟨⟨e.timeMsg p, hkeeps.out.subset hout, hmseq, hmprev, hmpeer, hmprevTx, hmpeerRx,
    hmunc.trans (congrArg (· != 0) (hget _)), hmhost.trans (congrArg (fun n => decide (n = 1)) (hget _)), ?_⟩, fun hslot => ?_⟩
  · cases p <;> exact hport
  · have hslot' : timeSlot p < e.time.links.length := by rw [htime, hlen]; exact hslot
    have hafter : d'.timeLink p = { e.timeLink p with
        txSeq := ((e.timeLink p).txSeq + 1) % 65536, prevTx := some ((e.timeLink p).txSeq, d.linkStamp false tx)
        txHist := (((e.timeLink p).txSeq, d.linkStamp false tx) :: (e.timeLink p).txHist).take 16 } :=
      (Dev.timeLink_congr (hkeeps.time.trans hlinks) p).trans (e.timeLink_modLink p _ hslot')
    rw [hafter]
    refine ⟨by rw [hseq], by rw [hseq], hpeer, ?_⟩
    show (e.timeLink p).lastTx = _
    rw [hlink]
    unfold Dev.begun
    split
    · exact congrArg TimeLink.lastTx (d.timeLink_modLink p _ hslot)
    · rfl

/-! ### TIME_MESSAGE_SEND -/

theorem Dev.putTime_mem (d : Dev) (e : StemId) (h : LinkStart) (data : Bytes) :
    .linkFrame e { head := h, data := data } (linkCrc h data) ∈ (d.putTime e h data).out :=
  (Dev.Keeps.modLine (π := TimeSt.links) (K := []) _ e _).out.subset (List.mem_append_right _ (List.mem_singleton_self _))

/-- A time message on a Stem link leaves in a link frame of its own (R89, R369). -/
theorem Dev.stemTime_spec (e : Dev) (x : StemId) (tx : Stamp) :
    (e.noteTime (.stem x) (e.timeMsg (.stem x)) (e.linkStamp false tx)).Keeps TimeSt.links [] (e.stemTime x tx) ∧
    carriesTime (e.stemTime x tx).out (e.timeMsg (.stem x)).bytes (.stem x) := by
  unfold Dev.stemTime
  exact ⟨.putTime _ x _ _, ⟨_, _⟩, _, Dev.putTime_mem _ _ _ _, rfl, rfl, rfl, rfl⟩

/-- Taking a message from its queue changes the trunk's fabric alone (R334). -/
theorem Dev.popTime_eq (d : Dev) (g : EgressId) : d.popTime g = { d with tk := (d.popTime g).tk } := by
  unfold Dev.popTime Dev.payShaper
  extract_lets i
  split <;> rfl

/-- On a Pleach port it leaves in a TIME flit (R384). -/
theorem Dev.pleachTime_spec (d : Dev) (n : Nat) (tx : Stamp) :
    ((d.popTime (.pleach n)).noteTime (.pleach n) ((d.popTime (.pleach n)).timeMsg (.pleach n))
      ((d.popTime (.pleach n)).linkStamp false tx)).Keeps TimeSt.links [] (d.pleachTime n tx) ∧
    carriesTime (d.pleachTime n tx).out ((d.popTime (.pleach n)).timeMsg (.pleach n)).bytes (.pleach n) := by
  unfold Dev.pleachTime
  exact Dev.sendFlit_spec _ n { kind := 3, fill := 36, body := ((d.popTime (.pleach n)).timeMsg (.pleach n)).bytes }

/-- The due message of a trunk's port joins its queue: the period begins anew, and the fabric changes (R87, R325). -/
theorem Dev.queueTime_eq (d : Dev) (p : TimePort) (g : EgressId) :
    d.queueTime p g = { d.begun p (d.timeDue p) with tk := (d.queueTime p g).tk } := by
  unfold Dev.queueTime Dev.begun
  split <;> rfl

theorem Dev.begun_rest (d : Dev) (p : TimePort) (due : Bool) : (d.begun p due).objs = d.objs ∧ (d.begun p due).cfg = d.cfg := by
  unfold Dev.begun
  split <;> exact ⟨rfl, rfl⟩

/-- What a trunk sends of a message that its queue lets go (R326, R334). -/
theorem Dev.sendsTime_of_queue (d : Dev) {p : TimePort} {g : EgressId} {tx : Stamp} {d' : Dev}
    (h : (((d.queueTime p g).popTime g).noteTime p (((d.queueTime p g).popTime g).timeMsg p)
      (((d.queueTime p g).popTime g).linkStamp false tx)).Keeps TimeSt.links [] d' ∧
      carriesTime d'.out (((d.queueTime p g).popTime g).timeMsg p).bytes p) : d.sendsTime d' p tx (d.timeDue p) := by
  obtain ⟨hkeeps, hport⟩ := h
  obtain ⟨hobjs, hcfg⟩ := d.begun_rest p (d.timeDue p)
  refine Dev.sendsTime_of ?_ ?_ ?_ hkeeps hport
  · rw [Dev.popTime_eq, Dev.queueTime_eq]
    exact hobjs
  · rw [Dev.popTime_eq, Dev.queueTime_eq]
    exact hcfg
  · rw [Dev.popTime_eq, Dev.queueTime_eq]

theorem timeMessageSend_leaf (s : State) (l : LeafId) (tx : Stamp) (hruns : s.runs (.leaf l)) :
    Yields (exec (.timeMessageSend (.stem (.leaf l)) tx) s) s (.leaf l) fun d =>
      let p : TimePort := .stem (.leaf l)
      if (s.unit (.leaf l)).linkUp p = true ∧ (s.unit (.leaf l)).timeDue p = true then (s.unit (.leaf l)).sendsTime d p tx true
      else d = s.unit (.leaf l) := by
  show Yields (execTimeMessageSend (.stem (.leaf l)) tx s) s (.leaf l) _
  unfold execTimeMessageSend
  refine State.on_yields s (.leaf l) _ _ hruns ?_
  generalize s.unit (.leaf l) = d
  dsimp only
  cases hup : d.linkUp (.stem (.leaf l))
  case false => exact rfl
  case true =>
    cases hdue : d.timeDue (.stem (.leaf l))
    case false => exact rfl
    case true =>
      obtain ⟨hkeeps, hport⟩ := (d.startPeriod (.stem (.leaf l))).stemTime_spec (.leaf l) tx
      exact Dev.sendsTime_of (d := d) (e := d.startPeriod _) (due := true) rfl rfl rfl hkeeps hport

theorem timeMessageSend_trunk (s : State) (p : TimePort) (g : EgressId) (n : Nat) (tx : Stamp) (hruns : s.runs .trunk)
    (hp : p = .stem (.trunk n) ∧ g = .stem n ∨ p = .pleach n ∧ g = .pleach n) :
    Yields (exec (.timeMessageSend p tx) s) s .trunk fun d =>
      if (s.unit .trunk).linkUp p = false then d = s.unit .trunk
      else if ((s.unit .trunk).queueTime p g).timeWaits g = true then (s.unit .trunk).sendsTime d p tx ((s.unit .trunk).timeDue p)
      else d = (s.unit .trunk).queueTime p g := by
  have hunit : timeUnit p = .trunk := by rcases hp with ⟨rfl, -⟩ | ⟨rfl, -⟩ <;> rfl
  show Yields (execTimeMessageSend p tx s) s .trunk _
  unfold execTimeMessageSend
  rw [hunit]
  refine State.on_yields s .trunk _ _ hruns ?_
  generalize s.unit .trunk = d
  dsimp only
  cases hup : d.linkUp p
  case false => exact rfl
  case true =>
    rcases hp with ⟨rfl, rfl⟩ | ⟨rfl, rfl⟩
    · simp only [Bool.not_true, Bool.false_eq_true, reduceCtorEq, if_false]
      cases hwaits : (d.queueTime (.stem (.trunk n)) (.stem n)).timeWaits (.stem n)
      case false => exact rfl
      case true => exact d.sendsTime_of_queue (((d.queueTime _ _).popTime _).stemTime_spec (.trunk n) tx)
    · simp only [Bool.not_true, Bool.false_eq_true, reduceCtorEq, if_false]
      cases hwaits : (d.queueTime (.pleach n) (.pleach n)).timeWaits (.pleach n)
      case false => exact rfl
      case true => exact d.sendsTime_of_queue ((d.queueTime _ _).pleachTime_spec n tx)

/-! ### TIME_MESSAGE -/

namespace Dev.Keeps

theorem timeEvent (d : Dev) (event : Nat) (value : Int) : d.Keeps TimeSt.links [] (d.timeEvent event value) :=
  .record d .timeEvent d.stamp _ (by simp)

theorem stepTime (d : Dev) (v : Int) : d.Keeps TimeSt.links [] (d.stepTime v) := by
  unfold Dev.stepTime
  extract_lets e ns f
  have hevent : d.Keeps TimeSt.links [] e :=
    .trans (.trans (.inc d _ (by simp)) (.flag _ _ _ (by simp) (by simp) (by simp))) (.timeEvent _ 2 v)
  clear_value e
  exact hevent.trans (.of_time rfl rfl rfl rfl rfl)

theorem lockLost (d : Dev) (ps : Int) : d.Keeps TimeSt.links [] (d.lockLost ps) :=
  .trans (.trans (.trans (.inc d _ (by simp)) (.always _ _ _ (by simp))) (.flag _ _ _ (by simp) (by simp) (by simp))) (.timeEvent _ 1 ps)

theorem refreshUncertain (d : Dev) : d.Keeps TimeSt.links [] d.refreshUncertain := by
  unfold Dev.refreshUncertain Dev.setUncertain
  refine .ite (.refl d) (.trans (b := { d with time := { d.time with uncAt := d.stamp } }) (.of_time rfl rfl rfl rfl rfl) ?_)
  exact .set _ _ _ (List.not_mem_nil)

theorem coastInc (d : Dev) : d.Keeps TimeSt.links [] d.coastInc := by
  unfold Dev.coastInc
  refine .ite (.refl d) (.trans (b := { d with time := { d.time with newInc := none } }) (.of_time rfl rfl rfl rfl rfl) ?_)
  exact .set _ _ _ (List.not_mem_nil)

theorem setServo (d : Dev) (s : Servo) : d.Keeps TimeSt.links [] (d.setServo s) := by
  unfold Dev.setServo
  extract_lets d1 d2 d3 t d4
  have hup : d.Keeps TimeSt.links [] d2 := .trans (.set d _ _ List.not_mem_nil) (.ite (.set _ _ _ List.not_mem_nil) (.set _ _ _ List.not_mem_nil))
  have hcoast : d2.Keeps TimeSt.links [] d3 := by
    cases s
    case acquire | locked => exact .refl _
    all_goals exact .coastInc _
  have htime : d3.Keeps TimeSt.links [] d4 := by
    clear_value d3
    exact .of_time rfl rfl rfl rfl rfl
  exact .trans (.trans (.trans hup hcoast) htime) (.refreshUncertain _)

theorem setSource (d : Dev) (id hops seq : Nat) : d.Keeps TimeSt.links [] (d.setSource id hops seq) := by
  unfold Dev.setSource
  extract_lets changed e
  have hset : d.Keeps TimeSt.links [] e :=
    .trans (.trans (.set d _ _ List.not_mem_nil) (.set _ _ _ List.not_mem_nil)) (.set _ _ _ List.not_mem_nil)
  exact .ite (hset.trans (.trans (.trans (.inc _ _ List.not_mem_nil)
    (.flag _ _ _ List.not_mem_nil List.not_mem_nil List.not_mem_nil)) (.timeEvent _ 4 0))) hset

theorem chooseSource (d : Dev) : d.Keeps TimeSt.links [] d.chooseSource := by
  unfold Dev.chooseSource
  extract_lets own prio best ownBetter t e
  split
  · have hport : d.Keeps TimeSt.links [] e := .of_time rfl rfl rfl rfl rfl
    exact .ite (.refl d) (.trans hport (.trans (.setSource _ _ _ _) (.setServo _ _)))
  · clear_value best
    split
    · exact .refl d
    · extract_lets moved d1 t d2
      have hsource : d1.Keeps TimeSt.links [] d2 := by
        clear_value d1
        exact .of_time rfl rfl rfl rfl rfl
      have hchosen : d.Keeps TimeSt.links [] d2 := .trans (.setSource d _ _ _) hsource
      exact .ite (hchosen.trans (.setServo _ _))
        (.ite hchosen (hchosen.trans (.trans (.set _ _ _ List.not_mem_nil) (.refreshUncertain _))))

theorem takeAdvert (d : Dev) (p : Nat) (m : TimeMsg) : d.Keeps TimeSt.links [] (d.takeAdvert p m) := by
  unfold Dev.takeAdvert
  exact .ite (.refl d) (.of_time rfl rfl rfl rfl rfl)

theorem complete (d : Dev) (i : Nat) (p : List (Nat × Nat)) : d.Keeps TimeSt.links [] (d.complete i p) := by
  unfold Dev.complete Dev.completeRes
  refine .trans (.trans (.trans (.trans (.foldl (fun e x => ?_) p d) (.set _ _ _ List.not_mem_nil)) (.set _ _ _ List.not_mem_nil))
    (.set _ _ _ List.not_mem_nil)) (.of_sends (.notify _ i) (by simp))
  exact .set e _ _ List.not_mem_nil

theorem enterServo (d : Dev) (offset : Int) : d.Keeps TimeSt.links [] (d.enterServo offset) := by
  have hlost (e : Dev) : e.Keeps TimeSt.links [] ((e.setServo .acquire).lockLost (roundDiv offset unitPs)) :=
    .trans (.setServo e _) (.lockLost _ _)
  unfold Dev.enterServo
  extract_lets unlock
  split
  · exact .setServo d _
  · exact .ite (.setServo d _) (hlost d)
  · exact .ite (hlost d) (.refl d)
  · exact .refl d
  · exact .refl d

theorem updateServo (d : Dev) (offset : Int) : d.Keeps TimeSt.links [] (d.updateServo offset) := by
  unfold Dev.updateServo
  split
  · exact .ite (.setServo d _) (.of_time rfl rfl rfl rfl rfl)
  · exact .ite (.trans (.setServo d _) (.lockLost _ _)) (.of_time rfl rfl rfl rfl rfl)
  · exact .refl d

theorem steer (d : Dev) (offset : Int) : d.Keeps TimeSt.links [] (d.steer offset) := by
  unfold Dev.steer
  split
  extract_lets cycles freq freq' phase e
  have hfreq : d.Keeps TimeSt.links [] e := .set d _ _ List.not_mem_nil
  clear_value e
  exact hfreq.trans (.of_time rfl rfl rfl rfl rfl)

theorem exchange (d : Dev) (port : Nat) (x y : Int) (source : Nat) : d.Keeps TimeSt.links [] (d.exchange port x y source) := by
  unfold Dev.exchange
  extract_lets offset delay least t d1 d2 limit n
  split
  · exact .inc d _ List.not_mem_nil
  · have hd1 : d.Keeps TimeSt.links [] d1 := .of_time rfl rfl rfl rfl rfl
    have hd2 : d.Keeps TimeSt.links [] d2 := hd1.trans (.enterServo _ _)
    split
    next d3 left heq =>
    have hd3 : d2.Keeps TimeSt.links [] d3 := by
      have hstep : d2.Keeps TimeSt.links [] (if d2.servo = .acquire && offset.natAbs > limit then
          (d2.stepTime (-8 * n), offset - 8 * n * unitNs) else (d2, offset)).1 := by
        split
        · exact .stepTime d2 _
        · exact .refl d2
      rw [heq] at hstep
      exact hstep
    extract_lets d4 d5 d6 t' d7 d8 changed t'' d9
    have hd6 : d3.Keeps TimeSt.links [] d6 := .trans (.trans (.steer d3 left) (.set _ _ _ List.not_mem_nil)) (.set _ _ _ List.not_mem_nil)
    have hd7 : d6.Keeps TimeSt.links [] d7 := by
      clear_value d6
      exact .of_time rfl rfl rfl rfl rfl
    have hd8 : d.Keeps TimeSt.links [] d8 := .trans (.trans (.trans (.trans hd2 hd3) hd6) hd7) (.updateServo _ _)
    have hd9 : d8.Keeps TimeSt.links [] d9 := by
      clear_value d8
      exact .of_time rfl rfl rfl rfl rfl
    exact .ite hd8 (.ite (.trans (.trans (hd8.trans hd9) (.flag _ _ _ List.not_mem_nil List.not_mem_nil List.not_mem_nil))
      (.timeEvent _ 4 0)) (hd8.trans hd9))

end Dev.Keeps

/-- A completed exchange leaves the link's state, the pair it completes aside. -/
theorem Dev.runExchange_field {β : Type} (d : Dev) (p : TimePort) (port : Nat) (g : TimeLink → β)
    (hg : ∀ (x : TimeLink) y, g { x with lastPair := y } = g x) : g ((d.runExchange p port).timeLink p) = g (d.timeLink p) := by
  unfold Dev.runExchange
  split
  · rfl
  · next pair t1 t2 t3 t4 valid src _ =>
    extract_lets e base rel e' upstream a b
    have he : g (e.timeLink p) = g (d.timeLink p) := d.timeLink_modLink_field p g fun x => hg x _
    have hcomplete : e.Keeps TimeSt.links [] e' := .complete e _ _
    have hrest : e.Keeps TimeSt.links []
        (if e'.timeHost || !upstream || !valid then e' else e'.exchange port (a - b) (a + b) src) :=
      .ite hcomplete (hcomplete.trans (.exchange e' _ _ _ _))
    exact (congrArg g (Dev.timeLink_congr hrest.time p)).trans he

/-- A link's state once it has taken a message with its receive stamp (R88, R89). -/
def TimeLink.taken (x : TimeLink) (m : TimeMsg) (rx : Stamp) : TimeLink :=
  { x with peerRx := some (m.seq, rx), uncertain := m.uncertain
           t1 := if m.prevValid then some (m.prevTxSeq, m.prevTx) else x.t1
           t4 := if m.peerValid then some (m.peerRxSeq, m.peerRx) else x.t4
           rxHist := ((m.seq, rx, m.sourceValid, m.sourceId) :: x.rxHist).take 16 }

/-- The messages missing between the newest that a link has taken and one that comes (R88). -/
def TimeLink.missing (x : TimeLink) (m : TimeMsg) : Int :=
  match x.peerRx with
  | some (last, _) => seqDiff 16 m.seq ((last + 1) % 65536)
  | none => 0

/-- A unit that has counted the losses and taken a message on its link. -/
def Dev.tookTime (d : Dev) (p : TimePort) (m : TimeMsg) (rx : Stamp) : Dev :=
  (if 0 < (d.timeLink p).missing m then d.add 0x2005_02 ((d.timeLink p).missing m).toNat else d).modLink p (·.taken m rx)

theorem Dev.takeTime_eq (d : Dev) (p : TimePort) (m : TimeMsg) (rx : Stamp) : d.takeTime p m rx =
    match followPort p with
    | none => d.tookTime p m rx
    | some port =>
      let d := if (d.tookTime p m rx).isTrunk then ((d.tookTime p m rx).takeAdvert port m).chooseSource else d.tookTime p m rx
      let d := if !d.isTrunk || d.time.upPort = some port then d.refreshUncertain else d
      d.runExchange p port := rfl

theorem Dev.tookTime_link (d : Dev) (p : TimePort) (m : TimeMsg) (rx : Stamp) (h : timeSlot p < d.time.links.length) :
    (d.tookTime p m rx).timeLink p = (d.timeLink p).taken m rx := by
  have hlost (e : Dev) (he : e.time = d.time) : (e.modLink p (·.taken m rx)).timeLink p = (d.timeLink p).taken m rx := by
    rw [e.timeLink_modLink p _ (by rw [he]; exact h), Dev.timeLink_congr (d := d) (d' := e) (by rw [he]) p]
  unfold Dev.tookTime
  split
  · exact hlost _ (by simp)
  · exact hlost d rfl

/-- What follows a message on a link leaves the link's state, the pair of an exchange aside (R88 to R90). -/
theorem Dev.takeTime_field {β : Type} (d : Dev) (p : TimePort) (m : TimeMsg) (rx : Stamp) (h : timeSlot p < d.time.links.length)
    (g : TimeLink → β) (hg : ∀ (x : TimeLink) y, g { x with lastPair := y } = g x) :
    g ((d.takeTime p m rx).timeLink p) = g ((d.timeLink p).taken m rx) := by
  rw [d.takeTime_eq]
  split
  · rw [d.tookTime_link p m rx h]
  · next port _ =>
    extract_lets e e'
    have he : (d.tookTime p m rx).Keeps TimeSt.links [] e := .ite (.trans (.takeAdvert _ port m) (.chooseSource _)) (.refl _)
    have he' : (d.tookTime p m rx).Keeps TimeSt.links [] e' := .ite (he.trans (.refreshUncertain e)) he
    rw [e'.runExchange_field p port g hg, Dev.timeLink_congr he'.time p, d.tookTime_link p m rx h]

theorem timeMessage_yields (s : State) (p : TimePort) (data : Bytes) (ok : Bool) (rx : Stamp) (hruns : s.runs (timeUnit p)) :
    Yields (exec (.timeMessage p ⟨data, ok⟩ rx) s) s (timeUnit p) fun d =>
      if (s.dev (timeUnit p)).linkUp p = true ∧ ok = true then
        timeSlot p < (s.dev (timeUnit p)).time.links.length →
        (d.timeLink p).peerRx = some ((readTime data).seq, (s.dev (timeUnit p)).linkStamp true rx) ∧
        (d.timeLink p).uncertain = (readTime data).uncertain ∧
        (d.timeLink p).txSeq = ((s.dev (timeUnit p)).timeLink p).txSeq
      else d = s.unit (timeUnit p) := by
  show Yields (execTimeMessage p ⟨data, ok⟩ rx s) s (timeUnit p) _
  unfold execTimeMessage
  refine State.on_yields s (timeUnit p) _ _ hruns ?_
  have hgo : ((s.unit (timeUnit p)).linkUp p && ok) = true ↔ (s.dev (timeUnit p)).linkUp p = true ∧ ok = true := Bool.and_eq_true_iff
  by_cases h : (s.dev (timeUnit p)).linkUp p = true ∧ ok = true
  · rw [if_pos h]
    dsimp only
    rw [if_pos (hgo.mpr h)]
    intro hslot
    have hfield {β : Type} (g : TimeLink → β) (hg : ∀ (x : TimeLink) y, g { x with lastPair := y } = g x) :=
      (s.unit (timeUnit p)).takeTime_field p (readTime data) ((s.unit (timeUnit p)).linkStamp true rx) hslot g hg
    exact ⟨hfield (·.peerRx) fun _ _ => rfl, hfield (·.uncertain) fun _ _ => rfl, hfield (·.txSeq) fun _ _ => rfl⟩
  · rw [if_neg h]
    dsimp only
    rw [if_neg (mt hgo.mp h)]

theorem seqDiff_lt (w a b : Nat) : seqDiff w a b < 2 ^ w := by
  have hlt : (a + 2 ^ w - b % 2 ^ w) % 2 ^ w < 2 ^ w := Nat.mod_lt _ (by positivity)
  have hcast : ((2 ^ w : Nat) : Int) = 2 ^ w := by norm_cast
  unfold seqDiff toSigned
  dsimp only
  split <;> omega

/-- A count that its object holds grows by what is added. -/
theorem Dev.get_add_fits (d : Dev) (k n : Nat) (h : d.get k + n < 2 ^ minWidth k) : (d.add k n).get k = d.get k + n := by
  unfold Dev.add
  dsimp only
  rw [if_pos]
  · exact d.get_set_fits _ _ h
  · exact Bool.or_eq_true_iff.mpr (.inl (decide_eq_true (h.trans_le (Nat.pow_le_pow_right (by decide) (minWidth_le _ _)))))

/-- A message taken counts those missing before it (R88). -/
theorem Dev.tookTime_spec (d : Dev) (p : TimePort) (m : TimeMsg) (rx : Stamp)
    (hfits : d.get 0x2005_02 + ((d.timeLink p).missing m).toNat < 2 ^ 32) :
    (d.tookTime p m rx).get 0x2005_02 = d.get 0x2005_02 + ((d.timeLink p).missing m).toNat ∧
    d.tookTime p m rx = { d with objs := (d.tookTime p m rx).objs
                                 time := { d.time with links := (d.tookTime p m rx).time.links } } ∧
    d.objectsKept (d.tookTime p m rx) [0x2005_02] := by
  unfold Dev.tookTime
  split
  · refine ⟨?_, ?_, fun k hk => ?_⟩
    · exact d.get_add_fits 0x2005_02 _ hfits
    · rw [Dev.add_eq]
      rfl
    · exact d.get_add_of_ne k 0x2005_02 _ (by simpa using hk)
  · next hnone =>
    refine ⟨?_, rfl, fun k _ => rfl⟩
    rw [Int.toNat_of_nonpos (not_lt.mp hnone), Nat.add_zero]
    rfl

theorem timeMessage_trunkStem (s : State) (n : Nat) (data : Bytes) (rx : Stamp) (last : Nat) (t : Stamp) (hruns : s.runs .trunk)
    (hup : s.trunk.linkUp (.stem (.trunk n)) = true) (hlast : (s.trunk.timeLink (.stem (.trunk n))).peerRx = some (last, t))
    (hfits : s.trunk.get 0x2005_02 + 65536 < 2 ^ 32) :
    Yields (exec (.timeMessage (.stem (.trunk n)) ⟨data, true⟩ rx) s) s .trunk fun d =>
      d.get 0x2005_02 = s.trunk.get 0x2005_02 + (seqDiff 16 (readTime data).seq ((last + 1) % 65536)).toNat ∧
      d = { s.unit .trunk with objs := d.objs, time := { s.trunk.time with links := d.time.links } } ∧
      (s.unit .trunk).objectsKept d [0x2005_02] := by
  show Yields (execTimeMessage (.stem (.trunk n)) ⟨data, true⟩ rx s) s .trunk _
  unfold execTimeMessage
  refine State.on_yields s .trunk _ _ hruns ?_
  have hgo : ((s.unit .trunk).linkUp (.stem (.trunk n)) && true) = true := Bool.and_eq_true_iff.mpr ⟨hup, rfl⟩
  dsimp only
  rw [if_pos hgo]
  have hmissing : ((s.unit .trunk).timeLink (.stem (.trunk n))).missing (readTime data) =
      seqDiff 16 (readTime data).seq ((last + 1) % 65536) := by
    unfold TimeLink.missing
    rw [show ((s.unit .trunk).timeLink (.stem (.trunk n))).peerRx = some (last, t) from hlast]
  have hlt := seqDiff_lt 16 (readTime data).seq ((last + 1) % 65536)
  rw [← hmissing] at hlt ⊢
  exact (s.unit .trunk).tookTime_spec (.stem (.trunk n)) (readTime data) _ (lt_of_le_of_lt (Nat.add_le_add_left (by omega) _) hfits)

/-- Settles O12: a message leaves by `noteTime`, after which nothing reaches the link, and one taken leaves its mark on the link, which
only the pair of an exchange changes after it. -/
theorem timeMessagesCarryStamps : Obligations.TimeMessagesCarryStamps :=
  ⟨timeMessageSend_leaf, timeMessageSend_trunk, timeMessage_yields, timeMessage_trunkStem⟩

end Sys2Proof.Machine
end

section
/-! SUPPORT. O11: what stands from the close of a tick to the next (R73, R76): the clock and, up to its advance, `Increment`. -/

namespace Sys2Proof.Machine

open Sys2Proof

/-- The count of FleetTime and the newest tick's number. -/
def clockOf (t : TimeSt) : Nat × Nat × Nat := (t.ns, t.frac, t.tick)

/-! ### Where no object is to stand -/

namespace Dev.Keeps

variable {α : Type} {π : TimeSt → α}

theorem mono {K : List Nat} {d d' : Dev} (h : d.Keeps π K d') : d.Keeps π [] d' :=
  ⟨h.boot, h.time, h.out, fun _ hk => absurd hk List.not_mem_nil⟩

theorem set_nil (d : Dev) (k v : Nat) : d.Keeps π [] (d.set k v) := .set d k v List.not_mem_nil

theorem inc_nil (d : Dev) (k : Nat) : d.Keeps π [] (d.inc k) := .inc d k List.not_mem_nil

theorem always_nil (d : Dev) (sub n : Nat) : d.Keeps π [] (d.always sub n) := .always d sub n List.not_mem_nil

theorem flag_nil (d : Dev) (i b : Nat) : d.Keeps π [] (d.flag i b) := .flag d i b List.not_mem_nil List.not_mem_nil List.not_mem_nil

theorem setAll_nil {β : Type} (f : β → Nat) (g : Dev → β → Nat) (l : List β) (d : Dev) :
    d.Keeps π [] (l.foldl (fun (d : Dev) x => d.set (f x) (g d x)) d) := .foldl (fun d _ => .set_nil d _ _) l d

theorem incAll_nil {β : Type} (f : β → Nat) (l : List β) (d : Dev) :
    d.Keeps π [] (l.foldl (fun (d : Dev) x => d.inc (f x)) d) := .foldl (fun d _ => .inc_nil d _) l d

end Dev.Keeps

/-! ### Before the advance -/

/-- No object of an index above 0x2001 is `Increment`. -/
theorem key_notMem_increment {i : Nat} (s : Nat) (hi : 0x2002 ≤ i) : key i s ∉ [0x2001_03] := by
  unfold key
  simp only [List.mem_singleton]
  omega

namespace Dev.Keeps

variable {α : Type} {π : TimeSt → α}

/-- A flag's register, counts and the always-on count are not `Increment`. -/
theorem flag_above (d : Dev) {i : Nat} (b : Nat) (hi : 0x2002 ≤ i) : d.Keeps π [0x2001_03] (d.flag i b) :=
  .flag d i b (key_notMem_increment 0 hi) (key_notMem_increment _ (by omega)) (key_notMem_increment _ (by decide))

theorem always_above (d : Dev) (sub n : Nat) : d.Keeps π [0x2001_03] (d.always sub n) :=
  .always d sub n (key_notMem_increment sub (by decide))

theorem set_above (d : Dev) {i : Nat} (s v : Nat) (hi : 0x2002 ≤ i) : d.Keeps π [0x2001_03] (d.set (key i s) v) :=
  .set d _ v (key_notMem_increment s hi)

theorem countCycle (d : Dev) (t : Nat) (x : CycleEv) : d.Keeps π [0x2001_03] (d.countCycle t x) :=
  .trans (b := d.modTap t _) (.of_eq rfl rfl rfl rfl rfl) (.always_above _ _ _)

theorem renameSnap (d : Dev) (c : SnapCause) (origin : Nat) : d.Keeps π [0x2001_03] (d.renameSnap c origin) :=
  .of_eq rfl rfl rfl rfl rfl

theorem snapshot (d : Dev) (c : SnapCause) (origin : Nat) : d.Keeps π [0x2001_03] (d.snapshot c origin) := by
  unfold Dev.snapshot
  extract_lets again written r e never close d1
  have he : d.Keeps π [0x2001_03] e := .of_eq rfl rfl rfl rfl rfl
  have hd1 : e.Keeps π [0x2001_03] d1 := .record e _ _ _ (by decide)
  refine .ite (.refl d) (.ite (he.trans (.renameSnap e c _)) (.ite (.ite he (he.trans ?_)) ((he.trans hd1).trans ?_)))
  · exact .trans (.inc e 0x2601_04 (by decide)) (.flag_above _ 1 (by decide))
  · clear_value d1
    have hlast (x : RecSt) : d1.Keeps π [0x2001_03] (Dev.inc { d1 with rcd := x } 0x2601_03) :=
      .trans (b := { d1 with rcd := x }) (.of_eq rfl rfl rfl rfl rfl) (.inc _ _ (by decide))
    exact hlast _

theorem triggerPkt (d : Dev) (c : TrigCause) (origin : Nat) (late : Bool) : d.Keeps π [0x2001_03] (d.triggerPkt c origin late) :=
  .of_eq rfl rfl rfl rfl rfl

theorem setFreeze (d : Dev) (c : TrigCause) (origin : Nat) : d.Keeps π [0x2001_03] (d.setFreeze c origin) := by
  unfold Dev.setFreeze
  extract_lets d1 delay d2 t d3
  have hd2 : d.Keeps π [0x2001_03] d2 := .trans (.trans (.triggerPkt d c origin false) (.set d1 _ _ (by decide))) (.set _ _ _ (by decide))
  have hd3 : d2.Keeps π [0x2001_03] d3 := by
    clear_value d2
    exact .of_eq rfl rfl rfl rfl rfl
  exact .trans (hd2.trans hd3) (.trans (.trans (.set d3 _ _ (by decide)) (.set _ _ _ (by decide))) (.flag_above _ 2 (by decide)))

theorem takeOver (d : Dev) (c : TrigCause) (origin : Nat) : d.Keeps π [0x2001_03] (d.takeOver c origin) := by
  unfold Dev.takeOver
  extract_lets late t e
  have he : d.Keeps π [0x2001_03] e := .of_eq rfl rfl rfl rfl rfl
  exact he.trans (.trans (.setFreeze e c origin) (.inc _ _ (by decide)))

theorem traceTrigger (d : Dev) (c : TrigCause) (origin : Nat) : d.Keeps π [0x2001_03] (d.traceTrigger c origin) := by
  unfold Dev.traceTrigger
  split
  · exact .setFreeze d c origin
  · exact .ite (.takeOver d c origin) (.trans (.triggerPkt d c origin true) (.inc _ _ (by decide)))
  · exact .inc d _ (by decide)
  · exact .refl d

theorem trigger (d : Dev) (c : TrigCause) (origin : Nat) : d.Keeps π [0x2001_03] (d.trigger c origin) :=
  .ite (.refl d) (.trans (.ite (.refl d) (.traceTrigger d c origin)) (.snapshot _ _ _))

theorem selectorHit (d : Dev) (k : Nat) : d.Keeps π [0x2001_03] (d.selectorHit k) := by
  unfold Dev.selectorHit
  extract_lets i n e
  have he : d.Keeps π [0x2001_03] e := .set_above d 7 n (by omega)
  clear_value e
  have hfired (x : TraceSt) : e.Keeps π [0x2001_03] { e with trc := x } := .of_eq rfl rfl rfl rfl rfl
  exact .ite (.refl d) (.ite he ((he.trans (hfired _)).trans (.trigger _ _ _)))

theorem watchCycle (d : Dev) (t : Nat) (x : CycleEv) : d.Keeps π [0x2001_03] (d.watchCycle t x) := by
  refine .foldl (fun d k => ?_) _ d
  extract_lets i ev h was tr e
  have he : d.Keeps π [0x2001_03] e := .of_eq rfl rfl rfl rfl rfl
  exact .ite (.refl d) (.ite (he.trans (.selectorHit e k)) he)

/-- The cycles that the taps see. -/
theorem tickTaps (d : Dev) (i : TickIn) : d.Keeps π [0x2001_03] (d.tickTaps i) := by
  refine .foldl (fun d x => .ite ?_ (.refl d)) _ d
  exact .foldl (fun d c => .trans (.countCycle d _ _) (.watchCycle _ _ _)) _ d

theorem firstDeferral (d : Dev) (c : Nat) : d.Keeps π [0x2001_03] (d.firstDeferral c) := by
  unfold Dev.firstDeferral
  split
  · exact .ite (.refl d) (.trans (b := d.modReq _ _) (.of_eq rfl rfl rfl rfl rfl) (.always_above _ _ _))
  · exact .refl d

theorem closeGate (d : Dev) : d.Keeps π [0x2001_03] d.closeGate := by
  unfold Dev.closeGate
  extract_lets e
  have he : d.Keeps π [0x2001_03] e := .foldl (fun d c => .firstDeferral d c) _ d
  exact .ite (.refl d) (.ite he (he.trans (.always_above e _ _)))

theorem setQueue (d : Dev) (src : Nat) (q : List Xfer) : d.Keeps π [0x2001_03] (d.setQueue src q) := by
  unfold Dev.setQueue
  extract_lets a e
  have he : d.Keeps π [0x2001_03] e := .of_eq rfl rfl rfl rfl rfl
  exact he.trans (.set_above e 6 _ (by omega))

theorem offerRecord (d : Dev) : d.Keeps π [0x2001_03] d.offerRecord := by
  unfold Dev.offerRecord
  extract_lets live
  refine .ite (.ite (.refl d) (.setQueue d 1 _)) ?_
  split
  · exact .ite (.refl d) (.setQueue d 1 _)
  · next r _ =>
    extract_lets e
    have he : d.Keeps π [0x2001_03] e := .of_eq rfl rfl rfl rfl rfl
    exact he.trans (.setQueue e 1 _)

theorem offerDrain (d : Dev) : d.Keeps π [0x2001_03] d.offerDrain := by
  have hqueue (x : TraceSt) (b : Xfer) : d.Keeps π [0x2001_03] (Dev.queueUp { d with trc := x } .traceDrain b) :=
    .trans (b := { d with trc := x }) (.of_eq rfl rfl rfl rfl rfl) (.setQueue _ _ _)
  unfold Dev.offerDrain
  refine .ite (.refl d) ?_
  split
  · split
    exact hqueue _ _
  · refine .ite (.refl d) ?_
    split
    exact hqueue _ _

end Dev.Keeps

/-! ### After the advance, in both builds -/

namespace Dev.Keeps

variable {α : Type} {π : TimeSt → α}

theorem runLine (d : Dev) (e : StemId) (f : StemLine → StemLine × List Wire) : d.Keeps π [] (d.runLine e f) :=
  .ite (.refl d) (.trans (.modStem d e _) (.drive _ _))

theorem tickStem (d : Dev) (e : StemId) : d.Keeps π [] (d.tickStem e) := by
  unfold Dev.tickStem
  extract_lets d1 d2
  have hd1 : d.Keeps π [] d1 := .runLine d e _
  have hd2 : d1.Keeps π [] d2 := .ite (.trans (.set_nil d1 _ _) (.modStem _ e _)) (.refl d1)
  split
  extract_lets x
  exact .ite ((hd1.trans hd2).trans (.inc_nil d2 _)) (hd1.trans hd2)

/-! ### In a leaf -/

theorem stretch (d : Dev) (r n : Nat) : d.Keeps π [] (d.stretch r n) := by
  unfold Dev.stretch
  extract_lets x mhz acc expected e lost e'
  have he : d.Keeps π [] e := .of_eq rfl rfl rfl rfl rfl
  have hregion (f : Region → Region) : e.Keeps π [] (e.modRegion r f) := .of_eq rfl rfl rfl rfl rfl
  have he' : d.Keeps π [] e' := he.trans (hregion _)
  exact .ite he (.ite (he.trans (hregion _)) (.ite he' (he'.trans (.trans (.set_nil e' _ _) (.always_nil _ _ _)))))

theorem tickRegion (cycles : List (Nat × Nat)) (d : Dev) (r : Nat) : d.Keeps π [] (Dev.tickRegion cycles d r) := by
  have hregion (e : Dev) (f : Region → Region) : e.Keeps π [] (e.modRegion r f) := .of_eq rfl rfl rfl rfl rfl
  unfold Dev.tickRegion
  extract_lets n x e e'
  have he : d.Keeps π [] e := .trans (.stretch d r n) (hregion _ _)
  have he' : d.Keeps π [] e' := he.trans (hregion e _)
  exact .ite he (.ite (.ite (he'.trans (.always_nil e' _ _)) he') (he.trans (hregion e _)))

theorem voltReading (d : Dev) (v r : Nat) : d.Keeps π [] (d.voltReading v r) := by
  have hlow (e : Dev) (x : PowerSt) (k : Nat) : e.Keeps π [] (Dev.set { e with pow := x } k r) :=
    .trans (b := { e with pow := x }) (.of_eq rfl rfl rfl rfl rfl) (.set_nil _ _ _)
  unfold Dev.voltReading
  exact .trans (.trans (.set_nil d _ _) (.ite (hlow _ _ _) (.refl _))) (.set_nil _ _ _)

theorem tickVolts (d : Dev) (i : TickIn) : d.Keeps π [] (d.tickVolts i) := by
  unfold Dev.tickVolts
  extract_lets reading vs p e
  have he : d.Keeps π [] e := .of_eq rfl rfl rfl rfl rfl
  refine he.trans (.foldl (fun d v => ?_) vs e)
  split
  · exact .voltReading d v _
  · exact .refl d

theorem setFault (d : Dev) (r : Nat) (b : Bool) : d.Keeps π [] (d.setFault r b) := .set_nil d _ _

theorem openEpisode (d : Dev) (u : Nat) (vs : List Nat) : d.Keeps π [] (d.openEpisode u vs) := by
  unfold Dev.openEpisode
  exact .ite (.of_eq rfl rfl rfl rfl rfl) (.of_eq rfl rfl rfl rfl rfl)

theorem deny (d : Dev) (q : StageReq) : d.Keeps π [] (d.deny q) := by
  have hanswer (x : PowerSt) : d.Keeps π [] (Dev.emit { d with pow := x } (.pin .stageDeny q.region 1)) :=
    .trans (b := { d with pow := x }) (.of_eq rfl rfl rfl rfl rfl) (.emit _ _)
  exact .trans (hanswer _) (.inc_nil _ _)

theorem denyAll (d : Dev) (p : StageReq → Bool) : d.Keeps π [] (d.denyAll p) := .foldl (fun d q => .deny d q) _ d

theorem showShed (d : Dev) : d.Keeps π [] d.showShed := .trans (.emit d _) (.emit _ _)

theorem shedOn (d : Dev) (c : Nat) : d.Keeps π [] (d.shedOn c) := by
  have hshow (x : PowerSt) : d.Keeps π [] (Dev.showShed { d with pow := x }) :=
    .trans (b := { d with pow := x }) (.of_eq rfl rfl rfl rfl rfl) (.showShed _)
  exact .ite (.refl d) (hshow _)

theorem rotateShed (d : Dev) : d.Keeps π [] d.rotateShed := by
  have hshow (x : PowerSt) : d.Keeps π [] (Dev.showShed { d with pow := x }) :=
    .trans (b := { d with pow := x }) (.of_eq rfl rfl rfl rfl rfl) (.showShed _)
  exact .ite (.refl d) (.ite (.refl d) (hshow _))

theorem record_nil (d : Dev) (kind : RecKind) (time : Nat) (payload : Bytes) : d.Keeps π [] (d.record kind time payload) :=
  .record d kind time payload fun _ hk => absurd hk List.not_mem_nil

theorem clusterFault (d : Dev) (r : Nat) : d.Keeps π [] (d.clusterFault r) := by
  unfold Dev.clusterFault
  extract_lets c vs d1 d2
  have hd2 : d.Keeps π [] d2 := .trans (.trans (.trans (.set_nil d _ _) (.flag_nil _ _ _)) (.openEpisode d1 c vs)) (.denyAll _ _)
  split
  extract_lets d3
  have hd3 : d.Keeps π [] d3 := hd2.trans (.record_nil d2 _ _ _)
  exact .ite hd3 (hd3.trans (.shedOn d3 c))

theorem regionFault (d : Dev) (r : Nat) : d.Keeps π [] (d.regionFault r) := by
  unfold Dev.regionFault
  extract_lets vs e
  have he : d.Keeps π [] e := .trans (.flag_nil d _ _) (.openEpisode _ r vs)
  split
  exact he.trans (.record_nil e _ _ _)

theorem refreshTest (d : Dev) : d.Keeps π [] d.refreshTest := .ite (.set_nil d _ _) (.refl d)

theorem assertFault (d : Dev) (r : Nat) : d.Keeps π [] (d.assertFault r) := by
  unfold Dev.assertFault
  extract_lets d1 d2
  have hd1 : d.Keeps π [] d1 := .trans (.setFault d r true) (.always_nil _ _ _)
  have hd2 : d1.Keeps π [] d2 := .ite (.clusterFault d1 r) (.regionFault d1 r)
  have hsnap : d2.Keeps π [] (d2.snapshot .regFault d2.stamp) := (Dev.Keeps.snapshot d2 _ _).mono
  exact .ite (.refl d) ((hd1.trans hd2).trans (hsnap.trans (.refreshTest _)))

theorem firstTick (d : Dev) (faults : BitVec 64) : d.Keeps π [] (d.firstTick faults) := by
  unfold Dev.firstTick
  extract_lets rs e
  have he : d.Keeps π [] e := .foldl (fun d r => .emit d _) rs d
  exact .ite (.refl d) (he.trans (.foldl (fun d r => .ite (.assertFault d r) (.refl d)) rs e))

theorem tickEpisodes (d : Dev) (level : BitVec 64) : d.Keeps π [] (d.tickEpisodes level) := by
  unfold Dev.tickEpisodes
  extract_lets e mine
  have he : d.Keeps π [] e := .foldl (fun d r => .ite (.setFault d r false) (.refl d)) _ d
  refine he.trans (.foldl (fun d x => ?_) _ e)
  exact .of_eq rfl rfl rfl rfl rfl

theorem tickInputs (d : Dev) (i : TickIn) : d.Keeps π [] (d.tickInputs i) := by
  unfold Dev.tickInputs
  extract_lets d1 d2 head await p f
  have hd2 : d.Keeps π [] d2 := .trans (.trans (.trans (.always_nil d _ _) (.always_nil _ _ _)) (.always_nil _ _ _)) (.set_nil d1 _ _)
  clear_value d2
  exact hd2.trans (.of_eq rfl rfl rfl rfl rfl)

/-- What a tick does in a leaf. -/
theorem leafTick (d : Dev) (l : LeafId) (i : TickIn) : d.Keeps π [] (d.leafTick l i) := by
  unfold Dev.leafTick
  extract_lets d1 d2 d3 d4 d5
  have hd1 : d.Keeps π [] d1 := .of_eq rfl rfl rfl rfl rfl
  have hd2 : d1.Keeps π [] d2 := .foldl (fun d r => .tickRegion _ d r) _ d1
  have hd3 : d2.Keeps π [] d3 := .trans (.trans (.tickVolts d2 i) (.firstTick _ _)) (.tickEpisodes _ _)
  have hd4 : d3.Keeps π [] d4 := .trans (.tickInputs d3 i) (.always_nil _ _ _)
  have hd5 : d4.Keeps π [] d5 := .trans (.rotateShed d4) (.tickStem _ _)
  exact .trans (.trans (.trans (.trans (.trans hd1 hd2) hd3) hd4) hd5) (.set_nil d5 _ _)

/-! ### In a trunk -/

theorem sendFree (d : Dev) (m : PMsg) : d.Keeps π [] (d.sendFree m) := .of_sends (.sendFree d m) (by simp)

theorem firstLasers (d : Dev) : d.Keeps π [] d.firstLasers :=
  .ite (.refl d) (.foldl (fun d _ => .emit d _) _ d)

theorem countSource (d : Dev) : d.Keeps clockOf [] d.countSource := by
  unfold Dev.countSource
  exact .ite (.trans (b := { d with time := { d.time with seqAt := d.time.ran } }) (.of_time rfl rfl rfl rfl rfl) (.set_nil _ _ _)) (.refl d)

theorem tickScheds (d : Dev) : d.Keeps π [] d.tickScheds := by
  unfold Dev.tickScheds
  extract_lets d1 held d2 drr
  have hd1 : d.Keeps π [] d1 := .foldl (f := Dev.tickEgress) (fun d g => .of_eq rfl rfl rfl rfl rfl) allEgress d
  have hd2 : d1.Keeps π [] d2 := .incAll_nil _ _ d1
  exact (hd1.trans hd2).trans (.incAll_nil _ _ d2)

theorem ungate (d : Dev) : d.Keeps π [] d.ungate := .of_eq rfl rfl rfl rfl rfl

theorem tickPolicers (d : Dev) : d.Keeps π [] d.tickPolicers := .of_eq rfl rfl rfl rfl rfl

theorem tickPort (d : Dev) (p : Nat) : d.Keeps π [] (d.tickPort p) :=
  .ite (.trans (.set_nil d _ _) (.modFab _ _)) (.ite (.inc_nil d _) (.refl d))

theorem tickNotices (d : Dev) : d.Keeps π [] d.tickNotices := by
  unfold Dev.tickNotices
  extract_lets own due send d' sent
  have hsend : d.Keeps π [] d' := .foldl (fun d x => .trans (.inc_nil d _) (.sendFree _ _)) _ d
  exact hsend.trans (.modFab d' _)

theorem tickFabric (d : Dev) : d.Keeps π [] d.tickFabric := by
  unfold Dev.tickFabric
  extract_lets e
  have he : d.Keeps π [] e := .setAll_nil _ _ _ d
  exact he.trans (.incAll_nil _ _ e)

theorem askLeaf (d : Dev) (port opcode index sub known offset len : Nat) (data : Bytes) :
    d.Keeps π [] (d.askLeaf port opcode index sub known offset len data) := by
  have hserver (x : Server) : d.Keeps π [] { d with srv := x } := .of_eq rfl rfl rfl rfl rfl
  exact .trans (hserver _) (.of_sends (.toLeaf _ _ _ _) (by simp))

theorem readJoined (d : Dev) (n port : Nat) : d.Keeps π [] (d.readJoined n port) := by
  unfold Dev.readJoined
  extract_lets d1 d2
  have hd1 : d.Keeps π [] d1 := .foldl (fun d _ => .askLeaf d _ _ _ _ _ _ _ _) _ d
  have hd2 : d1.Keeps π [] d2 := .foldl (fun d _ => .askLeaf d _ _ _ _ _ _ _ _) _ d1
  exact (hd1.trans hd2).trans (.trans (.trans (.askLeaf d2 _ _ _ _ _ _ _ _) (.askLeaf _ _ _ _ _ _ _ _ _)) (.askLeaf _ _ _ _ _ _ _ _ _))

theorem digestJoined (d : Dev) (n port : Nat) : d.Keeps π [] (d.digestJoined n port) :=
  .foldl (fun d _ => .ite (.askLeaf d _ _ _ _ _ _ _ _) (.refl d)) _ d

theorem queueChanges (d : Dev) (l : List Change) : d.Keeps π [] (d.queueChanges l) :=
  .trans (b := d.modRed _) (.of_eq rfl rfl rfl rfl rfl) (.set_nil _ _ _)

theorem setMembers (d : Dev) (n : Nat) (l : List Member) : d.Keeps π [] (d.setMembers n l) := .of_eq rfl rfl rfl rfl rfl

theorem memberAns (d : Dev) (v : Nat) : d.Keeps π [] (d.memberAns v).dev := by
  unfold Dev.memberAns
  extract_lets op group leaf port
  split
  · exact .refl d
  · split
    · exact .refl d
    · split
      · exact .refl d
      · next n _ =>
        extract_lets w rest old l l'
        split
        · exact .trans (.trans (.trans (.setMembers d n l) (.readJoined _ n port)) (.digestJoined _ n port)) (.queueChanges _ _)
        · exact .trans (.setMembers d n l') (.queueChanges _ _)

theorem layerNext (d : Dev) : d.Keeps π [] d.layerNext := by
  unfold Dev.layerNext
  split
  · exact .trans (.set_nil d _ _) (.set_nil _ _ _)
  · extract_lets groups e
    have he : d.Keeps π [] e := .trans (b := d.modLayer _) (.of_eq rfl rfl rfl rfl rfl) (.set_nil _ _ _)
    exact he.trans (.foldl (fun d g => .memberAns d _) groups e)

theorem tickLayer (d : Dev) : d.Keeps π [] d.tickLayer := by
  unfold Dev.tickLayer
  extract_lets p
  refine .ite (.refl d) ?_
  split
  · exact .trans (b := d.modLayer _) (.of_eq rfl rfl rfl rfl rfl) (.askLeaf _ _ _ _ _ _ _ _ _)
  · exact .refl d
  · exact .trans (.inc_nil d _) (.layerNext _)

theorem setLeases (d : Dev) (l : List Lease) : d.Keeps π [] (d.setLeases l) := by
  have hset (e : Dev) (a b c : Nat) (bs : Bytes) :
      e.Keeps π [] ((((e.set 0x4030_06 a).set 0x4030_07 b).set 0x4020_03 c).setBlob 0x4030_0B bs) :=
    .trans (.trans (.trans (.set_nil e _ _) (.set_nil _ _ _)) (.set_nil _ _ _)) (.of_eq rfl rfl rfl rfl rfl)
  exact .trans (b := d.modAna _) (.of_eq rfl rfl rfl rfl rfl) (hset _ _ _ _ _)

theorem recallLease (d : Dev) (l : Lease) : d.Keeps π [] (d.recall l) :=
  .trans (.trans (.setLeases d _) (.inc_nil _ _)) (.sendFree _ _)

theorem recallLow (d : Dev) : d.Keeps π [] d.recallLow := by
  unfold Dev.recallLow
  extract_lets coming
  refine .ite (.refl d) ?_
  split
  · exact .recallLease d _
  · exact .refl d

theorem sendKept (d : Dev) : d.Keeps π [] d.sendKept := by
  refine .ite (.refl d) (.trans (b := d.modAna _) (.of_eq rfl rfl rfl rfl rfl) (.foldl (fun d x => ?_) _ _))
  exact .of_sends (.originate d x) (by simp)

/-- What a tick does in a trunk. -/
theorem trunkTick (d : Dev) : d.Keeps clockOf [] d.trunkTick := by
  unfold Dev.trunkTick
  extract_lets d1 d2 d3
  have hd1 : d.Keeps clockOf [] d1 :=
    .trans (.trans (.trans (.trans (.firstLasers d) (.ungate _)) (.countSource _)) (.tickScheds _)) (.tickPolicers _)
  have hd2 : d1.Keeps clockOf [] d2 :=
    .foldl (f := fun (d : Dev) n => d.tickStem (.trunk n)) (fun d n => .tickStem d _) (List.range 256) d1
  have hd3 : d2.Keeps clockOf [] d3 := .foldl (fun d p => .tickPort d p) _ d2
  exact .trans (.trans (.trans hd1 hd2) hd3)
    (.trans (.trans (.trans (.trans (.tickNotices d3) (.tickFabric _)) (.tickLayer _)) (.recallLow _)) (.sendKept _))

end Dev.Keeps

/-! ### The advance -/

/-- The cycles to the next tick are the least that reach it, one where the count stands past it (R76). -/
theorem cyclesToTick_spec {inc : Nat} (hinc : 1 ≤ inc) (total goal : Nat) :
    1 ≤ cyclesToTick total inc goal ∧ goal ≤ total + cyclesToTick total inc goal * inc ∧
    (cyclesToTick total inc goal = 1 ∨ total + cyclesToTick total inc goal * inc < goal + inc) := by
  unfold cyclesToTick
  generalize hq : (goal - total + inc - 1) / inc = q
  have hlow : q * inc ≤ goal - total + inc - 1 := hq ▸ Nat.div_mul_le_self _ _
  have hhigh : goal - total + inc - 1 < q * inc + inc := by
    rw [← Nat.succ_mul, ← hq, Nat.mul_comm]
    exact Nat.lt_mul_div_succ _ hinc
  rcases Nat.eq_zero_or_pos q with rfl | hpos
  · exact ⟨le_rfl, by omega, .inl rfl⟩
  · have hone : inc ≤ q * inc := Nat.le_mul_of_pos_left inc hpos
    rw [Nat.max_eq_right hpos]
    exact ⟨hpos, by omega, .inr (by omega)⟩

/-- FleetTime after the advance: a positive number of Increments more, the least that reaches the next multiple of 8 ns. -/
theorem Dev.advance_clock (d : Dev) : ∃ n, 1 ≤ n ∧
    8 * (d.time.tick + 1) * 2 ^ 32 ≤ d.time.ns * 2 ^ 32 + d.time.frac + n * max 1 (d.get 0x2001_03) ∧
    (n = 1 ∨ d.time.ns * 2 ^ 32 + d.time.frac + n * max 1 (d.get 0x2001_03) < 8 * (d.time.tick + 1) * 2 ^ 32 + max 1 (d.get 0x2001_03)) ∧
    d.advance.time.ns = (d.time.ns * 2 ^ 32 + d.time.frac + n * max 1 (d.get 0x2001_03)) / 2 ^ 32 % 2 ^ 64 ∧
    d.advance.time.frac = (d.time.ns * 2 ^ 32 + d.time.frac + n * max 1 (d.get 0x2001_03)) % 2 ^ 32 := by
  obtain ⟨hpos, hreach, hleast⟩ := cyclesToTick_spec (le_max_left 1 (d.get 0x2001_03)) (d.time.ns * 2 ^ 32 + d.time.frac)
    (8 * (d.time.tick + 1) * 2 ^ 32)
  exact ⟨_, hpos, hreach, hleast, rfl, rfl⟩

/-! ### The tick -/

/-- A leaf drives its tick-count bus (R77). -/
theorem Dev.driveBus_leafTick_bus (d : Dev) (l : LeafId) (i : TickIn) :
    .tickBus (d.time.tick % 256) ∈ (d.driveBus.leafTick l i).out := by
  have hkeeps : d.driveBus.Keeps clockOf [] (d.driveBus.leafTick l i) := .leafTick _ l i
  exact hkeeps.out.subset (List.mem_append_right _ (List.mem_singleton_self _))

/-- After a tick the clock stands as the advance from the tick's close leaves it. -/
theorem Dev.tick_spec (d : Dev) (u : UnitId) (i : TickIn) : ∃ p, d.Keeps clockOf [0x2001_03] p ∧
    clockOf (d.tick u i).time = clockOf p.advance.time ∧
    (u ≠ .trunk → .tickBus ((d.tick u i).time.tick % 256) ∈ (d.tick u i).out) ∧
    (d.tick u i).boot.first = false ∧ (d.tick u i).boot.held = d.boot.held := by
  unfold Dev.tick
  extract_lets d1 p q r b
  have hd1 : d.Keeps clockOf [0x2001_03] d1 :=
    .trans (.trans (.trans (.tickTaps d i) (.closeGate _)) (.of_eq rfl rfl rfl rfl rfl)) (.of_eq rfl rfl rfl rfl rfl)
  have hp : d.Keeps clockOf [0x2001_03] p := by
    cases u with
    | leaf l => exact hd1.trans (.trans (.offerRecord _) (.offerDrain _))
    | trunk => exact hd1
  have hr : q.Keeps clockOf [] r := by
    cases u with
    | leaf l => exact .trans (.emit q _) (.leafTick _ l i)
    | trunk => exact .trunkTick q
  have hbus : u ≠ .trunk → .tickBus (q.time.tick % 256) ∈ r.out := by
    cases u with
    | leaf l => exact fun _ => q.driveBus_leafTick_bus l i
    | trunk => exact fun hu => absurd rfl hu
  have hq : clockOf q.time = clockOf p.advance.time ∧ q.boot = p.boot := ⟨rfl, rfl⟩
  have htick : r.time.tick = q.time.tick := congrArg (·.2.2) hr.time
  clear_value r q p
  refine ⟨p, hp, hr.time.trans hq.1, fun hu => ?_, rfl, ?_⟩
  · rw [← htick] at hbus
    exact hbus hu
  · show r.boot.held = d.boot.held
    rw [hr.boot, hq.2, hp.boot]

theorem sampleTick_yields (s : State) (u : UnitId) (i : TickIn) (hruns : s.runs u) :
    Yields (exec (.sampleTick u i) s) s u fun d =>
      let inc := max 1 ((s.dev u).get 0x2001_03)
      let goal := 8 * ((s.dev u).time.tick + 1) * 2 ^ 32
      let old := (s.dev u).time.ns * 2 ^ 32 + (s.dev u).time.frac
      (∃ n, 1 ≤ n ∧ goal ≤ old + n * inc ∧ (n = 1 ∨ old + n * inc < goal + inc) ∧
        d.time.ns = (old + n * inc) / 2 ^ 32 % 2 ^ 64 ∧ d.time.frac = (old + n * inc) % 2 ^ 32) ∧
      d.time.tick = d.time.ns / 8 ∧ (u ≠ .trunk → .tickBus (d.time.tick % 256) ∈ d.out) ∧ d.boot.first = false ∧ d.boot.held = false := by
  have hheld : (s.unit u).boot.held = false := hruns
  have hexec : exec (.sampleTick u i) s = .next (s.withUnit u ((s.unit u).tick u i)) := by
    show execSampleTick u i s = _
    unfold execSampleTick
    rw [State.onHeld_eq]
    simp only [hheld, Bool.false_eq_true, if_false]
  refine ⟨_, hexec, ?_⟩
  obtain ⟨p, hp, hclock, hbus, hfirst, hkept⟩ := (s.unit u).tick_spec u i
  have hns : p.time.ns = (s.dev u).time.ns := congrArg (·.1) hp.time
  have hfrac : p.time.frac = (s.dev u).time.frac := congrArg (·.2.1) hp.time
  have htick : p.time.tick = (s.dev u).time.tick := congrArg (·.2.2) hp.time
  have hinc : p.get 0x2001_03 = (s.dev u).get 0x2001_03 := hp.get _ (by simp)
  have hns' : ((s.unit u).tick u i).time.ns = p.advance.time.ns := congrArg (·.1) hclock
  have hfrac' : ((s.unit u).tick u i).time.frac = p.advance.time.frac := congrArg (·.2.1) hclock
  have htick' : ((s.unit u).tick u i).time.tick = p.advance.time.tick := congrArg (·.2.2) hclock
  have hadvance := p.advance_clock
  rw [hns, hfrac, htick, hinc, ← hns', ← hfrac'] at hadvance
  refine ⟨hadvance, ?_, hbus, hfirst, hkept.trans hheld⟩
  rw [htick', hns']
  rfl

/-! ### In reset -/

/-- Every emission of a fold stands in what has been sent. -/
theorem Dev.mem_out_of_emits (f : Nat → Out) (l : List Nat) (d : Dev) :
    (∃ o, l.foldl (fun (d : Dev) r => d.emit (f r)) d = { d with out := o }) ∧
    ∀ r ∈ l, f r ∈ (l.foldl (fun (d : Dev) r => d.emit (f r)) d).out := by
  induction l generalizing d with
  | nil => exact ⟨⟨d.out, rfl⟩, fun r hr => absurd hr List.not_mem_nil⟩
  | cons x xs ih =>
    obtain ⟨⟨o, ho⟩, hmem⟩ := ih (d.emit (f x))
    refine ⟨⟨o, ho⟩, fun r hr => ?_⟩
    rcases List.mem_cons.mp hr with rfl | hr
    · have hkeeps : (d.emit (f r)).Keeps clockOf [] (xs.foldl (fun (d : Dev) r => d.emit (f r)) (d.emit (f r))) :=
        .foldl (fun d _ => .emit d _) xs _
      exact hkeeps.out.subset (List.mem_append_right _ (List.mem_singleton_self _))
    · exact hmem r hr

theorem sampleTick_held (s : State) (l : LeafId) (i : TickIn) (hheld : (s.dev (.leaf l)).boot.held = true)
    (hbuild : (s.dev (.leaf l)).cfg.build = .leaf) :
    Yields (exec (.sampleTick (.leaf l) i) s) s (.leaf l) fun d =>
      d = { s.unit (.leaf l) with out := d.out } ∧
      ∀ r < (s.dev (.leaf l)).cfg.powerRegions, .pin .regionOff r (b2n (i.regFault.getLsbD r)) ∈ d.out := by
  have hheld' : (s.unit (.leaf l)).boot.held = true := hheld
  have htrunk : (s.unit (.leaf l)).isTrunk = false := by
    show decide ((s.dev (.leaf l)).cfg.build = .trunk) = false
    rw [hbuild]
    rfl
  have hexec : exec (.sampleTick (.leaf l) i) s = .next (s.withUnit (.leaf l)
      ((List.range (s.dev (.leaf l)).cfg.powerRegions).foldl
        (fun (d : Dev) r => d.emit (.pin .regionOff r (b2n (i.regFault.getLsbD r)))) (s.unit (.leaf l)))) := by
    show execSampleTick (.leaf l) i s = _
    unfold execSampleTick
    rw [State.onHeld_eq]
    simp only [hheld', htrunk, Bool.false_eq_true, if_true, if_false]
    rfl
  obtain ⟨⟨o, ho⟩, hmem⟩ := Dev.mem_out_of_emits (fun r => .pin .regionOff r (b2n (i.regFault.getLsbD r)))
    (List.range (s.dev (.leaf l)).cfg.powerRegions) (s.unit (.leaf l))
  refine ⟨_, hexec, ?_, fun r hr => hmem r (List.mem_range.mpr hr)⟩
  rw [ho]

/-- Settles O11: the close of a tick leaves the clock and `Increment` alone, the advance is the least number of Increments, and what
follows it leaves the clock alone. -/
theorem sampleTicksAdvanceFleetTime : Obligations.SampleTicksAdvanceFleetTime := ⟨sampleTick_yields, sampleTick_held⟩

end Sys2Proof.Machine
end

section
/-! SUPPORT. What the trace and the recorder do of their own: they change their own state and objects, and nothing else. -/

namespace Sys2Proof.Machine

open Sys2Proof

/-- Only the trace, the recorder, the notes of flags and objects from the always-on counts upwards have changed. -/
structure Dev.TracesOnly (d d' : Dev) : Prop where
  keep : d' = { d with objs := d'.objs, sets := d'.sets, trc := d'.trc, rcd := d'.rcd }
  get : ∀ k < 0x210800, d'.get k = d.get k

namespace Dev.TracesOnly

theorem refl (d : Dev) : d.TracesOnly d := ⟨rfl, fun _ _ => rfl⟩

theorem trans {a b c : Dev} (h : a.TracesOnly b) (h' : b.TracesOnly c) : a.TracesOnly c := by
  refine ⟨?_, fun k hk => (h'.get k hk).trans (h.get k hk)⟩
  conv => lhs; rw [h'.keep, h.keep]

theorem ite {d a b : Dev} {c : Prop} [Decidable c] (ha : d.TracesOnly a) (hb : d.TracesOnly b) : d.TracesOnly (if c then a else b) := by
  split
  · exact ha
  · exact hb

theorem foldl {α : Type} {f : Dev → α → Dev} (hf : ∀ (d : Dev) x, d.TracesOnly (f d x)) (l : List α) (d : Dev) :
    d.TracesOnly (l.foldl f d) := by
  induction l generalizing d with
  | nil => exact .refl d
  | cons x xs ih => exact .trans (hf d x) (ih (f d x))

/-! ### Elementary changes -/

theorem trc (d : Dev) (x : TraceSt) : d.TracesOnly { d with trc := x } := ⟨rfl, fun _ _ => rfl⟩

theorem rcd (d : Dev) (x : RecSt) : d.TracesOnly { d with rcd := x } := ⟨rfl, fun _ _ => rfl⟩

theorem sets (d : Dev) (l : List (Nat × Nat)) : d.TracesOnly { d with sets := l } := ⟨rfl, fun _ _ => rfl⟩

theorem set (d : Dev) {k : Nat} (v : Nat) (hk : 0x210800 ≤ k) : d.TracesOnly (d.set k v) :=
  ⟨rfl, fun j hj => d.get_set_of_ne j k v (by omega)⟩

theorem add (d : Dev) {k : Nat} (n : Nat) (hk : 0x210800 ≤ k) : d.TracesOnly (d.add k n) := by
  unfold Dev.add
  exact .ite (.set d _ hk) (.set d _ hk)

theorem inc (d : Dev) {k : Nat} (hk : 0x210800 ≤ k) : d.TracesOnly (d.inc k) := .add d 1 hk

/-- Every object of an index from that of the always-on counts upwards. -/
theorem le_key {i : Nat} (s : Nat) (hi : 0x2108 ≤ i) : 0x210800 ≤ key i s := by
  unfold key
  omega

theorem always (d : Dev) (sub n : Nat) : d.TracesOnly (d.always sub n) := .ite (.refl d) (.set d _ (le_key sub le_rfl))

theorem flag (d : Dev) {i : Nat} (b : Nat) (hi : 0x2108 ≤ i) : d.TracesOnly (d.flag i b) := by
  unfold Dev.flag
  extract_lets d1 c d2 d3
  have hd1 : d.TracesOnly d1 := .set d _ (le_key 0 hi)
  have hd2 : d1.TracesOnly d2 := .set d1 _ (le_key (b + 1) (by omega))
  exact .ite hd1 (hd1.trans (hd2.trans (.trans (.always d2 0x22 1) (.sets d3 _))))

theorem flagIf (d : Dev) (c : Bool) {i : Nat} (b : Nat) (hi : 0x2108 ≤ i) : d.TracesOnly (d.flagIf c i b) :=
  .ite (.flag d b hi) (.refl d)

/-! ### The recorder -/

theorem putRecord (d : Dev) (kind flags time : Nat) (payload : Bytes) (o : Option (Nat × Nat)) :
    d.TracesOnly (d.putRecord kind flags time payload o) := by
  have hring (lost oldest newest : Nat) (c : Bool) (x : RecSt) : d.TracesOnly
      (((({ (((d.add 0x2600_05 lost).flagIf c 0x2606 0).set 0x2600_03 oldest) with rcd := x }).set 0x2600_02 newest).inc
        0x2600_04).always 0x20 1) :=
    .trans (.trans (.trans (.trans (.trans (.trans (.add d lost (by decide)) (.flagIf _ c 0 (by decide))) (.set _ oldest (by decide)))
      (.rcd _ x)) (.set _ newest (by decide))) (.inc _ (by decide))) (.always _ 0x20 1)
  unfold Dev.putRecord
  exact hring _ _ _ _ _

theorem record (d : Dev) (kind : RecKind) (time : Nat) (payload : Bytes) : d.TracesOnly (d.record kind time payload) := by
  unfold Dev.record
  exact .trans (.putRecord d kind.code (b2n (d.uncertainAt time)) time payload none) (.rcd _ _)

theorem snapshot (d : Dev) (c : SnapCause) (origin : Nat) : d.TracesOnly (d.snapshot c origin) := by
  unfold Dev.snapshot
  extract_lets again written r e never close d1
  have he : d.TracesOnly e := .rcd d _
  have hd1 : e.TracesOnly d1 := .record e _ _ _
  clear_value d1
  have hlast (x : RecSt) : d1.TracesOnly (Dev.inc { d1 with rcd := x } 0x2601_03) := .trans (.rcd d1 x) (.inc _ (by decide))
  refine .ite (.refl d) (.ite (he.trans (.rcd e _)) (.ite (.ite he (he.trans ?_)) ((he.trans hd1).trans (hlast _))))
  exact .trans (.inc e (by decide)) (.flag _ 1 (by decide))

theorem startFlush (d : Dev) (reason : Nat) : d.TracesOnly (d.startFlush reason) := by
  unfold Dev.startFlush
  extract_lets seq payload n d1 d2 runs d3
  have hd1 : d.TracesOnly d1 := .putRecord d _ _ _ _ _
  have hd2 : d1.TracesOnly d2 := .trans (.inc d1 (by decide)) (.set _ _ (by decide))
  have hd3 : d2.TracesOnly d3 := .set d2 _ (by decide)
  clear_value d3
  exact hd1.trans (hd2.trans (hd3.trans (.rcd d3 _)))

theorem flushOn (d : Dev) (r : FlushReason) : d.TracesOnly (d.flushOn r) := by
  have hunsend : d.TracesOnly d.unsendAfterPowerFail := by
    unfold Dev.unsendAfterPowerFail
    exact .ite (.refl d) (.rcd d _)
  exact .ite (.refl d) (hunsend.trans (.startFlush _ _))

/-! ### Triggers -/

theorem triggerPkt (d : Dev) (c : TrigCause) (origin : Nat) (late : Bool) : d.TracesOnly (d.triggerPkt c origin late) :=
  .trc d _

theorem setFreeze (d : Dev) (c : TrigCause) (origin : Nat) : d.TracesOnly (d.setFreeze c origin) := by
  unfold Dev.setFreeze
  extract_lets d1 delay d2 t d3
  have hd2 : d.TracesOnly d2 := .trans (.trans (.triggerPkt d c origin false) (.set d1 _ (by decide))) (.set _ _ (by decide))
  have hd3 : d2.TracesOnly d3 := .trc d2 _
  exact .trans (hd2.trans hd3) (.trans (.trans (.set d3 _ (by decide)) (.set _ _ (by decide))) (.flag _ 2 (by decide)))

theorem takeOver (d : Dev) (c : TrigCause) (origin : Nat) : d.TracesOnly (d.takeOver c origin) := by
  unfold Dev.takeOver
  extract_lets late t e
  have he : d.TracesOnly e := .trc d _
  exact he.trans (.trans (.setFreeze e c origin) (.inc _ (by decide)))

theorem traceTrigger (d : Dev) (c : TrigCause) (origin : Nat) : d.TracesOnly (d.traceTrigger c origin) := by
  unfold Dev.traceTrigger
  split
  · exact .setFreeze d c origin
  · exact .ite (.takeOver d c origin) (.trans (.triggerPkt d c origin true) (.inc _ (by decide)))
  · exact .inc d (by decide)
  · exact .refl d

theorem trigger (d : Dev) (c : TrigCause) (origin : Nat) : d.TracesOnly (d.trigger c origin) :=
  .ite (.refl d) (.trans (.ite (.refl d) (.traceTrigger d c origin)) (.snapshot _ _ _))

theorem fatalFault (d : Dev) (code detail : Nat) : d.TracesOnly (d.fatalFault code detail) :=
  .trans (.record d _ _ _) (.trans (.trigger _ _ _) (.flushOn _ _))

/-! ### Selectors -/

theorem selectorHit (d : Dev) (k : Nat) : d.TracesOnly (d.selectorHit k) := by
  unfold Dev.selectorHit
  extract_lets i n e
  have he : d.TracesOnly e := .set d n (le_key 7 (by omega))
  clear_value e
  exact .ite (.refl d) (.ite he ((he.trans (.trc e _)).trans (.trigger _ _ _)))

theorem watchCycle (d : Dev) (t : Nat) (x : CycleEv) : d.TracesOnly (d.watchCycle t x) := by
  refine .foldl (fun d k => ?_) _ d
  extract_lets i ev h was tr e
  have he : d.TracesOnly e := .trc d _
  exact .ite (.refl d) (.ite (he.trans (.selectorHit e k)) he)

theorem watchPulse (d : Dev) (t ev tag : Nat) : d.TracesOnly (d.watchPulse t ev tag) := by
  refine .foldl (fun d k => ?_) _ d
  extract_lets i was tr e
  have he : d.TracesOnly e := .trc d _
  exact .ite (.refl d) (.ite (he.trans (.selectorHit e k)) he)

/-! ### Sources -/

theorem modSrc (d : Dev) (s : Nat) (f : TSource → TSource) : d.TracesOnly (d.modSrc s f) := .trc d _

theorem countPkt (d : Dev) (s : Nat) : d.TracesOnly (d.countPkt s) := .inc d (le_key 4 (by omega))

theorem enqueue (d : Dev) (s : Nat) (p : TPkt) : d.TracesOnly (d.enqueue s p) := .trans (.countPkt d s) (.modSrc _ s _)

theorem putOverflow (d : Dev) (s lost tag : Nat) (capture toCap : Bool) : d.TracesOnly (d.putOverflow s lost tag capture toCap) :=
  .trans (.trans (.trans (.trans (.trans (.enqueue d s _) (.enqueue _ s _)) (.modSrc _ s _)) (.always _ _ _))
    (.add _ _ (le_key 3 (by omega)))) (.flag _ _ (by decide))

theorem reportLoss (d : Dev) (s : Nat) : d.TracesOnly (d.reportLoss s) := by
  unfold Dev.reportLoss
  refine .ite (.refl d) ?_
  split
  · exact .trans (.modSrc d s _) (.putOverflow _ s _ _ _ _)
  · exact .ite (.trans (.modSrc d s _) (.putOverflow _ s _ _ _ _)) (.ite (.trans (.modSrc d s _) (.putOverflow _ s _ _ _ _)) (.refl d))

theorem loseCapture (d : Dev) (s n : Nat) : d.TracesOnly (d.loseCapture s n) := by
  unfold Dev.loseCapture
  split
  · exact .refl d
  · exact .trans (.trans (.modSrc d s _) (.trans (.inc _ (by decide)) (.flag _ _ (by decide)))) (.reportLoss _ s)

theorem makePkt (d : Dev) (s : Nat) (p : TPkt) : d.TracesOnly (d.makePkt s p) :=
  .ite (.enqueue d s p) (.ite (.trans (.countPkt d s) (.loseCapture _ s 1))
    (.ite (.trans (.countPkt d s) (.modSrc _ s _)) (.trans (.countPkt d s) (.modSrc _ s _))))

theorem digestPkt (d : Dev) (s : Nat) (k : DigestKind) (tag : Nat) (crc : BitVec 32) (bytes index : Nat) (cap : Option (Nat × Nat)) :
    d.TracesOnly (d.digestPkt s k tag crc bytes index cap) := .makePkt d s _

/-- A BEGIN as the trace sources of its tap take it. -/
theorem traceBegin (d : Dev) (t tag : Nat) : d.TracesOnly (d.traceBegin t tag) := by
  refine .foldl (fun d s => ?_) _ d
  extract_lets e
  have he : d.TracesOnly e := by
    show d.TracesOnly (match (d.srcAt s).arm with | some (want, mask) => _ | none => _)
    split
    · exact .ite (.modSrc d s _) (.refl d)
    · exact .refl d
  exact .ite (he.trans (.modSrc e s _)) he

/-- An END as the trace sources of its tap take it. -/
theorem traceEnd (d : Dev) (t tag begin : Nat) : d.TracesOnly (d.traceEnd t tag begin) := by
  refine .foldl (fun d s => ?_) _ d
  extract_lets x e
  have he : d.TracesOnly e := by
    show d.TracesOnly (match x.capture with | some c => _ | none => d)
    split
    · exact .trans (.digestPkt d s _ _ _ _ _ _)
        (.ite (.trans (.trans (.modSrc _ s _) (.inc _ (by decide))) (.always _ _ _)) (.refl _))
    · exact .refl d
  split
  · exact he.trans (.trans (.digestPkt e s _ _ _ _ _ _) (.modSrc _ s _))
  · exact he

end Dev.TracesOnly

end Sys2Proof.Machine
end

section
/-! SUPPORT. O16: commands on a tap and their records in the command log (R123, R135, R137 to R140). -/

namespace Sys2Proof.Machine

open Sys2Proof

/-! ### The commands held -/

/-- What a record and an END need of a held command: its tag and its BEGIN stamp. -/
def Held.mark (h : Held) : Nat × Nat := (h.tag, h.begin)

/-- The marks of the commands held, tap by tap. -/
def Dev.marks (d : Dev) : List (Option (Nat × Nat)) := d.tap.taps.map fun x => x.held.map Held.mark

theorem Dev.mark_tapAt (d : Dev) (t : Nat) : (d.tapAt t).held.map Held.mark = (d.marks[t]?).getD none := by
  unfold Dev.tapAt Dev.marks
  rw [List.getElem?_map]
  cases d.tap.taps[t]? <;> rfl

theorem Dev.held_eq_none_iff (d : Dev) (t : Nat) : (d.tapAt t).held = none ↔ (d.marks[t]?).getD none = none := by
  rw [← d.mark_tapAt, Option.map_eq_none_iff]

theorem Dev.held_of_marks (d : Dev) {t tag begin : Nat} (h : (d.marks[t]?).getD none = some (tag, begin)) :
    ∃ x, (d.tapAt t).held = some x ∧ x.tag = tag ∧ x.begin = begin := by
  rw [← d.mark_tapAt, Option.map_eq_some_iff] at h
  obtain ⟨x, hx, hmark⟩ := h
  exact ⟨x, hx, congrArg Prod.fst hmark, congrArg Prod.snd hmark⟩

theorem Dev.marks_congr {d d' : Dev} (h : d'.tap.taps = d.tap.taps) : d'.marks = d.marks := by rw [Dev.marks, h, Dev.marks]

theorem Dev.marks_modTap (d : Dev) (t : Nat) {f : Tap → Tap} (hf : ∀ x, (f x).held.map Held.mark = x.held.map Held.mark) :
    (d.modTap t f).marks = d.marks := by
  refine List.ext_getElem? fun n => ?_
  simp only [Dev.marks, Dev.modTap, List.getElem?_map, List.getElem?_modify]
  split <;> cases d.tap.taps[n]? <;> simp [hf]

/-- A tap that holds a command anew, or none. -/
theorem Dev.marks_modTap_held (d : Dev) {t : Nat} {f : Tap → Tap} {m : Option (Nat × Nat)} (ht : t < d.tap.taps.length)
    (hf : ∀ x, (f x).held.map Held.mark = m) : ((d.modTap t f).marks[t]?).getD none = m := by
  simp [Dev.marks, Dev.modTap, ht, hf]

/-! ### What leaves the log as it is -/

/-- The unit's time, the command log and the objects of its index are as they were. -/
structure Dev.LogKept (d d' : Dev) : Prop where
  time : d'.time = d.time
  log : d'.tap.log = d.tap.log
  lost : d'.tap.lost = d.tap.lost
  get : ∀ k, 0x210300 ≤ k → k < 0x210800 → d'.get k = d.get k

namespace Dev.LogKept

theorem refl (d : Dev) : d.LogKept d := ⟨rfl, rfl, rfl, fun _ _ _ => rfl⟩

theorem trans {a b c : Dev} (h : a.LogKept b) (h' : b.LogKept c) : a.LogKept c :=
  ⟨h'.time.trans h.time, h'.log.trans h.log, h'.lost.trans h.lost, fun k hlo hhi => (h'.get k hlo hhi).trans (h.get k hlo hhi)⟩

theorem of_traces {d d' : Dev} (h : d.TracesOnly d') : d.LogKept d' := by
  refine ⟨?_, ?_, ?_, fun k _ hhi => h.get k hhi⟩ <;> rw [h.keep]

theorem modTap (d : Dev) (t : Nat) (f : Tap → Tap) : d.LogKept (d.modTap t f) := ⟨rfl, rfl, rfl, fun _ _ _ => rfl⟩

theorem always (d : Dev) (sub n : Nat) : d.LogKept (d.always sub n) := .of_traces (.always d sub n)

/-- A flag of TapFlags that has a set-count. -/
theorem flag (d : Dev) {b : Nat} (hb : b < 32) : d.LogKept (d.flag 0x2101 b) :=
  ⟨by simp, by simp, by simp, fun k hlo hhi =>
    d.get_flag_of_ne k 0x2101 b (by unfold key; omega) (by unfold key; omega) (by unfold key; omega)⟩

theorem flagIf (d : Dev) (c : Bool) {b : Nat} (hb : b < 32) : d.LogKept (d.flagIf c 0x2101 b) := by
  unfold Dev.flagIf
  split
  · exact .flag d hb
  · exact .refl d

theorem stamp {d d' : Dev} (h : d.LogKept d') : d'.stamp = d.stamp := by rw [Dev.stamp, h.time, Dev.stamp]

end Dev.LogKept

/-! ### Cycles of a tap -/

/-- What a cycle counts, the command held gains slots and stays. -/
theorem Dev.marks_countCycle (d : Dev) (t : Nat) (x : CycleEv) : (d.countCycle t x).marks = d.marks := by
  refine (Dev.marks_congr (congrArg TapSt.taps (Dev.always_tap _ _ _))).trans (d.marks_modTap t fun y => ?_)
  show (y.held.map _).map Held.mark = _
  rw [Option.map_map]
  rfl

theorem Dev.marks_of_traces {d d' : Dev} (h : d.TracesOnly d') : d'.marks = d.marks := Dev.marks_congr (by rw [h.keep])

theorem Dev.marks_runCycle (d : Dev) (t : Nat) (x : CycleEv) : (d.runCycle t x).marks = d.marks :=
  (Dev.marks_of_traces (.watchCycle _ t x)).trans (d.marks_countCycle t x)

theorem Dev.LogKept.runCycle (d : Dev) (t : Nat) (x : CycleEv) : d.LogKept (d.runCycle t x) :=
  .trans (.trans (.modTap d t _) (.always _ _ _)) (.of_traces (.watchCycle _ t x))

/-- Cycles that come before a command's pulse leave the commands held and the log alone. -/
theorem Dev.runCycles_kept (d : Dev) (t : Nat) (cs : List Cycle) : (d.runCycles t cs).marks = d.marks ∧ d.LogKept (d.runCycles t cs) := by
  unfold Dev.runCycles
  induction cs generalizing d with
  | nil => exact ⟨rfl, .refl d⟩
  | cons c cs ih =>
    obtain ⟨hmarks, hlog⟩ := ih (d.runCycle t { c := c, held := (d.tapAt t).held.isSome })
    exact ⟨hmarks.trans (d.marks_runCycle t _), .trans (.runCycle d t _) hlog⟩

theorem Dev.length_marks (d : Dev) : d.marks.length = d.tap.taps.length := List.length_map _

/-! ### Records -/

/-- The log is enabled, reports no losses and has room for `n` bytes. -/
structure Dev.LogRoom (d : Dev) (n : Nat) : Prop where
  enabled : d.on 0x2103_01 = true
  lost : d.tap.lost = 0
  room : logFill d.tap.log + n ≤ d.get 0x2103_02

theorem Dev.LogRoom.of_kept {d d' : Dev} {n : Nat} (h : d.LogRoom n) (hkept : d.LogKept d') : d'.LogRoom n := by
  refine ⟨?_, hkept.lost.trans h.lost, ?_⟩
  · rw [Dev.on, hkept.get _ (by decide) (by decide)]
    exact h.enabled
  · rw [hkept.log, hkept.get _ (by decide) (by decide)]
    exact h.room

/-- A record that fits ends the log (R139). -/
theorem Dev.log_logPut {d : Dev} {r : LogRec} (h : d.LogRoom r.size) : (d.logPut r).tap.log = d.tap.log ++ [r] := by
  unfold Dev.logPut
  rw [if_neg (by simp [h.enabled]), if_pos (by simpa [h.lost] using h.room)]

/-- A record changes the log, and neither the commands held nor the time. -/
theorem Dev.logPut_kept (d : Dev) (r : LogRec) : (d.logPut r).marks = d.marks ∧ (d.logPut r).time = d.time := by
  unfold Dev.logPut
  split
  · exact ⟨rfl, rfl⟩
  · split
    · exact ⟨rfl, rfl⟩
    · exact ⟨Dev.marks_congr (by simp), by simp⟩

theorem Dev.logKind_mod (d : Dev) {kind : Nat} (overlap orphan sat : Bool) (h : kind < 16) :
    d.logKind kind overlap orphan sat % 16 = kind := by
  unfold Dev.logKind
  omega

/-! ### An END -/

/-- The unit as the END of its held command is logged. -/
def Dev.freed (d : Dev) (t : Nat) (h : Held) : Dev :=
  let aux := (d.stretchOf t + 2 ^ 64 - h.stretchAt) % 2 ^ 64
  ((d.modTap t fun x => { x with held := none }).always 0x24 1).flagIf
    ([h.retired, h.wasted, h.front, h.back, aux].any (· ≥ 2 ^ 32)) 0x2101 4

theorem Dev.LogKept.freed (d : Dev) (t : Nat) (h : Held) : d.LogKept (d.freed t h) :=
  .trans (.trans (.modTap d t _) (.always _ _ _)) (.flagIf _ _ (by decide))

theorem Dev.marks_freed (d : Dev) (t : Nat) (h : Held) : (d.freed t h).marks = (d.modTap t fun x => { x with held := none }).marks :=
  Dev.marks_congr (by unfold Dev.freed; simp)

/-- The END of a held command: its record enters the log, and the trace takes it (R137 to R139). -/
theorem Dev.endHeld_spec (d : Dev) (t tag : Nat) (h : Held) (overlap : Bool) : ∃ r : LogRec,
    ((d.freed t h).logPut r).TracesOnly (d.endHeld t tag h overlap) ∧ r.stamp = d.stamp ∧ r.tag = tag ∧ r.tap = t ∧ r.kind % 16 = 2 ∧
    r.value = (d.stamp - h.begin) / 8 % 2 ^ 32 ∧ r.slots.isSome = true := by
  have hstamp : (d.freed t h).stamp = d.stamp := (Dev.LogKept.freed d t h).stamp
  unfold Dev.endHeld
  extract_lets aux sat d1 d2 d3 d4
  refine ⟨_, .trans (.ite (.refl d4) (.watchPulse d4 t 5 tag)) (.traceEnd _ t tag h.begin), hstamp, rfl, rfl,
    d3.logKind_mod _ _ _ (by decide), ?_, rfl⟩
  show ((d.freed t h).stamp - h.begin) / 8 % 2 ^ 32 = _
  rw [hstamp]

theorem Dev.endHeld_time (d : Dev) (t tag : Nat) (h : Held) (overlap : Bool) : (d.endHeld t tag h overlap).time = d.time := by
  obtain ⟨r, htraces, -⟩ := d.endHeld_spec t tag h overlap
  rw [htraces.keep]
  exact ((d.freed t h).logPut_kept r).2.trans (Dev.LogKept.freed d t h).time

/-- After the END of its command a tap holds none, and the others hold theirs. -/
theorem Dev.endHeld_marks (d : Dev) (t tag : Nat) (h : Held) (overlap : Bool) :
    (d.endHeld t tag h overlap).marks = (d.modTap t fun x => { x with held := none }).marks := by
  obtain ⟨r, htraces, -⟩ := d.endHeld_spec t tag h overlap
  rw [Dev.marks_of_traces htraces, ((d.freed t h).logPut_kept r).1, d.marks_freed]

/-- A flag of a register stays when another one of it is set. -/
theorem Dev.testBit_flag_of_set (d : Dev) {i b c : Nat} (hc : c < 8) (hw : 8 ≤ d.cfg.width (key i 0)) (hi : key i 0 ≠ key 0x2108 0x22)
    (h : (d.get (key i 0)).testBit c = true) : ((d.flag i b).get (key i 0)).testBit c = true := by
  have hset : ((d.set (key i 0) (setBit (d.get (key i 0)) b)).get (key i 0)).testBit c = true := by
    rw [Dev.testBit_get_set _ (by omega) (by omega), testBit_setBit, h, ite_self]
  unfold Dev.flag
  dsimp only
  split
  · exact hset
  · have hne : key i 0 ≠ key (i + 1) (b + 1) := by unfold key; omega
    show ((Dev.always _ 0x22 1).get (key i 0)).testBit c = true
    rw [Dev.get_always_of_ne _ _ _ _ hi, Dev.get_set_of_ne _ _ _ _ hne]
    exact hset

theorem Dev.width_tapFlags (c : Cfg) : 8 ≤ c.width (key 0x2101 0) := (by decide : 8 ≤ minWidth (key 0x2101 0)).trans (minWidth_le c _)

/-- What a record does to the flags: one that is set stays (R140, R147). -/
theorem Dev.testBit_logPut (d : Dev) (r : LogRec) {c : Nat} (hc : c < 8) (h : (d.get 0x2101_00).testBit c = true) :
    ((d.logPut r).get 0x2101_00).testBit c = true := by
  unfold Dev.logPut
  split
  · exact h
  · split
    · exact h
    · refine Dev.testBit_flag_of_set _ hc (Dev.width_tapFlags _) (by decide) ?_
      show (((d.addMod 0x2103_04 1).always 0x26 1).get 0x2101_00).testBit c = true
      rw [Dev.get_always_of_ne _ _ _ _ (by decide), Dev.addMod, Dev.get_set_of_ne _ _ _ _ (by decide)]
      exact h

/-- An END with no command held sets its flag, and the commands held stay (R139). -/
theorem Dev.orphanEnd_spec (d : Dev) (t tag : Nat) :
    (d.orphanEnd t tag).marks = d.marks ∧ ((d.orphanEnd t tag).get 0x2101_00).testBit 2 = true := by
  unfold Dev.orphanEnd
  extract_lets d1 d2
  have hd1 : d1.marks = d.marks := Dev.marks_congr (by simp [d1])
  have hbit : (d1.get 0x2101_00).testBit 2 = true :=
    Dev.testBit_flag _ (i := 0x2101) (by decide) (Dev.width_tapFlags _) (by decide)
  have hwatch : d2.TracesOnly (d2.watchPulse t 5 tag) := .watchPulse d2 t 5 tag
  refine ⟨(Dev.marks_of_traces hwatch).trans ((d1.logPut_kept _).1.trans hd1), ?_⟩
  rw [hwatch.get _ (by decide)]
  exact d1.testBit_logPut _ (by decide) hbit

/-- The unit as the cycle of an END has run. -/
def Dev.atEnd (d : Dev) (t : Nat) (c : Cycle) : Dev :=
  (d.runCycle t { c := c, held := (d.tapAt t).held.isSome, fin := true }).modTap t fun x => { x with half := false }

theorem Dev.atEnd_kept (d : Dev) (t : Nat) (c : Cycle) : (d.atEnd t c).marks = d.marks ∧ d.LogKept (d.atEnd t c) :=
  ⟨(Dev.marks_modTap _ t (f := fun x => { x with half := false }) fun _ => rfl).trans (d.marks_runCycle t _), .trans (.runCycle d t _) (.modTap _ t _)⟩

/-- An END that is the only pulse of its cycle, of a command held. -/
theorem Dev.finish_of_held (d : Dev) {t : Nat} (tag : Nat) (c : Cycle) {h : Held} (hheld : ((d.atEnd t c).tapAt t).held = some h) :
    d.finish_ t tag c false = (d.atEnd t c).endHeld t tag h false := by
  show (match ((d.atEnd t c).tapAt t).held with | some h => _ | none => _) = _
  rw [hheld]
  rfl

/-- An END that is the only pulse of its cycle, with no command held. -/
theorem Dev.finish_of_none (d : Dev) {t : Nat} (tag : Nat) (c : Cycle) (hheld : ((d.atEnd t c).tapAt t).held = none) :
    d.finish_ t tag c false = (d.atEnd t c).orphanEnd t tag := by
  show (match ((d.atEnd t c).tapAt t).held with | some h => _ | none => _) = _
  rw [hheld]
  rfl

/-- CMD_END of a tap in a powered region, on a unit whose cycles before the pulse have run (R138, R139). -/
theorem Dev.finish_spec (d : Dev) {t : Nat} (tag : Nat) (c : Cycle) (ht : t < d.tap.taps.length) :
    ((d.finish_ t tag c false).tapAt t).held = none ∧
    ((d.tapAt t).held = none → ((d.finish_ t tag c false).get 0x2101_00).testBit 2 = true) ∧
    (∀ m, (d.marks[t]?).getD none = some m → d.LogRoom 32 →
      ∃ r, (d.finish_ t tag c false).tap.log = d.tap.log ++ [r] ∧ r.stamp = d.stamp ∧ r.tag = tag ∧ r.tap = t ∧
        r.kind % 16 = 2 ∧ r.value = (d.stamp - m.2) / 8 % 2 ^ 32 ∧ r.slots.isSome = true) := by
  obtain ⟨hmarks, hkept⟩ := d.atEnd_kept t c
  rw [d.held_eq_none_iff t, ← hmarks, ← Dev.mark_tapAt]
  have hlen : t < (d.atEnd t c).tap.taps.length := by rwa [← Dev.length_marks, hmarks, Dev.length_marks]
  rcases hheld : ((d.atEnd t c).tapAt t).held with _ | h
  · obtain ⟨horphan, hflag⟩ := (d.atEnd t c).orphanEnd_spec t tag
    rw [d.finish_of_none tag c hheld]
    refine ⟨?_, fun _ => hflag, fun m hm => absurd hm (by simp)⟩
    rw [Dev.held_eq_none_iff, horphan, ← Dev.held_eq_none_iff]
    exact hheld
  · rw [d.finish_of_held tag c hheld]
    refine ⟨?_, fun hnone => absurd hnone (by simp), fun m hm hroom => ?_⟩
    · rw [Dev.held_eq_none_iff, Dev.endHeld_marks]
      exact (d.atEnd t c).marks_modTap_held hlen fun _ => rfl
    · obtain rfl : h.mark = m := by simpa using hm
      obtain ⟨r, htraces, hstamp, htag, htap, hkind, hvalue, hslots⟩ := (d.atEnd t c).endHeld_spec t tag h false
      have hfreed : d.LogKept ((d.atEnd t c).freed t h) := hkept.trans (.freed _ t h)
      rw [hkept.stamp] at hstamp hvalue
      refine ⟨r, ?_, hstamp, htag, htap, hkind, hvalue, hslots⟩
      have hsize : r.size = 32 := if_pos hslots
      rw [htraces.keep]
      show (((d.atEnd t c).freed t h).logPut r).tap.log = _
      rw [Dev.log_logPut (by rw [hsize]; exact hroom.of_kept hfreed), hfreed.log]

/-! ### A BEGIN -/

/-- A command still held on a tap ends at the next BEGIN (R139). -/
def Dev.overlapped (d : Dev) (t : Nat) : Dev :=
  match (d.tapAt t).held with
  | some h => (d.flag 0x2101 3).endHeld t h.tag h true
  | none => d

/-- The tap holds the command, its cycle runs, and its counters with RESET_ON_BEGIN restart. -/
def Dev.opened (d : Dev) (t tag : Nat) (c : Cycle) (pair second : Bool) : Dev :=
  let d := d.modTap t fun x => { x with held := some { tag := tag, begin := d.stamp, stretchAt := d.stretchOf t }, half := false }
  let d := if second then d else d.runCycle t { c := c, held := true, begin := true, fin := pair }
  let d := d.modTap t fun x => { x with half := pair && !second }
  (d.resetOnBegin t).always 0x23 1

def Dev.beginRec (d : Dev) (t tag : Nat) : LogRec := ⟨d.stamp, tag, t, d.logKind 1 false false false, 0, 0, none⟩

/-- What follows the record of a BEGIN: the trace, and the arrival that the BarrierTap makes (R141). -/
def Dev.followed (d : Dev) (t tag : Nat) : Dev :=
  let d := d.watchPulse t 4 tag
  let d := d.traceBegin t tag
  if d.get 0x2103_05 = t && tag &&& d.get 0x2103_07 = d.get 0x2103_06 then
    d.arrive ((d.get 0x2103_08 + 1) % 2 ^ 32) t 0
  else d

theorem Dev.begin_eq (d : Dev) (t tag : Nat) (c : Cycle) (pair : Bool) : d.begin t tag c pair =
    let e := (d.overlapped t).opened t tag c pair (pair && (d.tapAt t).half)
    (e.logPut (e.beginRec t tag)).followed t tag := rfl

theorem Dev.overlapped_kept (d : Dev) (t : Nat) :
    (d.overlapped t).time = d.time ∧ (d.overlapped t).tap.taps.length = d.tap.taps.length := by
  unfold Dev.overlapped
  split
  · next h _ =>
    refine ⟨(Dev.endHeld_time _ _ _ _ _).trans (Dev.flag_time _ _ _), ?_⟩
    rw [← Dev.length_marks, Dev.endHeld_marks, Dev.length_marks, Dev.modTap, Dev.flag_tap]
    exact List.length_modify _ _ _
  · exact ⟨rfl, rfl⟩

/-- A tap holds the command that begins on it, with the stamp of its tick. -/
theorem Dev.opened_marks (d : Dev) {t : Nat} (tag : Nat) (c : Cycle) (pair second : Bool) (ht : t < d.tap.taps.length) :
    ((d.opened t tag c pair second).marks[t]?).getD none = some (tag, d.stamp) := by
  unfold Dev.opened
  extract_lets d1 d2 d3
  have hd1 : (d1.marks[t]?).getD none = some (tag, d.stamp) := d.marks_modTap_held ht fun _ => rfl
  have hd2 : d2.marks = d1.marks := by
    show Dev.marks (if second = true then d1 else _) = _
    split
    · rfl
    · exact d1.marks_runCycle t _
  have hd3 : d3.marks = d2.marks := d2.marks_modTap t fun _ => rfl
  have hreset : (d3.resetOnBegin t).marks = d3.marks := d3.marks_modTap t fun _ => rfl
  rw [Dev.marks_congr (congrArg TapSt.taps (Dev.always_tap _ _ _)), hreset, hd3, hd2, hd1]

theorem Dev.LogKept.opened (d : Dev) (t tag : Nat) (c : Cycle) (pair second : Bool) : d.LogKept (d.opened t tag c pair second) := by
  unfold Dev.opened
  extract_lets d1 d2 d3
  have hd1 : d.LogKept d1 := .modTap d t _
  have hd2 : d1.LogKept d2 := by
    show d1.LogKept (if second = true then d1 else _)
    split
    · exact .refl d1
    · exact .runCycle d1 t _
  exact .trans (.trans hd1 hd2) (.trans (.modTap d2 t _) (.trans (.modTap d3 t _) (.always _ _ _)))

/-- A message or a result leaves the taps alone. -/
theorem Dev.complete_tap (d : Dev) (i : Nat) (p : List (Nat × Nat)) : (d.complete i p).tap = d.tap := by
  unfold Dev.complete
  have hsends := Dev.Sends.notify (d.completeRes i p) i
  rw [hsends.keep]
  unfold Dev.completeRes
  dsimp only
  rw [Dev.setAll_objs]
  rfl

theorem Dev.arrive_marks (d : Dev) (step tap source : Nat) : (d.arrive step tap source).marks = d.marks := by
  unfold Dev.arrive
  split
  · exact Dev.marks_congr (by simp)
  · extract_lets x d1 d2 d3
    have hd2 : d2.marks = d.marks := Dev.marks_congr (by simp [d2, d1, x])
    rw [Dev.marks_congr (congrArg TapSt.taps (Dev.complete_tap _ _ _)), (d2.logPut_kept _).1, hd2]

/-- The tap goes on holding the command; its record stays the log's last unless the BarrierTap's arrival is made. -/
theorem Dev.followed_spec (d : Dev) (t tag : Nat) :
    (d.followed t tag).marks = d.marks ∧ (d.get 0x2103_05 ≠ t → (d.followed t tag).tap.log = d.tap.log) := by
  unfold Dev.followed
  extract_lets d1 d2
  have htraces : d.TracesOnly d2 := .trans (.watchPulse d t 4 tag) (.traceBegin d1 t tag)
  rw [htraces.get _ (by decide)]
  constructor
  · split
    · rw [Dev.arrive_marks, Dev.marks_of_traces htraces]
    · exact Dev.marks_of_traces htraces
  · intro hne
    rw [if_neg (by simp [hne]), htraces.keep]

/-- CMD_BEGIN of a tap in a powered region, on a unit whose cycles before the pulse have run (R135, R137). -/
theorem Dev.begin_spec (d : Dev) {t : Nat} (tag : Nat) (c : Cycle) (pair : Bool) (ht : t < d.tap.taps.length) :
    (∃ h, ((d.begin t tag c pair).tapAt t).held = some h ∧ h.tag = tag ∧ h.begin = d.stamp) ∧
    (d.LogRoom 16 → (d.tapAt t).held = none → d.get 0x2103_05 ≠ t →
      ∃ r, (d.begin t tag c pair).tap.log = d.tap.log ++ [r] ∧ r.stamp = d.stamp ∧ r.tag = tag ∧ r.tap = t ∧
        r.kind % 16 = 1 ∧ r.slots = none) := by
  rw [d.begin_eq]
  extract_lets e
  obtain ⟨htime, hlen⟩ := d.overlapped_kept t
  constructor
  · refine Dev.held_of_marks _ ?_
    rw [(Dev.followed_spec _ t tag).1, (e.logPut_kept _).1, (d.overlapped t).opened_marks tag c pair _ (by rwa [hlen])]
    unfold Dev.stamp
    rw [htime]
  · intro hroom hnone hbarrier
    have hkept : d.LogKept e := by
      have hsame : d.overlapped t = d := by rw [Dev.overlapped, hnone]
      have hopened : (d.overlapped t).LogKept e := .opened _ t tag c pair _
      rwa [hsame] at hopened
    refine ⟨e.beginRec t tag, ?_, hkept.stamp, rfl, rfl, e.logKind_mod _ _ _ (by decide), rfl⟩
    have hput : (e.logPut (e.beginRec t tag)).get 0x2103_05 ≠ t := by
      have hfits : e.LogRoom 16 := hroom.of_kept hkept
      unfold Dev.logPut
      rw [if_neg (by simp [hfits.enabled]), if_pos (by simpa [hfits.lost, LogRec.size, Dev.beginRec] using hfits.room)]
      show e.get _ ≠ t
      rwa [hkept.get _ (by decide) (by decide)]
    rw [(Dev.followed_spec _ t tag).2 hput, Dev.log_logPut (hroom.of_kept hkept), hkept.log]

/-! ### The commands -/

theorem Dev.lt_of_tapPowered {d : Dev} {t : Nat} (h : d.tapPowered t = true) : t < d.tap.taps.length := by
  unfold Dev.tapPowered at h
  simp only [Bool.and_eq_true, decide_eq_true_eq] at h
  exact h.1

theorem execCmdBegin_yields (s : State) (l : LeafId) (t tag : Nat) (pre : List Cycle) (c : Cycle) (p : Bool) (hruns : s.runs (.leaf l))
    (hpow : (s.dev (.leaf l)).tapPowered t = true) :
    Yields (exec (.cmdBegin l t tag pre c p) s) s (.leaf l) fun d =>
      (∃ h, (d.tapAt t).held = some h ∧ h.tag = tag % 65536 ∧ h.begin = (s.dev (.leaf l)).stamp) ∧
      ((s.dev (.leaf l)).on 0x2103_01 = true → (s.dev (.leaf l)).tap.lost = 0 →
        logFill (s.dev (.leaf l)).tap.log + 16 ≤ (s.dev (.leaf l)).get 0x2103_02 →
        ((s.dev (.leaf l)).tapAt t).held = none → (s.dev (.leaf l)).get 0x2103_05 ≠ t →
        ∃ r, d.tap.log = (s.dev (.leaf l)).tap.log ++ [r] ∧ r.stamp = (s.dev (.leaf l)).stamp ∧ r.tag = tag % 65536 ∧
          r.tap = t ∧ r.kind % 16 = 1 ∧ r.slots = none) := by
  show Yields (execCmdBegin l t tag pre c p s) s _ _
  unfold execCmdBegin State.onLeaf
  refine State.on_yields _ _ _ _ hruns ?_
  have hpow' : (s.unit (.leaf l)).tapPowered t = true := hpow
  rw [if_pos hpow']
  obtain ⟨hmarks, hkept⟩ := (s.unit (.leaf l)).runCycles_kept t pre
  have ht : t < ((s.unit (.leaf l)).runCycles t pre).tap.taps.length := by
    rw [← Dev.length_marks, hmarks, Dev.length_marks]
    exact Dev.lt_of_tapPowered hpow'
  have hfits (hon : (s.unit (.leaf l)).on 0x2103_01 = true) (hlost : (s.unit (.leaf l)).tap.lost = 0)
      (hroom : logFill (s.unit (.leaf l)).tap.log + 16 ≤ (s.unit (.leaf l)).get 0x2103_02) :
      ((s.unit (.leaf l)).runCycles t pre).LogRoom 16 := Dev.LogRoom.of_kept ⟨hon, hlost, hroom⟩ hkept
  obtain ⟨hheld, hlog⟩ := Dev.begin_spec _ (tag % 65536) c p ht
  rw [hkept.stamp, hkept.log, hkept.get _ (by decide) (by decide), Dev.held_eq_none_iff, hmarks, ← Dev.held_eq_none_iff] at hlog
  rw [hkept.stamp] at hheld
  exact ⟨hheld, fun hon hlost hroom hnone hbarrier => hlog (hfits hon hlost hroom) hnone hbarrier⟩

theorem execCmdEnd_yields (s : State) (l : LeafId) (t tag : Nat) (pre : List Cycle) (c : Cycle) (hruns : s.runs (.leaf l))
    (hpow : (s.dev (.leaf l)).tapPowered t = true) :
    Yields (exec (.cmdEnd l t tag pre c false) s) s (.leaf l) fun d =>
      (d.tapAt t).held = none ∧
      (((s.dev (.leaf l)).tapAt t).held = none → (d.get 0x2101_00).testBit 2 = true) ∧
      (∀ h, ((s.dev (.leaf l)).tapAt t).held = some h → (s.dev (.leaf l)).on 0x2103_01 = true →
        (s.dev (.leaf l)).tap.lost = 0 →
        logFill (s.dev (.leaf l)).tap.log + 32 ≤ (s.dev (.leaf l)).get 0x2103_02 →
        ∃ r, d.tap.log = (s.dev (.leaf l)).tap.log ++ [r] ∧ r.stamp = (s.dev (.leaf l)).stamp ∧ r.tag = tag % 65536 ∧
          r.tap = t ∧ r.kind % 16 = 2 ∧ r.value = ((s.dev (.leaf l)).stamp - h.begin) / 8 % 2 ^ 32 ∧
          r.slots.isSome = true) := by
  show Yields (execCmdEnd l t tag pre c false s) s _ _
  unfold execCmdEnd State.onLeaf
  refine State.on_yields _ _ _ _ hruns ?_
  have hpow' : (s.unit (.leaf l)).tapPowered t = true := hpow
  rw [if_pos hpow']
  obtain ⟨hmarks, hkept⟩ := (s.unit (.leaf l)).runCycles_kept t pre
  have ht : t < ((s.unit (.leaf l)).runCycles t pre).tap.taps.length := by
    rw [← Dev.length_marks, hmarks, Dev.length_marks]
    exact Dev.lt_of_tapPowered hpow'
  have hfits (hon : (s.unit (.leaf l)).on 0x2103_01 = true) (hlost : (s.unit (.leaf l)).tap.lost = 0)
      (hroom : logFill (s.unit (.leaf l)).tap.log + 32 ≤ (s.unit (.leaf l)).get 0x2103_02) :
      ((s.unit (.leaf l)).runCycles t pre).LogRoom 32 := Dev.LogRoom.of_kept ⟨hon, hlost, hroom⟩ hkept
  obtain ⟨hfree, hflag, hlog⟩ := Dev.finish_spec _ (tag % 65536) c ht
  rw [Dev.held_eq_none_iff, hmarks, ← Dev.held_eq_none_iff] at hflag
  rw [hkept.stamp, hkept.log, hmarks] at hlog
  refine ⟨hfree, hflag, fun h hheld hon hlost hroom => hlog h.mark ?_ (hfits hon hlost hroom)⟩
  have hheld' : ((s.unit (.leaf l)).tapAt t).held = some h := hheld
  rw [← Dev.mark_tapAt, hheld']
  rfl

/-- A tap of an unpowered region does nothing (R123). -/
theorem execCmd_unpowered (s : State) (l : LeafId) (t tag : Nat) (pre : List Cycle) (c : Cycle) (p : Bool) (hruns : s.runs (.leaf l))
    (hpow : (s.dev (.leaf l)).tapPowered t = false) :
    Yields (exec (.cmdBegin l t tag pre c p) s) s (.leaf l) (fun d => d = s.unit (.leaf l)) ∧
    Yields (exec (.cmdEnd l t tag pre c p) s) s (.leaf l) (fun d => d = s.unit (.leaf l)) := by
  have hpow' : ¬ (s.unit (.leaf l)).tapPowered t = true := fun h => Bool.false_ne_true (hpow.symm.trans h)
  show Yields (execCmdBegin l t tag pre c p s) s _ _ ∧ Yields (execCmdEnd l t tag pre c p s) s _ _
  unfold execCmdBegin execCmdEnd State.onLeaf
  constructor
  · refine State.on_yields _ _ _ _ hruns ?_
    rw [if_neg hpow']
  · refine State.on_yields _ _ _ _ hruns ?_
    rw [if_neg hpow']

theorem execLostRecord_yields (s : State) (l : LeafId) (hruns : s.runs (.leaf l)) (hlost : (s.dev (.leaf l)).tap.lost ≠ 0)
    (hon : (s.dev (.leaf l)).on 0x2103_01 = true)
    (hroom : logFill (s.dev (.leaf l)).tap.log + 16 ≤ (s.dev (.leaf l)).get 0x2103_02) :
    Yields (exec (.lostRecord l) s) s (.leaf l) fun d =>
      (∃ r, d.tap.log = (s.dev (.leaf l)).tap.log ++ [r] ∧ r.stamp = (s.dev (.leaf l)).stamp ∧ r.kind % 16 = 4 ∧
        r.value = (s.dev (.leaf l)).tap.lost % 2 ^ 32) ∧ d.tap.lost = 0 ∧
      d = { s.unit (.leaf l) with tap := { (s.dev (.leaf l)).tap with log := d.tap.log, lost := 0 } } := by
  show Yields (execLostRecord l s) s _ _
  unfold execLostRecord State.onLeaf
  refine State.on_yields _ _ _ _ hruns ?_
  have hon' : (s.unit (.leaf l)).on 0x2103_01 = true := hon
  have hidle : ¬ ((s.unit (.leaf l)).tap.lost = 0 || !(s.unit (.leaf l)).on 0x2103_01 ||
      logFill (s.unit (.leaf l)).tap.log + 16 > (s.unit (.leaf l)).get 0x2103_02) = true := by
    simpa [hon', not_lt] using ⟨hlost, hroom⟩
  rw [if_neg hidle]
  exact ⟨⟨_, rfl, rfl, (s.unit (.leaf l)).logKind_mod _ _ _ (by decide), rfl⟩, rfl, rfl⟩

/-- Settles O16: cycles leave the commands held and the log alone, a BEGIN or an END that fits ends the log, and what follows its
record leaves both alone. -/
theorem commandsOnATapAreLogged : Obligations.CommandsOnATapAreLogged :=
  ⟨execCmdBegin_yields, execCmdEnd_yields, execCmd_unpowered, execLostRecord_yields⟩

end Sys2Proof.Machine
end

section
/-! SUPPORT. O29: the scan of every tap, the shadow bank and the one-shot latch (R132, R250, R252). -/

namespace Sys2Proof.Machine

open Sys2Proof

/-! ### Scans -/

/-- The values of every tap's counters, a scan made now included (R131, R132). -/
def Dev.counters (d : Dev) : List (List Nat) := d.tap.taps.map fun t => (List.range 32).map t.counter

/-- A tap scanned now (R131, R134). -/
def Tap.scanned (t : Tap) : Tap := { t with ext := (List.range 32).map t.counter, last := t.raw, epoch := false, scanGap := 0 }

theorem Tap.counter_lt (t : Tap) (c : Nat) : t.counter c < 2 ^ 64 := by
  unfold Tap.counter
  exact Nat.mod_lt _ (by decide)

/-- A counter with nothing since its last scan. -/
theorem Tap.counter_of_read {t : Tap} (c : Nat) (hepoch : t.epoch = false) (hlast : t.last = t.raw) :
    t.counter c = t.ext.getD c 0 % 2 ^ 64 := by
  have hsame (n raw m w : Nat) : (n + (raw + m - raw) % m) % w = n % w := by
    rw [Nat.add_sub_cancel_left, Nat.mod_self, Nat.add_zero]
  unfold Tap.counter
  dsimp only
  rw [hepoch, hlast, if_neg Bool.false_ne_true, hsame]

/-- A scan leaves the value of each counter as it was. -/
theorem Tap.counter_scanned (t : Tap) {c : Nat} (hc : c < 32) : t.scanned.counter c = t.counter c := by
  have hmap (f : Nat → Nat) : ((List.range 32).map f).getD c 0 = f c := by
    rw [List.getD_eq_getElem?_getD, List.getElem?_map, List.getElem?_range hc]
    rfl
  have hext : t.scanned.ext.getD c 0 = t.counter c := hmap t.counter
  rw [Tap.counter_of_read c rfl rfl, hext, Nat.mod_eq_of_lt (t.counter_lt c)]

/-- From `d` to `d'` the hub has scanned taps: the counters' values, the frames' state and the objects of chapter 06 onwards stand, Status objects
of taps aside. -/
structure Dev.Scanned (d d' : Dev) : Prop where
  cfg : d'.cfg = d.cfg
  time : d'.time = d.time
  frm : d'.frm = d.frm
  counters : d'.counters = d.counters
  get : ∀ k, 0x260000 ≤ k → k % 256 ≠ 0x0B → d'.get k = d.get k

namespace Dev.Scanned

theorem refl (d : Dev) : d.Scanned d := ⟨rfl, rfl, rfl, rfl, fun _ _ _ => rfl⟩

theorem trans {a b c : Dev} (h : a.Scanned b) (h' : b.Scanned c) : a.Scanned c :=
  ⟨h'.cfg.trans h.cfg, h'.time.trans h.time, h'.frm.trans h.frm, h'.counters.trans h.counters,
    fun k hlo hsub => (h'.get k hlo hsub).trans (h.get k hlo hsub)⟩

theorem ite {d a b : Dev} {c : Prop} [Decidable c] (ha : d.Scanned a) (hb : d.Scanned b) : d.Scanned (if c then a else b) := by
  split
  · exact ha
  · exact hb

/-- A change of objects that are none of chapter 06 onwards, or a Status of a tap. -/
theorem of_tap {d d' : Dev} (hcfg : d'.cfg = d.cfg) (htime : d'.time = d.time) (hfrm : d'.frm = d.frm) (htap : d'.tap = d.tap)
    (hget : ∀ k, 0x260000 ≤ k → k % 256 ≠ 0x0B → d'.get k = d.get k) : d.Scanned d' :=
  ⟨hcfg, htime, hfrm, by rw [Dev.counters, htap, Dev.counters], hget⟩

theorem sets (d : Dev) (l : List (Nat × Nat)) : d.Scanned { d with sets := l } := .of_tap rfl rfl rfl rfl fun _ _ _ => rfl

theorem always (d : Dev) {sub : Nat} (n : Nat) (hsub : sub < 256) : d.Scanned (d.always sub n) :=
  .of_tap (by simp) (by simp) (by simp) (by simp) fun k hlo _ => d.get_always_of_ne k sub n (by unfold key; omega)

theorem flag (d : Dev) {b : Nat} (hb : b < 255) : d.Scanned (d.flag 0x2101 b) :=
  .of_tap (by simp) (by simp) (by simp) (by simp) fun k hlo _ =>
    d.get_flag_of_ne k 0x2101 b (by unfold key; omega) (by unfold key; omega) (by unfold key; omega)

theorem setStatus (d : Dev) (t v : Nat) : d.Scanned (d.set (key (0x2300 + t) 0x0B) v) :=
  .of_tap rfl rfl rfl rfl fun k _ hsub => d.get_set_of_ne k _ v (by unfold key; omega)

theorem tapFlag (d : Dev) (t : Nat) {b : Nat} (hb : b < 255) : d.Scanned (d.tapFlag t b) := by
  unfold Dev.tapFlag
  extract_lets k d1 d2
  have hd1 : d.Scanned d1 := .setStatus d t _
  have hd2 : d1.Scanned d2 := .ite (.refl d1) (.trans (.sets d1 _) (.always _ 1 (by decide)))
  exact hd1.trans (hd2.trans (.flag d2 hb))

theorem modTap (d : Dev) (t : Nat) : d.Scanned (d.modTap t Tap.scanned) := by
  refine ⟨rfl, rfl, rfl, List.ext_getElem? fun n => ?_, fun _ _ _ => rfl⟩
  have hscan (x : Tap) : (List.range 32).map x.scanned.counter = (List.range 32).map x.counter :=
    List.map_congr_left fun c hc => x.counter_scanned (List.mem_range.mp hc)
  simp only [Dev.counters, Dev.modTap, List.getElem?_map, List.getElem?_modify]
  split <;> cases d.tap.taps[n]? <;> simp [hscan]

theorem scanTap (d : Dev) (t : Nat) : d.Scanned (d.scanTap t) := by
  unfold Dev.scanTap
  extract_lets x limit d1 d2
  have hd1 : d.Scanned d1 := .ite (.trans (.tapFlag d t (by decide)) (.always _ 1 (by decide))) (.refl d)
  have hd2 : d1.Scanned d2 := .ite (.tapFlag d1 t (by decide)) (.refl d1)
  exact .ite (.refl d) (hd1.trans (hd2.trans (.modTap d2 t)))

theorem scanTaps (d : Dev) : d.Scanned d.scanTaps := by
  unfold Dev.scanTaps
  generalize List.range d.tap.taps.length = l
  induction l generalizing d with
  | nil => exact .refl d
  | cons t ts ih => exact .trans (.scanTap d t) (ih (d.scanTap t))

theorem stamp {d d' : Dev} (h : d.Scanned d') : d'.stamp = d.stamp := by rw [Dev.stamp, h.time, Dev.stamp]

end Dev.Scanned

/-! ### The shadow bank -/

/-- Objects set one after the other. -/
theorem Dev.setEach_spec (f g : Nat → Nat) (l : List Nat) (d : Dev) :
    (∃ o, l.foldl (fun (d : Dev) n => d.set (f n) (g n)) d = { d with objs := o }) ∧
    ∀ k, (∀ n ∈ l, k ≠ f n) → (l.foldl (fun (d : Dev) n => d.set (f n) (g n)) d).get k = d.get k := by
  induction l generalizing d with
  | nil => exact ⟨⟨d.objs, rfl⟩, fun _ _ => rfl⟩
  | cons n ns ih =>
    obtain ⟨⟨o, ho⟩, hget⟩ := ih (d.set (f n) (g n))
    refine ⟨⟨o, ho⟩, fun k hk => ?_⟩
    rw [List.foldl_cons, hget k fun m hm => hk m (List.mem_cons_of_mem _ hm), Dev.get_set_of_ne _ _ _ _ (hk n List.mem_cons_self)]

/-- A bank latch in a tick that has one already: a one-shot gives it its cause (R250). -/
theorem Dev.bankLatch_again (d : Dev) (cause : Nat) (h : d.frm.bankTick = some d.time.tick) :
    d.bankLatch cause = if cause = 1 then d.set 0x2708_04 1 else d := if_pos h

/-- The unit as its bank takes its first latch of a tick, before the objects of the bank show it. -/
def Dev.banked (d : Dev) : Dev :=
  let d := d.scanTaps
  { d with frm := { d.frm with
    bankTick := some d.time.tick
    shadow := d.tap.taps.map fun (t : Tap) => (List.range 32).map t.counter
    shadowAo := (List.range 64).map fun n => d.alwaysAt (n + 1) } }

/-- The unit with the stamp and the cause of its bank. -/
def Dev.bankNoted (d : Dev) (cause : Nat) : Dev :=
  let d := ((d.addMod 0x2708_02 1).set 0x2708_03 d.stamp).set 0x2708_04 cause
  d.setB 0x2708_05 d.uncertain

theorem Dev.bankLatch_anew (d : Dev) (cause : Nat) (h : d.frm.bankTick ≠ some d.time.tick) : ∃ g : Nat → Nat,
    d.bankLatch cause = (List.range 8).foldl (fun (d : Dev) n => d.set (key 0x2708 (6 + n)) (g n)) (d.banked.bankNoted cause) :=
  ⟨fun n => field ((d.banked.bankNoted cause).tapBits (d.banked.bankNoted cause).staleTap) (32 * n + 31) (32 * n), if_neg h⟩

/-- The first bank latch of a tick: every tap's counters, the stamp and the cause (R132, R250). -/
theorem Dev.bankLatch_first (d : Dev) {cause : Nat} (h : d.frm.bankTick ≠ some d.time.tick) (hcause : cause < 256)
    (hstamp : d.stamp < 2 ^ 64) :
    (d.bankLatch cause).frm.shadow = d.counters ∧ (d.bankLatch cause).frm.bankTick = some d.time.tick ∧
    (d.bankLatch cause).get 0x2708_03 = d.stamp ∧ (d.bankLatch cause).get 0x2708_04 = cause := by
  have hscan := Dev.Scanned.scanTaps d
  have hbstamp : d.banked.stamp = d.stamp := hscan.stamp
  obtain ⟨g, hg⟩ := d.bankLatch_anew cause h
  obtain ⟨⟨o, ho⟩, hget⟩ := (d.banked.bankNoted cause).setEach_spec (fun n => key 0x2708 (6 + n)) g (List.range 8)
  have hkey (k : Nat) (hk : k < 0x270806) : ∀ n ∈ List.range 8, k ≠ key 0x2708 (6 + n) := fun n _ => by unfold key; omega
  rw [hg, hget _ (hkey _ (by decide)), hget _ (hkey _ (by decide)), ho]
  refine ⟨hscan.counters, ?_, ?_, ?_⟩
  · show some d.scanTaps.time.tick = _
    rw [hscan.time]
  · unfold Dev.bankNoted
    rw [Dev.get_setB_of_ne _ _ _ _ (by decide), Dev.get_set_of_ne _ _ _ _ (by decide), hbstamp]
    exact Dev.get_set_fits _ _ _ (hstamp.trans_le (by decide))
  · unfold Dev.bankNoted
    rw [Dev.get_setB_of_ne _ _ _ _ (by decide)]
    exact Dev.get_set_byte _ _ _ hcause

/-- A bank latch keeps the schedules, the time and the objects of the schedules, Generation aside. -/
theorem Dev.bankLatch_kept (d : Dev) (cause : Nat) :
    (d.bankLatch cause).frm.scheds = d.frm.scheds ∧ (d.bankLatch cause).frm.oneShot = d.frm.oneShot ∧
    (d.bankLatch cause).time = d.time ∧
    ∀ k, 0x260000 ≤ k → k % 256 ≠ 0x0B → k / 256 ≠ 0x2708 → (d.bankLatch cause).get k = d.get k := by
  by_cases h : d.frm.bankTick = some d.time.tick
  · rw [d.bankLatch_again cause h]
    split
    · exact ⟨rfl, rfl, rfl, fun k _ _ hbank => d.get_set_of_ne k _ 1 fun hk => hbank (by rw [hk])⟩
    · exact ⟨rfl, rfl, rfl, fun _ _ _ _ => rfl⟩
  · have hscan := Dev.Scanned.scanTaps d
    obtain ⟨g, hg⟩ := d.bankLatch_anew cause h
    obtain ⟨⟨o, ho⟩, hget⟩ := (d.banked.bankNoted cause).setEach_spec (fun n => key 0x2708 (6 + n)) g (List.range 8)
    refine ⟨?_, ?_, ?_, fun k hlo hsub hbank => ?_⟩
    · rw [hg, ho]
      show d.scanTaps.frm.scheds = _
      rw [hscan.frm]
    · rw [hg, ho]
      show d.scanTaps.frm.oneShot = _
      rw [hscan.frm]
    · rw [hg, ho]
      exact hscan.time
    · have hnoted : d.banked.KeptOutside [0x2708] (d.banked.bankNoted cause) :=
        .trans (.trans (.trans (.set _ _ (by decide)) (.set _ _ (by decide))) (.set _ _ (by decide))) (.set _ _ (by decide))
      have hstale : ∀ n ∈ List.range 8, k ≠ key 0x2708 (6 + n) := fun n hn hk => by
        have hlt := List.mem_range.mp hn
        exact hbank (by rw [hk, key_div (by omega)])
      rw [hg, hget k hstale, hnoted k (by simpa using hbank)]
      exact hscan.get k hlo hsub

/-! ### The one-shot latch -/

theorem execOneShotLatch_yields (s : State) (l : LeafId) (t : Nat) (_ : s.built) (hruns : s.runs (.leaf l))
    (hshot : (s.dev (.leaf l)).frm.oneShot = some t) (hdue : t ≤ (s.dev (.leaf l)).stamp) (halive : (s.dev (.leaf l)).time.dead = false)
    (hstamp : (s.dev (.leaf l)).stamp < 2 ^ 64) :
    Yields (exec (.oneShotLatch l) s) s (.leaf l) fun d =>
      d.frm.oneShot = none ∧ d.get 0x2708_04 = 1 ∧ d.frm.scheds = (s.dev (.leaf l)).frm.scheds ∧
      ((s.dev (.leaf l)).frm.bankTick ≠ some (s.dev (.leaf l)).time.tick → d.get 0x2708_03 = (s.dev (.leaf l)).stamp ∧
        d.frm.bankTick = some (s.dev (.leaf l)).time.tick ∧
        d.frm.shadow = (s.dev (.leaf l)).tap.taps.map fun t => (List.range 32).map t.counter) ∧
      ((s.dev (.leaf l)).frm.bankTick = some (s.dev (.leaf l)).time.tick → (s.unit (.leaf l)).objectsKept d [0x2708_04]) := by
  show Yields (execOneShotLatch l s) s _ _
  unfold execOneShotLatch State.onLeaf
  refine State.on_yields _ _ _ _ hruns ?_
  set d := s.unit (.leaf l) with hd
  have hshot' : d.frm.oneShot = some t := hshot
  have hwait : ¬ (d.stamp < t || d.time.dead) = true := by
    have hdue' : t ≤ d.stamp := hdue
    have halive' : d.time.dead = false := halive
    simp [hdue', halive']
  rw [hshot']
  dsimp only
  rw [if_neg hwait]
  obtain ⟨hscheds, honce, -, -⟩ := Dev.bankLatch_kept { d with frm := { d.frm with oneShot := none } } 1
  refine ⟨honce, ?_, hscheds, fun hfirst => ?_, fun hagain => ?_⟩
  · by_cases hbank : d.frm.bankTick = some d.time.tick
    · rw [Dev.bankLatch_again _ 1 (by exact hbank), if_pos rfl]
      exact Dev.get_set_byte _ _ _ (by decide)
    · exact (Dev.bankLatch_first { d with frm := { d.frm with oneShot := none } } hbank (by decide) hstamp).2.2.2
  · obtain ⟨hshadow, hbank, hat, -⟩ :=
      Dev.bankLatch_first (cause := 1) { d with frm := { d.frm with oneShot := none } } hfirst (by decide) hstamp
    exact ⟨hat, hbank, hshadow⟩
  · rw [Dev.bankLatch_again _ 1 (by exact hagain), if_pos rfl]
    exact fun k hk => Dev.get_set_of_ne { d with frm := { d.frm with oneShot := none } } k _ 1 (List.ne_of_not_mem_cons hk)

end Sys2Proof.Machine
end

section
/-! SUPPORT. O29: the latch of a schedule's window and the frame built of it (R244, R246, R254 to R259, R268, R271). -/

namespace Sys2Proof.Machine

open Sys2Proof

/-! ### Schedules -/

theorem Dev.sched_modSched (d : Dev) {s : Nat} (f : Sched → Sched) (h : s < d.frm.scheds.length) :
    (d.modSched s f).sched s = f (d.sched s) := by
  simp [Dev.sched, Dev.modSched, h]

/-- A change of a schedule that does not reach a field of it. -/
theorem Dev.sched_modSched_field {β : Type} (d : Dev) (s n : Nat) {f : Sched → Sched} (g : Sched → β) (hf : ∀ x, g (f x) = g x) :
    g ((d.modSched s f).sched n) = g (d.sched n) := by
  simp only [Dev.sched, Dev.modSched, List.getElem?_modify]
  split <;> cases d.frm.scheds[n]? <;> simp [hf]

theorem Dev.length_modSched (d : Dev) (s : Nat) (f : Sched → Sched) : (d.modSched s f).frm.scheds.length = d.frm.scheds.length :=
  List.length_modify _ _ _

theorem Dev.sched_congr {d d' : Dev} (h : d'.frm.scheds = d.frm.scheds) (s : Nat) : d'.sched s = d.sched s := by
  rw [Dev.sched, h, Dev.sched]

/-- A waiting frame of a schedule is one that the schedules, the queue of frames or the transfer in flight hold (R268). -/
theorem Dev.holdsWaiting_congr {d d' : Dev} (hwaiting : ∀ n, (d'.sched n).waiting = (d.sched n).waiting) (harb : d'.arb = d.arb) (s : Nat) :
    d'.holdsWaiting s = d.holdsWaiting s := by
  simp only [Dev.holdsWaiting, Dev.heldFrames, Dev.queue, hwaiting, harb]

/-- Window, Seq and Skipped of a schedule are u32. -/
theorem schedKey_width : ∀ s < 4, ∀ sub ∈ [0x0F, 0x10, 0x12], minWidth (schedKey s sub) = 32 := by decide

theorem schedKey_inj {s a b : Nat} (h : schedKey s a = schedKey s b) : a = b := key_inj h

theorem schedKey_div {s sub : Nat} (hsub : sub < 256) : schedKey s sub / 256 = 0x2701 + s := key_div hsub

/-! ### The latch -/

/-- A schedule that takes its latch tick. -/
def Dev.ticked (d : Dev) (s : Nat) : Dev := d.modSched s fun x => { x with lastTick := some d.time.tick }

/-- LATE is noted at the latch of the lead schedule (R269). -/
def Dev.noted (d : Dev) (s : Nat) : Dev := if s = d.get 0x2700_03 then d.noteLate else d

/-- What a schedule that does not stop does at its latch tick (R268, R271). -/
def Dev.latchOrSkip (d : Dev) (s k : Nat) (merged : Bool) : Dev :=
  if d.archive s && d.frm.ladder.step ≥ 1 then d
  else if d.holdsWaiting s then (d.inc (schedKey s 0x12)).flag 0x2709 1
  else d.takeLatch s k merged

/-- The extremes of an interval start anew, except at the odd windows of a doubled schedule. -/
def Dev.extremesAnew (d : Dev) (s k : Nat) : Dev :=
  if d.doubled s && k % 2 = 1 then d else d.modSched s fun x => { x with vmin := [], cmax := [] }

theorem Dev.latchSched_stopping (d : Dev) {s : Nat} (k : Nat) (merged : Bool) (h : (d.sched s).stopping = true) :
    d.latchSched s k merged = ((d.ticked s).set (schedKey s 1) 0).modSched s fun x =>
      { x with active := false, stopping := false, rebind := none } := if_pos h

theorem Dev.latchSched_active (d : Dev) {s : Nat} (k : Nat) (merged : Bool) (h : (d.sched s).stopping = false) :
    d.latchSched s k merged = (((d.ticked s).noted s).latchOrSkip s k merged).extremesAnew s k :=
  if_neg (by simp [h])

theorem Dev.noted_eq (d : Dev) (s : Nat) : ∃ x, d.noted s = { d with frm := { d.frm with ladder := x } } := by
  unfold Dev.noted
  split
  · unfold Dev.noteLate
    split
    · exact ⟨_, rfl⟩
    · exact ⟨d.frm.ladder, rfl⟩
  · exact ⟨d.frm.ladder, rfl⟩

/-- The extremes are neither the latch nor its tick. -/
theorem Dev.extremesAnew_kept (d : Dev) (s k : Nat) :
    ((d.extremesAnew s k).sched s).lastTick = (d.sched s).lastTick ∧ ((d.extremesAnew s k).sched s).latch = (d.sched s).latch ∧
    (∀ j, (d.extremesAnew s k).get j = d.get j) ∧ (d.extremesAnew s k).frm.shadow = d.frm.shadow := by
  unfold Dev.extremesAnew
  split
  · exact ⟨rfl, rfl, fun _ => rfl, rfl⟩
  · exact ⟨d.sched_modSched_field s s Sched.lastTick fun _ => rfl, d.sched_modSched_field s s Sched.latch fun _ => rfl, fun _ => rfl, rfl⟩

theorem Dev.rebound_kept (d : Dev) (s group gen at_ : Nat) :
    (d.rebound s group gen at_).time = d.time ∧ (d.rebound s group gen at_).frm = d.frm := by
  unfold Dev.rebound
  exact ⟨Dev.record_time d _ _ _, Dev.record_frm d _ _ _⟩

/-- A Rebind that applies leaves the time, the latch ticks and the number of schedules alone (R266). -/
theorem Dev.applyRebind_kept (d : Dev) (s k : Nat) :
    (d.applyRebind s k).time = d.time ∧ ((d.applyRebind s k).sched s).lastTick = (d.sched s).lastTick ∧
    (d.applyRebind s k).frm.scheds.length = d.frm.scheds.length := by
  unfold Dev.applyRebind
  split
  · next at_ part gen group _ =>
    split
    · exact ⟨rfl, rfl, rfl⟩
    · extract_lets d1 d2
      have ⟨htime, hfrm⟩ := d.rebound_kept s group gen at_
      have htime1 : d1.time = d.time := htime
      have hfrm1 : d1.frm = d.frm := hfrm
      clear_value d1
      have hfrm2 : d2.frm = d.frm := hfrm1
      refine ⟨htime1, ?_, (d2.length_modSched s _).trans ?_⟩
      · refine Eq.trans (d2.sched_modSched_field s s Sched.lastTick ?_) (by rw [Dev.sched_congr (congrArg FrameSt.scheds hfrm2)])
        exact fun _ => rfl
      · rw [hfrm2]
  · exact ⟨rfl, rfl, rfl⟩

theorem Dev.applyRebind_none (d : Dev) {s : Nat} (k : Nat) (h : (d.sched s).rebind = none) : d.applyRebind s k = d := by
  rw [Dev.applyRebind, h]

/-- The unit as a schedule holds its latch, before the bank takes one. -/
theorem Dev.takeLatch_eq (d : Dev) (s k : Nat) (merged : Bool) : ∃ x : FrameLatch,
    x.window = k ∧ x.stamp = (d.applyRebind s k).scanTaps.stamp ∧ x.merged = merged ∧
    d.takeLatch s k merged =
      let e := ((d.applyRebind s k).scanTaps.set (schedKey s 0x0F) k).modSched s fun y => { y with latch := some x }
      if e.on (schedKey s 0x0E) then e.bankLatch (0x10 + s) else e := ⟨_, rfl, rfl, rfl, rfl⟩

/-- A bank latch, if there is one, keeps what a schedule's latch has set. -/
theorem Dev.ite_bankLatch_kept (d : Dev) (c : Bool) (cause : Nat) :
    (if c then d.bankLatch cause else d).frm.scheds = d.frm.scheds ∧
    ∀ k, 0x260000 ≤ k → k % 256 ≠ 0x0B → k / 256 ≠ 0x2708 → (if c then d.bankLatch cause else d).get k = d.get k := by
  split
  · obtain ⟨hscheds, -, -, hget⟩ := d.bankLatch_kept cause
    exact ⟨hscheds, hget⟩
  · exact ⟨rfl, fun _ _ _ _ => rfl⟩

/-- The bank holds the counters of a latch at once (R132, R250). -/
theorem Dev.bankLatch_shadow (d : Dev) (cause : Nat) (h : d.frm.bankTick ≠ some d.time.tick) :
    (d.bankLatch cause).frm.shadow = d.counters := by
  obtain ⟨g, hg⟩ := d.bankLatch_anew cause h
  obtain ⟨⟨o, ho⟩, -⟩ := (d.banked.bankNoted cause).setEach_spec (fun n => key 0x2708 (6 + n)) g (List.range 8)
  rw [hg, ho]
  exact (Dev.Scanned.scanTaps d).counters

/-- A schedule takes its latch of window `k` (R244, R250). -/
theorem Dev.takeLatch_spec (d : Dev) {s k : Nat} (merged : Bool) (hs : s < 4) (hlen : d.frm.scheds.length = 4) (hk : k < 2 ^ 32) :
    ((d.takeLatch s k merged).sched s).lastTick = (d.sched s).lastTick ∧ (d.takeLatch s k merged).get (schedKey s 0x0F) = k ∧
    (∃ x, ((d.takeLatch s k merged).sched s).latch = some x ∧ x.window = k ∧ x.stamp = d.stamp ∧ x.merged = merged) ∧
    ((d.sched s).rebind = none → d.get (schedKey s 0x0E) = 1 → d.frm.bankTick ≠ some d.time.tick →
      (d.takeLatch s k merged).frm.shadow = d.counters) := by
  obtain ⟨htime, htick, hlen'⟩ := d.applyRebind_kept s k
  obtain ⟨x, hwin, hstamp, hmerged, heq⟩ := d.takeLatch_eq s k merged
  have hscan := Dev.Scanned.scanTaps (d.applyRebind s k)
  set d1 := (d.applyRebind s k).scanTaps with hd1
  set e := (d1.set (schedKey s 0x0F) k).modSched s fun y => { y with latch := some x } with he
  have hsched : e.sched s = { d.applyRebind s k |>.sched s with latch := some x } := by
    have hlt : s < (d1.set (schedKey s 0x0F) k).frm.scheds.length := by
      show s < d1.frm.scheds.length
      rw [hscan.frm, hlen', hlen]
      exact hs
    rw [he, Dev.sched_modSched _ _ hlt]
    show ({ d1.sched s with latch := some x } : Sched) = _
    rw [Dev.sched_congr (congrArg FrameSt.scheds hscan.frm)]
  obtain ⟨hscheds, hget⟩ := e.ite_bankLatch_kept (e.on (schedKey s 0x0E)) (0x10 + s)
  have htaken : (d.takeLatch s k merged).sched s = { d.applyRebind s k |>.sched s with latch := some x } := by
    rw [heq, ← hsched]
    exact Dev.sched_congr hscheds s
  refine ⟨?_, ?_, ⟨x, ?_, hwin, ?_, hmerged⟩, fun hrebind hbank hfirst => ?_⟩
  · rw [htaken]
    exact htick
  · have hfits : k < 2 ^ minWidth (schedKey s 0x0F) := by rwa [schedKey_width s hs _ (by decide)]
    rw [heq]
    exact (hget _ (by unfold schedKey key; omega) (by unfold schedKey key; omega) (by unfold schedKey key; omega)).trans
      (Dev.get_set_fits d1 _ _ hfits)
  · rw [htaken]
  · rw [hstamp, hscan.stamp, Dev.stamp, htime, Dev.stamp]
  · have hsame : d.applyRebind s k = d := d.applyRebind_none k hrebind
    have hscan' : d.Scanned d1 := by rwa [hsame] at hscan
    have hon : e.on (schedKey s 0x0E) = true := by
      have hkeep : d1.get (schedKey s 0x0E) = 1 :=
        (hscan'.get _ (by unfold schedKey key; omega) (by unfold schedKey key; omega)).trans hbank
      have hset : e.get (schedKey s 0x0E) = 1 :=
        (Dev.get_set_of_ne d1 _ _ k fun h => absurd (schedKey_inj h) (by decide)).trans hkeep
      simp [Dev.on, hset]
    rw [heq]
    dsimp only
    rw [hon, if_pos rfl]
    have hanew : e.frm.bankTick ≠ some e.time.tick := by
      show d1.frm.bankTick ≠ some d1.time.tick
      rwa [hscan'.frm, hscan'.time]
    exact (e.bankLatch_shadow _ hanew).trans hscan'.counters

end Sys2Proof.Machine
end

section
/-! SUPPORT. O29: the latch and the building of frames, as the commands have them (R244, R254, R258, R259, R268, R271). -/

namespace Sys2Proof.Machine

open Sys2Proof

/-! ### LATCH -/

theorem Dev.ticked_sched (d : Dev) {s : Nat} (hs : s < d.frm.scheds.length) :
    (d.ticked s).sched s = { d.sched s with lastTick := some d.time.tick } := d.sched_modSched _ hs

/-- A schedule that stops is idle and disabled at its latch tick (R246). -/
theorem Dev.latchSched_stops (d : Dev) {s : Nat} (k : Nat) (m : Bool) (hs : s < d.frm.scheds.length) (hstop : (d.sched s).stopping = true) :
    (d.latchSched s k m).sched s =
      { d.sched s with lastTick := some d.time.tick, active := false, stopping := false, rebind := none } ∧
    (d.latchSched s k m).get (schedKey s 1) = 0 ∧ d.objectsKept (d.latchSched s k m) [schedKey s 1] := by
  have hlen : s < ((d.ticked s).set (schedKey s 1) 0).frm.scheds.length := hs.trans_eq (d.length_modSched s _).symm
  rw [d.latchSched_stopping k m hstop]
  refine ⟨?_, Dev.get_set_byte (d.ticked s) _ 0 (by decide), fun j hj => ?_⟩
  · rw [Dev.sched_modSched _ _ hlen]
    show ({ (d.ticked s).sched s with active := false, stopping := false, rebind := none } : Sched) = _
    rw [d.ticked_sched hs]
  · exact Dev.get_set_of_ne (d.ticked s) j _ 0 (List.ne_of_not_mem_cons hj)

/-- At the latch tick of a schedule, before it latches or skips: the schedule has its tick, and neither its objects, nor its class, nor the
frames that wait are touched. -/
theorem Dev.noted_ticked (d : Dev) {s : Nat} (hs : s < d.frm.scheds.length) :
    ((d.ticked s).noted s).sched s = { d.sched s with lastTick := some d.time.tick } ∧
    ((d.ticked s).noted s).frm.scheds.length = d.frm.scheds.length ∧
    ((d.ticked s).noted s).objs = d.objs ∧ ((d.ticked s).noted s).time = d.time ∧ ((d.ticked s).noted s).tap = d.tap ∧
    ((d.ticked s).noted s).frm.bankTick = d.frm.bankTick ∧ ((d.ticked s).noted s).cfg = d.cfg ∧
    ((d.ticked s).noted s).holdsWaiting s = d.holdsWaiting s := by
  obtain ⟨x, hx⟩ := (d.ticked s).noted_eq s
  rw [hx]
  refine ⟨d.ticked_sched hs, d.length_modSched s _, rfl, rfl, rfl, rfl, rfl, ?_⟩
  refine Dev.holdsWaiting_congr (fun n => d.sched_modSched_field s n Sched.waiting ?_) rfl s
  exact fun _ => rfl

/-- A schedule whose frame still waits counts the skip (R268). -/
theorem Dev.skip_spec (d : Dev) {s : Nat} (hs : s < 4) (hroom : d.get (schedKey s 0x12) + 1 < 2 ^ 32) :
    ((d.inc (schedKey s 0x12)).flag 0x2709 1).get (schedKey s 0x12) = d.get (schedKey s 0x12) + 1 ∧
    (((d.inc (schedKey s 0x12)).flag 0x2709 1).get 0x2709_00).testBit 1 = true ∧
    ((d.inc (schedKey s 0x12)).flag 0x2709 1).sched s = d.sched s := by
  have hwidth : minWidth (schedKey s 0x12) = 32 := schedKey_width s hs _ (by decide)
  refine ⟨?_, Dev.testBit_flag _ (i := 0x2709) (by decide) (width_ge_8 _ _) (by decide), Dev.sched_congr (by simp) s⟩
  rw [Dev.get_flag_of_ne _ _ _ _ (by unfold schedKey key; omega) (by unfold schedKey key; omega) (by unfold schedKey key; omega)]
  exact Dev.get_inc_self d _ (by rwa [hwidth])

/-- What the latch tick of window `k` leaves of a schedule (R244, R246, R250, R268). -/
def Dev.LatchSpec (d : Dev) (s k : Nat) (m : Bool) (d' : Dev) : Prop :=
  (d'.sched s).lastTick = some d.time.tick ∧
  ((d.sched s).stopping = true →
    d'.get (schedKey s 1) = 0 ∧ (d'.sched s).active = false ∧ (d'.sched s).latch = (d.sched s).latch ∧ d.objectsKept d' [schedKey s 1]) ∧
  ((d.sched s).stopping = false → d.get (schedKey s 6) ≠ 1 → d.holdsWaiting s = true → d.get (schedKey s 0x12) + 1 < 2 ^ 32 →
    d'.get (schedKey s 0x12) = d.get (schedKey s 0x12) + 1 ∧ (d'.get 0x2709_00).testBit 1 = true ∧ (d'.sched s).latch = (d.sched s).latch) ∧
  ((d.sched s).stopping = false → d.get (schedKey s 6) ≠ 1 → d.holdsWaiting s = false →
    d'.get (schedKey s 0x0F) = k ∧ (∃ x, (d'.sched s).latch = some x ∧ x.window = k ∧ x.stamp = d.stamp ∧ x.merged = m) ∧
    ((d.sched s).rebind = none → d.get (schedKey s 0x0E) = 1 → d.frm.bankTick ≠ some d.time.tick → d'.frm.shadow = d.counters))

/-- Latched or skipped, a schedule keeps the tick that it took. -/
theorem Dev.latchOrSkip_lastTick (d : Dev) {s k : Nat} (m : Bool) (hs : s < 4) (hlen : d.frm.scheds.length = 4) (hk : k < 2 ^ 32) :
    ((d.latchOrSkip s k m).sched s).lastTick = (d.sched s).lastTick := by
  unfold Dev.latchOrSkip
  split
  · rfl
  · split
    · exact congrArg Sched.lastTick (Dev.sched_congr (by simp) s)
    · exact (d.takeLatch_spec m hs hlen hk).1

theorem Dev.latchOrSkip_skips (d : Dev) {s : Nat} (k : Nat) (m : Bool) (hclass : d.get (schedKey s 6) ≠ 1) (hwait : d.holdsWaiting s = true) :
    d.latchOrSkip s k m = (d.inc (schedKey s 0x12)).flag 0x2709 1 := by
  rw [Dev.latchOrSkip, if_neg (by simp [Dev.archive, hclass]), if_pos hwait]

theorem Dev.latchOrSkip_latches (d : Dev) {s : Nat} (k : Nat) (m : Bool) (hclass : d.get (schedKey s 6) ≠ 1) (hwait : d.holdsWaiting s = false) :
    d.latchOrSkip s k m = d.takeLatch s k m := by
  rw [Dev.latchOrSkip, if_neg (by simp [Dev.archive, hclass]), if_neg (by simp [hwait])]

theorem Dev.latchSched_spec (d : Dev) {s k : Nat} (m : Bool) (hs : s < 4) (hlen : d.frm.scheds.length = 4) (hk : k < 2 ^ 32) :
    d.LatchSpec s k m (d.latchSched s k m) := by
  cases hstop : (d.sched s).stopping with
  | true =>
    obtain ⟨hsched, hget, hkept⟩ := d.latchSched_stops k m (hs.trans_eq hlen.symm) hstop
    exact ⟨by rw [hsched], fun _ => ⟨hget, by rw [hsched], by rw [hsched], hkept⟩, fun h => by simp [hstop] at h, fun h => by simp [hstop] at h⟩
  | false =>
    rw [d.latchSched_active k m hstop]
    obtain ⟨hsched, hlen', hobjs, htime, htap, hbank, hcfg, hwaits⟩ := d.noted_ticked (hs.trans_eq hlen.symm)
    set e := (d.ticked s).noted s
    have hget (j : Nat) : e.get j = d.get j := by rw [Dev.get, hobjs, hcfg, Dev.get]
    obtain ⟨htick, hlatch, hgets, hshadow⟩ := (e.latchOrSkip s k m).extremesAnew_kept s k
    refine ⟨?_, fun h => by simp [hstop] at h, fun _ hclass hwait hroom => ?_, fun _ hclass hwait => ?_⟩
    · rw [htick, e.latchOrSkip_lastTick m hs (hlen'.trans hlen) hk, hsched]
    · obtain ⟨hcount, hflag, hsame⟩ := e.skip_spec hs (by rwa [hget])
      rw [hgets, hgets, hlatch, e.latchOrSkip_skips k m (by rwa [hget]) (hwaits.trans hwait), hcount, hget, hsame, hsched]
      exact ⟨rfl, hflag, rfl⟩
    · obtain ⟨-, hwindow, ⟨x, hx, hwin, hstamp, hmerged⟩, hbanked⟩ := e.takeLatch_spec m hs (hlen'.trans hlen) hk
      rw [hgets, hlatch, hshadow, e.latchOrSkip_latches k m (by rwa [hget]) (hwaits.trans hwait)]
      refine ⟨hwindow, ⟨x, hx, hwin, by rw [hstamp, Dev.stamp, htime, Dev.stamp], hmerged⟩, fun hrebind hon hfirst => ?_⟩
      have hcounters : e.counters = d.counters := by rw [Dev.counters, htap, Dev.counters]
      rw [hbanked (by rw [hsched]; exact hrebind) (by rwa [hget]) (by rwa [hbank, htime]), hcounters]

/-- What LATCH of a due window leaves (R244, R246, R250, R268). -/
theorem execLatch_yields (s : State) (l : LeafId) (sc k : Nat) (m : Bool) (_ : s.built) (hruns : s.runs (.leaf l)) (hsc : sc < 4)
    (hlen : (s.dev (.leaf l)).frm.scheds.length = 4) (hactive : ((s.dev (.leaf l)).sched sc).active = true)
    (honce : ((s.dev (.leaf l)).sched sc).lastTick ≠ some (s.dev (.leaf l)).time.tick)
    (hdue : (s.dev (.leaf l)).dueWindow sc = some (k, m)) (hk : k < 2 ^ 32) :
    Yields (exec (.latch l sc) s) s (.leaf l) fun d =>
      (d.sched sc).lastTick = some (s.dev (.leaf l)).time.tick ∧
      (((s.dev (.leaf l)).sched sc).stopping = true →
        d.get (schedKey sc 1) = 0 ∧ (d.sched sc).active = false ∧ (d.sched sc).latch = ((s.dev (.leaf l)).sched sc).latch ∧
        (s.unit (.leaf l)).objectsKept d [schedKey sc 1]) ∧
      (((s.dev (.leaf l)).sched sc).stopping = false → (s.dev (.leaf l)).get (schedKey sc 6) ≠ 1 → (s.dev (.leaf l)).holdsWaiting sc = true →
        (s.dev (.leaf l)).get (schedKey sc 0x12) + 1 < 2 ^ 32 →
        d.get (schedKey sc 0x12) = (s.dev (.leaf l)).get (schedKey sc 0x12) + 1 ∧ (d.get 0x2709_00).testBit 1 = true ∧
        (d.sched sc).latch = ((s.dev (.leaf l)).sched sc).latch) ∧
      (((s.dev (.leaf l)).sched sc).stopping = false → (s.dev (.leaf l)).get (schedKey sc 6) ≠ 1 → (s.dev (.leaf l)).holdsWaiting sc = false →
        d.get (schedKey sc 0x0F) = k ∧
        (∃ x, (d.sched sc).latch = some x ∧ x.window = k ∧ x.stamp = (s.dev (.leaf l)).stamp ∧ x.merged = m) ∧
        (((s.dev (.leaf l)).sched sc).rebind = none → (s.dev (.leaf l)).get (schedKey sc 0x0E) = 1 →
          (s.dev (.leaf l)).frm.bankTick ≠ some (s.dev (.leaf l)).time.tick →
          d.frm.shadow = (s.dev (.leaf l)).tap.taps.map fun t => (List.range 32).map t.counter)) := by
  show Yields (execLatch l sc s) s _ _
  unfold execLatch State.onLeaf
  refine State.on_yields _ _ _ _ hruns ?_
  change (Dev.sched (s.unit (.leaf l)) sc).active = true at hactive
  change (Dev.sched (s.unit (.leaf l)) sc).lastTick ≠ some (s.unit (.leaf l)).time.tick at honce
  change Dev.dueWindow (s.unit (.leaf l)) sc = _ at hdue
  change (s.unit (.leaf l)).frm.scheds.length = 4 at hlen
  show Dev.LatchSpec (s.unit (.leaf l)) sc k m _
  generalize s.unit (.leaf l) = d at *
  dsimp only
  rw [hdue, if_neg (by simp [hactive, honce])]
  exact d.latchSched_spec m hsc hlen hk

end Sys2Proof.Machine
end

section
/-! SUPPORT. O29: the building of a frame (R254, R258, R259, R270, R271). -/

namespace Sys2Proof.Machine

open Sys2Proof

/-! ### The leaf ladder -/

/-- The indices of the objects that a decision of the leaf ladder writes: its flags and counters, and those of a record. -/
def ladderIndices : List Nat := [0x2709, 0x270A, 0x270B] ++ recordIndices

/-- From `d` to `d'` the leaf ladder has moved: time and schedules stand. -/
structure Dev.LadderMoved (d d' : Dev) : Prop where
  time : d'.time = d.time
  scheds : d'.frm.scheds = d.frm.scheds
  get : d.KeptOutside ladderIndices d'

namespace Dev.LadderMoved

theorem refl (d : Dev) : d.LadderMoved d := ⟨rfl, rfl, .refl d⟩

theorem trans {a b c : Dev} (h : a.LadderMoved b) (h' : b.LadderMoved c) : a.LadderMoved c :=
  ⟨h'.time.trans h.time, h'.scheds.trans h.scheds, h.get.trans h'.get⟩

theorem ite {d a b : Dev} {c : Prop} [Decidable c] (ha : d.LadderMoved a) (hb : d.LadderMoved b) : d.LadderMoved (if c then a else b) := by
  split
  · exact ha
  · exact hb

theorem modLadder (d : Dev) (f : Ladder → Ladder) : d.LadderMoved (d.modLadder f) := ⟨rfl, rfl, fun _ _ => rfl⟩

theorem inc (d : Dev) {k : Nat} (hk : k / 256 ∈ ladderIndices) : d.LadderMoved (d.inc k) := ⟨by simp, by simp, .inc d hk⟩

theorem flag (d : Dev) {b : Nat} (hb : b < 255) : d.LadderMoved (d.flag 0x2709 b) :=
  ⟨by simp, by simp, .flag d hb (by decide) (by decide) (by decide)⟩

theorem flagIf (d : Dev) (c : Bool) {b : Nat} (hb : b < 255) : d.LadderMoved (d.flagIf c 0x2709 b) := by
  unfold Dev.flagIf
  exact ite (flag d hb) (refl d)

theorem always (d : Dev) : d.LadderMoved (d.always 0x2B 1) := ⟨by simp, by simp, .always d 1 (by decide) (by decide)⟩

theorem levelSat (d : Dev) (dir window : Nat) : d.LadderMoved (d.levelSat dir window) := by
  have hrecord (e : Dev) (p : Bytes) : e.LadderMoved (e.record .levelSat d.stamp p) :=
    ⟨by simp, by simp, (Dev.KeptOutside.record e .levelSat _ p).mono (by decide)⟩
  exact .trans (flag d (by decide)) (hrecord _ _)

theorem toStep (d : Dev) (step window : Nat) : d.LadderMoved (d.toStep step window) := by
  unfold Dev.toStep
  extract_lets old d1
  have hd1 : d.LadderMoved d1 := .trans (modLadder d _) (always _)
  exact .ite (.refl d) (.ite (hd1.trans (.trans (inc d1 (by decide)) (levelSat _ 1 window)))
    (hd1.trans (.trans (inc d1 (by decide)) (levelSat _ 2 window))))

theorem decideLadder (d : Dev) (window : Nat) : d.LadderMoved (d.decideLadder window) := by
  unfold Dev.decideLadder
  extract_lets x host causes clear1 clear2 flagged sat1 sat2 decided
  have hflagged : d.LadderMoved flagged := .trans (.trans (flagIf d _ (by decide)) (flagIf _ _ (by decide))) (flagIf _ _ (by decide))
  have hclear : d.LadderMoved clear1 := modLadder d _
  have hclear2 : d.LadderMoved clear2 := hclear.trans (modLadder clear1 _)
  have hsat1 : d.LadderMoved sat1 := hflagged.trans (.trans (inc flagged (by decide)) (modLadder _ _))
  have hsat2 : d.LadderMoved sat2 := hsat1.trans (.ite (levelSat sat1 3 window) (toStep sat1 _ window))
  have hdecided : d.LadderMoved decided :=
    .ite (.refl d) (.ite (.ite hclear (.ite hclear2 (hclear2.trans (toStep clear2 _ window)))) (.ite hsat1 (hsat2.trans (modLadder sat2 _))))
  split
  · exact hdecided.trans (.trans (.ite (toStep decided _ window) (.refl decided)) (modLadder _ _))
  · exact hdecided

theorem leadBuild (d : Dev) (window : Nat) : d.LadderMoved (d.leadBuild window) :=
  .trans (decideLadder d window) (modLadder _ _)

end Dev.LadderMoved

/-! ### The frame -/

section
variable (h : FrameHead) (sections : Bytes)

theorem FrameHead.frame_format : natAt (h.frame sections) 0 1 = 1 := by
  simp [FrameHead.frame, natAt_leBytes]

theorem FrameHead.frame_sched : natAt (h.frame sections) 1 1 = h.sched % 4 := by
  have hbyte : h.sched % 4 % 256 = h.sched % 4 := by omega
  simp [FrameHead.frame, natAt_skip, natAt_leBytes, length_leBytes, hbyte]

theorem FrameHead.frame_seq : natAt (h.frame sections) 12 4 = h.seq % 2 ^ 32 := by
  simp [FrameHead.frame, natAt_skip, natAt_leBytes, length_leBytes]

theorem FrameHead.frame_window : natAt (h.frame sections) 16 4 = h.window % 2 ^ 32 := by
  simp [FrameHead.frame, natAt_skip, natAt_leBytes, length_leBytes]

theorem FrameHead.frame_stamp : natAt (h.frame sections) 20 4 = h.stamp % 2 ^ 32 := by
  simp [FrameHead.frame, natAt_skip, natAt_leBytes, length_leBytes]

end

/-- From `d` to `d'` a schedule has built one frame of a latch: it waits, and its header names the next Seq, the window and the latch's
stamp. The latch itself is left as it is. -/
def Dev.Built (d : Dev) (s : Nat) (lt : FrameLatch) (d' : Dev) : Prop :=
  (d'.sched s).latch = (d.sched s).latch ∧ d'.get (schedKey s 0x10) = nextSeq (d.get (schedKey s 0x10)) ∧
  ∃ f h sections, (d'.sched s).waiting = (d.sched s).waiting ++ [f] ∧ f.built = d.time.tick ∧ f.raw = FrameHead.frame h sections ∧
    h.sched = s ∧ h.seq = nextSeq (d.get (schedKey s 0x10)) ∧ h.window = lt.window ∧ h.stamp = ft32 lt.stamp

/-- What the leaf ladder notes is no object and no schedule (R269). -/
theorem Dev.ite_modLadder_kept (d : Dev) (c : Prop) [Decidable c] (f : Ladder → Ladder) :
    (if c then d.modLadder f else d).frm.scheds = d.frm.scheds ∧ ∀ k, (if c then d.modLadder f else d).get k = d.get k := by
  split <;> exact ⟨rfl, fun _ => rfl⟩

/-- The next Seq of a schedule is noted, then the frame is counted (R259). -/
theorem Dev.get_seq_counted (d : Dev) {s : Nat} (n : Nat) (hs : s < 4) :
    ((d.set (schedKey s 0x10) (nextSeq n)).inc (schedKey s 0x11)).get (schedKey s 0x10) = nextSeq n := by
  have hwidth : minWidth (schedKey s 0x10) = 32 := schedKey_width s hs _ (by decide)
  have hne : schedKey s 0x10 ≠ schedKey s 0x11 := fun h => absurd (schedKey_inj h) (by decide)
  rw [Dev.inc, Dev.get_add_of_ne _ _ _ _ hne]
  exact Dev.get_set_fits _ _ _ (by rw [hwidth]; exact nextSeq_lt n)

theorem Dev.buildFrame_built (d : Dev) {s : Nat} (lt : FrameLatch) (hs : s < 4) (hlen : d.frm.scheds.length = 4) :
    d.Built s lt (d.buildFrame s lt) := by
  unfold Dev.buildFrame
  extract_lets x lead budget sel below step arr cmd first prev gap resync seq d0 tap0
  have hseq : d0.get (schedKey s 0x10) = seq := d.get_seq_counted _ hs
  have hfrm : d0.frm = d.frm := by simp [d0]
  split
  extract_lets arrOver arrivals wide summary fixed used logging
  split
  extract_lets cmdOver sections flags head raw built d1 d2 d3
  have hd2 : d2.sched s = _ := Dev.sched_modSched d1 _ (by show s < d0.frm.scheds.length; rw [hfrm, hlen]; exact hs)
  have hd1 : d1.sched s = d.sched s := Dev.sched_congr (congrArg FrameSt.scheds hfrm) s
  rw [hd1] at hd2
  obtain ⟨hscheds3, hget3⟩ := d2.ite_modLadder_kept (wide = true)
    fun x => if x.built = some d2.time.tick then { x with oversize := true } else { x with overNext := true }
  obtain ⟨hscheds4, hget4⟩ := d3.ite_modLadder_kept lead
    fun x => { x with backlog := (cmdOver || arrOver) && logFill _ > 32768 }
  have hsched := (Dev.sched_congr (hscheds4.trans hscheds3) s).trans hd2
  refine ⟨?_, (hget4 _).trans ((hget3 _).trans hseq), built, head, _, ?_, rfl, rfl, rfl, rfl, rfl, rfl⟩
  · rw [hsched]
  · rw [hsched]

/-- The latch of a schedule is used up for one frame more that waits (R254, R258, R259). -/
def Dev.LatchUsed (d : Dev) (s : Nat) (x : FrameLatch) (d' : Dev) : Prop :=
  (d'.sched s).latch = none ∧ d'.get (schedKey s 0x10) = nextSeq (d.get (schedKey s 0x10)) ∧
  ∃ f, (d'.sched s).waiting = (d.sched s).waiting ++ [f] ∧ f.built = d.time.tick ∧ natAt f.raw 0 1 = 1 ∧
    natAt f.raw 1 1 = s ∧ natAt f.raw 12 4 = nextSeq (d.get (schedKey s 0x10)) ∧
    natAt f.raw 16 4 = x.window % 2 ^ 32 ∧ natAt f.raw 20 4 = x.stamp % 2 ^ 32

/-- FRAME_BUILD of a latch builds its frame and uses the latch up (R254, R258). -/
theorem execFrameBuild_yields (s : State) (l : LeafId) (sc : Nat) (x : FrameLatch) (_ : s.built) (hruns : s.runs (.leaf l)) (hsc : sc < 4)
    (hlen : (s.dev (.leaf l)).frm.scheds.length = 4) (hlatch : ((s.dev (.leaf l)).sched sc).latch = some x)
    (hdue : x.stamp + 8 ≤ (s.dev (.leaf l)).stamp) (hpf : (s.dev (.leaf l)).pfActive = false) (hquick : (s.dev (.leaf l)).quickset = false)
    (heven : x.window % 2 = 0)
    (hclass : (s.dev (.leaf l)).get (schedKey sc 6) ≠ 1 ∨ ((s.dev (.leaf l)).frm.ladder.step = 0 ∧ (s.dev (.leaf l)).get 0x2700_03 ≠ sc)) :
    Yields (exec (.frameBuild l sc) s) s (.leaf l) fun d =>
      (d.sched sc).latch = none ∧ d.get (schedKey sc 0x10) = nextSeq ((s.dev (.leaf l)).get (schedKey sc 0x10)) ∧
      ∃ f, (d.sched sc).waiting = ((s.dev (.leaf l)).sched sc).waiting ++ [f] ∧ f.built = (s.dev (.leaf l)).time.tick ∧ natAt f.raw 0 1 = 1 ∧
        natAt f.raw 1 1 = sc ∧ natAt f.raw 12 4 = nextSeq ((s.dev (.leaf l)).get (schedKey sc 0x10)) ∧
        natAt f.raw 16 4 = x.window % 2 ^ 32 ∧ natAt f.raw 20 4 = x.stamp % 2 ^ 32 := by
  show Yields (execFrameBuild l sc s) s _ _
  unfold execFrameBuild State.onLeaf
  refine State.on_yields _ _ _ _ hruns ?_
  show (s.unit (.leaf l)).LatchUsed sc x _
  change (Dev.sched (s.unit (.leaf l)) sc).latch = some x at hlatch
  change x.stamp + 8 ≤ (s.unit (.leaf l)).stamp at hdue
  change (s.unit (.leaf l)).frm.scheds.length = 4 at hlen
  change (s.unit (.leaf l)).pfActive = false at hpf
  change (s.unit (.leaf l)).quickset = false at hquick
  change (s.unit (.leaf l)).get _ ≠ 1 ∨ (s.unit (.leaf l)).frm.ladder.step = 0 ∧ (s.unit (.leaf l)).get _ ≠ sc at hclass
  generalize s.unit (.leaf l) = d at *
  rw [hlatch]
  dsimp only
  set e := d.modSched sc fun x => { x with latch := none }
  have hesched : e.sched sc = { d.sched sc with latch := none } := d.sched_modSched _ (hsc.trans_eq hlen.symm)
  have hpf' : e.pfActive = false := hpf
  have hquick' : e.quickset = false := hquick
  rw [if_neg (by omega), if_neg (by simp [hpf', hquick'])]
  have hmoved : e.LadderMoved (if sc = e.get 0x2700_03 then e.leadBuild x.window else e) := .ite (.leadBuild e _) (.refl e)
  have hstep : e.archive sc = true → (if sc = e.get 0x2700_03 then e.leadBuild x.window else e).frm.ladder.step = 0 := fun harch => by
    obtain ⟨hzero, hlead⟩ := hclass.resolve_left (not_not_intro (of_decide_eq_true harch))
    rw [if_neg (show sc ≠ e.get 0x2700_03 from hlead.symm)]
    exact hzero
  generalize (if sc = e.get 0x2700_03 then e.leadBuild x.window else e) = e' at hmoved hstep ⊢
  have hget (sub : Nat) (hsub : sub < 256) : e'.get (schedKey sc sub) = d.get (schedKey sc sub) := by
    refine hmoved.get _ ?_
    rw [schedKey_div hsub]
    unfold ladderIndices recordIndices
    simp
    omega
  have harch : e'.archive sc = e.archive sc := congrArg (fun n => decide (n = 1)) (hget 6 (by decide))
  have hbuilds : ¬ ((e'.archive sc && decide (e'.frm.ladder.step ≥ 1)) || (e'.doubled sc && decide (x.window % 2 = 1))) = true := by
    cases ha : e.archive sc <;> simp [harch, ha, heven]
    exact hstep ha
  rw [if_neg hbuilds]
  have hesched' : e'.sched sc = { d.sched sc with latch := none } := (Dev.sched_congr hmoved.scheds sc).trans hesched
  obtain ⟨hkept, hseq, f, h, sections, hwait, hbuilt, hraw, hid, hno, hwin, hstamp⟩ :=
    e'.buildFrame_built x hsc (by rw [hmoved.scheds]; exact (d.length_modSched sc _).trans hlen)
  rw [hget 0x10 (by decide)] at hseq hno
  refine ⟨by rw [hkept, hesched'], hseq, f, by rw [hwait, hesched'], hbuilt.trans (congrArg TimeSt.tick hmoved.time), ?_⟩
  rw [hraw, FrameHead.frame_format, FrameHead.frame_sched, FrameHead.frame_seq, FrameHead.frame_window, FrameHead.frame_stamp,
    hid, hno, hwin, hstamp, Nat.mod_eq_of_lt hsc, Nat.mod_eq_of_lt (nextSeq_lt _), ft32, Nat.mod_mod]
  exact ⟨rfl, rfl, rfl, rfl, rfl⟩

/-- Settles O29: the latch tick of a schedule by its three cases (it stops, its frame still waits, it latches), the build by what the leaf
ladder and the frame's header are made of, the one-shot by the bank's first or later latch of a tick. -/
theorem latchesFillTheShadowBankAndBuildFrames : Obligations.LatchesFillTheShadowBankAndBuildFrames :=
  ⟨execLatch_yields, execFrameBuild_yields, execOneShotLatch_yields⟩

end Sys2Proof.Machine
end

section
/-! SUPPORT. O57: what leaves the loader, Layering, the board flash and the objects of firmware as they are: messages to leaves, faults, pool
pages and links. -/

namespace Sys2Proof.Machine

open Sys2Proof

/-- From `d` to `d'` the loader, Layering, the board flash and a thermal trip stand, and so do the objects below 0x1F80; what the unit has
sent, it has sent. -/
structure Dev.FirmwareKept (d d' : Dev) : Prop where
  cfg : d'.cfg = d.cfg
  tk : d'.tk.load = d.tk.load ∧ d'.tk.layer = d.tk.layer ∧ d'.tk.flash = d.tk.flash ∧ d'.tk.tripped = d.tk.tripped
  out : d.out <+: d'.out
  get : ∀ k < 0x1F8000, d'.get k = d.get k

namespace Dev.FirmwareKept

theorem refl (d : Dev) : d.FirmwareKept d := ⟨rfl, ⟨rfl, rfl, rfl, rfl⟩, List.prefix_refl _, fun _ _ => rfl⟩

theorem trans {a b c : Dev} (h : a.FirmwareKept b) (h' : b.FirmwareKept c) : a.FirmwareKept c := by
  obtain ⟨hload, hlayer, hflash, htrip⟩ := h.tk
  obtain ⟨hload', hlayer', hflash', htrip'⟩ := h'.tk
  exact ⟨h'.cfg.trans h.cfg, ⟨hload'.trans hload, hlayer'.trans hlayer, hflash'.trans hflash, htrip'.trans htrip⟩,
    h.out.trans h'.out, fun k hk => (h'.get k hk).trans (h.get k hk)⟩

theorem ite {d a b : Dev} {c : Prop} [Decidable c] (ha : d.FirmwareKept a) (hb : d.FirmwareKept b) :
    d.FirmwareKept (if c then a else b) := by
  split
  · exact ha
  · exact hb

theorem foldl {α : Type} {f : Dev → α → Dev} (hf : ∀ (d : Dev) x, d.FirmwareKept (f d x)) (l : List α) (d : Dev) :
    d.FirmwareKept (l.foldl f d) := by
  induction l generalizing d with
  | nil => exact refl d
  | cons x xs ih => exact (hf d x).trans (ih (f d x))

/-! ### Objects, messages and records -/

theorem set (d : Dev) {j : Nat} (v : Nat) (hj : 0x1F8000 ≤ j) : d.FirmwareKept (d.set j v) :=
  ⟨rfl, ⟨rfl, rfl, rfl, rfl⟩, List.prefix_refl _, fun k hk => d.get_set_of_ne k j v (by omega)⟩

theorem add (d : Dev) {j : Nat} (n : Nat) (hj : 0x1F8000 ≤ j) : d.FirmwareKept (d.add j n) := by
  unfold Dev.add
  exact ite (set d _ hj) (set d _ hj)

theorem inc (d : Dev) {j : Nat} (hj : 0x1F8000 ≤ j) : d.FirmwareKept (d.inc j) := add d 1 hj

theorem setBlob (d : Dev) (k : Nat) (b : Bytes) : d.FirmwareKept (d.setBlob k b) :=
  ⟨rfl, ⟨rfl, rfl, rfl, rfl⟩, List.prefix_refl _, fun _ _ => rfl⟩

theorem emit (d : Dev) (o : Out) : d.FirmwareKept (d.emit o) :=
  ⟨rfl, ⟨rfl, rfl, rfl, rfl⟩, List.prefix_append _ _, fun _ _ => rfl⟩

theorem of_sends {d d' : Dev} (h : d.Sends d') : d.FirmwareKept d' := by
  have htk := h.tk
  obtain ⟨l, hl⟩ := h.out
  refine ⟨by rw [h.keep], ?_, ⟨l, hl.symm⟩, fun k hk => h.get k ?_⟩
  · rw [htk]
    exact ⟨rfl, rfl, rfl, rfl⟩
  · simp only [sendKey, List.contains_eq_mem, decide_eq_false_iff_not, List.mem_cons, List.not_mem_nil, or_false]
    omega

theorem of_tracesOnly {d d' : Dev} (h : d.TracesOnly d') : d.FirmwareKept d' := by
  have hkeep := h.keep
  refine ⟨by rw [hkeep], ?_, ?_, fun k hk => h.get k (by omega)⟩
  · rw [hkeep]
    exact ⟨rfl, rfl, rfl, rfl⟩
  · rw [hkeep]

/-! ### The parts of a trunk's state that are none of firmware's -/

theorem modFab (d : Dev) (f : FabricSt → FabricSt) : d.FirmwareKept (d.modFab f) :=
  ⟨rfl, ⟨rfl, rfl, rfl, rfl⟩, List.prefix_refl _, fun _ _ => rfl⟩

theorem modRed (d : Dev) (f : RedSt → RedSt) : d.FirmwareKept (d.modRed f) :=
  ⟨rfl, ⟨rfl, rfl, rfl, rfl⟩, List.prefix_refl _, fun _ _ => rfl⟩

theorem modAna (d : Dev) (f : AnaSt → AnaSt) : d.FirmwareKept (d.modAna f) :=
  ⟨rfl, ⟨rfl, rfl, rfl, rfl⟩, List.prefix_refl _, fun _ _ => rfl⟩

theorem resetLink (d : Dev) (p : TimePort) : d.FirmwareKept (d.resetLink p) :=
  ⟨rfl, ⟨rfl, rfl, rfl, rfl⟩, List.prefix_refl _, fun _ _ => rfl⟩

theorem invalidate (d : Dev) (l : List Nat) : d.FirmwareKept (d.invalidate l) :=
  ⟨rfl, ⟨rfl, rfl, rfl, rfl⟩, List.prefix_refl _, fun _ _ => rfl⟩

theorem asked (d : Dev) (r : Resp) (o : Option (Nat × Nat)) : d.FirmwareKept (d.nextTxn.2.noteAsked r o) :=
  ⟨rfl, ⟨rfl, rfl, rfl, rfl⟩, List.prefix_refl _, fun _ _ => rfl⟩

theorem nextTxn (d : Dev) : d.FirmwareKept d.nextTxn.2 :=
  ⟨rfl, ⟨rfl, rfl, rfl, rfl⟩, List.prefix_refl _, fun _ _ => rfl⟩

/-! ### Pool pages -/

theorem refreshPool (d : Dev) : d.FirmwareKept d.refreshPool := by
  unfold Dev.refreshPool
  extract_lets rs loc d1
  have hd1 : d.FirmwareKept d1 := set d _ (by decide)
  exact hd1.trans (foldl (fun d c => (set d _ (by unfold key; omega)).trans (set _ _ (by unfold key; omega))) _ d1)

theorem freeRun (d : Dev) (h : Nat) : d.FirmwareKept (d.freeRun h) := (modAna d _).trans (refreshPool _)

/-! ### Messages to leaves -/

theorem toLeaf (d : Dev) (n c : Nat) (b : Bytes) : d.FirmwareKept (d.toLeaf n c b) := of_sends (.toLeaf d n c b)

theorem askLeaf (d : Dev) (port opcode index sub known offset len : Nat) (data : Bytes) :
    d.FirmwareKept (d.askLeaf port opcode index sub known offset len data) :=
  (asked d _ _).trans (toLeaf _ _ _ _)

theorem writeLeafDomain (d : Dev) (port i s : Nat) (b : Bytes) : d.FirmwareKept (d.writeLeafDomain port i s b) :=
  foldl (fun d _ => (nextTxn d).trans (toLeaf _ _ _ _)) _ d

theorem packToLeaf (d : Dev) (port : Nat) : d.FirmwareKept (d.packToLeaf port) := ite (refl d) (writeLeafDomain d _ _ _ _)

theorem restoreToLeaf (port : Nat) (d : Dev) (x : Nat × Bytes) : d.FirmwareKept (Dev.restoreToLeaf port d x) :=
  ite (writeLeafDomain d _ _ _ _) (askLeaf d _ _ _ _ _ _ _ _)

/-! ### Members of groups -/

theorem setMembers (d : Dev) (n : Nat) (l : List Member) : d.FirmwareKept (d.setMembers n l) :=
  (modRed d _).trans (setBlob _ _ _)

theorem readJoined (d : Dev) (n port : Nat) : d.FirmwareKept (d.readJoined n port) := by
  unfold Dev.readJoined
  extract_lets d1 d2
  have hd1 : d.FirmwareKept d1 := foldl (fun d _ => askLeaf d _ _ _ _ _ _ _ _) _ d
  have hd2 : d1.FirmwareKept d2 := foldl (fun d _ => askLeaf d _ _ _ _ _ _ _ _) _ d1
  exact hd1.trans (hd2.trans (((askLeaf d2 _ _ _ _ _ _ _ _).trans (askLeaf _ _ _ _ _ _ _ _ _)).trans (askLeaf _ _ _ _ _ _ _ _ _)))

theorem digestJoined (d : Dev) (n port : Nat) : d.FirmwareKept (d.digestJoined n port) :=
  foldl (fun d _ => ite (askLeaf d _ _ _ _ _ _ _ _) (refl d)) _ d

theorem queueChanges (d : Dev) (l : List Change) : d.FirmwareKept (d.queueChanges l) := (modRed d _).trans (set _ _ (by decide))

theorem memberAns (d : Dev) (v : Nat) : d.FirmwareKept (d.memberAns v).dev := by
  unfold Dev.memberAns
  extract_lets op group leaf port
  split
  · exact refl d
  · split
    · exact refl d
    · split
      · exact refl d
      · split
        · exact (((setMembers d _ _).trans (readJoined _ _ _)).trans (digestJoined _ _ _)).trans (queueChanges _ _)
        · exact (setMembers d _ _).trans (queueChanges _ _)

theorem layerChange (d : Dev) (op port : Nat) (groups : List Nat) : d.FirmwareKept (d.layerChange op port groups) :=
  foldl (fun d _ => memberAns d _) groups d

/-! ### Links -/

theorem unroutable (d : Dev) : d.FirmwareKept d.unroutable := of_sends (.unroutable d)

theorem modPort (d : Dev) (p : Nat) (f : PleachPort → PleachPort) : d.FirmwareKept (d.modPort p f) := modFab d _

theorem modChan (d : Dev) (p ch : Nat) (f : PChan → PChan) : d.FirmwareKept (d.modChan p ch f) := modPort d p _

theorem modStem (d : Dev) (n : Nat) (f : StemEnd → StemEnd) : d.FirmwareKept (d.modStem (.trunk n) f) :=
  modFab d fun x => { x with stems := x.stems.modify n f }

theorem modLine (d : Dev) (n : Nat) (f : StemLine → StemLine) : d.FirmwareKept (d.modLine (.trunk n) f) :=
  ite (refl d) (modStem d n _)

theorem dispose (d : Dev) (inp : Option (Nat × Nat × Nat)) : d.FirmwareKept (d.dispose inp) := by
  obtain _ | ⟨p, ch, no⟩ := inp
  · exact refl d
  · exact modChan d p ch _

theorem abandon (d : Dev) (inp : Nat × Nat × Nat) : d.FirmwareKept (d.abandon inp) := by
  unfold Dev.abandon
  exact (modFab d _).trans (dispose _ _)

theorem abandonOpen (d : Dev) (p ch : Nat) : d.FirmwareKept (d.abandonOpen p ch) := by
  unfold Dev.abandonOpen
  split
  · exact ((modChan d p ch _).trans (inc _ (by decide))).trans (abandon _ _)
  · exact refl d

theorem portDrop (d : Dev) (p state : Nat) : d.FirmwareKept (d.portDrop p state) := by
  have hcut (e : Dev) (ch : Nat) : e.FirmwareKept (match (e.pchan p ch).tx with
      | some (m, _) => ((e.modChan p ch fun x => { x with tx := none }).inc 0x310A_07).dispose m.inp
      | none => e) := by
    split
    · exact ((modChan e p ch _).trans (inc _ (by decide))).trans (dispose _ _)
    · exact refl e
  unfold Dev.portDrop
  extract_lets d1 d2 queued d3 d4 d5
  have hd1 : d.FirmwareKept d1 := foldl (fun d ch => abandonOpen d p ch) _ d
  have hd2 : d1.FirmwareKept d2 := foldl hcut _ d1
  have hd3 : d2.FirmwareKept d3 := foldl (fun d _ => (unroutable d).trans (dispose _ _)) queued d2
  have hd4 : d3.FirmwareKept d4 := modFab d3 _
  have hd5 : d4.FirmwareKept d5 := modFab d4 _
  exact hd1.trans (hd2.trans (hd3.trans (hd4.trans (hd5.trans ((set d5 _ (by unfold portKey key; omega)).trans (resetLink _ _))))))

theorem sendBlock (d : Dev) (n type : Nat) (b : Bytes) : d.FirmwareKept (d.sendBlock (.trunk n) type b) :=
  (emit d _).trans (modLine _ _ _)

theorem le_stemKey (n sub : Nat) : 0x1F8000 ≤ stemKey (.trunk n) sub := by
  show 0x1F8000 ≤ key (0x6500 + n) sub
  unfold key
  omega

theorem abortAt (d : Dev) (n : Nat) : d.FirmwareKept (d.abortAt (.trunk n)) := by
  unfold Dev.abortAt
  split
  · exact (((modStem d n _).trans (modLine _ n _)).trans (inc _ (le_stemKey n _))).trans (sendBlock _ n _ _)
  · exact refl d

theorem stemDrop (d : Dev) (n state : Nat) : d.FirmwareKept (d.stemDrop (.trunk n) state) := by
  unfold Dev.stemDrop
  extract_lets x d1 d2 d3
  have hd1 : d.FirmwareKept d1 := add d _ (le_stemKey n _)
  have hd2 : d1.FirmwareKept d2 := (modFab d1 _).trans (invalidate _ _)
  have hd3 : d2.FirmwareKept d3 := (abortAt d2 n).trans (modStem _ n _)
  exact hd1.trans (hd2.trans (hd3.trans ((set d3 _ (le_stemKey n _)).trans (resetLink _ _))))

end Dev.FirmwareKept

end Sys2Proof.Machine
end

section
/-! SUPPORT. O57: updates of image slots, by their stage and by blocks (R604, R605, R607). -/

namespace Sys2Proof.Machine

open Sys2Proof

/-- The trunk as it hears a request: what its objects, its blobs and its firmware hold is as before. -/
theorem State.heard_trunk (s : State) (e : Env) : ∃ d, (s.unit .trunk).heard e = d ∧ (∀ k, s.trunk.get k = d.get k) ∧
    s.trunk.tk = d.tk ∧ (∀ k, s.trunk.blob k = d.blob k) ∧ s.trunk.cfg = d.cfg := by
  refine ⟨_, rfl, fun k => (Dev.heard_get (s.unit .trunk) e k).symm, (Dev.heard_tk (s.unit .trunk) e).symm, fun k => ?_,
    (Dev.heard_cfg (s.unit .trunk) e).symm⟩
  exact congrArg (fun l => (lookupKey k l).getD []) (Dev.heard_blobs (s.unit .trunk) e).symm

theorem Dev.updateHost_congr {d d' : Dev} (hget : ∀ k, d.get k = d'.get k) : d.updateHost = d'.updateHost := by
  rw [Dev.updateHost, hget, Dev.updateHost]

/-! ### The stage -/

theorem Dev.blob_setBlob (d : Dev) (k : Nat) (b : Bytes) : (d.setBlob k b).blob k = b := by
  rw [Dev.blob, Dev.setBlob, lookupKey_insertKey_self]
  rfl

/-- A stage is discarded: only the loader forgets its pages (R604). -/
theorem Dev.freeStage_spec (d : Dev) : (∀ k < 0x1F8000, d.freeStage.get k = d.get k) ∧ d.freeStage.tk.flash = d.tk.flash ∧
    d.freeStage.blob 0x1802_02 = [] := by
  have hfreed : d.FirmwareKept (match d.tk.load.handle with
      | some h => d.freeRun h
      | none => d) := by
    split
    · exact .freeRun d _
    · exact .refl d
  obtain ⟨-, -, hflash, -⟩ := hfreed.tk
  exact ⟨hfreed.get, hflash, Dev.blob_setBlob _ _ _⟩

/-! ### Target and Commit -/

theorem target_row {c : Cfg} {r : Row} (h : c.rowOf 0x1802 1 = some r) : r.rng = .oneOf [0, 1, 2, 3, 4, 5] := by
  have hp := row_of_all c 0x1802 1 (fun r => r.rng == .oneOf [0, 1, 2, 3, 4, 5]) r (by decide) h
  simpa using hp

theorem commit_row {c : Cfg} {r : Row} (h : c.rowOf 0x1802 3 = some r) : r.rng = .any := by
  have hp := row_of_all c 0x1802 3 (fun r => r.rng == .any) r (by decide) h
  simpa using hp

/-- `Target` takes a type, and discards the stage (R604, R607). -/
theorem Dev.targetAns_spec (d : Dev) {v : Nat} (hv : v < 256) :
    if d.get 0x1802_05 = 2 then (d.targetAns v).abort = 0x07 ∧ (d.targetAns v).dev = d
    else (d.targetAns v).abort = 0 ∧ (d.targetAns v).dev.get 0x1802_01 = v ∧ (d.targetAns v).dev.get 0x1802_05 = 1 ∧
      (d.targetAns v).dev.get 0x1802_06 = 0 ∧ (d.targetAns v).dev.blob 0x1802_02 = [] ∧ (d.targetAns v).dev.tk.flash = d.tk.flash := by
  unfold Dev.targetAns
  by_cases hw : d.get 0x1802_05 = 2
  · rw [if_pos hw, if_pos (by simp [Dev.writing, hw])]
    exact ⟨rfl, rfl⟩
  · rw [if_neg hw, if_neg (by simp [Dev.writing, hw])]
    obtain ⟨-, hflash, hblob⟩ := d.freeStage_spec
    refine ⟨rfl, ?_, ?_, Dev.get_set_byte _ _ _ (by decide), hblob, hflash⟩
    · dsimp only [ok]
      rw [Dev.get_set_of_ne _ _ _ _ (by decide), Dev.get_set_of_ne _ _ _ _ (by decide)]
      exact Dev.get_set_byte _ _ _ hv
    · dsimp only [ok]
      rw [Dev.get_set_of_ne _ _ _ _ (by decide)]
      exact Dev.get_set_byte _ _ _ (by decide)

theorem execTargetWrite_answers (s : State) (e : Env) (v : Nat) (_ : s.built) (hruns : s.runs .trunk)
    (hacc : (s.unit .trunk).accepts e 0x1802 1 v) :
    Answers (exec (.targetWrite e v) s) s .trunk e 0x02 0x1802 1 0 fun a =>
      if s.trunk.get 0x1802_05 = 2 then a.abort = 0x07 ∧ a.dev = (s.unit .trunk).heard e
      else a.abort = 0 ∧ a.dev.get 0x1802_01 = v ∧ a.dev.get 0x1802_05 = 1 ∧ a.dev.get 0x1802_06 = 0 ∧
        a.dev.blob 0x1802_02 = [] ∧ a.dev.tk.flash = s.trunk.tk.flash := by
  show Answers (execTargetWrite e v s) s _ _ _ _ _ _ _
  unfold execTargetWrite State.onTrunk
  obtain ⟨-, -, -, r, hr, -, -, -, hadmits, -, -⟩ := id hacc
  have hrow := target_row hr
  have hv : v < 256 := by
    have hlist : v ∈ [0, 1, 2, 3, 4, 5] := by simpa [Row.admits, hrow] using (Bool.and_eq_true_iff.mp hadmits).2
    simp at hlist
    omega
  refine State.serveWrite_answers id hruns hacc (by decide) hr ?_
  have hmasked : r.masked v = v := by simp [Row.masked, hrow]
  obtain ⟨d, hd, hget, htk, -, -⟩ := s.heard_trunk e
  rw [hmasked, id, hd, hget, htk]
  exact d.targetAns_spec hv

/-- `Commit` begins WRITING of a stage that fits the target (R604, R605, R607). -/
theorem Dev.commitAns_spec (d : Dev) (v : Nat) :
    let b := d.blob 0x1802_02
    let t := d.get 0x1802_01
    if v ≠ 1 then (d.commitAns v).abort = 0x06 ∧ (d.commitAns v).dev = d
    else if d.updateHost = true ∨ d.get 0x1802_05 = 2 then (d.commitAns v).abort = 0x07 ∧ (d.commitAns v).dev = d
    else if t = 0 ∨ natAt b 5 1 ≠ t ∨ b.length ≠ 512 + natAt b 20 4 then (d.commitAns v).abort = 0x06 ∧ (d.commitAns v).dev = d
    else (d.commitAns v).abort = 0 ∧ (d.commitAns v).dev.get 0x1802_05 = 2 ∧ (d.commitAns v).dev.get 0x1802_06 = 0 ∧
      (d.commitAns v).dev.tk.load.image = b ∧ (d.commitAns v).dev.tk.flash = d.tk.flash := by
  unfold Dev.commitAns Dev.writing
  simp only [bne_iff_ne, Bool.or_eq_true, decide_eq_true_eq, or_assoc]
  split
  · exact ⟨rfl, rfl⟩
  · split
    · exact ⟨rfl, rfl⟩
    · split
      · exact ⟨rfl, rfl⟩
      · refine ⟨rfl, ?_, Dev.get_set_byte _ _ _ (by decide), rfl, rfl⟩
        dsimp only [ok]
        rw [Dev.get_set_of_ne _ _ _ _ (by decide)]
        exact Dev.get_set_byte _ _ _ (by decide)

theorem execCommit_answers (s : State) (e : Env) (v : Nat) (_ : s.built) (hruns : s.runs .trunk)
    (hacc : (s.unit .trunk).accepts e 0x1802 3 v) :
    Answers (exec (.commit e v) s) s .trunk e 0x02 0x1802 3 0 fun a =>
      let b := s.trunk.blob 0x1802_02
      let t := s.trunk.get 0x1802_01
      if v ≠ 1 then a.abort = 0x06 ∧ a.dev = (s.unit .trunk).heard e
      else if s.trunk.updateHost = true ∨ s.trunk.get 0x1802_05 = 2 then a.abort = 0x07 ∧ a.dev = (s.unit .trunk).heard e
      else if t = 0 ∨ natAt b 5 1 ≠ t ∨ b.length ≠ 512 + natAt b 20 4 then a.abort = 0x06 ∧ a.dev = (s.unit .trunk).heard e
      else a.abort = 0 ∧ a.dev.get 0x1802_05 = 2 ∧ a.dev.get 0x1802_06 = 0 ∧ a.dev.tk.load.image = b ∧
        a.dev.tk.flash = s.trunk.tk.flash := by
  show Answers (execCommit e v s) s _ _ _ _ _ _ _
  unfold execCommit State.onTrunk
  refine State.serveWrite_answers_any (by decide) hruns hacc (fun r hr => commit_row hr) ?_
  obtain ⟨d, hd, hget, htk, hblob, -⟩ := s.heard_trunk e
  rw [hd, Dev.updateHost_congr hget, hget, hget, htk, hblob]
  exact d.commitAns_spec v

/-! ### Sectors -/

/-- The end of an update shows in its state alone, and the slots stay (R604, R605). -/
theorem Dev.endUpdate_spec (d : Dev) (failed : Bool) :
    (d.endUpdate failed).get 0x1802_05 = (if failed = true then 4 else 3) ∧ d.objectsKept (d.endUpdate failed) [0x1802_05] ∧
    (d.endUpdate failed).tk.flash = d.tk.flash := by
  cases failed with
  | true => exact ⟨Dev.get_set_byte d _ 4 (by decide), fun k hk => d.get_set_of_ne k _ 4 (List.ne_of_not_mem_cons hk), rfl⟩
  | false =>
    exact ⟨Dev.get_set_byte (d.modLoad _) _ 3 (by decide),
      fun k hk => Dev.get_set_of_ne (d.modLoad _) k _ 3 (List.ne_of_not_mem_cons hk), rfl⟩

theorem Dev.slotOfType_congr {d d' : Dev} (h : d'.tk.flash = d.tk.flash) (t : Nat) : d'.slotOfType t = d.slotOfType t := by
  rw [Dev.slotOfType, h, Dev.slotOfType]

/-- A sector programmed reads back as its bytes (R595). -/
theorem Dev.lookup_putSector (d : Dev) {t : Nat} (k : Nat) (b : Bytes) (hslots : d.tk.flash.slots.length = 5) (hlo : 1 ≤ t) (hhi : t ≤ 5) :
    lookupKey k ((d.putSector t k b).slotOfType t) = some b := by
  rw [d.slotOfType_putSector k b (by omega), lookupKey_insertKey_self]

/-- The unit with the next sector of an update programmed, before it is known whether it was the last (R604). -/
def Dev.sectorDone (d : Dev) (same : Bool) (b : Bytes) : Dev :=
  let t := d.get 0x1802_01
  let n := d.get 0x1802_06
  ((d.putSector t (n / 65536) (if same then b else Config.tornSector t (n / 65536) d.now)).modLoad fun x =>
    { x with differs := x.differs || !same }).set 0x1802_06 (n + b.length)

theorem Dev.sectorDone_spec (d : Dev) (same : Bool) {b : Bytes} (hslots : d.tk.flash.slots.length = 5) (hlo : 1 ≤ d.get 0x1802_01)
    (hhi : d.get 0x1802_01 ≤ 5) (hroom : d.get 0x1802_06 + b.length < 2 ^ 32) :
    (d.sectorDone same b).get 0x1802_06 = d.get 0x1802_06 + b.length ∧ (d.sectorDone same b).get 0x1802_05 = d.get 0x1802_05 ∧
    (same = true → lookupKey (d.get 0x1802_06 / 65536) ((d.sectorDone same b).slotOfType (d.get 0x1802_01)) = some b) ∧
    (d.sectorDone same b).tk.load.image = d.tk.load.image ∧ (d.sectorDone same b).tk.load.differs = (d.tk.load.differs || !same) := by
  refine ⟨Dev.get_set_fits _ _ _ (hroom.trans_le (by decide)), Dev.get_set_of_ne _ _ _ _ (by decide), fun hsame => ?_, rfl, rfl⟩
  subst hsame
  exact d.lookup_putSector _ b hslots hlo hhi

/-- The unit as the last sector of an update has been programmed: the stage is freed and the update ends (R604). -/
def Dev.sectorsDone (d : Dev) : Dev := (d.freeStage.modLoad fun x => { x with image := [] }).endUpdate d.tk.load.differs

theorem Dev.sectorsDone_spec (d : Dev) : d.sectorsDone.get 0x1802_06 = d.get 0x1802_06 ∧ d.sectorsDone.tk.flash = d.tk.flash ∧
    d.sectorsDone.get 0x1802_05 = if d.tk.load.differs = true then 4 else 3 := by
  obtain ⟨hget, hflash, -⟩ := d.freeStage_spec
  obtain ⟨hstate, hkept, hslots⟩ := (d.freeStage.modLoad fun x => { x with image := [] }).endUpdate_spec d.tk.load.differs
  exact ⟨(hkept _ (by decide)).trans (hget _ (by decide)), hslots.trans hflash, hstate⟩

/-- SECTOR_WRITTEN while WRITING (R604). -/
theorem Dev.programSector_spec (d : Dev) (same : Bool) (hslots : d.tk.flash.slots.length = 5) (hlo : 1 ≤ d.get 0x1802_01)
    (hhi : d.get 0x1802_01 ≤ 5) (hroom : d.get 0x1802_06 + 65536 < 2 ^ 32) (hwriting : d.get 0x1802_05 = 2) :
    let n := d.get 0x1802_06
    let b := (d.tk.load.image.drop n).take 65536
    (d.programSector same).get 0x1802_06 = n + b.length ∧
    (same = true → lookupKey (n / 65536) ((d.programSector same).slotOfType (d.get 0x1802_01)) = some b) ∧
    (d.programSector same).get 0x1802_05 = if n + b.length < d.tk.load.image.length then 2
      else if d.tk.load.differs = true ∨ same = false then 4 else 3 := by
  intro n b
  have hlen : b.length ≤ 65536 := List.length_take_le _ _
  obtain ⟨hcount, hstate, hsector, himage, hdiffers⟩ := d.sectorDone_spec same (b := b) hslots hlo hhi (by omega)
  have hstep : d.programSector same =
      if n + b.length < (d.sectorDone same b).tk.load.image.length then d.sectorDone same b else (d.sectorDone same b).sectorsDone := rfl
  rw [hstep, himage]
  split
  · exact ⟨hcount, hsector, hstate.trans hwriting⟩
  · obtain ⟨hcount', hflash, hend⟩ := (d.sectorDone same b).sectorsDone_spec
    rw [hcount', hend, hdiffers, Dev.slotOfType_congr hflash]
    refine ⟨hcount, hsector, ?_⟩
    cases same <;> simp

theorem execSectorWritten_yields (s : State) (same : Bool) (_ : s.built) (hruns : s.runs .trunk)
    (hslots : s.trunk.tk.flash.slots.length = 5) (hlo : 1 ≤ s.trunk.get 0x1802_01) (hhi : s.trunk.get 0x1802_01 ≤ 5)
    (hroom : s.trunk.get 0x1802_06 + 65536 < 2 ^ 32) :
    Yields (exec (.sectorWritten same) s) s .trunk fun d =>
      let n := s.trunk.get 0x1802_06
      let b := (s.trunk.tk.load.image.drop n).take 65536
      if s.trunk.get 0x1802_05 ≠ 2 then d = (s.unit .trunk)
      else d.get 0x1802_06 = n + b.length ∧
        (same = true → lookupKey (n / 65536) (d.slotOfType (s.trunk.get 0x1802_01)) = some b) ∧
        d.get 0x1802_05 = (if n + b.length < s.trunk.tk.load.image.length then 2
          else if s.trunk.tk.load.differs = true ∨ same = false then 4 else 3) := by
  show Yields (execSectorWritten same s) s _ _
  unfold execSectorWritten State.onTrunk
  refine State.on_yields _ _ _ _ hruns ?_
  by_cases hw : s.trunk.get 0x1802_05 = 2
  · have hwriting : (s.unit .trunk).writing = true := decide_eq_true hw
    rw [if_neg (not_not.mpr hw), if_pos hwriting]
    exact Dev.programSector_spec (s.unit .trunk) same hslots hlo hhi hroom hw
  · have hidle : ¬ (s.unit .trunk).writing = true := fun h => hw (of_decide_eq_true h)
    rw [if_pos hw, if_neg hidle]

/-! ### Blocks -/

/-- The unit as a block's sector is being programmed: the target's image is open (R605, R607). -/
def Dev.blockOpened (d : Dev) : Dev :=
  d.modLoad fun x => { x with written := x.written.filter (· != d.get 0x1802_01)
                              open_ := d.get 0x1802_01 :: x.open_.filter (· != d.get 0x1802_01) }

/-- What a block's write does once its frame passes every check but the CRC (R605). -/
theorem Dev.blockAns_of_whole (d : Dev) {bs : Bytes} (same : Bool) (hhost : d.updateHost = true) (hidle : d.get 0x1802_05 ≠ 2)
    (ht : 1 ≤ d.get 0x1802_01) (hmin : 16 ≤ bs.length) (hmax : bs.length ≤ 65544) (hwords : bs.length % 8 = 0)
    (haligned : natAt bs 0 4 % 65536 = 0) (hfits : natAt bs 0 4 + (bs.length - 8) ≤ slotSize (d.get 0x1802_01)) :
    d.blockAns bs same =
      if crc32c (bs.drop 8) ≠ natAt bs 4 4 then fail d .range
      else if same then ok ((d.blockOpened.putSector (d.get 0x1802_01) (natAt bs 0 4 / 65536) (bs.drop 8)).add 0x1802_06 (bs.length - 8))
      else fail ((d.blockOpened.putSector (d.get 0x1802_01) (natAt bs 0 4 / 65536)
        (Config.tornSector (d.get 0x1802_01) (natAt bs 0 4 / 65536) d.now)).endUpdate true) .internal := by
  have hlen : (bs.drop 8).length = bs.length - 8 := List.length_drop
  have hstate : ¬ (!d.updateHost || d.writing) = true := by simp [hhost, Dev.writing, hidle]
  have hshort : ¬ (decide (bs.length ≤ 8) && bs.all (· = 0)) = true := by simp; omega
  have hlength : ¬ (decide (bs.length < 16) || decide ((bs.drop 8).length > 65536) || (bs.drop 8).length % 8 != 0) = true := by
    rw [hlen]; simp; omega
  unfold Dev.blockAns
  dsimp only
  rw [if_neg hstate, if_neg (by omega), if_neg hshort, if_neg hlength, hlen]
  by_cases hcrc : crc32c (bs.drop 8) = natAt bs 4 4
  · rw [if_neg (by simp [haligned, hfits, hcrc]), if_neg (not_not.mpr hcrc)]
    rfl
  · rw [if_pos (by simp [hcrc]), if_pos hcrc]

theorem execBlock_answers (s : State) (e : Env) (bs : Bytes) (same : Bool) (_ : s.built) (hruns : s.runs .trunk)
    (hacc : (s.unit .trunk).acceptsDomain e 0x1802 4 bs) (hslots : s.trunk.tk.flash.slots.length = 5) (hlo : 1 ≤ s.trunk.get 0x1802_01)
    (hhi : s.trunk.get 0x1802_01 ≤ 5) (hhost : s.trunk.updateHost = true) (hidle : s.trunk.get 0x1802_05 ≠ 2) (hmin : 16 ≤ bs.length)
    (hmax : bs.length ≤ 65544) (hwords : bs.length % 8 = 0) (haligned : natAt bs 0 4 % 65536 = 0)
    (hfits : natAt bs 0 4 + (bs.length - 8) ≤ slotSize (s.trunk.get 0x1802_01)) (hroom : s.trunk.get 0x1802_06 + bs.length < 2 ^ 32) :
    Answers (exec (.block e bs same) s) s .trunk e 0x02 0x1802 4 0 fun a =>
      if crc32c (bs.drop 8) ≠ natAt bs 4 4 then a.abort = 0x06 ∧ a.dev = (s.unit .trunk).heard e
      else if same = true then a.abort = 0 ∧ a.dev.get 0x1802_06 = s.trunk.get 0x1802_06 + (bs.length - 8) ∧
        lookupKey (natAt bs 0 4 / 65536) (a.dev.slotOfType (s.trunk.get 0x1802_01)) = some (bs.drop 8)
      else a.abort ≠ 0 ∧ a.dev.get 0x1802_05 = 4 := by
  show Answers (execBlock e bs same s) s _ _ _ _ _ _ _
  unfold execBlock State.onTrunk
  refine State.serveDomain_answers hruns hacc ?_
  obtain ⟨d, hd, hget, htk, -, -⟩ := s.heard_trunk e
  rw [Dev.updateHost_congr hget] at hhost
  rw [hget] at hlo hhi hidle hfits hroom
  rw [htk] at hslots
  rw [hd, hget, hget, d.blockAns_of_whole same hhost hidle hlo hmin hmax hwords haligned hfits]
  split
  · exact ⟨rfl, rfl⟩
  · cases same with
    | true =>
      set w := d.blockOpened.putSector (d.get 0x1802_01) (natAt bs 0 4 / 65536) (bs.drop 8) with hw
      refine ⟨rfl, Dev.get_add_fits w _ _ ?_, ?_⟩
      · have hsmall : d.get 0x1802_06 + (bs.length - 8) < 2 ^ 32 := by omega
        exact hsmall.trans_le (by decide)
      · have hflash : (w.add 0x1802_06 (bs.length - 8)).tk = w.tk := Dev.add_tk _ _ _
        refine (congrArg (lookupKey _) (Dev.slotOfType_congr (congrArg TrunkSt.flash hflash) _)).trans ?_
        exact d.blockOpened.lookup_putSector _ _ hslots hlo hhi
    | false => exact ⟨show Abort.internal.code ≠ 0 by decide, (Dev.endUpdate_spec _ true).1⟩

theorem execBlockFinish_answers (s : State) (e : Env) (_ : s.built) (hruns : s.runs .trunk)
    (hacc : (s.unit .trunk).acceptsDomain e 0x1802 4 (zeros 8)) :
    Answers (exec (.blockFinish e) s) s .trunk e 0x02 0x1802 4 0 fun a =>
      if s.trunk.updateHost = false ∨ s.trunk.get 0x1802_05 = 2 then a.abort = 0x07 ∧ a.dev = (s.unit .trunk).heard e
      else if s.trunk.get 0x1802_01 = 0 then a.abort = 0x06 ∧ a.dev = (s.unit .trunk).heard e
      else a.abort = 0 ∧ a.dev.get 0x1802_05 = 3 ∧ ((s.unit .trunk).heard e).objectsKept a.dev [0x1802_05] := by
  show Answers (execBlockFinish e s) s _ _ _ _ _ _ _
  unfold execBlockFinish State.onTrunk
  refine State.serveDomain_answers hruns hacc ?_
  obtain ⟨d, hd, hget, -, -, -⟩ := s.heard_trunk e
  have hfinish : d.blockAns (zeros 8) true = if d.updateHost = false ∨ d.get 0x1802_05 = 2 then fail d .state
      else if d.get 0x1802_01 = 0 then fail d .range else ok (d.endUpdate false) := by
    simp [Dev.blockAns, Dev.writing, zeros]
  rw [hd, Dev.updateHost_congr hget, hget, hget, hfinish]
  by_cases hbusy : d.updateHost = false ∨ d.get 0x1802_05 = 2
  · rw [if_pos hbusy, if_pos hbusy]
    exact ⟨rfl, rfl⟩
  · rw [if_neg hbusy, if_neg hbusy]
    by_cases ht : d.get 0x1802_01 = 0
    · rw [if_pos ht, if_pos ht]
      exact ⟨rfl, rfl⟩
    · rw [if_neg ht, if_neg ht]
      obtain ⟨hstate, hkept, -⟩ := d.endUpdate_spec false
      exact ⟨rfl, hstate, hkept⟩

end Sys2Proof.Machine
end

section
/-! SUPPORT. O57: Layering's start (R607, R617). -/

namespace Sys2Proof.Machine

open Sys2Proof

theorem layerStart_row {c : Cfg} {r : Row} (h : c.rowOf 0x1803 1 = some r) : r.rng = .any := by
  have hp := row_of_all c 0x1803 1 (fun r => r.rng == .any) r (by decide) h
  simpa using hp

/-- A write of `LayerStart` that fails with STATE or BUSY changes nothing (R607). -/
theorem layerStart_guarded {d : Dev} {mode busy phase : Prop} [Decidable mode] [Decidable busy] [Decidable phase] {P : Ans → Prop} {a last : Ans}
    (ha : a = if mode then fail d .state else if busy then fail d .busy else if phase then fail d .state else last) (hlast : ¬ mode → P last) :
    if mode then a.abort = 0x07 ∧ a.dev = d else if busy then a.abort = 0x09 ∧ a.dev = d
      else if phase then a.abort = 0x07 ∧ a.dev = d else P a := by
  subst ha
  by_cases hmode : mode
  · simp only [if_pos hmode]
    exact ⟨rfl, rfl⟩
  · by_cases hbusy : busy
    · simp only [if_neg hmode, if_pos hbusy]
      exact ⟨rfl, rfl⟩
    · by_cases hphase : phase
      · simp only [if_neg hmode, if_neg hbusy, if_pos hphase]
        exact ⟨rfl, rfl⟩
      · simp only [if_neg hmode, if_neg hbusy, if_neg hphase]
        exact hlast hmode

/-! ### The trunk's own phase -/

/-- A trunk that Layering resets comes up in TRUNK_REBOOT (R617). -/
theorem Dev.resetEnd_layer (n : Dev) (faults : Nat → Bool) (htrunk : n.isTrunk = true) (hlayer : n.tk.flash.layer = true) :
    (n.resetEnd faults).get 0x1803_02 = 1 := by
  obtain ⟨l, hout⟩ := Dev.OutOnly.resetOutputs faults htrunk
  unfold Dev.resetEnd
  rw [hout]
  dsimp only
  rw [if_neg (by simpa [Dev.isTrunk] using htrunk), if_pos hlayer]
  exact Dev.get_set_byte _ _ _ (by decide)

/-- The reset of a trunk by Layering (R617, R634). -/
theorem Dev.resetUnit_layer (d : Dev) (htrunk : d.isTrunk = true) (hidle : d.writing = false) (hlayer : d.tk.flash.layer = true) :
    (d.resetUnit 2).boot.rom = true ∧ (d.resetUnit 2).get 0x1002_01 = 2 ∧ (d.resetUnit 2).get 0x1803_02 = 1 ∧
    (d.resetUnit 2).tk.flash = d.tk.flash := by
  have htorn : d.tornUpdate = d := by
    have hnot : d.get 0x1802_05 ≠ 2 := by simpa [Dev.writing] using hidle
    exact if_neg (by simp [hnot])
  unfold Dev.resetUnit
  rw [htorn]
  show (Dev.resetEnd _ _).boot.rom = _ ∧ (Dev.resetEnd _ _).get _ = _ ∧ (Dev.resetEnd _ _).get _ = _ ∧ (Dev.resetEnd _ _).tk.flash = _
  refine ⟨?_, ?_, Dev.resetEnd_layer _ d.faulted (by exact htrunk) (by exact hlayer), ?_⟩
  · rw [Dev.resetEnd_boot _ d.faulted (by exact htrunk)]
    rfl
  · rw [Dev.get_resetEnd _ d.faulted (by exact htrunk), Dev.get_set_of_ne _ _ _ _ (by decide), Dev.get_set_of_ne _ _ _ _ (by decide),
      Dev.get_set_of_ne _ _ _ _ (by decide), Dev.get_set_of_ne _ _ _ _ (by decide)]
    exact Dev.get_set_fits _ _ 2 (by decide)
  · rw [Dev.resetEnd_tk _ d.faulted (by exact htrunk)]
    rfl

/-- The trunk as Layering has noted in its flash that it resets the trunk (R617). -/
def Dev.layering (d : Dev) : Dev := { d with tk := { d.tk with flash := { d.tk.flash with layer := true } } }

theorem Dev.layerStartAns_trunk (d : Dev) :
    d.layerStartAns 1 = if d.updateHost = true ∨ d.get 0x1802_05 = 2 then fail d .state
      else if d.get 0x1803_02 = 3 then fail d .busy
      else if 2 ∉ d.tk.load.written ∨ 2 ∈ d.tk.load.open_ ∨ 3 ∈ d.tk.load.open_ ∨ 4 ∈ d.tk.load.open_ ∨ 5 ∈ d.tk.load.open_ then fail d .state
      else d.layering.resetAns 2 := by
  unfold Dev.layerStartAns Dev.writing Dev.layering
  simp only [Bool.or_eq_true, decide_eq_true_eq, List.any_cons, List.any_nil, List.contains_eq_mem, Bool.not_eq_true', decide_eq_false_iff_not,
    Bool.or_false]
  rfl

theorem Dev.layerStartAns_trunk_spec (d : Dev) (htrunk : d.isTrunk = true) :
    let x := d.tk.load
    let a := d.layerStartAns 1
    if d.updateHost = true ∨ d.get 0x1802_05 = 2 then a.abort = 0x07 ∧ a.dev = d
    else if d.get 0x1803_02 = 3 then a.abort = 0x09 ∧ a.dev = d
    else if 2 ∉ x.written ∨ 2 ∈ x.open_ ∨ 3 ∈ x.open_ ∨ 4 ∈ x.open_ ∨ 5 ∈ x.open_ then a.abort = 0x07 ∧ a.dev = d
    else a.wait = true ∧ a.dev.boot.rom = true ∧ a.dev.get 0x1002_01 = 2 ∧ a.dev.get 0x1803_02 = 1 ∧
      a.dev.tk.flash = { d.tk.flash with layer := true } := by
  intro x a
  refine layerStart_guarded (P := fun a => a.wait = true ∧ a.dev.boot.rom = true ∧ a.dev.get 0x1002_01 = 2 ∧ a.dev.get 0x1803_02 = 1 ∧
    a.dev.tk.flash = { d.tk.flash with layer := true }) d.layerStartAns_trunk fun hidle => ?_
  exact ⟨rfl, d.layering.resetUnit_layer htrunk (decide_eq_false fun hw => hidle (.inr hw)) rfl⟩

theorem execLayerStartTrunk_answers (s : State) (e : Env) (hbuilt : s.built) (hruns : s.runs .trunk)
    (hacc : (s.unit .trunk).accepts e 0x1803 1 1) :
    Answers (exec (.layerStartTrunk e) s) s .trunk e 0x02 0x1803 1 0 fun a =>
      let x := s.trunk.tk.load
      if s.trunk.updateHost = true ∨ s.trunk.get 0x1802_05 = 2 then a.abort = 0x07 ∧ a.dev = (s.unit .trunk).heard e
      else if s.trunk.get 0x1803_02 = 3 then a.abort = 0x09 ∧ a.dev = (s.unit .trunk).heard e
      else if 2 ∉ x.written ∨ 2 ∈ x.open_ ∨ 3 ∈ x.open_ ∨ 4 ∈ x.open_ ∨ 5 ∈ x.open_ then a.abort = 0x07 ∧ a.dev = (s.unit .trunk).heard e
      else a.wait = true ∧ a.dev.boot.rom = true ∧ a.dev.get 0x1002_01 = 2 ∧ a.dev.get 0x1803_02 = 1 ∧
        a.dev.tk.flash = { s.trunk.tk.flash with layer := true } := by
  show Answers (execLayerStartTrunk e s) s _ _ _ _ _ _ _
  unfold execLayerStartTrunk State.onTrunk
  refine State.serveWrite_answers_any (by decide) hruns hacc (fun r hr => layerStart_row hr) ?_
  obtain ⟨d, hd, hget, htk, -, hcfg⟩ := s.heard_trunk e
  have htrunk : d.isTrunk = true := decide_eq_true (hcfg ▸ hbuilt.2.2)
  rw [hd, Dev.updateHost_congr hget, hget, hget, htk]
  exact d.layerStartAns_trunk_spec htrunk

/-! ### The leaves' phase -/

/-- The trunk as Layering of the leaves begins: the leaves that are up are to be done (R617). -/
def Dev.leavesBegun (d : Dev) : Dev :=
  ((d.modLayer fun x => { x with todo := (List.range 256).filter d.stemUp }).set 0x1803_02 3).set 0x1803_04 0

theorem Dev.layerStartAns_leaves (d : Dev) :
    d.layerStartAns 2 = if d.updateHost = true ∨ d.get 0x1802_05 = 2 then fail d .state
      else if d.get 0x1803_02 = 3 then fail d .busy
      else if d.get 0x1803_02 ≠ 2 ∨ 1 ∉ d.tk.load.written then fail d .state
      else ok d.leavesBegun.layerNext := by
  unfold Dev.layerStartAns Dev.writing Dev.leavesBegun
  simp only [Bool.or_eq_true, decide_eq_true_eq, List.contains_eq_mem, Bool.not_eq_true', decide_eq_false_iff_not, bne_iff_ne]
  rfl

/-- The trunk as Layering has turned to a leaf, before that leaf leaves its groups (R617). -/
def Dev.turnedTo (d : Dev) (p : Nat) (rest : List Nat) : Dev :=
  (d.modLayer fun x => { x with todo := rest, phase := .leaving, groups := d.groupsOf p }).set 0x1803_03 p

theorem Dev.layerNext_nil (d : Dev) (h : d.tk.layer.todo = []) : d.layerNext = (d.set 0x1803_02 4).set 0x1803_03 0xFF := by
  rw [Dev.layerNext, h]

theorem Dev.layerNext_cons (d : Dev) {p : Nat} {rest : List Nat} (h : d.tk.layer.todo = p :: rest) :
    d.layerNext = (d.turnedTo p rest).layerChange 2 p (d.groupsOf p) := by
  rw [Dev.layerNext, h]
  rfl

/-- Layering turns to its next leaf, or is done (R617). -/
theorem Dev.layerNext_spec (d : Dev) (hports : ∀ p ∈ d.tk.layer.todo, p < 256) :
    d.layerNext.get 0x1803_04 = d.get 0x1803_04 ∧
    match d.tk.layer.todo with
    | [] => d.layerNext.get 0x1803_02 = 4 ∧ d.layerNext.get 0x1803_03 = 0xFF
    | p :: rest => d.layerNext.get 0x1803_02 = d.get 0x1803_02 ∧ d.layerNext.get 0x1803_03 = p ∧
        d.layerNext.tk.layer.phase = .leaving ∧ d.layerNext.tk.layer.todo = rest := by
  cases htodo : d.tk.layer.todo with
  | nil =>
    rw [d.layerNext_nil htodo]
    refine ⟨?_, ?_, Dev.get_set_byte _ _ _ (by decide)⟩
    · rw [Dev.get_set_of_ne _ _ _ _ (by decide), Dev.get_set_of_ne _ _ _ _ (by decide)]
    · rw [Dev.get_set_of_ne _ _ _ _ (by decide)]
      exact Dev.get_set_byte _ _ _ (by decide)
  | cons p rest =>
    have hp : p < 256 := hports p (by rw [htodo]; exact List.mem_cons_self)
    have hkept := Dev.FirmwareKept.layerChange (d.turnedTo p rest) 2 p (d.groupsOf p)
    obtain ⟨-, hlayer, -, -⟩ := hkept.tk
    dsimp only
    rw [d.layerNext_cons htodo, hkept.get _ (by decide), hkept.get _ (by decide), hkept.get _ (by decide), hlayer]
    exact ⟨Dev.get_set_of_ne _ _ _ _ (by decide), Dev.get_set_of_ne _ _ _ _ (by decide), Dev.get_set_byte _ _ _ hp, rfl, rfl⟩

theorem Dev.layerStartAns_leaves_spec (d : Dev) :
    let a := d.layerStartAns 2
    if d.updateHost = true ∨ d.get 0x1802_05 = 2 then a.abort = 0x07 ∧ a.dev = d
    else if d.get 0x1803_02 = 3 then a.abort = 0x09 ∧ a.dev = d
    else if d.get 0x1803_02 ≠ 2 ∨ 1 ∉ d.tk.load.written then a.abort = 0x07 ∧ a.dev = d
    else a.abort = 0 ∧ a.dev.get 0x1803_04 = 0 ∧
      match (List.range 256).filter d.stemUp with
      | [] => a.dev.get 0x1803_02 = 4 ∧ a.dev.get 0x1803_03 = 0xFF
      | p :: rest => a.dev.get 0x1803_02 = 3 ∧ a.dev.get 0x1803_03 = p ∧ a.dev.tk.layer.phase = .leaving ∧
          a.dev.tk.layer.todo = rest := by
  intro a
  refine layerStart_guarded (P := fun a => a.abort = 0 ∧ a.dev.get 0x1803_04 = 0 ∧
    match (List.range 256).filter d.stemUp with
    | [] => a.dev.get 0x1803_02 = 4 ∧ a.dev.get 0x1803_03 = 0xFF
    | p :: rest => a.dev.get 0x1803_02 = 3 ∧ a.dev.get 0x1803_03 = p ∧ a.dev.tk.layer.phase = .leaving ∧
        a.dev.tk.layer.todo = rest) d.layerStartAns_leaves fun _ => ?_
  have hports : ∀ p ∈ d.leavesBegun.tk.layer.todo, p < 256 := fun p hp => List.mem_range.mp (List.mem_filter.mp hp).1
  have hstate : d.leavesBegun.get 0x1803_02 = 3 :=
    (Dev.get_set_of_ne _ _ _ _ (by decide)).trans (Dev.get_set_byte _ _ _ (by decide))
  have hdone : d.leavesBegun.get 0x1803_04 = 0 := Dev.get_set_byte _ _ _ (by decide)
  have hspec := d.leavesBegun.layerNext_spec hports
  rw [hstate, hdone] at hspec
  exact ⟨rfl, hspec⟩

theorem execLayerStartLeaves_answers (s : State) (e : Env) (_ : s.built) (hruns : s.runs .trunk)
    (hacc : (s.unit .trunk).accepts e 0x1803 1 2) :
    Answers (exec (.layerStartLeaves e) s) s .trunk e 0x02 0x1803 1 0 fun a =>
      let up := (List.range 256).filter s.trunk.stemUp
      if s.trunk.updateHost = true ∨ s.trunk.get 0x1802_05 = 2 then a.abort = 0x07 ∧ a.dev = (s.unit .trunk).heard e
      else if s.trunk.get 0x1803_02 = 3 then a.abort = 0x09 ∧ a.dev = (s.unit .trunk).heard e
      else if s.trunk.get 0x1803_02 ≠ 2 ∨ 1 ∉ s.trunk.tk.load.written then a.abort = 0x07 ∧ a.dev = (s.unit .trunk).heard e
      else a.abort = 0 ∧ a.dev.get 0x1803_04 = 0 ∧
        match up with
        | [] => a.dev.get 0x1803_02 = 4 ∧ a.dev.get 0x1803_03 = 0xFF
        | p :: rest => a.dev.get 0x1803_02 = 3 ∧ a.dev.get 0x1803_03 = p ∧ a.dev.tk.layer.phase = .leaving ∧
            a.dev.tk.layer.todo = rest := by
  show Answers (execLayerStartLeaves e s) s _ _ _ _ _ _ _
  unfold execLayerStartLeaves State.onTrunk
  refine State.serveWrite_answers_any (by decide) hruns hacc (fun r hr => layerStart_row hr) ?_
  obtain ⟨d, hd, hget, htk, -, -⟩ := s.heard_trunk e
  have hup : s.trunk.stemUp = d.stemUp := funext fun n => by rw [Dev.stemUp, hget, Dev.stemUp]
  rw [hd, Dev.updateHost_congr hget, hget, hget, htk, hup]
  exact d.layerStartAns_leaves_spec

end Sys2Proof.Machine
end

section
/-! SUPPORT. O57: leaves that boot under Layering, the thermal trip, and the faults of a leaf's host interface (R149, R615 to R618, R643). -/

namespace Sys2Proof.Machine

open Sys2Proof

/-! ### LEAF_RUNNING -/

theorem Dev.flags_width (d : Dev) : 8 ≤ d.cfg.width (key 0x1804 0) := width_ge_8 _ _

/-- Layering does not wait for the leaf that runs. -/
theorem Dev.layerRunning_idle (d : Dev) {port : Nat} (version : Nat) (h : d.layerAwaits port = false) : d.layerRunning port version = d :=
  if_pos (by simp [h])

/-- The leaf that Layering waits for runs the stored version: it joins its groups again (R617). -/
theorem Dev.layerRunning_joins (d : Dev) {port : Nat} (h : d.layerAwaits port = true) :
    (d.layerRunning port (d.storedVersion 1)).tk.layer.phase = .joining ∧ (d.layerRunning port (d.storedVersion 1)).get 0x1803_02 = 3 := by
  have hstate : d.get 0x1803_02 = 3 := by
    simp only [Dev.layerAwaits, Bool.and_eq_true, decide_eq_true_eq] at h
    exact h.1.1
  have hkept := Dev.FirmwareKept.layerChange (d.modLayer fun x => { x with phase := .joining }) 1 port d.tk.layer.groups
  obtain ⟨-, hlayer, -, -⟩ := hkept.tk
  have hjoin : d.layerRunning port (d.storedVersion 1) =
      (d.modLayer fun x => { x with phase := .joining }).layerChange 1 port d.tk.layer.groups := by
    rw [Dev.layerRunning, if_neg (by simp [h]), if_neg (by simp)]
  rw [hjoin, hlayer, hkept.get _ (by decide)]
  exact ⟨rfl, hstate⟩

/-- It runs another version: Layering halts (R618). -/
theorem Dev.layerRunning_halts (d : Dev) {port version : Nat} (h : d.layerAwaits port = true) (hversion : version ≠ d.storedVersion 1) :
    d.layerRunning port version = d.haltLayer 3 := by
  rw [Dev.layerRunning, if_neg (by simp [h]), if_pos (by simpa using hversion)]

/-- A flag of an update stays as Layering goes on. -/
theorem Dev.layerRunning_flag (d : Dev) (port version : Nat) (h : (d.get 0x1804_00).testBit 4 = true) :
    ((d.layerRunning port version).get 0x1804_00).testBit 4 = true := by
  unfold Dev.layerRunning
  split
  · exact h
  · split
    · refine Dev.testBit_flag_of_set _ (i := 0x1804) (by decide) (Dev.flags_width _) (by decide) ?_
      rw [Dev.get_set_of_ne _ _ _ _ (by decide), Dev.get_set_of_ne _ _ _ _ (by decide)]
      exact h
    · rw [(Dev.FirmwareKept.layerChange _ 1 port _).get _ (by decide)]
      exact h

theorem Dev.restoreWith_none (d : Dev) {unit : Nat} (major : Nat) (f : Dev → Nat × Bytes → Dev)
    (h : d.tk.flash.conf.find? (·.unit = unit) = none) : d.restoreWith unit major f = d := by
  rw [Dev.restoreWith, h]

/-- A configuration of another DictMajor is flagged (R615). -/
theorem Dev.restoreWith_mismatch (d : Dev) {unit major : Nat} (f : Dev → Nat × Bytes → Dev) {c : ConfEnt}
    (h : d.tk.flash.conf.find? (·.unit = unit) = some c) (hmajor : c.major ≠ major) : d.restoreWith unit major f = d.flag 0x1804 4 := by
  rw [Dev.restoreWith, h]
  exact if_neg hmajor

/-- What the stored image says of its version, and for which leaf Layering waits, is firmware's. -/
theorem Dev.FirmwareKept.layerAwaits {d d' : Dev} (h : d.FirmwareKept d') (port : Nat) : d'.layerAwaits port = d.layerAwaits port := by
  rw [Dev.layerAwaits, h.get _ (by decide), h.get _ (by decide), h.tk.2.1, Dev.layerAwaits]

theorem Dev.FirmwareKept.storedVersion {d d' : Dev} (h : d.FirmwareKept d') (t : Nat) : d'.storedVersion t = d.storedVersion t := by
  rw [Dev.storedVersion, Dev.slotOfType_congr h.tk.2.2.1, Dev.storedVersion]

/-- What a leaf that runs makes of Layering and the flags (R615, R617, R618). -/
def Dev.LeafRuns (d : Dev) (port version major : Nat) (d' : Dev) : Prop :=
  let conf := d.tk.flash.conf.find? (·.unit = d.leafAddress port)
  (d.get 0x1815_04 ≠ 0 → conf = none → d.layerAwaits port = false → d' = d) ∧
  (∀ c, conf = some c → c.major ≠ major → (d'.get 0x1804_00).testBit 4 = true) ∧
  (conf = none → d.layerAwaits port = true →
    if version = d.storedVersion 1 then d'.tk.layer.phase = .joining ∧ d'.get 0x1803_02 = 3
    else d'.get 0x1803_02 = 5 ∧ d'.get 0x1803_06 = 3 ∧ (d'.get 0x1804_00).testBit 3 = true)

theorem Dev.leafRuns (d : Dev) (port version major : Nat) :
    d.LeafRuns port version major
      (((d.packToLeaf port).restoreWith (d.leafAddress port) major (Dev.restoreToLeaf port)).layerRunning port version) := by
  have hpack := Dev.FirmwareKept.packToLeaf d port
  obtain ⟨-, -, hflash, -⟩ := hpack.tk
  refine ⟨fun hno hconf hidle => ?_, fun c hconf hmajor => ?_, fun hconf hawaits => ?_⟩
  · have hsame : d.packToLeaf port = d := if_pos (by simpa using hno)
    rw [hsame, d.restoreWith_none _ _ hconf, d.layerRunning_idle _ hidle]
  · rw [(d.packToLeaf port).restoreWith_mismatch _ (by rw [hflash]; exact hconf) hmajor]
    exact Dev.layerRunning_flag _ _ _ (Dev.testBit_flag _ (i := 0x1804) (by decide) (Dev.flags_width _) (by decide))
  · rw [(d.packToLeaf port).restoreWith_none _ _ (by rw [hflash]; exact hconf), ← hpack.storedVersion]
    rw [← hpack.layerAwaits] at hawaits
    split
    · next hversion =>
      rw [hversion]
      exact Dev.layerRunning_joins _ hawaits
    · next hversion =>
      rw [Dev.layerRunning_halts _ hawaits hversion]
      exact Dev.haltLayer_shows _ (by decide)

theorem execLeafRunning_yields (s : State) (port version major : Nat) (_ : s.built) (hruns : s.runs .trunk) (hport : port ≤ 255)
    (hrunning : s.trunk.running = true) :
    Yields (exec (.leafRunning port version major) s) s .trunk fun d =>
      let conf := s.trunk.tk.flash.conf.find? (·.unit = s.trunk.leafAddress port)
      (s.trunk.get 0x1815_04 ≠ 0 → conf = none → s.trunk.layerAwaits port = false → d = (s.unit .trunk)) ∧
      (∀ c, conf = some c → c.major ≠ major → (d.get 0x1804_00).testBit 4 = true) ∧
      (conf = none → s.trunk.layerAwaits port = true →
        if version = s.trunk.storedVersion 1 then d.tk.layer.phase = .joining ∧ d.get 0x1803_02 = 3
        else d.get 0x1803_02 = 5 ∧ d.get 0x1803_06 = 3 ∧ (d.get 0x1804_00).testBit 3 = true) := by
  show Yields (execLeafRunning port version major s) s _ _
  unfold execLeafRunning State.onTrunk
  refine State.on_yields _ _ _ _ hruns ?_
  have hrunning' : (s.unit .trunk).running = true := hrunning
  rw [if_neg (by simp [hrunning', Nat.not_lt.mpr hport])]
  exact (s.unit .trunk).leafRuns port version major

/-! ### LEAF_BOOT_TIMEOUT -/

theorem execLeafBootTimeout_yields (s : State) (_ : s.built) (hruns : s.runs .trunk) :
    Yields (exec .leafBootTimeout s) s .trunk fun d =>
      if s.trunk.get 0x1803_02 = 3 ∧ s.trunk.tk.layer.phase = .booting ∧ s.trunk.tk.layer.since + s.trunk.get 0x1803_05 ≤ s.trunk.now then
        d.get 0x1803_02 = 5 ∧ d.get 0x1803_06 = 1 ∧ (d.get 0x1804_00).testBit 3 = true
      else d = (s.unit .trunk) := by
  show Yields (execLeafBootTimeout s) s _ _
  unfold execLeafBootTimeout State.onTrunk
  refine State.on_yields _ _ _ _ hruns ?_
  show if (s.unit .trunk).get 0x1803_02 = 3 ∧ (s.unit .trunk).tk.layer.phase = .booting ∧
    (s.unit .trunk).tk.layer.since + (s.unit .trunk).get 0x1803_05 ≤ (s.unit .trunk).now then _ else _
  simp only [Bool.and_eq_true, decide_eq_true_eq, and_assoc]
  split
  · exact (s.unit .trunk).haltLayer_shows (by decide)
  · rfl

/-! ### THERMAL_TRIP -/

/-- The trunk as a thermal trip has been noted and counted, before lasers and links go down (R643). -/
def Dev.tripNoted (d : Dev) : Dev :=
  let open_ (k : Nat) : Nat := (Config.unstated k d.now).toNat
  let d := (d.emit (.pin .thermtrip 0 1)).fatalFault (open_ 0x1002_01 % 65536) (open_ 0x1002_03 % 2 ^ 32)
  Dev.inc { d with tk := { d.tk with tripped := true } } 0x1002_03

/-- A laser goes off, and its port's link with it (R643). -/
def Dev.laserOff (d : Dev) (p : Nat) : Dev := (d.emit (.pin .laserEn p 0)).portDrop p 0

theorem Dev.trip_eq (d : Dev) :
    d.trip = (List.range 256).foldl (fun (d : Dev) n => d.stemDrop (.trunk n) 0) ((List.range 6).foldl Dev.laserOff d.tripNoted) := rfl

theorem Dev.laserOff_kept (d : Dev) (p : Nat) : d.FirmwareKept (d.laserOff p) :=
  (Dev.FirmwareKept.emit d _).trans (.portDrop _ p 0)

theorem Dev.mem_laserOff (d : Dev) (p : Nat) : .pin .laserEn p 0 ∈ (d.laserOff p).out :=
  (Dev.FirmwareKept.portDrop (d.emit (.pin .laserEn p 0)) p 0).out.subset (by simp [Dev.emit])

/-- Every laser of a list goes off. -/
theorem Dev.mem_lasersOff (l : List Nat) (d : Dev) {p : Nat} (hp : p ∈ l) : .pin .laserEn p 0 ∈ (l.foldl Dev.laserOff d).out := by
  induction l generalizing d with
  | nil => cases hp
  | cons q qs ih =>
    rw [List.foldl_cons]
    rcases List.mem_cons.mp hp with rfl | hq
    · have hrest := Dev.FirmwareKept.foldl Dev.laserOff_kept qs (d.laserOff p)
      generalize qs.foldl Dev.laserOff (d.laserOff p) = d' at hrest ⊢
      exact hrest.out.subset (d.mem_laserOff p)
    · exact ih (d.laserOff q) hq

/-- A trip shows in its count, and its output is high (R643). -/
theorem Dev.tripNoted_spec (d : Dev) (hroom : d.get 0x1002_03 + 1 < 2 ^ 32) :
    d.tripNoted.tk.tripped = true ∧ d.tripNoted.get 0x1002_03 = d.get 0x1002_03 + 1 ∧ .pin .thermtrip 0 1 ∈ d.tripNoted.out := by
  unfold Dev.tripNoted
  extract_lets open_ d1
  have htrace : (d.emit (.pin .thermtrip 0 1)).TracesOnly d1 := .fatalFault _ _ _
  have hkept : d.FirmwareKept d1 := (Dev.FirmwareKept.emit d _).trans (.of_tracesOnly htrace)
  have hout : .pin .thermtrip 0 1 ∈ d1.out := (Dev.FirmwareKept.of_tracesOnly htrace).out.subset (by simp [Dev.emit])
  have hcount : d1.get 0x1002_03 = d.get 0x1002_03 := hkept.get _ (by decide)
  clear_value d1
  refine ⟨by simp, ?_, by simpa using hout⟩
  rw [← hcount]
  refine Dev.get_inc_self { d1 with tk := { d1.tk with tripped := true } } _ ?_
  have hfits : d1.get 0x1002_03 + 1 < 2 ^ 32 := by rwa [hcount]
  exact hfits.trans_le (by decide)

theorem Dev.trip_spec (d : Dev) (hroom : d.get 0x1002_03 + 1 < 2 ^ 32) :
    d.trip.tk.tripped = true ∧ d.trip.get 0x1002_03 = d.get 0x1002_03 + 1 ∧ .pin .thermtrip 0 1 ∈ d.trip.out ∧
    ∀ p < 6, .pin .laserEn p 0 ∈ d.trip.out := by
  obtain ⟨htripped, hcount, hpin⟩ := d.tripNoted_spec hroom
  have hlasers := Dev.FirmwareKept.foldl Dev.laserOff_kept (List.range 6) d.tripNoted
  have hstems := Dev.FirmwareKept.foldl (fun d n => .stemDrop d n 0) (List.range 256) ((List.range 6).foldl Dev.laserOff d.tripNoted)
  have hall := hlasers.trans hstems
  obtain ⟨-, -, -, htrip⟩ := hall.tk
  rw [d.trip_eq]
  exact ⟨htrip.trans htripped, (hall.get _ (by decide)).trans hcount, hall.out.subset hpin,
    fun p hp => hstems.out.subset (Dev.mem_lasersOff _ _ (List.mem_range.mpr hp))⟩

theorem execThermalTrip_yields (s : State) (_ : s.built) (hruns : s.runs .trunk) (hroom : s.trunk.get 0x1002_03 + 1 < 2 ^ 32) :
    Yields (exec .thermalTrip s) s .trunk fun d =>
      if s.trunk.tk.tripped = true ∨ s.self.tooHot = false then d = (s.unit .trunk)
      else d.tk.tripped = true ∧ d.get 0x1002_03 = s.trunk.get 0x1002_03 + 1 ∧ .pin .thermtrip 0 1 ∈ d.out ∧
        ∀ p < 6, .pin .laserEn p 0 ∈ d.out := by
  show Yields (execThermalTrip s) s _ _
  unfold execThermalTrip State.onTrunk
  refine State.on_yields _ _ _ _ hruns ?_
  show if (s.unit .trunk).tk.tripped = true ∨ s.self.tooHot = false then _ else _
  simp only [Bool.or_eq_true, Bool.not_eq_true']
  split
  · rfl
  · exact (s.unit .trunk).trip_spec hroom

/-! ### Counts of a leaf's faults -/

/-- An always-on count of a leaf goes up by one (R149). -/
theorem Dev.always_one (d : Dev) {sub : Nat} (hleaf : d.isTrunk = false) (hroom : d.get (key 0x2108 sub) + 1 < 2 ^ 32)
    (hwidth : 32 ≤ minWidth (key 0x2108 sub)) :
    (d.always sub 1).get (key 0x2108 sub) = d.get (key 0x2108 sub) + 1 ∧ d.onlyObjects (d.always sub 1) [key 0x2108 sub] := by
  have hcount : d.always sub 1 = d.set (key 0x2108 sub) (d.get (key 0x2108 sub) + 1) := if_neg (by simp [hleaf])
  rw [hcount]
  exact ⟨Dev.get_set_fits _ _ _ (hroom.trans_le (Nat.pow_le_pow_right (by decide) hwidth)), Dev.set_onlyObjects _ _ _⟩

theorem State.unit_leaf_isTrunk {s : State} (hbuilt : s.built) (l : LeafId) : (s.unit (.leaf l)).isTrunk = false := by
  have hbuild : (s.unit (.leaf l)).cfg.build = .leaf := s.built_leaf hbuilt l
  exact decide_eq_false (by rw [hbuild]; decide)

theorem execHostError_yields (s : State) (l : LeafId) (n : Nat) (hbuilt : s.built) (hruns : s.runs (.leaf l)) (hn : n < 16)
    (hroom : (s.dev (.leaf l)).get (key 0x2108 (0x31 + n)) + 1 < 2 ^ 32) :
    Yields (exec (.hostError l n) s) s (.leaf l) fun d =>
      d.get (key 0x2108 (0x31 + n)) = (s.dev (.leaf l)).get (key 0x2108 (0x31 + n)) + 1 ∧
      (s.unit (.leaf l)).onlyObjects d [key 0x2108 (0x31 + n)] := by
  have hwidth : ∀ n < 16, 32 ≤ minWidth (key 0x2108 (0x31 + n)) := by decide
  show Yields (execHostError l n s) s _ _
  unfold execHostError State.onLeaf
  refine State.on_yields _ _ _ _ hruns ?_
  rw [if_pos hn]
  exact (s.unit (.leaf l)).always_one (State.unit_leaf_isTrunk hbuilt l) hroom (hwidth n hn)

theorem execServiceFrameFcsFail_yields (s : State) (l : LeafId) (hbuilt : s.built) (hruns : s.runs (.leaf l))
    (hroom : (s.dev (.leaf l)).get 0x2108_15 + 1 < 2 ^ 32) :
    Yields (exec (.serviceFrameFcsFail l) s) s (.leaf l) fun d =>
      d.get 0x2108_15 = (s.dev (.leaf l)).get 0x2108_15 + 1 ∧ (s.unit (.leaf l)).onlyObjects d [0x2108_15] := by
  show Yields (execServiceFrameFcsFail l s) s _ _
  unfold execServiceFrameFcsFail State.onLeaf
  refine State.on_yields _ _ _ _ hruns ?_
  exact (s.unit (.leaf l)).always_one (sub := 0x15) (State.unit_leaf_isTrunk hbuilt l) hroom (by decide)

/-! ### The obligation -/

/-- Settles O57: one lemma per command, over what the loader's and Layering's helpers leave: the stage, the sectors, the reset, the turn to
the next leaf, and the firmware's state that messages, faults and links keep. -/
theorem updatesProgramSlotsAndLayering : Obligations.UpdatesProgramSlotsAndLayering :=
  ⟨execTargetWrite_answers, execCommit_answers, execSectorWritten_yields, execBlock_answers, execBlockFinish_answers,
    execLayerStartTrunk_answers, execLayerStartLeaves_answers, execLeafRunning_yields, execLeafBootTimeout_yields, execThermalTrip_yields,
    execHostError_yields, execServiceFrameFcsFail_yields⟩

end Sys2Proof.Machine
end

section
/-! SUPPORT. The rows of objects whose index counts sensors, regions or clusters, for a whole range of indices at once. -/

namespace Sys2Proof.Machine

open Sys2Proof

/-- Does a row of the table name subindex `s` of an index from `lo` to `hi`? -/
def Row.meets (r : Row) (lo hi s : Nat) : Bool := r.first ≤ hi && lo ≤ r.last && r.sub ≤ s && s ≤ r.subEnd

theorem Row.meets_of_names {r : Row} {i s lo hi : Nat} (hlo : lo ≤ i) (hhi : i ≤ hi) (hfirst : r.first ≤ i) (hlast : i ≤ r.last)
    (hsub : r.sub ≤ s) (hsubEnd : s ≤ r.subEnd) : r.meets lo hi s = true := by
  simp only [Row.meets, Bool.and_eq_true, decide_eq_true_eq]
  omega

/-- What every row that names subindex `s` in a range of indices satisfies, the row of each index of the range does. -/
theorem Cfg.row_of_range {c : Cfg} {i s h lo hi : Nat} {r : Row} (p : Row → Bool)
    (hall : ((rowsOf h).all fun r => !r.meets lo hi s || p r) = true) (hh : i / 256 = h) (hlo : lo ≤ i) (hhi : i ≤ hi)
    (hr : c.rowOf i s = some r) : p r = true := by
  obtain ⟨hmem, hfirst, hlast, hsub, hsubEnd⟩ := Cfg.rowOf_mem hr
  have := List.all_eq_true.mp hall r (hh ▸ hmem)
  simpa [Row.meets_of_names hlo hhi hfirst hlast hsub hsubEnd] using this

/-- The one row that names subindex `s` in its range of indices is that of every present index of the range. -/
theorem Cfg.rowOf_of_range {c : Cfg} {i s h : Nat} (q : Row) (hq : q ∈ rowsOf h)
    (hall : ((rowsOf h).all fun r => !r.meets q.first q.last s || r = q) = true) (hh : i / 256 = h)
    (hfirst : q.first ≤ i) (hlast : i ≤ q.last) (hsub : q.sub ≤ s) (hsubEnd : s ≤ q.subEnd)
    (hbuild : q.builds.has c.build = true) (hpresent : c.present i s = true) : c.rowOf i s = some q := by
  have hsome : (c.rowOf i s).isSome = true := by
    rw [Cfg.rowOf, if_pos hpresent, List.find?_isSome]
    exact ⟨q, hh ▸ hq, by simp [hfirst, hlast, hsub, hsubEnd, hbuild]⟩
  obtain ⟨r, hr⟩ := Option.isSome_iff_exists.mp hsome
  rw [hr, of_decide_eq_true (Cfg.row_of_range (fun r => decide (r = q)) hall hh hfirst hlast hr)]

/-- An object is at least as wide as every row that may name it. -/
theorem Cfg.width_of_range {c : Cfg} {i s h lo hi w : Nat}
    (hall : ((rowsOf h).all fun r => !r.meets lo hi s || decide (w ≤ 8 * r.ty.size)) = true) (hh : i / 256 = h) (hlo : lo ≤ i)
    (hhi : i ≤ hi) (hs : s < 256) (hw : w ≤ 64) : w ≤ c.width (key i s) := by
  rw [Cfg.width, key_div hs, key_mod hs]
  split
  · next r hr => exact of_decide_eq_true (Cfg.row_of_range (fun r => decide (w ≤ 8 * r.ty.size)) hall hh hlo hhi hr)
  · exact hw

/-- An index of which a unit implements the first subindex of a row is served outside Quickset mode (R20, R610). -/
theorem Dev.serves_of_row {d : Dev} {i s : Nat} {r : Row} (hquick : d.quickset = false) (hi : i ≠ 0x1830)
    (hrow : d.cfg.rowOf i s = some r) (hs : r.sub = s) : d.serves i = true := by
  subst hs
  have hpresent : d.cfg.present i r.sub = true := by
    by_contra hn
    simp [Cfg.rowOf, hn] at hrow
  rw [Cfg.rowOf, if_pos hpresent] at hrow
  have hprop := List.find?_some hrow
  simp only [Bool.and_eq_true, decide_eq_true_eq] at hprop
  obtain ⟨⟨⟨⟨hfirst, hlast⟩, -⟩, -⟩, hbuild⟩ := hprop
  have hany : d.cfg.hasIndex i = true :=
    List.any_eq_true.mpr ⟨r, List.mem_of_find?_eq_some hrow, by simp [hfirst, hlast, hpresent, hbuild]⟩
  simp [Dev.serves, hquick, hany, hi]

end Sys2Proof.Machine
end

section
/-! SUPPORT. O18: currents, temperatures, minima and the clusters of regions (R154, R155, R157, R658). -/

namespace Sys2Proof.Machine

open Sys2Proof

/-! ### Readings of many sensors at once -/

section
variable {α β : Type} {n : Nat} {f : Dev → Nat × Option α → Dev} {obs : Dev → β}
  (hkeep : ∀ (d : Dev) (x : Nat × Option α), (∀ v, x ≠ (n, some v)) → obs (f d x) = obs d)
include hkeep

/-- Of a sensor without a valid reading, everything stays. -/
theorem foldl_readings_kept (l : List (Nat × Option α)) (hl : ∀ v, (n, some v) ∉ l) (d : Dev) : obs (l.foldl f d) = obs d := by
  induction l generalizing d with
  | nil => rfl
  | cons x xs ih =>
    rw [List.foldl_cons, ih (fun v hv => hl v (List.mem_cons_of_mem x hv)),
      hkeep d x fun v hx => hl v (hx ▸ List.mem_cons_self)]

/-- The valid reading of a sensor, of which there is one, is what it shows in the end. -/
theorem foldl_readings_taken (hcfg : ∀ (d : Dev) (x : Nat × Option α), (f d x).cfg = d.cfg) {c : Cfg} {v : α} {w : β}
    (htake : ∀ d : Dev, d.cfg = c → obs (f d (n, some v)) = w) (l : List (Nat × Option α)) (hone : (l.map (·.1)).Nodup)
    (hmem : (n, some v) ∈ l) (d : Dev) (hd : d.cfg = c) : obs (l.foldl f d) = w := by
  induction l generalizing d with
  | nil => cases hmem
  | cons x xs ih =>
    rw [List.map_cons, List.nodup_cons] at hone
    obtain ⟨hx, hxs⟩ := hone
    rw [List.foldl_cons]
    rcases List.mem_cons.mp hmem with rfl | hmem
    · rw [foldl_readings_kept hkeep xs fun v hv => hx (List.mem_map_of_mem (f := (·.1)) hv)]
      exact htake d hd
    · exact ih hxs hmem _ ((hcfg d x).trans hd)

end

/-! ### Region-off requests -/

theorem Dev.get_darken_of_ne (d : Dev) {r k : Nat} (hdark : k ≠ key (0x2450 + r) 4) (hcount : k ≠ 0x2405_07) :
    (d.darken r).get k = d.get k := by
  show (Dev.inc _ _).get k = _
  rw [Dev.get_inc_of_ne _ _ _ hcount, Dev.get_setB_of_ne _ _ _ _ hdark]

@[simp] theorem Dev.darken_pow (d : Dev) (r : Nat) : (d.darken r).pow = d.pow := by simp [Dev.darken]

@[simp] theorem Dev.darken_cfg (d : Dev) (r : Nat) : (d.darken r).cfg = d.cfg := by simp [Dev.darken]

theorem Dev.get_darkenAll_of_ne (rs : List Nat) (d : Dev) {k : Nat} (hdark : ∀ r ∈ rs, k ≠ key (0x2450 + r) 4)
    (hcount : k ≠ 0x2405_07) : (rs.foldl Dev.darken d).get k = d.get k := by
  induction rs generalizing d with
  | nil => rfl
  | cons r rs ih =>
    rw [List.foldl_cons, ih _ (fun x hx => hdark x (List.mem_cons_of_mem r hx)),
      d.get_darken_of_ne (hdark r List.mem_cons_self) hcount]

@[simp] theorem Dev.darkenAll_pow (rs : List Nat) (d : Dev) : (rs.foldl Dev.darken d).pow = d.pow := by
  induction rs generalizing d with
  | nil => rfl
  | cons r rs ih => rw [List.foldl_cons, ih, Dev.darken_pow]

@[simp] theorem Dev.modEpisode_get (d : Dev) (c : Nat) (f : Episode → Episode) (k : Nat) : (d.modEpisode c f).get k = d.get k := rfl

theorem Dev.get_darkenFaulted_of_ne (d : Dev) (c : Nat) {k : Nat} (hdark : ∀ r, k ≠ key (0x2450 + r) 4) (hcount : k ≠ 0x2405_07) :
    (d.darkenFaulted c).1.get k = d.get k :=
  Dev.get_darkenAll_of_ne _ d (fun r _ => hdark r) hcount

theorem Dev.darkenFaulted_pow (d : Dev) (c : Nat) :
    (d.darkenFaulted c).1.pow = { d.pow with episodes := (d.darkenFaulted c).1.pow.episodes } := by
  simp [Dev.darkenFaulted, Dev.modEpisode]

/-- The comparison of R167 darkens faulted regions with two flags, or nothing. -/
theorem Dev.overcarry_cases (d : Dev) (c : Nat) :
    d.overcarry c = d ∨ d.overcarry c = (d.darkenFaulted c).1 ∨
      d.overcarry c = ((d.darkenFaulted c).1.flag 0x2401 4).flag 0x2401 2 := by
  unfold Dev.overcarry
  dsimp only
  split
  · split
    · exact .inr (.inl rfl)
    · exact .inr (.inr rfl)
  · exact .inl rfl

/-! ### CURRENT_SAMPLE -/

/-- One reading of a current sample (R154, R155). -/
def Dev.currentReading (d : Dev) (x : Nat × Option Nat) : Dev :=
  match x.2 with
  | some v => if x.1 < d.cfg.powerRegions then d.set (key (0x2450 + x.1) 1) v else d
  | none => d

/-- A current sample before its comparison with the carry limits. -/
def Dev.sampled (d : Dev) (vals : List (Nat × Option Nat)) : Dev :=
  let d := (vals.foldl Dev.currentReading d).mergeCurrents vals
  { d with pow := { d.pow with lastCur := d.time.tick / 16, curTick := some d.time.tick } }

theorem execCurrentSample_eq (l : LeafId) (vals : List (Nat × Option Nat)) (s : State) :
    execCurrentSample l vals s = s.onLeaf l fun d =>
      if !d.currentDue then d
      else if (d.sampled vals).cfg.inrushGate then
        (List.range (d.sampled vals).cfg.clusters).foldl Dev.overcarry (d.sampled vals)
      else d.sampled vals := rfl

theorem Dev.currentReading_cfg (d : Dev) (x : Nat × Option Nat) : (d.currentReading x).cfg = d.cfg := by
  unfold Dev.currentReading
  split
  · split <;> rfl
  · rfl

theorem Dev.currentReading_time (d : Dev) (x : Nat × Option Nat) : (d.currentReading x).time = d.time := by
  unfold Dev.currentReading
  split
  · split <;> rfl
  · rfl

theorem Dev.get_currentReading_of_ne (d : Dev) {n : Nat} (x : Nat × Option Nat) (hx : ∀ v, x ≠ (n, some v)) :
    (d.currentReading x).get (key (0x2450 + n) 1) = d.get (key (0x2450 + n) 1) := by
  obtain ⟨r, v⟩ := x
  cases v with
  | none => rfl
  | some v =>
    have hr : r ≠ n := fun h => hx v (by rw [h])
    unfold Dev.currentReading
    dsimp only
    split
    · exact Dev.get_set_of_ne _ _ _ _ (by unfold key; omega)
    · rfl

theorem Dev.get_currentReading_self (d : Dev) {r v : Nat} (hr : r < d.cfg.powerRegions) (hr' : r < 64) (hv : v < 2 ^ 32) :
    (d.currentReading (r, some v)).get (key (0x2450 + r) 1) = v := by
  unfold Dev.currentReading
  dsimp only
  rw [if_pos hr]
  exact d.get_set_of_width (w := 32)
    (Cfg.width_of_range (h := 0x24) (lo := 0x2450) (hi := 0x248F) (by decide) (by omega) (by omega) (by omega) (by decide) (by decide))
    (by decide) hv

theorem Dev.sampled_get (d : Dev) (vals : List (Nat × Option Nat)) (k : Nat) :
    (d.sampled vals).get k = (vals.foldl Dev.currentReading d).get k := rfl

theorem Dev.sampled_lastCur (d : Dev) (vals : List (Nat × Option Nat)) : (d.sampled vals).pow.lastCur = d.time.tick / 16 := by
  show (vals.foldl Dev.currentReading d).time.tick / 16 = _
  rw [Dev.foldl_time _ Dev.currentReading_time]

/-- The comparison with the carry limits leaves the currents and the time of the sample (R167). -/
theorem Dev.overcarryAll_kept (l : List Nat) (d : Dev) :
    (l.foldl Dev.overcarry d).pow.lastCur = d.pow.lastCur ∧
      ∀ r < 64, (l.foldl Dev.overcarry d).get (key (0x2450 + r) 1) = d.get (key (0x2450 + r) 1) := by
  have hdarken (d : Dev) (c : Nat) : (d.darkenFaulted c).1.pow.lastCur = d.pow.lastCur ∧
      ∀ r < 64, (d.darkenFaulted c).1.get (key (0x2450 + r) 1) = d.get (key (0x2450 + r) 1) :=
    ⟨by rw [d.darkenFaulted_pow c], fun r _ => d.get_darkenFaulted_of_ne c (fun x => by unfold key; omega) (by unfold key; omega)⟩
  have hstep (d : Dev) (c : Nat) : (d.overcarry c).pow.lastCur = d.pow.lastCur ∧
      ∀ r < 64, (d.overcarry c).get (key (0x2450 + r) 1) = d.get (key (0x2450 + r) 1) := by
    rcases d.overcarry_cases c with h | h | h
    · rw [h]
      exact ⟨rfl, fun _ _ => rfl⟩
    · rw [h]
      exact hdarken d c
    · rw [h, Dev.flag_pow, Dev.flag_pow]
      refine ⟨(hdarken d c).1, fun r hr => Eq.trans ?_ ((hdarken d c).2 r hr)⟩
      have hne (i s : Nat) (hi : i < 0x2450) (hs : s < 256) : key (0x2450 + r) 1 ≠ key i s := by unfold key; omega
      have hflag (d : Dev) (b : Nat) (hb : b < 255) : (d.flag 0x2401 b).get (key (0x2450 + r) 1) = d.get (key (0x2450 + r) 1) :=
        d.get_flag_of_ne _ _ _ (hne _ _ (by decide) (by decide)) (hne _ _ (by decide) (by omega)) (hne _ _ (by decide) (by decide))
      rw [hflag _ _ (by decide), hflag _ _ (by decide)]
  induction l generalizing d with
  | nil => exact ⟨rfl, fun _ _ => rfl⟩
  | cons c l ih =>
    obtain ⟨hlast, hget⟩ := ih (d.overcarry c)
    exact ⟨hlast.trans (hstep d c).1, fun r hr => (hget r hr).trans ((hstep d c).2 r hr)⟩

theorem currentSample_yields (s : State) (l : LeafId) (vals : List (Nat × Option Nat)) (hruns : s.runs (.leaf l))
    (hdue : (s.dev (.leaf l)).pow.lastCur < (s.dev (.leaf l)).time.tick / 16) (hone : (vals.map (·.1)).Nodup)
    (hregions : (s.dev (.leaf l)).cfg.powerRegions ≤ 64) (hvals : ∀ x ∈ vals, ∀ v, x.2 = some v → v < 2 ^ 32) :
    Yields (exec (.currentSample l vals) s) s (.leaf l) fun d =>
      (∀ r v, (r, some v) ∈ vals → r < (s.dev (.leaf l)).cfg.powerRegions → d.get (key (0x2450 + r) 1) = v) ∧
      (∀ r < 64, (∀ v, (r, some v) ∉ vals) →
        d.get (key (0x2450 + r) 1) = (s.dev (.leaf l)).get (key (0x2450 + r) 1)) ∧
      d.pow.lastCur = (s.dev (.leaf l)).time.tick / 16 := by
  show Yields (execCurrentSample l vals s) _ _ _
  rw [execCurrentSample_eq]
  refine State.on_yields _ _ _ _ hruns ?_
  have hnow : (s.unit (.leaf l)).currentDue = true := decide_eq_true hdue
  rw [hnow, Bool.not_true, if_neg Bool.false_ne_true]
  have hsampled : ((s.unit (.leaf l)).sampled vals).pow.lastCur = (s.dev (.leaf l)).time.tick / 16 := Dev.sampled_lastCur _ _
  have hset (r v : Nat) (hmem : (r, some v) ∈ vals) (hr : r < (s.dev (.leaf l)).cfg.powerRegions) :
      ((s.unit (.leaf l)).sampled vals).get (key (0x2450 + r) 1) = v :=
    foldl_readings_taken (obs := fun d => d.get (key (0x2450 + r) 1)) (fun d x => d.get_currentReading_of_ne x) Dev.currentReading_cfg
      (fun d hd => d.get_currentReading_self (hd ▸ hr) (by omega) (hvals _ hmem v rfl)) vals hone hmem (s.unit (.leaf l)) rfl
  have hkept (r : Nat) (hnone : ∀ v, (r, some v) ∉ vals) :
      ((s.unit (.leaf l)).sampled vals).get (key (0x2450 + r) 1) = (s.dev (.leaf l)).get (key (0x2450 + r) 1) :=
    foldl_readings_kept (obs := fun d => d.get (key (0x2450 + r) 1)) (fun d x => d.get_currentReading_of_ne x) vals hnone
      (s.unit (.leaf l))
  split
  · obtain ⟨hlast, hget⟩ := Dev.overcarryAll_kept (List.range ((s.unit (.leaf l)).sampled vals).cfg.clusters)
      ((s.unit (.leaf l)).sampled vals)
    exact ⟨fun r v hmem hr => (hget r (by omega)).trans (hset r v hmem hr), fun r hr hnone => (hget r hr).trans (hkept r hnone),
      hlast.trans hsampled⟩
  · exact ⟨hset, fun r _ => hkept r, hsampled⟩

/-! ### TestAllowed -/

theorem Dev.refreshTest_eq (d : Dev) : d.refreshTest = { d with objs := d.refreshTest.objs } := by
  unfold Dev.refreshTest
  split <;> rfl

theorem Dev.get_refreshTest_of_ne (d : Dev) {k : Nat} (hk : k ≠ 0x2406_04) : d.refreshTest.get k = d.get k := by
  unfold Dev.refreshTest
  split
  · exact Dev.get_setB_of_ne _ _ _ _ hk
  · rfl

@[simp] theorem Dev.refreshTest_pow (d : Dev) : d.refreshTest.pow = d.pow := by rw [d.refreshTest_eq]

@[simp] theorem Dev.refreshTest_cfg (d : Dev) : d.refreshTest.cfg = d.cfg := by rw [d.refreshTest_eq]

@[simp] theorem Dev.refreshTest_rcd (d : Dev) : d.refreshTest.rcd = d.rcd := by rw [d.refreshTest_eq]

/-! ### TEMPERATURE_READING -/

/-- One reading of the temperature sensors (R154, R155). -/
def Dev.temperature (d : Dev) (x : Nat × Option Int) : Dev :=
  match x.2 with
  | some v => if x.1 < d.cfg.tempRegions.length then d.tempReading x.1 v else d
  | none => d

theorem execTemperatureReading_eq (l : LeafId) (vals : List (Nat × Option Int)) (s : State) :
    execTemperatureReading l vals s = s.onLeaf l fun d =>
      if d.time.tick / 12500 ≤ d.pow.lastTemp then d
      else Dev.refreshTest { vals.foldl Dev.temperature d with
        pow := { (vals.foldl Dev.temperature d).pow with lastTemp := (vals.foldl Dev.temperature d).time.tick / 12500 } } := rfl

theorem Dev.temperature_cfg (d : Dev) (x : Nat × Option Int) : (d.temperature x).cfg = d.cfg := by
  unfold Dev.temperature
  split
  · split <;> rfl
  · rfl

theorem Dev.temperature_time (d : Dev) (x : Nat × Option Int) : (d.temperature x).time = d.time := by
  unfold Dev.temperature
  split
  · split <;> rfl
  · rfl

/-- A signed object reads the same where its value and its type do. -/
theorem Dev.getI_congr {d d' : Dev} {k : Nat} (hcfg : d'.cfg = d.cfg) (hget : d'.get k = d.get k) : d'.getI k = d.getI k := by
  rw [Dev.getI, hcfg, hget, Dev.getI]

theorem Dev.getI_temperature_of_ne (d : Dev) {n : Nat} (x : Nat × Option Int) (hx : ∀ v, x ≠ (n, some v)) :
    (d.temperature x).getI (key (0x24A0 + n) 1) = d.getI (key (0x24A0 + n) 1) := by
  refine Dev.getI_congr (d.temperature_cfg x) ?_
  obtain ⟨m, v⟩ := x
  cases v with
  | none => rfl
  | some v =>
    have hm : m ≠ n := fun h => hx v (by rw [h])
    unfold Dev.temperature
    dsimp only
    split
    · exact (Dev.get_set_of_ne _ _ _ _ (by unfold key; omega)).trans (Dev.get_set_of_ne _ _ _ _ (by unfold key; omega))
    · rfl

/-- A temperature sensor's Reading on every leaf that has the sensor. -/
theorem tempReading_width {c : Cfg} (hbuild : c.build = .leaf) {n : Nat} (hn : n < c.tempRegions.length) (hn' : n < 32) :
    c.width (key (0x24A0 + n) 1) = 16 := by
  have hpresent : c.present (0x24A0 + n) 1 = true := by
    have h24 : (0x24A0 + n) / 256 = 0x24 := by omega
    unfold Cfg.present
    simp only [h24]
    simp
    split_ifs <;> omega
  have hrow := Cfg.rowOf_of_range (c := c) (i := 0x24A0 + n) (s := 1) (h := 0x24)
    (row 0x24A0 0x24BF 0x01 0x01 .i16 .ro 32768 false .leaf (.any) 2) (by decide) (by decide) (by omega) (by simp [row])
    (by simp [row]; omega) (by decide) (by decide) (by rw [hbuild]; rfl) hpresent
  exact Cfg.width_of_row (by decide) hrow

/-- A signed value of 16 bits is read back from the low bits of its two's complement. -/
theorem toSigned_ofSigned_16 {v : Int} (hlo : -32768 ≤ v) (hhi : v < 32768) :
    toSigned 16 (ofSigned 64 v % 2 ^ 16 % 2 ^ 64) = v := by
  unfold toSigned ofSigned
  norm_num
  split <;> omega

theorem Dev.getI_temperature_self (d : Dev) (hbuild : d.cfg.build = .leaf) {n : Nat} {v : Int} (hn : n < d.cfg.tempRegions.length)
    (hn' : n < 32) (hlo : -32768 ≤ v) (hhi : v < 32768) : (d.temperature (n, some v)).getI (key (0x24A0 + n) 1) = v := by
  have hset : (d.temperature (n, some v)).get (key (0x24A0 + n) 1) = ofSigned 64 v % 2 ^ 16 % 2 ^ 64 := by
    unfold Dev.temperature
    dsimp only
    rw [if_pos hn]
    refine (Dev.get_set_of_ne _ _ _ _ (by unfold key; omega)).trans ?_
    rw [Dev.setI, Dev.get_set_self, tempReading_width hbuild hn hn']
  rw [Dev.getI, Dev.temperature_cfg, tempReading_width hbuild hn hn', hset, toSigned_ofSigned_16 hlo hhi]

theorem temperatureReading_yields (s : State) (l : LeafId) (vals : List (Nat × Option Int)) (hruns : s.runs (.leaf l))
    (hdue : (s.dev (.leaf l)).pow.lastTemp < (s.dev (.leaf l)).time.tick / 12500) (hone : (vals.map (·.1)).Nodup)
    (hbuild : (s.dev (.leaf l)).cfg.build = .leaf) (hsensors : (s.dev (.leaf l)).cfg.tempRegions.length ≤ 32) :
    Yields (exec (.temperatureReading l vals) s) s (.leaf l) fun d =>
      (∀ n v, (n, some v) ∈ vals → n < (s.dev (.leaf l)).cfg.tempRegions.length → -32768 ≤ v → v < 32768 →
        d.getI (key (0x24A0 + n) 1) = v) ∧
      (∀ n < 32, (∀ v, (n, some v) ∉ vals) → d.getI (key (0x24A0 + n) 1) = (s.dev (.leaf l)).getI (key (0x24A0 + n) 1)) ∧
      d.pow.lastTemp = (s.dev (.leaf l)).time.tick / 12500 := by
  show Yields (execTemperatureReading l vals s) _ _ _
  rw [execTemperatureReading_eq]
  refine State.on_yields _ _ _ _ hruns ?_
  rw [if_neg (by show ¬ (s.dev (.leaf l)).time.tick / 12500 ≤ (s.dev (.leaf l)).pow.lastTemp; omega)]
  have hshow (d : Dev) (p : PowerSt) (n : Nat) :
      (Dev.refreshTest { d with pow := p }).getI (key (0x24A0 + n) 1) = d.getI (key (0x24A0 + n) 1) :=
    Dev.getI_congr (Dev.refreshTest_cfg _) (Dev.get_refreshTest_of_ne _ (by unfold key; omega))
  refine ⟨fun n v hmem hn hlo hhi => (hshow _ _ n).trans ?_, fun n _ hnone => (hshow _ _ n).trans ?_, ?_⟩
  · exact foldl_readings_taken (obs := fun d => d.getI (key (0x24A0 + n) 1)) (fun d x => d.getI_temperature_of_ne x) Dev.temperature_cfg
      (fun d hd => d.getI_temperature_self (hd ▸ hbuild) (hd ▸ hn) (by omega) hlo hhi) vals hone hmem (s.unit (.leaf l)) rfl
  · exact foldl_readings_kept (obs := fun d => d.getI (key (0x24A0 + n) 1)) (fun d x => d.getI_temperature_of_ne x) vals hnone
      (s.unit (.leaf l))
  · rw [Dev.refreshTest_pow]
    show (vals.foldl Dev.temperature (s.unit (.leaf l))).time.tick / 12500 = _
    rw [Dev.foldl_time _ Dev.temperature_time]
    rfl

/-! ### MIN_V_READ -/

/-- What MIN_V_READ finds of a sensor on every leaf that has it: its rows, and the computed values that it is none of. -/
theorem minV_object {d : Dev} (hbuild : d.cfg.build = .leaf) {n : Nat} (hn : n < d.cfg.voltRegions.length) (hn' : n < 64) :
    d.cfg.rowOf (0x2410 + n) 2 = some (row 0x2410 0x244F 0x02 0x02 .u32 .ro 0xFFFFFFFF false .leaf (.any) 4) ∧
    isRes d.cfg (0x2410 + n) = false ∧ d.value (0x2410 + n) 2 = d.get (key (0x2410 + n) 2) := by
  have hh : (0x2410 + n) / 256 = 0x24 := by omega
  have hpresent : d.cfg.present (0x2410 + n) 2 = true := by
    unfold Cfg.present
    simp only [hh]
    simp
    split_ifs <;> omega
  refine ⟨?_, ?_, ?_⟩
  · exact Cfg.rowOf_of_range (h := 0x24) _ (by decide) (by decide) hh (by simp [row]) (by simp [row]; omega) (by decide) (by decide)
      (by rw [hbuild]; rfl) hpresent
  · cases hres : isRes d.cfg (0x2410 + n) with
    | false => rfl
    | true =>
      obtain ⟨r, hr, hacc⟩ := isRes_row hres
      have := Cfg.row_of_range (fun r => decide (r.acc ≠ .res)) (h := 0x24) (lo := 0x2410) (hi := 0x244F) (by decide) hh (by omega)
        (by omega) hr
      simp [hacc] at this
  · have hnone : d.computed (0x2410 + n) 2 = none := by
      interval_cases n <;> rfl
    rw [Dev.value, hnone, Option.getD_none]

/-- A read of MinV copies the minimum's stamp and re-arms the minimum (R157). -/
theorem Dev.readEffect_minV (d : Dev) {n : Nat} (hn : n < 64) (hstamp : d.pow.runStamp.getD n 0 < 2 ^ 64) :
    (d.readEffect (0x2410 + n) 2).get (key (0x2410 + n) 2) = 0xFFFFFFFF ∧
    (d.readEffect (0x2410 + n) 2).get (key (0x2410 + n) 3) = d.pow.runStamp.getD n 0 ∧
    d.objectsKept (d.readEffect (0x2410 + n) 2) [key (0x2410 + n) 2, key (0x2410 + n) 3] := by
  have hvolt : isVolt (0x2410 + n) = true := by
    simp only [isVolt, Bool.and_eq_true, decide_eq_true_eq]
    omega
  have heffect : d.readEffect (0x2410 + n) 2 = d.rearmMinV (0x2410 + n) := by simp [Dev.readEffect, hvolt]
  have hget (k : Nat) : (d.rearmMinV (0x2410 + n)).get k =
      ((d.set (key (0x2410 + n) 3) (d.pow.runStamp.getD n 0)).set (key (0x2410 + n) 2) 0xFFFFFFFF).get k := by
    simp only [Dev.rearmMinV, Nat.add_sub_cancel_left]
    rfl
  have hne : key (0x2410 + n) 3 ≠ key (0x2410 + n) 2 := by unfold key; omega
  have hwide (w s : Nat) (hs : s < 256) (hw : w ≤ 64)
      (hall : ((rowsOf 0x24).all fun r => !r.meets 0x2410 0x244F s || decide (w ≤ 8 * r.ty.size)) = true) :
      w ≤ d.cfg.width (key (0x2410 + n) s) :=
    Cfg.width_of_range hall (by omega) (by omega) (by omega) hs hw
  simp only [heffect, hget, Dev.objectsKept]
  refine ⟨?_, ?_, fun k hk => ?_⟩
  · exact Dev.get_set_of_width _ (hwide 32 2 (by decide) (by decide) (by decide)) (by decide) (by decide)
  · rw [Dev.get_set_of_ne _ _ _ _ hne]
    exact Dev.get_set_of_width _ (hwide 64 3 (by decide) (by decide) (by decide)) (by decide) hstamp
  · simp only [List.mem_cons, List.not_mem_nil, or_false, not_or] at hk
    rw [Dev.get_set_of_ne _ _ _ _ hk.1, Dev.get_set_of_ne _ _ _ _ hk.2]

theorem minVRead_answers (s : State) (l : LeafId) (e : Env) (n : Nat) (hbuilt : s.built) (hruns : s.runs (.leaf l))
    (hhears : (s.unit (.leaf l)).hears e) (hquick : (s.unit (.leaf l)).quickset = false)
    (hn : n < (s.dev (.leaf l)).cfg.voltRegions.length) (hn' : n < 64)
    (hvia : if e.via = .lp then e.user = false else (s.unit (.leaf l)).latchOf e (0x2410 + n) = none)
    (hstamp : (s.dev (.leaf l)).pow.runStamp.getD n 0 < 2 ^ 64) :
    Answers (exec (.minVRead l e n) s) s (.leaf l) e 0x01 (0x2410 + n) 2 0 fun a =>
      a.abort = 0 ∧ a.data = leBytes 4 ((s.dev (.leaf l)).get (key (0x2410 + n) 2)) ∧
      a.dev.get (key (0x2410 + n) 2) = 0xFFFFFFFF ∧
      a.dev.get (key (0x2410 + n) 3) = (s.dev (.leaf l)).pow.runStamp.getD n 0 ∧
      ((s.unit (.leaf l)).heard e).objectsKept a.dev [key (0x2410 + n) 2, key (0x2410 + n) 3] := by
  refine State.serve_answers (u := .leaf l) (f := fun d => d.readAns e (0x2410 + n) 2 0 4) id hruns hhears ?_
  obtain ⟨hrow, hres, hvalue⟩ := minV_object (d := (s.unit (.leaf l)).heard e) (n := n)
    (by rw [Dev.heard_cfg]; exact State.built_leaf hbuilt l) (by rw [Dev.heard_cfg]; exact hn) hn'
  have hserves : ((s.unit (.leaf l)).heard e).serves (0x2410 + n) = true :=
    Dev.serves_of_row (by rw [Dev.quickset, Dev.heard_get]; exact hquick) (by omega) hrow rfl
  have heffect := ((s.unit (.leaf l)).heard e).readEffect_minV hn' (by rw [Dev.heard_pow]; exact hstamp)
  rw [Dev.heard_pow] at heffect
  have hvalue' : ((s.unit (.leaf l)).heard e).value (0x2410 + n) 2 = (s.dev (.leaf l)).get (key (0x2410 + n) 2) :=
    hvalue.trans (by rw [Dev.heard_get]; rfl)
  simp only [Dev.readAns, id]
  by_cases hlp : e.via = .lp
  · rw [if_pos hlp] at hvia ⊢
    rw [Dev.lpRead_of_scalar _ e _ 2 0 4 hvia hserves hrow (by decide) (by decide) rfl hres (by decide) rfl (by decide), hvalue']
    exact ⟨rfl, by simp [bytesAt, length_leBytes, OType.size, row], heffect⟩
  · rw [if_neg hlp] at hvia ⊢
    have hlatch : ((s.unit (.leaf l)).heard e).latchOf e (0x2410 + n) = none := by
      rw [Dev.heard, if_neg hlp]
      exact hvia
    rw [Dev.sdpRead_of_scalar _ e _ 2 4 hserves (by decide) hrow (by decide) (by decide) ?_ rfl ?_ hlatch, hvalue']
    · exact ⟨rfl, by simp [length_leBytes, OType.size, row], heffect⟩
    · simp [Dev.readRefused]
      omega
    · simp [Dev.slotBusy]
      omega

/-! ### CLUSTER_CHANGE -/

theorem clusterChange_yields (s : State) (l : LeafId) (r c : Nat) (hruns : s.runs (.leaf l))
    (hwaits : (s.dev (.leaf l)).pow.cluster.find? (·.1 = r) = some (r, c)) (hboundary : (s.unit (.leaf l)).boundary = true)
    (hmay : (s.unit (.leaf l)).mayMove r c = true) (hc : c < 256) :
    Yields (exec (.clusterChange l r) s) s (.leaf l) fun d =>
      d.get (key (0x2450 + r) 2) = c ∧ (∀ x, x ∈ d.pow.cluster ↔ x ∈ (s.dev (.leaf l)).pow.cluster ∧ x.1 ≠ r) ∧
      (s.unit (.leaf l)).objectsKept d [key (0x2450 + r) 2] ∧ d = { s.unit (.leaf l) with objs := d.objs, pow := d.pow } := by
  show Yields (execClusterChange l r s) _ _ _
  unfold execClusterChange
  refine State.on_yields _ _ _ _ hruns ?_
  have hwaits' : (s.unit (.leaf l)).pow.cluster.find? (·.1 = r) = some (r, c) := hwaits
  simp only [hwaits', hboundary, hmay, Bool.and_self, if_true]
  refine ⟨Dev.get_set_byte _ _ _ hc, fun x => ?_, fun k hk => ?_, rfl⟩
  · simp [State.unit]
  · rw [List.mem_singleton] at hk
    exact Dev.get_set_of_ne _ _ _ _ hk

/-- Settles O18: a sample is one write per valid reading, each of its own object, with the carry limits' requests apart from
them; a read of MinV reaches the re-arming on either transport; CLUSTER_CHANGE is one write. -/
theorem sensorsAreRead : Obligations.SensorsAreRead :=
  ⟨currentSample_yields, temperatureReading_yields, minVRead_answers, clusterChange_yields⟩

end Sys2Proof.Machine
end

section
/-! SUPPORT. Snapshot records (R220): what a cause changes, and that one which `SnapOn` leaves off changes nothing. -/

namespace Sys2Proof.Machine

open Sys2Proof

/-- A cause that `SnapOn` does not enable makes no snapshot. -/
theorem Dev.snapshot_of_off (d : Dev) {c : SnapCause} (origin : Nat) (hoff : (d.get 0x2601_01).testBit c.bit = false) :
    d.snapshot c origin = d := by
  simp [Dev.snapshot, hoff]

/-- The indices of the objects that a snapshot changes: those of a record, and the snapshots' own counts. -/
def snapshotIndices : List Nat := 0x2601 :: recordIndices

theorem Dev.KeptOutside.snapshot (d : Dev) (c : SnapCause) (origin : Nat) : d.KeptOutside snapshotIndices (d.snapshot c origin) := by
  unfold Dev.snapshot
  extract_lets again written r e never close d1
  have he : d.KeptOutside snapshotIndices e := .of_rcd d _
  have hd1 : e.KeptOutside snapshotIndices d1 := .mono (.record e _ _ _) (List.subset_cons_self _ _)
  clear_value d1
  have hlast (x : RecSt) : d1.KeptOutside snapshotIndices (Dev.inc { d1 with rcd := x } 0x2601_03) :=
    .trans (.of_rcd d1 x) (.inc _ (by decide))
  refine .ite (.refl d) (.ite (he.trans (.of_rcd e _)) (.ite (.ite he (he.trans ?_)) ((he.trans hd1).trans (hlast _))))
  exact .trans (.inc e (by decide)) (.flag _ (by decide) (by decide) (by decide) (by decide))

/-! ### A record with its snapshot -/

theorem Dev.recordSnapshot_kept (d : Dev) (kind : RecKind) (c : SnapCause) (t origin : Nat) (payload : Bytes) :
    d.KeptOutside snapshotIndices ((d.record kind t payload).snapshot c origin) :=
  .trans (.mono (.record d kind t payload) (List.subset_cons_self _ _)) (.snapshot _ c origin)

/-- A record stands as it was written where its cause makes no snapshot. -/
theorem Dev.recordSnapshot_wrote (d : Dev) (kind : RecKind) (c : SnapCause) (t origin : Nat) (payload : Bytes)
    (hoff : (d.get 0x2601_01).testBit c.bit = false) :
    d.wrote ((d.record kind t payload).snapshot c origin) kind.code t payload := by
  rw [Dev.snapshot_of_off _ _ (by rwa [Dev.KeptOutside.record d kind t payload 0x2601_01 (by decide)])]
  exact d.record_wrote kind t payload

end Sys2Proof.Machine
end

section
/-! SUPPORT. O19: the inrush gate's requests and answers (R161 to R165, R172, R177). -/

namespace Sys2Proof.Machine

open Sys2Proof

/-! ### A unit that hears a request -/

@[simp] theorem Dev.heard_on (d : Dev) (e : Env) (k : Nat) : (d.heard e).on k = d.on k := by rw [Dev.on, Dev.heard_get, Dev.on]

@[simp] theorem Dev.heard_clusterOf (d : Dev) (e : Env) (r : Nat) : (d.heard e).clusterOf r = d.clusterOf r := Dev.heard_get _ _ _

@[simp] theorem Dev.heard_denying (d : Dev) (e : Env) (c : Nat) : (d.heard e).denying c = d.denying c := by
  simp [Dev.denying, Dev.pfActive, Dev.degraded]

@[simp] theorem Dev.heard_fits (d : Dev) (e : Env) (c : Nat) (q : StageReq) : (d.heard e).fits c q = d.fits c q := by
  unfold Dev.heard
  split <;> rfl

/-! ### Requests and answers -/

theorem mem_insertBy {α : Type} (le : α → α → Bool) (x y : α) (l : List α) : y ∈ insertBy le x l ↔ y = x ∨ y ∈ l := by
  induction l with
  | nil => simp [insertBy]
  | cons z zs ih =>
    unfold insertBy
    split
    · exact List.mem_cons
    · rw [List.mem_cons, ih, List.mem_cons]
      tauto

@[simp] theorem Dev.answer_get (d : Dev) (r : Nat) (p : Pin) (k : Nat) : (d.answer r p).get k = d.get k := rfl

@[simp] theorem Dev.answer_out (d : Dev) (r : Nat) (p : Pin) : (d.answer r p).out = d.out ++ [.pin p r 1] := rfl

theorem Dev.mem_answer_pend (d : Dev) (r : Nat) (p : Pin) (x : StageReq) :
    x ∈ (d.answer r p).pow.pend ↔ x ∈ d.pow.pend ∧ x.region ≠ r := by
  simp [Dev.answer]

/-- What a denied request leaves (R163). -/
theorem Dev.deny_spec (d : Dev) (q : StageReq) :
    (d.deny q).out = d.out ++ [.pin .stageDeny q.region 1] ∧
    (∀ x, x ∈ (d.deny q).pow.pend ↔ x ∈ d.pow.pend ∧ x.region ≠ q.region) ∧
    (d.deny q).pow.granted = d.pow.granted ∧ d.objectsKept (d.deny q) [0x2404_04] := by
  refine ⟨by simp [Dev.deny], fun x => ?_, by simp [Dev.deny, Dev.answer], fun k hk => ?_⟩
  · rw [Dev.deny, Dev.inc_pow, Dev.mem_answer_pend]
  · rw [List.mem_singleton] at hk
    rw [Dev.deny, Dev.get_inc_of_ne _ _ _ hk, Dev.answer_get]

theorem Dev.get_deny (d : Dev) (q : StageReq) (h : d.get 0x2404_04 + 1 < 2 ^ 32) :
    (d.deny q).get 0x2404_04 = d.get 0x2404_04 + 1 :=
  Dev.get_inc_self (d.answer q.region .stageDeny) 0x2404_04 (h.trans_le (Nat.pow_le_pow_right (by decide) (by decide)))

/-- What a granted request leaves (R163). -/
theorem Dev.grantReq_spec (d : Dev) (c : Nat) (q : StageReq) :
    (d.grantReq c q).out = d.out ++ [.pin .stageGrant q.region 1] ∧
    (∀ x, x ∈ (d.grantReq c q).pow.pend ↔ x ∈ d.pow.pend ∧ x.region ≠ q.region) ∧
    (c, d.inrush q, d.now) ∈ (d.grantReq c q).pow.granted ∧ d.objectsKept (d.grantReq c q) [0x2404_03] := by
  refine ⟨by simp [Dev.grantReq], fun x => ?_, by simp [Dev.grantReq, Dev.answer], fun k hk => ?_⟩
  · rw [Dev.grantReq, Dev.inc_pow, Dev.mem_answer_pend]
  · rw [List.mem_singleton] at hk
    rw [Dev.grantReq, Dev.get_inc_of_ne _ _ _ hk, Dev.answer_get]
    rfl

theorem Dev.get_grantReq (d : Dev) (c : Nat) (q : StageReq) (h : d.get 0x2404_03 + 1 < 2 ^ 32) :
    (d.grantReq c q).get 0x2404_03 = d.get 0x2404_03 + 1 :=
  Dev.get_inc_self (Dev.answer { d with pow := _ } q.region .stageGrant) 0x2404_03
    (h.trans_le (Nat.pow_le_pow_right (by decide) (by decide)))

/-! ### STAGE_REQUEST, GRANT and DENY -/

theorem stageRequest_yields (s : State) (l : LeafId) (r st : Nat) (hruns : s.runs (.leaf l))
    (hr : r < (s.dev (.leaf l)).cfg.powerRegions) (hlow : r ∉ (s.dev (.leaf l)).pow.awaitLow)
    (hnone : ∀ q ∈ (s.dev (.leaf l)).pow.pend, q.region ≠ r) :
    Yields (exec (.stageRequest l r st) s) s (.leaf l) fun d =>
      if (s.dev (.leaf l)).cfg.inrushGate = true then
        (∀ q, q ∈ d.pow.pend ↔ q ∈ (s.dev (.leaf l)).pow.pend ∨
          q = { region := r, stage := st % 8, since := (s.dev (.leaf l)).stamp }) ∧
        d = { s.unit (.leaf l) with pow := d.pow, objs := d.objs } ∧ (s.unit (.leaf l)).objectsKept d [0x2406_04]
      else d.out = [.pin .stageGrant r 1] ∧ r ∈ d.pow.awaitLow ∧
        d = { s.unit (.leaf l) with pow := d.pow, out := d.out } := by
  show Yields (execStageRequest l r st s) _ _ _
  unfold execStageRequest
  refine State.on_yields _ _ _ _ hruns ?_
  have hmay : ¬ ((decide (r ≥ (s.unit (.leaf l)).cfg.powerRegions) || (s.unit (.leaf l)).pow.awaitLow.contains r ||
      (s.unit (.leaf l)).pow.pend.any (·.region = r)) = true) := by
    simpa using ⟨⟨hr, hlow⟩, hnone⟩
  rw [if_neg hmay]
  by_cases hgate : (s.dev (.leaf l)).cfg.inrushGate = true
  · rw [if_pos hgate, if_neg (by rw [State.unit_cfg, hgate]; decide)]
    refine ⟨fun q => ?_, ?_, fun k hk => ?_⟩
    · rw [Dev.refreshTest_pow]
      exact (mem_insertBy _ _ _ _).trans or_comm
    · rw [Dev.refreshTest_eq]
    · rw [List.mem_singleton] at hk
      exact Dev.get_refreshTest_of_ne _ hk
  · rw [if_neg hgate, if_pos (by rw [State.unit_cfg, eq_false_of_ne_true hgate]; rfl)]
    exact ⟨rfl, List.mem_cons_self, rfl⟩

theorem grant_yields (s : State) (l : LeafId) (c : Nat) (q : StageReq) (hruns : s.runs (.leaf l))
    (hhead : ((s.dev (.leaf l)).pendOf c).head? = some q) (hdeny : (s.dev (.leaf l)).denying c = false)
    (hmode : (s.dev (.leaf l)).on 0x2400_00 = false) (hfits : (s.dev (.leaf l)).fits c q = true)
    (hfirst : ∀ x ∈ (s.dev (.leaf l)).pow.granted, ¬ (x.1 = c ∧ x.2.2 = (s.dev (.leaf l)).time.ns))
    (hroom : (s.dev (.leaf l)).get 0x2404_03 + 1 < 2 ^ 32) :
    Yields (exec (.grant l c) s) s (.leaf l) fun d =>
      d.out = [.pin .stageGrant q.region 1] ∧ (∀ x ∈ d.pow.pend, x.region ≠ q.region) ∧
      (c, (s.dev (.leaf l)).inrush q, (s.dev (.leaf l)).time.ns) ∈ d.pow.granted ∧
      d.get 0x2404_03 = (s.dev (.leaf l)).get 0x2404_03 + 1 ∧ (s.unit (.leaf l)).objectsKept d [0x2404_03] := by
  show Yields (execGrant l c s) _ _ _
  unfold execGrant
  refine State.on_yields _ _ _ _ hruns ?_
  have hhead' : ((s.unit (.leaf l)).pendOf c).head? = some q := hhead
  have hnow : (s.dev (.leaf l)).grantedNow c = false :=
    List.any_eq_false.mpr fun x hx => by
      rw [Bool.and_eq_true, decide_eq_true_eq, decide_eq_true_eq]
      exact hfirst x hx
  have hmay : ((s.unit (.leaf l)).denying c || (s.unit (.leaf l)).on 0x2400_00 || !(s.unit (.leaf l)).fits c q ||
      (s.unit (.leaf l)).grantedNow c) = false := by
    show ((s.dev (.leaf l)).denying c || (s.dev (.leaf l)).on 0x2400_00 || !(s.dev (.leaf l)).fits c q ||
      (s.dev (.leaf l)).grantedNow c) = false
    rw [hdeny, hmode, hfits, hnow]
    rfl
  simp only [hhead', hmay, if_false, Bool.false_eq_true]
  obtain ⟨hout, hpend, hgranted, hkept⟩ := (s.unit (.leaf l)).grantReq_spec c q
  exact ⟨hout, fun x hx => ((hpend x).mp hx).2, hgranted, Dev.get_grantReq _ c q hroom, hkept⟩

theorem deny_yields (s : State) (l : LeafId) (c : Nat) (q : StageReq) (hruns : s.runs (.leaf l))
    (hhead : ((s.dev (.leaf l)).pendOf c).head? = some q) (hdeny : (s.dev (.leaf l)).denying c = true)
    (hroom : (s.dev (.leaf l)).get 0x2404_04 + 1 < 2 ^ 32) :
    Yields (exec (.deny l c) s) s (.leaf l) fun d =>
      d.out = [.pin .stageDeny q.region 1] ∧ (∀ x ∈ d.pow.pend, x.region ≠ q.region) ∧
      d.pow.granted = (s.dev (.leaf l)).pow.granted ∧
      d.get 0x2404_04 = (s.dev (.leaf l)).get 0x2404_04 + 1 ∧ (s.unit (.leaf l)).objectsKept d [0x2404_04] := by
  show Yields (execDeny l c s) _ _ _
  unfold execDeny
  refine State.on_yields _ _ _ _ hruns ?_
  have hhead' : ((s.unit (.leaf l)).pendOf c).head? = some q := hhead
  have hdeny' : (s.unit (.leaf l)).denying c = true := hdeny
  simp only [hhead', hdeny', if_true]
  obtain ⟨hout, hpend, hgranted, hkept⟩ := (s.unit (.leaf l)).deny_spec q
  exact ⟨hout, fun x hx => ((hpend x).mp hx).2, hgranted, Dev.get_deny _ q hroom, hkept⟩

/-! ### INRUSH_DEFER_TIMEOUT -/

/-- A deferred request past its limit, before the record of it: it is marked, counted and flagged (R165). -/
def Dev.markTimedOut (d : Dev) (q : StageReq) : Dev :=
  ((d.modReq q.region fun q => { q with timedOut := true }).inc 0x2404_05).flag 0x2401 3

theorem Dev.markTimedOut_spec (d : Dev) (q : StageReq) (hroom : d.get 0x2404_05 + 1 < 2 ^ 32) :
    (d.markTimedOut q).get 0x2404_05 = d.get 0x2404_05 + 1 ∧ ((d.markTimedOut q).get 0x2401_00).testBit 3 = true ∧
    (d.markTimedOut q).get 0x2601_01 = d.get 0x2601_01 ∧
    (∀ x ∈ (d.markTimedOut q).pow.pend, x.region = q.region → x.timedOut = true) := by
  refine ⟨?_, ?_, ?_, ?_⟩
  · rw [Dev.markTimedOut, Dev.get_flag_of_ne _ _ _ _ (by decide) (by decide) (by decide)]
    exact Dev.get_inc_self _ _ (hroom.trans_le (Nat.pow_le_pow_right (by decide) (by decide)))
  · exact Dev.testBit_flag _ (i := 0x2401) (by decide) (width_ge_8 _ _) (by decide)
  · rw [Dev.markTimedOut, Dev.get_flag_of_ne _ _ _ _ (by decide) (by decide) (by decide), Dev.get_inc_of_ne _ _ _ (by decide)]
    rfl
  · rw [Dev.markTimedOut, Dev.flag_pow, Dev.inc_pow]
    intro x hx hregion
    obtain ⟨y, -, rfl⟩ := List.mem_map.mp hx
    dsimp only at hregion ⊢
    split at hregion
    · next h => rw [if_pos h]
    · next h => exact absurd hregion h

theorem inrushDeferTimeout_yields (s : State) (l : LeafId) (c : Nat) (q : StageReq) (hruns : s.runs (.leaf l))
    (hdeferred : (s.dev (.leaf l)).deferredReq c = some q) (hnew : q.timedOut = false)
    (hlate : (s.dev (.leaf l)).get 0x2404_01 ≤ (s.dev (.leaf l)).stamp - q.since)
    (hroom : (s.dev (.leaf l)).get 0x2404_05 + 1 < 2 ^ 32) :
    Yields (exec (.inrushDeferTimeout l c) s) s (.leaf l) fun d =>
      d.get 0x2404_05 = (s.dev (.leaf l)).get 0x2404_05 + 1 ∧ (d.get 0x2401_00).testBit 3 = true ∧
      (∀ x ∈ d.pow.pend, x.region = q.region → x.timedOut = true) ∧
      (((s.dev (.leaf l)).get 0x2601_01).testBit 6 = false →
        ∃ p, (s.dev (.leaf l)).wrote d 0x07 (s.dev (.leaf l)).stamp p) := by
  show Yields (execInrushDeferTimeout l c s) _ _ _
  unfold execInrushDeferTimeout
  refine State.on_yields _ _ _ _ hruns ?_
  have hdeferred' : (s.unit (.leaf l)).deferredReq c = some q := hdeferred
  have hdue : (q.timedOut || decide ((s.unit (.leaf l)).stamp - q.since < (s.unit (.leaf l)).get 0x2404_01)) = false := by
    rw [hnew, Bool.false_or]
    exact decide_eq_false (Nat.not_lt.mpr hlate)
  simp only [hdeferred', hdue, if_false, Bool.false_eq_true]
  obtain ⟨hcount, hflag, hsnap, hpend⟩ := (s.unit (.leaf l)).markTimedOut_spec q hroom
  have hrcd : (s.dev (.leaf l)).rcd.fresh = ((s.unit (.leaf l)).markTimedOut q).rcd.fresh := by
    simp [Dev.markTimedOut, Dev.modReq, State.unit]
  have hrecorded (t t' : Nat) (p : Bytes) (ht : t = (s.dev (.leaf l)).stamp) :
      let d := (((s.unit (.leaf l)).markTimedOut q).record .inrushTimeout t p).snapshot .inrushTimeout t'
      d.get 0x2404_05 = (s.dev (.leaf l)).get 0x2404_05 + 1 ∧ (d.get 0x2401_00).testBit 3 = true ∧
        (∀ x ∈ d.pow.pend, x.region = q.region → x.timedOut = true) ∧
        (((s.dev (.leaf l)).get 0x2601_01).testBit 6 = false →
          ∃ p, (s.dev (.leaf l)).wrote d 0x07 (s.dev (.leaf l)).stamp p) := by
    have hkept := ((s.unit (.leaf l)).markTimedOut q).recordSnapshot_kept .inrushTimeout .inrushTimeout t t' p
    refine ⟨?_, ?_, ?_, fun hoff => ⟨p, ?_⟩⟩
    · rw [hkept _ (by decide), hcount]
      rfl
    · rw [hkept _ (by decide), hflag]
    · rw [Dev.snapshot_pow, Dev.record_pow]
      exact hpend
    · rw [← ht]
      exact (((s.unit (.leaf l)).markTimedOut q).recordSnapshot_wrote .inrushTimeout .inrushTimeout t t' p
        (by rw [hsnap]; exact hoff)).congr
        hrcd rfl
  exact hrecorded _ _ _ (by simp [Dev.stamp, Dev.modReq, State.unit])

/-! ### STAGE_GRANT and STAGE_DENY -/

/-- `StageGrant` has no reserved bits. -/
theorem stageGrant_row {c : Cfg} {r : Row} (h : c.rowOf 0x2408 0 = some r) : r.rng = .any := by
  simpa using row_of_index c 0x2408 0 (fun r => r.rng == .any) r (by decide) h

/-- The request that a write of `StageGrant` names, where the gate takes commands (R177). -/
theorem Dev.stageGrantAns_of_pending (d : Dev) {v r st : Nat} {q : StageReq} (hregion : field v 5 0 = r) (hstage : field v 8 6 = st)
    (hr : r < d.cfg.powerRegions) (hmode : d.on 0x2400_00 = true) (hdeny : d.denying (d.clusterOf r) = false)
    (hpend : d.pow.pend.find? (fun q => q.region = r && q.stage = st) = some q) :
    d.stageGrantAns v = if v.testBit 15 then ok (d.deny q)
      else if d.fits (d.clusterOf r) q then ok (d.grantReq (d.clusterOf r) q) else fail d .state := by
  subst hregion hstage
  unfold Dev.stageGrantAns
  dsimp only
  rw [if_neg (Nat.not_le.mpr hr), if_neg (by simp [hmode, hdeny]), hpend]

theorem region_of_pending {l : List StageReq} {r st : Nat} {q : StageReq}
    (h : l.find? (fun q => q.region = r && q.stage = st) = some q) : q.region = r := by
  have := List.find?_some h
  simp only [Bool.and_eq_true, decide_eq_true_eq] at this
  exact this.1

theorem stageGrant_answers (s : State) (l : LeafId) (e : Env) (r st : Nat) (q : StageReq) (hruns : s.runs (.leaf l)) (hr : r < 64)
    (hst : st < 8) (hacc : (s.unit (.leaf l)).accepts e 0x2408 0 (st * 64 + r)) (hregion : r < (s.dev (.leaf l)).cfg.powerRegions)
    (hmode : (s.dev (.leaf l)).on 0x2400_00 = true)
    (hdeny : (s.dev (.leaf l)).denying ((s.dev (.leaf l)).clusterOf r) = false)
    (hpend : (s.dev (.leaf l)).pow.pend.find? (fun q => q.region = r && q.stage = st) = some q)
    (hfits : (s.dev (.leaf l)).fits ((s.dev (.leaf l)).clusterOf r) q = true) :
    Answers (exec (.stageGrant l e r st) s) s (.leaf l) e 0x02 0x2408 0 0 fun a =>
      a.abort = 0 ∧ a.dev.out = [.pin .stageGrant r 1] ∧ (∀ x ∈ a.dev.pow.pend, x.region ≠ r) ∧
      ((s.unit (.leaf l)).heard e).objectsKept a.dev [0x2404_03] := by
  have hv : st % 8 * 64 + r % 64 = st * 64 + r := by rw [Nat.mod_eq_of_lt hst, Nat.mod_eq_of_lt hr]
  show Answers (execStageGrant l e r st s) _ _ _ _ _ _ _ _
  unfold execStageGrant
  rw [hv]
  refine State.serveWrite_answers_any (by decide) hruns hacc (fun _ h => stageGrant_row h) ?_
  have hbit : (st * 64 + r).testBit 15 = false := Nat.testBit_lt_two_pow (by omega)
  have hans := ((s.unit (.leaf l)).heard e).stageGrantAns_of_pending (v := st * 64 + r) (r := r) (st := st) (q := q)
    (by unfold field; omega) (by unfold field; omega) (by rw [Dev.heard_cfg]; exact hregion) (by rw [Dev.heard_on]; exact hmode)
    (by rw [Dev.heard_denying, Dev.heard_clusterOf]; exact hdeny) (by rw [Dev.heard_pow]; exact hpend)
  have hfits' : ((s.unit (.leaf l)).heard e).fits (((s.unit (.leaf l)).heard e).clusterOf r) q = true := by
    rw [Dev.heard_fits, Dev.heard_clusterOf]
    exact hfits
  rw [hans, hbit, if_neg Bool.false_ne_true, if_pos hfits']
  obtain ⟨hout, hleft, -, hkept⟩ := ((s.unit (.leaf l)).heard e).grantReq_spec (((s.unit (.leaf l)).heard e).clusterOf r) q
  rw [region_of_pending hpend] at hout hleft
  exact ⟨rfl, by rw [ok, hout, Dev.heard_out]; rfl, fun x hx => ((hleft x).mp hx).2, hkept⟩

theorem stageDeny_answers (s : State) (l : LeafId) (e : Env) (r st : Nat) (q : StageReq) (hruns : s.runs (.leaf l)) (hr : r < 64)
    (hst : st < 8) (hacc : (s.unit (.leaf l)).accepts e 0x2408 0 (32768 + st * 64 + r))
    (hregion : r < (s.dev (.leaf l)).cfg.powerRegions) (hmode : (s.dev (.leaf l)).on 0x2400_00 = true)
    (hdeny : (s.dev (.leaf l)).denying ((s.dev (.leaf l)).clusterOf r) = false)
    (hpend : (s.dev (.leaf l)).pow.pend.find? (fun q => q.region = r && q.stage = st) = some q) :
    Answers (exec (.stageDeny l e r st) s) s (.leaf l) e 0x02 0x2408 0 0 fun a =>
      a.abort = 0 ∧ a.dev.out = [.pin .stageDeny r 1] ∧ (∀ x ∈ a.dev.pow.pend, x.region ≠ r) ∧
      ((s.unit (.leaf l)).heard e).objectsKept a.dev [0x2404_04] := by
  have hv : 32768 + st % 8 * 64 + r % 64 = 32768 + st * 64 + r := by rw [Nat.mod_eq_of_lt hst, Nat.mod_eq_of_lt hr]
  show Answers (execStageDeny l e r st s) _ _ _ _ _ _ _ _
  unfold execStageDeny
  rw [hv]
  refine State.serveWrite_answers_any (by decide) hruns hacc (fun _ h => stageGrant_row h) ?_
  have hbit : (32768 + st * 64 + r).testBit 15 = true := by
    rw [Nat.add_assoc, show 32768 = 2 ^ 15 by rfl, Nat.testBit_two_pow_add_eq, Nat.testBit_lt_two_pow (by omega)]
    rfl
  have hans := ((s.unit (.leaf l)).heard e).stageGrantAns_of_pending (v := 32768 + st * 64 + r) (r := r) (st := st) (q := q)
    (by unfold field; omega) (by unfold field; omega) (by rw [Dev.heard_cfg]; exact hregion) (by rw [Dev.heard_on]; exact hmode)
    (by rw [Dev.heard_denying, Dev.heard_clusterOf]; exact hdeny) (by rw [Dev.heard_pow]; exact hpend)
  rw [hans, hbit, if_pos rfl]
  obtain ⟨hout, hleft, -, hkept⟩ := ((s.unit (.leaf l)).heard e).deny_spec q
  rw [region_of_pending hpend] at hout hleft
  exact ⟨rfl, by rw [ok, hout, Dev.heard_out]; rfl, fun x hx => ((hleft x).mp hx).2, hkept⟩

/-- Settles O19: what a request leaves of the pending ones, and what an answer makes of them, each by the gate's two elementary
answers; a deferred request's mark stands apart from the record of it. -/
theorem theInrushGateAnswersRequests : Obligations.TheInrushGateAnswersRequests :=
  ⟨stageRequest_yields, grant_yields, deny_yields, inrushDeferTimeout_yields, stageGrant_answers, stageDeny_answers⟩

end Sys2Proof.Machine
end

section
/-! SUPPORT. O20: the shed requests of clusters (R171, R177, R659). -/

namespace Sys2Proof.Machine

open Sys2Proof

/-- `ShedCmd` has no reserved bits. -/
theorem shedCmd_row {c : Cfg} {r : Row} (h : c.rowOf 0x2409 0 = some r) : r.rng = .any := by
  simpa using row_of_index c 0x2409 0 (fun r => r.rng == .any) r (by decide) h

/-- What the shed request of a cluster, asserted, leaves: those shedding and the pins (R171). -/
theorem Dev.shedOn_spec (d : Dev) (c : Nat) :
    (∀ x, x ∈ (d.shedOn c).pow.shedding ↔ x = c ∨ x ∈ d.pow.shedding) ∧
    (c ∉ d.pow.shedding → .pin .shedReq 0 1 ∈ (d.shedOn c).out) ∧
    d.shedOn c = { d with pow := (d.shedOn c).pow, out := (d.shedOn c).out } := by
  by_cases hc : c ∈ d.pow.shedding
  · have h : d.shedOn c = d := by simp [Dev.shedOn, hc]
    rw [h]
    refine ⟨fun x => ⟨.inr, ?_⟩, fun hn => absurd hc hn, rfl⟩
    rintro (rfl | hx)
    · exact hc
    · exact hx
  · have hmem (x : Nat) : x ∈ insertBy (fun a b => decide (a < b)) c d.pow.shedding ↔ x = c ∨ x ∈ d.pow.shedding :=
      mem_insertBy _ _ _ _
    have hne : (insertBy (fun a b => decide (a < b)) c d.pow.shedding).isEmpty = false :=
      List.isEmpty_eq_false_iff.mpr (List.ne_nil_of_mem ((hmem c).mpr (.inl rfl)))
    unfold Dev.shedOn
    rw [if_neg (by simpa using hc)]
    exact ⟨hmem, fun _ => by simp [Dev.showShed, Dev.emit, hne, b2n], rfl⟩

/-- What the shed request of a cluster, released, leaves (R171). -/
theorem Dev.shedOff_spec (d : Dev) (c : Nat) :
    (∀ x, x ∈ (d.shedOff c).pow.shedding ↔ x ≠ c ∧ x ∈ d.pow.shedding) ∧
    (c ∈ d.pow.shedding → .pin .shedReq 0 (b2n (!(d.shedOff c).pow.shedding.isEmpty)) ∈ (d.shedOff c).out) ∧
    d.shedOff c = { d with pow := (d.shedOff c).pow, out := (d.shedOff c).out } := by
  by_cases hc : c ∈ d.pow.shedding
  · unfold Dev.shedOff
    rw [if_neg (by simpa using hc)]
    exact ⟨fun x => List.mem_filter.trans (by simp [and_comm]), fun _ => by simp [Dev.showShed, Dev.emit], rfl⟩
  · have h : d.shedOff c = d := by simp [Dev.shedOff, hc]
    rw [h]
    exact ⟨fun x => ⟨fun hx => ⟨fun hxc => hc (hxc ▸ hx), hx⟩, And.right⟩, fun hn => absurd hn hc, rfl⟩

/-- A write of `ShedCmd` of cluster `c` is answered by the checks of R177, and then by what bit 7 asks for. -/
theorem shedCmd_answers {s : State} {l : LeafId} {e : Env} {c v : Nat} {P : Ans → Prop} (hruns : s.runs (.leaf l))
    (hacc : (s.unit (.leaf l)).accepts e 0x2409 0 v) (hc : field v 3 0 = c)
    (hrange : (s.dev (.leaf l)).cfg.clusters ≤ c → P (fail ((s.unit (.leaf l)).heard e) .range))
    (hstate : ¬ (s.dev (.leaf l)).cfg.clusters ≤ c → (s.dev (.leaf l)).on 0x2400_00 = false →
      P (fail ((s.unit (.leaf l)).heard e) .state))
    (hdone : ¬ (s.dev (.leaf l)).cfg.clusters ≤ c → ¬ (s.dev (.leaf l)).on 0x2400_00 = false →
      P (ok (if v.testBit 7 then ((s.unit (.leaf l)).heard e).shedOn c else ((s.unit (.leaf l)).heard e).shedOff c))) :
    Answers (s.onLeaf l fun d => d.serveWrite e 0x2409 0 v fun d v _ => d.shedAns v) s (.leaf l) e 0x02 0x2409 0 0 P := by
  refine State.serveWrite_answers_any (by decide) hruns hacc (fun _ h => shedCmd_row h) ?_
  subst hc
  have hon : ((s.unit (.leaf l)).heard e).on 0x2400_00 = (s.dev (.leaf l)).on 0x2400_00 := Dev.heard_on _ _ _
  unfold Dev.shedAns
  rw [hon, Dev.heard_cfg, State.unit_cfg]
  dsimp only
  split_ifs with h1 h2 h3
  · exact hrange h1
  · exact hstate h1 (by simpa using h2)
  all_goals simpa [h3] using hdone h1 (by simpa using h2)

theorem shedAssert_answers (s : State) (l : LeafId) (e : Env) (c : Nat) (hruns : s.runs (.leaf l)) (hc : c < 16)
    (hacc : (s.unit (.leaf l)).accepts e 0x2409 0 (128 + c)) :
    Answers (exec (.shedAssert l e c) s) s (.leaf l) e 0x02 0x2409 0 0 fun a =>
      if (s.dev (.leaf l)).cfg.clusters ≤ c then a.abort = 0x06 ∧ a.dev = (s.unit (.leaf l)).heard e
      else if (s.dev (.leaf l)).on 0x2400_00 = false then a.abort = 0x07 ∧ a.dev = (s.unit (.leaf l)).heard e
      else a.abort = 0 ∧ (∀ x, x ∈ a.dev.pow.shedding ↔ x = c ∨ x ∈ (s.dev (.leaf l)).pow.shedding) ∧
        (c ∉ (s.dev (.leaf l)).pow.shedding → .pin .shedReq 0 1 ∈ a.dev.out) ∧
        a.dev = { (s.unit (.leaf l)).heard e with pow := a.dev.pow, out := a.dev.out } := by
  show Answers (execShedAssert l e c s) _ _ _ _ _ _ _ _
  unfold execShedAssert
  rw [Nat.mod_eq_of_lt hc]
  have hbit : (128 + c).testBit 7 = true := by
    rw [show 128 = 2 ^ 7 by rfl, Nat.testBit_two_pow_add_eq, Nat.testBit_lt_two_pow (by omega)]
    rfl
  refine shedCmd_answers hruns hacc (c := c) (by unfold field; omega) (fun h1 => ?_) (fun h1 h2 => ?_) (fun h1 h2 => ?_)
  · rw [if_pos h1]
    exact ⟨rfl, rfl⟩
  · rw [if_neg h1, if_pos h2]
    exact ⟨rfl, rfl⟩
  · rw [if_neg h1, if_neg h2, hbit, if_pos rfl]
    have hspec := ((s.unit (.leaf l)).heard e).shedOn_spec c
    rw [Dev.heard_pow] at hspec
    exact ⟨rfl, hspec⟩

theorem shedRelease_answers (s : State) (l : LeafId) (e : Env) (c : Nat) (hruns : s.runs (.leaf l)) (hc : c < 16)
    (hacc : (s.unit (.leaf l)).accepts e 0x2409 0 c) :
    Answers (exec (.shedRelease l e c) s) s (.leaf l) e 0x02 0x2409 0 0 fun a =>
      if (s.dev (.leaf l)).cfg.clusters ≤ c then a.abort = 0x06 ∧ a.dev = (s.unit (.leaf l)).heard e
      else if (s.dev (.leaf l)).on 0x2400_00 = false then a.abort = 0x07 ∧ a.dev = (s.unit (.leaf l)).heard e
      else a.abort = 0 ∧ (∀ x, x ∈ a.dev.pow.shedding ↔ x ≠ c ∧ x ∈ (s.dev (.leaf l)).pow.shedding) ∧
        (c ∈ (s.dev (.leaf l)).pow.shedding → .pin .shedReq 0 (b2n (!a.dev.pow.shedding.isEmpty)) ∈ a.dev.out) ∧
        a.dev = { (s.unit (.leaf l)).heard e with pow := a.dev.pow, out := a.dev.out } := by
  show Answers (execShedRelease l e c s) _ _ _ _ _ _ _ _
  unfold execShedRelease
  rw [Nat.mod_eq_of_lt hc]
  have hbit : c.testBit 7 = false := Nat.testBit_lt_two_pow (by omega)
  refine shedCmd_answers hruns hacc (c := c) (by unfold field; omega) (fun h1 => ?_) (fun h1 h2 => ?_) (fun h1 h2 => ?_)
  · rw [if_pos h1]
    exact ⟨rfl, rfl⟩
  · rw [if_neg h1, if_pos h2]
    exact ⟨rfl, rfl⟩
  · rw [if_neg h1, if_neg h2, hbit, if_neg Bool.false_ne_true]
    have hspec := ((s.unit (.leaf l)).heard e).shedOff_spec c
    rw [Dev.heard_pow] at hspec
    exact ⟨rfl, hspec⟩

/-- Settles O20: both commands are one write of `ShedCmd`, refused with RANGE before STATE (log 29), and else one change of the
clusters shedding. -/
theorem shedRequestsFollowTheirCommands : Obligations.ShedRequestsFollowTheirCommands :=
  ⟨shedAssert_answers, shedRelease_answers⟩

end Sys2Proof.Machine
end

section
/-! SUPPORT. O21: regulator faults, the carry time and the end of an episode (R166 to R170, R172, R216, R636). -/

namespace Sys2Proof.Machine

open Sys2Proof

/-! ### Episodes and denied requests -/

theorem Dev.openEpisode_eq (d : Dev) (u : Nat) (vs : List Nat) :
    d.openEpisode u vs = { d with pow := { d.pow with episodes := (d.openEpisode u vs).pow.episodes } } := by
  unfold Dev.openEpisode
  split <;> rfl

@[simp] theorem Dev.openEpisode_time (d : Dev) (u : Nat) (vs : List Nat) : (d.openEpisode u vs).time = d.time := by
  rw [Dev.openEpisode_eq]

@[simp] theorem Dev.openEpisode_rcd (d : Dev) (u : Nat) (vs : List Nat) : (d.openEpisode u vs).rcd = d.rcd := by
  rw [Dev.openEpisode_eq]

@[simp] theorem Dev.openEpisode_get (d : Dev) (u : Nat) (vs : List Nat) (k : Nat) : (d.openEpisode u vs).get k = d.get k := by
  rw [Dev.openEpisode_eq]
  rfl

/-- What many denied requests leave, one after another. -/
theorem Dev.foldl_deny_spec (l : List StageReq) (d : Dev) :
    (∀ x, x ∈ (l.foldl Dev.deny d).pow.pend ↔ x ∈ d.pow.pend ∧ ∀ q ∈ l, x.region ≠ q.region) ∧
    (l.foldl Dev.deny d).time = d.time ∧ (l.foldl Dev.deny d).rcd = d.rcd ∧ d.objectsKept (l.foldl Dev.deny d) [0x2404_04] := by
  induction l generalizing d with
  | nil => exact ⟨fun x => by simp, rfl, rfl, fun _ _ => rfl⟩
  | cons q l ih =>
    obtain ⟨hpend, htime, hrcd, hkept⟩ := ih (d.deny q)
    obtain ⟨-, hdeny, -, hkept'⟩ := d.deny_spec q
    refine ⟨fun x => ?_, ?_, ?_, fun k hk => (hkept k hk).trans (hkept' k hk)⟩
    · rw [List.foldl_cons, hpend, hdeny, List.forall_mem_cons, and_assoc]
    · exact htime.trans (by simp [Dev.deny, Dev.answer])
    · exact hrcd.trans (by simp [Dev.deny, Dev.answer])

theorem Dev.denyAll_kept (d : Dev) (p : StageReq → Bool) :
    (d.denyAll p).time = d.time ∧ (d.denyAll p).rcd = d.rcd ∧ d.objectsKept (d.denyAll p) [0x2404_04] :=
  (Dev.foldl_deny_spec _ d).2

/-- No request that satisfies `p` is left pending. -/
theorem Dev.denyAll_pend (d : Dev) (p : StageReq → Bool) : ∀ x ∈ (d.denyAll p).pow.pend, x ∈ d.pow.pend ∧ p x = false := by
  intro x hx
  obtain ⟨hmem, hne⟩ := ((Dev.foldl_deny_spec _ d).1 x).mp hx
  refine ⟨hmem, ?_⟩
  by_contra hp
  exact hne x (List.mem_filter.mpr ⟨hmem, by simpa using hp⟩) rfl

/-! ### A fault before its record -/

theorem faultKey_ne (r : Nat) {k : Nat} (hlow : k ≠ 0x2405_05) (hhigh : k ≠ 0x2405_06) :
    k ≠ key 0x2405 (if r < 32 then 5 else 6) := by
  split
  · exact hlow
  · exact hhigh

theorem Dev.get_setFault_of_ne (d : Dev) (r : Nat) (b : Bool) {k : Nat} (hlow : k ≠ 0x2405_05) (hhigh : k ≠ 0x2405_06) :
    (d.setFault r b).get k = d.get k :=
  Dev.get_set_of_ne _ _ _ _ (faultKey_ne r hlow hhigh)

theorem Dev.faulted_setFault (d : Dev) (r : Nat) : (d.setFault r true).faulted r = true := by
  have hwide : 32 ≤ d.cfg.width (key 0x2405 (if r < 32 then 5 else 6)) := by
    refine Nat.le_trans ?_ (minWidth_le _ _)
    split <;> decide
  have hbit : r % 32 < 32 := Nat.mod_lt _ (by decide)
  rw [Dev.faulted, Dev.setFault, Dev.testBit_get_set _ (by omega) (by omega), testBit_putBit, if_pos rfl]

theorem Dev.faulted_congr {d d' : Dev} (hlow : d'.get 0x2405_05 = d.get 0x2405_05) (hhigh : d'.get 0x2405_06 = d.get 0x2405_06)
    (r : Nat) : d'.faulted r = d.faulted r := by
  unfold Dev.faulted
  split
  · exact congrArg (Nat.testBit · _) hlow
  · exact congrArg (Nat.testBit · _) hhigh

/-- From `d` to `d'` a region's fault stands and the flag with it, and nothing that a record of it depends on has changed. -/
structure Dev.FaultStands (d d' : Dev) (r : Nat) : Prop where
  fault : d'.faulted r = true
  flag : (d'.get 0x2401_00).testBit 1 = true
  snapOn : d'.get 0x2601_01 = d.get 0x2601_01
  time : d'.time = d.time
  rcd : d'.rcd = d.rcd

/-- The fault shows at its object, in the always-on count and in the power flags. -/
def Dev.showFault (d : Dev) (r : Nat) : Dev := ((d.setFault r true).always 0x1D 1)

theorem Dev.get_showFault_of_ne (d : Dev) (r : Nat) {k : Nat} (hlow : k ≠ 0x2405_05) (hhigh : k ≠ 0x2405_06)
    (hcount : k ≠ 0x2108_1D) : (d.showFault r).get k = d.get k := by
  rw [Dev.showFault, Dev.get_always_of_ne _ _ _ _ hcount, Dev.get_setFault_of_ne _ _ _ hlow hhigh]

theorem Dev.showFault_faulted (d : Dev) (r : Nat) : (d.showFault r).faulted r = true := by
  have hsame (k : Nat) (hk : k ≠ 0x2108_1D) : (d.showFault r).get k = (d.setFault r true).get k := Dev.get_always_of_ne _ _ _ _ hk
  rw [Dev.faulted_congr (hsame _ (by decide)) (hsame _ (by decide)), Dev.faulted_setFault]

theorem Dev.FaultStands.of_flag (d : Dev) {e : Dev} {r : Nat} (hget : ∀ k, k % 256 ≠ 4 → e.get k = (d.showFault r).get k)
    (htime : e.time = d.time) (hrcd : e.rcd = d.rcd) : d.FaultStands (e.flag 0x2401 1) r := by
  have hflag (k : Nat) (h4 : k % 256 ≠ 4) (hreg : k ≠ 0x2401_00) (hset : k ≠ 0x2402_02) (hall : k ≠ 0x2108_22) :
      (e.flag 0x2401 1).get k = (d.showFault r).get k := (Dev.get_flag_of_ne _ _ _ _ hreg hset hall).trans (hget k h4)
  refine ⟨?_, ?_, ?_, ?_, ?_⟩
  · rw [Dev.faulted_congr (hflag _ (by decide) (by decide) (by decide) (by decide))
      (hflag _ (by decide) (by decide) (by decide) (by decide)), Dev.showFault_faulted]
  · exact Dev.testBit_flag _ (i := 0x2401) (by decide) (width_ge_8 _ _) (by decide)
  · rw [hflag _ (by decide) (by decide) (by decide) (by decide), Dev.get_showFault_of_ne _ _ (by decide) (by decide) (by decide)]
  · rw [Dev.flag_time, htime]
  · rw [Dev.flag_rcd, hrcd]

theorem Dev.FaultStands.keep {d e e' : Dev} {r : Nat} (h : d.FaultStands e r) (hget : e.objectsKept e' [0x2404_04])
    (htime : e'.time = e.time) (hrcd : e'.rcd = e.rcd) : d.FaultStands e' r :=
  ⟨(Dev.faulted_congr (hget _ (by decide)) (hget _ (by decide)) r).trans h.fault, by rw [hget _ (by decide), h.flag],
    (hget _ (by decide)).trans h.snapOn, htime.trans h.time, hrcd.trans h.rcd⟩

theorem Dev.showFault_time (d : Dev) (r : Nat) : (d.showFault r).time = d.time := by simp [Dev.showFault, Dev.setFault]

theorem Dev.showFault_rcd (d : Dev) (r : Nat) : (d.showFault r).rcd = d.rcd := by simp [Dev.showFault, Dev.setFault]

theorem Dev.clusterOf_showFault (d : Dev) (r x : Nat) : (d.showFault r).clusterOf x = d.clusterOf x :=
  Dev.get_showFault_of_ne _ _ (by unfold key; omega) (by unfold key; omega) (by unfold key; omega)

/-- On a leaf without a gate, a fault before its record (R172). -/
def Dev.openRegion (d : Dev) (r : Nat) : Dev := (d.flag 0x2401 1).openEpisode r (d.sensorsOf (· = r))

theorem Dev.regionFault_eq (d : Dev) (r : Nat) :
    ∃ p, d.regionFault r = (d.openRegion r).record .regFault (d.openRegion r).stamp p := by
  unfold Dev.regionFault Dev.openRegion
  exact ⟨_, rfl⟩

theorem Dev.openRegion_stands (d : Dev) (r : Nat) : d.FaultStands ((d.showFault r).openRegion r) r := by
  have hflag := Dev.FaultStands.of_flag d (fun _ _ => rfl) (d.showFault_time r) (d.showFault_rcd r)
  exact hflag.keep (fun k _ => Dev.openEpisode_get _ _ _ k) (Dev.openEpisode_time _ _ _) (Dev.openEpisode_rcd _ _ _)

/-- The cluster of a region becomes DEGRADED, with the flag of it (R166). -/
def Dev.degrade (d : Dev) (r : Nat) : Dev := (d.set (key (0x2490 + d.clusterOf r) 4) 1).flag 0x2401 1

/-- On a leaf with a gate, a fault before its record (R166). -/
def Dev.openCluster (d : Dev) (r : Nat) : Dev :=
  ((d.degrade r).openEpisode (d.clusterOf r) (d.sensorsOf (d.regionsOf (d.clusterOf r)).contains)).denyAll
    fun q => (d.degrade r).clusterOf q.region = d.clusterOf r

theorem Dev.clusterFault_eq (d : Dev) (r : Nat) :
    ∃ p, d.clusterFault r =
      let e := (d.openCluster r).record .regFault (d.openCluster r).stamp p
      if e.on 0x2400_00 then e else e.shedOn (d.clusterOf r) :=
  ⟨regPayload (d.clusterOf r) r ((d.openCluster r).lowestMinV (d.sensorsOf (d.regionsOf (d.clusterOf r)).contains)).1
    ((d.openCluster r).lowestMinV (d.sensorsOf (d.regionsOf (d.clusterOf r)).contains)).2, rfl⟩

theorem Dev.get_degrade_of_ne (d : Dev) (r : Nat) {k : Nat} (hstate : ∀ c, k ≠ key (0x2490 + c) 4) (hreg : k ≠ 0x2401_00)
    (hset : k ≠ 0x2402_02) (hall : k ≠ 0x2108_22) : (d.degrade r).get k = d.get k :=
  (Dev.get_flag_of_ne _ _ _ _ hreg hset hall).trans (Dev.get_set_of_ne _ _ _ _ (hstate _))

theorem Dev.clusterOf_degrade (d : Dev) (r x : Nat) : (d.degrade r).clusterOf x = d.clusterOf x :=
  d.get_degrade_of_ne r (fun c => by unfold key; omega) (by unfold key; omega) (by unfold key; omega) (by unfold key; omega)

theorem Dev.openCluster_kept (d : Dev) (r : Nat) :
    (d.openCluster r).time = d.time ∧ (d.openCluster r).rcd = d.rcd ∧ (d.degrade r).objectsKept (d.openCluster r) [0x2404_04] := by
  obtain ⟨htime, hrcd, hkept⟩ := Dev.denyAll_kept
    ((d.degrade r).openEpisode (d.clusterOf r) (d.sensorsOf (d.regionsOf (d.clusterOf r)).contains))
    fun q => (d.degrade r).clusterOf q.region = d.clusterOf r
  refine ⟨htime.trans ?_, hrcd.trans ?_, fun k hk => (hkept k hk).trans (Dev.openEpisode_get _ _ _ k)⟩
  · simp [Dev.degrade]
  · simp [Dev.degrade]

theorem Dev.openCluster_stands (d : Dev) (r : Nat) : d.FaultStands ((d.showFault r).openCluster r) r := by
  obtain ⟨htime, hrcd, hkept⟩ := (d.showFault r).openCluster_kept r
  have hdegrade : d.FaultStands ((d.showFault r).degrade r) r :=
    .of_flag d (fun k hk => Dev.get_set_of_ne _ _ _ _ (by unfold key; omega)) (d.showFault_time r) (d.showFault_rcd r)
  exact hdegrade.keep hkept (htime.trans (by simp [Dev.degrade])) (hrcd.trans (by simp [Dev.degrade]))

/-- With a gate the region's cluster is DEGRADED and no request of it is pending (R166). -/
theorem Dev.openCluster_degraded (d : Dev) (r : Nat) :
    (d.openCluster r).get (key (0x2490 + d.clusterOf r) 4) = 1 ∧
    ∀ q ∈ (d.openCluster r).pow.pend, d.clusterOf q.region ≠ d.clusterOf r := by
  refine ⟨?_, fun q hq => ?_⟩
  · rw [(d.openCluster_kept r).2.2 _ (by rw [List.mem_singleton]; unfold key; omega)]
    refine (Dev.get_flag_of_ne _ _ _ _ ?_ ?_ ?_).trans (Dev.get_set_byte _ _ _ (by decide))
    all_goals unfold key; omega
  · have := (Dev.denyAll_pend _ _ q hq).2
    rw [Dev.clusterOf_degrade] at this
    exact of_decide_eq_false this

/-! ### REG_FAULT -/

/-- The record of a fault and what follows it leave the fault's own objects and the pending requests (R166, R172, R220). -/
theorem Dev.faultRecord_spec (e : Dev) {g : Dev → Dev}
    (hg : ∀ d, (g d).objs = d.objs ∧ (g d).cfg = d.cfg ∧ (g d).rcd = d.rcd ∧ (g d).pow.pend = d.pow.pend) (t t' : Nat) (p : Bytes) :
    let f := ((g (e.record .regFault t p)).snapshot .regFault t').refreshTest
    (∀ k, k / 256 ∉ snapshotIndices → k ≠ 0x2406_04 → f.get k = e.get k) ∧ f.pow.pend = e.pow.pend ∧
      ((e.get 0x2601_01).testBit 5 = false → e.wrote f 0x03 t p) := by
  obtain ⟨hobjs, hcfg, hrcd, hpend⟩ := hg (e.record .regFault t p)
  have hrecord (k : Nat) (hk : k / 256 ∉ recordIndices) : (g (e.record .regFault t p)).get k = e.get k :=
    (Dev.get_congr hobjs hcfg k).trans (Dev.KeptOutside.record e _ _ _ k hk)
  refine ⟨fun k hk htest => ?_, ?_, fun hoff => ?_⟩
  · rw [Dev.get_refreshTest_of_ne _ htest, Dev.KeptOutside.snapshot _ _ _ k hk]
    exact hrecord k fun h => hk (List.mem_cons_of_mem _ h)
  · rw [Dev.refreshTest_pow, Dev.snapshot_pow, hpend, Dev.record_pow]
  · refine (e.record_wrote .regFault t p).congr rfl ?_
    rw [Dev.snapshot_of_off _ _ (by rw [hrecord _ (by decide)]; exact hoff), Dev.refreshTest_rcd, hrcd]

/-- What stands of a fault before its record stands after it, and the record with it. -/
theorem Dev.FaultStands.recorded {d e : Dev} {r : Nat} (h : d.FaultStands e r) {g : Dev → Dev}
    (hg : ∀ d, (g d).objs = d.objs ∧ (g d).cfg = d.cfg ∧ (g d).rcd = d.rcd ∧ (g d).pow.pend = d.pow.pend) (t' : Nat) (p : Bytes) :
    let f := ((g (e.record .regFault e.stamp p)).snapshot .regFault t').refreshTest
    f.faulted r = true ∧ (f.get 0x2401_00).testBit 1 = true ∧
      ((d.get 0x2601_01).testBit 5 = false → ∃ p, d.wrote f 0x03 d.stamp p) := by
  obtain ⟨hkept, -, hwrote⟩ := e.faultRecord_spec hg e.stamp t' p
  refine ⟨?_, ?_, fun hoff => ⟨p, ?_⟩⟩
  · rw [Dev.faulted_congr (hkept _ (by decide) (by decide)) (hkept _ (by decide) (by decide)), h.fault]
  · rw [hkept _ (by decide) (by decide), h.flag]
  · have hstamp : e.stamp = d.stamp := by rw [Dev.stamp, h.time, Dev.stamp]
    rw [← hstamp]
    exact (hwrote (by rw [h.snapOn]; exact hoff)).congr (by rw [h.rcd]) rfl

/-- The shed request of a cluster, where the mode asks for it, leaves objects, the ring and the pending requests. -/
theorem Dev.shedIf_kept (c : Nat) (d : Dev) :
    (if d.on 0x2400_00 then d else d.shedOn c).objs = d.objs ∧ (if d.on 0x2400_00 then d else d.shedOn c).cfg = d.cfg ∧
    (if d.on 0x2400_00 then d else d.shedOn c).rcd = d.rcd ∧ (if d.on 0x2400_00 then d else d.shedOn c).pow.pend = d.pow.pend := by
  have hpend : (d.shedOn c).pow.pend = d.pow.pend := by
    unfold Dev.shedOn
    split <;> rfl
  obtain ⟨-, -, hshed⟩ := d.shedOn_spec c
  split
  · exact ⟨rfl, rfl, rfl, rfl⟩
  · exact ⟨by rw [hshed], by rw [hshed], by rw [hshed], hpend⟩

theorem Dev.assertFault_spec (d : Dev) {r : Nat} (hr : r < d.cfg.powerRegions) (hlow : d.faulted r = false)
    (hc : d.clusterOf r < 16) :
    (d.assertFault r).faulted r = true ∧ ((d.assertFault r).get 0x2401_00).testBit 1 = true ∧
    ((d.get 0x2601_01).testBit 5 = false → ∃ p, d.wrote (d.assertFault r) 0x03 d.stamp p) ∧
    (d.cfg.inrushGate = true → (d.assertFault r).degraded (d.clusterOf r) = true ∧
      ∀ q ∈ (d.assertFault r).pow.pend, d.clusterOf q.region ≠ d.clusterOf r) := by
  have hcfg : (d.showFault r).cfg = d.cfg := by simp [Dev.showFault, Dev.setFault]
  have hassert : d.assertFault r = Dev.refreshTest
      ((if d.cfg.inrushGate then (d.showFault r).clusterFault r else (d.showFault r).regionFault r).snapshot .regFault
        (if d.cfg.inrushGate then (d.showFault r).clusterFault r else (d.showFault r).regionFault r).stamp) := by
    rw [← hcfg, Dev.assertFault, if_neg (by simp [hlow, hr])]
    rfl
  rw [hassert]
  by_cases hgate : d.cfg.inrushGate = true
  · obtain ⟨p, hp⟩ := (d.showFault r).clusterFault_eq r
    rw [if_pos hgate, hp]
    obtain ⟨hfault, hflag, hwrote⟩ := (d.openCluster_stands r).recorded (Dev.shedIf_kept ((d.showFault r).clusterOf r)) _ p
    obtain ⟨hkept, hpend, -⟩ := ((d.showFault r).openCluster r).faultRecord_spec (Dev.shedIf_kept ((d.showFault r).clusterOf r))
      ((d.showFault r).openCluster r).stamp _ p
    obtain ⟨hstate, hnone⟩ := (d.showFault r).openCluster_degraded r
    rw [Dev.clusterOf_showFault] at hstate
    refine ⟨hfault, hflag, hwrote, fun _ => ⟨?_, fun q hq => ?_⟩⟩
    · refine decide_eq_true ((hkept _ ?_ ?_).trans hstate)
      · rw [key_div (by decide)]
        simp only [snapshotIndices, recordIndices, List.mem_cons, List.not_mem_nil, or_false]
        omega
      · unfold key
        omega
    · have := hnone q (hpend ▸ hq)
      rwa [Dev.clusterOf_showFault, Dev.clusterOf_showFault] at this
  · obtain ⟨p, hp⟩ := (d.showFault r).regionFault_eq r
    rw [if_neg hgate, hp]
    obtain ⟨hfault, hflag, hwrote⟩ := (d.openRegion_stands r).recorded (g := id) (fun _ => ⟨rfl, rfl, rfl, rfl⟩) _ p
    exact ⟨hfault, hflag, hwrote, fun h => absurd h hgate⟩

theorem regFault_yields (s : State) (l : LeafId) (r : Nat) (hruns : s.runs (.leaf l)) (hfirst : (s.dev (.leaf l)).boot.first = false)
    (hr : r < (s.dev (.leaf l)).cfg.powerRegions) (_ : r < 64) (hlow : (s.dev (.leaf l)).faulted r = false)
    (hc : (s.dev (.leaf l)).clusterOf r < 16) :
    Yields (exec (.regFault l r) s) s (.leaf l) fun d =>
      d.faulted r = true ∧ (d.get 0x2401_00).testBit 1 = true ∧
      (((s.dev (.leaf l)).get 0x2601_01).testBit 5 = false →
        ∃ p, (s.dev (.leaf l)).wrote d 0x03 (s.dev (.leaf l)).stamp p) ∧
      ((s.dev (.leaf l)).cfg.inrushGate = true → d.degraded ((s.dev (.leaf l)).clusterOf r) = true ∧
        ∀ q ∈ d.pow.pend, (s.dev (.leaf l)).clusterOf q.region ≠ (s.dev (.leaf l)).clusterOf r) := by
  have hup : ((s.unit (.leaf l)).boot.held || (s.unit (.leaf l)).boot.first) = false := by
    show ((s.dev (.leaf l)).boot.held || (s.dev (.leaf l)).boot.first) = false
    rw [hruns, hfirst]
    rfl
  show Yields (execRegFault l r s) _ _ _
  refine ⟨_, State.onHeld_eq _ _ _, ?_⟩
  rw [hup, if_neg Bool.false_ne_true]
  exact (s.unit (.leaf l)).assertFault_spec hr hlow hc

theorem regFault_before_first_yields (s : State) (l : LeafId) (r : Nat)
    (hdown : (s.dev (.leaf l)).boot.held = true ∨ (s.dev (.leaf l)).boot.first = true)
    (hr : r < (s.dev (.leaf l)).cfg.powerRegions) :
    Yields (exec (.regFault l r) s) s (.leaf l) fun d => d = { s.unit (.leaf l) with out := [.pin .regionOff r 1] } := by
  show Yields (execRegFault l r s) _ _ _
  refine ⟨_, State.onHeld_eq _ _ _, ?_⟩
  rw [if_pos (by simpa [State.unit] using hdown),
    if_pos (show r < (s.unit (.leaf l)).cfg.powerRegions from hr)]
  rfl

/-! ### CARRY_TIME_EXPIRED -/

theorem Dev.dark_darken_self (d : Dev) (r : Nat) : (d.darken r).dark r = true := by
  have hget : (d.darken r).get (key (0x2450 + r) 4) = 1 :=
    (Dev.get_inc_of_ne _ _ _ (by unfold key; omega)).trans (Dev.get_setB _ _ _)
  rw [Dev.dark, Dev.on, hget]
  rfl

theorem Dev.dark_darken (d : Dev) (x r : Nat) (h : d.dark r = true) : (d.darken x).dark r = true := by
  by_cases hx : r = x
  · rw [hx, Dev.dark_darken_self]
  · rw [Dev.dark, Dev.on, d.get_darken_of_ne (by unfold key; omega) (by unfold key; omega)]
    exact h

/-- A region is dark once it is among those darkened, or was before. -/
theorem Dev.dark_darkenAll (rs : List Nat) (d : Dev) {r : Nat} (h : r ∈ rs ∨ d.dark r = true) :
    (rs.foldl Dev.darken d).dark r = true := by
  induction rs generalizing d with
  | nil => exact h.resolve_left List.not_mem_nil
  | cons x rs ih =>
    rw [List.foldl_cons]
    rcases h with h | h
    · rcases List.mem_cons.mp h with rfl | h
      · exact ih _ (.inr (d.dark_darken_self r))
      · exact ih _ (.inl h)
    · exact ih _ (.inr (d.dark_darken x r h))

/-- Region-off for a cluster leaves dark every region of it whose input is asserted (R168, R169). -/
theorem Dev.dark_darkenFaulted (d : Dev) (c : Nat) {r : Nat} (hr : r ∈ d.regionsOf c) (hfault : d.faulted r = true) :
    (d.darkenFaulted c).1.dark r = true := by
  refine Dev.dark_darkenAll _ d ?_
  cases hdark : d.dark r with
  | true => exact .inr rfl
  | false => exact .inl (List.mem_filter.mpr ⟨hr, by simp [hdark, hfault]⟩)

/-- A property of a cluster's episodes that a change of them gives, or keeps. -/
theorem Dev.modEpisode_all (d : Dev) (c : Nat) {f : Episode → Episode} {p : Episode → Prop}
    (hp : ∀ x ∈ d.pow.episodes, x.unit = c → p (f x)) : ∀ y ∈ (d.modEpisode c f).pow.episodes, y.unit = c → p y := by
  intro y hy hc
  obtain ⟨x, hx, rfl⟩ := List.mem_map.mp hy
  split at hc
  · next h => rw [if_pos h]; exact hp x hx h
  · next h => exact absurd hc h

/-- An episode has lasted the carry time: it is marked, and where the load calls for it the cluster's regions go off (R168). -/
def Dev.carryOver (d : Dev) (c : Nat) : Dev :=
  let e := d.modEpisode c fun x => { x with carried := true }
  if d.get 0x2405_03 * d.capacity c ≤ d.load c * 100 then (e.darkenFaulted c).1.flagIf ((e.darkenFaulted c).2 != 0) 0x2401 2 else e

theorem execCarryTimeExpired_eq (l : LeafId) (c : Nat) (s : State) :
    execCarryTimeExpired l c s = s.onLeaf l fun d =>
      match d.pow.episodes.find? (·.unit = c) with
      | none => d
      | some x => if !d.cfg.inrushGate || x.carried || d.stamp < x.first + d.get 0x2405_02 then d else d.carryOver c := rfl

theorem Dev.carryOver_spec (d : Dev) (c : Nat) :
    (∀ y ∈ (d.carryOver c).pow.episodes, y.unit = c → y.carried = true) ∧
    (d.get 0x2405_03 * d.capacity c ≤ d.load c * 100 →
      ∀ r ∈ d.regionsOf c, d.faulted r = true → (d.carryOver c).dark r = true) ∧
    (d.load c * 100 < d.get 0x2405_03 * d.capacity c → d.carryOver c = { d with pow := (d.carryOver c).pow }) := by
  have hmarked : ∀ y ∈ (d.modEpisode c fun x => { x with carried := true }).pow.episodes, y.unit = c → y.carried = true :=
    d.modEpisode_all _ fun _ _ _ => rfl
  by_cases hload : d.get 0x2405_03 * d.capacity c ≤ d.load c * 100
  · simp only [Dev.carryOver, if_pos hload]
    refine ⟨?_, fun _ r hr hfault => ?_, fun h => absurd hload (Nat.not_le.mpr h)⟩
    · rw [Dev.flagIf_pow]
      refine Dev.modEpisode_all _ _ fun y hy hc => ?_
      rw [Dev.darkenAll_pow] at hy
      exact hmarked y hy hc
    · have hdark := Dev.dark_darkenFaulted (d.modEpisode c fun x => { x with carried := true }) c hr hfault
      rw [Dev.dark, Dev.on, Dev.get_flagIf_of_ne _ _ _ _ _ (by unfold key; omega) (by unfold key; omega) (by unfold key; omega)]
      exact hdark
  · simp only [Dev.carryOver, if_neg hload]
    exact ⟨hmarked, fun h => absurd h hload, fun _ => rfl⟩

theorem carryTimeExpired_yields (s : State) (l : LeafId) (c : Nat) (x : Episode) (hruns : s.runs (.leaf l))
    (hfind : (s.dev (.leaf l)).pow.episodes.find? (·.unit = c) = some x) (hgate : (s.dev (.leaf l)).cfg.inrushGate = true)
    (hnew : x.carried = false) (hlate : x.first + (s.dev (.leaf l)).get 0x2405_02 ≤ (s.dev (.leaf l)).stamp)
    (_ : (s.dev (.leaf l)).cfg.powerRegions ≤ 64) :
    Yields (exec (.carryTimeExpired l c) s) s (.leaf l) fun d =>
      (∀ y ∈ d.pow.episodes, y.unit = c → y.carried = true) ∧
      ((s.dev (.leaf l)).get 0x2405_03 * (s.dev (.leaf l)).capacity c ≤ (s.dev (.leaf l)).load c * 100 →
        ∀ r ∈ (s.dev (.leaf l)).regionsOf c, (s.dev (.leaf l)).faulted r = true → d.dark r = true) ∧
      ((s.dev (.leaf l)).load c * 100 < (s.dev (.leaf l)).get 0x2405_03 * (s.dev (.leaf l)).capacity c →
        d = { s.unit (.leaf l) with pow := d.pow }) := by
  have hfind' : (s.unit (.leaf l)).pow.episodes.find? (·.unit = c) = some x := hfind
  have hdue : (!(s.unit (.leaf l)).cfg.inrushGate || x.carried ||
      decide ((s.unit (.leaf l)).stamp < x.first + (s.unit (.leaf l)).get 0x2405_02)) = false := by
    rw [State.unit_cfg, hgate, hnew]
    exact decide_eq_false (Nat.not_lt.mpr hlate)
  show Yields (execCarryTimeExpired l c s) _ _ _
  rw [execCarryTimeExpired_eq]
  refine State.on_yields _ _ _ _ hruns ?_
  simp only [hfind', hdue, if_false, Bool.false_eq_true]
  exact (s.unit (.leaf l)).carryOver_spec c

/-! ### REG_CLEAR -/

/-- A cluster that leaves DEGRADED, before the record of it (R170). -/
def Dev.restore (d : Dev) (c : Nat) : Dev :=
  (((d.regionsOf c).filter d.dark).foldl (fun d r => (d.setB (key (0x2450 + r) 4) false).emit (.pin .regionOff r 0)) d).set
    (key (0x2490 + c) 4) 0

theorem Dev.clearCluster_eq (d : Dev) (x : Episode) :
    d.clearCluster x =
      let e := if (d.restore x.unit).on 0x2400_00 then d.restore x.unit else (d.restore x.unit).shedOff x.unit
      e.record .regClear e.stamp (regPayload x.unit x.darked x.minV x.minStamp) := rfl

theorem Dev.restore_eq (d : Dev) (c : Nat) : d.restore c = { d with objs := (d.restore c).objs, out := (d.restore c).out } := by
  have hfold (l : List Nat) (d : Dev) :
      l.foldl (fun (d : Dev) r => (d.setB (key (0x2450 + r) 4) false).emit (.pin .regionOff r 0)) d =
        { d with
          objs := (l.foldl (fun (d : Dev) r => (d.setB (key (0x2450 + r) 4) false).emit (.pin .regionOff r 0)) d).objs
          out := (l.foldl (fun (d : Dev) r => (d.setB (key (0x2450 + r) 4) false).emit (.pin .regionOff r 0)) d).out } := by
    induction l generalizing d with
    | nil => rfl
    | cons r l ih => rw [List.foldl_cons, ih]; rfl
  rw [Dev.restore, hfold]
  rfl

/-- What a cluster that leaves DEGRADED leaves: its state, the episodes, and the record (R170). -/
theorem Dev.clearCluster_spec (d : Dev) (x : Episode) (hc : x.unit < 16) :
    (d.clearCluster x).pow.episodes = d.pow.episodes ∧ (∃ p, d.wrote (d.clearCluster x) 0x04 d.stamp p) ∧
    (d.clearCluster x).degraded x.unit = false := by
  rw [Dev.clearCluster_eq]
  dsimp only
  have hstate : (d.restore x.unit).get (key (0x2490 + x.unit) 4) = 0 := Dev.get_set_byte _ _ _ (by decide)
  have hepisodes : ((d.restore x.unit).shedOff x.unit).pow.episodes = (d.restore x.unit).pow.episodes := by
    unfold Dev.shedOff
    split <;> rfl
  obtain ⟨e, he⟩ : ∃ e, e =
      if (d.restore x.unit).on 0x2400_00 then d.restore x.unit else (d.restore x.unit).shedOff x.unit := ⟨_, rfl⟩
  rw [← he]
  obtain ⟨hget, htime, hrcd, hepi⟩ : (∀ k, e.get k = (d.restore x.unit).get k) ∧ e.time = d.time ∧ e.rcd = d.rcd ∧
      e.pow.episodes = d.pow.episodes := by
    rw [he]
    split
    · rw [Dev.restore_eq]
      exact ⟨fun _ => rfl, rfl, rfl, rfl⟩
    · obtain ⟨-, -, hshed⟩ := (d.restore x.unit).shedOff_spec x.unit
      refine ⟨fun k => Dev.get_congr (by rw [hshed]) (by rw [hshed]) k, by rw [hshed, Dev.restore_eq],
        by rw [hshed, Dev.restore_eq], ?_⟩
      rw [hepisodes, Dev.restore_eq]
  have hstamp : e.stamp = d.stamp := by rw [Dev.stamp, htime, Dev.stamp]
  refine ⟨by rw [Dev.record_pow, hepi], ⟨regPayload x.unit x.darked x.minV x.minStamp, ?_⟩, ?_⟩
  · rw [← hstamp]
    exact (e.record_wrote .regClear e.stamp _).congr (by rw [hrcd]) rfl
  · refine decide_eq_false ?_
    rw [Dev.KeptOutside.record e _ _ _ _ ?_, hget, hstate]
    · decide
    · rw [key_div (by decide)]
      simp only [recordIndices, List.mem_cons, List.not_mem_nil, or_false]
      omega

/-- The device without the episodes of a cluster or a region. -/
def Dev.endEpisode (d : Dev) (c : Nat) : Dev :=
  { d with pow := { d.pow with episodes := d.pow.episodes.filter (·.unit != c) } }

theorem Dev.endEpisode_none (d : Dev) (c : Nat) : ∀ y ∈ (d.endEpisode c).pow.episodes, y.unit ≠ c := fun y hy => by
  simpa using (List.mem_filter.mp hy).2

/-- The inputs of an episode have been low for the time `w` at the time `now`. -/
def Episode.clearDue (x : Episode) (now w : Nat) : Bool := x.clearAt.any (now ≥ · + w)

theorem Episode.clearDue_of_le (x : Episode) {t now w : Nat} (hclear : x.clearAt = some t) (h : t + w ≤ now) :
    x.clearDue now w = true := by
  rw [Episode.clearDue, hclear]
  exact decide_eq_true h

/-- REG_CLEAR of one device (R170, R172). -/
def Dev.regClear (d : Dev) (c : Nat) : Dev :=
  match d.pow.episodes.find? (·.unit = c) with
  | none => d
  | some x =>
    if d.cfg.inrushGate then
      if x.clearDue d.stamp (d.get 0x2405_04) && d.pow.curTick = some d.time.tick then (d.endEpisode c).clearCluster x
      else d
    else if x.clearDue d.stamp 1000000 then
      (d.endEpisode c).record .regClear d.stamp (regPayload (0x80 + c) 0 x.minV x.minStamp)
    else d

theorem execRegClear_eq (l : LeafId) (c : Nat) (s : State) : execRegClear l c s = s.onLeaf l (·.regClear c) := rfl

theorem Dev.regClear_spec (d : Dev) {c t : Nat} {x : Episode} (hfind : d.pow.episodes.find? (·.unit = c) = some x)
    (hclear : x.clearAt = some t) (hc : c < 16)
    (hdue : if d.cfg.inrushGate = true then
        t + d.get 0x2405_04 ≤ d.stamp ∧ d.pow.curTick = some d.time.tick ∧ d.cfg.powerRegions ≤ 64
      else t + 1000000 ≤ d.stamp) :
    (∀ y ∈ (d.regClear c).pow.episodes, y.unit ≠ c) ∧ (∃ p, d.wrote (d.regClear c) 0x04 d.stamp p) ∧
    (d.cfg.inrushGate = true → (d.regClear c).degraded c = false) := by
  have hunit : x.unit = c := by simpa using List.find?_some hfind
  simp only [Dev.regClear, hfind]
  by_cases hgate : d.cfg.inrushGate = true
  · rw [if_pos hgate] at hdue
    obtain ⟨hlow, hsample, -⟩ := hdue
    rw [if_pos hgate, if_pos (by rw [decide_eq_true hsample, Bool.and_true]; exact x.clearDue_of_le hclear hlow)]
    obtain ⟨hepisodes, hwrote, hstate⟩ := (d.endEpisode c).clearCluster_spec x (by omega)
    rw [hunit] at hstate
    exact ⟨by rw [hepisodes]; exact d.endEpisode_none c, hwrote, fun _ => hstate⟩
  · rw [if_neg hgate] at hdue
    rw [if_neg hgate, if_pos (x.clearDue_of_le hclear hdue)]
    exact ⟨by rw [Dev.record_pow]; exact d.endEpisode_none c, ⟨_, (d.endEpisode c).record_wrote _ _ _⟩, fun h => absurd h hgate⟩

theorem regClear_yields (s : State) (l : LeafId) (c t : Nat) (x : Episode) (hruns : s.runs (.leaf l))
    (hfind : (s.dev (.leaf l)).pow.episodes.find? (·.unit = c) = some x) (hclear : x.clearAt = some t) (hc : c < 16)
    (hdue : if (s.dev (.leaf l)).cfg.inrushGate = true then t + (s.dev (.leaf l)).get 0x2405_04 ≤ (s.dev (.leaf l)).stamp ∧
        (s.dev (.leaf l)).pow.curTick = some (s.dev (.leaf l)).time.tick ∧ (s.dev (.leaf l)).cfg.powerRegions ≤ 64
      else t + 1000000 ≤ (s.dev (.leaf l)).stamp) :
    Yields (exec (.regClear l c) s) s (.leaf l) fun d =>
      (∀ y ∈ d.pow.episodes, y.unit ≠ c) ∧
      (∃ p, (s.dev (.leaf l)).wrote d 0x04 (s.dev (.leaf l)).stamp p) ∧
      ((s.dev (.leaf l)).cfg.inrushGate = true → d.degraded c = false) := by
  show Yields (execRegClear l c s) _ _ _
  rw [execRegClear_eq]
  exact State.on_yields _ _ _ _ hruns ((s.unit (.leaf l)).regClear_spec hfind hclear hc hdue)

/-- Settles O21: a fault and a clear are each what stands before the record of it, and the record; the region-off requests
of the carry time are one darkening after another. -/
theorem regulatorFaultsOpenAndCloseEpisodes : Obligations.RegulatorFaultsOpenAndCloseEpisodes :=
  ⟨regFault_yields, regFault_before_first_yields, carryTimeExpired_yields, regClear_yields⟩

end Sys2Proof.Machine
end

section
/-! SUPPORT. O22: what a power-fail warning does beside chapter 04's objects, and its end (R174, R176, R232, R240, R607). -/

namespace Sys2Proof.Machine

open Sys2Proof

/-- A key of no object of chapter 04, whose objects are those of the indices 0x2400 to 0x24FF. -/
abbrev outsidePower (k : Nat) : Prop := k < 0x240000 ∨ 0x250000 ≤ k

theorem outsidePower_key {i : Nat} (s : Nat) (hi : 0x2500 ≤ i) : outsidePower (key i s) := by
  unfold outsidePower key
  omega

/-- From `d` to `d'` the power state, the time and the objects of chapter 04 stand. -/
structure Dev.PowerKept (d d' : Dev) : Prop where
  pow : d'.pow = d.pow
  time : d'.time = d.time
  get : ∀ k, ¬outsidePower k → d'.get k = d.get k

namespace Dev.PowerKept

theorem refl (d : Dev) : d.PowerKept d := ⟨rfl, rfl, fun _ _ => rfl⟩

theorem trans {a b c : Dev} (h : a.PowerKept b) (h' : b.PowerKept c) : a.PowerKept c :=
  ⟨h'.pow.trans h.pow, h'.time.trans h.time, fun k hk => (h'.get k hk).trans (h.get k hk)⟩

theorem ite {d a b : Dev} {c : Prop} [Decidable c] (ha : d.PowerKept a) (hb : d.PowerKept b) : d.PowerKept (if c then a else b) := by
  split
  · exact ha
  · exact hb

theorem foldl {α : Type} {f : Dev → α → Dev} (hf : ∀ (d : Dev) x, d.PowerKept (f d x)) (l : List α) (d : Dev) :
    d.PowerKept (l.foldl f d) := by
  induction l generalizing d with
  | nil => exact .refl d
  | cons x xs ih => exact .trans (hf d x) (ih (f d x))

/-- A change of what is neither power state, time, object nor build. -/
theorem of_eq {d d' : Dev} (hpow : d'.pow = d.pow) (htime : d'.time = d.time) (hobjs : d'.objs = d.objs) (hcfg : d'.cfg = d.cfg) :
    d.PowerKept d' := ⟨hpow, htime, fun k _ => Dev.get_congr hobjs hcfg k⟩

/-! ### Objects -/

theorem set (d : Dev) {k : Nat} (v : Nat) (hk : outsidePower k) : d.PowerKept (d.set k v) :=
  ⟨rfl, rfl, fun j hj => d.get_set_of_ne j k v fun h => hj (h ▸ hk)⟩

theorem add (d : Dev) {k : Nat} (n : Nat) (hk : outsidePower k) : d.PowerKept (d.add k n) :=
  ⟨by simp, by simp, fun j hj => d.get_add_of_ne j k n fun h => hj (h ▸ hk)⟩

theorem inc (d : Dev) {k : Nat} (hk : outsidePower k) : d.PowerKept (d.inc k) := .add d 1 hk

theorem always (d : Dev) {sub : Nat} (n : Nat) (hsub : sub < 256) : d.PowerKept (d.always sub n) :=
  ⟨by simp, by simp, fun j hj => d.get_always_of_ne j sub n fun h => hj (h ▸ .inl (by unfold key; omega))⟩

theorem flag (d : Dev) {i : Nat} (b : Nat) (hi : 0x2500 ≤ i) : d.PowerKept (d.flag i b) :=
  ⟨by simp, by simp, fun j hj => d.get_flag_of_ne j i b (fun h => hj (h ▸ outsidePower_key 0 hi))
    (fun h => hj (h ▸ outsidePower_key (b + 1) (by omega))) (fun h => hj (h ▸ .inl (by decide)))⟩

/-! ### The Stem link and the uplink -/

theorem emit (d : Dev) (o : Out) : d.PowerKept (d.emit o) := .of_eq rfl rfl rfl rfl

theorem modStem (d : Dev) (e : StemId) (f : StemEnd → StemEnd) : d.PowerKept (d.modStem e f) := by
  cases e <;> exact .of_eq rfl rfl rfl rfl

theorem modLine (d : Dev) (e : StemId) (f : StemLine → StemLine) : d.PowerKept (d.modLine e f) := .ite (.refl d) (.modStem d e _)

theorem sendBlock (d : Dev) (e : StemId) (t : Nat) (bs : Bytes) : d.PowerKept (d.sendBlock e t bs) :=
  .trans (.emit d _) (.modLine _ e _)

theorem abortFrame (d : Dev) (l : LeafId) : d.PowerKept (d.abortFrame l) := by
  unfold Dev.abortFrame Dev.abortAt
  split
  · have hcount : outsidePower (stemKey (.leaf l) 0x0C) := outsidePower_key (i := 0x3001) 0x0C (by decide)
    exact .trans (.trans (.trans (.modStem d _ _) (.modLine _ _ _)) (.inc _ hcount)) (.sendBlock _ _ _ _)
  · exact .refl d

theorem arb (d : Dev) (a : Arbiter) : d.PowerKept { d with arb := a } := .of_eq rfl rfl rfl rfl

theorem setQueue (d : Dev) (src : Nat) (q : List Xfer) : d.PowerKept (d.setQueue src q) :=
  .trans (.arb d _) (.set _ _ (outsidePower_key 6 (by omega)))

theorem queueUp (d : Dev) (src : USrc) (x : Xfer) : d.PowerKept (d.queueUp src x) := .setQueue d _ _

theorem countSent (d : Dev) (src n : Nat) (yellow : Bool) : d.PowerKept (d.countSent src n yellow) :=
  have hadd : d.PowerKept (d.add (key (0x2901 + src) 8) n) := .add d n (outsidePower_key 8 (by omega))
  .ite (hadd.trans (.add _ n (.inr (by decide)))) hadd

theorem cutLine (d : Dev) (sent : Nat) : d.PowerKept (d.cutLine sent) := by
  unfold Dev.cutLine
  split
  · exact .refl d
  · exact .trans (.trans (.trans (.countSent d _ _ _) (.ite (.refl _) (.arb _ _)))
      (.trans (.add _ _ (outsidePower_key 9 (by omega))) (.always _ _ (by decide)))) (.trans (.arb _ _) (.setQueue _ _ _))

/-! ### The trace -/

theorem trc (d : Dev) (x : TraceSt) : d.PowerKept { d with trc := x } := .of_eq rfl rfl rfl rfl

theorem modSrc (d : Dev) (s : Nat) (f : TSource → TSource) : d.PowerKept (d.modSrc s f) := .trc d _

theorem enqueue (d : Dev) (s : Nat) (p : TPkt) : d.PowerKept (d.enqueue s p) :=
  .trans (.inc d (outsidePower_key 4 (by omega))) (.modSrc _ s _)

theorem putOverflow (d : Dev) (s lost tag : Nat) (capture toCap : Bool) : d.PowerKept (d.putOverflow s lost tag capture toCap) :=
  .trans (.trans (.trans (.trans (.trans (.enqueue d s _) (.enqueue _ s _)) (.modSrc _ s _)) (.always _ _ (by decide)))
    (.add _ _ (outsidePower_key 3 (by omega)))) (.flag _ _ (by decide))

theorem reportLoss (d : Dev) (s : Nat) : d.PowerKept (d.reportLoss s) := by
  have hput (f : TSource → TSource) (lost tag : Nat) (capture toCap : Bool) :
      d.PowerKept ((d.modSrc s f).putOverflow s lost tag capture toCap) := .trans (.modSrc d s f) (.putOverflow _ _ _ _ _ _)
  unfold Dev.reportLoss
  refine .ite (.refl d) ?_
  split
  · exact hput _ _ _ _ _
  · exact .ite (hput _ _ _ _ _) (.ite (hput _ _ _ _ _) (.refl d))

theorem loseCapture (d : Dev) (s n : Nat) : d.PowerKept (d.loseCapture s n) := by
  unfold Dev.loseCapture
  split
  · exact .refl d
  · exact .trans (.trans (.modSrc d s _) (.trans (.inc _ (.inr (by decide))) (.flag _ _ (by decide)))) (.reportLoss _ s)

theorem enterRing (d : Dev) (p : TPkt) : d.PowerKept (d.enterRing p) := by
  unfold Dev.enterRing
  split
  exact .trans (.ite (.trc d _) (.trans (.trc d _) (.set _ _ (.inr (by decide))))) (.inc _ (.inr (by decide)))

theorem enterRecompute (d : Dev) (p : TPkt) : d.PowerKept (d.enterRecompute p) := by
  unfold Dev.enterRecompute
  dsimp only
  split
  · exact .ite (.setQueue d _ _) (.queueUp d _ _)
  · exact .queueUp d _ _

theorem funnel (d : Dev) : d.PowerKept d.funnel := by
  unfold Dev.funnel
  split
  · exact .refl d
  · next src p _ =>
    cases src with
    | none => exact .trans (.trc d _) (.ite (.enterRecompute _ p) (.enterRing _ p))
    | some s => exact .trans (.trans (.trc d _) (.modSrc _ s _)) (.ite (.enterRecompute _ p) (.enterRing _ p))

theorem funnelAll (n : Nat) (d : Dev) : d.PowerKept (funnelAll n d) := by
  induction n generalizing d with
  | zero => exact .refl d
  | succ n ih => exact .ite (.refl d) ((funnel d).trans (ih d.funnel))

theorem frozen (d : Dev) : d.PowerKept d.frozen := .trans (.trc d _) (.set _ _ (.inr (by decide)))

theorem freezeOnPowerFail (d : Dev) : d.PowerKept d.freezeOnPowerFail := by
  unfold Dev.freezeOnPowerFail
  extract_lets t d1 x d2 n d3 d4
  have hd1 : d.PowerKept d1 := .ite (.trans (.set d _ (.inr (by decide))) (.set _ _ (.inr (by decide)))) (.refl d)
  have hd2 : d1.PowerKept d2 := .trc d1 _
  have hd3 : d2.PowerKept d3 := .trans (.funnelAll n d2) (.frozen _)
  have hd4 : d3.PowerKept d4 :=
    .trans (.trans (.set d3 _ (.inr (by decide))) (.set _ _ (.inr (by decide)))) (.flag _ _ (by decide))
  exact .ite (.refl d) (hd1.trans (hd2.trans (hd3.trans (hd4.trans (.foldl (fun d s => .loseCapture d s 0) _ d4)))))

/-! ### The recorder -/

theorem of_recorder {d d' : Dev} (hpow : d'.pow = d.pow) (htime : d'.time = d.time) (hget : d.KeptOutside snapshotIndices d') :
    d.PowerKept d' := by
  refine ⟨hpow, htime, fun k hk => hget k fun hmem => hk ?_⟩
  simp only [snapshotIndices, recordIndices, List.mem_cons, List.not_mem_nil, or_false] at hmem
  unfold outsidePower
  omega

theorem rcd (d : Dev) (x : RecSt) : d.PowerKept { d with rcd := x } := .of_eq rfl rfl rfl rfl

theorem powerFailRecords (d : Dev) : d.PowerKept d.powerFailRecords :=
  .of_recorder (by simp [Dev.powerFailRecords]) (by simp [Dev.powerFailRecords])
    (.trans ((Dev.KeptOutside.record d _ _ _).mono (List.subset_cons_self _ _)) (.snapshot _ _ _))

theorem putRecord (d : Dev) (kind flags time : Nat) (payload : Bytes) (o : Option (Nat × Nat)) :
    d.PowerKept (d.putRecord kind flags time payload o) :=
  .of_recorder (by simp) (by simp) ((Dev.KeptOutside.putRecord d _ _ _ _ _).mono (List.subset_cons_self _ _))

theorem startFlush (d : Dev) (reason : Nat) : d.PowerKept (d.startFlush reason) := by
  unfold Dev.startFlush
  extract_lets seq payload n d1 d2 runs d3
  have hd1 : d.PowerKept d1 := .putRecord d _ _ _ _ _
  have hd2 : d1.PowerKept d2 := .trans (.inc d1 (.inr (by decide))) (.set _ _ (.inr (by decide)))
  have hd3 : d2.PowerKept d3 := .set d2 _ (.inr (by decide))
  clear_value d3
  exact hd1.trans (hd2.trans (hd3.trans (.rcd d3 _)))

theorem powerFailFlush (d : Dev) : d.PowerKept d.powerFailFlush := by
  have hunsend : d.PowerKept d.unsendAfterPowerFail := .ite (.refl d) (.rcd d _)
  unfold Dev.powerFailFlush
  extract_lets parked e
  have he : d.PowerKept e := hunsend.trans (.rcd _ _)
  clear_value e
  exact he.trans (.trans (.setQueue e 1 []) (.startFlush _ _))

/-! ### The factory test -/

theorem complete (d : Dev) {i : Nat} (p : List (Nat × Nat)) (hi : 0x2500 ≤ i) : d.PowerKept (d.complete i p) := by
  have hsend : (d.completeRes i p).PowerKept ((d.completeRes i p).notify i) := by
    have h := Dev.Sends.notify (d.completeRes i p) i
    refine ⟨by rw [h.keep], by rw [h.keep], fun k hk => h.get k ?_⟩
    simp only [sendKey, List.contains_eq_mem, decide_eq_false_iff_not, List.mem_cons, List.not_mem_nil, or_false]
    unfold outsidePower at hk
    omega
  have hset (d : Dev) (s v : Nat) : d.PowerKept (d.set (key i s) v) := .set d v (outsidePower_key s hi)
  have hpayload : d.PowerKept (p.foldl (fun (d : Dev) x => d.set (key i x.1) x.2) d) := .foldl (fun d x => hset d x.1 x.2) p d
  exact .trans (hpayload.trans (.trans (hset _ 2 _) (.trans (hset _ 3 _) (hset _ 1 _)))) hsend

theorem ftest (d : Dev) (x : FieldSt) : d.PowerKept { d with ftest := x } := .of_eq rfl rfl rfl rfl

theorem abandonTest (d : Dev) : d.PowerKept d.abandonTest := by
  unfold Dev.abandonTest Dev.endTest
  split
  · exact .refl d
  · next x _ =>
    extract_lets b duration y d1 d2 d3 d4 d5
    have hd1 : d.PowerKept d1 :=
      .trans (.trans (ftest d _) (.set _ _ (.inr (by decide)))) (.emit _ _)
    have hd2 : d1.PowerKept d2 := .ite (.refl d1) (.emit d1 _)
    have hcount : d3 = d2.inc TestEnd.abandoned.counter := if_neg (by decide)
    have hreport : d4 = d3 := if_neg Bool.false_ne_true
    have hcursor : d5 = d4 := if_neg Bool.false_ne_true
    clear_value d1 d2 d3 d4 d5
    rw [hcursor, hreport, hcount]
    exact hd1.trans (hd2.trans (.trans (.inc d2 (.inr (by decide))) (.complete _ _ (by decide))))

end Dev.PowerKept

/-! ### POWER_FAIL_WARNING -/

theorem Dev.pfActive_of_get {d : Dev} (h : d.get 0x2407_01 = 1) : d.pfActive = true := by
  rw [Dev.pfActive, Dev.on, h]
  rfl

/-- A leaf's warning, up to the denied requests. -/
def Dev.warnLeaf (d : Dev) (l : LeafId) : Dev :=
  let e := (d.flag 0x2401 0).always 0x1E 1
  let e := (e.abortFrame l).cutLine e.arb.off
  (e.set 0x2407_02 e.stamp).set 0x2407_01 1

theorem Dev.leafPowerFail_eq (d : Dev) (l : LeafId) :
    d.leafPowerFail l =
      ((d.warnLeaf l).denyAll fun _ => true).freezeOnPowerFail.powerFailRecords.powerFailFlush.abandonTest.refreshTest := rfl

theorem Dev.warnLeaf_spec (d : Dev) (l : LeafId) (htick : 8 * d.time.tick < 2 ^ 64) :
    (d.warnLeaf l).get 0x2407_01 = 1 ∧ (d.warnLeaf l).get 0x2407_02 = d.stamp ∧ ((d.warnLeaf l).get 0x2401_00).testBit 0 = true := by
  obtain ⟨e, he⟩ : ∃ e, e = (d.flag 0x2401 0).always 0x1E 1 := ⟨_, rfl⟩
  obtain ⟨c, hc⟩ : ∃ c, c = (e.abortFrame l).cutLine e.arb.off := ⟨_, rfl⟩
  have hcut : e.PowerKept c := hc ▸ .trans (.abortFrame e l) (.cutLine _ _)
  have hwarn : d.warnLeaf l = (c.set 0x2407_02 c.stamp).set 0x2407_01 1 := by
    rw [hc, he]
    rfl
  have hstamp : c.stamp = d.stamp := by rw [Dev.stamp, hcut.time, he, Dev.always_time, Dev.flag_time, Dev.stamp]
  rw [hwarn, hstamp]
  refine ⟨Dev.get_set_byte _ _ _ (by decide), ?_, ?_⟩
  · rw [Dev.get_set_of_ne _ _ _ _ (by decide)]
    exact Dev.get_set_fits _ _ _ htick
  · rw [Dev.get_set_of_ne _ _ _ _ (by decide), Dev.get_set_of_ne _ _ _ _ (by decide), hcut.get _ (by decide), he,
      Dev.get_always_of_ne _ _ _ _ (by decide)]
    exact Dev.testBit_flag _ (i := 0x2401) (by decide) (width_ge_8 _ _) (by decide)

theorem Dev.leafPowerFail_spec (d : Dev) (l : LeafId) (htick : 8 * d.time.tick < 2 ^ 64) :
    (d.leafPowerFail l).pfActive = true ∧ (d.leafPowerFail l).get 0x2407_02 = d.stamp ∧
    ((d.leafPowerFail l).get 0x2401_00).testBit 0 = true ∧ (d.leafPowerFail l).pow.pend = [] := by
  obtain ⟨hactive, htime, hflag⟩ := d.warnLeaf_spec l htick
  obtain ⟨e, he⟩ : ∃ e, e = (d.warnLeaf l).denyAll fun _ => true := ⟨_, rfl⟩
  have hdeny : (d.warnLeaf l).objectsKept e [0x2404_04] := he ▸ (Dev.denyAll_kept _ _).2.2
  have hrest : e.PowerKept e.freezeOnPowerFail.powerFailRecords.powerFailFlush.abandonTest :=
    .trans (.trans (.trans (.freezeOnPowerFail e) (.powerFailRecords _)) (.powerFailFlush _)) (.abandonTest _)
  have hget (k : Nat) (hpower : ¬outsidePower k) (htest : k ≠ 0x2406_04) (hdenied : k ∉ [0x2404_04]) :
      (d.leafPowerFail l).get k = (d.warnLeaf l).get k := by
    rw [Dev.leafPowerFail_eq, ← he, Dev.get_refreshTest_of_ne _ htest, hrest.get k hpower, hdeny k hdenied]
  refine ⟨Dev.pfActive_of_get ?_, ?_, ?_, ?_⟩
  · rw [hget _ (by decide) (by decide) (by decide), hactive]
  · rw [hget _ (by decide) (by decide) (by decide), htime]
  · rw [hget _ (by decide) (by decide) (by decide), hflag]
  · rw [Dev.leafPowerFail_eq, ← he, Dev.refreshTest_pow, hrest.pow]
    refine List.eq_nil_iff_forall_not_mem.mpr fun q hq => ?_
    rw [he] at hq
    exact absurd (Dev.denyAll_pend _ _ q hq).2 (by decide)

/-- A trunk's warning before what it does to an update at work. -/
def Dev.warnTrunk (d : Dev) : Dev := (d.set 0x2407_01 1).gateThreads.powerFailRecords

/-- An image being written is abandoned (R607). -/
def Dev.abandonUpdate (d : Dev) : Dev :=
  if d.get 0x1802_05 = 2 then
    ((d.putSector (d.get 0x1802_01) (d.get 0x1802_06 / 65536)
      (Config.tornSector (d.get 0x1802_01) (d.get 0x1802_06 / 65536) d.now)).set 0x1802_05 5).flag 0x1804 2
  else d

/-- The commit is due at once (R240). -/
def Dev.commitNow (d : Dev) : Dev := { d with rcd := { d.rcd with commitDue := some d.now } }

theorem Dev.trunkPowerFail_eq (d : Dev) : d.trunkPowerFail = d.warnTrunk.abandonUpdate.commitNow := rfl

@[simp] theorem Dev.commitNow_get (d : Dev) (k : Nat) : d.commitNow.get k = d.get k := rfl

theorem Dev.warnTrunk_spec (d : Dev) :
    d.warnTrunk.get 0x2407_01 = 1 ∧ d.warnTrunk.get 0x1802_05 = d.get 0x1802_05 ∧ d.warnTrunk.time = d.time := by
  have hkept : (d.set 0x2407_01 1).gateThreads.KeptOutside snapshotIndices d.warnTrunk :=
    .trans ((Dev.KeptOutside.record _ _ _ _).mono (List.subset_cons_self _ _)) (.snapshot _ _ _)
  refine ⟨?_, ?_, ?_⟩
  · rw [hkept _ (by decide)]
    exact Dev.get_set_byte d _ _ (by decide)
  · rw [hkept _ (by decide)]
    exact Dev.get_set_of_ne d _ _ _ (by decide)
  · exact (Dev.PowerKept.powerFailRecords _).time

theorem Dev.abandonUpdate_spec (d : Dev) :
    d.abandonUpdate.get 0x2407_01 = d.get 0x2407_01 ∧ d.abandonUpdate.time = d.time ∧
    (d.get 0x1802_05 = 2 → d.abandonUpdate.get 0x1802_05 = 5 ∧ (d.abandonUpdate.get 0x1804_00).testBit 2 = true) := by
  unfold Dev.abandonUpdate
  split
  · refine ⟨?_, by rw [Dev.flag_time]; rfl, fun _ => ⟨?_, ?_⟩⟩
    · rw [Dev.get_flag_of_ne _ _ _ _ (by decide) (by decide) (by decide), Dev.get_set_of_ne _ _ _ _ (by decide)]
      rfl
    · rw [Dev.get_flag_of_ne _ _ _ _ (by decide) (by decide) (by decide)]
      exact Dev.get_set_byte _ _ _ (by decide)
    · exact Dev.testBit_flag _ (i := 0x1804) (by decide) (width_ge_8 _ _) (by decide)
  · next hwriting => exact ⟨rfl, rfl, fun h => absurd h hwriting⟩

theorem Dev.trunkPowerFail_spec (d : Dev) :
    d.trunkPowerFail.pfActive = true ∧ d.trunkPowerFail.rcd.commitDue = some d.time.ns ∧
    (d.get 0x1802_05 = 2 → d.trunkPowerFail.get 0x1802_05 = 5 ∧ (d.trunkPowerFail.get 0x1804_00).testBit 2 = true) := by
  obtain ⟨hactive, hstate, htime⟩ := d.warnTrunk_spec
  obtain ⟨hkept, htime', hwritten⟩ := d.warnTrunk.abandonUpdate_spec
  rw [Dev.trunkPowerFail_eq]
  refine ⟨Dev.pfActive_of_get ?_, ?_, fun h => hwritten (hstate.trans h)⟩
  · rw [Dev.commitNow_get, hkept, hactive]
  · rw [← htime, ← htime']
    rfl

/-- POWER_FAIL_WARNING of one unit (R174, R176). -/
def Dev.powerFailWarning (d : Dev) (u : UnitId) : Dev :=
  if d.pfActive then d
  else match u with
    | .leaf l => Dev.leafPowerFail { d with pow := { d.pow with pfLowSince := none } } l
    | .trunk => Dev.trunkPowerFail { d with pow := { d.pow with pfLowSince := none } }

theorem execPowerFailWarning_eq (u : UnitId) (s : State) : execPowerFailWarning u s = s.on u (·.powerFailWarning u) := rfl

theorem powerFailWarning_leaf (s : State) (l : LeafId) (_ : s.built) (hruns : s.runs (.leaf l)) (hnone : (s.dev (.leaf l)).pfActive = false)
    (htick : 8 * (s.dev (.leaf l)).time.tick < 2 ^ 64) :
    Yields (exec (.powerFailWarning (.leaf l)) s) s (.leaf l) fun d =>
      d.pfActive = true ∧ d.get 0x2407_02 = (s.dev (.leaf l)).stamp ∧ (d.get 0x2401_00).testBit 0 = true ∧ d.pow.pend = [] := by
  have hnone' : ¬(s.unit (.leaf l)).pfActive = true := ne_true_of_eq_false hnone
  show Yields (execPowerFailWarning _ s) _ _ _
  rw [execPowerFailWarning_eq]
  refine State.on_yields _ _ _ _ hruns ?_
  rw [Dev.powerFailWarning, if_neg hnone']
  exact Dev.leafPowerFail_spec _ l htick

theorem powerFailWarning_trunk (s : State) (hruns : s.runs .trunk) (hnone : s.trunk.pfActive = false) :
    Yields (exec (.powerFailWarning .trunk) s) s .trunk fun d =>
      d.pfActive = true ∧ d.rcd.commitDue = some s.trunk.time.ns ∧
      (s.trunk.get 0x1802_05 = 2 → d.get 0x1802_05 = 5 ∧ (d.get 0x1804_00).testBit 2 = true) := by
  have hnone' : ¬(s.unit .trunk).pfActive = true := ne_true_of_eq_false hnone
  show Yields (execPowerFailWarning _ s) _ _ _
  rw [execPowerFailWarning_eq]
  refine State.on_yields _ _ _ _ hruns ?_
  rw [Dev.powerFailWarning, if_neg hnone']
  exact Dev.trunkPowerFail_spec _

theorem powerFailWarning_active (s : State) (u : UnitId) (hruns : s.runs u) (hactive : (s.dev u).pfActive = true) :
    Yields (exec (.powerFailWarning u) s) s u fun d => d = s.unit u := by
  show Yields (execPowerFailWarning _ s) _ _ _
  rw [execPowerFailWarning_eq]
  exact State.on_yields _ _ _ _ hruns (if_pos hactive)

/-! ### POWER_FAIL_RECOVER -/

/-- POWER_FAIL_RECOVER of one unit (R176). -/
def Dev.powerFailRecover (d : Dev) : Dev :=
  if d.pfActive && d.pow.pfLowSince.any (d.stamp ≥ · + d.get 0x2407_03) then d.setB 0x2407_01 false else d

theorem Dev.powerFailRecover_spec (d : Dev) (hactive : d.pfActive = true) :
    if (∃ t, d.pow.pfLowSince = some t ∧ t + d.get 0x2407_03 ≤ d.stamp) then
      d.powerFailRecover.pfActive = false ∧ d.onlyObjects d.powerFailRecover [0x2407_01]
    else d.powerFailRecover = d := by
  have hlow : d.pow.pfLowSince.any (d.stamp ≥ · + d.get 0x2407_03) = true ↔
      ∃ t, d.pow.pfLowSince = some t ∧ t + d.get 0x2407_03 ≤ d.stamp := by
    simp [Option.any_eq_true_iff_get, Option.eq_some_iff_get_eq]
  simp only [Dev.powerFailRecover, hactive, Bool.true_and, hlow]
  split
  · refine ⟨?_, rfl, fun k hk => Dev.get_setB_of_ne _ _ _ _ (by simpa using hk)⟩
    rw [Dev.pfActive, Dev.on, Dev.get_setB]
    rfl
  · rfl

theorem powerFailRecover_yields (s : State) (u : UnitId) (hruns : s.runs u) (hactive : (s.dev u).pfActive = true) :
    Yields (exec (.powerFailRecover u) s) s u fun d =>
      if (∃ t, (s.dev u).pow.pfLowSince = some t ∧ t + (s.dev u).get 0x2407_03 ≤ (s.dev u).stamp) then
        d.pfActive = false ∧ (s.unit u).onlyObjects d [0x2407_01]
      else d = s.unit u := by
  have heq : execPowerFailRecover u s = s.on u (·.powerFailRecover) := rfl
  show Yields (execPowerFailRecover u s) _ _ _
  rw [heq]
  exact State.on_yields _ _ _ _ hruns ((s.unit u).powerFailRecover_spec hactive)

/-- Settles O22: what a leaf does beside the warning's own objects leaves chapter 04's objects and the denied requests alone. -/
theorem powerFailWarningsBeginAndEnd : Obligations.PowerFailWarningsBeginAndEnd :=
  ⟨powerFailWarning_leaf, powerFailWarning_trunk, powerFailWarning_active, powerFailRecover_yields⟩

end Sys2Proof.Machine
end

section
/-! SUPPORT. What the operations on a trace source change (R183, R187 to R189, R193, R194, R196). -/

namespace Sys2Proof.Machine

open Sys2Proof

/-! ### One source -/

theorem Dev.srcAt_modSrc (d : Dev) {n : Nat} (f : TSource → TSource) (h : n < d.trc.srcs.length) :
    (d.modSrc n f).srcAt n = f (d.srcAt n) := by
  simp [Dev.srcAt, Dev.modSrc, h]

theorem Dev.srcAt_congr {d d' : Dev} (h : d'.trc = d.trc) (n : Nat) : d'.srcAt n = d.srcAt n := by
  unfold Dev.srcAt
  rw [h]

@[simp] theorem Dev.srcAt_countPkt (d : Dev) (m n : Nat) : (d.countPkt m).srcAt n = d.srcAt n :=
  Dev.srcAt_congr (d.inc_trc _) n

@[simp] theorem Dev.length_srcs_modSrc (d : Dev) (n : Nat) (f : TSource → TSource) :
    (d.modSrc n f).trc.srcs.length = d.trc.srcs.length := List.length_modify _ _ _

@[simp] theorem Dev.enqueue_time (d : Dev) (n : Nat) (p : TPkt) : (d.enqueue n p).time = d.time := d.inc_time _

@[simp] theorem Dev.length_srcs_enqueue (d : Dev) (n : Nat) (p : TPkt) :
    (d.enqueue n p).trc.srcs.length = d.trc.srcs.length := by
  rw [Dev.enqueue, Dev.length_srcs_modSrc, Dev.countPkt, Dev.inc_trc]

/-- A packet that enters its source's FIFO is its last, and nothing else of the source changes. -/
theorem Dev.srcAt_enqueue (d : Dev) {n : Nat} (p : TPkt) (h : n < d.trc.srcs.length) :
    (d.enqueue n p).srcAt n = { d.srcAt n with fifo := (d.srcAt n).fifo ++ [p] } := by
  rw [Dev.enqueue, Dev.srcAt_modSrc _ _ (by rwa [Dev.countPkt, Dev.inc_trc]), Dev.srcAt_countPkt]

theorem Dev.get_enqueue_of_ne (d : Dev) {n k : Nat} (p : TPkt) (h : k ≠ key (0x2510 + n) 4) : (d.enqueue n p).get k = d.get k :=
  d.get_inc_of_ne k _ h

/-- A packet that fits its source's FIFO enters it (R196). -/
theorem Dev.makePkt_of_room {d : Dev} {n : Nat} {p : TPkt} (h : p.bytes.length ≤ (d.srcAt n).room) : d.makePkt n p = d.enqueue n p :=
  if_pos h

/-- The trace apart, a packet that enters a FIFO changes its source's count of packets alone. -/
theorem Dev.enqueue_onlyObjects (d : Dev) (x : TraceSt) (n : Nat) (p : TPkt) :
    d.onlyObjects { Dev.enqueue { d with trc := x } n p with trc := d.trc } [key (0x2510 + n) 4] := by
  refine ⟨?_, fun k hk => Dev.get_enqueue_of_ne { d with trc := x } p (by simpa using hk)⟩
  unfold Dev.enqueue Dev.countPkt Dev.inc
  rw [Dev.add_eq]
  rfl

/-! ### The bytes of packets -/

theorem length_packetHead (kind source flags stamp : Nat) : (packetHead kind source flags stamp).length = 4 := by
  simp [packetHead, length_leBytes]

theorem Dev.length_syncBytes (d : Dev) (n t : Nat) (r : SyncReason) : (d.syncBytes n t r).length = 16 := by
  simp [Dev.syncBytes, length_packetHead, length_leBytes, length_zeros]

theorem length_dataPacket (n t f tag : Nat) (a : PortAccess) (bs : Bytes) (c r : Bool) :
    (dataPacket n t f tag a bs c r).length = 16 + alignUp bs.length 8 := by
  simp [dataPacket, length_packetHead, length_leBytes]
  omega

/-- A SYNC packet names the stamp and whether it is uncertain, and nothing else of the unit. -/
theorem Dev.syncBytes_congr {d d' : Dev} (htime : d'.time = d.time) (hget : d'.get 0x2002_0F = d.get 0x2002_0F) (n t : Nat)
    (r : SyncReason) :
    d'.syncBytes n t r = d.syncBytes n t r := by
  have huncertain : d'.uncertainAt t = d.uncertainAt t := by
    unfold Dev.uncertainAt Dev.uncertain Dev.on
    rw [htime, hget]
  rw [Dev.syncBytes, huncertain, Dev.syncBytes]

end Sys2Proof.Machine
end

section
/-! SUPPORT. O23: accesses as trace packets, captures and digests, and the packets SYNC and OVERFLOW (R182, R183, R187, R193, R196, R209,
R211, R212). -/

namespace Sys2Proof.Machine

open Sys2Proof

/-! ### The roles of an access -/

/-- The TRACE role of an access that a filter matches makes the DATA packet of the lowest (R183, R187). -/
theorem Dev.traceRole_of_match {d : Dev} {n f : Nat} {fs : List Nat} {a : PortAccess} (hmatch : d.matching n 0 a = f :: fs)
    (htracing : d.tracing n = true) :
    let c := d.get (key (0x2520 + 8 * n + f) 3)
    let taken := if a.size ≤ field c 15 8 then a.value else if c.testBit 3 = true then a.value.take (field c 15 8) else []
    d.traceRole n a = d.makePkt n
      (pkt (.data n) n d.stamp (dataPacket n d.stamp f (d.heldTag n) a taken false (field c 15 8 < a.size)) false none) := by
  have htaken (c : Nat) : (if (!decide (field c 15 8 < a.size)) = true then a.value else
      if c.testBit 3 = true then a.value.take (field c 15 8) else []) =
      if a.size ≤ field c 15 8 then a.value else if c.testBit 3 = true then a.value.take (field c 15 8) else [] := by
    simp
  unfold Dev.traceRole
  simp only [hmatch, htracing, Bool.not_true, Bool.false_eq_true, if_false, htaken]

theorem Dev.traceRole_of_noMatch {d : Dev} {n : Nat} {a : PortAccess} (h : d.matching n 0 a = []) : d.traceRole n a = d := by
  unfold Dev.traceRole
  rw [h]

theorem Dev.captureRole_of_none {d : Dev} {n : Nat} {a : PortAccess} (h : (d.srcAt n).capture = none) : d.captureRole n a = d := by
  unfold Dev.captureRole
  rw [h]

/-- A source whose capture has gone on over an access (R209). -/
def TSource.captured (x : TSource) (c : Capture) (a : PortAccess) : TSource :=
  { x with capture := some { c with crc := crc32cStep c.crc a.value, bytes := c.bytes + a.value.length } }

/-- The CAPTURE role of an access that no CAPTURE filter keeps out: the capture goes on, and the access is its DATA packet (R209). -/
theorem Dev.captureRole_of_capture {d : Dev} {n : Nat} {a : PortAccess} {c : Capture} (hcap : (d.srcAt n).capture = some c)
    (hfilter : d.hasFilter n 1 = false) :
    d.captureRole n a = (d.modSrc n (·.captured c a)).makePkt n
      (pkt (.data n) n d.stamp (dataPacket n d.stamp 0 (d.heldTag n) a a.value true false) true (some (n, c.begin))) := by
  unfold Dev.captureRole
  rw [hcap]
  dsimp only
  rw [if_neg (by simp [hfilter])]
  rfl

theorem Dev.digestRole_of_off {d : Dev} {n : Nat} {a : PortAccess} (h : d.get (key (0x2510 + n) 6) = 0) : d.digestRole n a = d := by
  unfold Dev.digestRole
  simp [h]

/-- The DIGEST role of an access that a filter matches, in mode EVENT: the open block goes on (R211). -/
theorem Dev.digestRole_of_event {d : Dev} {n : Nat} {a : PortAccess} (hmode : d.get (key (0x2510 + n) 6) = 1)
    (hmatch : d.matching n 2 a ≠ []) :
    d.digestRole n a = d.modSrc n fun x =>
      { x with digest := crc32cStep x.digest a.value, digBytes := x.digBytes + a.value.length } := by
  unfold Dev.digestRole
  simp [hmode, hmatch]

/-! ### TRACE_ACCESS -/

/-- A unit after an access at one of its awake sources: the three roles in order (R182). -/
def Dev.accessed (d : Dev) (n : Nat) (a : PortAccess) : Dev := ((d.traceRole n a).captureRole n a).digestRole n a

theorem traceAccess_yields {s : State} {l : LeafId} {n : Nat} {a : PortAccess} {P : Dev → Prop} (hruns : s.runs (.leaf l))
    (hn : n < (s.dev (.leaf l)).cfg.traceSources) (hpos : 0 < a.size) (hmax : a.size ≤ 64) (hval : a.value.length = a.size)
    (haddr : a.addr < 2 ^ 64) (hawake : ((s.dev (.leaf l)).srcAt n).asleep = none) (hp : P ((s.unit (.leaf l)).accessed n a)) :
    Yields (exec (.traceAccess l n a) s) s (.leaf l) P := by
  have hwhole : { a with value := bytesAt a.value 0 a.size, addr := a.addr % 2 ^ 64 } = a := by
    rw [bytesAt_whole hval, Nat.mod_eq_of_lt haddr]
  have hawake' : ((s.unit (.leaf l)).srcAt n).asleep = none := hawake
  show Yields (execTraceAccess l n a s) s (.leaf l) P
  unfold execTraceAccess
  refine s.on_yields (.leaf l) _ _ hruns ?_
  dsimp only
  rw [if_neg (by simp [hawake', hn, hmax, hpos.ne']), hwhole]
  exact hp

theorem Dev.awake_of_tracing {d : Dev} {n : Nat} (h : d.tracing n = true) : (d.srcAt n).asleep = none := by
  simp only [Dev.tracing, Bool.and_eq_true, Option.isNone_iff_eq_none] at h
  exact h.2

/-- An access that a TRACE filter matches, with room for its packet and nothing else at work (R183, R187). -/
theorem Dev.accessed_data {d : Dev} {n f : Nat} {fs : List Nat} {a : PortAccess} (hlen : n < d.trc.srcs.length)
    (htracing : d.tracing n = true) (hmatch : d.matching n 0 a = f :: fs) (hcap : (d.srcAt n).capture = none)
    (hoff : d.get (key (0x2510 + n) 6) = 0) :
    let c := d.get (key (0x2520 + 8 * n + f) 3)
    let taken := if a.size ≤ field c 15 8 then a.value else if c.testBit 3 = true then a.value.take (field c 15 8) else []
    let bs := dataPacket n d.stamp f (d.heldTag n) a taken false (field c 15 8 < a.size)
    bs.length ≤ (d.srcAt n).room →
    (∃ p, ((d.accessed n a).srcAt n).fifo = (d.srcAt n).fifo ++ [p] ∧ p.bytes = bs ∧ p.stamp = d.stamp ∧ p.source = n ∧
      p.toCap = false) ∧
    d.onlyObjects { d.accessed n a with trc := d.trc } [key (0x2510 + n) 4] := by
  intro c taken bs hroom
  set p := pkt (.data n) n d.stamp bs false none
  have htrace : d.traceRole n a = d.enqueue n p := (Dev.traceRole_of_match hmatch htracing).trans (Dev.makePkt_of_room hroom)
  have hsrc := d.srcAt_enqueue p hlen
  have hdone : d.accessed n a = d.enqueue n p := by
    rw [Dev.accessed, htrace, Dev.captureRole_of_none (by rw [hsrc]; exact hcap),
      Dev.digestRole_of_off ((d.get_enqueue_of_ne p (by unfold key; omega)).trans hoff)]
  rw [hdone, hsrc]
  exact ⟨⟨p, rfl, rfl, rfl, rfl, rfl⟩, d.enqueue_onlyObjects d.trc n p⟩

/-- An access under a capture that no CAPTURE filter narrows, with room for its packet and nothing else at work (R209). -/
theorem Dev.accessed_capture {d : Dev} {n : Nat} {a : PortAccess} {c : Capture} (hlen : n < d.trc.srcs.length) (hmax : a.size ≤ 64)
    (hval : a.value.length = a.size) (hcap : (d.srcAt n).capture = some c) (hfilter : d.hasFilter n 1 = false)
    (hmatch : d.matching n 0 a = []) (hoff : d.get (key (0x2510 + n) 6) = 0) (hroom : 80 ≤ (d.srcAt n).room) :
    ((d.accessed n a).srcAt n).capture = some { c with crc := crc32cStep c.crc a.value, bytes := c.bytes + a.size } ∧
    (∃ p, ((d.accessed n a).srcAt n).fifo = (d.srcAt n).fifo ++ [p] ∧ p.toCap = true ∧ p.cap = some (n, c.begin)) ∧
    d.onlyObjects { d.accessed n a with trc := d.trc } [key (0x2510 + n) 4] := by
  set p := pkt (.data n) n d.stamp (dataPacket n d.stamp 0 (d.heldTag n) a a.value true false) true (some (n, c.begin))
  set e := d.modSrc n (·.captured c a)
  have hmod : e.srcAt n = (d.srcAt n).captured c a := d.srcAt_modSrc _ hlen
  have hfits : p.bytes.length ≤ (e.srcAt n).room := by
    have hbytes : p.bytes.length = 16 + alignUp a.value.length 8 := length_dataPacket _ _ _ _ _ _ _ _
    have hfree : 80 ≤ ((d.srcAt n).captured c a).room := hroom
    rw [hmod]
    unfold alignUp at hbytes
    omega
  have hsrc := e.srcAt_enqueue p ((d.length_srcs_modSrc n _).symm ▸ hlen)
  have hdone : d.accessed n a = e.enqueue n p := by
    rw [Dev.accessed, Dev.traceRole_of_noMatch hmatch, Dev.captureRole_of_capture hcap hfilter, Dev.makePkt_of_room hfits,
      Dev.digestRole_of_off ((e.get_enqueue_of_ne p (by unfold key; omega)).trans hoff)]
  rw [hdone, hsrc, hmod, ← hval]
  exact ⟨rfl, ⟨p, rfl, rfl, rfl⟩, d.enqueue_onlyObjects e.trc n p⟩

/-- An access that a DIGEST filter alone matches, in mode EVENT (R211). -/
theorem Dev.accessed_digest {d : Dev} {n : Nat} {a : PortAccess} (hlen : n < d.trc.srcs.length) (hval : a.value.length = a.size)
    (hcap : (d.srcAt n).capture = none) (hmatch : d.matching n 0 a = []) (hdigest : d.matching n 2 a ≠ [])
    (hmode : d.get (key (0x2510 + n) 6) = 1) :
    ((d.accessed n a).srcAt n).digest = crc32cStep (d.srcAt n).digest a.value ∧
    ((d.accessed n a).srcAt n).digBytes = (d.srcAt n).digBytes + a.size ∧
    d.accessed n a = { d with trc := (d.accessed n a).trc } := by
  rw [Dev.accessed, Dev.traceRole_of_noMatch hmatch, Dev.captureRole_of_none hcap, Dev.digestRole_of_event hmode hdigest,
    d.srcAt_modSrc _ hlen, ← hval]
  exact ⟨rfl, rfl, rfl⟩

/-! ### SYNC and OVERFLOW packets -/

/-- The SYNC packet that a source makes now (R188, R193). -/
def Dev.syncPkt (d : Dev) (n : Nat) (r : SyncReason) : TPkt := pkt (.sync n) n d.stamp (d.syncBytes n d.stamp r) false none

/-- A SYNC packet that fits enters the FIFO, and the source's period begins anew (R193). -/
theorem Dev.srcAt_sync_of_room (d : Dev) {n : Nat} (r : SyncReason) (hlen : n < d.trc.srcs.length) (hroom : 16 ≤ (d.srcAt n).room) :
    (d.sync n r).srcAt n = { d.srcAt n with fifo := (d.srcAt n).fifo ++ [d.syncPkt n r], lastSync := d.time.tick } := by
  have hmake : d.makePkt n (d.syncPkt n r) = d.enqueue n (d.syncPkt n r) :=
    Dev.makePkt_of_room ((d.length_syncBytes n d.stamp r).trans_le hroom)
  show ((d.makePkt n (d.syncPkt n r)).modSrc n fun x => { x with lastSync := (d.makePkt n (d.syncPkt n r)).time.tick }).srcAt n = _
  rw [hmake, Dev.srcAt_modSrc _ _ (by rwa [Dev.length_srcs_enqueue]), d.srcAt_enqueue _ hlen, Dev.enqueue_time]

theorem periodicSync_yields (s : State) (l : LeafId) (n : Nat) (hruns : s.runs (.leaf l))
    (hn : n < (s.dev (.leaf l)).cfg.traceSources) (hlen : n < (s.dev (.leaf l)).trc.srcs.length)
    (htracing : (s.dev (.leaf l)).tracing n = true)
    (hdue : ((s.dev (.leaf l)).srcAt n).lastSync + (s.dev (.leaf l)).get 0x2500_04 ≤ (s.dev (.leaf l)).time.tick)
    (hroom : 16 ≤ ((s.dev (.leaf l)).srcAt n).room) :
    Yields (exec (.periodicSync l n) s) s (.leaf l) fun d =>
      (∃ p, (d.srcAt n).fifo = ((s.dev (.leaf l)).srcAt n).fifo ++ [p] ∧
        p.bytes = (s.dev (.leaf l)).syncBytes n (s.dev (.leaf l)).stamp .periodic) ∧
      (d.srcAt n).lastSync = (s.dev (.leaf l)).time.tick := by
  show Yields (execPeriodicSync l n s) s (.leaf l) _
  unfold execPeriodicSync
  refine s.on_yields (.leaf l) _ _ hruns ?_
  have hmay : (decide (n < (s.unit (.leaf l)).cfg.traceSources) && (s.unit (.leaf l)).tracing n &&
      decide ((s.unit (.leaf l)).time.tick ≥ ((s.unit (.leaf l)).srcAt n).lastSync + (s.unit (.leaf l)).get 0x2500_04)) = true := by
    simp only [Bool.and_eq_true, decide_eq_true_eq]
    exact ⟨⟨hn, htracing⟩, hdue⟩
  rw [if_pos hmay, Dev.srcAt_sync_of_room (s.unit (.leaf l)) .periodic hlen hroom]
  exact ⟨⟨_, rfl, rfl⟩, rfl⟩

/-- The OVERFLOW packet that a source makes now (R189). -/
def Dev.overflowPkt (d : Dev) (n lost tag : Nat) (capture toCap : Bool) : TPkt :=
  pkt (.overflow n) n d.stamp (packetHead 3 n (b2n capture) d.stamp ++ leBytes 4 (satNat 32 lost) ++ leBytes 2 tag ++ zeros 6) toCap none

/-- The packet names the number lost, saturated (R189). -/
theorem Dev.overflowPkt_lost (d : Dev) (n lost tag : Nat) (capture toCap : Bool) :
    natAt (d.overflowPkt n lost tag capture toCap).bytes 4 4 = satNat 32 lost := by
  have hsat : satNat 32 lost < 256 ^ 4 := by unfold satNat; omega
  show natAt (packetHead 3 n (b2n capture) d.stamp ++ leBytes 4 (satNat 32 lost) ++ leBytes 2 tag ++ zeros 6) 4 4 = _
  rw [List.append_assoc, List.append_assoc, natAt_skip _ 4 (length_packetHead _ _ _ _).le, length_packetHead, Nat.sub_self,
    natAt_leBytes, Nat.mod_eq_of_lt hsat]

/-- Two packets enter the FIFO, and the source's period begins anew. -/
theorem Dev.srcAt_enqueue_two (d : Dev) {n : Nat} (o q : TPkt) (hlen : n < d.trc.srcs.length) :
    (((d.enqueue n o).enqueue n q).modSrc n fun x => { x with lastSync := ((d.enqueue n o).enqueue n q).time.tick }).srcAt n =
      { d.srcAt n with fifo := (d.srcAt n).fifo ++ [o, q], lastSync := d.time.tick } := by
  have hlen1 : n < (d.enqueue n o).trc.srcs.length := (d.length_srcs_enqueue n o).symm ▸ hlen
  have hlen2 : n < ((d.enqueue n o).enqueue n q).trc.srcs.length := (Dev.length_srcs_enqueue _ n q).symm ▸ hlen1
  rw [Dev.srcAt_modSrc _ _ hlen2, Dev.srcAt_enqueue _ q hlen1, d.srcAt_enqueue o hlen, Dev.enqueue_time, Dev.enqueue_time]
  simp

/-- The SYNC packet that follows an OVERFLOW packet (R189, R193). -/
def Dev.overflowSync (d : Dev) (n lost tag : Nat) (capture toCap : Bool) : TPkt :=
  pkt (.overflow n) n d.stamp ((d.enqueue n (d.overflowPkt n lost tag capture toCap)).syncBytes n d.stamp .overflow) toCap none

theorem Dev.overflowSync_bytes (d : Dev) (n lost tag : Nat) (capture toCap : Bool) :
    (d.overflowSync n lost tag capture toCap).bytes = d.syncBytes n d.stamp .overflow :=
  Dev.syncBytes_congr (d.enqueue_time n _) (d.get_enqueue_of_ne _ (by unfold key; omega)) _ _ _

/-- An OVERFLOW packet and its SYNC enter the FIFO, and the source's period begins anew (R189, R193, R196). -/
theorem Dev.srcAt_putOverflow (d : Dev) {n : Nat} (lost tag : Nat) (capture toCap : Bool) (hlen : n < d.trc.srcs.length) :
    (d.putOverflow n lost tag capture toCap).srcAt n =
      { d.srcAt n with fifo := (d.srcAt n).fifo ++ [d.overflowPkt n lost tag capture toCap, d.overflowSync n lost tag capture toCap]
                       lastSync := d.time.tick } := by
  have hcount (x : Dev) : (((x.always 0x1F lost).add (key (0x2510 + n) 3) lost).flag 0x2503 0).srcAt n = x.srcAt n :=
    Dev.srcAt_congr (by rw [Dev.flag_trc, Dev.add_trc, Dev.always_trc]) n
  exact (hcount _).trans (d.srcAt_enqueue_two _ _ hlen)

theorem Dev.testBit_putOverflow (d : Dev) (n lost tag : Nat) (capture toCap : Bool) :
    ((d.putOverflow n lost tag capture toCap).get 0x2503_00).testBit 0 = true :=
  Dev.testBit_flag _ (i := 0x2503) (b := 0) (by decide) (width_ge_8 _ _) (by decide)

/-- A recording source with losses of the trace alone and room reports them (R196). -/
theorem Dev.reportLoss_of_lost {d : Dev} {n : Nat} (hawake : (d.srcAt n).asleep = none) (hroom : 32 ≤ (d.srcAt n).room)
    (hcap : (d.srcAt n).capLost = []) (hdig : (d.srcAt n).digLost = 0) (hlost : (d.srcAt n).lost ≠ 0) (hrec : d.recording = true) :
    d.reportLoss n = (d.modSrc n fun x => { x with lost := 0 }).putOverflow n (d.srcAt n).lost 0 false false := by
  unfold Dev.reportLoss
  dsimp only
  rw [if_neg (by simp [hawake]; omega), hcap]
  dsimp only
  rw [if_neg (by simp [hdig]), if_pos (by simp [hlost, hrec])]

theorem overflowPacket_yields (s : State) (l : LeafId) (n : Nat) (hruns : s.runs (.leaf l))
    (hn : n < (s.dev (.leaf l)).cfg.traceSources) (hlen : n < (s.dev (.leaf l)).trc.srcs.length)
    (hawake : ((s.dev (.leaf l)).srcAt n).asleep = none) (hroom : 32 ≤ ((s.dev (.leaf l)).srcAt n).room)
    (hcap : ((s.dev (.leaf l)).srcAt n).capLost = []) (hdig : ((s.dev (.leaf l)).srcAt n).digLost = 0)
    (hlost : ((s.dev (.leaf l)).srcAt n).lost ≠ 0) (hrec : (s.dev (.leaf l)).recording = true) :
    Yields (exec (.overflowPacket l n) s) s (.leaf l) fun d =>
      (∃ p q, (d.srcAt n).fifo = ((s.dev (.leaf l)).srcAt n).fifo ++ [p, q] ∧
        natAt p.bytes 4 4 = satNat 32 ((s.dev (.leaf l)).srcAt n).lost ∧
        q.bytes = (s.dev (.leaf l)).syncBytes n (s.dev (.leaf l)).stamp .overflow) ∧
      (d.srcAt n).lost = 0 ∧ (d.get 0x2503_00).testBit 0 = true := by
  show Yields (execOverflowPacket l n s) s (.leaf l) _
  unfold execOverflowPacket
  refine s.on_yields (.leaf l) _ _ hruns ?_
  rw [if_pos (show n < (s.unit (.leaf l)).cfg.traceSources from hn), 
    Dev.reportLoss_of_lost (d := s.unit (.leaf l)) hawake hroom hcap hdig hlost hrec]
  have hmod := (s.unit (.leaf l)).srcAt_modSrc (fun x => { x with lost := 0 }) hlen
  have hsrc := Dev.srcAt_putOverflow ((s.unit (.leaf l)).modSrc n fun x => { x with lost := 0 })
    ((s.unit (.leaf l)).srcAt n).lost 0 false false ((Dev.length_srcs_modSrc _ _ _).symm ▸ hlen)
  rw [hmod] at hsrc
  rw [hsrc]
  exact ⟨⟨_, _, rfl, Dev.overflowPkt_lost _ _ _ _ _ _, Dev.overflowSync_bytes _ _ _ _ _ _⟩, rfl,
    Dev.testBit_putOverflow _ _ _ _ _ _⟩

/-- Settles O23: each of an access's roles by its own equation, and the packets of a source by what enters its FIFO. -/
theorem accessesBecomeTracePackets : Obligations.AccessesBecomeTracePackets := by
  refine ⟨?_, ?_, ?_, periodicSync_yields, overflowPacket_yields⟩
  · intro s l n f fs a hruns hn hlen hpos hmax hval haddr htracing hmatch hcap hoff _ c taken bs hroom
    exact traceAccess_yields hruns hn hpos hmax hval haddr (Dev.awake_of_tracing htracing)
      (Dev.accessed_data (d := s.unit (.leaf l)) hlen htracing hmatch hcap hoff hroom)
  · intro s l n a c hruns hn hlen hpos hmax hval haddr hawake hcap hfilter hmatch hoff _ hroom
    exact traceAccess_yields hruns hn hpos hmax hval haddr hawake
      (Dev.accessed_capture (d := s.unit (.leaf l)) hlen hmax hval hcap hfilter hmatch hoff hroom)
  · intro s l n a hruns hn hlen hpos hmax hval haddr hawake hcap hmatch hdigest hmode
    exact traceAccess_yields hruns hn hpos hmax hval haddr hawake
      (Dev.accessed_digest (d := s.unit (.leaf l)) hlen hval hcap hmatch hdigest hmode)

end Sys2Proof.Machine
end

section
/-! SUPPORT. O25: the commands that control the trace, its drain, its captures and its digests (R193, R206, R207, R209, R211 to R213). -/

namespace Sys2Proof.Machine

open Sys2Proof

/-! ### The objects written -/

/-- `Enable`, `Rearm`, `DrainCmd` and `CaptureArm` have no reserved bits. -/
theorem traceControl_row {c : Cfg} {i s : Nat} {r : Row} (hk : (i, s) ∈ [(0x2500, 1), (0x2500, 6), (0x2500, 8), (0x25A0, 0)])
    (h : c.rowOf i s = some r) : r.rng = .any := by
  have hany : (r.rng == .any) = true := by
    simp only [List.mem_cons, Prod.mk.injEq, List.not_mem_nil, or_false] at hk
    rcases hk with ⟨rfl, rfl⟩ | ⟨rfl, rfl⟩ | ⟨rfl, rfl⟩ | ⟨rfl, rfl⟩
    all_goals exact row_of_all c _ _ (fun r => r.rng == .any) r (by decide) h
  simpa using hany

/-- A write of a source's `DigestMode` is of one of the modes of R212, whose bits are all its own. -/
theorem digestMode_masked {c : Cfg} {n : Nat} {r : Row} (hn : n < 16) (h : c.rowOf (0x2510 + n) 6 = some r) (v : Nat) :
    r.masked v = v := by
  have hrng : (r.rng == .oneOf [0, 1, 2, 3]) = true :=
    Cfg.row_of_range (h := 0x25) (lo := 0x2510) (hi := 0x251F) (fun r => r.rng == .oneOf [0, 1, 2, 3]) (by decide) (by omega)
      (by omega) (by omega) h
  simp [Row.masked, eq_of_beq hrng]

@[simp] theorem Dev.heard_srcAt (d : Dev) (e : Env) (n : Nat) : (d.heard e).srcAt n = d.srcAt n := Dev.srcAt_congr (d.heard_trc e) n

@[simp] theorem Dev.heard_traceState (d : Dev) (e : Env) : (d.heard e).traceState = d.traceState := Dev.heard_get _ _ _

@[simp] theorem Dev.heard_recording (d : Dev) (e : Env) : (d.heard e).recording = d.recording := by
  rw [Dev.recording, Dev.heard_traceState, Dev.recording]

/-! ### Packets of the trace and of digests -/

/-- From `d` to `d'` sources have made packets of no capture: of the trace the sources alone have changed, and of the objects their
counts of packets. -/
structure Dev.PacketsMade (d d' : Dev) : Prop where
  trc : d'.trc = { d.trc with srcs := d'.trc.srcs }
  length : d'.trc.srcs.length = d.trc.srcs.length
  get : ∀ k, (∀ n, k ≠ key (0x2510 + n) 4) → d'.get k = d.get k

namespace Dev.PacketsMade

theorem refl (d : Dev) : d.PacketsMade d := ⟨rfl, rfl, fun _ _ => rfl⟩

theorem trans {a b c : Dev} (h : a.PacketsMade b) (h' : b.PacketsMade c) : a.PacketsMade c :=
  ⟨by rw [h'.trc, h.trc], h'.length.trans h.length, fun k hk => (h'.get k hk).trans (h.get k hk)⟩

theorem ite {d a b : Dev} {c : Prop} [Decidable c] (ha : d.PacketsMade a) (hb : d.PacketsMade b) : d.PacketsMade (if c then a else b) := by
  split
  · exact ha
  · exact hb

theorem foldl {α : Type} {f : Dev → α → Dev} (hf : ∀ (d : Dev) x, d.PacketsMade (f d x)) (l : List α) (d : Dev) :
    d.PacketsMade (l.foldl f d) := by
  induction l generalizing d with
  | nil => exact .refl d
  | cons x xs ih => exact .trans (hf d x) (ih (f d x))

theorem modSrc (d : Dev) (n : Nat) (f : TSource → TSource) : d.PacketsMade (d.modSrc n f) :=
  ⟨rfl, d.length_srcs_modSrc n f, fun _ _ => rfl⟩

theorem countPkt (d : Dev) (n : Nat) : d.PacketsMade (d.countPkt n) := by
  have htrc : (d.countPkt n).trc = d.trc := d.inc_trc _
  exact ⟨by rw [htrc], by rw [htrc], fun k hk => d.get_inc_of_ne k _ (hk n)⟩

theorem makePkt (d : Dev) (n : Nat) {p : TPkt} (hcap : p.cap = none) : d.PacketsMade (d.makePkt n p) := by
  unfold Dev.makePkt
  dsimp only
  rw [hcap, if_neg (c := (none : Option (Nat × Nat)).isSome = true) Bool.false_ne_true]
  exact .ite (.trans (.countPkt d n) (.modSrc _ n _))
    (.ite (.trans (.countPkt d n) (.modSrc _ n _)) (.trans (.countPkt d n) (.modSrc _ n _)))

theorem sync (d : Dev) (n : Nat) (r : SyncReason) : d.PacketsMade (d.sync n r) := .trans (.makePkt d n rfl) (.modSrc _ n _)

end Dev.PacketsMade

/-! ### ARMED -/

/-- What an earlier freeze kept out of the ring is dropped as the trace is armed (R202). -/
def Dev.droppedLate (d : Dev) : Dev :=
  if d.trc.bound then
    { d with trc := { d.trc with srcs := d.trc.srcs.map (·.dropLate (d.get 0x2501_03))
                                 hubq := d.trc.hubq.filter (·.stamp < d.get 0x2501_03), bound := false } }
  else d

theorem Dev.droppedLate_spec (d : Dev) :
    d.droppedLate.objs = d.objs ∧ d.droppedLate.cfg = d.cfg ∧ d.droppedLate.trc.fired = d.trc.fired := by
  unfold Dev.droppedLate
  split
  · exact ⟨rfl, rfl, rfl⟩
  · exact ⟨rfl, rfl, rfl⟩

/-- The trace ARMED with an empty ring, before its sources' first SYNC (R206). -/
def Dev.emptied (d : Dev) : Dev := Dev.set { d.droppedLate with trc := { d.droppedLate.trc with ring := [] } } 0x2501_01 1

theorem Dev.get_emptied_of_ne (d : Dev) {k : Nat} (hk : k ≠ 0x2501_01) : d.emptied.get k = d.get k := by
  obtain ⟨hobjs, hcfg, -⟩ := d.droppedLate_spec
  rw [Dev.emptied, Dev.get_set_of_ne _ _ _ _ hk]
  exact Dev.get_congr hobjs hcfg k

theorem Dev.armTrace_made (d : Dev) : d.emptied.PacketsMade d.armTrace := .foldl (fun d n => .ite (.sync d n .start) (.refl d)) _ _

/-- The trace enters ARMED with an empty ring; of the objects, its state and the counts of packets alone change (R193, R206). -/
theorem Dev.armTrace_spec (d : Dev) :
    d.armTrace.traceState = 1 ∧ d.armTrace.trc.ring = [] ∧ d.armTrace.trc.fired = d.trc.fired ∧
    ∀ k, k ≠ 0x2501_01 → (∀ n, k ≠ key (0x2510 + n) 4) → d.armTrace.get k = d.get k := by
  obtain ⟨-, -, hfired⟩ := d.droppedLate_spec
  refine ⟨?_, ?_, ?_, fun k hk hcount => (d.armTrace_made.get k hcount).trans (d.get_emptied_of_ne hk)⟩
  · exact (d.armTrace_made.get _ (by intro n; unfold key; omega)).trans (Dev.get_set_byte _ _ _ (by decide))
  · rw [d.armTrace_made.trc]
    rfl
  · rw [d.armTrace_made.trc]
    exact hfired

/-! ### Enable, Rearm and DrainCmd -/

/-- A write of 0 or 1 to `Enable` (R206). -/
theorem Dev.traceEnableAns_spec (d : Dev) {v : Nat} (hv : v ≤ 1) :
    (d.traceEnableAns v).abort = 0 ∧ (d.traceEnableAns v).dev.get 0x2500_01 = v ∧
    (v = 0 → (d.traceEnableAns v).dev.traceState = 0) ∧
    (v = 1 → d.traceState = 0 → (d.traceEnableAns v).dev.traceState = 1 ∧ (d.traceEnableAns v).dev.trc.ring = []) ∧
    (v = 1 → d.traceState ≠ 0 → (d.traceEnableAns v).dev.traceState = d.traceState ∧ (d.traceEnableAns v).dev.trc = d.trc) := by
  have hset : (d.set 0x2500_01 v).get 0x2500_01 = v := d.get_set_byte _ _ (by omega)
  obtain rfl | rfl : v = 0 ∨ v = 1 := by omega
  · exact ⟨rfl, (Dev.get_set_of_ne _ _ _ _ (by decide)).trans hset, fun _ => Dev.get_set_byte _ _ _ (by decide),
      fun h => absurd h (by decide), fun h => absurd h (by decide)⟩
  · by_cases hoff : d.traceState = 0
    · have hans : d.traceEnableAns 1 = ok (d.set 0x2500_01 1).armTrace := by simp [Dev.traceEnableAns, hoff]
      obtain ⟨hstate, hring, -, hget⟩ := (d.set 0x2500_01 1).armTrace_spec
      rw [hans]
      exact ⟨rfl, (hget _ (by decide) (by intro n; unfold key; omega)).trans hset, fun h => absurd h (by decide),
        fun _ _ => ⟨hstate, hring⟩, fun _ h => absurd hoff h⟩
    · have hans : d.traceEnableAns 1 = ok (d.set 0x2500_01 1) := by simp [Dev.traceEnableAns, hoff]
      rw [hans]
      exact ⟨rfl, hset, fun h => absurd h (by decide), fun _ h => absurd h hoff,
        fun _ _ => ⟨Dev.get_set_of_ne _ _ _ _ (by decide), rfl⟩⟩

theorem traceEnable_answers (s : State) (l : LeafId) (e : Env) (v : Nat) (hruns : s.runs (.leaf l)) (hv : v ≤ 1)
    (hacc : (s.unit (.leaf l)).accepts e 0x2500 1 v) :
    Answers (exec (.traceEnable l e v) s) s (.leaf l) e 0x02 0x2500 1 0 fun a =>
      a.abort = 0 ∧ a.dev.get 0x2500_01 = v ∧
      (v = 0 → a.dev.traceState = 0) ∧
      (v = 1 → (s.dev (.leaf l)).traceState = 0 → a.dev.traceState = 1 ∧ a.dev.trc.ring = []) ∧
      (v = 1 → (s.dev (.leaf l)).traceState ≠ 0 → a.dev.traceState = (s.dev (.leaf l)).traceState ∧
        a.dev.trc = (s.dev (.leaf l)).trc) := by
  have hspec := ((s.unit (.leaf l)).heard e).traceEnableAns_spec hv
  rw [Dev.heard_traceState, Dev.heard_trc] at hspec
  exact State.serveWrite_answers_any (by decide) hruns hacc (fun _ h => traceControl_row (by decide) h) hspec

/-- No selector of the trace has been counted, and the ring has not wrapped (R206). -/
def Dev.countsCleared (d : Dev) : Dev := (List.range 4).foldl (fun d k => d.set (key (0x2508 + k) 7) 0) (d.setB 0x2501_07 false)

theorem Dev.wrapped_countsCleared (d : Dev) : d.countsCleared.get 0x2501_07 = 0 := by
  have h3 (d : Dev) (i : Nat) : (d.set (key (0x2508 + i) 7) 0).get 0x2501_07 = d.get 0x2501_07 :=
    d.get_set_of_ne _ _ _ (by unfold key; omega)
  show (((((d.setB 0x2501_07 false).set _ 0).set _ 0).set _ 0).set _ 0).get 0x2501_07 = 0
  rw [h3, h3, h3, h3, Dev.get_setB]
  rfl

/-- A write of 1 to `Rearm` (R206). -/
theorem Dev.rearmAns_spec (d : Dev) :
    if d.traceState = 0 ∨ d.trc.drain.isSome = true then (d.rearmAns 1).abort = 0x07 ∧ (d.rearmAns 1).dev = d
    else (d.rearmAns 1).abort = 0 ∧ (d.rearmAns 1).dev.traceState = 1 ∧ (d.rearmAns 1).dev.trc.ring = [] ∧
      (d.rearmAns 1).dev.trc.fired = List.replicate 4 false ∧ (d.rearmAns 1).dev.get 0x2501_07 = 0 := by
  split
  · next h =>
    have hans : d.rearmAns 1 = fail d .state := if_pos (by simpa using h)
    rw [hans]
    exact ⟨rfl, rfl⟩
  · next h =>
    have hans : d.rearmAns 1 =
        ok (Dev.armTrace { d.countsCleared with trc := { d.countsCleared.trc with fired := List.replicate 4 false } }) :=
      if_neg (by simpa using h)
    obtain ⟨hstate, hring, hfired, hget⟩ :=
      Dev.armTrace_spec { d.countsCleared with trc := { d.countsCleared.trc with fired := List.replicate 4 false } }
    rw [hans]
    exact ⟨rfl, hstate, hring, hfired, (hget _ (by decide) (by intro n; unfold key; omega)).trans d.wrapped_countsCleared⟩

theorem rearm_answers (s : State) (l : LeafId) (e : Env) (hruns : s.runs (.leaf l)) (hacc : (s.unit (.leaf l)).accepts e 0x2500 6 1) :
    Answers (exec (.rearm l e 1) s) s (.leaf l) e 0x02 0x2500 6 0 fun a =>
      if (s.dev (.leaf l)).traceState = 0 ∨ (s.dev (.leaf l)).trc.drain.isSome = true then
        a.abort = 0x07 ∧ a.dev = (s.unit (.leaf l)).heard e
      else a.abort = 0 ∧ a.dev.traceState = 1 ∧ a.dev.trc.ring = [] ∧ a.dev.trc.fired = List.replicate 4 false ∧
        a.dev.get 0x2501_07 = 0 := by
  have hspec := ((s.unit (.leaf l)).heard e).rearmAns_spec
  rw [Dev.heard_traceState, Dev.heard_trc] at hspec
  exact State.serveWrite_answers_any (by decide) hruns hacc (fun _ h => traceControl_row (by decide) h) hspec

/-- A write of 1 to `DrainCmd` (R207). -/
theorem Dev.drainAns_spec (d : Dev) :
    if d.trc.drain.isSome = true then (d.drainAns 1).abort = 0x09 ∧ (d.drainAns 1).dev = d
    else if d.recording = true then (d.drainAns 1).abort = 0x07 ∧ (d.drainAns 1).dev = d
    else (d.drainAns 1).abort = 0 ∧ (d.drainAns 1).dev.trc.drain = some d.trc.ring ∧
      (d.drainAns 1).dev = { d with trc := (d.drainAns 1).dev.trc } := by
  have hone : d.drainAns 1 = if d.trc.drain.isSome then fail d .busy else if d.recording then fail d .state
      else ok { d with trc := { d.trc with drain := some d.trc.ring } } := rfl
  rw [hone]
  split
  · exact ⟨rfl, rfl⟩
  · split
    · exact ⟨rfl, rfl⟩
    · exact ⟨rfl, rfl, rfl⟩

theorem drainCmd_answers (s : State) (l : LeafId) (e : Env) (hruns : s.runs (.leaf l))
    (hacc : (s.unit (.leaf l)).accepts e 0x2500 8 1) :
    Answers (exec (.drainCmd l e 1) s) s (.leaf l) e 0x02 0x2500 8 0 fun a =>
      if (s.dev (.leaf l)).trc.drain.isSome = true then a.abort = 0x09 ∧ a.dev = (s.unit (.leaf l)).heard e
      else if (s.dev (.leaf l)).recording = true then a.abort = 0x07 ∧ a.dev = (s.unit (.leaf l)).heard e
      else a.abort = 0 ∧ a.dev.trc.drain = some (s.dev (.leaf l)).trc.ring ∧
        a.dev = { (s.unit (.leaf l)).heard e with trc := a.dev.trc } := by
  have hspec := ((s.unit (.leaf l)).heard e).drainAns_spec
  rw [Dev.heard_recording, Dev.heard_trc] at hspec
  exact State.serveWrite_answers_any (by decide) hruns hacc (fun _ h => traceControl_row (by decide) h) hspec

theorem drainDone_yields (s : State) (l : LeafId) (hruns : s.runs (.leaf l)) (hdrain : (s.dev (.leaf l)).trc.drain = some [])
    (hqueue : (s.dev (.leaf l)).queue 3 = []) (hline : (s.dev (.leaf l)).arb.current ≠ 3) :
    Yields (exec (.drainDone l) s) s (.leaf l) fun d =>
      d = { s.unit (.leaf l) with trc := { (s.dev (.leaf l)).trc with drain := none } } := by
  show Yields (execDrainDone l s) s (.leaf l) _
  unfold execDrainDone
  refine s.on_yields (.leaf l) _ _ hruns ?_
  have hdone : (decide ((s.unit (.leaf l)).trc.drain = some []) && ((s.unit (.leaf l)).queue 3).isEmpty &&
      (s.unit (.leaf l)).arb.current != 3) = true := by
    have hqueue' : (s.unit (.leaf l)).queue 3 = [] := hqueue
    have hdrain' : (s.unit (.leaf l)).trc.drain = some [] := hdrain
    have hline' : (s.unit (.leaf l)).arb.current ≠ 3 := hline
    simp [hqueue', hdrain', hline']
  rw [if_pos hdone]
  rfl

/-! ### Captures and digests -/

/-- A write to `CaptureArm` (R209, R213). -/
theorem Dev.captureArmAns_spec (d : Dev) {v n : Nat} (hn : v / 2 ^ 32 % 16 = n) :
    if d.cfg.traceSources ≤ n then (d.captureArmAns v).abort = 0x06 ∧ (d.captureArmAns v).dev = d
    else if (d.srcAt n).arm.isSome = true ∨ (d.srcAt n).capture.isSome = true then
      (d.captureArmAns v).abort = 0x09 ∧ (d.captureArmAns v).dev = d
    else (d.captureArmAns v).abort = 0 ∧
      (n < d.trc.srcs.length → ((d.captureArmAns v).dev.srcAt n).arm = some (v % 65536, v / 65536 % 65536)) ∧
      (d.captureArmAns v).dev = { d with trc := (d.captureArmAns v).dev.trc } := by
  subst hn
  set n := v / 2 ^ 32 % 16
  have hans : d.captureArmAns v = if n ≥ d.cfg.traceSources then fail d .range
      else if (d.srcAt n).arm.isSome || (d.srcAt n).capture.isSome then fail d .busy
      else ok (d.modSrc n fun x => { x with arm := some (v % 65536, v / 65536 % 65536) }) := by
    simp only [Dev.captureArmAns, field, pow_zero, Nat.div_one]
    rfl
  rw [hans]
  by_cases hrange : d.cfg.traceSources ≤ n
  · rw [if_pos hrange, if_pos hrange]
    exact ⟨rfl, rfl⟩
  · rw [if_neg hrange, if_neg hrange]
    by_cases hbusy : (d.srcAt n).arm.isSome = true ∨ (d.srcAt n).capture.isSome = true
    · rw [if_pos hbusy, if_pos (by simpa using hbusy)]
      exact ⟨rfl, rfl⟩
    · rw [if_neg hbusy, if_neg (by simpa using hbusy)]
      exact ⟨rfl, fun hlen => congrArg TSource.arm (d.srcAt_modSrc _ hlen), rfl⟩

theorem captureArm_answers (s : State) (l : LeafId) (e : Env) (v : Word) (hruns : s.runs (.leaf l))
    (hacc : (s.unit (.leaf l)).accepts e 0x25A0 0 v.toNat) :
    Answers (exec (.captureArm l e v) s) s (.leaf l) e 0x02 0x25A0 0 0 fun a =>
      let n := v.toNat / 2 ^ 32 % 16
      if (s.dev (.leaf l)).cfg.traceSources ≤ n then a.abort = 0x06 ∧ a.dev = (s.unit (.leaf l)).heard e
      else if ((s.dev (.leaf l)).srcAt n).arm.isSome = true ∨ ((s.dev (.leaf l)).srcAt n).capture.isSome = true then
        a.abort = 0x09 ∧ a.dev = (s.unit (.leaf l)).heard e
      else a.abort = 0 ∧ (n < (s.dev (.leaf l)).trc.srcs.length →
          (a.dev.srcAt n).arm = some (v.toNat % 65536, v.toNat / 65536 % 65536)) ∧
        a.dev = { (s.unit (.leaf l)).heard e with trc := a.dev.trc } := by
  have hspec := ((s.unit (.leaf l)).heard e).captureArmAns_spec (v := v.toNat) rfl
  have hcfg : ((s.unit (.leaf l)).heard e).cfg.traceSources = (s.dev (.leaf l)).cfg.traceSources :=
    congrArg Cfg.traceSources (Dev.heard_cfg _ _)
  rw [hcfg, Dev.heard_srcAt, Dev.heard_trc] at hspec
  exact State.serveWrite_answers_any (by decide) hruns hacc (fun _ h => traceControl_row (by decide) h) hspec

/-- A write to a source's `DigestMode` (R211, R212). -/
theorem Dev.digestModeAns_spec (d : Dev) {n v : Nat} (hv : v < 256) (hlen : n < d.trc.srcs.length) :
    (d.digestModeAns (0x2510 + n) v).abort = 0 ∧ (d.digestModeAns (0x2510 + n) v).dev.get (key (0x2510 + n) 6) = v ∧
    (d.digestModeAns (0x2510 + n) v).dev.srcAt n =
      { d.srcAt n with digest := 0xFFFFFFFF#32, digBytes := 0, blockNo := 0, digCmd := (d.set (key (0x2510 + n) 6) v).digestHeld n } ∧
    d.objectsKept (d.digestModeAns (0x2510 + n) v).dev [key (0x2510 + n) 6] := by
  have hans : d.digestModeAns (0x2510 + n) v = ok ((d.set (key (0x2510 + n) 6) v).modSrc n fun x =>
      { x with digest := 0xFFFFFFFF#32, digBytes := 0, blockNo := 0, digCmd := (d.set (key (0x2510 + n) 6) v).digestHeld n }) := by
    rw [Dev.digestModeAns, Nat.add_sub_cancel_left]
  rw [hans]
  exact ⟨rfl, d.get_set_byte _ _ hv, Dev.srcAt_modSrc (d.set (key (0x2510 + n) 6) v) _ hlen,
    fun k hk => d.get_set_of_ne _ _ _ (by simpa using hk)⟩

theorem digestModeWrite_answers (s : State) (l : LeafId) (e : Env) (n v : Nat) (hruns : s.runs (.leaf l)) (hn : n < 16) (hv : v < 256)
    (hacc : (s.unit (.leaf l)).accepts e (0x2510 + n) 6 v) (hlen : n < (s.dev (.leaf l)).trc.srcs.length) :
    Answers (exec (.digestModeWrite l e n v) s) s (.leaf l) e 0x02 (0x2510 + n) 6 0 fun a =>
      a.abort = 0 ∧ a.dev.get (key (0x2510 + n) 6) = v ∧
      a.dev.srcAt n = { (s.dev (.leaf l)).srcAt n with
        digest := 0xFFFFFFFF#32, digBytes := 0, blockNo := 0,
        digCmd := (((s.unit (.leaf l)).heard e).set (key (0x2510 + n) 6) v).digestHeld n } ∧
      ((s.unit (.leaf l)).heard e).objectsKept a.dev [key (0x2510 + n) 6] := by
  obtain ⟨-, -, -, r, hrow, -⟩ := id hacc
  have hspec := ((s.unit (.leaf l)).heard e).digestModeAns_spec hv (by rw [Dev.heard_trc]; exact hlen)
  rw [Dev.heard_srcAt] at hspec
  refine State.serveWrite_answers id hruns hacc (by decide) hrow ?_
  rw [digestMode_masked hn hrow]
  exact hspec

/-- Of its source, a packet of no capture changes the FIFO and the losses alone. -/
theorem Dev.srcAt_makePkt (d : Dev) {n : Nat} {p : TPkt} (hlen : n < d.trc.srcs.length) (hcap : p.cap = none) :
    (d.makePkt n p).srcAt n = { d.srcAt n with
      fifo := ((d.makePkt n p).srcAt n).fifo, lost := ((d.makePkt n p).srcAt n).lost
      digLost := ((d.makePkt n p).srcAt n).digLost } := by
  have hlen' : n < (d.countPkt n).trc.srcs.length := (Dev.PacketsMade.countPkt d n).length.symm ▸ hlen
  unfold Dev.makePkt
  dsimp only
  rw [hcap, if_neg (c := (none : Option (Nat × Nat)).isSome = true) Bool.false_ne_true]
  split
  · rw [d.srcAt_enqueue p hlen]
  · split <;> rw [Dev.srcAt_modSrc _ _ hlen', Dev.srcAt_countPkt]

/-- An open BLOCK digest closes, its packet sent or lost, and a new one opens (R211). -/
theorem Dev.closeBlock_spec (d : Dev) {n : Nat} (hlen : n < d.trc.srcs.length) :
    ((d.closeBlock n).srcAt n).digest = 0xFFFFFFFF#32 ∧ ((d.closeBlock n).srcAt n).digBytes = 0 ∧
    ((d.closeBlock n).srcAt n).blockNo = (d.srcAt n).blockNo + 1 := by
  have hmade : d.PacketsMade (d.digestPkt n .block 0 (d.srcAt n).digest (d.srcAt n).digBytes (d.srcAt n).blockNo none) := .makePkt d n rfl
  unfold Dev.closeBlock
  dsimp only
  rw [Dev.srcAt_modSrc _ _ (hmade.length.symm ▸ hlen)]
  exact ⟨rfl, rfl, congrArg (·.blockNo + 1) (d.srcAt_makePkt hlen rfl)⟩

theorem digestBlockClose_yields (s : State) (l : LeafId) (n : Nat) (hruns : s.runs (.leaf l))
    (hn : n < (s.dev (.leaf l)).cfg.traceSources) (hlen : n < (s.dev (.leaf l)).trc.srcs.length)
    (hmode : (s.dev (.leaf l)).get (key (0x2510 + n) 6) = 1) (hawake : ((s.dev (.leaf l)).srcAt n).asleep = none) :
    Yields (exec (.digestBlockClose l n) s) s (.leaf l) fun d =>
      (d.srcAt n).digest = 0xFFFFFFFF#32 ∧ (d.srcAt n).digBytes = 0 ∧
      (d.srcAt n).blockNo = ((s.dev (.leaf l)).srcAt n).blockNo + 1 := by
  show Yields (execDigestBlockClose l n s) s (.leaf l) _
  unfold execDigestBlockClose
  refine s.on_yields (.leaf l) _ _ hruns ?_
  have hmay : (decide (n < (s.unit (.leaf l)).cfg.traceSources) && decide ((s.unit (.leaf l)).get (key (0x2510 + n) 6) = 1) &&
      ((s.unit (.leaf l)).srcAt n).asleep.isNone) = true := by
    simp only [Bool.and_eq_true, decide_eq_true_eq, Option.isNone_iff_eq_none]
    exact ⟨⟨hn, hmode⟩, hawake⟩
  rw [if_pos hmay]
  exact (s.unit (.leaf l)).closeBlock_spec hlen

/-- Settles O25: each write is answered by what its object's own effect gives, and arming the trace is one change of it. -/
theorem theTraceIsControlledByCommands : Obligations.TheTraceIsControlledByCommands :=
  ⟨traceEnable_answers, rearm_answers, drainCmd_answers, drainDone_yields,
    fun s l e v hruns hacc _ => captureArm_answers s l e v hruns hacc, digestModeWrite_answers, digestBlockClose_yields⟩

end Sys2Proof.Machine
end

section
/-! SUPPORT. O24: in a ring of one record's size, the flush that a fatal fault starts leaves nothing of its FATAL record (R226, R228). -/

namespace Sys2Proof.Machine

open Sys2Proof

/-- The unit put in a state determines its recorder. -/
theorem State.rcd_of_withUnit_eq {s : State} {u : UnitId} {a b : Dev} (h : s.withUnit u a = s.withUnit u b) : a.rcd = b.rcd := by
  have hdev : (s.withUnit u a).dev u = (s.withUnit u b).dev u := by rw [h]
  rw [State.dev_withUnit_self, State.dev_withUnit_self] at hdev
  have hrcd := congrArg Dev.rcd hdev
  exact hrcd

/-- A leaf whose recorder ring has the size of one FATAL record, and that makes no snapshot of a fatal fault. -/
def tinyRingLeaf : Dev := (State.reset.leaf.set 0x2600_01 24).set 0x2601_01 0

def tinyRingState : State := { State.reset with leaf := tinyRingLeaf }

/-- What a fatal fault of code 0 leaves in that leaf's ring: the FLUSH_START record alone. -/
theorem tinyRingLeaf_keeps_flushStart : ((tinyRingLeaf.fatalFault 0 0).abandonTest).rcd.hist.map (·.kind) = [0x0A] := by
  decide

/-- Refutes O24: in a leaf whose ring holds one record of 24 bytes, the FLUSH_START record of the flush that FATAL starts takes the
place of the FATAL record. -/
theorem not_triggersFreezeTheTrace : ¬ Obligations.TriggersFreezeTheTrace := by
  rintro ⟨-, -, -, hfatal⟩
  obtain ⟨d, hnext, hrec, -⟩ := hfatal tinyRingState (.leaf .host) 0 0 (by decide) rfl
  have hrun : exec (.fatal (.leaf .host) 0 0) tinyRingState =
      .next (tinyRingState.withUnit (.leaf .host) (tinyRingLeaf.fatalFault 0 0).abandonTest) := by
    show execFatal (.leaf .host) 0 0 tinyRingState = _
    exact State.on_runs tinyRingState (.leaf .host) _ rfl
  have hrcd : d.rcd = (tinyRingLeaf.fatalFault 0 0).abandonTest.rcd :=
    State.rcd_of_withUnit_eq (Host.Outcome.next.inj (hnext.symm.trans hrun))
  obtain ⟨x, hx, hkind, -⟩ := hrec (by decide) rfl
  have hmem : x.kind ∈ d.rcd.hist.map (·.kind) := List.mem_map_of_mem (List.mem_of_mem_take hx)
  rw [hrcd, tinyRingLeaf_keeps_flushStart, hkind] at hmem
  exact absurd hmem (by decide)

end Sys2Proof.Machine
end

section
/-! SUPPORT. O44: what AckSeq, credit and timeouts do to an end of a Stem link (R355, R360 to R363, R367). -/

namespace Sys2Proof.Machine

open Sys2Proof

/-! ### The counts of an end -/

/-- The counts of refused frames, replays and block errors of an end are U32. -/
theorem width_stemCount (c : Cfg) {e : StemId} {sub : Nat} (he : StemId.ok e = true) (hs : sub ∈ [0x0A, 0x0B, 0x0D]) :
    32 ≤ c.width (stemKey e sub) := by
  simp only [List.mem_cons, List.not_mem_nil, or_false] at hs
  cases e with
  | leaf l =>
    show 32 ≤ c.width (key 0x3001 sub)
    rcases hs with rfl | rfl | rfl <;>
      exact c.width_of_range (h := 0x30) (lo := 0x3001) (hi := 0x3001) (by decide) rfl le_rfl le_rfl (by decide) (by decide)
  | trunk n =>
    have hn : n < 256 := by simpa [StemId.ok] using he
    show 32 ≤ c.width (key (0x6500 + n) sub)
    rcases hs with rfl | rfl | rfl <;>
      exact c.width_of_range (h := 0x65) (lo := 0x6500) (hi := 0x65FF) (by decide) (by omega) (by omega) (by omega) (by decide)
        (by decide)

/-- A counter that its width leaves room counts on. -/
theorem Dev.get_inc_of_width (d : Dev) {k w : Nat} (hw : w ≤ d.cfg.width k) (hw' : w ≤ 64) (h : d.get k + 1 < 2 ^ w) :
    (d.inc k).get k = d.get k + 1 := by
  have hfits : d.get k + 1 < 2 ^ d.cfg.width k := h.trans_le (Nat.pow_le_pow_right (by decide) hw)
  unfold Dev.inc Dev.add
  rw [if_pos (by simp [hfits])]
  exact d.get_set_of_width hw hw' h

theorem Dev.get_inc_stemCount (d : Dev) {e : StemId} {sub : Nat} (he : StemId.ok e = true) (hs : sub ∈ [0x0A, 0x0B, 0x0D])
    (h : d.get (stemKey e sub) + 1 < 2 ^ 32) : (d.inc (stemKey e sub)).get (stemKey e sub) = d.get (stemKey e sub) + 1 :=
  d.get_inc_of_width (width_stemCount _ he hs) (by decide) h

theorem Dev.get_stemKey_always (d : Dev) (e : StemId) (sub : Nat) {t : Nat} (n : Nat) (ht : t < 256) :
    (d.always t n).get (stemKey e sub) = d.get (stemKey e sub) :=
  d.get_always_of_ne _ _ _ (ne_stemKey (by unfold key; omega) e sub).symm

theorem Dev.stemAt_always (d : Dev) (e : StemId) (t n : Nat) : (d.always t n).stemAt e = d.stemAt e :=
  Dev.stemAt_congr (Dev.always_stem d t n) (Dev.always_tk d t n) e

/-! ### An end with no frame in flight -/

/-- A change that leaves an end as it is changes nothing. -/
theorem Dev.modStem_of_fixed (d : Dev) {e : StemId} {f : StemEnd → StemEnd} (h : f (d.stemAt e) = d.stemAt e) : d.modStem e f = d := by
  cases e with
  | leaf l => exact congrArg (fun x => { d with stem := x }) h
  | trunk n =>
    have hstems : d.tk.fab.stems.modify n f = d.tk.fab.stems := by
      refine List.ext_getElem? fun i => ?_
      rw [List.getElem?_modify]
      split
      · next hi =>
        subst hi
        cases hn : d.tk.fab.stems[n]? with
        | none => rfl
        | some x =>
          have hx : d.stemAt (.trunk n) = x := by simp [Dev.stemAt, hn]
          rw [hx] at h
          exact congrArg some h
      · exact Option.map_id_apply
    unfold Dev.modStem Dev.modFab
    dsimp only
    rw [hstems]

theorem StemEnd.ended_of_idle {x : StemEnd} (now : Nat) (h : x.sending = none) : x.ended now = x := by
  unfold StemEnd.ended
  rw [h]

theorem Dev.endFrameAt_of_idle (d : Dev) {e : StemId} (h : (d.stemAt e).sending = none) : d.endFrameAt e = d := by
  have hfix : d.modStem e (·.ended d.now) = d := d.modStem_of_fixed (StemEnd.ended_of_idle _ h)
  cases e with
  | leaf l =>
    have h' : d.stem.sending = none := h
    unfold Dev.endFrameAt Dev.endFrame
    rw [h']
    exact hfix
  | trunk n =>
    unfold Dev.endFrameAt
    dsimp only
    rw [h]
    exact hfix

theorem Dev.endIfAcked_of_idle (d : Dev) {e : StemId} (q : Nat) (h : (d.stemAt e).sending = none) : d.endIfAcked e q = d := by
  unfold Dev.endIfAcked
  rw [h]

/-! ### LINK_ACK, LINK_NAK and CREDIT -/

/-- An AckSeq of an outstanding frame frees the frames up to it (R362). -/
theorem StemEnd.acked_of_found {x : StemEnd} {q i : Nat} (now : Nat) (h : x.retry.findIdx? (·.head.seq = q) = some i) :
    x.acked q now = { x with
      retry := x.retry.drop (i + 1), replay := x.replay.filter (x.retry.drop (i + 1)).contains, lastAdv := now, replays := 0 } := by
  unfold StemEnd.acked
  rw [h]

theorem StemEnd.knows_of_found {x : StemEnd} {q i : Nat} (h : x.retry.findIdx? (·.head.seq = q) = some i) : x.knows q = true := by
  have hany : x.retry.any (·.head.seq = q) = true := by rw [← List.findIdx?_isSome, h]; rfl
  rw [StemEnd.knows, hany, Bool.true_or]

theorem Dev.takeLinkAck_of_idle (d : Dev) {e : StemId} {q : Nat} (hst : d.stemState e = 4) (hidle : (d.stemAt e).sending = none) :
    d.takeLinkAck e q = d.modStem e (·.acked q d.now) := by
  rw [Dev.takeLinkAck, if_neg (by simp [hst]), d.endIfAcked_of_idle q hidle]

theorem linkAck_yields (s : State) (e : StemId) (q i : Nat) (hruns : s.runs (stemUnit e)) (he : StemId.ok e = true)
    (hlen : s.trunk.tk.fab.stems.length = 256) (hst : (s.dev (stemUnit e)).stemState e = 4)
    (hidle : ((s.dev (stemUnit e)).stemAt e).sending = none)
    (hfound : ((s.dev (stemUnit e)).stemAt e).retry.findIdx? (·.head.seq = q) = some i) :
    Yields (exec (.linkAck e q) s) s (stemUnit e) fun d =>
      (d.stemAt e).retry = ((s.dev (stemUnit e)).stemAt e).retry.drop (i + 1) ∧ (d.stemAt e).replays = 0 ∧
      (d.stemAt e).lastAdv = (s.dev (stemUnit e)).now ∧ d.objs = (s.dev (stemUnit e)).objs ∧ d.out = [] := by
  show Yields (execLinkAck e q s) s _ _
  refine State.onStem_yields (f := fun d => d.takeLinkAck e q) hruns he ?_
  have hacked := (s.unit (stemUnit e)).stemAt_modStem (·.acked q (s.unit (stemUnit e)).now) (s.hasEnd_unit he hlen)
  rw [State.unit_stemAt, StemEnd.acked_of_found _ hfound] at hacked
  rw [Dev.takeLinkAck_of_idle _ (by simpa using hst) (by simpa using hidle), hacked]
  exact ⟨rfl, rfl, rfl, by rw [Dev.modStem_objs]; rfl, by rw [Dev.modStem_out]; rfl⟩

theorem credit_yields (s : State) (e : StemId) (a b : Nat) (hruns : s.runs (stemUnit e)) (he : StemId.ok e = true)
    (hlen : s.trunk.tk.fab.stems.length = 256) (hst : (s.dev (stemUnit e)).stemState e = 4) :
    Yields (exec (.credit e a b) s) s (stemUnit e) fun d =>
      (d.stemAt e).limit = [some (a % 2 ^ 24), some (b % 2 ^ 24)] ∧ d.objs = (s.dev (stemUnit e)).objs ∧ d.out = [] := by
  show Yields (execCredit e a b s) s _ _
  refine State.onStem_yields (f := fun d => d.takeLimits e a b) hruns he ?_
  rw [Dev.takeLimits, if_neg (by simp [hst]), Dev.stemAt_modStem _ _ (s.hasEnd_unit he hlen), Dev.modStem_objs, Dev.modStem_out]
  exact ⟨rfl, rfl, rfl⟩

/-! ### Replays -/

/-- Below the limit of replays every outstanding frame is to be sent again (R362). -/
theorem Dev.replayStem_spec (d : Dev) {e : StemId} (he : StemId.ok e = true) (hend : d.hasEnd e) (hretry : (d.stemAt e).retry ≠ [])
    (hroom : (d.stemAt e).replays < d.get 0x3000_03) (hcount : d.get (stemKey e 0x0B) + 1 < 2 ^ 32) :
    (d.replayStem e).stemAt e = { d.stemAt e with
      replay := (d.stemAt e).retry, replays := (d.stemAt e).replays + 1, lastAdv := d.now } ∧
    (d.replayStem e).get (stemKey e 0x0B) = d.get (stemKey e 0x0B) + 1 := by
  unfold Dev.replayStem
  dsimp only
  rw [if_neg (by simpa using hretry), if_neg (Nat.not_le.mpr hroom)]
  constructor
  · rw [Dev.stemAt_always, Dev.stemAt_inc, d.stemAt_modStem _ hend]
  · rw [Dev.get_stemKey_always _ _ _ _ (by decide), Dev.get_inc_stemCount _ he (by decide) (by rwa [Dev.modStem_get]), Dev.modStem_get]

/-- At the limit of replays the link resets with RETRY_EXHAUSTED (R363). -/
theorem Dev.replayStem_exhausted (d : Dev) {e : StemId} (he : StemId.ok e = true) (hend : d.hasEnd e) (hst : d.stemState e = 4)
    (hretry : (d.stemAt e).retry ≠ []) (hfull : d.get 0x3000_03 ≤ (d.stemAt e).replays) :
    (d.replayStem e).stemState e = 3 ∧ (d.replayStem e).get (stemKey e 5) = 3 ∧
    ((d.replayStem e).get 0x3002_00).testBit 2 = true ∧ ((d.replayStem e).stemAt e).retry = [] := by
  obtain ⟨hstate, hreason, -, hanew⟩ := d.resetStem_spec false .retryExhausted he hend
  have hthree : resetState e false (d.stemState e) = 3 := by simp [resetState, hst]
  have hexhausted : d.replayStem e = (d.resetStem e false .retryExhausted).flag 0x3002 2 := by
    unfold Dev.replayStem
    dsimp only
    rw [if_neg (by simpa using hretry), if_pos hfull]
  rw [hexhausted]
  refine ⟨?_, ?_, Dev.testBit_flag_stem _ (by decide), ?_⟩
  · rw [Dev.stemState, Dev.get_stemKey_flag _ he (by decide) (.inl rfl) (by decide)]
    exact hstate.trans hthree
  · rw [Dev.get_stemKey_flag _ he (by decide) (.inl rfl) (by decide)]
    exact hreason
  · rw [Dev.stemAt_congr (Dev.flag_stem _ _ _) (Dev.flag_tk _ _ _), hanew]

theorem linkNak_yields (s : State) (e : StemId) (q i : Nat) (hruns : s.runs (stemUnit e)) (he : StemId.ok e = true)
    (hlen : s.trunk.tk.fab.stems.length = 256) (hst : (s.dev (stemUnit e)).stemState e = 4)
    (hidle : ((s.dev (stemUnit e)).stemAt e).sending = none)
    (hfound : ((s.dev (stemUnit e)).stemAt e).retry.findIdx? (·.head.seq = q) = some i)
    (hleft : ((s.dev (stemUnit e)).stemAt e).retry.drop (i + 1) ≠ []) (hlimit : 1 ≤ (s.dev (stemUnit e)).get 0x3000_03)
    (hcount : (s.dev (stemUnit e)).get (stemKey e 0x0B) + 1 < 2 ^ 32) :
    Yields (exec (.linkNak e q) s) s (stemUnit e) fun d =>
      (d.stemAt e).retry = ((s.dev (stemUnit e)).stemAt e).retry.drop (i + 1) ∧
      (d.stemAt e).replay = ((s.dev (stemUnit e)).stemAt e).retry.drop (i + 1) ∧ (d.stemAt e).replays = 1 ∧
      d.get (stemKey e 0x0B) = (s.dev (stemUnit e)).get (stemKey e 0x0B) + 1 := by
  have hend := s.hasEnd_unit he hlen
  have hacked := (s.unit (stemUnit e)).stemAt_modStem (·.acked q (s.unit (stemUnit e)).now) hend
  rw [State.unit_stemAt, StemEnd.acked_of_found _ hfound] at hacked
  have hnak : (s.unit (stemUnit e)).takeLinkNak e q =
      ((s.unit (stemUnit e)).modStem e (·.acked q (s.unit (stemUnit e)).now)).replayStem e := by
    rw [Dev.takeLinkNak, if_neg (by simp [hst]), Dev.endFrameAt_of_idle _ (by simpa using hidle)]
    dsimp only
    rw [State.unit_stemAt, StemEnd.knows_of_found hfound]
    rfl
  obtain ⟨hstem, hget⟩ := Dev.replayStem_spec ((s.unit (stemUnit e)).modStem e (·.acked q (s.unit (stemUnit e)).now)) he
    ((Dev.BaseKept.modStem _ e _).hasEnd hend) (by rw [hacked]; exact hleft) (by rw [hacked, Dev.modStem_get]; exact hlimit)
    (by rw [Dev.modStem_get]; exact hcount)
  show Yields (execLinkNak e q s) s _ _
  refine State.onStem_yields (f := fun d => d.takeLinkNak e q) hruns he ?_
  rw [hnak, hstem, hget, hacked, Dev.modStem_get]
  exact ⟨rfl, rfl, rfl, rfl⟩

theorem retryTimeout_yields (s : State) (e : StemId) (hruns : s.runs (stemUnit e)) (he : StemId.ok e = true)
    (hlen : s.trunk.tk.fab.stems.length = 256) (hst : (s.dev (stemUnit e)).stemState e = 4)
    (hretry : ((s.dev (stemUnit e)).stemAt e).retry ≠ [])
    (hlate : ((s.dev (stemUnit e)).stemAt e).lastAdv + (s.dev (stemUnit e)).get 0x3000_02 ≤ (s.dev (stemUnit e)).now)
    (hcount : (s.dev (stemUnit e)).get (stemKey e 0x0B) + 1 < 2 ^ 32) :
    Yields (exec (.retryTimeout e) s) s (stemUnit e) fun d =>
      if ((s.dev (stemUnit e)).stemAt e).replays < (s.dev (stemUnit e)).get 0x3000_03 then
        (d.stemAt e).replay = ((s.dev (stemUnit e)).stemAt e).retry ∧
        (d.stemAt e).replays = ((s.dev (stemUnit e)).stemAt e).replays + 1 ∧
        d.get (stemKey e 0x0B) = (s.dev (stemUnit e)).get (stemKey e 0x0B) + 1
      else d.stemState e = 3 ∧ d.get (stemKey e 5) = 3 ∧ (d.get 0x3002_00).testBit 2 = true ∧ (d.stemAt e).retry = [] := by
  have hend := s.hasEnd_unit he hlen
  have hgo : (!StemId.ok e || (s.unit (stemUnit e)).stemState e != 4 || ((s.unit (stemUnit e)).stemAt e).retry.isEmpty ||
      (s.unit (stemUnit e)).now < ((s.unit (stemUnit e)).stemAt e).lastAdv + (s.unit (stemUnit e)).get 0x3000_02) = false := by
    simp [he, hst, hretry, hlate]
  show Yields (execRetryTimeout e s) s _ _
  refine State.on_yields s (stemUnit e) _ _ hruns ?_
  dsimp only
  rw [if_neg (c := _ = true) (ne_true_of_eq_false hgo)]
  split
  · next hroom =>
    obtain ⟨hstem, hget⟩ := (s.unit (stemUnit e)).replayStem_spec he hend (by simpa using hretry) (by simpa using hroom)
      (by simpa using hcount)
    rw [hstem, hget]
    exact ⟨rfl, rfl, rfl⟩
  · next hfull =>
    exact (s.unit (stemUnit e)).replayStem_exhausted he hend hst (by simpa using hretry) (by simpa using hfull)

end Sys2Proof.Machine
end

section
/-! SUPPORT. O44: a fleet trigger reaches the trace of a leaf (R199, R204, R358). -/

namespace Sys2Proof.Machine

open Sys2Proof

/-- A trigger that sets the freeze makes the trace TRIGGERED by its cause (R199). -/
theorem Dev.setFreeze_spec (d : Dev) (c : TrigCause) (origin : Nat) :
    (d.setFreeze c origin).get 0x2501_01 = 2 ∧ (d.setFreeze c origin).get 0x2501_04 = c.fields.1 ∧
    ((d.setFreeze c origin).get 0x2503_00).testBit 2 = true := by
  have hcause : c.fields.1 < 256 := by cases c <;> simp [TrigCause.fields]
  unfold Dev.setFreeze
  extract_lets d1 delay d2 t d3
  refine ⟨?_, ?_, Dev.testBit_flag _ (by decide) (width_ge_8 _ _) (by decide)⟩
  · rw [Dev.get_flag_of_ne _ _ _ _ (by decide) (by decide) (by decide), Dev.get_set_byte _ _ _ (by decide)]
  · rw [Dev.get_flag_of_ne _ _ _ _ (by decide) (by decide) (by decide), Dev.get_set_of_ne _ _ _ _ (by decide),
      Dev.get_set_byte _ _ _ hcause]

/-- An ARMED trace of a leaf takes a trigger in a tick that counts (R96, R199). -/
theorem Dev.trigger_of_armed (d : Dev) (c : TrigCause) (origin : Nat) (hleaf : d.isTrunk = false) (harmed : d.traceState = 1)
    (hlive : d.time.dead = false) : d.trigger c origin = (d.setFreeze c origin).snapshot c.snap origin := by
  have htrace : d.traceTrigger c origin = d.setFreeze c origin := by
    unfold Dev.traceTrigger
    rw [harmed]
    rfl
  unfold Dev.trigger
  rw [if_neg (ne_true_of_eq_false hlive)]
  dsimp only
  rw [if_neg (ne_true_of_eq_false hleaf), htrace]

theorem trigger_yields_armed (s : State) (l : LeafId) (id t : Nat) (hbuilt : s.built) (hruns : s.runs (.leaf l))
    (harmed : (s.dev (.leaf l)).traceState = 1) (hlive : (s.dev (.leaf l)).time.dead = false)
    (hsources : (s.dev (.leaf l)).cfg.traceSources ≠ 0) (hon : (s.dev (.leaf l)).on 0x2500_05 = true) :
    Yields (exec (.trigger l id t) s) s (.leaf l) fun d =>
      d.traceState = 2 ∧ d.get 0x2501_04 = 3 ∧ (d.get 0x2503_00).testBit 2 = true := by
  have hgo : ((s.unit (.leaf l)).cfg.traceSources = 0 || !(s.unit (.leaf l)).on 0x2500_05) = false :=
    Bool.or_eq_false_iff.mpr ⟨decide_eq_false hsources, congrArg not hon⟩
  show Yields (execTrigger l id t s) s _ _
  unfold execTrigger State.onLeaf
  refine State.on_yields s (.leaf l) _ _ hruns ?_
  rw [if_neg (ne_true_of_eq_false hgo), Dev.trigger_of_armed _ _ _ (State.unit_leaf_isTrunk hbuilt l) harmed hlive, Dev.traceState,
    Dev.KeptOutside.snapshot _ _ _ 0x2501_01 (by decide), Dev.KeptOutside.snapshot _ _ _ 0x2501_04 (by decide),
    Dev.KeptOutside.snapshot _ _ _ 0x2503_00 (by decide)]
  exact Dev.setFreeze_spec _ (.fleet id) t

theorem trigger_yields_unheeded (s : State) (l : LeafId) (id t : Nat) (hruns : s.runs (.leaf l))
    (hoff : (s.dev (.leaf l)).cfg.traceSources = 0 ∨ (s.dev (.leaf l)).on 0x2500_05 = false ∨ (s.dev (.leaf l)).time.dead = true) :
    Yields (exec (.trigger l id t) s) s (.leaf l) fun d => d = s.unit (.leaf l) := by
  show Yields (execTrigger l id t s) s _ _
  unfold execTrigger State.onLeaf
  refine State.on_yields s (.leaf l) _ _ hruns ?_
  by_cases hno : ((s.unit (.leaf l)).cfg.traceSources = 0 || !(s.unit (.leaf l)).on 0x2500_05) = true
  · rw [if_pos hno]
  · obtain ⟨hsources, hon⟩ := Bool.or_eq_false_iff.mp (eq_false_of_ne_true hno)
    have hdead : (s.unit (.leaf l)).time.dead = true := by
      rcases hoff with h | h | h
      · exact absurd h (of_decide_eq_false hsources)
      · exact absurd (h.symm.trans ((Bool.not_eq_false' ..).mp hon)) (by decide)
      · exact h
    rw [if_neg hno, Dev.trigger, if_pos hdead]

end Sys2Proof.Machine
end

section
/-! SUPPORT. O44: link frames that come at an end (R347, R354, R358 to R361). -/

namespace Sys2Proof.Machine

open Sys2Proof

/-! ### Blocks among those of a frame -/

theorem Among.take_idle (e : StemId) (x : Among) {b : RxBlock} (hb : b.control = true ∧ natAt b.bytes 0 1 = 0x1E) :
    Among.take e x b = x := by
  obtain ⟨hcontrol, htype⟩ := hb
  unfold Among.take
  dsimp only
  rw [if_neg (by simp [hcontrol]), htype]
  rfl

theorem Among.foldl_idle (e : StemId) (x : Among) {l : List RxBlock} (h : ∀ b ∈ l, b.control = true ∧ natAt b.bytes 0 1 = 0x1E) :
    l.foldl (Among.take e) x = x := by
  induction l with
  | nil => rfl
  | cons b bs ih =>
    rw [List.foldl_cons, Among.take_idle e x (h b List.mem_cons_self)]
    exact ih fun c hc => h c (List.mem_cons_of_mem _ hc)

theorem Dev.takeLink_of_idle (d : Dev) {e : StemId} (h : LinkStart) (data : Bytes) (crc : Nat) {l : List RxBlock}
    (hst : d.stemState e = 4) (hidle : ∀ b ∈ l, b.control = true ∧ natAt b.bytes 0 1 = 0x1E) :
    d.takeLink e h data crc l = d.takeFrame e h data crc := by
  rw [Dev.takeLink, if_neg (by simp [hst]), Among.foldl_idle e _ hidle]
  rfl

/-- A control block that R346 does not list is a block error, and ends the open frame as failed (R347). -/
theorem Among.take_unlisted (e : StemId) (x : Among) {b : RxBlock} (hcontrol : b.control = true)
    (hb : natAt b.bytes 0 1 ∉ [0x1E, 0x2D, 0x33, 0x4B, 0x55, 0x66, 0x78, 0x87, 0x99]) :
    Among.take e x b = { x.fail e b with dev := (x.fail e b).dev.blockError e } := by
  unfold Among.take
  dsimp only
  rw [if_neg (by simp [hcontrol])]
  generalize natAt b.bytes 0 1 = t at hb
  split
  case h_10 => rfl
  all_goals exact absurd (by decide) hb

theorem Dev.takeLink_unlisted (d : Dev) {e : StemId} (h : LinkStart) (data : Bytes) (crc : Nat) {b : RxBlock}
    (hst : d.stemState e = 4) (hcontrol : b.control = true) (hin : b.outside = false)
    (hb : natAt b.bytes 0 1 ∉ [0x1E, 0x2D, 0x33, 0x4B, 0x55, 0x66, 0x78, 0x87, 0x99]) :
    d.takeLink e h data crc [b] = (d.refuseFrame e true).blockError e := by
  rw [Dev.takeLink, if_neg (by simp [hst]), List.foldl_cons, Among.take_unlisted e _ hcontrol hb]
  simp [Among.fail, hin]

/-! ### Acknowledgement blocks -/

theorem Dev.sendBlock_out (d : Dev) (e : StemId) (t : Nat) (bs : Bytes) : (d.sendBlock e t bs).out = d.out ++ [.block e t bs] := by
  rw [Dev.sendBlock, Dev.modLine_out]
  rfl

theorem Dev.OnLane.sendAck {e : StemId} {d : Dev} (nak : Bool) (h : d.hasEnd e) : d.OnLane e (d.sendAck e nak) := .sendBlock _ _ h

theorem Dev.sendAck_out (d : Dev) (e : StemId) (nak : Bool) : ∃ bs, (d.sendAck e nak).out = d.out ++ [.block e 0x2D bs] :=
  ⟨_, d.sendBlock_out e 0x2D _⟩

/-! ### Refused frames -/

/-- A unit that has counted a refused frame (R360). -/
def Dev.countRefused (d : Dev) (e : StemId) (crcBad : Bool) : Dev :=
  if crcBad then (d.inc (stemKey e 0x0A)).always 0x13 1 else d.inc (stemKey e 0x0A)

theorem Dev.refuseFrame_eq (d : Dev) (e : StemId) (crcBad : Bool) :
    d.refuseFrame e crcBad = if ((d.countRefused e crcBad).stemAt e).naked then d.countRefused e crcBad
      else ((d.countRefused e crcBad).modStem e fun x => { x with naked := true }).sendAck e true := rfl

theorem Dev.BaseKept.countRefused (d : Dev) (e : StemId) (crcBad : Bool) : d.BaseKept (d.countRefused e crcBad) :=
  .ite (.trans (.inc d _) (.always _ _ _)) (.inc d _)

theorem Dev.stemAt_countRefused (d : Dev) (e : StemId) (crcBad : Bool) : (d.countRefused e crcBad).stemAt e = d.stemAt e := by
  cases crcBad
  · exact d.stemAt_inc e _
  · exact (Dev.stemAt_always _ _ _ _).trans (d.stemAt_inc e _)

theorem Dev.countRefused_out (d : Dev) (e : StemId) (crcBad : Bool) : (d.countRefused e crcBad).out = d.out := by
  cases crcBad
  · exact d.inc_out _
  · exact (Dev.always_out _ _ _).trans (d.inc_out _)

theorem Dev.get_stemKey_countRefused (d : Dev) (e : StemId) (crcBad : Bool) (sub : Nat) :
    (d.countRefused e crcBad).get (stemKey e sub) = (d.inc (stemKey e 0x0A)).get (stemKey e sub) := by
  cases crcBad
  · rfl
  · exact Dev.get_stemKey_always _ e sub 1 (by decide)

/-- Of a refused frame nothing is taken; what is counted stands, and at most an acknowledgement block answers it (R360, R361). -/
theorem Dev.refuseFrame_spec (d : Dev) {e : StemId} (crcBad : Bool) (hend : d.hasEnd e) :
    (∀ sub, (d.refuseFrame e crcBad).get (stemKey e sub) = (d.inc (stemKey e 0x0A)).get (stemKey e sub)) ∧
    ((d.refuseFrame e crcBad).stemAt e).rxSeq = (d.stemAt e).rxSeq ∧ ((d.refuseFrame e crcBad).stemAt e).opens = (d.stemAt e).opens ∧
    ∃ l, (d.refuseFrame e crcBad).out = d.out ++ l ∧ ∀ o ∈ l, ∃ bs, o = .block e 0x2D bs := by
  rw [d.refuseFrame_eq e crcBad, ← d.stemAt_countRefused e crcBad, ← d.countRefused_out e crcBad]
  have hget := d.get_stemKey_countRefused e crcBad
  have hend' := (Dev.BaseKept.countRefused d e crcBad).hasEnd hend
  generalize d.countRefused e crcBad = d1 at hget hend' ⊢
  split
  · exact ⟨hget, rfl, rfl, [], (List.append_nil _).symm, nofun⟩
  · have hlane := Dev.OnLane.sendAck true ((Dev.BaseKept.modStem d1 e fun x => { x with naked := true }).hasEnd hend')
    obtain ⟨bs, hout⟩ := (d1.modStem e fun x => { x with naked := true }).sendAck_out e true
    rw [Dev.modStem_out] at hout
    refine ⟨fun sub => ?_, ?_, ?_, _, hout, fun o ho => ⟨bs, List.mem_singleton.mp ho⟩⟩
    · rw [hlane.get, Dev.modStem_get, hget]
    · rw [hlane.stem, d1.stemAt_modStem _ hend']
    · rw [hlane.stem, d1.stemAt_modStem _ hend']

theorem linkFrame_yields_badCrc (s : State) (e : StemId) (h : LinkStart) (data : Bytes) (crc : BitVec 32) (between : List RxBlock)
    (hruns : s.runs (stemUnit e)) (he : StemId.ok e = true) (hlen : s.trunk.tk.fab.stems.length = 256)
    (hst : (s.dev (stemUnit e)).stemState e = 4) (hcrc : linkCrc h data ≠ crc.toNat)
    (hidle : ∀ b ∈ between, b.control = true ∧ natAt b.bytes 0 1 = 0x1E)
    (hcount : (s.dev (stemUnit e)).get (stemKey e 0x0A) + 1 < 2 ^ 32) :
    Yields (exec (.linkFrame e h data ⟨crc, between⟩) s) s (stemUnit e) fun d =>
      d.get (stemKey e 0x0A) = (s.dev (stemUnit e)).get (stemKey e 0x0A) + 1 ∧
      (d.stemAt e).rxSeq = ((s.dev (stemUnit e)).stemAt e).rxSeq ∧
      (d.stemAt e).opens = ((s.dev (stemUnit e)).stemAt e).opens ∧ ∀ o ∈ d.out, ∃ bs, o = .block e 0x2D bs := by
  show Yields (execLinkFrame e h data ⟨crc, between⟩ s) s _ _
  refine State.onStem_yields (f := fun d => d.takeLink e h data crc.toNat between) hruns he ?_
  have hrefused : (s.unit (stemUnit e)).takeFrame e h data crc.toNat = (s.unit (stemUnit e)).refuseFrame e true := by
    rw [Dev.takeFrame, if_neg (by simp [hst])]
    dsimp only
    rw [if_pos (by simp [hcrc])]
  obtain ⟨hget, hseq, hopens, l, hout, hl⟩ := (s.unit (stemUnit e)).refuseFrame_spec true (s.hasEnd_unit he hlen)
  rw [Dev.takeLink_of_idle (s.unit (stemUnit e)) _ _ _ hst hidle, hrefused, hget, hseq, hopens, hout]
  exact ⟨(s.unit (stemUnit e)).get_inc_stemCount he (by decide) hcount, by rw [State.unit_stemAt], by rw [State.unit_stemAt], hl⟩

theorem linkFrame_yields_unlisted (s : State) (e : StemId) (h : LinkStart) (data : Bytes) (crc : BitVec 32) (b : RxBlock)
    (hruns : s.runs (stemUnit e)) (he : StemId.ok e = true) (hlen : s.trunk.tk.fab.stems.length = 256)
    (hst : (s.dev (stemUnit e)).stemState e = 4) (hcontrol : b.control = true) (hin : b.outside = false)
    (hb : natAt b.bytes 0 1 ∉ [0x1E, 0x2D, 0x33, 0x4B, 0x55, 0x66, 0x78, 0x87, 0x99])
    (hcrc : (s.dev (stemUnit e)).get (stemKey e 0x0A) + 1 < 2 ^ 32) (hblock : (s.dev (stemUnit e)).get (stemKey e 0x0D) + 1 < 2 ^ 32) :
    Yields (exec (.linkFrame e h data ⟨crc, [b]⟩) s) s (stemUnit e) fun d =>
      d.get (stemKey e 0x0A) = (s.dev (stemUnit e)).get (stemKey e 0x0A) + 1 ∧
      d.get (stemKey e 0x0D) = (s.dev (stemUnit e)).get (stemKey e 0x0D) + 1 ∧
      (d.stemAt e).rxSeq = ((s.dev (stemUnit e)).stemAt e).rxSeq ∧
      (d.stemAt e).opens = ((s.dev (stemUnit e)).stemAt e).opens := by
  show Yields (execLinkFrame e h data ⟨crc, [b]⟩ s) s _ _
  refine State.onStem_yields (f := fun d => d.takeLink e h data crc.toNat [b]) hruns he ?_
  obtain ⟨hget, hseq, hopens, -⟩ := (s.unit (stemUnit e)).refuseFrame_spec true (s.hasEnd_unit he hlen)
  have hkept : ((s.unit (stemUnit e)).refuseFrame e true).get (stemKey e 0x0D) = (s.unit (stemUnit e)).get (stemKey e 0x0D) :=
    (hget _).trans (Dev.get_inc_of_ne _ _ _ (stemKey_ne (by decide)))
  have hblocks : (((s.unit (stemUnit e)).refuseFrame e true).inc (stemKey e 0x0D)).get (stemKey e 0x0D) =
      (s.unit (stemUnit e)).get (stemKey e 0x0D) + 1 := by
    rw [Dev.get_inc_stemCount _ he (by decide) (by rw [hkept]; exact hblock), hkept]
  rw [Dev.takeLink_unlisted (s.unit (stemUnit e)) _ _ _ hst hcontrol hin hb, Dev.blockError, Dev.stemAt_inc, hseq, hopens,
    Dev.get_inc_of_ne _ _ _ (stemKey_ne (by decide)), hget, hblocks]
  exact ⟨(s.unit (stemUnit e)).get_inc_stemCount he (by decide) hcrc, rfl, by rw [State.unit_stemAt], by rw [State.unit_stemAt]⟩

/-! ### A frame in order with a whole message -/

/-- A frame of the expected Seq is accepted and counted (R360, R361). -/
def Dev.acceptFrame (d : Dev) (e : StemId) : Dev :=
  ((d.inc (stemKey e 9)).modStem e fun x => { x with rxSeq := (x.rxSeq + 1) % 256, naked := false }).sendAck e false

theorem Dev.takeFrame_inOrder (d : Dev) {e : StemId} {h : LinkStart} {data : Bytes} (hst : d.stemState e = 4)
    (hdata : data.length = h.length) (hmin : 1 ≤ h.length) (hmax : h.length ≤ 1024) (hseqd : h.unseq = false)
    (hseq : h.seq = (d.stemAt e).rxSeq) : d.takeFrame e h data (linkCrc h data) = (d.acceptFrame e).takeBytes e h data := by
  have hgood : (data.length != h.length || h.length = 0 || h.length > 1024 || linkCrc h data != linkCrc h data) = false := by
    simp [hdata, hmax]
    omega
  rw [Dev.takeFrame, if_neg (by simp [hst])]
  dsimp only
  rw [if_neg (ne_true_of_eq_false hgood), if_neg (ne_true_of_eq_false hseqd), if_pos hseq]
  rfl

theorem Dev.acceptFrame_spec (d : Dev) {e : StemId} (hend : d.hasEnd e) :
    (∀ k, (d.acceptFrame e).get k = (d.inc (stemKey e 9)).get k) ∧
    ((d.acceptFrame e).stemAt e).rxSeq = ((d.stemAt e).rxSeq + 1) % 256 ∧
    ((d.acceptFrame e).stemAt e).opens = (d.stemAt e).opens := by
  have hcount : (d.inc (stemKey e 9)).hasEnd e := (Dev.BaseKept.inc d _).hasEnd hend
  have hmod := (Dev.BaseKept.modStem (d.inc (stemKey e 9)) e fun x => { x with rxSeq := (x.rxSeq + 1) % 256, naked := false }).hasEnd
    hcount
  have hlane := Dev.OnLane.sendAck false hmod
  unfold Dev.acceptFrame
  refine ⟨fun k => ?_, ?_, ?_⟩
  · rw [hlane.get, Dev.modStem_get]
  · rw [hlane.stem, Dev.stemAt_modStem _ _ hcount, Dev.stemAt_inc]
  · rw [hlane.stem, Dev.stemAt_modStem _ _ hcount, Dev.stemAt_inc]

/-- The release of units changes of an end its pools and what its lanes send, and sends a CREDIT block at most (R366). -/
theorem Dev.release_spec (d : Dev) {e : StemId} (cls n : Nat) (hend : d.hasEnd e) :
    (∀ k, (d.release e cls n).get k = d.get k) ∧ ((d.release e cls n).stemAt e).rxSeq = (d.stemAt e).rxSeq ∧
    ((d.release e cls n).stemAt e).opens = (d.stemAt e).opens ∧ ∀ o ∈ d.out, o ∈ (d.release e cls n).out := by
  unfold Dev.release
  split
  · exact ⟨fun _ => rfl, rfl, rfl, fun _ => id⟩
  · have hlane := Dev.OnLane.sendCredit ((Dev.BaseKept.modStem d e fun x =>
      { x with freed := x.freed.modify (poolOf cls) (fun c => (c + n) % 2 ^ 24) }).hasEnd hend)
    refine ⟨fun k => ?_, ?_, ?_, fun o ho => ?_⟩
    · rw [hlane.get, Dev.modStem_get]
    · rw [hlane.stem, d.stemAt_modStem _ hend]
    · rw [hlane.stem, d.stemAt_modStem _ hend]
    · rw [Dev.sendCredit, Dev.sendBlock_out, Dev.modStem_out]
      exact List.mem_append_left _ ho

theorem takeMsgs_nil (e : StemId) (h : LinkStart) (fuel : Nat) {t : Taken} (ht : t.left = []) : takeMsgs e h fuel t = t := by
  cases fuel with
  | zero => rfl
  | succ fuel => rw [takeMsgs, if_pos (by simp [ht])]

/-- Bytes that are one whole message of a leaf's class are delivered (R359). -/
theorem takeMsgs_whole (l : LeafId) {h : LinkStart} (d : Dev) {bs : Bytes} (hne : bs ≠ [])
    (hmsg : msgLen h.cls bs = .bytes bs.length) :
    takeMsgs (.leaf l) h (bs.length + 1) { dev := d, left := bs, whole := 0, colour := none } =
      { dev := d.emit (.fromStem 0 h.cls 0 bs), left := [], whole := 1, colour := none } := by
  rw [takeMsgs, if_neg (by simpa using hne)]
  dsimp only
  rw [hmsg]
  dsimp only
  rw [if_neg (Nat.lt_irrefl _), List.take_length, List.drop_length]
  exact takeMsgs_nil _ _ _ rfl

theorem Dev.takeBytes_whole (d : Dev) (l : LeafId) {h : LinkStart} {data : Bytes} (hrec : receives (.leaf l) h.cls = true)
    (hfirst : h.first = true) (hopen : d.openOf (.leaf l) h.cls = none) (hne : data ≠ [])
    (hmsg : msgLen h.cls data = .bytes data.length) :
    d.takeBytes (.leaf l) h data =
      ((d.emit (.fromStem 0 h.cls 0 data)).closeMsg (.leaf l) h.cls).release (.leaf l) h.cls (0 + unitsOf data.length) := by
  unfold Dev.takeBytes
  dsimp only
  rw [hopen, hrec, hfirst]
  dsimp only [Option.getD_none]
  rw [hopen]
  dsimp only [Option.getD_none]
  simp only [List.nil_append, takeMsgs_whole l d hne hmsg]
  rfl

/-- A frame in order that is one whole message of a leaf's class is accepted and counted, and the message delivered (R359, R360). -/
theorem Dev.takeLink_message (d : Dev) (l : LeafId) {h : LinkStart} {data : Bytes} {between : List RxBlock}
    (hst : d.stemState (.leaf l) = 4) (hdata : data.length = h.length) (hmin : 1 ≤ h.length) (hmax : h.length ≤ 1024)
    (hidle : ∀ b ∈ between, b.control = true ∧ natAt b.bytes 0 1 = 0x1E) (hseqd : h.unseq = false) (hseq : h.seq = d.stem.rxSeq)
    (hfirst : h.first = true) (hopen : d.openOf (.leaf l) h.cls = none) (hrec : receives (.leaf l) h.cls = true)
    (hmsg : msgLen h.cls data = .bytes data.length) (hcount : d.get 0x3001_09 + 1 < 2 ^ 64) :
    let d' := d.takeLink (.leaf l) h data (linkCrc h data) between
    .fromStem 0 h.cls 0 data ∈ d'.out ∧ d'.stem.rxSeq = (d.stem.rxSeq + 1) % 256 ∧ d'.get 0x3001_09 = d.get 0x3001_09 + 1 ∧
      d'.openOf (.leaf l) h.cls = none := by
  have hne : data ≠ [] := List.ne_nil_of_length_pos (by omega)
  obtain ⟨hget, haccepted, hopens⟩ := d.acceptFrame_spec (e := .leaf l) trivial
  have hopen' : (d.acceptFrame (.leaf l)).openOf (.leaf l) h.cls = none := by
    rw [Dev.openOf, hopens]
    exact hopen
  rw [d.takeLink_of_idle _ _ _ hst hidle, d.takeFrame_inOrder hst hdata hmin hmax hseqd hseq,
    Dev.takeBytes_whole _ l hrec hfirst hopen' hne hmsg]
  generalize d.acceptFrame (.leaf l) = d1 at hget haccepted
  obtain ⟨hget', hrxSeq, hopens', hout⟩ := ((d1.emit (.fromStem 0 h.cls 0 data)).closeMsg (.leaf l) h.cls).release_spec (e := .leaf l)
    h.cls (0 + unitsOf data.length) trivial
  refine ⟨hout _ (List.mem_append_right _ (List.mem_singleton.mpr rfl)), hrxSeq.trans haccepted, ?_, ?_⟩
  · have hfits : d.get 0x3001_09 + 1 < 2 ^ minWidth 0x3001_09 :=
      hcount.trans_le (Nat.pow_le_pow_right (by decide) (by decide : 64 ≤ minWidth 0x3001_09))
    have hkey : stemKey (.leaf l) 9 = 0x3001_09 := by cases l <;> rfl
    rw [hkey] at hget
    exact (hget' _).trans ((hget _).trans (d.get_inc_self 0x3001_09 hfits))
  · rw [Dev.openOf, hopens']
    exact List.find?_eq_none.mpr fun o ho => by
      have hcls := (List.mem_filter.mp ho).2
      simpa using hcls

theorem linkFrame_yields_message (s : State) (l : LeafId) (h : LinkStart) (data : Bytes) (crc : BitVec 32) (between : List RxBlock)
    (hruns : s.runs (.leaf l)) (hst : (s.dev (.leaf l)).stemState (.leaf l) = 4) (hdata : data.length = h.length)
    (hmin : 1 ≤ h.length) (hmax : h.length ≤ 1024) (hcrc : linkCrc h data = crc.toNat)
    (hidle : ∀ b ∈ between, b.control = true ∧ natAt b.bytes 0 1 = 0x1E) (hseqd : h.unseq = false)
    (hseq : h.seq = (s.dev (.leaf l)).stem.rxSeq) (hfirst : h.first = true) (hopen : (s.dev (.leaf l)).openOf (.leaf l) h.cls = none)
    (hrec : receives (.leaf l) h.cls = true) (hmsg : msgLen h.cls data = .bytes data.length)
    (hcount : (s.dev (.leaf l)).get 0x3001_09 + 1 < 2 ^ 64) :
    Yields (exec (.linkFrame (.leaf l) h data ⟨crc, between⟩) s) s (.leaf l) fun d =>
      .fromStem 0 h.cls 0 data ∈ d.out ∧ d.stem.rxSeq = ((s.dev (.leaf l)).stem.rxSeq + 1) % 256 ∧
      d.get 0x3001_09 = (s.dev (.leaf l)).get 0x3001_09 + 1 ∧ d.openOf (.leaf l) h.cls = none := by
  show Yields (execLinkFrame (.leaf l) h data ⟨crc, between⟩ s) s _ _
  refine State.onStem_yields (e := .leaf l) (f := fun d => d.takeLink (.leaf l) h data crc.toNat between) hruns rfl ?_
  rw [← hcrc]
  exact (s.unit (.leaf l)).takeLink_message l hst hdata hmin hmax hidle hseqd hseq hfirst hopen hrec hmsg hcount

end Sys2Proof.Machine
end

section
/-! SUPPORT. O44: link frames that an end sends (R352, R354, R362, R367, R369). -/

namespace Sys2Proof.Machine

open Sys2Proof

/-! ### A time message goes first -/

namespace Dev.OnLane

theorem ite {e : StemId} {d a b : Dev} {c : Prop} [Decidable c] (ha : d.OnLane e a) (hb : d.OnLane e b) :
    d.OnLane e (if c then a else b) := by
  split
  · exact ha
  · exact hb

theorem modEgress (e : StemId) (d : Dev) (g : EgressId) (f : Egress → Egress) : d.OnLane e (d.modEgress g f) :=
  ⟨⟨rfl, rfl, rfl⟩, rfl, by cases e <;> rfl⟩

theorem payShaper (e : StemId) (d : Dev) (g : EgressId) (c len : Nat) : d.OnLane e (d.payShaper g c len) :=
  .ite (.refl e d) (.modEgress e d g _)

theorem popTime (e : StemId) (d : Dev) (g : EgressId) : d.OnLane e (d.popTime g) := .trans (.modEgress e d g _) (.payShaper e _ g 0 36)

theorem modLink (e : StemId) (d : Dev) (p : TimePort) (f : TimeLink → TimeLink) : d.OnLane e (d.modLink p f) :=
  ⟨⟨rfl, rfl, rfl⟩, rfl, by cases e <;> rfl⟩

/-- A trunk queues no stamp of a Stem port (R104). -/
theorem noteTime (e : StemId) (d : Dev) (n : Nat) (m : TimeMsg) (tx : Stamp) :
    d.OnLane e (d.noteTime (.stem (.trunk n)) m tx) := by
  unfold Dev.noteTime followPort
  dsimp only
  rw [if_neg (by simp)]
  exact .trans (.modLink e d _ _) (.emit e _ _)

theorem putTime {e : StemId} {d : Dev} (h : LinkStart) (data : Bytes) (hend : d.hasEnd e) : d.OnLane e (d.putTime e h data) :=
  .trans (.emit e d _) (.modLine _ ((BaseKept.emit d _).hasEnd hend))

theorem timeFirst {e : StemId} {d : Dev} (hend : d.hasEnd e) : d.OnLane e (d.timeFirst e) := by
  cases e with
  | leaf l => exact .refl _ d
  | trunk n =>
    have hpop := OnLane.popTime (.trunk n) d (.stem n)
    have hnote := OnLane.noteTime (.trunk n) (d.popTime (.stem n)) n ((d.popTime (.stem n)).timeMsg (.stem (.trunk n)))
      ((d.popTime (.stem n)).linkStamp false {})
    exact .ite (.trans hpop (.trans hnote (.putTime _ _ (hnote.base.hasEnd (hpop.base.hasEnd hend))))) (.refl _ d)

end Dev.OnLane

/-! ### A frame goes out -/

theorem Dev.sendFrame_spec (d : Dev) {e : StemId} (h : LinkStart) (data : Bytes) (fresh : Bool) (hend : d.hasEnd e) :
    (d.sendFrame e h data fresh).out = d.out ++ [.linkFrame e { head := h, data := data } (linkCrc h data)] ∧
    (d.sendFrame e h data fresh).objs = d.objs ∧
    (d.sendFrame e h data fresh).stemAt e = { d.stemAt e with
      sending := some ({ head := h, data := data }, fresh), line := ((d.sendFrame e h data fresh).stemAt e).line } := by
  have hmod := (Dev.BaseKept.modStem d e fun x => { x with sending := some ({ head := h, data := data }, fresh) }).hasEnd hend
  have hput : ∀ {d1 : Dev}, d1.hasEnd e → d1.OnLane e (d1.putFrame e h data) := fun {d1} h1 =>
    .trans (.emit e d1 _) (.modLine _ ((Dev.BaseKept.emit d1 _).hasEnd h1))
  have hlane := hput hmod
  unfold Dev.sendFrame
  refine ⟨?_, ?_, ?_⟩
  · rw [Dev.putFrame, Dev.modLine_out]
    exact congrArg (· ++ _) (Dev.modStem_out d e _)
  · rw [hlane.objs, Dev.modStem_objs]
  · rw [hlane.stem, d.stemAt_modStem _ hend]

/-- The first frame of a replay goes out again (R362). -/
theorem Dev.startFrame_replay (d : Dev) {e : StemId} {f : LFrame} {rest : List LFrame} (hend : d.hasEnd e) (hst : d.stemState e = 4)
    (hidle : (d.stemAt e).sending = none) (hreplay : (d.stemAt e).replay = f :: rest) :
    let d' := d.startFrame e
    d'.out = (d.timeFirst e).out ++ [.linkFrame e f (linkCrc f.head f.data)] ∧ (d'.stemAt e).replay = rest ∧
    (d'.stemAt e).sending = some (f, false) ∧ (d'.stemAt e).retry = (d.stemAt e).retry ∧ d'.objs = d.objs := by
  have htime := Dev.OnLane.timeFirst hend
  have hend' := htime.base.hasEnd hend
  have hgo : d.startFrame e = ((d.timeFirst e).modStem e fun x => { x with replay := rest }).sendFrame e f.head f.data false := by
    unfold Dev.startFrame
    rw [if_neg (by simp [hst])]
    dsimp only
    rw [d.endFrameAt_of_idle hidle, htime.stem]
    dsimp only
    rw [hreplay]
  obtain ⟨hout, hobjs, hstem⟩ := Dev.sendFrame_spec ((d.timeFirst e).modStem e fun x => { x with replay := rest }) f.head f.data false
    ((Dev.BaseKept.modStem _ e _).hasEnd hend')
  rw [Dev.stemAt_modStem _ _ hend', htime.stem] at hstem
  rw [hgo]
  refine ⟨hout.trans (by rw [Dev.modStem_out]), ?_, ?_, ?_, hobjs.trans ((Dev.modStem_objs _ _ _).trans htime.objs)⟩
  · rw [hstem]
  · rw [hstem]
  · rw [hstem]

theorem linkFrameStart_yields_replay (s : State) (e : StemId) (f : LFrame) (rest : List LFrame) (hruns : s.runs (stemUnit e))
    (he : StemId.ok e = true) (hlen : s.trunk.tk.fab.stems.length = 256) (hst : (s.dev (stemUnit e)).stemState e = 4)
    (hidle : ((s.dev (stemUnit e)).stemAt e).sending = none) (hreplay : ((s.dev (stemUnit e)).stemAt e).replay = f :: rest) :
    Yields (exec (.linkFrameStart e) s) s (stemUnit e) fun d =>
      d.out = ((s.unit (stemUnit e)).timeFirst e).out ++ [.linkFrame e f (linkCrc f.head f.data)] ∧ (d.stemAt e).replay = rest ∧
      (d.stemAt e).sending = some (f, false) ∧ (d.stemAt e).retry = ((s.dev (stemUnit e)).stemAt e).retry ∧
      d.objs = (s.dev (stemUnit e)).objs := by
  rw [← State.unit_stemAt] at hidle hreplay ⊢
  show Yields (execLinkFrameStart e s) s _ _
  exact State.onStem_yields (f := fun d => d.startFrame e) hruns he
    ((s.unit (stemUnit e)).startFrame_replay (s.hasEnd_unit he hlen) hst hidle hreplay)

/-! ### The transfers of a frame of a leaf -/

/-- The leaf's link is as it was, and transfers may have joined those in progress, of which as many bytes have left (R354). -/
structure Dev.LineGrows (d d' : Dev) : Prop where
  stem : d'.stem = d.stem
  off : d'.arb.off = d.arb.off
  line : ∃ l, d'.arb.line = d.arb.line ++ l

namespace Dev.LineGrows

theorem of_eq {d d' : Dev} (hstem : d'.stem = d.stem) (hoff : d'.arb.off = d.arb.off) (hline : d'.arb.line = d.arb.line) :
    d.LineGrows d' := ⟨hstem, hoff, [], hline.trans (List.append_nil _).symm⟩

theorem refl (d : Dev) : d.LineGrows d := .of_eq rfl rfl rfl

theorem trans {a b c : Dev} (h : a.LineGrows b) (h' : b.LineGrows c) : a.LineGrows c := by
  obtain ⟨hstem, hoff, l, hline⟩ := h
  obtain ⟨hstem', hoff', l', hline'⟩ := h'
  exact ⟨hstem'.trans hstem, hoff'.trans hoff, l ++ l', by rw [hline', hline, List.append_assoc]⟩

theorem ite {d a b : Dev} {c : Prop} [Decidable c] (ha : d.LineGrows a) (hb : d.LineGrows b) : d.LineGrows (if c then a else b) := by
  split
  · exact ha
  · exact hb

theorem inc (d : Dev) (k : Nat) : d.LineGrows (d.inc k) := .of_eq (by simp) (by simp) (by simp)

theorem setQueue (d : Dev) (src : Nat) (q : List Xfer) : d.LineGrows (d.setQueue src q) := .of_eq rfl rfl rfl

theorem setCredit (d : Dev) (src : Nat) (v : Int) : d.LineGrows (d.setCredit src v) := .of_eq rfl rfl rfl

theorem offerRecord (d : Dev) : d.LineGrows d.offerRecord := by
  unfold Dev.offerRecord
  refine .ite (.ite (.refl d) (.setQueue d _ _)) ?_
  split
  · exact .ite (.refl d) (.setQueue d _ _)
  · exact .of_eq rfl rfl rfl

theorem offerDrain (d : Dev) : d.LineGrows d.offerDrain := by
  unfold Dev.offerDrain
  refine .ite (.refl d) ?_
  split
  · exact .of_eq rfl rfl rfl
  · exact .ite (.refl d) (.of_eq rfl rfl rfl)

theorem offer (d : Dev) : d.LineGrows d.offer := .trans (.offerRecord d) (.offerDrain _)

/-- The transfer that a decision sends joins those in progress (R314). -/
theorem award (d : Dev) (v : Verdict) : d.LineGrows (d.award v) := by
  unfold Dev.award
  split
  · exact .refl d
  · next x rest _ =>
    extract_lets yellow d1 d2 d3 d4
    have hd2 : d.LineGrows d2 := .trans (.inc d _) (.ite (.inc d1 _) (.refl d1))
    have hd4 : d2.LineGrows d4 := .trans (.ite (.refl d2) (.setCredit d2 _ _)) (.setQueue d3 _ _)
    exact hd2.trans (hd4.trans ⟨rfl, rfl, [x], rfl⟩)

theorem joinLeaf (fuel : Nat) (d : Dev) : d.LineGrows (Dev.joinLeaf fuel d) := by
  induction fuel generalizing d with
  | zero => exact .refl d
  | succ fuel ih =>
    unfold Dev.joinLeaf
    split
    · refine .ite (.refl d) ?_
      dsimp only
      split
      · exact .refl d
      · next v _ =>
        split
        · exact .refl d
        · exact .ite (.trans (.trans (.offer d) (.award _ v)) (ih _)) (.refl d)
    · exact .refl d

end Dev.LineGrows

theorem Dev.decideUplink_of_sending (d : Dev) (cut : Bool) {x : Nat × Bool} (h : d.arb.sending = some x) : d.decideUplink cut = d := by
  rw [Dev.decideUplink, if_pos (by simp [h])]

/-! ### A new frame of a leaf -/

/-- The bytes that a link frame takes from the front of its transfers (R354). -/
theorem frameData_spec {x : Xfer} {more l : List Xfer} (hx : 1 ≤ x.bytes.length) :
    let data := ((((x :: more) ++ l).flatMap (·.bytes)).drop 0).take 1024
    1 ≤ data.length ∧ data.length ≤ 1024 ∧ data.take x.bytes.length = x.bytes.take 1024 := by
  dsimp only
  rw [List.drop_zero, List.cons_append, List.flatMap_cons]
  refine ⟨?_, List.length_take_le _ _, ?_⟩
  · rw [List.length_take, List.length_append]
    omega
  · rw [List.take_take, min_comm, ← List.take_take, List.take_left']
    rfl

/-- A frame of a leaf's transfers in progress goes out where credit and retry buffer cover it (R352, R354, R367). -/
theorem Dev.startLeaf_spec (d : Dev) {l : LeafId} {src : Nat} {y : Bool} {x : Xfer} {more : List Xfer}
    (hsending : d.arb.sending = some (src, y)) (hline : d.arb.line = x :: more) (hoff : d.arb.off = 0) (hx : 1 ≤ x.bytes.length)
    (hmay : d.stem.mayStart x.cls (min 1024 d.arb.rest) = true) :
    ∃ f, (d.startLeaf (.leaf l)).stem.sending = some (f, true) ∧
      .linkFrame (.leaf l) f (linkCrc f.head f.data) ∈ (d.startLeaf (.leaf l)).out ∧
      f.head.seq = d.stem.txSeq ∧ f.head.cls = x.cls ∧ f.head.first = true ∧ f.head.unseq = false ∧
      f.head.length = f.data.length ∧ 1 ≤ f.data.length ∧ f.data.length ≤ 1024 ∧
      f.data.take x.bytes.length = x.bytes.take 1024 := by
  obtain ⟨hstem, hoff', joined, hline'⟩ := Dev.LineGrows.joinLeaf 1024 d
  rw [hline] at hline'
  rw [hoff] at hoff'
  have hgo : d.startLeaf (.leaf l) = (Dev.joinLeaf 1024 d).sendFrame (.leaf l)
      { seq := d.stem.txSeq, cls := x.cls, first := true, yellow := y
        length := ((((x :: more) ++ joined).flatMap (·.bytes)).drop 0 |>.take 1024).length, aux := auxOf x }
      (((((x :: more) ++ joined).flatMap (·.bytes)).drop 0).take 1024) true := by
    unfold Dev.startLeaf
    rw [d.decideUplink_of_sending false hsending]
    dsimp only
    rw [hsending, hline]
    dsimp only [List.head?_cons]
    rw [if_neg (by simp [hmay]), hoff', hline', hstem]
    rfl
  obtain ⟨hmin, hmax, htake⟩ := frameData_spec (more := more) (l := joined) hx
  rw [hgo]
  generalize ((((x :: more) ++ joined).flatMap (·.bytes)).drop 0).take 1024 = data at hmin hmax htake ⊢
  obtain ⟨hout, -, hsent⟩ := (Dev.joinLeaf 1024 d).sendFrame_spec (e := .leaf l)
    { seq := d.stem.txSeq, cls := x.cls, first := true, yellow := y, length := data.length, aux := auxOf x } data true trivial
  refine ⟨_, congrArg StemEnd.sending hsent, ?_, rfl, rfl, rfl, rfl, rfl, hmin, hmax, htake⟩
  rw [hout]
  exact List.mem_append_right _ (List.mem_singleton.mpr rfl)

theorem Dev.startFrame_leaf (d : Dev) {l : LeafId} (hst : d.stemState (.leaf l) = 4) (hidle : d.stem.sending = none)
    (hreplay : d.stem.replay = []) : d.startFrame (.leaf l) = d.startLeaf (.leaf l) := by
  have hreplay' : (d.stemAt (.leaf l)).replay = [] := hreplay
  unfold Dev.startFrame
  rw [if_neg (by simp [hst])]
  dsimp only
  have htime : d.timeFirst (.leaf l) = d := rfl
  rw [d.endFrameAt_of_idle (e := .leaf l) hidle, htime, hreplay']

theorem linkFrameStart_yields_new (s : State) (l : LeafId) (src : Nat) (y : Bool) (x : Xfer) (more : List Xfer)
    (hruns : s.runs (.leaf l)) (hst : (s.dev (.leaf l)).stemState (.leaf l) = 4) (hidle : (s.dev (.leaf l)).stem.sending = none)
    (hreplay : (s.dev (.leaf l)).stem.replay = []) (hsending : (s.dev (.leaf l)).arb.sending = some (src, y))
    (hline : (s.dev (.leaf l)).arb.line = x :: more) (hoff : (s.dev (.leaf l)).arb.off = 0) (hx : 1 ≤ x.bytes.length)
    (hmay : (s.dev (.leaf l)).stem.mayStart x.cls (min 1024 (s.dev (.leaf l)).arb.rest) = true) :
    Yields (exec (.linkFrameStart (.leaf l)) s) s (.leaf l) fun d =>
      ∃ f, d.stem.sending = some (f, true) ∧ .linkFrame (.leaf l) f (linkCrc f.head f.data) ∈ d.out ∧
        f.head.seq = (s.dev (.leaf l)).stem.txSeq ∧ f.head.cls = x.cls ∧ f.head.first = true ∧ f.head.unseq = false ∧
        f.head.length = f.data.length ∧ 1 ≤ f.data.length ∧ f.data.length ≤ 1024 ∧
        f.data.take x.bytes.length = x.bytes.take 1024 := by
  have hgo : (s.unit (.leaf l)).startFrame (.leaf l) = (s.unit (.leaf l)).startLeaf (.leaf l) :=
    Dev.startFrame_leaf _ hst hidle hreplay
  show Yields (execLinkFrameStart (.leaf l) s) s _ _
  refine State.onStem_yields (e := .leaf l) (f := fun d => d.startFrame (.leaf l)) hruns rfl ?_
  show ∃ f, ((s.unit (.leaf l)).startFrame (.leaf l)).stem.sending = _ ∧ _ ∈ ((s.unit (.leaf l)).startFrame (.leaf l)).out ∧ _
  rw [hgo]
  exact (s.unit (.leaf l)).startLeaf_spec hsending hline hoff hx hmay

/-! ### The obligation -/

/-- Settles O44, clause by clause: what an end sends, what it takes, what AckSeq, credit and timeouts make of it, and fleet
triggers. -/
theorem stemLinksCarryAcknowledgedFrames : Obligations.StemLinksCarryAcknowledgedFrames :=
  ⟨fun s e f rest _ hruns he hlen => linkFrameStart_yields_replay s e f rest hruns he hlen,
    fun s l src y x more _ => linkFrameStart_yields_new s l src y x more,
    fun s l h data crc between _ => linkFrame_yields_message s l h data crc between,
    fun s e h data crc between _ => linkFrame_yields_badCrc s e h data crc between,
    fun s e h data crc b _ => linkFrame_yields_unlisted s e h data crc b,
    fun s e hruns => s.on_yields (stemUnit e) id _ hruns rfl,
    fun s e q i _ => linkAck_yields s e q i,
    fun s e q i _ => linkNak_yields s e q i,
    fun s e a b _ => credit_yields s e a b,
    fun s e _ => retryTimeout_yields s e,
    trigger_yields_armed, trigger_yields_unheeded⟩

end Sys2Proof.Machine
end
